-- ==== Sys2Proof/Word.lean ====
section
/-! DEFINITION. The word types of the part: registers are 32 bits wide (R3), general registers and message words 64
(R28), engine addresses 48 (R14). -/

namespace Sys2Proof

/-- A byte. -/
abbrev W8 := BitVec 8
/-- Half a register word. -/
abbrev W16 := BitVec 16
/-- A register of the register space (R3). -/
abbrev W32 := BitVec 32
/-- A general register of a thread (R28). -/
abbrev W64 := BitVec 64
/-- A microword of the control store (R76). -/
abbrev W128 := BitVec 128

/-- A hardware thread, engine × 4 + thread, 0 to 191 (R30, s.tid bits 7:0). -/
abbrev Thr := Fin 192
/-- An engine, HE0 to HE47. -/
abbrev Eng := Fin 48
/-- A camp. -/
abbrev Camp := Fin 6
/-- An actuator and its media channel: 0 is A (MCA), 1 is B (MCB). -/
abbrev Act := Fin 2
/-- A Guyline context, 0 to 5 (R178). -/
abbrev Ctx := Fin 6
/-- A PCIe port, 0 or 1. -/
abbrev HPort := Fin 2
/-- A Zeunene port: 0 is East, 1 is West. -/
abbrev ZPort := Fin 2
/-- A channel of the DMA engine. -/
abbrev DCh := Fin 32
/-- A block of the register space, its offset divided by 0x10000 (R19, R58). -/
abbrev Block := Fin 19

end Sys2Proof
end

