-- ==== Sys2Proof/Machine/Inputs.lean ====
section
/-! DEFINITION. The operands of commands: what the surroundings of the part supply with an event (samples, decoder
verdicts, packets, host data). They are plain data. -/

namespace Sys2Proof

/-- A register field of an instruction word. -/
abbrev R5 := BitVec 5
/-- The fn field of format A. -/
abbrev F11 := BitVec 11

/-- Who reads or writes a register: a thread, the debug port through Ranger, or a cascade part through its window. -/
inductive Agent where
  | thread (p : Thr)
  | debug
  | remote (n : Fin 4)
  deriving DecidableEq, Repr

/-- Width of an access in bytes. -/
inductive Width where
  | b1 | b2 | b4 | b8
  deriving DecidableEq, Repr

/-- An upset of the control store (R96, R97): the replica, the word's address, which half, and the bits of the 80 stored
ones that it inverts: data in bits 63:0, row parity in 71:64, column parity in 79:72. -/
structure UcsUpset where
  camp : Fin 6
  addr : BitVec 14
  upper : Bool
  flips : BitVec 80
  deriving DecidableEq, Repr

/-- A sector as it passes under the head (R98, R123): the head signals of readers L, C and U over its 36,808 bit cells,
counted from the nominal preamble start, in a unit of the head's own. -/
structure Capture where
  l : List Int
  c : List Int
  u : List Int
  deriving DecidableEq, Repr

/-- A sector position as it passes under the writer: the actuator, and the cells of the sector at which servo gates open
(R148, R165). -/
structure WritePass where
  m : Act
  gates : List Nat
  deriving DecidableEq, Repr

/-- A revolution on which failed slots are rewritten: where servo gates open, for each slot in turn (R170). -/
structure RewritePass where
  m : Act
  gates : List (List Nat)
  deriving DecidableEq, Repr

/-- A tick of an actuator's load timer, with the motor supply converted at it (R202, R208). -/
structure LoadTick where
  a : Act
  vm : W32
  deriving DecidableEq, Repr

/-- A low pulse on a sideband line: the port, its length in µs (R351). -/
structure SbPulse where
  z : ZPort
  us : Nat
  deriving DecidableEq, Repr

/-- The data of a memory write and its EP bit. -/
structure BarData where
  bytes : List W8
  ep : Bool
  deriving DecidableEq, Repr

/-- What a memory read asks for: its length, and whether it is an AtomicOp (R328). -/
structure PwAsk where
  len : BitVec 13
  atomic : Bool
  deriving DecidableEq, Repr

/-- An upset of a retention slot: the 64-bit word of the slot, and the bits of its 80 stored ones that it inverts (R125,
R393). -/
structure SlotUpset where
  word : Fin 13803
  flips : BitVec 80
  deriving DecidableEq, Repr


/-- What the demodulator reads of a servo wedge (R151, R183 to R185): the Gray-coded track number, the wedge number, the
four burst amplitudes as binary32, the runout field. -/
structure Wedge where
  gray : W32
  number : BitVec 10
  a1 : W32
  a2 : W32
  a3 : W32
  a4 : W32
  runout : BitVec 12
  deriving DecidableEq, Repr


/-- What the spindle unit converts in one PWM period: the shunt's four codes of the last 200 ns of each of the two windows,
in two's complement (R217), and whether PFAIL_N has been high for 1 ms (R239). -/
structure PwmIn where
  c1 : List (BitVec 14)
  c2 : List (BitVec 14)
  pfailHigh : Bool
  deriving DecidableEq, Repr

/-- The edges of one back-EMF comparator: the time of each from the start of the window in ns, rising or falling (R228). -/
abbrev Edges := List (Nat × Bool)

/-- An edge of a back-EMF comparator: its time from the start of the window in ns, its phase (U, V, W), rising or falling
(R228). -/
abbrev Edge := Nat × Fin 3 × Bool



/-- A command tag (R289). -/
abbrev Tag := BitVec 11

/-- What reading a shard from the media gives (R267, R269): the bytes as written, other bytes, nothing while its unit is
absent, or nothing. -/
inductive ShardIn where
  | asWritten
  | other (data : List W8)
  | absent
  | unreadable
  deriving DecidableEq, Repr

/-- A sector that the cairn walk found (R176): the unit, the 32-byte tag, the 4,096 bytes. -/
structure Loc where
  unit : Nat
  tag : List W8
  data : List W8
  deriving DecidableEq, Repr

/-- How far the object index has come since the start (R276): loaded from a checkpoint and the journal, still being rebuilt,
or rebuilt from what the cairn walk found. -/
inductive IndexIn where
  | loaded
  | rebuilding
  | rebuilt (l : List Loc)
  deriving DecidableEq, Repr

/-- What drive firmware meets while it serves a command: how the host transfer ended (0, or a status code of R313 with
Status Code Type 0), the data fetched, the GOS parameter block; whether the Groundsheets of all other parts are armed;
the index, where the service has not yet come up since the start (R276); LBAs that cannot be read from the media; whether data cannot be written and verified
(R303, R307); the spread units present in the order firmware picks them; shard reads by chunk; and the number of units
the board's hold-up allows (R306). -/
structure CmdIn where
  err : Nat
  data : List W8
  param : List W8
  armed : Bool
  index : IndexIn
  badLbas : List Nat
  fault : Bool
  units : List Nat
  reads : List (List ShardIn)
  holdUp : Nat
  deriving DecidableEq, Repr


/-- How a PCIe completion ends a request (R336), or what became of a TLP that is none: malformed, or one held in a HIF buffer
with an uncorrectable error (R345). -/
inductive CplStatus where
  | ok | unsupported | abort | retry | malformed | bufferError
  deriving DecidableEq, Repr

/-- What a read of host memory by the part gives: its bytes, or how it fails (R336). -/
inductive HostData where
  | data (l : List W8)
  | timeout
  | refused
  | poisoned
  deriving DecidableEq, Repr

/-- The three BARs (R325). -/
inductive Bar where
  | bar0 | bar2
  deriving DecidableEq, Repr


/-- A packet of the Zeunene link (R366). `west` is DIR; `resv` gathers the reserved bits of ROUTE and TAG. -/
structure Packet where
  kind : W8
  src : BitVec 2
  dst : BitVec 2
  west : Bool
  resv : W16
  tag : BitVec 10
  len : W32
  arg : W64
  data : List W8
  deriving DecidableEq, Repr

/-- Flit types (R358). -/
inductive FlitType where
  | idle | data | nak | key
  deriving DecidableEq, Repr

/-- A flit as it passes the link layer, its payload in the clear (R358, DESIGN CHOICE, log entry 12). -/
structure Flit where
  seq : BitVec 10
  ack : BitVec 10
  type : FlitType
  /-- CCLASS: 0 request, 1 completion. -/
  cclass : BitVec 2
  ccount : W8
  payload : List W8
  /-- CHECK: the CRC-64 before keys are in use, then the tag. -/
  check : W64
  deriving DecidableEq, Repr

/-- What the receiver's FEC and CHECK say of a received flit (R359). -/
inductive FlitCheck where
  | good | fecBad | tagBad
  deriving DecidableEq, Repr

/-- The result of an authentication exchange (R363): the verdicts on chain and signature, and what the peer claims. -/
structure AuthResult where
  chainOk : Bool
  sigOk : Bool
  pos : BitVec 2
  basecamp : Bool
  size : BitVec 4
  fingerprint : W64
  deriving DecidableEq, Repr


/-- The instructions of the JTAG port that the spec names (R464, R465). -/
inductive TapIns where
  | bypass | idcode | samplePreload | dap | extest | clamp | highz
  deriving DecidableEq, Repr

/-- What Ranger's public-key engines find of an object's two signatures (R449). -/
structure Sigs where
  rsa : Bool
  slh : Bool
  deriving DecidableEq, Repr

/-- What BOOT_LOAD meets (R456 to R459, R481): the verdicts on the headers of the images it tries, in that order, and the
images of the NAND boot area and of the debug UART. -/
structure BootIn where
  sigs : List Sigs
  nand : List W8
  uart : List W8
  deriving DecidableEq, Repr

/-- What a Firmware Commit meets (R484, R489): the verdicts on the header, whether every other part's checks pass, whether
every slot write reads back, and whether the conditions of R489 hold on the other parts. -/
structure CommitIn where
  sg : Sigs
  others : Bool
  written : Bool
  ready : Bool
  deriving DecidableEq, Repr

/-- A register of a debug-halted thread (R464). -/
inductive DbgReg where
  | gen (n : R5)
  | pred (n : BitVec 3)
  | special (n : BitVec 10)
  deriving DecidableEq, Repr

end Sys2Proof
end

