-- ==== Sys2Proof/Syntax.lean ====
section
/-! DEFINITION. The commands of the block: one constructor per row of spec/opcode_table.json, in the table's order. The
operands carry what the command names and what the surroundings supply with it. -/

namespace Sys2Proof

/-- A command. -/
inductive Instr where
  /-- REGISTER_WRITE (R6): A write to a register that has no row of its own stores, sets, clears or discards bits according to the field's access type. -/
  | registerWrite (ag : Agent) (off : W32) (w : Width) (v hwSet hwClr : W32)
  /-- READ_CLEAR (R22): A read of an RC field returns its value and clears it to the reset value, without losing an increment that falls in the same cycle. -/
  | readClear (ag : Agent) (off : W32) (w : Width) (inc : W32)
  /-- PAIR_LO_READ (R25): A read of a _LO register captures the pair's _HI into the reading thread's holding copy. -/
  | pairLoRead (ag : Agent) (off : W32)
  /-- PAIR_HI_READ (R25): A read of a _HI register returns and empties the captured copy, or the current value when the copy holds another pair. -/
  | pairHiRead (ag : Agent) (off : W32)
  /-- PAIR_LO_WRITE (R25): A write of a _LO register stores the value in the writing thread's pending place for that pair. -/
  | pairLoWrite (ag : Agent) (off v : W32)
  /-- PAIR_HI_WRITE (R25): A write of a _HI register makes the 64-bit value take effect, using the thread's pending _LO or else the stored _LO. -/
  | pairHiWrite (ag : Agent) (off v : W32)
  /-- ALU (R34): A register-register arithmetic, logic, shift, multiply, divide, count or select operation chosen by fn. -/
  | alu (p : Thr) (rd ra rb : R5) (fn : F11)
  /-- CMP (R36): Compares ra with rb under the fn test and width and writes a predicate. -/
  | cmp (p : Thr) (rd ra rb : R5) (fn : F11)
  /-- PRED (R37): Combines predicate registers with PAND, POR, PXOR, PANDN or PNOT. -/
  | pred (p : Thr) (rd ra rb : R5) (fn : F11)
  /-- ADDI (R33): Adds a sign-extended immediate to ra. -/
  | addi (p : Thr) (rd ra : R5) (imm : W16)
  /-- ANDI (R33): ANDs ra with a zero-extended immediate. -/
  | andi (p : Thr) (rd ra : R5) (imm : W16)
  /-- ORI (R33): ORs ra with a zero-extended immediate. -/
  | ori (p : Thr) (rd ra : R5) (imm : W16)
  /-- XORI (R33): XORs ra with a zero-extended immediate. -/
  | xori (p : Thr) (rd ra : R5) (imm : W16)
  /-- SHLI (R33): Shifts ra left by an immediate amount. -/
  | shli (p : Thr) (rd ra : R5) (imm : W16)
  /-- SHRI (R33): Shifts ra right logically by an immediate amount. -/
  | shri (p : Thr) (rd ra : R5) (imm : W16)
  /-- SARI (R33): Shifts ra right arithmetically by an immediate amount. -/
  | sari (p : Thr) (rd ra : R5) (imm : W16)
  /-- ORI16 (R33): ORs ra with the immediate shifted left by 16. -/
  | ori16 (p : Thr) (rd ra : R5) (imm : W16)
  /-- ORI32 (R33): ORs ra with the immediate shifted left by 32. -/
  | ori32 (p : Thr) (rd ra : R5) (imm : W16)
  /-- ORI48 (R33): ORs ra with the immediate shifted left by 48. -/
  | ori48 (p : Thr) (rd ra : R5) (imm : W16)
  /-- CMPI (R36): Compares ra with a sign-extended immediate and writes a predicate. -/
  | cmpi (p : Thr) (rd ra : R5) (imm : W16)
  /-- EXTU (R38): Extracts a bit field of ra, zero-extended. -/
  | extu (p : Thr) (rd ra : R5) (imm : W16)
  /-- EXTS (R38): Extracts a bit field of ra, sign-extended. -/
  | exts (p : Thr) (rd ra : R5) (imm : W16)
  /-- INS (R38): Inserts the low bits of ra into a field of rd. -/
  | ins (p : Thr) (rd ra : R5) (imm : W16)
  /-- LD8U (R33): Loads a byte, zero-extended. -/
  | ld8u (p : Thr) (rd ra : R5) (imm : W16)
  /-- LD16U (R33): Loads 16 bits, zero-extended. -/
  | ld16u (p : Thr) (rd ra : R5) (imm : W16)
  /-- LD32U (R33): Loads 32 bits, zero-extended. -/
  | ld32u (p : Thr) (rd ra : R5) (imm : W16)
  /-- LD64 (R33): Loads 64 bits. -/
  | ld64 (p : Thr) (rd ra : R5) (imm : W16) (upset : BitVec 80)
  /-- LD8S (R33): Loads a byte, sign-extended. -/
  | ld8s (p : Thr) (rd ra : R5) (imm : W16)
  /-- LD16S (R33): Loads 16 bits, sign-extended. -/
  | ld16s (p : Thr) (rd ra : R5) (imm : W16)
  /-- LD32S (R33): Loads 32 bits, sign-extended. -/
  | ld32s (p : Thr) (rd ra : R5) (imm : W16)
  /-- ST8 (R33): Stores the low byte of rd. -/
  | st8 (p : Thr) (rd ra : R5) (imm : W16)
  /-- ST16 (R33): Stores the low 16 bits of rd. -/
  | st16 (p : Thr) (rd ra : R5) (imm : W16)
  /-- ST32 (R33): Stores the low 32 bits of rd. -/
  | st32 (p : Thr) (rd ra : R5) (imm : W16)
  /-- ST64 (R33): Stores rd. -/
  | st64 (p : Thr) (rd ra : R5) (imm : W16)
  /-- AMO (R49): Atomically reads a memory word, returns it and writes the result of the fn operation. -/
  | amo (p : Thr) (rd ra rb : R5) (fn : F11)
  /-- CAS (R50): Atomically compares memory with rd and writes rb when they are equal, returning the old value. -/
  | cas (p : Thr) (rd ra rb : R5) (w32 : Bool) (hi : BitVec 6)
  /-- FENCE (R52): Holds the thread until every earlier access has been performed. -/
  | fence (p : Thr) (rd ra rb : R5) (hi : BitVec 8)
  /-- FENCE_LD (R52): Holds the thread until every earlier load has been performed. -/
  | fenceLd (p : Thr) (rd ra rb : R5) (hi : BitVec 8)
  /-- FENCE_ST (R52): Holds the thread until every earlier store and cache maintenance operation is visible or acknowledged. -/
  | fenceSt (p : Thr) (rd ra rb : R5) (hi : BitVec 8)
  /-- FENCE_IO (R52): Orders DRAM and SRAM stores against register accesses. -/
  | fenceIo (p : Thr) (rd ra rb : R5) (hi : BitVec 8)
  /-- ISYNC (R52): Completes earlier instructions and refetches the instructions that follow. -/
  | isync (p : Thr) (rd ra rb : R5) (hi : BitVec 8)
  /-- CLEAN (R53): Writes a dirty shared-cache line to DRAM and keeps it valid. -/
  | clean (p : Thr) (rd ra rb : R5) (hi : BitVec 8)
  /-- FLUSH (R53): Cleans a shared-cache line and then invalidates it. -/
  | flush (p : Thr) (rd ra rb : R5) (hi : BitVec 8)
  /-- INVAL (R53): Invalidates a shared-cache line and discards its dirty data. -/
  | inval (p : Thr) (rd ra rb : R5) (hi : BitVec 8)
  /-- ZERO (R53): Makes a shared-cache line valid and dirty with zeros, without reading DRAM. -/
  | zero (p : Thr) (rd ra rb : R5) (hi : BitVec 8)
  /-- PREFETCH (R53): Starts a fill of an absent line and never raises an exception. -/
  | prefetch (p : Thr) (rd ra rb : R5) (hi : BitVec 8)
  /-- ICINV (R53): Invalidates one line of the engine's instruction cache. -/
  | icinv (p : Thr) (rd ra rb : R5) (hi : BitVec 8)
  /-- ICINVALL (R53): Invalidates the engine's whole instruction cache. -/
  | icinvall (p : Thr) (rd ra rb : R5) (hi : BitVec 8)
  /-- BR (R39): Branches PC-relative when its condition holds. -/
  | br (p : Thr) (pr : BitVec 3) (cond : BitVec 2) (off : BitVec 21)
  /-- CALL (R39): Branches conditionally and writes the return address to g31 when taken. -/
  | call (p : Thr) (pr : BitVec 3) (cond : BitVec 2) (off : BitVec 21)
  /-- JR (R33): Jumps to ra and writes the return address to rd. -/
  | jr (p : Thr) (rd ra rb : R5) (fn : F11)
  /-- MFS (R30): Reads a special register by index. -/
  | mfs (p : Thr) (rd ra : R5) (imm : W16)
  /-- MTS (R30): Writes a special register by index. -/
  | mts (p : Thr) (rd ra : R5) (imm : W16)
  /-- TRAP (R65): Raises the trap exception with a code. -/
  | trap (p : Thr) (rd ra : R5) (imm : W16)
  /-- ERET (R68): Copies s.estat to s.status and continues at s.epc. -/
  | eret (p : Thr) (rd ra rb : R5) (hi : BitVec 3)
  /-- WAIT (R59): Sleeps until a selected pending bit is set, or returns at once when one already is. -/
  | waitT (p : Thr) (rd ra rb : R5) (hi : BitVec 3)
  /-- MBSEND (R57): Sends a two-word message to an inbox or camp queue and returns a status. -/
  | mbsend (p : Thr) (rd ra rb : R5) (hi : BitVec 3)
  /-- MBRECV (R58): Takes one message from the thread's inbox or its camp queue into a register pair. -/
  | mbrecv (p : Thr) (rd ra rb : R5) (hi : BitVec 3)
  /-- YIELD (R56): The thread issues nothing for the next 4 cycles. -/
  | yieldT (p : Thr) (rd ra rb : R5) (hi : BitVec 3)
  /-- HALT (R63): Halts the thread and clears its run bit. -/
  | halt (p : Thr) (rd ra rb : R5) (hi : BitVec 3)
  /-- BKPT (R56): Raises the breakpoint exception. -/
  | bkpt (p : Thr) (rd ra rb : R5) (hi : BitVec 3)
  /-- CUST (R82): Dispatches a custom opcode to its customer microcode entry, or raises an exception. -/
  | cust (p : Thr) (rd ra rb : R5) (cx : BitVec 4) (fn : BitVec 7) (upsets : List UcsUpset)
  /-- INTERRUPT (R67): An enabled pending interrupt is taken between instructions. -/
  | interrupt (p : Thr)
  /-- TIMER_EXPIRY (R30): s.time reaches s.tmr and the TIMER pending bit sets. -/
  | timerExpiry (p : Thr)
  /-- WAIT_WAKE (R59): A waiting thread wakes when its condition becomes true. -/
  | waitWake (p : Thr)
  /-- BLOCK_EVENT_MESSAGE (R60): A block event going from not raised to raised sends one message under the routing byte. -/
  | blockEventMessage (b : Block)
  /-- EVENT_MESSAGE_DELIVER (R62): A held event or work message is delivered once a named camp queue has room. -/
  | eventMessageDeliver (k : Nat)
  /-- THREAD_RUN_WRITE (R63): A write of SYS_CAMPn_RUN starts threads at SYS_THR_ENTRY or halts them at an instruction boundary. -/
  | threadRunWrite (ag : Agent) (c : Camp) (v haltNow : W32)
  /-- UCS_LOAD_START (R93): A write of START begins a control-store load, or refuses it with BUSY or BADREGION. -/
  | ucsLoadStart (ag : Agent) (v : W32) (startNow : Bool)
  /-- UCS_LOAD_END (R93): A control-store load ends after checks and replica writes, and validates the new tables in one cycle. -/
  | ucsLoadEnd (rsa slh : Bool) (gen : BitVec 2)
  /-- ZONE_COMMIT (R104): At the first idle cycle after a ZONE_SEL write, the channel commits the head and zone and begins loading the entry. -/
  | zoneCommit (m : Act)
  /-- ZONE_LOAD_DONE (R104): The zone load completes, setting ZONE_READY or failing with ZONE_FAULT. -/
  | zoneLoadDone (m : Act)
  /-- READ_GO (R132): A write of GO arms a read run into the pending place. -/
  | readGo (m : Act) (v : W32)
  /-- READ_RUN_START (R132): The pending read run becomes active once the channel is idle, ready and enabled. -/
  | readRunStart (m : Act)
  /-- READ_ABORT (R137): A write of ABORT stops the active read run at the next sector boundary and discards the pending run. -/
  | readAbort (m : Act) (v : W32) (atEnd : Bool)
  /-- SECTOR_CAPTURE (R123): A sector of the read run passes under the head and is captured into the next unpinned retention slot. -/
  | sectorCapture (m : Act) (cap : Capture)
  /-- OTF_DECODE_START (R112): On-the-fly decode of a sector begins when its last LLR enters the elastic buffer. -/
  | otfDecodeStart (m : Act)
  /-- OTF_DECODE_END (R112): The on-the-fly decode converges, or stops at its iteration limit or for buffer pressure and sends the sector to the ladder. `full`: iterations done when 3 complete codewords waited. -/
  | otfDecodeEnd (m : Act) (full : Nat)
  /-- RETRY_ENTRY_END (R126): A retry ladder entry ends with success or moves to the next entry. `ups`: words of the sector's slot that were upset meanwhile. -/
  | retryEntryEnd (m : Act) (ups : List SlotUpset)
  /-- REREAD_REVOLUTION (R128): A REREAD or COMBINE revolution rereads the sector and replaces or averages it into the slot. -/
  | rereadRevolution (m : Act) (cap : Capture)
  /-- SECTOR_RECORD_DELIVER (R133): A sector's data and result record are delivered to the DMA channels once they accept them. -/
  | sectorRecordDeliver (m : Act)
  /-- RET_UNPIN (R124): A write of MCA_RET_UNPIN unpins slots, deferred for slots whose ladder still runs. -/
  | retUnpin (m : Act) (v : W32)
  /-- WRITE_GO (R164): A write of GO arms a write run into its pending place. -/
  | writeGo (m : Act) (v : W32)
  /-- WRITE_RUN_START (R164): The pending write run becomes active, latching mode and band and sending its preamp frames. -/
  | writeRunStart (m : Act)
  /-- SLOT_WRITE (R165): A slot of the write run is encoded and written as its position passes under the writer. -/
  | slotWrite (x : WritePass)
  /-- WRITE_UNDERRUN (R166): Data missing 2 µs before a slot's preamble ends the run with UNDERRUN. -/
  | writeUnderrun (m : Act)
  /-- VERIFY_RESULT (R168): The V-reader decode of a written sector passes or fails verify. `v`: the V reader's head signal over the sector. -/
  | verifyResult (m : Act) (v : List Int)
  /-- REWRITE_REVOLUTION (R170): Under Enforce, the failed slots are rewritten in place on a later revolution. -/
  | rewriteRevolution (x : RewritePass)
  /-- CAIRN_WRITE (R172): The cairn work area is written as sector 0 at its next passage. -/
  | cairnWrite (x : WritePass)
  /-- WRITE_ABORT (R174): A write of ABORT ends the write run at the next sector boundary. -/
  | writeAbort (m : Act) (v : W32) (atEnd : Bool)
  /-- WRITE_RECORD_DELIVER (R173): A write record is delivered to REC_CH for each ended slot and for the cairn. -/
  | writeRecordDeliver (m : Act)
  /-- PSI_FRAME (R530): A write of MCA_PSI_CTRL.GO requests one firmware preamp frame. -/
  | psiFrame (m : Act) (v : W32)
  /-- PSI_FRAME_SENT (R529): A preamp frame ends at the rise of CS_N and read data is captured. -/
  | psiFrameSent (m : Act) (rdata : W16)
  /-- SERVO_WEDGE (R182): A servo wedge is demodulated into track, wedge number, bursts and runout. -/
  | servoWedge (a : Act) (w : Wedge)
  /-- MISSED_WEDGE (R182): The search window closes without a valid mark, and a missed-wedge sample follows. -/
  | missedWedge (a : Act)
  /-- SAMPLE_INSTANT (R179): At the end of the runout field the actuator's contexts latch their inputs and the seek generator and qualifiers update. -/
  | sampleInstant (a : Act) (vm : W32)
  /-- CTX5_TIMER_TICK (R179): The context 5 timer ticks and triggers a sample instant. -/
  | ctx5TimerTick
  /-- CONTEXT_RUN (R180): Guyline starts a pending context's law run no sooner than 30 ns after its sample instant. -/
  | contextRun (c : Ctx) (ue : Bool)
  /-- LAW_NOP (R192): Law operation that does nothing. -/
  | lawNop (c : Ctx)
  /-- LAW_ADD (R192): Law operation d = a + b. -/
  | lawAdd (c : Ctx) (d a b : W8)
  /-- LAW_SUB (R192): Law operation d = a − b. -/
  | lawSub (c : Ctx) (d a b : W8)
  /-- LAW_MUL (R192): Law operation d = a × b. -/
  | lawMul (c : Ctx) (d a b : W8)
  /-- LAW_MAC (R192): Law operation d = d + a × b, rounded once. -/
  | lawMac (c : Ctx) (d a b : W8)
  /-- LAW_MSC (R192): Law operation d = d − a × b, rounded once. -/
  | lawMsc (c : Ctx) (d a b : W8)
  /-- LAW_MIN (R192): Law operation d = the smaller of a and b. -/
  | lawMin (c : Ctx) (d a b : W8)
  /-- LAW_MAX (R192): Law operation d = the larger of a and b. -/
  | lawMax (c : Ctx) (d a b : W8)
  /-- LAW_CLAMP (R192): Law operation clamping a to ±|b|. -/
  | lawClamp (c : Ctx) (d a b : W8)
  /-- LAW_ABS (R192): Law operation d = |a|. -/
  | lawAbs (c : Ctx) (d a : W8)
  /-- LAW_NEG (R192): Law operation d = −a. -/
  | lawNeg (c : Ctx) (d a : W8)
  /-- LAW_MOV (R192): Law operation d = a. -/
  | lawMov (c : Ctx) (d a : W8)
  /-- LAW_RCP (R192): Law operation d = 1/a. -/
  | lawRcp (c : Ctx) (d a : W8)
  /-- LAW_RSQ (R192): Law operation d = 1/√a. -/
  | lawRsq (c : Ctx) (d a : W8)
  /-- LAW_SLT (R192): Law operation F = (a < b). -/
  | lawSlt (c : Ctx) (a b : W8)
  /-- LAW_SGE (R192): Law operation F = (a ≥ b). -/
  | lawSge (c : Ctx) (a b : W8)
  /-- LAW_CMOV (R192): Law operation d = a when F = 1. -/
  | lawCmov (c : Ctx) (d a : W8)
  /-- LAW_PRESET (R205): Law operation d = YPREV − a when TRANSFER = 1.0. -/
  | lawPreset (c : Ctx) (d a : W8)
  /-- LAW_OUT (R192): Freezes y0 as this sample's command. -/
  | lawOut (c : Ctx)
  /-- LAW_END (R192): Ends the law run, freezing y0 if no OUT has. -/
  | lawEnd (c : Ctx)
  /-- OUTPUT_INSTANT (R197): At a context's output instant the frozen y0 is sent, or the previous output is held and counted late. -/
  | outputInstant (c : Ctx) (met : Bool)
  /-- ADI_FRAME (R199): A 32-bit frame is sent on the actuator driver interface. -/
  | adiFrame (a : Act)
  /-- ADI_RETURN_FRAME (R201): A return frame from the driver is checked and its SENSE, FLT and PARKED are taken. -/
  | adiReturnFrame (a : Act) (w : W32)
  /-- ADI_CONFIG (R199): A write of GYL_ACTa_ADICFG sends one CONFIG frame at the next free gap. -/
  | adiConfig (a : Act) (v : W32)
  /-- STATE_WRITE (R195): A write to a context state register is applied between runs. -/
  | stateWrite (c : Ctx) (j : BitVec 6) (v : W32)
  /-- SEEK_GO (R203): A write of SEEK.GO starts or restarts a seek at the next sample instant. -/
  | seekGo (a : Act) (v : W32)
  /-- CTX_COMMIT (R207): At the commit event the context's shadow bank, LAW and PHASE become active. -/
  | ctxCommit (c : Ctx)
  /-- CTX_ENABLE (R194): A write of EN = 1 restarts a context, clears FAULTED and sets TRANSFER for the first run. -/
  | ctxEnable (c : Ctx) (v : W32)
  /-- LOAD (R208): A write of LOAD installs the load law and starts load-timer triggering and acquisition. -/
  | load (a : Act) (v : W32)
  /-- LOAD_TIMER_TICK (R208): The load timer triggers both contexts of an actuator during a load or unload. -/
  | loadTimerTick (x : LoadTick)
  /-- LOAD_TIMEOUT (R208): LOAD_TMO passes without acquisition, setting LOAD_FAIL and starting an unload. -/
  | loadTimeout (a : Act)
  /-- UNLOAD (R209): A write of UNLOAD clears ACQUIRED and installs the unload law. -/
  | unload (a : Act) (v : W32)
  /-- UNLOAD_TIMEOUT (R209): LOAD_TMO passes during an unload and a retract begins. -/
  | unloadTimeout (a : Act)
  /-- RETRACT (R210): A retract stops the actuator's contexts and sends MA 0 and RETRACT frames. -/
  | retract (a : Act) (v : W32)
  /-- RETRACT_STATUS_TICK (R210): Every 10 µs during a retract a STATUS frame is sent until PARKED is reported. -/
  | retractStatusTick (a : Act)
  /-- RETRACT_TIMEOUT (R210): RET_TMO passes, a PARK frame is sent and the voice-coil context faults. -/
  | retractTimeout (a : Act)
  /-- PWM_PERIOD (R214): A PWM period starts, applying duties, REQ changes, current loops, speed samples and state transitions. -/
  | pwmPeriod (x : PwmIn)
  /-- SPN_DISABLE (R213): A write of EN = 0 drives all gates low within 100 ns and enters OFF. -/
  | spnDisable (v : W32)
  /-- SPN_REQ_WRITE (R212): A write of SPN_CTRL.REQ requests RUN, STOP or COAST from the next PWM period start. -/
  | spnReqWrite (v : W32)
  /-- OC_CUT (R219): A shunt conversion above OC_LIM turns all gates off for the rest of the period. -/
  | ocCut (code : BitVec 14)
  /-- EXT_FAULT (R216): SPN_FLT_N low for 100 ns drives the gates low and enters FAULT. -/
  | extFault
  /-- CATCH_END (R228): The 20 ms catch-spin window ends and the unit chooses ALIGN, RUN or ZVBRAKE. -/
  | catchEnd (u v w : Edges)
  /-- ZVBRAKE_SLICE_END (R230): A 50 ms zero-vector slice ends and an observation begins. -/
  | zvbrakeSliceEnd
  /-- ZVBRAKE_OBSERVE_END (R230): A 20 ms observation ends and braking repeats or moves on. -/
  | zvbrakeObserveEnd (u v w : Edges)
  /-- ALIGN_END (R231): ALIGN_MS passes and the open-loop ramp begins. -/
  | alignEnd
  /-- START_TIMEOUT (R232): RUN is not reached within START_TMO, START_FAIL sets and the unit coasts. -/
  | startTimeout
  /-- VM_SAMPLE (R233): A VM and BRK_ISNS sample drives the chopper, its fault test and the overvoltage thresholds. -/
  | vmSample (mv ma : W16)
  /-- CHOP_CLR (R234): A write of SPN_CHOP.CLR clears CHOP_FAULTY. -/
  | chopClr (v : W32) (faultNow : Bool)
  /-- UNDERVOLTAGE_TRIGGER (R237): VM stays below UV for 10 µs and triggers generator entry or coasting. -/
  | undervoltageTrigger
  /-- POWER_FAIL (R309): PFAIL_N low for 2 µs triggers the dump, stops NVQ, retracts the actuators and triggers GEN. -/
  | powerFail
  /-- PUT (R279): GOS PUT opens a session, carries chunks or metadata, or seals a version. -/
  | gosPut (t : Tag) (x : CmdIn)
  /-- GET (R279): GOS GET reads, rebuilds and checks chunks and returns object bytes. -/
  | gosGet (t : Tag) (x : CmdIn)
  /-- DELETE (R279): GOS DELETE tombstones one or all live versions unless retained or held. -/
  | gosDelete (t : Tag) (x : CmdIn)
  /-- STAT (R279): GOS STAT returns a version's record header, ODIG and state. -/
  | stat (t : Tag) (x : CmdIn)
  /-- LIST (R279): GOS LIST returns keys with live versions after a start key. -/
  | gosList (t : Tag) (x : CmdIn)
  /-- RETAIN (R272): GOS RETAIN sets or clears legal hold or extends retention. -/
  | retain (t : Tag) (x : CmdIn)
  /-- VERSIONS (R279): GOS VERSIONS lists every version of a key, newest first. -/
  | versions (t : Tag) (x : CmdIn)
  /-- FIXITY (R270): GOS FIXITY checks chunk digests and ODIG, optionally parity, and repairs. -/
  | fixity (t : Tag) (x : CmdIn)
  /-- EXPORT_OPEN (R283): EXPORT with FLAGS 0 opens the drive's export session. -/
  | exportOpen (t : Tag) (x : CmdIn)
  /-- EXPORT_READ (R283): EXPORT with FLAGS 1 returns the next bytes of the export stream. -/
  | exportRead (t : Tag) (x : CmdIn)
  /-- EXPORT_CLOSE (R283): EXPORT with FLAGS 2 ends the export session. -/
  | exportClose (t : Tag) (x : CmdIn)
  /-- EXPORT_TIMEOUT (R283): An export session ends after 10 min without a READ. -/
  | exportTimeout
  /-- CAIRN_WALK (R279): GOS CAIRN_WALK returns the cairns of a range of tracks. -/
  | cairnWalk (t : Tag) (x : CmdIn)
  /-- NS_CREATE (R241): Creates an object namespace from its descriptor. -/
  | nsCreate (t : Tag) (x : CmdIn)
  /-- NS_DELETE (R243): Deletes a namespace unless retained, held or exporting. -/
  | nsDelete (t : Tag) (x : CmdIn)
  /-- NS_QUERY (R278): Returns a namespace's descriptor and usage. -/
  | nsQuery (t : Tag) (x : CmdIn)
  /-- NS_SET (R242): Changes namespace policy fields within the lock rules. -/
  | nsSet (t : Tag) (x : CmdIn)
  /-- STORE (R282): Key Value Store acts as a one-command PUT. -/
  | store (t : Tag) (x : CmdIn)
  /-- RETRIEVE (R282): Key Value Retrieve acts as GET of the latest live version. -/
  | retrieve (t : Tag) (x : CmdIn)
  /-- KV_DELETE (R282): Key Value Delete acts as DELETE with ALL = 0. -/
  | kvDelete (t : Tag) (x : CmdIn)
  /-- EXIST (R282): Key Value Exist acts as STAT. -/
  | exist (t : Tag) (x : CmdIn)
  /-- KV_LIST (R282): Key Value List acts as LIST. -/
  | kvList (t : Tag) (x : CmdIn)
  /-- CHUNK_COMMIT (R263): Once every written sector of every shard has verified, the chunk commits in the journal and its charge is released. -/
  | chunkCommit (ns : BitVec 6) (h : W64) (k : W32) (l : List (Nat × Nat))
  /-- COMMIT_TIMEOUT (R267): A unit that has not reported after COMMIT_TMO has its shard placed again. -/
  | commitTimeout (ns : BitVec 6) (h : W64) (k : W32) (u : Nat) (present : List Nat)
  /-- GET_SLOW_SHARD (R267): A data shard still incomplete SLOW_MS after the others causes a parity shard to be read. -/
  | getSlowShard (t : Tag) (k : W32) (j : BitVec 4)
  /-- SESSION_TIMEOUT (R266): A PUT session idle for SESSION_TMO is abandoned. -/
  | sessionTimeout (token : W32)
  /-- INDEX_CHECKPOINT (R275): Every CKPT_MIN minutes the index is checkpointed to two conventional bands. -/
  | indexCheckpoint (verified : Bool)
  /-- IDX_SEARCH (R287): A write of OBJ_IDXc_CTRL.GO starts an index-assist node search. -/
  | idxSearch (c : Fin 8) (v : W32)
  /-- IDX_SEARCH_DONE (R287): The node search ends with SLOT and FOUND, or ERR. -/
  | idxSearchDone (c : Fin 8)
  /-- RCLOCK_WRITE (R271): A write of OBJ_RCLOCK raises the retention clock, and a lower value has no effect. -/
  | rclockWrite (ag : Agent) (v : W32)
  /-- RCLOCK_TICK (R271): The retention clock advances by one each RTC second. -/
  | rclockTick
  /-- SQ_DOORBELL (R289): A host submission queue tail doorbell write makes the queue eligible for fetch. -/
  | sqDoorbell (n : HPort) (q : BitVec 8) (v : W16)
  /-- CQ_HEAD_DOORBELL (R292): A host completion queue head doorbell releases held completion entries. -/
  | cqHeadDoorbell (n : HPort) (q : BitVec 8) (v : W16)
  /-- COMMAND_FETCH (R289): NVQ fetches a submission entry, assigns tag and sequence number, and classifies it. -/
  | commandFetch (e : HostData)
  /-- FAST_WRITE (R295): An eligible write raises the charge, takes a free slot and fetches its data. -/
  | fastWrite (t : Tag)
  /-- FAST_WRITE_BUCKET (R295): With data in place, the bucket line is updated indivisibly, a log record is written and the completion posted. -/
  | fastWriteBucket (t : Tag) (d : HostData)
  /-- FAST_READ (R296): A cache-hit read copies its slot to the host and posts the completion, or falls back to the engine path. -/
  | fastRead (t : Tag)
  /-- COMPLETION_POST (R291): A write of NVQ_CPLp_W3 posts one completion from the thread's port. -/
  | completionPost (ag : Agent) (p : Thr) (v : W32)
  /-- CHARGE_ADJUST (R304): A write of NVI_GS_ADJp applies or refuses a signed change of the dirty charge. -/
  | chargeAdjust (ag : Agent) (p : Thr) (v : W32)
  /-- GS_PREP (R308): A write of PREP erases and measures the spare vault area and tries to arm it. -/
  | gsPrep (v : W32)
  /-- GS_PREP_DONE (R308): PREP ends, arming the area or setting PREP_FAIL. -/
  | gsPrepDone (dies : BitVec 6) (page ppb bad : W32) (rate : W16)
  /-- SW_DUMP (R309): A write of SW_DUMP starts a Groundsheet dump. -/
  | swDump (v : W32)
  /-- DUMP_END (R310): The dump seals its image, or fails when the area fills. -/
  | dumpEnd (lost : W32)
  /-- DUMP_ABANDON (R311): A dump reaches the time limit of a reset or trip and ends with DUMP_FAIL. -/
  | dumpAbandon
  /-- GS_RESTORE (R312): A write of RESTORE starts restoring the newest sealed image. -/
  | gsRestore (v : W32)
  /-- GS_RESTORE_DONE (R312): The restore ends with RESTORE_DONE, NONE or RESTORE_FAIL. -/
  | gsRestoreDone (bad : Option Nat)
  /-- WRITE (R302): NVM Write to NSID 1 completes once charged in DRAM, or written through. -/
  | nvmWrite (t : Tag) (x : CmdIn)
  /-- READ (R297): NVM Read returns data from cache or media in fetch order against overlaps. -/
  | nvmRead (t : Tag) (x : CmdIn)
  /-- FLUSH_CMD (R300): NVMe Flush completes once earlier completed writes are verified or committed. -/
  | nvmFlush (t : Tag) (x : CmdIn)
  /-- COMPARE (R297): NVM Compare reads and compares data. -/
  | nvmCompare (t : Tag) (x : CmdIn)
  /-- WRITE_ZEROES (R301): NVM Write Zeroes writes zeros atomically up to 512 LBAs. -/
  | writeZeroes (t : Tag) (x : CmdIn)
  /-- DATASET_MANAGEMENT (R288): NVM Dataset Management deallocates LBAs. -/
  | datasetManagement (t : Tag) (x : CmdIn)
  /-- VERIFY (R297): NVM Verify reads data without transfer. -/
  | nvmVerify (t : Tag) (x : CmdIn)
  /-- IDENTIFY (R288): Admin Identify returns controller or namespace data. -/
  | identify (t : Tag) (x : CmdIn)
  /-- GET_FEATURES (R288): Admin Get Features returns a feature value. -/
  | getFeatures (t : Tag) (x : CmdIn)
  /-- SET_FEATURES (R288): Admin Set Features changes a feature, including the dirty ceiling and timestamp. -/
  | setFeatures (t : Tag) (x : CmdIn)
  /-- GET_LOG_PAGE (R288): Admin Get Log Page returns a supported log page. -/
  | getLogPage (t : Tag) (x : CmdIn)
  /-- CREATE_IO_SQ (R288): Creates an I/O submission queue. -/
  | createIoSq (t : Tag)
  /-- CREATE_IO_CQ (R339): Creates an I/O completion queue with an interrupt vector. -/
  | createIoCq (t : Tag)
  /-- DELETE_IO_SQ (R313): Deletes an I/O submission queue, aborting its commands. -/
  | deleteIoSq (t : Tag)
  /-- DELETE_IO_CQ (R288): Deletes an I/O completion queue. -/
  | deleteIoCq (t : Tag)
  /-- ABORT (R314): Admin Abort ends a named command unless it has passed its data point or completed. -/
  | nvmAbort (t : Tag)
  /-- ASYNCHRONOUS_EVENT_REQUEST (R288): Admin Asynchronous Event Request waits for an event to report. -/
  | asynchronousEventRequest (t : Tag)
  /-- FIRMWARE_IMAGE_DOWNLOAD (R483): Stores one 64 KiB-aligned piece of a firmware bundle. -/
  | firmwareImageDownload (t : Tag) (x : CmdIn)
  /-- FW_COMMIT_CA0 (R484): Firmware Commit CA 0 verifies, relays and writes the image to a slot without activating it. -/
  | fwCommitCa0 (t : Tag) (x : CommitIn)
  /-- FW_COMMIT_CA1 (R484): Firmware Commit CA 1 writes the image and activates it at the next reset. -/
  | fwCommitCa1 (t : Tag) (x : CommitIn)
  /-- FW_COMMIT_CA2 (R484): Firmware Commit CA 2 changes only the boot records to activate a slot at the next reset. -/
  | fwCommitCa2 (t : Tag)
  /-- FW_COMMIT_CA3 (R489): Firmware Commit CA 3 writes the image and hands over at once when the conditions hold. -/
  | fwCommitCa3 (t : Tag) (x : CommitIn)
  /-- FORMAT_NVM (R318): Format NVM deallocates, overwrites or tombstones by SES. -/
  | formatNvm (t : Tag) (bands total : Nat)
  /-- SANITIZE_CRYPTO_ERASE (R316): Sanitize crypto erase replaces every media key and overwrites unencrypted namespaces. -/
  | sanitizeCryptoErase (t : Tag) (bands total : Nat)
  /-- SANITIZE_OVERWRITE (R316): Sanitize overwrite writes every data slot with the pattern for OWPASS passes. -/
  | sanitizeOverwrite (t : Tag) (bands total : Nat)
  /-- SANITIZE_BLOCK_ERASE (R316): Sanitize block erase is refused with Invalid Field. -/
  | sanitizeBlockErase (t : Tag)
  /-- PERST_ASSERT (R342): PERST# of a port is asserted, resetting its configuration space and controller and clearing CFG_READY. -/
  | perstAssert (n : HPort)
  /-- PERST_RELEASE (R321): PERST# is released and configuration requests get Request Retry Status until CFG_READY. -/
  | perstRelease (n : HPort)
  /-- CFG_READY_TIMEOUT (R321): 1.0 s after release HIF sets CFG_READY itself and CFG_TMO sets. -/
  | cfgReadyTimeout (n : HPort)
  /-- HOT_RESET (R342): A hot reset or DL_Down resets the function except sticky fields. -/
  | hotReset (n : HPort)
  /-- FLR (R342): A function level reset resets the function except sticky and link fields. -/
  | flr (n : HPort)
  /-- CONTROLLER_RESET (R342): CC.EN written from 1 to 0 resets the NVMe controller. -/
  | controllerReset (n : HPort)
  /-- CONFIG_READ (R322): A configuration read is answered from the function's configuration space. -/
  | configRead (n : HPort) (dw : BitVec 10)
  /-- CONFIG_WRITE (R330): A configuration write changes enables, BARs or sizes for TLPs that arrive after it. -/
  | configWrite (n : HPort) (dw : BitVec 10) (be : BitVec 4) (v : W32)
  /-- BAR_READ (R326): A memory read to BAR0 or BAR2 returns NVMe or MSI-X data, or Unsupported Request. -/
  | barRead (n : HPort) (b : Bar) (off : BitVec 14) (len : BitVec 13)
  /-- BAR_WRITE (R326): A memory write to BAR0 or BAR2 reaches NVMe registers or MSI-X entries, or is discarded. -/
  | barWrite (n : HPort) (b : Bar) (off : BitVec 14) (d : BarData)
  /-- PEER_WINDOW_READ (R328): A BAR4 read is served from DRAM through the committed window. -/
  | peerWindowRead (n : HPort) (off : BitVec 33) (q : PwAsk)
  /-- PEER_WINDOW_WRITE (R328): A BAR4 write reaches DRAM through the committed window, or is discarded. -/
  | peerWindowWrite (n : HPort) (off : BitVec 33) (d : List (Option W8)) (ep : Bool)
  /-- PW_COMMIT (R331): At the first TLP boundary after GO the peer window shadow becomes active or is refused. -/
  | pwCommit (n : HPort)
  /-- COMPLETION_RECEIVED (R336): A PCIe completion arrives for a GX8 request, delivers data or fails it, or is discarded as unexpected. -/
  | completionReceived (n : HPort) (tag : W16) (st : CplStatus) (d : List W8) (ep : Bool)
  /-- COMPLETION_TIMEOUT (R336): A GX8 request's completion timer expires and the request fails. -/
  | completionTimeout (n : HPort) (tag : W16)
  /-- TAG_QUARANTINE_END (R337): A timed-out tag leaves quarantine and returns to the free tags. -/
  | tagQuarantineEnd (n : HPort) (tag : W16)
  /-- LINK_UP (R320): A port's link reaches DL_Active. -/
  | linkUp (n : HPort) (speed : BitVec 3) (x2 flit tags14 : Bool)
  /-- LINK_DOWN (R342): A port's link leaves DL_Active. -/
  | linkDown (n : HPort)
  /-- CREDIT_STALL (R346): No posted credit arrives for HIF_STALL.MS and STALL sets. -/
  | creditStall (n : HPort)
  /-- DOE_REQUEST (R349): A DOE data object arrives in a function's mailbox for Ranger. -/
  | doeRequest (n : HPort) (o : List W32)
  /-- DOE_ABORT (R349): A DOE Abort discards the object in progress and any unread response. -/
  | doeAbort (n : HPort)
  /-- LTR_WRITE (R348): A write that changes HIF_PORTn_LTR sends one LTR message. -/
  | ltrWrite (n : HPort) (v : W32)
  /-- SB_OFFER_EAST (R354): An east offer pulse arrives and an unnumbered Outpost takes the position or the Basecamp closes the ring. -/
  | sbOfferEast (us : Nat)
  /-- SB_OFFER_WEST (R354): A west offer pulse arrives and is handled as an east offer with the offer decremented. -/
  | sbOfferWest (us : Nat)
  /-- OFFER_FORWARD (R354): 20 µs after an offer ends the part sends the next offer. -/
  | offerForward
  /-- SB_WAKE (R352): A WAKE pulse is received as a wake source. -/
  | sbWake (x : SbPulse)
  /-- WAKE_FORWARD (R352): An Outpost forwards a received WAKE on its opposite port 50 µs after it ends. -/
  | wakeForward
  /-- SB_WAKE_SEND (R352): A write of CSC_SB.WAKE sends one WAKE on both ports. -/
  | sbWakeSend (ag : Agent) (v : W32)
  /-- SIDEBAND_RESET (R353): A sideband low of 2 ms or longer acts as a cascade FULL reset when enabled. -/
  | sidebandReset (x : SbPulse)
  /-- SIDEBAND_RESET_SEND (R378): A write of SB_E or SB_W drives a 2.5 ms sideband reset of the neighbour. -/
  | sidebandResetSend (ag : Agent) (v : W32)
  /-- ROLL_CALL (R354): A write of RC_GO on the Basecamp sends an east offer of position 1. -/
  | rollCall (ag : Agent) (v : W32)
  /-- ROLL_CALL_WEST (R354): 1 ms after RC_GO without closure the Basecamp sends a west offer. -/
  | rollCallWest
  /-- ROLL_CALL_END (R354): 2 ms after RC_GO roll-call ends and RC_DONE sets. -/
  | rollCallEnd (stale : BitVec 4)
  /-- FLIT_LOCK (R357): A training port reaches flit lock and starts authentication. -/
  | flitLock (z : ZPort)
  /-- TRAINING_TIMEOUT (R357): A port not locked in 200 ms starts training again. -/
  | trainingTimeout (z : ZPort)
  /-- AUTH_COMPLETE (R363): The KEY exchange ends and the port goes UP or REFUSED. -/
  | authComplete (z : ZPort) (a : AuthResult)
  /-- FLIT_RECEIVE (R359): A flit is received, checked, acknowledged or discarded with a NAK. -/
  | flitReceive (z : ZPort) (f : Flit) (chk : FlitCheck)
  /-- NAK_RECEIVED (R359): A NAK causes every unacknowledged flit to be resent. -/
  | nakReceived (z : ZPort) (ack : BitVec 10)
  /-- REPLAY_TIMEOUT (R359): 2 µs without ACK progress causes a resend, and four fruitless resends retrain the port. -/
  | replayTimeout (z : ZPort)
  /-- PORT_DOWN (R361): No good codeword for 1 µs takes the port DOWN to retrain. -/
  | portDown (z : ZPort)
  /-- PORT_DEGRADE (R362): A bad-flit window or a credit stall takes the port DEGRADED. -/
  | portDegrade (z : ZPort) (stall : Bool)
  /-- REKEY (R365): After 2^32 sequenced flits a direction is rekeyed by KEY flits. -/
  | rekey (z : ZPort) (sending : Bool)
  /-- MWR (R370): A remote memory write request passes the inbound filter and writes, answered by CPL. -/
  | mwr (z : ZPort) (pk : Packet)
  /-- MRD (R370): A remote memory read request passes the inbound filter and is answered with data. -/
  | mrd (z : ZPort) (pk : Packet)
  /-- CPL (R368): A completion packet ends an outstanding request, or is discarded as unexpected. -/
  | cplPkt (z : ZPort) (pk : Packet)
  /-- MSG (R371): A message packet becomes a work message to a camp. -/
  | msgPkt (z : ZPort) (pk : Packet)
  /-- DBELL (R371): A doorbell packet ORs its mask into CSC_DOORBELL. -/
  | dbell (z : ZPort) (pk : Packet)
  /-- RELAY (R485): A relay packet from a neighbour is written into the relay area. -/
  | relayPkt (z : ZPort) (pk : Packet)
  /-- RESET (R378): A reset packet from position 0 is answered and resets the part in CORE or FULL mode. -/
  | resetPkt (z : ZPort) (pk : Packet)
  /-- PING (R375): A ping packet is answered by CPL. -/
  | ping (z : ZPort) (pk : Packet)
  /-- LINKSTATE (R372): A link-state packet updates segment usability and is forwarded. -/
  | linkstate (z : ZPort) (pk : Packet)
  /-- CSC_REQUEST_TIMEOUT (R368): A cascade request without completion after CSC_TMO fails and its tag is quarantined. -/
  | cscRequestTimeout (tag : BitVec 10)
  /-- PING_TICK (R375): Every PING_MS the part pings its peers and updates ABSENT and PRESENT. -/
  | pingTick (stale : BitVec 4)
  /-- CSC_MSG_SEND (R371): A write of CSC_MSGp_SEND sends an MSG or DBELL to a position. -/
  | cscMsgSend (ag : Agent) (n : Thr) (v : W32)
  /-- CASCADE_RESET_SEND (R378): A write of CSC_RESET sends RESET packets to the target positions. -/
  | cascadeResetSend (ag : Agent) (v : W32)
  /-- PORT_RETRY (R363): A write of RETRY makes a REFUSED port train again. -/
  | portRetry (ag : Agent) (z : ZPort) (v : W32)
  /-- PORT_RESTORE (R362): A write of RESTORE returns a DEGRADED port to UP. -/
  | portRestore (ag : Agent) (z : ZPort) (v : W32)
  /-- DRAM_INIT (R379): A write of MEM_CTRL.INIT trains the channels, resuming or not. -/
  | dramInit (v : W32)
  /-- DRAM_INIT_DONE (R379): Training ends with INIT_DONE or INIT_FAIL. -/
  | dramInitDone (ok : Bool)
  /-- CACHE_FILL_DONE (R385): A bank's miss fill completes, serving joined requests and held maintenance operations. -/
  | cacheFillDone (bank : Fin 8)
  /-- WRITEBACK_DRAIN (R386): The DRAM controller accepts a line from the write-back buffer. -/
  | writebackDrain
  /-- WAY_POWER_DOWN (R392): Setting a CCH_WAYPWR.OFF bit starts cleaning a way pair. -/
  | wayPowerDown (v : W32)
  /-- WAY_PAIR_DONE (R392): A way pair finishes cleaning and powers down. -/
  | wayPairDone
  /-- WAY_POWER_UP (R392): Clearing an OFF bit powers a pair up with its ways invalid. -/
  | wayPowerUp (v : W32)
  /-- SWEEP_STEP (R402): In an idle cycle Sweep reads a word and rewrites or poisons it as needed. -/
  | sweepStep (id : BitVec 7) (ix : W32) (u u2 : BitVec 80) (lap : Option W32)
  /-- REFRESH_RATE_CHANGE (R383): A new refresh rate takes effect at the next refresh. -/
  | refreshRateChange (dev : Fin 3)
  /-- DMA_GO (R414): A write of GO starts the channel at HEAD. -/
  | dmaGo (c : DCh) (v : W32)
  /-- DMA_KICK (R414): A write of KICK rereads NEXT of a parked descriptor or resumes after ERROR. -/
  | dmaKick (c : DCh) (v : W32)
  /-- DMA_ABORT (R415): A write of ABORT stops the channel after its current beat. -/
  | dmaAbort (c : DCh) (v : W32) (atEnd : Bool)
  /-- DESCRIPTOR_FETCH (R404): The channel reads its next descriptor and accelerator block. -/
  | descriptorFetch (c : DCh)
  /-- DMA_BEAT (R410): The funnel moves one beat of a ready channel through the accelerators. -/
  | dmaBeat (c : DCh)
  /-- INDEXED_REQUEST (R407): A media channel requests or delivers sector data of an index through an indexed port. -/
  | indexedRequest (m : Act) (n : W16)
  /-- DESCRIPTOR_END (R412): A descriptor ends, writes its digest and writeback, and signals DONE, ERR or a message. -/
  | descriptorEnd (c : DCh)
  /-- RDPTR_WRITE (R408): A write of RDPTR frees circular buffer space. -/
  | rdptrWrite (c : DCh) (v : W32)
  /-- POWER_REQUEST (R420): A write of SYS_PWR.REQ checks the target state's conditions. -/
  | powerRequest (v : W32)
  /-- POWER_ENTRY (R421): Once threads wait, the part enters Spun, Kindled or Ember, or refuses. -/
  | powerEntry (wake : Bool)
  /-- WAKE (R422): A wake source ends Kindled or Ember. -/
  | wake (src : Fin 11)
  /-- KINDLING (R425): POR_N release or a wake in Ember raises PWR_EN and brings the core up. -/
  | kindling (release : Bool) (straps : BitVec 5)
  /-- KINDLE_TIMEOUT (R426): PWR_GOOD has not risen 10 ms after PWR_EN and Ember drops it. -/
  | kindleTimeout
  /-- KINDLE_RETRY (R426): 1 s after a failed Kindling, Ember tries again. -/
  | kindleRetry
  /-- PWR_GOOD_FALL (R427): PWR_GOOD falls while the core is powered and the part enters Ember. -/
  | pwrGoodFall
  /-- POR_ASSERT (R429): POR_N asserted resets every block at once. -/
  | porAssert
  /-- WARM_RESET (R430): A write of SYS_RST_CTRL with key starts the core warm reset sequence. -/
  | warmReset (v : W32)
  /-- RESET_RELEASE (R430): The reset sequence completes and the engine reset is released. -/
  | resetRelease (limit high identOk : Bool)
  /-- WDOG_ENABLE (R432): A write setting SYS_WDOG.EN starts the watchdog count. -/
  | wdogEnable (v : W32)
  /-- WDOG_KICK (R432): A write of the kick key restarts the count and clears WARNED. -/
  | wdogKick (v : W32)
  /-- WDOG_EXPIRY (R432): The watchdog expires, warning first and resetting at the second expiry. -/
  | wdogExpiry
  /-- BOOST_CHANGE (R417): The engine clock changes between 1.40 and 1.60 GHz. -/
  | boostChange
  /-- XTAL_FAIL (R418): No crystal edge for 4 ms changes Ember to the RC oscillator. -/
  | xtalFail
  /-- REF_LOST (R418): REF50 stopped for 2 µs changes to the backup oscillator and requests Bivouac. -/
  | refLost
  /-- ADC_CONVERSION (R433): The housekeeping ADC converts the next channel of its round. -/
  | adcConversion (raw : W16)
  /-- DIE_SAMPLE (R434): Each on-die sensor sampler converts once per ms. -/
  | dieSample (l : W128)
  /-- SENSOR_READMIT (R435): A write of 1 to a BROKEN bit readmits the sensor. -/
  | sensorReadmit (ch : Fin 18) (v : W32)
  /-- POWER_MEASURE (R441): Every ms THM measures power and updates the firewood account and PW_LEVEL. -/
  | powerMeasure (mw : W16)
  /-- THERMAL_TRIP (R444): Two good die samples of 135 °C or above run the trip sequence into Ember. -/
  | thermalTrip (limit : Bool)
  /-- TRIP_RESTART (R446): Cool readings for 10 s permit restart and release THERM_TRIP_N. -/
  | tripRestart
  /-- EMBER_DS7_CONVERSION (R433): DS7 converts every 100 ms in Ember. -/
  | emberDs7Conversion (t : W16)
  /-- RTC_TICK (R416): The real-time clock advances by one second. -/
  | rtcTick
  /-- RTC_WRITE (R416): A write of EMB_RTC sets the clock and RTC_VALID. -/
  | rtcWrite (v : W64)
  /-- BOOT_LOAD (R456): Ranger reads, checks and copies a boot image from the strap source. -/
  | bootLoad (x : BootIn)
  /-- IMG_VERIFY (R461): Ranger checks an image without copying it. -/
  | imgVerify (sg : Sigs)
  /-- TOKEN (R467): Ranger checks a debug token and grants its rights. -/
  | tokenCmd (sg : Sigs)
  /-- PROVISION (R461): Programs the customer key hashes in Open. -/
  | provision
  /-- SEAL (R453): Programs the SEALED fuses after reading back the key hashes. -/
  | seal
  /-- RETURN (R453): Programs CUST_KILL, clears key slots and programs RETURNED. -/
  | returnPart
  /-- SVN_ADVANCE (R460): Raises MIN_SVN up to the running SVN. -/
  | svnAdvance
  /-- MK_GEN (R461): Generates an XTS key into a slot and returns its wrapped blob. -/
  | mkGen
  /-- MK_LOAD (R471): Unwraps a blob into a key slot. -/
  | mkLoad
  /-- MK_CLEAR (R461): Empties a key slot. -/
  | mkClear
  /-- MK_EPOCH (R472): Programs a new epoch and clears every slot as crypto erase. -/
  | mkEpoch
  /-- MK_ESCROW (R461): Re-encrypts a wrapped key under the escrow public key. `seed`: the random seed of the encryption. -/
  | mkEscrow (seed : BitVec 384)
  /-- EXPORT_SIGN (R461): Signs 128 bytes with both export keys. -/
  | exportSign
  /-- EXPORT_CERT (R461): Returns both export certificates. -/
  | exportCert (c q : List W8)
  /-- IDENT_CERT (R461): Returns DIC-C and DIC-Q. -/
  | identCert (c q : List W8)
  /-- SEC_CMD_DONE (R461): A Ranger command ends, setting RESULT and CMD_DONE. -/
  | secCmdDone
  /-- SEC_LOCK_WRITE (R462): Setting a SEC_LOCK bit makes its group's RWL fields unwritable. -/
  | secLockWrite (v : W32)
  /-- DBG_INFO (R464): Debug frame returning lifecycle, rights, serial and nonce. -/
  | dbgInfo (ok : Bool)
  /-- DBG_TOKEN (R464): Debug frame presenting a token. -/
  | dbgToken (ok : Bool) (tok : List W8) (sg : Sigs)
  /-- DBG_RD (R464): Debug frame reading a 48-bit address with privilege. -/
  | dbgRd (ok : Bool) (a : BitVec 48) (w : Width)
  /-- DBG_WR (R464): Debug frame writing a 48-bit address with privilege. -/
  | dbgWr (ok : Bool) (a : BitVec 48) (w : Width) (v : W64)
  /-- DBG_HALT (R465): Debug frame halting a thread at an instruction boundary. -/
  | dbgHalt (ok : Bool) (p : Thr)
  /-- DBG_RUN (R464): Debug frame resuming a debug-halted thread. -/
  | dbgRun (ok : Bool) (p : Thr)
  /-- DBG_STEP (R464): Debug frame executing one instruction of a halted thread. -/
  | dbgStep (ok : Bool) (p : Thr)
  /-- DBG_GETREG (R464): Debug frame reading registers of a halted thread. -/
  | dbgGetreg (ok : Bool) (p : Thr) (r : DbgReg)
  /-- DBG_SETREG (R464): Debug frame writing registers of a halted thread. -/
  | dbgSetreg (ok : Bool) (p : Thr) (r : DbgReg) (v : W64)
  /-- DBG_LOG (R464): Debug frame reading the Trail Log and last-words log. -/
  | dbgLog (ok : Bool)
  /-- TAP_RESET (R534): TRST_N low resets the JTAG TAP. -/
  | tapReset
  /-- SPDM_GET_VERSION (R469): SPDM GET_VERSION request answered by Ranger. -/
  | spdmGetVersion (n : HPort)
  /-- SPDM_GET_CAPABILITIES (R469): SPDM GET_CAPABILITIES request. -/
  | spdmGetCapabilities (n : HPort)
  /-- SPDM_NEGOTIATE_ALGORITHMS (R469): SPDM NEGOTIATE_ALGORITHMS request. -/
  | spdmNegotiateAlgorithms (n : HPort)
  /-- SPDM_GET_DIGESTS (R469): SPDM GET_DIGESTS request. -/
  | spdmGetDigests (n : HPort) (chain : List W8)
  /-- SPDM_GET_CERTIFICATE (R469): SPDM GET_CERTIFICATE request for slot 0. -/
  | spdmGetCertificate (n : HPort) (chain : List W8)
  /-- SPDM_CHALLENGE (R469): SPDM CHALLENGE signed by DIK-C. -/
  | spdmChallenge (n : HPort) (chain : List W8)
  /-- SPDM_GET_MEASUREMENTS (R469): SPDM GET_MEASUREMENTS request. -/
  | spdmGetMeasurements (n : HPort)
  /-- HYBRID_MEASUREMENTS (R469): Wenvor hybrid attestation SEL 0 returns measurements signed by DIK-C and DIK-Q. -/
  | hybridMeasurements (n : HPort)
  /-- HYBRID_DIC_Q_CHAIN (R469): Wenvor hybrid attestation SEL 1 returns the DIC-Q chain. -/
  | hybridDicQChain (n : HPort) (chain : List W8)
  /-- DOE_DISCOVERY (R349): DOE Discovery request lists the supported protocols. -/
  | doeDiscovery (n : HPort)
  /-- RELAY_UNIT_CHECK (R486): The unit-naming MSG makes the receiver check the unit and answer ACK or NAK. -/
  | relayUnitCheck (src : Fin 4) (u : Fin 257) (sg : Sigs) (order : Option (Fin 4 × Fin 4))
  /-- RELAY_ACK (R486): An ACK or NAK lets the sender continue, resend, or fail the relay. -/
  | relayAck (n : Fin 4) (ack written : Bool)
  /-- BOOT_RELAY_REQUEST (R457): An Outpost booting by relay asks position 0 for an image every 100 ms. -/
  | bootRelayRequest
  /-- BOOT_RELAY_TIMEOUT (R457): No RELAY within 10 s of roll-call turns BOOT_LOAD to the debug UART. -/
  | bootRelayTimeout
  /-- HANDOVER_ACTIVATE (R490): An ACTIVATE message makes each part's threads save state and halt for handover. -/
  | handoverActivate (p : Thr) (at_ : W64) (record : List W8)
  /-- HANDOVER_READY (R490): A READY message from an Outpost counts toward re-enabling fetch. -/
  | handoverReady (n : Fin 4)
  /-- HANDOVER_TIMEOUT (R490): 2.5 ms after step 1 the Basecamp re-enables fetching and posts the Commit completion. -/
  | handoverTimeout
  /-- BOOT_CONFIRM (R492): The new image writes its boot record with STATE 0. -/
  | bootConfirm
  /-- EVT_POST (R498): A write of EVT_POSTp_ADDR_HI posts a firmware record to the Trail Log. -/
  | evtPost (p : Thr) (hi : W32)
  /-- EVT_CHECKPOINT (R502): A write of EVT_CKPT advances the checkpoint to a record start. -/
  | evtCheckpoint (v : W32)
  /-- SUMMARY_CLEAR (R501): A write of EVT_SUMCLR frees every summary entry. -/
  | summaryClear (v : W32)
  /-- PATROL_SLICE (R508): In an idle cycle Patrol runs a slice of its current test item. -/
  | patrolSlice
  /-- PATROL_ITEM_END (R510): A Patrol item ends, passing, or failing with a repeat and a record. -/
  | patrolItemEnd (ok again : Bool) (inst : W8) (diff : W32)
  /-- BIVOUAC_ENTER (R512): Bivouac is entered, dropping write gates, ending write runs and starting a dump. -/
  | bivouacEnter (c : Fin 5)
  /-- SYS_BIV_ENTER (R511): A write of SYS_BIV_ENTER with key enters Bivouac with cause FIRMWARE. -/
  | sysBivEnter (v : W32)
  /-- GPIO_EDGE (R537): An edge on a GPIO input sets its status bit and may wake the part. -/
  | gpioEdge (n : BitVec 4) (rise : Bool)
  /-- PWR_GOOD_RISE (R425): PWR_GOOD rises after PWR_EN, and Kindling continues through REF50 check, PLL lock, SRAM clear and OTP load to release the engine reset. -/
  | pwrGoodRise (identOk : Bool)
  /-- EMBER_SUPPLY_UP (R416): VDD_EMB comes up: the RTC starts at 0 with RTC_VALID clear, the trip hold and its counts clear, and Ember returns to the crystal. -/
  | emberSupplyUp
  /-- CSC_TAG_QUARANTINE_END (R368): A cascade request tag quarantined for twice CSC_TMO returns to the free tags. -/
  | cscTagQuarantineEnd (tag : BitVec 10)
  /-- LINK_L1_ENTRY (R348): A PCIe port's link enters L1 or an L1 substate, and HIF_PORTn_LINK.PM changes. -/
  | linkL1Entry (n : HPort) (sub : Fin 3)
  /-- LINK_L1_EXIT (R348): A PCIe port's link leaves L1 or an L1 substate and returns to L0. -/
  | linkL1Exit (n : HPort)
  /-- DOE_RESPONSE_READY (R469): Ranger finishes a DOE response, such as a signed hybrid attestation after about 155 ms, and makes it available in the mailbox. -/
  | doeResponseReady (n : HPort)
  /-- TAP_INSTRUCTION_UPDATE (R465): The JTAG instruction register is updated, selecting BYPASS, IDCODE, SAMPLE/PRELOAD, DAP, or EXTEST, CLAMP and HIGHZ, which need the PINS right. -/
  | tapInstructionUpdate (x : TapIns)
  deriving DecidableEq, Repr

end Sys2Proof
end

