-- ==== Sys2Proof/Machine/Bits.lean ====
section
/-! DEFINITION. Fields of words, little-endian byte order (R1, R2) and sign extension. -/

namespace Sys2Proof

/-- `len` ones from bit `lo` up. -/
def maskF (lo len : Nat) : W32 := BitVec.ofNat 32 ((2 ^ len - 1) * 2 ^ lo)
/-- The field of `len` bits from bit `lo` of a number. -/
def natF (n lo len : Nat) : Nat := n / 2 ^ lo % 2 ^ len
/-- The field of `len` bits from bit `lo` of a register word. -/
def getF (v : W32) (lo len : Nat) : Nat := natF v.toNat lo len
/-- The register word with that field set to `x`. -/
def setF (v : W32) (lo len x : Nat) : W32 :=
  (v &&& ~~~ maskF lo len) ||| (BitVec.ofNat 32 (x % 2 ^ len) <<< lo)
/-- Bit `i` of a register word. -/
def tb (v : W32) (i : Nat) : Bool := v.getLsbD i
/-- A register word with bit `i` only. -/
def bit (i : Nat) : W32 := BitVec.ofNat 32 (2 ^ i)
/-- A field of `len` bits read as two's complement. -/
def sgnF (v : W32) (lo len : Nat) : Int :=
  let x := getF v lo len
  if x < 2 ^ (len - 1) then (x : Int) else (x : Int) - 2 ^ len
/-- The low `len` bits of an integer in two's complement. -/
def natOfInt (x : Int) (len : Nat) : Nat := (x % 2 ^ len).toNat
/-- 1 or 0. -/
def b2n (b : Bool) : Nat := if b then 1 else 0
/-- A counter field of `len` bits: it saturates at all ones (R23). -/
def satAdd (x n len : Nat) : Nat := min (x + n) (2 ^ len - 1)

/-- The bytes of a number, byte 0 first (R2). -/
def leBytes (n : Nat) (x : Nat) : List W8 :=
  match n with
  | 0 => []
  | m + 1 => BitVec.ofNat 8 x :: leBytes m (x / 256)
/-- The number that little-endian bytes spell. -/
def ofLe (l : List W8) : Nat :=
  match l with
  | [] => 0
  | b :: t => b.toNat + 256 * ofLe t
/-- The number that big-endian bytes spell. -/
def ofBe (l : List W8) : Nat := ofLe l.reverse
/-- Big-endian bytes of a number. -/
def beBytes (n x : Nat) : List W8 := (leBytes n x).reverse
/-- `n` bytes of a byte list from offset `o`; past its end the bytes are 0. -/
def sliceB (l : List W8) (o n : Nat) : List W8 :=
  let t := (l.drop o).take n
  t ++ List.replicate (n - t.length) 0
/-- The little-endian number of `n` bytes at offset `o` of a byte list. -/
def leAt (l : List W8) (o n : Nat) : Nat := ofLe (sliceB l o n)
/-- A byte list with its bytes from offset `o` on replaced by `x`. -/
def patchB (l : List W8) (o : Nat) (x : List W8) : List W8 := l.take o ++ x ++ l.drop (o + x.length)
/-- A byte list cut or filled with zeros to `n` bytes. -/
def padTo (n : Nat) (l : List W8) : List W8 := sliceB l 0 n

/-- Sign extension of the low `n` bits of a number to 64 bits. -/
def sext64 (n x : Nat) : W64 := (BitVec.ofNat n x).signExtend 64

end Sys2Proof
end

