-- ==== Sys2Proof/Machine/Crypto.lean ====
section
/-! DEFINITION. The algorithms that the spec names by their published standards: SHA-384, HMAC and HKDF, AES-256 with XTS and
key wrap (R448), the CRCs of R141, and arithmetic over GF(2^8) with polynomial 0x11D. The standards' constants are taken
from the standards (PRESUMED, log entry 6). -/

namespace Sys2Proof.Machine

/-! ### SHA-384 -/

/-- Part 0 of shaK. -/
def shaK0 : List W64 := [
   0x428A2F98D728AE22, 0x7137449123EF65CD, 0xB5C0FBCFEC4D3B2F,
   0xE9B5DBA58189DBBC, 0x3956C25BF348B538, 0x59F111F1B605D019,
   0x923F82A4AF194F9B, 0xAB1C5ED5DA6D8118, 0xD807AA98A3030242,
   0x12835B0145706FBE, 0x243185BE4EE4B28C, 0x550C7DC3D5FFB4E2,
   0x72BE5D74F27B896F, 0x80DEB1FE3B1696B1, 0x9BDC06A725C71235,
   0xC19BF174CF692694, 0xE49B69C19EF14AD2, 0xEFBE4786384F25E3,
   0x0FC19DC68B8CD5B5, 0x240CA1CC77AC9C65, 0x2DE92C6F592B0275,
   0x4A7484AA6EA6E483, 0x5CB0A9DCBD41FBD4, 0x76F988DA831153B5,
   0x983E5152EE66DFAB, 0xA831C66D2DB43210, 0xB00327C898FB213F]

/-- Part 1 of shaK. -/
def shaK1 : List W64 := [
   0xBF597FC7BEEF0EE4, 0xC6E00BF33DA88FC2, 0xD5A79147930AA725,
   0x06CA6351E003826F, 0x142929670A0E6E70, 0x27B70A8546D22FFC,
   0x2E1B21385C26C926, 0x4D2C6DFC5AC42AED, 0x53380D139D95B3DF,
   0x650A73548BAF63DE, 0x766A0ABB3C77B2A8, 0x81C2C92E47EDAEE6,
   0x92722C851482353B, 0xA2BFE8A14CF10364, 0xA81A664BBC423001,
   0xC24B8B70D0F89791, 0xC76C51A30654BE30, 0xD192E819D6EF5218,
   0xD69906245565A910, 0xF40E35855771202A, 0x106AA07032BBD1B8,
   0x19A4C116B8D2D0C8, 0x1E376C085141AB53, 0x2748774CDF8EEB99,
   0x34B0BCB5E19B48A8, 0x391C0CB3C5C95A63, 0x4ED8AA4AE3418ACB]

/-- Part 2 of shaK. -/
def shaK2 : List W64 := [
   0x5B9CCA4F7763E373, 0x682E6FF3D6B2B8A3, 0x748F82EE5DEFB2FC,
   0x78A5636F43172F60, 0x84C87814A1F0AB72, 0x8CC702081A6439EC,
   0x90BEFFFA23631E28, 0xA4506CEBDE82BDE9, 0xBEF9A3F7B2C67915,
   0xC67178F2E372532B, 0xCA273ECEEA26619C, 0xD186B8C721C0C207,
   0xEADA7DD6CDE0EB1E, 0xF57D4F7FEE6ED178, 0x06F067AA72176FBA,
   0x0A637DC5A2C898A6, 0x113F9804BEF90DAE, 0x1B710B35131C471B,
   0x28DB77F523047D84, 0x32CAAB7B40C72493, 0x3C9EBE0A15C9BEBC,
   0x431D67C49C100D4C, 0x4CC5D4BECB3E42B6, 0x597F299CFC657E2A,
   0x5FCB6FAB3AD6FAEC, 0x6C44198C4A475817]

/-- The 80 round constants of SHA-512. -/
def shaK : List W64 := shaK0 ++ shaK1 ++ shaK2

/-- The initial hash value of SHA-384. -/
def sha384Iv : List W64 := [
   0xCBBB9D5DC1059ED8, 0x629A292A367CD507, 0x9159015A3070DD17,
   0x152FECD8F70E5939, 0x67332667FFC00B31, 0x8EB44A8768581511,
   0xDB0C2E0D64F98FA7, 0x47B5481DBEFA4FA4]

/-- A word of a list of words. -/
def wAt (l : List W64) (i : Nat) : W64 := l.getD i 0

/-- σ0 and σ1 of the message schedule. -/
def shaS0 (x : W64) : W64 := x.rotateRight 1 ^^^ x.rotateRight 8 ^^^ (x >>> 7)
def shaS1 (x : W64) : W64 := x.rotateRight 19 ^^^ x.rotateRight 61 ^^^ (x >>> 6)

/-- The message schedule, newest word first: `n` more words on the words so far. -/
def shaSchedule (w : List W64) : Nat → List W64
  | 0 => w
  | n + 1 => shaSchedule ((shaS1 (wAt w 1) + wAt w 6 + shaS0 (wAt w 14) + wAt w 15) :: w) n

/-- One round on the eight working variables. -/
def shaRound (v : List W64) (kw : W64) : List W64 :=
  let a := wAt v 0
  let b := wAt v 1
  let c := wAt v 2
  let e := wAt v 4
  let f := wAt v 5
  let g := wAt v 6
  let t1 := wAt v 7 + (e.rotateRight 14 ^^^ e.rotateRight 18 ^^^ e.rotateRight 41) + ((e &&& f) ^^^ (~~~ e &&& g)) + kw
  let t2 := (a.rotateRight 28 ^^^ a.rotateRight 34 ^^^ a.rotateRight 39) + ((a &&& b) ^^^ (a &&& c) ^^^ (b &&& c))
  [t1 + t2, a, b, c, wAt v 3 + t1, e, f, g]

/-- The compression of one 128-byte block. -/
def shaBlock (h : List W64) (blk : List W8) : List W64 :=
  let w0 := (List.range 16).map fun i => BitVec.ofNat 64 (ofBe (sliceB blk (8 * i) 8))
  let w := (shaSchedule w0.reverse 64).reverse
  let v := (List.zipWith (· + ·) shaK w).foldl shaRound h
  List.zipWith (· + ·) h v

/-- Whole blocks taken in; the rest is returned. -/
def shaBlocks (h : List W64) (l : List W8) : Nat → List W64 × List W8
  | 0 => (h, l)
  | n + 1 => if l.length < 128 then (h, l) else shaBlocks (shaBlock h (l.take 128)) (l.drop 128) n

/-- The digest of the bytes taken in: `h` after whole blocks, `rest` the bytes after them, `total` the message length. -/
def sha384Final (h : List W64) (rest : List W8) (total : Nat) : List W8 :=
  let z := (239 - rest.length % 128) % 128
  let padded := rest ++ [0x80] ++ List.replicate z 0 ++ beBytes 16 (8 * total)
  let (h', _) := shaBlocks h padded 3
  (h'.take 6).flatMap fun w => beBytes 8 w.toNat

/-- SHA-384 of a byte list. -/
def sha384 (m : List W8) : List W8 :=
  let (h, rest) := shaBlocks sha384Iv m (m.length / 128 + 1)
  sha384Final h rest m.length

/-- HMAC with SHA-384. -/
def hmac384 (key m : List W8) : List W8 :=
  let k := padTo 128 (if 128 < key.length then sha384 key else key)
  sha384 (k.map (· ^^^ 0x5C) ++ sha384 (k.map (· ^^^ 0x36) ++ m))

/-- HKDF-Expand, `n` blocks. -/
def hkdfExpand (prk info prev : List W8) (i : Nat) : Nat → List W8
  | 0 => []
  | n + 1 =>
    let t := hmac384 prk (prev ++ info ++ [BitVec.ofNat 8 i])
    t ++ hkdfExpand prk info t (i + 1) n

/-- HKDF with SHA-384: `len` bytes from key material, salt and info. -/
def hkdf384 (ikm salt info : List W8) (len : Nat) : List W8 :=
  (hkdfExpand (hmac384 (if salt = [] then List.replicate 48 0 else salt) ikm) info [] 1 ((len + 47) / 48)).take len

/-! ### AES-256 -/

/-- Part 0 of aesSbox. -/
def aesSbox0 : List W8 := [
   0x63, 0x7C, 0x77, 0x7B, 0xF2, 0x6B, 0x6F, 0xC5, 0x30, 0x01, 0x67, 0x2B, 0xFE, 0xD7, 0xAB, 0x76,
   0xCA, 0x82, 0xC9, 0x7D, 0xFA, 0x59, 0x47, 0xF0, 0xAD, 0xD4, 0xA2, 0xAF, 0x9C, 0xA4, 0x72, 0xC0,
   0xB7, 0xFD, 0x93, 0x26, 0x36, 0x3F, 0xF7, 0xCC, 0x34, 0xA5, 0xE5, 0xF1, 0x71, 0xD8, 0x31, 0x15,
   0x04, 0xC7, 0x23, 0xC3, 0x18, 0x96, 0x05, 0x9A, 0x07, 0x12, 0x80, 0xE2, 0xEB, 0x27, 0xB2, 0x75,
   0x09, 0x83, 0x2C, 0x1A, 0x1B, 0x6E, 0x5A, 0xA0, 0x52, 0x3B, 0xD6, 0xB3, 0x29, 0xE3, 0x2F, 0x84,
   0x53, 0xD1, 0x00, 0xED, 0x20, 0xFC, 0xB1, 0x5B, 0x6A, 0xCB, 0xBE, 0x39, 0x4A, 0x4C, 0x58, 0xCF]

/-- Part 1 of aesSbox. -/
def aesSbox1 : List W8 := [
   0xD0, 0xEF, 0xAA, 0xFB, 0x43, 0x4D, 0x33, 0x85, 0x45, 0xF9, 0x02, 0x7F, 0x50, 0x3C, 0x9F, 0xA8,
   0x51, 0xA3, 0x40, 0x8F, 0x92, 0x9D, 0x38, 0xF5, 0xBC, 0xB6, 0xDA, 0x21, 0x10, 0xFF, 0xF3, 0xD2,
   0xCD, 0x0C, 0x13, 0xEC, 0x5F, 0x97, 0x44, 0x17, 0xC4, 0xA7, 0x7E, 0x3D, 0x64, 0x5D, 0x19, 0x73,
   0x60, 0x81, 0x4F, 0xDC, 0x22, 0x2A, 0x90, 0x88, 0x46, 0xEE, 0xB8, 0x14, 0xDE, 0x5E, 0x0B, 0xDB,
   0xE0, 0x32, 0x3A, 0x0A, 0x49, 0x06, 0x24, 0x5C, 0xC2, 0xD3, 0xAC, 0x62, 0x91, 0x95, 0xE4, 0x79,
   0xE7, 0xC8, 0x37, 0x6D, 0x8D, 0xD5, 0x4E, 0xA9, 0x6C, 0x56, 0xF4, 0xEA, 0x65, 0x7A, 0xAE, 0x08]

/-- Part 2 of aesSbox. -/
def aesSbox2 : List W8 := [
   0xBA, 0x78, 0x25, 0x2E, 0x1C, 0xA6, 0xB4, 0xC6, 0xE8, 0xDD, 0x74, 0x1F, 0x4B, 0xBD, 0x8B, 0x8A,
   0x70, 0x3E, 0xB5, 0x66, 0x48, 0x03, 0xF6, 0x0E, 0x61, 0x35, 0x57, 0xB9, 0x86, 0xC1, 0x1D, 0x9E,
   0xE1, 0xF8, 0x98, 0x11, 0x69, 0xD9, 0x8E, 0x94, 0x9B, 0x1E, 0x87, 0xE9, 0xCE, 0x55, 0x28, 0xDF,
   0x8C, 0xA1, 0x89, 0x0D, 0xBF, 0xE6, 0x42, 0x68, 0x41, 0x99, 0x2D, 0x0F, 0xB0, 0x54, 0xBB, 0x16]

/-- The AES substitution table. -/
def aesSbox : List W8 := aesSbox0 ++ aesSbox1 ++ aesSbox2

/-- Part 0 of aesInv. -/
def aesInv0 : List W8 := [
   0x52, 0x09, 0x6A, 0xD5, 0x30, 0x36, 0xA5, 0x38, 0xBF, 0x40, 0xA3, 0x9E, 0x81, 0xF3, 0xD7, 0xFB,
   0x7C, 0xE3, 0x39, 0x82, 0x9B, 0x2F, 0xFF, 0x87, 0x34, 0x8E, 0x43, 0x44, 0xC4, 0xDE, 0xE9, 0xCB,
   0x54, 0x7B, 0x94, 0x32, 0xA6, 0xC2, 0x23, 0x3D, 0xEE, 0x4C, 0x95, 0x0B, 0x42, 0xFA, 0xC3, 0x4E,
   0x08, 0x2E, 0xA1, 0x66, 0x28, 0xD9, 0x24, 0xB2, 0x76, 0x5B, 0xA2, 0x49, 0x6D, 0x8B, 0xD1, 0x25,
   0x72, 0xF8, 0xF6, 0x64, 0x86, 0x68, 0x98, 0x16, 0xD4, 0xA4, 0x5C, 0xCC, 0x5D, 0x65, 0xB6, 0x92,
   0x6C, 0x70, 0x48, 0x50, 0xFD, 0xED, 0xB9, 0xDA, 0x5E, 0x15, 0x46, 0x57, 0xA7, 0x8D, 0x9D, 0x84]

/-- Part 1 of aesInv. -/
def aesInv1 : List W8 := [
   0x90, 0xD8, 0xAB, 0x00, 0x8C, 0xBC, 0xD3, 0x0A, 0xF7, 0xE4, 0x58, 0x05, 0xB8, 0xB3, 0x45, 0x06,
   0xD0, 0x2C, 0x1E, 0x8F, 0xCA, 0x3F, 0x0F, 0x02, 0xC1, 0xAF, 0xBD, 0x03, 0x01, 0x13, 0x8A, 0x6B,
   0x3A, 0x91, 0x11, 0x41, 0x4F, 0x67, 0xDC, 0xEA, 0x97, 0xF2, 0xCF, 0xCE, 0xF0, 0xB4, 0xE6, 0x73,
   0x96, 0xAC, 0x74, 0x22, 0xE7, 0xAD, 0x35, 0x85, 0xE2, 0xF9, 0x37, 0xE8, 0x1C, 0x75, 0xDF, 0x6E,
   0x47, 0xF1, 0x1A, 0x71, 0x1D, 0x29, 0xC5, 0x89, 0x6F, 0xB7, 0x62, 0x0E, 0xAA, 0x18, 0xBE, 0x1B,
   0xFC, 0x56, 0x3E, 0x4B, 0xC6, 0xD2, 0x79, 0x20, 0x9A, 0xDB, 0xC0, 0xFE, 0x78, 0xCD, 0x5A, 0xF4]

/-- Part 2 of aesInv. -/
def aesInv2 : List W8 := [
   0x1F, 0xDD, 0xA8, 0x33, 0x88, 0x07, 0xC7, 0x31, 0xB1, 0x12, 0x10, 0x59, 0x27, 0x80, 0xEC, 0x5F,
   0x60, 0x51, 0x7F, 0xA9, 0x19, 0xB5, 0x4A, 0x0D, 0x2D, 0xE5, 0x7A, 0x9F, 0x93, 0xC9, 0x9C, 0xEF,
   0xA0, 0xE0, 0x3B, 0x4D, 0xAE, 0x2A, 0xF5, 0xB0, 0xC8, 0xEB, 0xBB, 0x3C, 0x83, 0x53, 0x99, 0x61,
   0x17, 0x2B, 0x04, 0x7E, 0xBA, 0x77, 0xD6, 0x26, 0xE1, 0x69, 0x14, 0x63, 0x55, 0x21, 0x0C, 0x7D]

/-- The inverse AES substitution table. -/
def aesInv : List W8 := aesInv0 ++ aesInv1 ++ aesInv2

/-- A byte of a table. -/
def bAt (l : List W8) (i : Nat) : W8 := l.getD i 0
/-- SubBytes of one byte. -/
def sub8 (b : W8) : W8 := bAt aesSbox b.toNat
/-- Multiplication by x in GF(2^8) with the AES polynomial. -/
def aesX (b : W8) : W8 := if b.getLsbD 7 then (b <<< 1) ^^^ 0x1B else b <<< 1
/-- Multiplication in the AES field by a constant below 16. -/
def aesMul (k : Nat) (b : W8) : W8 :=
  (if k.testBit 0 then b else 0) ^^^ (if k.testBit 1 then aesX b else 0) ^^^
    (if k.testBit 2 then aesX (aesX b) else 0) ^^^ (if k.testBit 3 then aesX (aesX (aesX b)) else 0)

/-- XOR of byte lists. -/
def xorB (a b : List W8) : List W8 := List.zipWith (· ^^^ ·) a b

/-- The key schedule of AES-256: words (four bytes each), oldest first, `n` more. -/
def aesExpand (w : List (List W8)) (i : Nat) (rc : W8) : Nat → List (List W8)
  | 0 => w
  | n + 1 =>
    let t := w.getD (i - 1) []
    let u := if i % 8 = 0 then xorB ((t.drop 1 ++ t.take 1).map sub8) [rc, 0, 0, 0]
      else if i % 8 = 4 then t.map sub8 else t
    aesExpand (w ++ [xorB (w.getD (i - 8) []) u]) (i + 1) (if i % 8 = 0 then aesX rc else rc) n

/-- The 15 round keys of a 32-byte key. -/
def aesKeys (key : List W8) : List (List W8) :=
  let w := aesExpand ((List.range 8).map fun i => sliceB key (4 * i) 4) 8 1 52
  (List.range 15).map fun r => (List.range 4).flatMap fun c => w.getD (4 * r + c) []

/-- ShiftRows and its inverse on a block in column order. -/
def shiftRows (b : List W8) : List W8 := (List.range 16).map fun i => bAt b ((i + 4 * (i % 4)) % 16)
def unshiftRows (b : List W8) : List W8 := (List.range 16).map fun i => bAt b ((i + 12 * (i % 4)) % 16)

/-- MixColumns with the given first row of factors. -/
def mixCols (k0 k1 k2 k3 : Nat) (b : List W8) : List W8 :=
  (List.range 16).map fun i =>
    let c := i / 4 * 4
    let r := i % 4
    aesMul k0 (bAt b (c + r)) ^^^ aesMul k1 (bAt b (c + (r + 1) % 4)) ^^^
      aesMul k2 (bAt b (c + (r + 2) % 4)) ^^^ aesMul k3 (bAt b (c + (r + 3) % 4))

/-- AES-256 encryption of one block under its round keys. -/
def aesEnc (ks : List (List W8)) (b : List W8) : List W8 :=
  let b := xorB b (ks.getD 0 [])
  let b := (List.range 13).foldl (fun b r => xorB (mixCols 2 3 1 1 (shiftRows (b.map sub8))) (ks.getD (r + 1) [])) b
  xorB (shiftRows (b.map sub8)) (ks.getD 14 [])

/-- AES-256 decryption of one block under its round keys. -/
def aesDec (ks : List (List W8)) (b : List W8) : List W8 :=
  let inv := fun b => (unshiftRows b).map fun x => bAt aesInv x.toNat
  let b := inv (xorB b (ks.getD 14 []))
  let b := (List.range 13).foldl (fun b r => inv (mixCols 14 11 13 9 (xorB b (ks.getD (13 - r) [])))) b
  xorB b (ks.getD 0 [])

/-- The XTS tweak multiplied by the primitive element, little-endian. -/
def xtsMul (t : List W8) : List W8 :=
  let n := ofLe t * 2
  leBytes 16 (if n < 2 ^ 128 then n else (n % 2 ^ 128) ^^^ 0x87)

/-- AES-256-XTS of whole blocks: `enc` chooses the direction, `t` is the tweak of the first block. -/
def xtsBlocks (enc : Bool) (ks t l : List (List W8)) : List W8 :=
  (List.zipWith (fun tw b => xorB tw (if enc then aesEnc ks (xorB tw b) else aesDec ks (xorB tw b))) t l).flatten

/-- The tweaks of `n` blocks from the first. -/
def xtsTweaks (t : List W8) : Nat → List (List W8)
  | 0 => []
  | n + 1 => t :: xtsTweaks (xtsMul t) n

/-- AES-256-XTS of one data unit with a 64-byte key and a 16-byte tweak. -/
def xtsUnit (enc : Bool) (key tweak l : List W8) : List W8 :=
  let t0 := aesEnc (aesKeys (sliceB key 32 32)) tweak
  let n := l.length / 16
  xtsBlocks enc (aesKeys (sliceB key 0 32)) (xtsTweaks t0 n) ((List.range n).map fun i => sliceB l (16 * i) 16)

/-- One step of AES key wrap on (A, R1 … Rn). -/
def wrapStep (ks : List (List W8)) (a : List W8) (r : List (List W8)) (i t : Nat) : List W8 × List (List W8) :=
  let b := aesEnc ks (a ++ r.getD i [])
  (xorB (b.take 8) (beBytes 8 t), r.set i (b.drop 8))
/-- One step of AES key unwrap. -/
def unwrapStep (ks : List (List W8)) (a : List W8) (r : List (List W8)) (i t : Nat) : List W8 × List (List W8) :=
  let b := aesDec ks (xorB a (beBytes 8 t) ++ r.getD i [])
  (b.take 8, r.set i (b.drop 8))

/-- AES-256 key wrap of a 64-byte key: 72 bytes. -/
def keyWrap (kek key : List W8) : List W8 :=
  let ks := aesKeys kek
  let r := (List.range 8).map fun i => sliceB key (8 * i) 8
  let (a, r) := (List.range 48).foldl (fun p t => wrapStep ks p.1 p.2 (t % 8) (t + 1)) (List.replicate 8 0xA6, r)
  a ++ r.flatten

/-- AES-256 key unwrap of 72 bytes: the key when the integrity check holds. -/
def keyUnwrap (kek blob : List W8) : Option (List W8) :=
  let ks := aesKeys kek
  let r := (List.range 8).map fun i => sliceB blob (8 + 8 * i) 8
  let (a, r) := (List.range 48).foldl (fun p t => unwrapStep ks p.1 p.2 ((47 - t) % 8) (48 - t)) (blob.take 8, r)
  if a = List.replicate 8 0xA6 then some r.flatten else none

/-! ### AES-256-GCM -/

/-- One step of the multiplication in GF(2^128): bit 127 - i of `x` decides whether `v` is added. -/
def ghashStep (x : BitVec 128) (zv : BitVec 128 × BitVec 128) (i : Nat) : BitVec 128 × BitVec 128 :=
  (if x.getLsbD (127 - i) then zv.1 ^^^ zv.2 else zv.1,
    if zv.2.getLsbD 0 then (zv.2 >>> 1) ^^^ (0xE1 <<< 120) else zv.2 >>> 1)
/-- Multiplication in the field of GHASH, a block's first bit being the most significant. -/
def ghashMul (x y : BitVec 128) : BitVec 128 := ((List.range 128).foldl (ghashStep x) (0, y)).1
/-- A block as a number of GHASH. -/
def ghashBlock (l : List W8) : BitVec 128 := BitVec.ofNat 128 (ofBe (padTo 16 l))
/-- GHASH of ciphertext `c` under `h`, with no authenticated data. -/
def ghash (h : BitVec 128) (c : List W8) : BitVec 128 :=
  let y := (List.range ((c.length + 15) / 16)).foldl (fun y i => ghashMul (y ^^^ ghashBlock (sliceB c (16 * i) 16)) h) 0
  ghashMul (y ^^^ BitVec.ofNat 128 (8 * c.length)) h
/-- The key stream block of counter `k` for a 96-bit IV. -/
def gcmBlock (ks : List (List W8)) (iv : List W8) (k : Nat) : List W8 := aesEnc ks (iv ++ beBytes 4 k)
/-- The tag of ciphertext `c`. -/
def gcmTag (ks : List (List W8)) (iv c : List W8) : List W8 :=
  let h := ghashBlock (aesEnc ks (List.replicate 16 0))
  xorB (beBytes 16 (ghash h c).toNat) (gcmBlock ks iv 1)
/-- Ciphertext and plaintext under the counter stream. -/
def gcmCrypt (ks : List (List W8)) (iv c : List W8) : List W8 :=
  xorB c ((List.range ((c.length + 15) / 16)).flatMap fun i => gcmBlock ks iv (i + 2))
/-- The plaintext when the 16-byte tag checks. -/
def gcmOpen (key iv c tag : List W8) : Option (List W8) :=
  let ks := aesKeys key
  if gcmTag ks iv c = tag then some (gcmCrypt ks iv c) else none

/-! ### CRCs (R141) -/

/-- One bit of a reflected CRC. -/
def crcBit (poly c : Nat) : Nat := if c % 2 = 1 then (c / 2) ^^^ poly else c / 2
/-- One byte of a reflected CRC. -/
def crcByte (poly c : Nat) (b : W8) : Nat := (List.range 8).foldl (fun c _ => crcBit poly c) (c ^^^ b.toNat)
/-- A reflected CRC with all-ones initial value and final inversion. -/
def crcRef (w poly : Nat) (l : List W8) : Nat := (l.foldl (crcByte poly) (2 ^ w - 1)) ^^^ (2 ^ w - 1)
/-- CRC-64/XZ. -/
def crc64 (l : List W8) : W64 := BitVec.ofNat 64 (crcRef 64 0xC96C5795D7870F42 l)
/-- CRC-32C. -/
def crc32c (l : List W8) : W32 := BitVec.ofNat 32 (crcRef 32 0x82F63B78 l)

/-! ### GF(2^8), polynomial 0x11D -/

/-- Multiplication by x. -/
def gfX (b : W8) : W8 := if b.getLsbD 7 then (b <<< 1) ^^^ 0x1D else b <<< 1
/-- Multiplication. -/
def gfMul (a b : W8) : W8 :=
  ((List.range 8).foldl (fun (p : W8 × W8) i => (if b.getLsbD i then p.1 ^^^ p.2 else p.1, gfX p.2)) (0, a)).1
/-- Inverse: the 254th power; 0 for 0. -/
def gfInv (a : W8) : W8 := (List.range 253).foldl (fun x _ => gfMul x a) a

end Sys2Proof.Machine
end

