-- ==== Sys2Proof/Config.lean ====
section
/-! DEFINITION. What an implementation fixes and the spec leaves open: the free values. Each is a constant without a body,
so that no proof can see what it is (DESIGN CHOICE, log entry 3). -/

namespace Sys2Proof.Config

/-- The free value number `k`: each use takes the next number of State.fresh. -/
opaque freeNat : Nat → Nat
/-- The content of a DRAM byte that nothing has written since INIT with RESUME = 0 (R380: unspecified). -/
opaque dramByte : Nat → W8
/-- The ROM boot stub that Ranger writes to the first 8 KiB of HE40's local data RAM (R455); its content is not in the
spec. By offset in the SRAM region. -/
opaque stubByte : Nat → W8
/-- The fixed ROM entry address of a base opcode (R82), by opcode and function code; the spec does not give the addresses. -/
opaque romEntry : Nat → Nat → BitVec 13
/-- PATCH_KEY of the OTP store (R450). -/
opaque patchKey : BitVec 256
/-- The truncated GCM tag of a flit that the part sends, by the port and the number of its key, and the flit's header and
payload (R358, R364). -/
opaque flitTag : Nat → List W8 → W64
/-- The fixed base microcode (R72): the ROM word at an address. Its content is not in the spec. -/
opaque romWord : Nat → W128
/-- A free 32-bit value of a computation whose result the spec does not state, by the operands. -/
opaque freeOf : Nat → Nat → W32
/-- The level at a reader's ADC, before its offset DAC, in quarter codes (R98, R100): by its settings (RATE, cutoff
numerator, boost, high-pass code), the head signal over the sector, the bit cell, the gain in 0.125 dB and the phase of the
timing loop. The spec gives the front end's settings and not its transfer. -/
opaque frontEnd : List Nat → List Int → Nat → Int → Int → Int
/-- A step of a loop in acquisition mode (R101): the loop (0 gain, 1 offset, 2 timing), the bit cell, its value, the samples
so far, newest first. -/
opaque acquire : Nat → Nat → Int → List W8 → Int
/-- The phase of the zero-phase start, from the first 32 preamble samples, newest first (R101). -/
opaque zeroPhase : List W8 → Int
/-- A step of a loop in tracking mode (R101): the loop, its value, the decision-directed error, the newest sample. -/
opaque track : Nat → Int → Int → Int → Int
/-- The early decisions that drive loops and adaptation, from the equaliser's outputs so far, newest first: bit i stands
for a[n - i] (R101, R109). -/
opaque slicer : List Int → BitVec 5
/-- The magnitude of a detector metric as an LLR before it is limited to 31 (R110). -/
opaque llrMag : Nat → Nat
/-- The weight of a priori information in the detector's branch metric (R114). -/
opaque apWeight : Int → Int
/-- The normalisation of the min-sum decoder on a magnitude (R111). -/
opaque minSum : Nat → Nat
/-- The decision on a bit whose metric favours neither value, by its position (R110, R111). -/
opaque tieBit : Nat → Bool
/-- Whether the equaliser's output, in units of 2^-12 code, goes up to the next 1/16 code: R107 gives it 4 fractional bits
and no rounding. -/
opaque eqUp : Int → Bool
/-- Whether a sector's mean square error goes up to the next 1/256 code² (record bytes 20 to 21, R134 gives no rounding). -/
opaque mseUp : Nat → Bool
/-- Sine and cosine of an electrical angle in 2^-32 of a turn, as binary32, apart from angle 0: R220 gives no precision. -/
opaque sine : W32 → W32
opaque cosine : W32 → W32
/-- The observer's state after a PWM period (R222): by its inner words, the angle, the speed, and the words iα, iβ, vα, vβ of
the period. The spec names the observer and not its equations. Answers angle, error, speed and inner words. -/
opaque obsAngle : List W32 → W32 → Nat → List W32 → W32
opaque obsErr : List W32 → W32 → Nat → List W32 → W32
opaque obsSpeed : List W32 → W32 → Nat → List W32 → Nat
opaque obsInner : List W32 → W32 → Nat → List W32 → List W32
/-- The electrical angle at an edge of a comparator, less the 30° of R229, by phase and direction. -/
opaque edgeAngle : Nat → Bool → W32
/-- Whether a measured speed goes up to the next 1/16 rpm: R225 gives no rounding. -/
opaque speedUp : Nat → Nat → Bool
/-- The duty of a phase while VM is 0, by its voltage: R214 divides by VM. -/
opaque dutyNoVm : W32 → W32
/-- RSA-OAEP of a key under a public key of these bytes, by the seed (R461 names the encryption, not its parameters). -/
opaque rsaOaep : BitVec 512 → List W8 → BitVec 384 → BitVec 3072
/-- SERIAL of the OTP store (R450). -/
opaque serial : W64
/-- UDS of the OTP store (R450). -/
opaque uds : BitVec 256
/-- EPOCH slot 0, written at the factory (R450). -/
opaque epoch0 : BitVec 256
/-- SHA-384 of boot ROM and ROM boot stub, measurement 1 (R469). -/
opaque romHash : BitVec 384
/-- Measurement 2 (R469) by lifecycle, rights, issuer, the Open boot check and the OTP key hashes: what is hashed, and in
which layout, the spec does not say. -/
opaque meas2 : Nat → Nat → Nat → Nat → List W8 → BitVec 384
/-- Measurement 6 (R469) by MIN_SVN and the running SVN. -/
opaque meas6 : Nat → Nat → BitVec 384

end Sys2Proof.Config
end

