-- ==== Sys2Proof/Machine/Regs.lean ====
section
/-! DEFINITION. The register space of R19: the name, place, access masks and reset value of every register that the
register tables of the spec give. Written from those tables, one row per table line; R6 gives the access kinds. -/

namespace Sys2Proof

/-- One register, or a rectangular array of them: register (i, j) lies at `off + i * s1 + j * s2` from
0x0200_0000_0000, for i below `n1` and j below `n2`. The masks say which bits have which access type of R6:
`rw` (RW, RWS, RWL and RWH), `w1c`, `w1s`, `rc`; bits in none of them are RO, WO or reserved and a write leaves
them. `rws` and `rwl` mark the RWS and RWL bits among `rw`; `lock` is the bit of SEC_LOCK that locks the `rwl`
bits (R462); `cmd` marks self-clearing command bits and `hwc` the other one-bit fields that hardware clears (R21). -/
structure RegRow where
  off : Nat
  n1 : Nat
  s1 : Nat
  n2 : Nat
  s2 : Nat
  rst : Nat
  rw : Nat
  w1c : Nat
  w1s : Nat
  rc : Nat
  rws : Nat
  rwl : Nat
  lock : Nat
  cmd : Nat
  hwc : Nat
  deriving DecidableEq, Repr

/-- Whether a register of the row lies at byte offset `o` of the register space. -/
def RegRow.hits (r : RegRow) (o : Nat) : Bool :=
  decide (r.off ≤ o) && decide ((o - r.off) / r.s1 < r.n1) && decide ((o - r.off) % r.s1 / r.s2 < r.n2) &&
    decide ((o - r.off) % r.s1 % r.s2 = 0)

namespace Reg

/-- SYS_PART_ID, offset 0x0000 of the block (01 architecture, after R19). -/
def SYS_PART_ID : Nat := 0x000000
/-- SYS_ROLE, offset 0x0004 of the block (01 architecture, after R19). -/
def SYS_ROLE : Nat := 0x000004
/-- EVT_ROUTE, offset 0x8000 of the block (02 hezogus_engines, after R62). -/
def EVT_ROUTE (i : Nat) : Nat := 0x0D8000 + 0x4 * i
/-- SYS_CAMP_RUN, offset 0x0100 of the block (02 hezogus_engines, after R63). -/
def SYS_CAMP_RUN (i : Nat) : Nat := 0x000100 + 0x4 * i
/-- SYS_THR_ENTRY_LO, offset 0x0120 of the block (02 hezogus_engines, after R63). -/
def SYS_THR_ENTRY_LO : Nat := 0x000120
/-- SYS_THR_ENTRY_HI, offset 0x0124 of the block (02 hezogus_engines, after R63). -/
def SYS_THR_ENTRY_HI : Nat := 0x000124
/-- UCS_VERSION, offset 0x0000 of the block (03 control_store, after R95). -/
def UCS_VERSION : Nat := 0x110000
/-- UCS_PATCH_HASH, offset 0x0004 of the block (03 control_store, after R95). -/
def UCS_PATCH_HASH : Nat := 0x110004
/-- UCS_CUST_HASH, offset 0x0008 of the block (03 control_store, after R95). -/
def UCS_CUST_HASH : Nat := 0x110008
/-- UCS_LOAD_ADDR_LO, offset 0x0010 of the block (03 control_store, after R95). -/
def UCS_LOAD_ADDR_LO : Nat := 0x110010
/-- UCS_LOAD_ADDR_HI, offset 0x0014 of the block (03 control_store, after R95). -/
def UCS_LOAD_ADDR_HI : Nat := 0x110014
/-- UCS_LOAD_CTRL, offset 0x0018 of the block (03 control_store, after R95). -/
def UCS_LOAD_CTRL : Nat := 0x110018
/-- UCS_LOAD_STATUS, offset 0x001C of the block (03 control_store, after R95). -/
def UCS_LOAD_STATUS : Nat := 0x11001C
/-- UCS_STATUS, offset 0x0020 of the block (03 control_store, after R95). -/
def UCS_STATUS : Nat := 0x110020
/-- UCS_ENABLE, offset 0x0024 of the block (03 control_store, after R95). -/
def UCS_ENABLE : Nat := 0x110024
/-- UCS_CE_COUNT, offset 0x0028 of the block (03 control_store, after R95). -/
def UCS_CE_COUNT : Nat := 0x110028
/-- UCS_PEEK_ADDR, offset 0x0030 of the block (03 control_store, after R95). -/
def UCS_PEEK_ADDR : Nat := 0x110030
/-- UCS_PEEK_D, offset 0x0034 of the block (03 control_store, after R95). -/
def UCS_PEEK_D (i : Nat) : Nat := 0x110034 + 0x4 * i
/-- UCS_ERRLOG, offset 0x0100 of the block (03 control_store, after R95). -/
def UCS_ERRLOG (i : Nat) : Nat := 0x110100 + 0x4 * i
/-- UCS_ERRLOG_TIME, offset 0x0140 of the block (03 control_store, after R95). -/
def UCS_ERRLOG_TIME (i : Nat) : Nat := 0x110140 + 0x4 * i
/-- MCA_CTRL, offset 0x0000 of the block (04 read_channel, after R139). -/
def MCA_CTRL (i : Nat) : Nat := 0x080000 + 0x10000 * i
/-- MCA_STATUS, offset 0x0004 of the block (04 read_channel, after R139). -/
def MCA_STATUS (i : Nat) : Nat := 0x080004 + 0x10000 * i
/-- MCA_ENABLE, offset 0x0008 of the block (04 read_channel, after R139). -/
def MCA_ENABLE (i : Nat) : Nat := 0x080008 + 0x10000 * i
/-- MCA_ZONE_SEL, offset 0x0010 of the block (04 read_channel, after R139). -/
def MCA_ZONE_SEL (i : Nat) : Nat := 0x080010 + 0x10000 * i
/-- MCA_ZONE_STAT, offset 0x0014 of the block (04 read_channel, after R139). -/
def MCA_ZONE_STAT (i : Nat) : Nat := 0x080014 + 0x10000 * i
/-- MCA_ZTAB_LO, offset 0x0018 of the block (04 read_channel, after R139). -/
def MCA_ZTAB_LO (i : Nat) : Nat := 0x080018 + 0x10000 * i
/-- MCA_ZTAB_HI, offset 0x001C of the block (04 read_channel, after R139). -/
def MCA_ZTAB_HI (i : Nat) : Nat := 0x08001C + 0x10000 * i
/-- MCA_RDR_MASK, offset 0x0020 of the block (04 read_channel, after R139). -/
def MCA_RDR_MASK (i j : Nat) : Nat := 0x080020 + 0x10000 * i + 0x4 * j
/-- MCA_RD_CYL, offset 0x0030 of the block (04 read_channel, after R139). -/
def MCA_RD_CYL (i : Nat) : Nat := 0x080030 + 0x10000 * i
/-- MCA_RD_SECT, offset 0x0034 of the block (04 read_channel, after R139). -/
def MCA_RD_SECT (i : Nat) : Nat := 0x080034 + 0x10000 * i
/-- MCA_RD_DMA, offset 0x0038 of the block (04 read_channel, after R139). -/
def MCA_RD_DMA (i : Nat) : Nat := 0x080038 + 0x10000 * i
/-- MCA_RD_CTRL, offset 0x003C of the block (04 read_channel, after R139). -/
def MCA_RD_CTRL (i : Nat) : Nat := 0x08003C + 0x10000 * i
/-- MCA_RD_STAT, offset 0x0040 of the block (04 read_channel, after R139). -/
def MCA_RD_STAT (i : Nat) : Nat := 0x080040 + 0x10000 * i
/-- MCA_RD_NEXT, offset 0x0044 of the block (04 read_channel, after R139). -/
def MCA_RD_NEXT (i : Nat) : Nat := 0x080044 + 0x10000 * i
/-- MCA_DEFECT_CFG, offset 0x0060 of the block (04 read_channel, after R139). -/
def MCA_DEFECT_CFG (i : Nat) : Nat := 0x080060 + 0x10000 * i
/-- MCA_LADDER, offset 0x0080 of the block (04 read_channel, after R139). -/
def MCA_LADDER (i j : Nat) : Nat := 0x080080 + 0x10000 * i + 0x4 * j
/-- MCA_RET_CTRL, offset 0x00C0 of the block (04 read_channel, after R139). -/
def MCA_RET_CTRL (i : Nat) : Nat := 0x0800C0 + 0x10000 * i
/-- MCA_RET_UNPIN, offset 0x00C4 of the block (04 read_channel, after R139). -/
def MCA_RET_UNPIN (i : Nat) : Nat := 0x0800C4 + 0x10000 * i
/-- MCA_RET_NEXT, offset 0x00C8 of the block (04 read_channel, after R139). -/
def MCA_RET_NEXT (i : Nat) : Nat := 0x0800C8 + 0x10000 * i
/-- MCA_RET_SLOT_A, offset 0x0100 of the block (04 read_channel, after R139). -/
def MCA_RET_SLOT_A (i j : Nat) : Nat := 0x080100 + 0x10000 * i + 0x8 * j
/-- MCA_RET_SLOT_B, offset 0x0104 of the block (04 read_channel, after R139). -/
def MCA_RET_SLOT_B (i j : Nat) : Nat := 0x080104 + 0x10000 * i + 0x8 * j
/-- MCA_CNT, offset 0x0200 of the block (04 read_channel, after R139). -/
def MCA_CNT (i j : Nat) : Nat := 0x080200 + 0x10000 * i + 0x4 * j
/-- MCA_LIVE_TAP, offset 0x0400 of the block (04 read_channel, after R139). -/
def MCA_LIVE_TAP (i j : Nat) : Nat := 0x080400 + 0x10000 * i + 0x4 * j
/-- MCA_WR_CTRL, offset 0x8000 of the block (05 write_and_media_format, after R177). -/
def MCA_WR_CTRL (i : Nat) : Nat := 0x088000 + 0x10000 * i
/-- MCA_WR_STATUS, offset 0x8004 of the block (05 write_and_media_format, after R177). -/
def MCA_WR_STATUS (i : Nat) : Nat := 0x088004 + 0x10000 * i
/-- MCA_WR_ENABLE, offset 0x8008 of the block (05 write_and_media_format, after R177). -/
def MCA_WR_ENABLE (i : Nat) : Nat := 0x088008 + 0x10000 * i
/-- MCA_WR_CYL, offset 0x8010 of the block (05 write_and_media_format, after R177). -/
def MCA_WR_CYL (i : Nat) : Nat := 0x088010 + 0x10000 * i
/-- MCA_WR_SECT, offset 0x8014 of the block (05 write_and_media_format, after R177). -/
def MCA_WR_SECT (i : Nat) : Nat := 0x088014 + 0x10000 * i
/-- MCA_WR_DMA, offset 0x8018 of the block (05 write_and_media_format, after R177). -/
def MCA_WR_DMA (i : Nat) : Nat := 0x088018 + 0x10000 * i
/-- MCA_WR_DESC_LO, offset 0x8020 of the block (05 write_and_media_format, after R177). -/
def MCA_WR_DESC_LO (i : Nat) : Nat := 0x088020 + 0x10000 * i
/-- MCA_WR_DESC_HI, offset 0x8024 of the block (05 write_and_media_format, after R177). -/
def MCA_WR_DESC_HI (i : Nat) : Nat := 0x088024 + 0x10000 * i
/-- MCA_WR_CAIRN_LO, offset 0x8028 of the block (05 write_and_media_format, after R177). -/
def MCA_WR_CAIRN_LO (i : Nat) : Nat := 0x088028 + 0x10000 * i
/-- MCA_WR_CAIRN_HI, offset 0x802C of the block (05 write_and_media_format, after R177). -/
def MCA_WR_CAIRN_HI (i : Nat) : Nat := 0x08802C + 0x10000 * i
/-- MCA_WR_STAT, offset 0x8030 of the block (05 write_and_media_format, after R177). -/
def MCA_WR_STAT (i : Nat) : Nat := 0x088030 + 0x10000 * i
/-- MCA_WR_NEXT, offset 0x8034 of the block (05 write_and_media_format, after R177). -/
def MCA_WR_NEXT (i : Nat) : Nat := 0x088034 + 0x10000 * i
/-- MCA_VFY_CFG, offset 0x8040 of the block (05 write_and_media_format, after R177). -/
def MCA_VFY_CFG (i : Nat) : Nat := 0x088040 + 0x10000 * i
/-- MCA_WR_PSIA0, offset 0x8050 of the block (05 write_and_media_format, after R177). -/
def MCA_WR_PSIA0 (i : Nat) : Nat := 0x088050 + 0x10000 * i
/-- MCA_WR_PSIA1, offset 0x8054 of the block (05 write_and_media_format, after R177). -/
def MCA_WR_PSIA1 (i : Nat) : Nat := 0x088054 + 0x10000 * i
/-- MCA_WR_BAND, offset 0x8058 of the block (05 write_and_media_format, after R177). -/
def MCA_WR_BAND (i : Nat) : Nat := 0x088058 + 0x10000 * i
/-- MCA_WCNT, offset 0x8060 of the block (05 write_and_media_format, after R177). -/
def MCA_WCNT (i j : Nat) : Nat := 0x088060 + 0x10000 * i + 0x4 * j
/-- GYL_CTRL, offset 0x0000 of the block (06 servo_guyline, after R210). -/
def GYL_CTRL : Nat := 0x0A0000
/-- GYL_STATUS, offset 0x0004 of the block (06 servo_guyline, after R210). -/
def GYL_STATUS : Nat := 0x0A0004
/-- GYL_ENABLE, offset 0x0008 of the block (06 servo_guyline, after R210). -/
def GYL_ENABLE : Nat := 0x0A0008
/-- GYL_VNOM, offset 0x000C of the block (06 servo_guyline, after R210). -/
def GYL_VNOM : Nat := 0x0A000C
/-- GYL_VM, offset 0x0010 of the block (06 servo_guyline, after R210). -/
def GYL_VM : Nat := 0x0A0010
/-- GYL_CTX_CTRL, offset 0x1000 of the block (06 servo_guyline, after R210). -/
def GYL_CTX_CTRL (i : Nat) : Nat := 0x0A1000 + 0x400 * i
/-- GYL_CTX_LAW, offset 0x1004 of the block (06 servo_guyline, after R210). -/
def GYL_CTX_LAW (i : Nat) : Nat := 0x0A1004 + 0x400 * i
/-- GYL_CTX_PHASE, offset 0x1008 of the block (06 servo_guyline, after R210). -/
def GYL_CTX_PHASE (i : Nat) : Nat := 0x0A1008 + 0x400 * i
/-- GYL_CTX_COMMIT, offset 0x100C of the block (06 servo_guyline, after R210). -/
def GYL_CTX_COMMIT (i : Nat) : Nat := 0x0A100C + 0x400 * i
/-- GYL_CTX_STAT, offset 0x1010 of the block (06 servo_guyline, after R210). -/
def GYL_CTX_STAT (i : Nat) : Nat := 0x0A1010 + 0x400 * i
/-- GYL_CTX_LATE, offset 0x1014 of the block (06 servo_guyline, after R210). -/
def GYL_CTX_LATE (i : Nat) : Nat := 0x0A1014 + 0x400 * i
/-- GYL_CTX_Y, offset 0x1020 of the block (06 servo_guyline, after R210). -/
def GYL_CTX_Y (i j : Nat) : Nat := 0x0A1020 + 0x400 * i + 0x4 * j
/-- GYL_CTX_I, offset 0x1040 of the block (06 servo_guyline, after R210). -/
def GYL_CTX_I (i j : Nat) : Nat := 0x0A1040 + 0x400 * i + 0x4 * j
/-- GYL_CTX_S, offset 0x1100 of the block (06 servo_guyline, after R210). -/
def GYL_CTX_S (i j : Nat) : Nat := 0x0A1100 + 0x400 * i + 0x4 * j
/-- GYL_CTX_K, offset 0x1200 of the block (06 servo_guyline, after R210). -/
def GYL_CTX_K (i j : Nat) : Nat := 0x0A1200 + 0x400 * i + 0x4 * j
/-- GYL_ACT_CTRL, offset 0x3000 of the block (06 servo_guyline, after R210). -/
def GYL_ACT_CTRL (i : Nat) : Nat := 0x0A3000 + 0x100 * i
/-- GYL_ACT_WEDGES, offset 0x3004 of the block (06 servo_guyline, after R210). -/
def GYL_ACT_WEDGES (i : Nat) : Nat := 0x0A3004 + 0x100 * i
/-- GYL_ACT_OTLIM, offset 0x3008 of the block (06 servo_guyline, after R210). -/
def GYL_ACT_OTLIM (i : Nat) : Nat := 0x0A3008 + 0x100 * i
/-- GYL_ACT_WULIM, offset 0x300C of the block (06 servo_guyline, after R210). -/
def GYL_ACT_WULIM (i : Nat) : Nat := 0x0A300C + 0x100 * i
/-- GYL_ACT_TGT_CYL, offset 0x3010 of the block (06 servo_guyline, after R210). -/
def GYL_ACT_TGT_CYL (i : Nat) : Nat := 0x0A3010 + 0x100 * i
/-- GYL_ACT_TGT_OFS, offset 0x3014 of the block (06 servo_guyline, after R210). -/
def GYL_ACT_TGT_OFS (i : Nat) : Nat := 0x0A3014 + 0x100 * i
/-- GYL_ACT_SEEK, offset 0x3018 of the block (06 servo_guyline, after R210). -/
def GYL_ACT_SEEK (i : Nat) : Nat := 0x0A3018 + 0x100 * i
/-- GYL_ACT_AMAX, offset 0x301C of the block (06 servo_guyline, after R210). -/
def GYL_ACT_AMAX (i : Nat) : Nat := 0x0A301C + 0x100 * i
/-- GYL_ACT_VMAX, offset 0x3020 of the block (06 servo_guyline, after R210). -/
def GYL_ACT_VMAX (i : Nat) : Nat := 0x0A3020 + 0x100 * i
/-- GYL_ACT_POS, offset 0x3024 of the block (06 servo_guyline, after R210). -/
def GYL_ACT_POS (i : Nat) : Nat := 0x0A3024 + 0x100 * i
/-- GYL_ACT_FRAC, offset 0x3028 of the block (06 servo_guyline, after R210). -/
def GYL_ACT_FRAC (i : Nat) : Nat := 0x0A3028 + 0x100 * i
/-- GYL_ACT_QUAL, offset 0x302C of the block (06 servo_guyline, after R210). -/
def GYL_ACT_QUAL (i : Nat) : Nat := 0x0A302C + 0x100 * i
/-- GYL_ACT_LOAD, offset 0x3030 of the block (06 servo_guyline, after R210). -/
def GYL_ACT_LOAD (i : Nat) : Nat := 0x0A3030 + 0x100 * i
/-- GYL_ACT_LDCFG, offset 0x3034 of the block (06 servo_guyline, after R210). -/
def GYL_ACT_LDCFG (i : Nat) : Nat := 0x0A3034 + 0x100 * i
/-- GYL_ACT_RETRACT, offset 0x3038 of the block (06 servo_guyline, after R210). -/
def GYL_ACT_RETRACT (i : Nat) : Nat := 0x0A3038 + 0x100 * i
/-- GYL_ACT_ADICFG, offset 0x303C of the block (06 servo_guyline, after R210). -/
def GYL_ACT_ADICFG (i : Nat) : Nat := 0x0A303C + 0x100 * i
/-- GYL_ACT_ADIERR, offset 0x3040 of the block (06 servo_guyline, after R210). -/
def GYL_ACT_ADIERR (i : Nat) : Nat := 0x0A3040 + 0x100 * i
/-- GYL_LAWST, offset 0x8000 of the block (06 servo_guyline, after R210). -/
def GYL_LAWST (i : Nat) : Nat := 0x0A8000 + 0x4 * i
/-- SPN_CTRL, offset 0x0000 of the block (07 spindle, after R213). -/
def SPN_CTRL : Nat := 0x0B0000
/-- SPN_STATUS, offset 0x0004 of the block (07 spindle, after R213). -/
def SPN_STATUS : Nat := 0x0B0004
/-- SPN_ENABLE, offset 0x0008 of the block (07 spindle, after R213). -/
def SPN_ENABLE : Nat := 0x0B0008
/-- SPN_STATE, offset 0x000C of the block (07 spindle, after R213). -/
def SPN_STATE : Nat := 0x0B000C
/-- SPN_PWM, offset 0x0020 of the block (07 spindle, after R216). -/
def SPN_PWM : Nat := 0x0B0020
/-- SPN_SHUNT, offset 0x0024 of the block (07 spindle, after R219). -/
def SPN_SHUNT : Nat := 0x0B0024
/-- SPN_ISCALE, offset 0x0028 of the block (07 spindle, after R219). -/
def SPN_ISCALE : Nat := 0x0B0028
/-- SPN_CNT_PRED, offset 0x0060 of the block (07 spindle, after R219). -/
def SPN_CNT_PRED : Nat := 0x0B0060
/-- SPN_CNT_OC, offset 0x0064 of the block (07 spindle, after R219). -/
def SPN_CNT_OC : Nat := 0x0B0064
/-- SPN_CUR_KP, offset 0x0030 of the block (07 spindle, after R222). -/
def SPN_CUR_KP : Nat := 0x0B0030
/-- SPN_CUR_KI, offset 0x0034 of the block (07 spindle, after R222). -/
def SPN_CUR_KI : Nat := 0x0B0034
/-- SPN_IMAX, offset 0x0038 of the block (07 spindle, after R222). -/
def SPN_IMAX : Nat := 0x0B0038
/-- SPN_TARGET, offset 0x0010 of the block (07 spindle, after R227). -/
def SPN_TARGET : Nat := 0x0B0010
/-- SPN_SPEED, offset 0x0014 of the block (07 spindle, after R227). -/
def SPN_SPEED : Nat := 0x0B0014
/-- SPN_MOTOR, offset 0x0018 of the block (07 spindle, after R227). -/
def SPN_MOTOR : Nat := 0x0B0018
/-- SPN_START, offset 0x0040 of the block (07 spindle, after R232). -/
def SPN_START : Nat := 0x0B0040
/-- SPN_BRAKE_I, offset 0x0044 of the block (07 spindle, after R236). -/
def SPN_BRAKE_I : Nat := 0x0B0044
/-- SPN_VM, offset 0x0054 of the block (07 spindle, after R236). -/
def SPN_VM : Nat := 0x0B0054
/-- SPN_CHOP, offset 0x0058 of the block (07 spindle, after R236). -/
def SPN_CHOP : Nat := 0x0B0058
/-- SPN_GEN, offset 0x0048 of the block (07 spindle, after R239). -/
def SPN_GEN : Nat := 0x0B0048
/-- SPN_GEN_KP, offset 0x004C of the block (07 spindle, after R239). -/
def SPN_GEN_KP : Nat := 0x0B004C
/-- SPN_GEN_KI, offset 0x0050 of the block (07 spindle, after R239). -/
def SPN_GEN_KI : Nat := 0x0B0050
/-- OBJ_RCLOCK_LO, offset 0x0000 of the block (08 object_service, after R287). -/
def OBJ_RCLOCK_LO : Nat := 0x0F0000
/-- OBJ_RCLOCK_HI, offset 0x0004 of the block (08 object_service, after R287). -/
def OBJ_RCLOCK_HI : Nat := 0x0F0004
/-- OBJ_STATUS, offset 0x0008 of the block (08 object_service, after R287). -/
def OBJ_STATUS : Nat := 0x0F0008
/-- OBJ_ENABLE, offset 0x000C of the block (08 object_service, after R287). -/
def OBJ_ENABLE : Nat := 0x0F000C
/-- OBJ_IDX_NODE_LO, offset 0x1000 of the block (08 object_service, after R287). -/
def OBJ_IDX_NODE_LO (i : Nat) : Nat := 0x0F1000 + 0x20 * i
/-- OBJ_IDX_NODE_HI, offset 0x1004 of the block (08 object_service, after R287). -/
def OBJ_IDX_NODE_HI (i : Nat) : Nat := 0x0F1004 + 0x20 * i
/-- OBJ_IDX_KEY_LO, offset 0x1008 of the block (08 object_service, after R287). -/
def OBJ_IDX_KEY_LO (i : Nat) : Nat := 0x0F1008 + 0x20 * i
/-- OBJ_IDX_KEY_HI, offset 0x100C of the block (08 object_service, after R287). -/
def OBJ_IDX_KEY_HI (i : Nat) : Nat := 0x0F100C + 0x20 * i
/-- OBJ_IDX_CTRL, offset 0x1010 of the block (08 object_service, after R287). -/
def OBJ_IDX_CTRL (i : Nat) : Nat := 0x0F1010 + 0x20 * i
/-- OBJ_IDX_RESULT, offset 0x1014 of the block (08 object_service, after R287). -/
def OBJ_IDX_RESULT (i : Nat) : Nat := 0x0F1014 + 0x20 * i
/-- NVQ_CTRL, offset 0x0000 of the block (09 command_queueing, after R318). -/
def NVQ_CTRL : Nat := 0x030000
/-- NVQ_STATUS, offset 0x0004 of the block (09 command_queueing, after R318). -/
def NVQ_STATUS : Nat := 0x030004
/-- NVQ_ENABLE, offset 0x0008 of the block (09 command_queueing, after R318). -/
def NVQ_ENABLE : Nat := 0x030008
/-- NVQ_ROUTE, offset 0x000C of the block (09 command_queueing, after R318). -/
def NVQ_ROUTE : Nat := 0x03000C
/-- NVQ_CMDBUF_LO, offset 0x0010 of the block (09 command_queueing, after R318). -/
def NVQ_CMDBUF_LO : Nat := 0x030010
/-- NVQ_CMDBUF_HI, offset 0x0014 of the block (09 command_queueing, after R318). -/
def NVQ_CMDBUF_HI : Nat := 0x030014
/-- NVQ_BC_DIR_LO, offset 0x0018 of the block (09 command_queueing, after R318). -/
def NVQ_BC_DIR_LO : Nat := 0x030018
/-- NVQ_BC_DIR_HI, offset 0x001C of the block (09 command_queueing, after R318). -/
def NVQ_BC_DIR_HI : Nat := 0x03001C
/-- NVQ_BC_SLOT_LO, offset 0x0020 of the block (09 command_queueing, after R318). -/
def NVQ_BC_SLOT_LO : Nat := 0x030020
/-- NVQ_BC_SLOT_HI, offset 0x0024 of the block (09 command_queueing, after R318). -/
def NVQ_BC_SLOT_HI : Nat := 0x030024
/-- NVQ_FREE_LO, offset 0x0028 of the block (09 command_queueing, after R318). -/
def NVQ_FREE_LO : Nat := 0x030028
/-- NVQ_FREE_HI, offset 0x002C of the block (09 command_queueing, after R318). -/
def NVQ_FREE_HI : Nat := 0x03002C
/-- NVQ_FLOG_LO, offset 0x0030 of the block (09 command_queueing, after R318). -/
def NVQ_FLOG_LO : Nat := 0x030030
/-- NVQ_FLOG_HI, offset 0x0034 of the block (09 command_queueing, after R318). -/
def NVQ_FLOG_HI : Nat := 0x030034
/-- NVQ_BC_CFG, offset 0x0040 of the block (09 command_queueing, after R318). -/
def NVQ_BC_CFG : Nat := 0x030040
/-- NVQ_FREE_TAIL, offset 0x0044 of the block (09 command_queueing, after R318). -/
def NVQ_FREE_TAIL : Nat := 0x030044
/-- NVQ_FREE_HEAD, offset 0x0048 of the block (09 command_queueing, after R318). -/
def NVQ_FREE_HEAD : Nat := 0x030048
/-- NVQ_FLOG_TAIL, offset 0x004C of the block (09 command_queueing, after R318). -/
def NVQ_FLOG_TAIL : Nat := 0x03004C
/-- NVQ_FLOG_HEAD, offset 0x0050 of the block (09 command_queueing, after R318). -/
def NVQ_FLOG_HEAD : Nat := 0x030050
/-- NVQ_INFLIGHT, offset 0x0054 of the block (09 command_queueing, after R318). -/
def NVQ_INFLIGHT : Nat := 0x030054
/-- NVQ_FETCH_ERR, offset 0x0058 of the block (09 command_queueing, after R318). -/
def NVQ_FETCH_ERR : Nat := 0x030058
/-- NVQ_CNT, offset 0x0060 of the block (09 command_queueing, after R318). -/
def NVQ_CNT (i : Nat) : Nat := 0x030060 + 0x4 * i
/-- NVQ_CPL, offset 0x4000 of the block (09 command_queueing, after R318). -/
def NVQ_CPL (i j : Nat) : Nat := 0x034000 + 0x10 * i + 0x4 * j
/-- NVI_GS_CTRL, offset 0x1000 of the block (09 command_queueing, after R318). -/
def NVI_GS_CTRL : Nat := 0x121000
/-- NVI_GS_STATUS, offset 0x1004 of the block (09 command_queueing, after R318). -/
def NVI_GS_STATUS : Nat := 0x121004
/-- NVI_GS_ENABLE, offset 0x1008 of the block (09 command_queueing, after R318). -/
def NVI_GS_ENABLE : Nat := 0x121008
/-- NVI_GS_CEIL, offset 0x100C of the block (09 command_queueing, after R318). -/
def NVI_GS_CEIL : Nat := 0x12100C
/-- NVI_GS_CHARGE, offset 0x1010 of the block (09 command_queueing, after R318). -/
def NVI_GS_CHARGE : Nat := 0x121010
/-- NVI_GS_ADJ, offset 0x2000 of the block (09 command_queueing, after R318). -/
def NVI_GS_ADJ (i : Nat) : Nat := 0x122000 + 0x4 * i
/-- NVI_GS_LIST_LO, offset 0x1014 of the block (09 command_queueing, after R318). -/
def NVI_GS_LIST_LO : Nat := 0x121014
/-- NVI_GS_LIST_HI, offset 0x1018 of the block (09 command_queueing, after R318). -/
def NVI_GS_LIST_HI : Nat := 0x121018
/-- NVI_GS_LIST_N, offset 0x101C of the block (09 command_queueing, after R318). -/
def NVI_GS_LIST_N : Nat := 0x12101C
/-- NVI_GS_AREA, offset 0x1020 of the block (09 command_queueing, after R318). -/
def NVI_GS_AREA (i : Nat) : Nat := 0x121020 + 0x4 * i
/-- NVI_GS_STATE, offset 0x1028 of the block (09 command_queueing, after R318). -/
def NVI_GS_STATE : Nat := 0x121028
/-- HIF_CTRL, offset 0x0000 of the block (10 pcie_endpoint, after R349). -/
def HIF_CTRL : Nat := 0x020000
/-- HIF_STATUS, offset 0x0004 of the block (10 pcie_endpoint, after R349). -/
def HIF_STATUS : Nat := 0x020004
/-- HIF_ENABLE, offset 0x0008 of the block (10 pcie_endpoint, after R349). -/
def HIF_ENABLE : Nat := 0x020008
/-- HIF_SUBSYS, offset 0x0010 of the block (10 pcie_endpoint, after R349). -/
def HIF_SUBSYS : Nat := 0x020010
/-- HIF_STALL, offset 0x0014 of the block (10 pcie_endpoint, after R349). -/
def HIF_STALL : Nat := 0x020014
/-- HIF_PORT_LINK, offset 0x0100 of the block (10 pcie_endpoint, after R349). -/
def HIF_PORT_LINK (i : Nat) : Nat := 0x020100 + 0x40 * i
/-- HIF_PORT_PW_BASE_LO, offset 0x0104 of the block (10 pcie_endpoint, after R349). -/
def HIF_PORT_PW_BASE_LO (i : Nat) : Nat := 0x020104 + 0x40 * i
/-- HIF_PORT_PW_BASE_HI, offset 0x0108 of the block (10 pcie_endpoint, after R349). -/
def HIF_PORT_PW_BASE_HI (i : Nat) : Nat := 0x020108 + 0x40 * i
/-- HIF_PORT_PW_LIMIT, offset 0x010C of the block (10 pcie_endpoint, after R349). -/
def HIF_PORT_PW_LIMIT (i : Nat) : Nat := 0x02010C + 0x40 * i
/-- HIF_PORT_PW_COMMIT, offset 0x0110 of the block (10 pcie_endpoint, after R349). -/
def HIF_PORT_PW_COMMIT (i : Nat) : Nat := 0x020110 + 0x40 * i
/-- HIF_PORT_PW_SIZE, offset 0x0114 of the block (10 pcie_endpoint, after R349). -/
def HIF_PORT_PW_SIZE (i : Nat) : Nat := 0x020114 + 0x40 * i
/-- HIF_PORT_LTR, offset 0x0118 of the block (10 pcie_endpoint, after R349). -/
def HIF_PORT_LTR (i : Nat) : Nat := 0x020118 + 0x40 * i
/-- HIF_PORT_CTO_CNT, offset 0x011C of the block (10 pcie_endpoint, after R349). -/
def HIF_PORT_CTO_CNT (i : Nat) : Nat := 0x02011C + 0x40 * i
/-- HIF_PORT_UNEXP_CNT, offset 0x0120 of the block (10 pcie_endpoint, after R349). -/
def HIF_PORT_UNEXP_CNT (i : Nat) : Nat := 0x020120 + 0x40 * i
/-- HIF_PORT_ORPHAN, offset 0x0124 of the block (10 pcie_endpoint, after R349). -/
def HIF_PORT_ORPHAN (i : Nat) : Nat := 0x020124 + 0x40 * i
/-- CSC_CTRL, offset 0x0000 of the block (11 cascade, after R378). -/
def CSC_CTRL : Nat := 0x040000
/-- CSC_STATUS, offset 0x0004 of the block (11 cascade, after R378). -/
def CSC_STATUS : Nat := 0x040004
/-- CSC_ENABLE, offset 0x0008 of the block (11 cascade, after R378). -/
def CSC_ENABLE : Nat := 0x040008
/-- CSC_RING, offset 0x000C of the block (11 cascade, after R378). -/
def CSC_RING : Nat := 0x04000C
/-- CSC_SB, offset 0x0010 of the block (11 cascade, after R378). -/
def CSC_SB : Nat := 0x040010
/-- CSC_SEGMAP, offset 0x0014 of the block (11 cascade, after R378). -/
def CSC_SEGMAP : Nat := 0x040014
/-- CSC_TMO, offset 0x0018 of the block (11 cascade, after R378). -/
def CSC_TMO : Nat := 0x040018
/-- CSC_FLTWIN, offset 0x001C of the block (11 cascade, after R378). -/
def CSC_FLTWIN : Nat := 0x04001C
/-- CSC_RESET, offset 0x0020 of the block (11 cascade, after R378). -/
def CSC_RESET : Nat := 0x040020
/-- CSC_DOORBELL, offset 0x0024 of the block (11 cascade, after R378). -/
def CSC_DOORBELL : Nat := 0x040024
/-- CSC_MSG_ROUTE, offset 0x0028 of the block (11 cascade, after R378). -/
def CSC_MSG_ROUTE : Nat := 0x040028
/-- CSC_FAIL_LO, offset 0x0030 of the block (11 cascade, after R378). -/
def CSC_FAIL_LO : Nat := 0x040030
/-- CSC_FAIL_HI, offset 0x0034 of the block (11 cascade, after R378). -/
def CSC_FAIL_HI : Nat := 0x040034
/-- CSC_PORT_STATE, offset 0x0100 of the block (11 cascade, after R378). -/
def CSC_PORT_STATE (i : Nat) : Nat := 0x040100 + 0x40 * i
/-- CSC_PORT_CTRL, offset 0x0104 of the block (11 cascade, after R378). -/
def CSC_PORT_CTRL (i : Nat) : Nat := 0x040104 + 0x40 * i
/-- CSC_PORT_PEER_LO, offset 0x0108 of the block (11 cascade, after R378). -/
def CSC_PORT_PEER_LO (i : Nat) : Nat := 0x040108 + 0x40 * i
/-- CSC_PORT_PEER_HI, offset 0x010C of the block (11 cascade, after R378). -/
def CSC_PORT_PEER_HI (i : Nat) : Nat := 0x04010C + 0x40 * i
/-- CSC_PORT_CNT, offset 0x0110 of the block (11 cascade, after R378). -/
def CSC_PORT_CNT (i j : Nat) : Nat := 0x040110 + 0x40 * i + 0x4 * j
/-- CSC_ROSTER_LO, offset 0x0200 of the block (11 cascade, after R378). -/
def CSC_ROSTER_LO (i : Nat) : Nat := 0x040200 + 0x8 * i
/-- CSC_ROSTER_HI, offset 0x0204 of the block (11 cascade, after R378). -/
def CSC_ROSTER_HI (i : Nat) : Nat := 0x040204 + 0x8 * i
/-- CSC_PART_STATE, offset 0x0240 of the block (11 cascade, after R378). -/
def CSC_PART_STATE (i : Nat) : Nat := 0x040240 + 0x4 * i
/-- CSC_INWIN_BASE_LO, offset 0x0300 of the block (11 cascade, after R378). -/
def CSC_INWIN_BASE_LO (i : Nat) : Nat := 0x040300 + 0x10 * i
/-- CSC_INWIN_BASE_HI, offset 0x0304 of the block (11 cascade, after R378). -/
def CSC_INWIN_BASE_HI (i : Nat) : Nat := 0x040304 + 0x10 * i
/-- CSC_INWIN_LIMIT, offset 0x0308 of the block (11 cascade, after R378). -/
def CSC_INWIN_LIMIT (i : Nat) : Nat := 0x040308 + 0x10 * i
/-- CSC_INCTRL, offset 0x0340 of the block (11 cascade, after R378). -/
def CSC_INCTRL : Nat := 0x040340
/-- CSC_MSG_W, offset 0x4000 of the block (11 cascade, after R378). -/
def CSC_MSG_W (i j : Nat) : Nat := 0x044000 + 0x20 * i + 0x4 * j
/-- CSC_MSG_SEND, offset 0x4010 of the block (11 cascade, after R378). -/
def CSC_MSG_SEND (i : Nat) : Nat := 0x044010 + 0x20 * i
/-- MEM_CTRL, offset 0x0000 of the block (12 memory_system, after R403). -/
def MEM_CTRL : Nat := 0x050000
/-- MEM_STATUS, offset 0x0004 of the block (12 memory_system, after R403). -/
def MEM_STATUS : Nat := 0x050004
/-- MEM_ENABLE, offset 0x0008 of the block (12 memory_system, after R403). -/
def MEM_ENABLE : Nat := 0x050008
/-- MEM_CAP, offset 0x000C of the block (12 memory_system, after R403). -/
def MEM_CAP : Nat := 0x05000C
/-- MEM_REF, offset 0x0010 of the block (12 memory_system, after R403). -/
def MEM_REF : Nat := 0x050010
/-- MEM_ELOG_SEL, offset 0x0020 of the block (12 memory_system, after R403). -/
def MEM_ELOG_SEL : Nat := 0x050020
/-- MEM_ELOG_CNT, offset 0x0024 of the block (12 memory_system, after R403). -/
def MEM_ELOG_CNT : Nat := 0x050024
/-- MEM_ELOG_ADDR_LO, offset 0x0100 of the block (12 memory_system, after R403). -/
def MEM_ELOG_ADDR_LO (i : Nat) : Nat := 0x050100 + 0x10 * i
/-- MEM_ELOG_ADDR_HI, offset 0x0104 of the block (12 memory_system, after R403). -/
def MEM_ELOG_ADDR_HI (i : Nat) : Nat := 0x050104 + 0x10 * i
/-- MEM_ELOG_INFO, offset 0x0108 of the block (12 memory_system, after R403). -/
def MEM_ELOG_INFO (i : Nat) : Nat := 0x050108 + 0x10 * i
/-- MEM_ELOG_TIME, offset 0x010C of the block (12 memory_system, after R403). -/
def MEM_ELOG_TIME (i : Nat) : Nat := 0x05010C + 0x10 * i
/-- MEM_SWP_CTRL, offset 0x0040 of the block (12 memory_system, after R403). -/
def MEM_SWP_CTRL : Nat := 0x050040
/-- MEM_SWP_LAP, offset 0x0044 of the block (12 memory_system, after R403). -/
def MEM_SWP_LAP : Nat := 0x050044
/-- MEM_SWP_SLAP, offset 0x0048 of the block (12 memory_system, after R403). -/
def MEM_SWP_SLAP : Nat := 0x050048
/-- MEM_SWP_POS, offset 0x004C of the block (12 memory_system, after R403). -/
def MEM_SWP_POS : Nat := 0x05004C
/-- CCH_WAYPWR, offset 0x0000 of the block (12 memory_system, after R403). -/
def CCH_WAYPWR : Nat := 0x060000
/-- CCH_STATUS, offset 0x0004 of the block (12 memory_system, after R403). -/
def CCH_STATUS : Nat := 0x060004
/-- CCH_ENABLE, offset 0x0008 of the block (12 memory_system, after R403). -/
def CCH_ENABLE : Nat := 0x060008
/-- CCH_CNT, offset 0x0010 of the block (12 memory_system, after R403). -/
def CCH_CNT (i : Nat) : Nat := 0x060010 + 0x4 * i
/-- DMA_STATUS, offset 0x0000 of the block (13 dma, after R415). -/
def DMA_STATUS : Nat := 0x070000
/-- DMA_ENABLE, offset 0x0004 of the block (13 dma, after R415). -/
def DMA_ENABLE : Nat := 0x070004
/-- DMA_ERRSTATUS, offset 0x0008 of the block (13 dma, after R415). -/
def DMA_ERRSTATUS : Nat := 0x070008
/-- DMA_ERRENABLE, offset 0x000C of the block (13 dma, after R415). -/
def DMA_ERRENABLE : Nat := 0x07000C
/-- DMA_CH_CTRL, offset 0x1000 of the block (13 dma, after R415). -/
def DMA_CH_CTRL (i : Nat) : Nat := 0x071000 + 0x40 * i
/-- DMA_CH_HEAD_LO, offset 0x1004 of the block (13 dma, after R415). -/
def DMA_CH_HEAD_LO (i : Nat) : Nat := 0x071004 + 0x40 * i
/-- DMA_CH_HEAD_HI, offset 0x1008 of the block (13 dma, after R415). -/
def DMA_CH_HEAD_HI (i : Nat) : Nat := 0x071008 + 0x40 * i
/-- DMA_CH_CUR_LO, offset 0x100C of the block (13 dma, after R415). -/
def DMA_CH_CUR_LO (i : Nat) : Nat := 0x07100C + 0x40 * i
/-- DMA_CH_CUR_HI, offset 0x1010 of the block (13 dma, after R415). -/
def DMA_CH_CUR_HI (i : Nat) : Nat := 0x071010 + 0x40 * i
/-- DMA_CH_STATE, offset 0x1014 of the block (13 dma, after R415). -/
def DMA_CH_STATE (i : Nat) : Nat := 0x071014 + 0x40 * i
/-- DMA_CH_WRPTR, offset 0x1018 of the block (13 dma, after R415). -/
def DMA_CH_WRPTR (i : Nat) : Nat := 0x071018 + 0x40 * i
/-- DMA_CH_RDPTR, offset 0x101C of the block (13 dma, after R415). -/
def DMA_CH_RDPTR (i : Nat) : Nat := 0x07101C + 0x40 * i
/-- DMA_CH_BYTES, offset 0x1020 of the block (13 dma, after R415). -/
def DMA_CH_BYTES (i : Nat) : Nat := 0x071020 + 0x40 * i
/-- SYS_STRAP, offset 0x0008 of the block (14 power_clocks_resets_thermal, after R447). -/
def SYS_STRAP : Nat := 0x000008
/-- SYS_STATUS, offset 0x0010 of the block (14 power_clocks_resets_thermal, after R447). -/
def SYS_STATUS : Nat := 0x000010
/-- SYS_ENABLE, offset 0x0014 of the block (14 power_clocks_resets_thermal, after R447). -/
def SYS_ENABLE : Nat := 0x000014
/-- SYS_RST_CAUSE, offset 0x0020 of the block (14 power_clocks_resets_thermal, after R447). -/
def SYS_RST_CAUSE : Nat := 0x000020
/-- SYS_RST_CTRL, offset 0x0024 of the block (14 power_clocks_resets_thermal, after R447). -/
def SYS_RST_CTRL : Nat := 0x000024
/-- SYS_WDOG, offset 0x0028 of the block (14 power_clocks_resets_thermal, after R447). -/
def SYS_WDOG : Nat := 0x000028
/-- SYS_WDOG_KICK, offset 0x002C of the block (14 power_clocks_resets_thermal, after R447). -/
def SYS_WDOG_KICK : Nat := 0x00002C
/-- SYS_CLK, offset 0x0030 of the block (14 power_clocks_resets_thermal, after R447). -/
def SYS_CLK : Nat := 0x000030
/-- SYS_PWR, offset 0x0200 of the block (14 power_clocks_resets_thermal, after R447). -/
def SYS_PWR : Nat := 0x000200
/-- EMB_STATUS, offset 0x0004 of the block (14 power_clocks_resets_thermal, after R447). -/
def EMB_STATUS : Nat := 0x010004
/-- EMB_ENABLE, offset 0x0008 of the block (14 power_clocks_resets_thermal, after R447). -/
def EMB_ENABLE : Nat := 0x010008
/-- EMB_WAKE_EN, offset 0x000C of the block (14 power_clocks_resets_thermal, after R447). -/
def EMB_WAKE_EN : Nat := 0x01000C
/-- EMB_WAKE_SRC, offset 0x0010 of the block (14 power_clocks_resets_thermal, after R447). -/
def EMB_WAKE_SRC : Nat := 0x010010
/-- EMB_RTC_LO, offset 0x0020 of the block (14 power_clocks_resets_thermal, after R447). -/
def EMB_RTC_LO : Nat := 0x010020
/-- EMB_RTC_HI, offset 0x0024 of the block (14 power_clocks_resets_thermal, after R447). -/
def EMB_RTC_HI : Nat := 0x010024
/-- EMB_ALARM_LO, offset 0x0028 of the block (14 power_clocks_resets_thermal, after R447). -/
def EMB_ALARM_LO : Nat := 0x010028
/-- EMB_ALARM_HI, offset 0x002C of the block (14 power_clocks_resets_thermal, after R447). -/
def EMB_ALARM_HI : Nat := 0x01002C
/-- EMB_CLK, offset 0x0030 of the block (14 power_clocks_resets_thermal, after R447). -/
def EMB_CLK : Nat := 0x010030
/-- EMB_TRIP, offset 0x0040 of the block (14 power_clocks_resets_thermal, after R447). -/
def EMB_TRIP : Nat := 0x010040
/-- THM_STATUS, offset 0x0004 of the block (14 power_clocks_resets_thermal, after R447). -/
def THM_STATUS : Nat := 0x0C0004
/-- THM_ENABLE, offset 0x0008 of the block (14 power_clocks_resets_thermal, after R447). -/
def THM_ENABLE : Nat := 0x0C0008
/-- THM_BANDS, offset 0x0040 of the block (14 power_clocks_resets_thermal, after R447). -/
def THM_BANDS : Nat := 0x0C0040
/-- THM_THROT, offset 0x0050 of the block (14 power_clocks_resets_thermal, after R447). -/
def THM_THROT : Nat := 0x0C0050
/-- THM_FW_CFG, offset 0x0060 of the block (14 power_clocks_resets_thermal, after R447). -/
def THM_FW_CFG : Nat := 0x0C0060
/-- THM_FW_ACCT, offset 0x0064 of the block (14 power_clocks_resets_thermal, after R447). -/
def THM_FW_ACCT : Nat := 0x0C0064
/-- THM_PWR, offset 0x0068 of the block (14 power_clocks_resets_thermal, after R447). -/
def THM_PWR : Nat := 0x0C0068
/-- THM_CH, offset 0x0100 of the block (14 power_clocks_resets_thermal, after R447). -/
def THM_CH (i : Nat) : Nat := 0x0C0100 + 0x4 * i
/-- THM_EXT_CFG, offset 0x0200 of the block (14 power_clocks_resets_thermal, after R447). -/
def THM_EXT_CFG (i : Nat) : Nat := 0x0C0200 + 0x4 * i
/-- SEC_LC, offset 0x0000 of the block (15 security_debug, after R475). -/
def SEC_LC : Nat := 0x0E0000
/-- SEC_STATUS, offset 0x0004 of the block (15 security_debug, after R475). -/
def SEC_STATUS : Nat := 0x0E0004
/-- SEC_ENABLE, offset 0x0008 of the block (15 security_debug, after R475). -/
def SEC_ENABLE : Nat := 0x0E0008
/-- SEC_CMD_ADDR_LO, offset 0x0010 of the block (15 security_debug, after R475). -/
def SEC_CMD_ADDR_LO : Nat := 0x0E0010
/-- SEC_CMD_ADDR_HI, offset 0x0014 of the block (15 security_debug, after R475). -/
def SEC_CMD_ADDR_HI : Nat := 0x0E0014
/-- SEC_CMD, offset 0x0018 of the block (15 security_debug, after R475). -/
def SEC_CMD : Nat := 0x0E0018
/-- SEC_LOCK, offset 0x0020 of the block (15 security_debug, after R475). -/
def SEC_LOCK : Nat := 0x0E0020
/-- SEC_NONCE, offset 0x0040 of the block (15 security_debug, after R475). -/
def SEC_NONCE (i : Nat) : Nat := 0x0E0040 + 0x4 * i
/-- SEC_SVN, offset 0x0060 of the block (15 security_debug, after R475). -/
def SEC_SVN : Nat := 0x0E0060
/-- SEC_KSLOT_LO, offset 0x0070 of the block (15 security_debug, after R475). -/
def SEC_KSLOT_LO : Nat := 0x0E0070
/-- SEC_KSLOT_HI, offset 0x0074 of the block (15 security_debug, after R475). -/
def SEC_KSLOT_HI : Nat := 0x0E0074
/-- CSC_RLY_BASE_LO, offset 0x0060 of the block (16 firmware_update, after R493). -/
def CSC_RLY_BASE_LO : Nat := 0x040060
/-- CSC_RLY_BASE_HI, offset 0x0064 of the block (16 firmware_update, after R493). -/
def CSC_RLY_BASE_HI : Nat := 0x040064
/-- CSC_RLY_SIZE, offset 0x0068 of the block (16 firmware_update, after R493). -/
def CSC_RLY_SIZE : Nat := 0x040068
/-- CSC_RLY_CNT, offset 0x006C of the block (16 firmware_update, after R493). -/
def CSC_RLY_CNT : Nat := 0x04006C
/-- EVT_CTRL, offset 0x0000 of the block (17 reliability, after R517). -/
def EVT_CTRL : Nat := 0x0D0000
/-- EVT_STATUS, offset 0x0004 of the block (17 reliability, after R517). -/
def EVT_STATUS : Nat := 0x0D0004
/-- EVT_ENABLE, offset 0x0008 of the block (17 reliability, after R517). -/
def EVT_ENABLE : Nat := 0x0D0008
/-- EVT_WR, offset 0x0010 of the block (17 reliability, after R517). -/
def EVT_WR : Nat := 0x0D0010
/-- EVT_CKPT, offset 0x0014 of the block (17 reliability, after R517). -/
def EVT_CKPT : Nat := 0x0D0014
/-- EVT_SUMCLR, offset 0x0018 of the block (17 reliability, after R517). -/
def EVT_SUMCLR : Nat := 0x0D0018
/-- EVT_HIST, offset 0x0100 of the block (17 reliability, after R517). -/
def EVT_HIST (i : Nat) : Nat := 0x0D0100 + 0x4 * i
/-- EVT_HIST_OVR, offset 0x0120 of the block (17 reliability, after R517). -/
def EVT_HIST_OVR (i : Nat) : Nat := 0x0D0120 + 0x4 * i
/-- EVT_SUM_KEY, offset 0x1000 of the block (17 reliability, after R517). -/
def EVT_SUM_KEY (i : Nat) : Nat := 0x0D1000 + 0x20 * i
/-- EVT_SUM_VAL, offset 0x1004 of the block (17 reliability, after R517). -/
def EVT_SUM_VAL (i j : Nat) : Nat := 0x0D1004 + 0x20 * i + 0x4 * j
/-- EVT_POST_ADDR_LO, offset 0x4000 of the block (17 reliability, after R517). -/
def EVT_POST_ADDR_LO (i : Nat) : Nat := 0x0D4000 + 0x10 * i
/-- EVT_POST_ADDR_HI, offset 0x4004 of the block (17 reliability, after R517). -/
def EVT_POST_ADDR_HI (i : Nat) : Nat := 0x0D4004 + 0x10 * i
/-- EVT_POST_STAT, offset 0x4008 of the block (17 reliability, after R517). -/
def EVT_POST_STAT (i : Nat) : Nat := 0x0D4008 + 0x10 * i
/-- EMB_LW, offset 0x0050 of the block (17 reliability, after R517). -/
def EMB_LW : Nat := 0x010050
/-- SYS_BIV, offset 0x0040 of the block (17 reliability, after R517). -/
def SYS_BIV : Nat := 0x000040
/-- SYS_BIV_ENTER, offset 0x0044 of the block (17 reliability, after R517). -/
def SYS_BIV_ENTER : Nat := 0x000044
/-- PTL_CTRL, offset 0x0000 of the block (17 reliability, after R517). -/
def PTL_CTRL : Nat := 0x100000
/-- PTL_STATUS, offset 0x0004 of the block (17 reliability, after R517). -/
def PTL_STATUS : Nat := 0x100004
/-- PTL_ENABLE, offset 0x0008 of the block (17 reliability, after R517). -/
def PTL_ENABLE : Nat := 0x100008
/-- PTL_MASK, offset 0x000C of the block (17 reliability, after R517). -/
def PTL_MASK : Nat := 0x10000C
/-- PTL_LAP, offset 0x0010 of the block (17 reliability, after R517). -/
def PTL_LAP : Nat := 0x100010
/-- PTL_ITEM, offset 0x0100 of the block (17 reliability, after R517). -/
def PTL_ITEM (i : Nat) : Nat := 0x100100 + 0x4 * i
/-- MCA_PSI_CTRL, offset 0xC000 of the block (18 pins_electrical, after R530). -/
def MCA_PSI_CTRL (i : Nat) : Nat := 0x08C000 + 0x10000 * i
/-- MCA_PSI_DATA, offset 0xC004 of the block (18 pins_electrical, after R530). -/
def MCA_PSI_DATA (i : Nat) : Nat := 0x08C004 + 0x10000 * i
/-- NVI_GPIO_OUT, offset 0x3000 of the block (18 pins_electrical, after R537). -/
def NVI_GPIO_OUT : Nat := 0x123000
/-- NVI_GPIO_OE, offset 0x3004 of the block (18 pins_electrical, after R537). -/
def NVI_GPIO_OE : Nat := 0x123004
/-- NVI_GPIO_IN, offset 0x3008 of the block (18 pins_electrical, after R537). -/
def NVI_GPIO_IN : Nat := 0x123008
/-- NVI_GPIO_STATUS, offset 0x300C of the block (18 pins_electrical, after R537). -/
def NVI_GPIO_STATUS : Nat := 0x12300C
/-- NVI_GPIO_ENABLE, offset 0x3010 of the block (18 pins_electrical, after R537). -/
def NVI_GPIO_ENABLE : Nat := 0x123010

end Reg

/-- Bits 1:0 of SYS_THR_ENTRY_LO, which the block ignores, are not stored and read 0 (R6; DESIGN CHOICE, log entry 87). -/
def regRowsSYS0 : List RegRow := [
  ⟨0x0, 1, 0x100000, 1, 0x4, 0xA580020, 0x0, 0x0, 0x0, 0x0, 0x0, 0x0, 0, 0x0, 0x0⟩,
  ⟨0x4, 1, 0x100000, 1, 0x4, 0x0, 0x0, 0x0, 0x0, 0x0, 0x0, 0x0, 0, 0x0, 0x0⟩,
  ⟨0x100, 1, 0x100000, 1, 0x4, 0x0, 0xFFFFFFFF, 0x0, 0x0, 0x0, 0x0, 0x0, 0, 0xFFFFFFFF, 0x0⟩,
  ⟨0x104, 1, 0x100000, 1, 0x4, 0x0, 0xFFFFFFFF, 0x0, 0x0, 0x0, 0x0, 0x0, 0, 0xFFFFFFFF, 0x0⟩,
  ⟨0x108, 1, 0x100000, 1, 0x4, 0x0, 0xFFFFFFFF, 0x0, 0x0, 0x0, 0x0, 0x0, 0, 0xFFFFFFFF, 0x0⟩,
  ⟨0x10C, 1, 0x100000, 1, 0x4, 0x0, 0xFFFFFFFF, 0x0, 0x0, 0x0, 0x0, 0x0, 0, 0xFFFFFFFF, 0x0⟩,
  ⟨0x110, 1, 0x100000, 1, 0x4, 0x0, 0xFFFFFFFF, 0x0, 0x0, 0x0, 0x0, 0x0, 0, 0xFFFFFFFF, 0x0⟩,
  ⟨0x114, 1, 0x100000, 1, 0x4, 0x1, 0xFFFFFFFF, 0x0, 0x0, 0x0, 0x0, 0x0, 0, 0xFFFFFFFF, 0x0⟩,
  ⟨0x120, 1, 0x100000, 1, 0x4, 0x0, 0xFFFFFFFC, 0x0, 0x0, 0x0, 0x0, 0x0, 0, 0x0, 0x0⟩,
  ⟨0x124, 1, 0x100000, 1, 0x4, 0x0, 0xFFFFFFFF, 0x0, 0x0, 0x0, 0x0, 0x0, 0, 0x0, 0x0⟩,
  ⟨0x8, 1, 0x100000, 1, 0x4, 0x0, 0x0, 0x0, 0x0, 0x0, 0x0, 0x0, 0, 0x0, 0x0⟩,
  ⟨0x10, 1, 0x100000, 1, 0x4, 0x0, 0x0, 0x1F, 0x0, 0x0, 0x0, 0x0, 0, 0x0, 0x0⟩,
  ⟨0x14, 1, 0x100000, 1, 0x4, 0x0, 0x1F, 0x0, 0x0, 0x0, 0x0, 0x0, 0, 0x0, 0x0⟩,
  ⟨0x20, 1, 0x100000, 1, 0x4, 0x0, 0x0, 0x0, 0x0, 0x0, 0x0, 0x0, 0, 0x0, 0x0⟩,
  ⟨0x24, 1, 0x100000, 1, 0x4, 0x0, 0x0, 0x0, 0x0, 0x0, 0x0, 0x0, 0, 0x0, 0x0⟩,
  ⟨0x28, 1, 0x100000, 1, 0x4, 0x3E8, 0xFFFF, 0x0, 0x80000000, 0x0, 0x0, 0x0, 0, 0x0, 0x0⟩,
  ⟨0x2C, 1, 0x100000, 1, 0x4, 0x0, 0x0, 0x0, 0x0, 0x0, 0x0, 0x0, 0, 0x0, 0x0⟩,
  ⟨0x30, 1, 0x100000, 1, 0x4, 0x0, 0x1, 0x0, 0x0, 0x0, 0x0, 0x0, 0, 0x0, 0x0⟩,
  ⟨0x200, 1, 0x100000, 1, 0x4, 0x0, 0x3, 0x0, 0x0, 0x0, 0x0, 0x0, 0, 0x0, 0x0⟩,
  ⟨0x40, 1, 0x100000, 1, 0x4, 0x0, 0x0, 0x0, 0x0, 0x0, 0x0, 0x0, 0, 0x0, 0x0⟩,
  ⟨0x44, 1, 0x100000, 1, 0x4, 0x0, 0x0, 0x0, 0x0, 0x0, 0x0, 0x0, 0, 0x0, 0x0⟩]

/-- The registers of the SYS block. -/
def regRowsSYS : List RegRow := regRowsSYS0

def regRowsEVT0 : List RegRow := [
  ⟨0xD8000, 1, 0x100000, 1, 0x4, 0x1012000, 0x3F3F3F3F, 0x0, 0x0, 0x0, 0x0, 0x0, 0, 0x0, 0x0⟩,
  ⟨0xD8004, 1, 0x100000, 1, 0x4, 0x20002020, 0x3F3F3F3F, 0x0, 0x0, 0x0, 0x0, 0x0, 0, 0x0, 0x0⟩,
  ⟨0xD8008, 1, 0x100000, 1, 0x4, 0x20201008, 0x3F3F3F3F, 0x0, 0x0, 0x0, 0x0, 0x0, 0, 0x0, 0x0⟩,
  ⟨0xD800C, 1, 0x100000, 1, 0x4, 0x6002020, 0x3F3F3F3F, 0x0, 0x0, 0x0, 0x0, 0x0, 0, 0x0, 0x0⟩,
  ⟨0xD8010, 1, 0x100000, 1, 0x4, 0x200020, 0x3F3F3F, 0x0, 0x0, 0x0, 0x0, 0x0, 0, 0x0, 0x0⟩,
  ⟨0xD0000, 1, 0x100000, 1, 0x4, 0x53, 0x73, 0x0, 0x0, 0x0, 0x0, 0x0, 0, 0x0, 0x0⟩,
  ⟨0xD0004, 1, 0x100000, 1, 0x4, 0x0, 0x0, 0x1F, 0x0, 0x0, 0x0, 0x0, 0, 0x0, 0x0⟩,
  ⟨0xD0008, 1, 0x100000, 1, 0x4, 0x0, 0x1F, 0x0, 0x0, 0x0, 0x0, 0x0, 0, 0x0, 0x0⟩,
  ⟨0xD0010, 1, 0x100000, 1, 0x4, 0x0, 0x0, 0x0, 0x0, 0x0, 0x0, 0x0, 0, 0x0, 0x0⟩,
  ⟨0xD0014, 1, 0x100000, 1, 0x4, 0x0, 0x0, 0x0, 0x0, 0x0, 0x0, 0x0, 0, 0x0, 0x0⟩,
  ⟨0xD0018, 1, 0x100000, 1, 0x4, 0x0, 0x0, 0x0, 0x0, 0x0, 0x0, 0x0, 0, 0x0, 0x0⟩,
  ⟨0xD0100, 1, 0x100000, 8, 0x4, 0x0, 0x0, 0x0, 0x0, 0xFFFFFFFF, 0x0, 0x0, 0, 0x0, 0x0⟩,
  ⟨0xD0120, 1, 0x100000, 8, 0x4, 0x0, 0x0, 0x0, 0x0, 0xFFFFFFFF, 0x0, 0x0, 0, 0x0, 0x0⟩,
  ⟨0xD1000, 1, 0x100000, 64, 0x20, 0x0, 0x0, 0x0, 0x0, 0x0, 0x0, 0x0, 0, 0x0, 0x0⟩,
  ⟨0xD1004, 64, 0x20, 5, 0x4, 0x0, 0x0, 0x0, 0x0, 0x0, 0x0, 0x0, 0, 0x0, 0x0⟩,
  ⟨0xD4000, 1, 0x100000, 192, 0x10, 0x0, 0xFFFFFFFF, 0x0, 0x0, 0x0, 0x0, 0x0, 0, 0x0, 0x0⟩,
  ⟨0xD4004, 1, 0x100000, 192, 0x10, 0x0, 0xFFFFFFFF, 0x0, 0x0, 0x0, 0x0, 0x0, 0, 0x0, 0x0⟩,
  ⟨0xD4008, 1, 0x100000, 192, 0x10, 0x0, 0x0, 0x0, 0x0, 0x0, 0x0, 0x0, 0, 0x0, 0x0⟩]

/-- The registers of the EVT block. -/
def regRowsEVT : List RegRow := regRowsEVT0

def regRowsUCS0 : List RegRow := [
  ⟨0x110000, 1, 0x100000, 1, 0x4, 0x0, 0x0, 0x0, 0x0, 0x0, 0x0, 0x0, 0, 0x0, 0x0⟩,
  ⟨0x110004, 1, 0x100000, 1, 0x4, 0x0, 0x0, 0x0, 0x0, 0x0, 0x0, 0x0, 0, 0x0, 0x0⟩,
  ⟨0x110008, 1, 0x100000, 1, 0x4, 0x0, 0x0, 0x0, 0x0, 0x0, 0x0, 0x0, 0, 0x0, 0x0⟩,
  ⟨0x110010, 1, 0x100000, 1, 0x4, 0x0, 0xFFFFFFFF, 0x0, 0x0, 0x0, 0x0, 0x0, 0, 0x0, 0x0⟩,
  ⟨0x110014, 1, 0x100000, 1, 0x4, 0x0, 0xFFFFFFFF, 0x0, 0x0, 0x0, 0x0, 0x0, 0, 0x0, 0x0⟩,
  ⟨0x110018, 1, 0x100000, 1, 0x4, 0x0, 0x7, 0x0, 0x0, 0x0, 0x0, 0x0, 0, 0x1, 0x0⟩,
  ⟨0x11001C, 1, 0x100000, 1, 0x4, 0xFFFF0000, 0x0, 0x0, 0x0, 0x0, 0x0, 0x0, 0, 0x0, 0x0⟩,
  ⟨0x110020, 1, 0x100000, 1, 0x4, 0x0, 0x0, 0xF, 0x0, 0x0, 0x0, 0x0, 0, 0x0, 0x0⟩,
  ⟨0x110024, 1, 0x100000, 1, 0x4, 0x0, 0xF, 0x0, 0x0, 0x0, 0x0, 0x0, 0, 0x0, 0x0⟩,
  ⟨0x110028, 1, 0x100000, 1, 0x4, 0x0, 0x0, 0x0, 0x0, 0xFFFF, 0x0, 0x0, 0, 0x0, 0x0⟩,
  ⟨0x110030, 1, 0x100000, 1, 0x4, 0x0, 0x3FFF, 0x0, 0x0, 0x0, 0x0, 0x0, 0, 0x0, 0x0⟩,
  ⟨0x110034, 1, 0x100000, 4, 0x4, 0x0, 0x0, 0x0, 0x0, 0x0, 0x0, 0x0, 0, 0x0, 0x0⟩,
  ⟨0x110100, 1, 0x100000, 16, 0x4, 0x0, 0x0, 0x80000000, 0x0, 0x0, 0x0, 0x0, 0, 0x0, 0x0⟩,
  ⟨0x110140, 1, 0x100000, 16, 0x4, 0x0, 0x0, 0x0, 0x0, 0x0, 0x0, 0x0, 0, 0x0, 0x0⟩]

/-- The registers of the UCS block. -/
def regRowsUCS : List RegRow := regRowsUCS0

def regRowsMCA0 : List RegRow := [
  ⟨0x80000, 2, 0x10000, 1, 0x4, 0x42, 0xCB, 0x0, 0x0, 0x0, 0x0, 0x0, 0, 0x0, 0x0⟩,
  ⟨0x80004, 2, 0x10000, 1, 0x4, 0x0, 0x0, 0xFF, 0x0, 0x0, 0x0, 0x0, 0, 0x0, 0x0⟩,
  ⟨0x80008, 2, 0x10000, 1, 0x4, 0x0, 0xFF, 0x0, 0x0, 0x0, 0x0, 0x0, 0, 0x0, 0x0⟩,
  ⟨0x80010, 2, 0x10000, 1, 0x4, 0x0, 0x1F3F, 0x0, 0x0, 0x0, 0x0, 0x0, 0, 0x0, 0x0⟩,
  ⟨0x80014, 2, 0x10000, 1, 0x4, 0x0, 0x0, 0x0, 0x0, 0x0, 0x0, 0x0, 0, 0x0, 0x0⟩,
  ⟨0x80018, 2, 0x10000, 1, 0x4, 0x0, 0xFFFFFFFF, 0x0, 0x0, 0x0, 0x0, 0x0, 0, 0x0, 0x0⟩,
  ⟨0x8001C, 2, 0x10000, 1, 0x4, 0x0, 0xFFFFFFFF, 0x0, 0x0, 0x0, 0x0, 0x0, 0, 0x0, 0x0⟩,
  ⟨0x80020, 2, 0x10000, 3, 0x4, 0xFFFFFFFF, 0xFFFFFFFF, 0x0, 0x0, 0x0, 0x0, 0x0, 0, 0x0, 0x0⟩,
  ⟨0x80030, 2, 0x10000, 1, 0x4, 0x0, 0xFFFFFFFF, 0x0, 0x0, 0x0, 0x0, 0x0, 0, 0x0, 0x0⟩,
  ⟨0x80034, 2, 0x10000, 1, 0x4, 0x0, 0xFFFFFFFF, 0x0, 0x0, 0x0, 0x0, 0x0, 0, 0x0, 0x0⟩,
  ⟨0x80038, 2, 0x10000, 1, 0x4, 0x0, 0x1F1F, 0x0, 0x0, 0x0, 0x0, 0x0, 0, 0x0, 0x0⟩,
  ⟨0x8003C, 2, 0x10000, 1, 0x4, 0x0, 0xF0005, 0x0, 0x0, 0x0, 0x0, 0x0, 0, 0x5, 0x0⟩,
  ⟨0x80040, 2, 0x10000, 1, 0x4, 0x0, 0x0, 0x0, 0x0, 0x0, 0x0, 0x0, 0, 0x0, 0x0⟩,
  ⟨0x80044, 2, 0x10000, 1, 0x4, 0x0, 0x0, 0x0, 0x0, 0x0, 0x0, 0x0, 0, 0x0, 0x0⟩,
  ⟨0x80060, 2, 0x10000, 1, 0x4, 0x403, 0xFF03, 0x0, 0x0, 0x0, 0x0, 0x0, 0, 0x0, 0x0⟩,
  ⟨0x80080, 2, 0x10000, 1, 0x4, 0x1000A40, 0xF0F3FFF, 0x0, 0x0, 0x0, 0x0, 0x0, 0, 0x0, 0x0⟩,
  ⟨0x80084, 2, 0x10000, 1, 0x4, 0x2000A44, 0xF0F3FFF, 0x0, 0x0, 0x0, 0x0, 0x0, 0, 0x0, 0x0⟩,
  ⟨0x80088, 2, 0x10000, 1, 0x4, 0x3000A40, 0xF0F3FFF, 0x0, 0x0, 0x0, 0x0, 0x0, 0, 0x0, 0x0⟩,
  ⟨0x8008C, 2, 0x10000, 1, 0x4, 0x4010A40, 0xF0F3FFF, 0x0, 0x0, 0x0, 0x0, 0x0, 0, 0x0, 0x0⟩,
  ⟨0x80090, 2, 0x10000, 1, 0x4, 0x5010A40, 0xF0F3FFF, 0x0, 0x0, 0x0, 0x0, 0x0, 0, 0x0, 0x0⟩,
  ⟨0x80094, 2, 0x10000, 1, 0x4, 0x5030A40, 0xF0F3FFF, 0x0, 0x0, 0x0, 0x0, 0x0, 0, 0x0, 0x0⟩,
  ⟨0x80098, 2, 0x10000, 1, 0x4, 0x6000000, 0xF0F3FFF, 0x0, 0x0, 0x0, 0x0, 0x0, 0, 0x0, 0x0⟩,
  ⟨0x8009C, 2, 0x10000, 1, 0x4, 0x0, 0xF0F3FFF, 0x0, 0x0, 0x0, 0x0, 0x0, 0, 0x0, 0x0⟩,
  ⟨0x800C0, 2, 0x10000, 1, 0x4, 0x8, 0xF, 0x0, 0x0, 0x0, 0x0, 0x0, 0, 0x0, 0x0⟩,
  ⟨0x800C4, 2, 0x10000, 1, 0x4, 0x0, 0x0, 0x0, 0x0, 0x0, 0x0, 0x0, 0, 0x0, 0x0⟩,
  ⟨0x800C8, 2, 0x10000, 1, 0x4, 0x0, 0x0, 0x0, 0x0, 0x0, 0x0, 0x0, 0, 0x0, 0x0⟩,
  ⟨0x80100, 2, 0x10000, 16, 0x8, 0x0, 0x0, 0x0, 0x0, 0x0, 0x0, 0x0, 0, 0x0, 0x0⟩,
  ⟨0x80104, 2, 0x10000, 16, 0x8, 0x0, 0x0, 0x0, 0x0, 0x0, 0x0, 0x0, 0, 0x0, 0x0⟩,
  ⟨0x80200, 2, 0x10000, 6, 0x4, 0x0, 0x0, 0x0, 0x0, 0xFFFFFFFF, 0x0, 0x0, 0, 0x0, 0x0⟩,
  ⟨0x80400, 2, 0x10000, 39, 0x4, 0x0, 0x0, 0x0, 0x0, 0x0, 0x0, 0x0, 0, 0x0, 0x0⟩]

def regRowsMCA1 : List RegRow := [
  ⟨0x88000, 2, 0x10000, 1, 0x4, 0x0, 0x10005, 0x0, 0x0, 0x0, 0x0, 0x0, 0, 0x5, 0x0⟩,
  ⟨0x88004, 2, 0x10000, 1, 0x4, 0x0, 0x0, 0x3F, 0x0, 0x0, 0x0, 0x0, 0, 0x0, 0x0⟩,
  ⟨0x88008, 2, 0x10000, 1, 0x4, 0x0, 0x3F, 0x0, 0x0, 0x0, 0x0, 0x0, 0, 0x0, 0x0⟩,
  ⟨0x88010, 2, 0x10000, 1, 0x4, 0x0, 0xFFFFFFFF, 0x0, 0x0, 0x0, 0x0, 0x0, 0, 0x0, 0x0⟩,
  ⟨0x88014, 2, 0x10000, 1, 0x4, 0x0, 0xFFFFFFFF, 0x0, 0x0, 0x0, 0x0, 0x0, 0, 0x0, 0x0⟩,
  ⟨0x88018, 2, 0x10000, 1, 0x4, 0x0, 0x1F1F, 0x0, 0x0, 0x0, 0x0, 0x0, 0, 0x0, 0x0⟩,
  ⟨0x88020, 2, 0x10000, 1, 0x4, 0x0, 0xFFFFFFFF, 0x0, 0x0, 0x0, 0x0, 0x0, 0, 0x0, 0x0⟩,
  ⟨0x88024, 2, 0x10000, 1, 0x4, 0x0, 0xFFFFFFFF, 0x0, 0x0, 0x0, 0x0, 0x0, 0, 0x0, 0x0⟩,
  ⟨0x88028, 2, 0x10000, 1, 0x4, 0x0, 0xFFFFFFFF, 0x0, 0x0, 0x0, 0x0, 0x0, 0, 0x0, 0x0⟩,
  ⟨0x8802C, 2, 0x10000, 1, 0x4, 0x0, 0xFFFFFFFF, 0x0, 0x0, 0x0, 0x0, 0x0, 0, 0x0, 0x0⟩,
  ⟨0x88030, 2, 0x10000, 1, 0x4, 0x0, 0x0, 0x0, 0x0, 0x0, 0x0, 0x0, 0, 0x0, 0x0⟩,
  ⟨0x88034, 2, 0x10000, 1, 0x4, 0x0, 0x0, 0x0, 0x0, 0x0, 0x0, 0x0, 0, 0x0, 0x0⟩,
  ⟨0x88040, 2, 0x10000, 1, 0x4, 0x2, 0x3, 0x0, 0x0, 0x0, 0x0, 0x0, 0, 0x0, 0x0⟩,
  ⟨0x88050, 2, 0x10000, 1, 0x4, 0x0, 0xFFFFFFFF, 0x0, 0x0, 0x0, 0x0, 0x0, 0, 0x0, 0x0⟩,
  ⟨0x88054, 2, 0x10000, 1, 0x4, 0x0, 0xFFFF, 0x0, 0x0, 0x0, 0x0, 0x0, 0, 0x0, 0x0⟩,
  ⟨0x88058, 2, 0x10000, 1, 0x4, 0x0, 0x0, 0x0, 0x0, 0x0, 0x0, 0x0, 0, 0x0, 0x0⟩,
  ⟨0x88060, 2, 0x10000, 4, 0x4, 0x0, 0x0, 0x0, 0x0, 0xFFFFFFFF, 0x0, 0x0, 0, 0x0, 0x0⟩,
  ⟨0x8C000, 2, 0x10000, 1, 0x4, 0x0, 0xC000FFFF, 0x0, 0x0, 0x0, 0x0, 0x0, 0, 0x80000000, 0x0⟩,
  ⟨0x8C004, 2, 0x10000, 1, 0x4, 0x0, 0xFFFF, 0x0, 0x0, 0x0, 0x0, 0x0, 0, 0x0, 0x0⟩]

/-- The registers of the MCA block. -/
def regRowsMCA : List RegRow := regRowsMCA0 ++ regRowsMCA1

def regRowsGYL0 : List RegRow := [
  ⟨0xA0000, 1, 0x100000, 1, 0x4, 0x0, 0x1, 0x0, 0x0, 0x0, 0x0, 0x0, 0, 0x0, 0x0⟩,
  ⟨0xA0004, 1, 0x100000, 1, 0x4, 0x0, 0x0, 0xFFF3F3F, 0x0, 0x0, 0x0, 0x0, 0, 0x0, 0x0⟩,
  ⟨0xA0008, 1, 0x100000, 1, 0x4, 0x0, 0xFFF3F3F, 0x0, 0x0, 0x0, 0x0, 0x0, 0, 0x0, 0x0⟩,
  ⟨0xA000C, 1, 0x100000, 1, 0x4, 0x41400000, 0xFFFFFFFF, 0x0, 0x0, 0x0, 0x0, 0x0, 0, 0x0, 0x0⟩,
  ⟨0xA0010, 1, 0x100000, 1, 0x4, 0x0, 0x0, 0x0, 0x0, 0x0, 0x0, 0x0, 0, 0x0, 0x0⟩,
  ⟨0xA1000, 1, 0x100000, 5, 0x400, 0xFA20000, 0xFFFF0C03, 0x0, 0x0, 0x0, 0x0, 0x0, 0, 0x0, 0x1⟩,
  ⟨0xA2400, 1, 0x100000, 1, 0x400, 0xFA20000, 0xFFFF0F03, 0x0, 0x0, 0x0, 0x0, 0x0, 0, 0x0, 0x1⟩,
  ⟨0xA1004, 1, 0x100000, 6, 0x400, 0x0, 0x107FF, 0x0, 0x0, 0x0, 0x0, 0x0, 0, 0x0, 0x10000⟩,
  ⟨0xA1008, 1, 0x100000, 6, 0x400, 0x190, 0x7FF, 0x0, 0x0, 0x0, 0x0, 0x0, 0, 0x0, 0x0⟩,
  ⟨0xA100C, 1, 0x100000, 6, 0x400, 0x0, 0x1, 0x0, 0x0, 0x0, 0x0, 0x0, 0, 0x1, 0x0⟩,
  ⟨0xA1010, 1, 0x100000, 6, 0x400, 0x0, 0x0, 0x7000, 0x0, 0x0, 0x0, 0x0, 0, 0x0, 0x0⟩,
  ⟨0xA1014, 1, 0x100000, 6, 0x400, 0x0, 0x0, 0x0, 0x0, 0xFFFF, 0x0, 0x0, 0, 0x0, 0x0⟩,
  ⟨0xA1020, 6, 0x400, 8, 0x4, 0x0, 0x0, 0x0, 0x0, 0x0, 0x0, 0x0, 0, 0x0, 0x0⟩,
  ⟨0xA1040, 6, 0x400, 16, 0x4, 0x0, 0x0, 0x0, 0x0, 0x0, 0x0, 0x0, 0, 0x0, 0x0⟩,
  ⟨0xA1100, 6, 0x400, 64, 0x4, 0x0, 0xFFFFFFFF, 0x0, 0x0, 0x0, 0x0, 0x0, 0, 0x0, 0x0⟩,
  ⟨0xA1200, 6, 0x400, 64, 0x4, 0x0, 0xFFFFFFFF, 0x0, 0x0, 0x0, 0x0, 0x0, 0, 0x0, 0x0⟩,
  ⟨0xA3000, 1, 0x100000, 2, 0x100, 0x4280140C, 0xFFF0FF1F, 0x0, 0x0, 0x0, 0x0, 0x0, 0, 0x0, 0x0⟩,
  ⟨0xA3004, 1, 0x100000, 2, 0x100, 0x400, 0x7FF, 0x0, 0x0, 0x0, 0x0, 0x0, 0, 0x0, 0x0⟩,
  ⟨0xA3008, 1, 0x100000, 2, 0x100, 0x3DCCCCCD, 0xFFFFFFFF, 0x0, 0x0, 0x0, 0x0, 0x0, 0, 0x0, 0x0⟩,
  ⟨0xA300C, 1, 0x100000, 2, 0x100, 0x3DA3D70A, 0xFFFFFFFF, 0x0, 0x0, 0x0, 0x0, 0x0, 0, 0x0, 0x0⟩,
  ⟨0xA3010, 1, 0x100000, 2, 0x100, 0x0, 0xFFFFFFFF, 0x0, 0x0, 0x0, 0x0, 0x0, 0, 0x0, 0x0⟩,
  ⟨0xA3014, 1, 0x100000, 2, 0x100, 0x0, 0xFFFFFFFF, 0x0, 0x0, 0x0, 0x0, 0x0, 0, 0x0, 0x0⟩,
  ⟨0xA3018, 1, 0x100000, 2, 0x100, 0x0, 0x1, 0x0, 0x0, 0x0, 0x0, 0x0, 0, 0x1, 0x0⟩,
  ⟨0xA301C, 1, 0x100000, 2, 0x100, 0x3F000000, 0xFFFFFFFF, 0x0, 0x0, 0x0, 0x0, 0x0, 0, 0x0, 0x0⟩,
  ⟨0xA3020, 1, 0x100000, 2, 0x100, 0x42200000, 0xFFFFFFFF, 0x0, 0x0, 0x0, 0x0, 0x0, 0, 0x0, 0x0⟩,
  ⟨0xA3024, 1, 0x100000, 2, 0x100, 0x0, 0x0, 0x0, 0x0, 0x0, 0x0, 0x0, 0, 0x0, 0x0⟩,
  ⟨0xA3028, 1, 0x100000, 2, 0x100, 0x0, 0x0, 0x0, 0x0, 0x0, 0x0, 0x0, 0, 0x0, 0x0⟩,
  ⟨0xA302C, 1, 0x100000, 2, 0x100, 0x3, 0x0, 0x0, 0x0, 0x0, 0x0, 0x0, 0, 0x0, 0x0⟩,
  ⟨0xA3030, 1, 0x100000, 2, 0x100, 0x0, 0x7FF3FFF, 0x0, 0x0, 0x0, 0x0, 0x0, 0, 0x3800, 0x0⟩,
  ⟨0xA3034, 1, 0x100000, 2, 0x100, 0x1F40190, 0xFFFF0FFF, 0x0, 0x0, 0x0, 0x0, 0x0, 0, 0x0, 0x0⟩,
  ⟨0xA3038, 1, 0x100000, 2, 0x100, 0xC80000, 0xFFFFFFFF, 0x0, 0x0, 0x0, 0x0, 0x0, 0, 0x0, 0x0⟩]

def regRowsGYL1 : List RegRow := [
  ⟨0xA303C, 1, 0x100000, 2, 0x100, 0x0, 0x0, 0x0, 0x0, 0x0, 0x0, 0x0, 0, 0x0, 0x0⟩,
  ⟨0xA3040, 1, 0x100000, 2, 0x100, 0x0, 0x0, 0x0, 0x0, 0xFFFFFFFF, 0x0, 0x0, 0, 0x0, 0x0⟩,
  ⟨0xA8000, 1, 0x100000, 2048, 0x4, 0x7C000000, 0xFFFFFFFF, 0x0, 0x0, 0x0, 0x0, 0x0, 0, 0x0, 0x0⟩]

/-- The registers of the GYL block. -/
def regRowsGYL : List RegRow := regRowsGYL0 ++ regRowsGYL1

def regRowsSPN0 : List RegRow := [
  ⟨0xB0000, 1, 0x100000, 1, 0x4, 0x40, 0xC7, 0x0, 0x0, 0x0, 0x0, 0x0, 0, 0x0, 0x0⟩,
  ⟨0xB0004, 1, 0x100000, 1, 0x4, 0x0, 0x0, 0x7FFF, 0x0, 0x0, 0x0, 0x0, 0, 0x0, 0x0⟩,
  ⟨0xB0008, 1, 0x100000, 1, 0x4, 0x0, 0x7FFF, 0x0, 0x0, 0x0, 0x0, 0x0, 0, 0x0, 0x0⟩,
  ⟨0xB000C, 1, 0x100000, 1, 0x4, 0x0, 0x0, 0x0, 0x0, 0x0, 0x0, 0x0, 0, 0x0, 0x0⟩,
  ⟨0xB0020, 1, 0x100000, 1, 0x4, 0x280014, 0xFF007F, 0x0, 0x0, 0x0, 0x0, 0x0, 0, 0x0, 0x0⟩,
  ⟨0xB0024, 1, 0x100000, 1, 0x4, 0x18001800, 0x3FFFFF00, 0x0, 0x0, 0x0, 0x0, 0x0, 0, 0x0, 0x0⟩,
  ⟨0xB0028, 1, 0x100000, 1, 0x4, 0x3A800000, 0xFFFFFFFF, 0x0, 0x0, 0x0, 0x0, 0x0, 0, 0x0, 0x0⟩,
  ⟨0xB0060, 1, 0x100000, 1, 0x4, 0x0, 0x0, 0x0, 0x0, 0xFFFFFFFF, 0x0, 0x0, 0, 0x0, 0x0⟩,
  ⟨0xB0064, 1, 0x100000, 1, 0x4, 0x0, 0x0, 0x0, 0x0, 0xFFFFFFFF, 0x0, 0x0, 0, 0x0, 0x0⟩,
  ⟨0xB0030, 1, 0x100000, 1, 0x4, 0x3F800000, 0xFFFFFFFF, 0x0, 0x0, 0x0, 0x0, 0x0, 0, 0x0, 0x0⟩,
  ⟨0xB0034, 1, 0x100000, 1, 0x4, 0x3DCCCCCD, 0xFFFFFFFF, 0x0, 0x0, 0x0, 0x0, 0x0, 0, 0x0, 0x0⟩,
  ⟨0xB0038, 1, 0x100000, 1, 0x4, 0x40400000, 0xFFFFFFFF, 0x0, 0x0, 0x0, 0x0, 0x0, 0, 0x0, 0x0⟩,
  ⟨0xB0010, 1, 0x100000, 1, 0x4, 0x1C20, 0xFFFF, 0x0, 0x0, 0x0, 0x0, 0x0, 0, 0x0, 0x0⟩,
  ⟨0xB0014, 1, 0x100000, 1, 0x4, 0x0, 0x0, 0x0, 0x0, 0x0, 0x0, 0x0, 0, 0x0, 0x0⟩,
  ⟨0xB0018, 1, 0x100000, 1, 0x4, 0x1004, 0xFF0F, 0x0, 0x0, 0x0, 0x0, 0x0, 0, 0x0, 0x0⟩,
  ⟨0xB0040, 1, 0x100000, 1, 0x4, 0x64081496, 0xFFFFFFFF, 0x0, 0x0, 0x0, 0x0, 0x0, 0, 0x0, 0x0⟩,
  ⟨0xB0044, 1, 0x100000, 1, 0x4, 0x40200000, 0xFFFFFFFF, 0x0, 0x0, 0x0, 0x0, 0x0, 0, 0x0, 0x0⟩,
  ⟨0xB0054, 1, 0x100000, 1, 0x4, 0x0, 0x0, 0x0, 0x0, 0x0, 0x0, 0x0, 0, 0x0, 0x0⟩,
  ⟨0xB0058, 1, 0x100000, 1, 0x4, 0x0, 0x0, 0x0, 0x0, 0x0, 0x0, 0x0, 0, 0x0, 0x0⟩,
  ⟨0xB0048, 1, 0x100000, 1, 0x4, 0x2AF81469, 0xFFFFFFFF, 0x0, 0x0, 0x0, 0x0, 0x0, 0, 0x0, 0x0⟩,
  ⟨0xB004C, 1, 0x100000, 1, 0x4, 0x40000000, 0xFFFFFFFF, 0x0, 0x0, 0x0, 0x0, 0x0, 0, 0x0, 0x0⟩,
  ⟨0xB0050, 1, 0x100000, 1, 0x4, 0x3D4CCCCD, 0xFFFFFFFF, 0x0, 0x0, 0x0, 0x0, 0x0, 0, 0x0, 0x0⟩]

/-- The registers of the SPN block. -/
def regRowsSPN : List RegRow := regRowsSPN0

def regRowsOBJ0 : List RegRow := [
  ⟨0xF0000, 1, 0x100000, 1, 0x4, 0x0, 0xFFFFFFFF, 0x0, 0x0, 0x0, 0x0, 0x0, 0, 0x0, 0x0⟩,
  ⟨0xF0004, 1, 0x100000, 1, 0x4, 0x0, 0xFFFFFFFF, 0x0, 0x0, 0x0, 0x0, 0x0, 0, 0x0, 0x0⟩,
  ⟨0xF0008, 1, 0x100000, 1, 0x4, 0x0, 0x0, 0x3F, 0x0, 0x0, 0x0, 0x0, 0, 0x0, 0x0⟩,
  ⟨0xF000C, 1, 0x100000, 1, 0x4, 0x0, 0x3F, 0x0, 0x0, 0x0, 0x0, 0x0, 0, 0x0, 0x0⟩,
  ⟨0xF1000, 1, 0x100000, 8, 0x20, 0x0, 0xFFFFFFFF, 0x0, 0x0, 0x0, 0x0, 0x0, 0, 0x0, 0x0⟩,
  ⟨0xF1004, 1, 0x100000, 8, 0x20, 0x0, 0xFFFFFFFF, 0x0, 0x0, 0x0, 0x0, 0x0, 0, 0x0, 0x0⟩,
  ⟨0xF1008, 1, 0x100000, 8, 0x20, 0x0, 0xFFFFFFFF, 0x0, 0x0, 0x0, 0x0, 0x0, 0, 0x0, 0x0⟩,
  ⟨0xF100C, 1, 0x100000, 8, 0x20, 0x0, 0xFFFFFFFF, 0x0, 0x0, 0x0, 0x0, 0x0, 0, 0x0, 0x0⟩,
  ⟨0xF1010, 1, 0x100000, 8, 0x20, 0x0, 0x1, 0x0, 0x0, 0x0, 0x0, 0x0, 0, 0x1, 0x0⟩,
  ⟨0xF1014, 1, 0x100000, 8, 0x20, 0x0, 0x0, 0x0, 0x0, 0x0, 0x0, 0x0, 0, 0x0, 0x0⟩]

/-- The registers of the OBJ block. -/
def regRowsOBJ : List RegRow := regRowsOBJ0

def regRowsNVQ0 : List RegRow := [
  ⟨0x30000, 1, 0x100000, 1, 0x4, 0x0, 0x7, 0x0, 0x0, 0x0, 0x0, 0x0, 0, 0x0, 0x0⟩,
  ⟨0x30004, 1, 0x100000, 1, 0x4, 0x0, 0x0, 0x3F, 0x0, 0x0, 0x0, 0x0, 0, 0x0, 0x0⟩,
  ⟨0x30008, 1, 0x100000, 1, 0x4, 0x0, 0x3F, 0x0, 0x0, 0x0, 0x0, 0x0, 0, 0x0, 0x0⟩,
  ⟨0x3000C, 1, 0x100000, 1, 0x4, 0x60101, 0x3F3F3F, 0x0, 0x0, 0x0, 0x0, 0x0, 0, 0x0, 0x0⟩,
  ⟨0x30010, 1, 0x100000, 1, 0x4, 0x0, 0xFFFFFFFF, 0x0, 0x0, 0x0, 0x0, 0x0, 0, 0x0, 0x0⟩,
  ⟨0x30014, 1, 0x100000, 1, 0x4, 0x0, 0xFFFFFFFF, 0x0, 0x0, 0x0, 0x0, 0x0, 0, 0x0, 0x0⟩,
  ⟨0x30018, 1, 0x100000, 1, 0x4, 0x0, 0xFFFFFFFF, 0x0, 0x0, 0x0, 0x0, 0x0, 0, 0x0, 0x0⟩,
  ⟨0x3001C, 1, 0x100000, 1, 0x4, 0x0, 0xFFFFFFFF, 0x0, 0x0, 0x0, 0x0, 0x0, 0, 0x0, 0x0⟩,
  ⟨0x30020, 1, 0x100000, 1, 0x4, 0x0, 0xFFFFFFFF, 0x0, 0x0, 0x0, 0x0, 0x0, 0, 0x0, 0x0⟩,
  ⟨0x30024, 1, 0x100000, 1, 0x4, 0x0, 0xFFFFFFFF, 0x0, 0x0, 0x0, 0x0, 0x0, 0, 0x0, 0x0⟩,
  ⟨0x30028, 1, 0x100000, 1, 0x4, 0x0, 0xFFFFFFFF, 0x0, 0x0, 0x0, 0x0, 0x0, 0, 0x0, 0x0⟩,
  ⟨0x3002C, 1, 0x100000, 1, 0x4, 0x0, 0xFFFFFFFF, 0x0, 0x0, 0x0, 0x0, 0x0, 0, 0x0, 0x0⟩,
  ⟨0x30030, 1, 0x100000, 1, 0x4, 0x0, 0xFFFFFFFF, 0x0, 0x0, 0x0, 0x0, 0x0, 0, 0x0, 0x0⟩,
  ⟨0x30034, 1, 0x100000, 1, 0x4, 0x0, 0xFFFFFFFF, 0x0, 0x0, 0x0, 0x0, 0x0, 0, 0x0, 0x0⟩,
  ⟨0x30040, 1, 0x100000, 1, 0x4, 0xC0C0010, 0x1F1F001F, 0x0, 0x0, 0x0, 0x0, 0x0, 0, 0x0, 0x0⟩,
  ⟨0x30044, 1, 0x100000, 1, 0x4, 0x0, 0xFFFFF, 0x0, 0x0, 0x0, 0x0, 0x0, 0, 0x0, 0x0⟩,
  ⟨0x30048, 1, 0x100000, 1, 0x4, 0x0, 0x0, 0x0, 0x0, 0x0, 0x0, 0x0, 0, 0x0, 0x0⟩,
  ⟨0x3004C, 1, 0x100000, 1, 0x4, 0x0, 0x0, 0x0, 0x0, 0x0, 0x0, 0x0, 0, 0x0, 0x0⟩,
  ⟨0x30050, 1, 0x100000, 1, 0x4, 0x0, 0xFFFFF, 0x0, 0x0, 0x0, 0x0, 0x0, 0, 0x0, 0x0⟩,
  ⟨0x30054, 1, 0x100000, 1, 0x4, 0x0, 0x0, 0x0, 0x0, 0x0, 0x0, 0x0, 0, 0x0, 0x0⟩,
  ⟨0x30058, 1, 0x100000, 1, 0x4, 0x0, 0x0, 0x0, 0x0, 0x0, 0x0, 0x0, 0, 0x0, 0x0⟩,
  ⟨0x30060, 1, 0x100000, 3, 0x4, 0x0, 0x0, 0x0, 0x0, 0xFFFFFFFF, 0x0, 0x0, 0, 0x0, 0x0⟩,
  ⟨0x34000, 192, 0x10, 4, 0x4, 0x0, 0x0, 0x0, 0x0, 0x0, 0x0, 0x0, 0, 0x0, 0x0⟩]

/-- The registers of the NVQ block. -/
def regRowsNVQ : List RegRow := regRowsNVQ0

def regRowsNVI0 : List RegRow := [
  ⟨0x121000, 1, 0x100000, 1, 0x4, 0x0, 0x7, 0x0, 0x0, 0x0, 0x0, 0x0, 0, 0x7, 0x0⟩,
  ⟨0x121004, 1, 0x100000, 1, 0x4, 0x0, 0x0, 0x7F, 0x0, 0x0, 0x0, 0x0, 0, 0x0, 0x0⟩,
  ⟨0x121008, 1, 0x100000, 1, 0x4, 0x0, 0x7F, 0x0, 0x0, 0x0, 0x0, 0x0, 0, 0x0, 0x0⟩,
  ⟨0x12100C, 1, 0x100000, 1, 0x4, 0x0, 0x1FFFFFF, 0x0, 0x0, 0x0, 0x0, 0x0, 0, 0x0, 0x0⟩,
  ⟨0x121010, 1, 0x100000, 1, 0x4, 0x0, 0x0, 0x0, 0x0, 0x0, 0x0, 0x0, 0, 0x0, 0x0⟩,
  ⟨0x122000, 1, 0x100000, 192, 0x4, 0x0, 0xFFFFFFFF, 0x0, 0x0, 0x0, 0x0, 0x0, 0, 0x0, 0x0⟩,
  ⟨0x121014, 1, 0x100000, 1, 0x4, 0x0, 0xFFFFFFFF, 0x0, 0x0, 0x0, 0x0, 0x0, 0, 0x0, 0x0⟩,
  ⟨0x121018, 1, 0x100000, 1, 0x4, 0x0, 0xFFFFFFFF, 0x0, 0x0, 0x0, 0x0, 0x0, 0, 0x0, 0x0⟩,
  ⟨0x12101C, 1, 0x100000, 1, 0x4, 0x0, 0x1FFF, 0x0, 0x0, 0x0, 0x0, 0x0, 0, 0x0, 0x0⟩,
  ⟨0x121020, 1, 0x100000, 2, 0x4, 0x0, 0xFFFFFFFF, 0x0, 0x0, 0x0, 0x0, 0x0, 0, 0x0, 0x0⟩,
  ⟨0x121028, 1, 0x100000, 1, 0x4, 0x0, 0x0, 0x0, 0x0, 0x0, 0x0, 0x0, 0, 0x0, 0x0⟩,
  ⟨0x123000, 1, 0x100000, 1, 0x4, 0x0, 0xFFFF, 0x0, 0x0, 0x0, 0x0, 0x0, 0, 0x0, 0x0⟩,
  ⟨0x123004, 1, 0x100000, 1, 0x4, 0x0, 0xFFFF, 0x0, 0x0, 0x0, 0x0, 0x0, 0, 0x0, 0x0⟩,
  ⟨0x123008, 1, 0x100000, 1, 0x4, 0x0, 0x0, 0x0, 0x0, 0x0, 0x0, 0x0, 0, 0x0, 0x0⟩,
  ⟨0x12300C, 1, 0x100000, 1, 0x4, 0x0, 0x0, 0xFFFFFFFF, 0x0, 0x0, 0x0, 0x0, 0, 0x0, 0x0⟩,
  ⟨0x123010, 1, 0x100000, 1, 0x4, 0x0, 0xFFFFFFFF, 0x0, 0x0, 0x0, 0x0, 0x0, 0, 0x0, 0x0⟩]

/-- The registers of the NVI block. -/
def regRowsNVI : List RegRow := regRowsNVI0

def regRowsHIF0 : List RegRow := [
  ⟨0x20000, 1, 0x100000, 1, 0x4, 0x70, 0x73, 0x0, 0x0, 0x0, 0x0, 0x0, 0, 0x0, 0x3⟩,
  ⟨0x20004, 1, 0x100000, 1, 0x4, 0x0, 0x0, 0xFFFFFF, 0x0, 0x0, 0x0, 0x0, 0, 0x0, 0x0⟩,
  ⟨0x20008, 1, 0x100000, 1, 0x4, 0x0, 0xFFFFFF, 0x0, 0x0, 0x0, 0x0, 0x0, 0, 0x0, 0x0⟩,
  ⟨0x20010, 1, 0x100000, 1, 0x4, 0xA581CF7, 0xFFFFFFFF, 0x0, 0x0, 0x0, 0x0, 0xFFFFFFFF, 0, 0x0, 0x0⟩,
  ⟨0x20014, 1, 0x100000, 1, 0x4, 0x3E8, 0xFFFF, 0x0, 0x0, 0x0, 0x0, 0x0, 0, 0x0, 0x0⟩,
  ⟨0x20100, 1, 0x100000, 2, 0x40, 0x0, 0x0, 0x0, 0x0, 0x0, 0x0, 0x0, 0, 0x0, 0x0⟩,
  ⟨0x20104, 1, 0x100000, 2, 0x40, 0x0, 0xFFFFFFFF, 0x0, 0x0, 0x0, 0x0, 0x0, 0, 0x0, 0x0⟩,
  ⟨0x20108, 1, 0x100000, 2, 0x40, 0x0, 0xFFFFFFFF, 0x0, 0x0, 0x0, 0x0, 0x0, 0, 0x0, 0x0⟩,
  ⟨0x2010C, 1, 0x100000, 2, 0x40, 0x0, 0x3FFF, 0x0, 0x0, 0x0, 0x0, 0x0, 0, 0x0, 0x0⟩,
  ⟨0x20110, 1, 0x100000, 2, 0x40, 0x0, 0x1, 0x0, 0x0, 0x0, 0x0, 0x0, 0, 0x1, 0x0⟩,
  ⟨0x20114, 1, 0x100000, 2, 0x40, 0x40, 0x0, 0x0, 0x0, 0x0, 0x0, 0x0, 0, 0x0, 0x0⟩,
  ⟨0x20118, 1, 0x100000, 2, 0x40, 0x0, 0xFFFFFFFF, 0x0, 0x0, 0x0, 0x0, 0x0, 0, 0x0, 0x0⟩,
  ⟨0x2011C, 1, 0x100000, 2, 0x40, 0x0, 0x0, 0x0, 0x0, 0xFFFFFFFF, 0x0, 0x0, 0, 0x0, 0x0⟩,
  ⟨0x20120, 1, 0x100000, 2, 0x40, 0x0, 0x0, 0x0, 0x0, 0xFFFFFFFF, 0x0, 0x0, 0, 0x0, 0x0⟩,
  ⟨0x20124, 1, 0x100000, 2, 0x40, 0x0, 0x0, 0x0, 0x0, 0x0, 0x0, 0x0, 0, 0x0, 0x0⟩]

/-- The registers of the HIF block. -/
def regRowsHIF : List RegRow := regRowsHIF0

def regRowsCSC0 : List RegRow := [
  ⟨0x40000, 1, 0x100000, 1, 0x4, 0x8, 0x1F, 0x0, 0x0, 0x0, 0x0, 0x18, 0, 0x0, 0x0⟩,
  ⟨0x40004, 1, 0x100000, 1, 0x4, 0x0, 0x0, 0x3FF, 0x0, 0x0, 0x0, 0x0, 0, 0x0, 0x0⟩,
  ⟨0x40008, 1, 0x100000, 1, 0x4, 0x0, 0x3FF, 0x0, 0x0, 0x0, 0x0, 0x0, 0, 0x0, 0x0⟩,
  ⟨0x4000C, 1, 0x100000, 1, 0x4, 0x11, 0xF, 0x0, 0x0, 0x0, 0x0, 0x0, 0, 0x0, 0x0⟩,
  ⟨0x40010, 1, 0x100000, 1, 0x4, 0x0, 0xF, 0x0, 0x0, 0x0, 0x0, 0x0, 0, 0xF, 0x0⟩,
  ⟨0x40014, 1, 0x100000, 1, 0x4, 0x0, 0x0, 0x0, 0x0, 0x0, 0x0, 0x0, 0, 0x0, 0x0⟩,
  ⟨0x40018, 1, 0x100000, 1, 0x4, 0xA0000C8, 0xFF01FFFF, 0x0, 0x0, 0x0, 0x0, 0x0, 0, 0x0, 0x0⟩,
  ⟨0x4001C, 1, 0x100000, 1, 0x4, 0x103E800A, 0xFFFFFFFF, 0x0, 0x0, 0x0, 0x0, 0x0, 0, 0x0, 0x0⟩,
  ⟨0x40020, 1, 0x100000, 1, 0x4, 0x0, 0x1F, 0x0, 0x0, 0x0, 0x0, 0x0, 0, 0x0, 0x0⟩,
  ⟨0x40024, 1, 0x100000, 1, 0x4, 0x0, 0x0, 0xFFFFFFFF, 0x0, 0x0, 0x0, 0x0, 0, 0x0, 0x0⟩,
  ⟨0x40028, 1, 0x100000, 1, 0x4, 0x20, 0x3F, 0x0, 0x0, 0x0, 0x0, 0x0, 0, 0x0, 0x0⟩,
  ⟨0x40030, 1, 0x100000, 1, 0x4, 0x0, 0x0, 0x0, 0x0, 0x0, 0x0, 0x0, 0, 0x0, 0x0⟩,
  ⟨0x40034, 1, 0x100000, 1, 0x4, 0x0, 0x0, 0x0, 0x0, 0x0, 0x0, 0x0, 0, 0x0, 0x0⟩,
  ⟨0x40100, 1, 0x100000, 2, 0x40, 0x0, 0x0, 0x0, 0x0, 0x0, 0x0, 0x0, 0, 0x0, 0x0⟩,
  ⟨0x40104, 1, 0x100000, 2, 0x40, 0x0, 0x0, 0x0, 0x0, 0x0, 0x0, 0x0, 0, 0x0, 0x0⟩,
  ⟨0x40108, 1, 0x100000, 2, 0x40, 0x0, 0x0, 0x0, 0x0, 0x0, 0x0, 0x0, 0, 0x0, 0x0⟩,
  ⟨0x4010C, 1, 0x100000, 2, 0x40, 0x0, 0x0, 0x0, 0x0, 0x0, 0x0, 0x0, 0, 0x0, 0x0⟩,
  ⟨0x40110, 2, 0x40, 6, 0x4, 0x0, 0x0, 0x0, 0x0, 0xFFFFFFFF, 0x0, 0x0, 0, 0x0, 0x0⟩,
  ⟨0x40200, 1, 0x100000, 4, 0x8, 0x0, 0xFFFFFFFF, 0x0, 0x0, 0x0, 0x0, 0xFFFFFFFF, 1, 0x0, 0x0⟩,
  ⟨0x40204, 1, 0x100000, 4, 0x8, 0x0, 0xFFFFFFFF, 0x0, 0x0, 0x0, 0x0, 0xFFFFFFFF, 1, 0x0, 0x0⟩,
  ⟨0x40240, 1, 0x100000, 4, 0x4, 0x0, 0x100, 0x0, 0x0, 0x0, 0x100, 0x0, 0, 0x0, 0x0⟩,
  ⟨0x40300, 1, 0x100000, 4, 0x10, 0x0, 0xFFFFFFFF, 0x0, 0x0, 0x0, 0x0, 0xFFFFFFFF, 2, 0x0, 0x0⟩,
  ⟨0x40304, 1, 0x100000, 4, 0x10, 0x0, 0xFFFFFFFF, 0x0, 0x0, 0x0, 0x0, 0xFFFFFFFF, 2, 0x0, 0x0⟩,
  ⟨0x40308, 1, 0x100000, 4, 0x10, 0x0, 0xFF3FFFFF, 0x0, 0x0, 0x0, 0x0, 0xFF3FFFFF, 2, 0x0, 0x0⟩,
  ⟨0x40340, 1, 0x100000, 1, 0x4, 0x0, 0x3, 0x0, 0x0, 0x0, 0x0, 0x3, 2, 0x0, 0x0⟩,
  ⟨0x44000, 192, 0x20, 4, 0x4, 0x0, 0xFFFFFFFF, 0x0, 0x0, 0x0, 0x0, 0x0, 0, 0x0, 0x0⟩,
  ⟨0x44010, 1, 0x100000, 192, 0x20, 0x0, 0x13, 0x0, 0x0, 0x0, 0x0, 0x0, 0, 0x0, 0x0⟩,
  ⟨0x40060, 1, 0x100000, 1, 0x4, 0x0, 0xFFFFFFFF, 0x0, 0x0, 0x0, 0x0, 0x0, 0, 0x0, 0x0⟩,
  ⟨0x40064, 1, 0x100000, 1, 0x4, 0x0, 0xFFFFFFFF, 0x0, 0x0, 0x0, 0x0, 0x0, 0, 0x0, 0x0⟩,
  ⟨0x40068, 1, 0x100000, 1, 0x4, 0x0, 0x1FF, 0x0, 0x0, 0x0, 0x0, 0x0, 0, 0x0, 0x0⟩]

def regRowsCSC1 : List RegRow := [
  ⟨0x4006C, 1, 0x100000, 1, 0x4, 0x0, 0x0, 0x0, 0x0, 0xFFFFFFFF, 0x0, 0x0, 0, 0x0, 0x0⟩]

/-- The registers of the CSC block. -/
def regRowsCSC : List RegRow := regRowsCSC0 ++ regRowsCSC1

def regRowsMEM0 : List RegRow := [
  ⟨0x50000, 1, 0x100000, 1, 0x4, 0xE0, 0xE3, 0x0, 0x0, 0x0, 0x0, 0x0, 0, 0x1, 0x0⟩,
  ⟨0x50004, 1, 0x100000, 1, 0x4, 0x0, 0x0, 0x7F, 0x0, 0x0, 0x0, 0x0, 0, 0x0, 0x0⟩,
  ⟨0x50008, 1, 0x100000, 1, 0x4, 0x0, 0x7F, 0x0, 0x0, 0x0, 0x0, 0x0, 0, 0x0, 0x0⟩,
  ⟨0x5000C, 1, 0x100000, 1, 0x4, 0x0, 0x0, 0x0, 0x0, 0x0, 0x0, 0x0, 0, 0x0, 0x0⟩,
  ⟨0x50010, 1, 0x100000, 1, 0x4, 0x0, 0x0, 0x0, 0x0, 0x0, 0x0, 0x0, 0, 0x0, 0x0⟩,
  ⟨0x50020, 1, 0x100000, 1, 0x4, 0x0, 0x7F, 0x0, 0x0, 0x0, 0x0, 0x0, 0, 0x0, 0x0⟩,
  ⟨0x50024, 1, 0x100000, 1, 0x4, 0x0, 0x0, 0x0, 0x0, 0xFFFFFFFF, 0x0, 0x0, 0, 0x0, 0x0⟩,
  ⟨0x50100, 1, 0x100000, 16, 0x10, 0x0, 0x0, 0x0, 0x0, 0x0, 0x0, 0x0, 0, 0x0, 0x0⟩,
  ⟨0x50104, 1, 0x100000, 16, 0x10, 0x0, 0x0, 0x0, 0x0, 0x0, 0x0, 0x0, 0, 0x0, 0x0⟩,
  ⟨0x50108, 1, 0x100000, 16, 0x10, 0x0, 0x0, 0x80000000, 0x0, 0x0, 0x0, 0x0, 0, 0x0, 0x0⟩,
  ⟨0x5010C, 1, 0x100000, 16, 0x10, 0x0, 0x0, 0x0, 0x0, 0x0, 0x0, 0x0, 0, 0x0, 0x0⟩,
  ⟨0x50040, 1, 0x100000, 1, 0x4, 0x8001, 0xFF01, 0x0, 0x0, 0x0, 0x0, 0x0, 0, 0x0, 0x0⟩,
  ⟨0x50044, 1, 0x100000, 1, 0x4, 0x0, 0x0, 0x0, 0x0, 0x0, 0x0, 0x0, 0, 0x0, 0x0⟩,
  ⟨0x50048, 1, 0x100000, 1, 0x4, 0x0, 0x0, 0x0, 0x0, 0x0, 0x0, 0x0, 0, 0x0, 0x0⟩,
  ⟨0x5004C, 1, 0x100000, 1, 0x4, 0x0, 0x0, 0x0, 0x0, 0x0, 0x0, 0x0, 0, 0x0, 0x0⟩]

/-- The registers of the MEM block. -/
def regRowsMEM : List RegRow := regRowsMEM0

def regRowsCCH0 : List RegRow := [
  ⟨0x60000, 1, 0x100000, 1, 0x4, 0x0, 0xFE, 0x0, 0x0, 0x0, 0x0, 0x0, 0, 0x0, 0x0⟩,
  ⟨0x60004, 1, 0x100000, 1, 0x4, 0x0, 0x0, 0x7, 0x0, 0x0, 0x0, 0x0, 0, 0x0, 0x0⟩,
  ⟨0x60008, 1, 0x100000, 1, 0x4, 0x0, 0x7, 0x0, 0x0, 0x0, 0x0, 0x0, 0, 0x0, 0x0⟩,
  ⟨0x60010, 1, 0x100000, 4, 0x4, 0x0, 0x0, 0x0, 0x0, 0xFFFFFFFF, 0x0, 0x0, 0, 0x0, 0x0⟩]

/-- The registers of the CCH block. -/
def regRowsCCH : List RegRow := regRowsCCH0

def regRowsDMA0 : List RegRow := [
  ⟨0x70000, 1, 0x100000, 1, 0x4, 0x0, 0x0, 0xFFFFFFFF, 0x0, 0x0, 0x0, 0x0, 0, 0x0, 0x0⟩,
  ⟨0x70004, 1, 0x100000, 1, 0x4, 0x0, 0xFFFFFFFF, 0x0, 0x0, 0x0, 0x0, 0x0, 0, 0x0, 0x0⟩,
  ⟨0x70008, 1, 0x100000, 1, 0x4, 0x0, 0x0, 0xFFFFFFFF, 0x0, 0x0, 0x0, 0x0, 0, 0x0, 0x0⟩,
  ⟨0x7000C, 1, 0x100000, 1, 0x4, 0x0, 0xFFFFFFFF, 0x0, 0x0, 0x0, 0x0, 0x0, 0, 0x0, 0x0⟩,
  ⟨0x71000, 1, 0x100000, 32, 0x40, 0x0, 0x104, 0x0, 0x0, 0x0, 0x0, 0x0, 0, 0x4, 0x0⟩,
  ⟨0x71004, 1, 0x100000, 32, 0x40, 0x0, 0xFFFFFFFF, 0x0, 0x0, 0x0, 0x0, 0x0, 0, 0x0, 0x0⟩,
  ⟨0x71008, 1, 0x100000, 32, 0x40, 0x0, 0xFFFFFFFF, 0x0, 0x0, 0x0, 0x0, 0x0, 0, 0x0, 0x0⟩,
  ⟨0x7100C, 1, 0x100000, 32, 0x40, 0x0, 0x0, 0x0, 0x0, 0x0, 0x0, 0x0, 0, 0x0, 0x0⟩,
  ⟨0x71010, 1, 0x100000, 32, 0x40, 0x0, 0x0, 0x0, 0x0, 0x0, 0x0, 0x0, 0, 0x0, 0x0⟩,
  ⟨0x71014, 1, 0x100000, 32, 0x40, 0x0, 0x0, 0x0, 0x0, 0x0, 0x0, 0x0, 0, 0x0, 0x0⟩,
  ⟨0x71018, 1, 0x100000, 32, 0x40, 0x0, 0x0, 0x0, 0x0, 0x0, 0x0, 0x0, 0, 0x0, 0x0⟩,
  ⟨0x7101C, 1, 0x100000, 32, 0x40, 0x0, 0xFFFFFFFF, 0x0, 0x0, 0x0, 0x0, 0x0, 0, 0x0, 0x0⟩,
  ⟨0x71020, 1, 0x100000, 32, 0x40, 0x0, 0x0, 0x0, 0x0, 0xFFFFFFFF, 0x0, 0x0, 0, 0x0, 0x0⟩]

/-- The registers of the DMA block. -/
def regRowsDMA : List RegRow := regRowsDMA0

def regRowsEMB0 : List RegRow := [
  ⟨0x10004, 1, 0x100000, 1, 0x4, 0x0, 0x0, 0x1F, 0x0, 0x0, 0x0, 0x0, 0, 0x0, 0x0⟩,
  ⟨0x10008, 1, 0x100000, 1, 0x4, 0x0, 0x1F, 0x0, 0x0, 0x0, 0x0, 0x0, 0, 0x0, 0x0⟩,
  ⟨0x1000C, 1, 0x100000, 1, 0x4, 0x1F, 0x7F, 0x0, 0x0, 0x0, 0x0, 0x0, 0, 0x0, 0x0⟩,
  ⟨0x10010, 1, 0x100000, 1, 0x4, 0x0, 0x0, 0x0, 0x0, 0x0, 0x0, 0x0, 0, 0x0, 0x0⟩,
  ⟨0x10020, 1, 0x100000, 1, 0x4, 0x0, 0xFFFFFFFF, 0x0, 0x0, 0x0, 0x0, 0x0, 0, 0x0, 0x0⟩,
  ⟨0x10024, 1, 0x100000, 1, 0x4, 0x0, 0xFFFFFFFF, 0x0, 0x0, 0x0, 0x0, 0x0, 0, 0x0, 0x0⟩,
  ⟨0x10028, 1, 0x100000, 1, 0x4, 0x0, 0xFFFFFFFF, 0x0, 0x0, 0x0, 0x0, 0x0, 0, 0x0, 0x0⟩,
  ⟨0x1002C, 1, 0x100000, 1, 0x4, 0x0, 0xFFFFFFFF, 0x0, 0x0, 0x0, 0x0, 0x0, 0, 0x0, 0x0⟩,
  ⟨0x10030, 1, 0x100000, 1, 0x4, 0x0, 0x0, 0x0, 0x0, 0x0, 0x0, 0x0, 0, 0x0, 0x0⟩,
  ⟨0x10040, 1, 0x100000, 1, 0x4, 0x40000000, 0x40000000, 0x0, 0x0, 0x0, 0x0, 0x0, 0, 0x0, 0x0⟩,
  ⟨0x10050, 1, 0x100000, 1, 0x4, 0x0, 0x0, 0x0, 0x0, 0x0, 0x0, 0x0, 0, 0x0, 0x0⟩]

/-- The registers of the EMB block. -/
def regRowsEMB : List RegRow := regRowsEMB0

def regRowsTHM0 : List RegRow := [
  ⟨0xC0004, 1, 0x100000, 1, 0x4, 0x0, 0x0, 0xFF, 0x0, 0x0, 0x0, 0x0, 0, 0x0, 0x0⟩,
  ⟨0xC0008, 1, 0x100000, 1, 0x4, 0x0, 0xFF, 0x0, 0x0, 0x0, 0x0, 0x0, 0, 0x0, 0x0⟩,
  ⟨0xC0040, 1, 0x100000, 1, 0x4, 0x3030300, 0x0, 0x0, 0x0, 0x0, 0x0, 0x0, 0, 0x0, 0x0⟩,
  ⟨0xC0050, 1, 0x100000, 1, 0x4, 0x0, 0xF, 0x0, 0x0, 0x0, 0x0, 0x0, 0, 0x0, 0x0⟩,
  ⟨0xC0060, 1, 0x100000, 1, 0x4, 0x8FCED8C8, 0xFFFFFFFF, 0x0, 0x0, 0x0, 0x0, 0x0, 0, 0x0, 0x0⟩,
  ⟨0xC0064, 1, 0x100000, 1, 0x4, 0xEA60, 0x0, 0x0, 0x0, 0x0, 0x0, 0x0, 0, 0x0, 0x0⟩,
  ⟨0xC0068, 1, 0x100000, 1, 0x4, 0x0, 0x0, 0x0, 0x0, 0x0, 0x0, 0x0, 0, 0x0, 0x0⟩,
  ⟨0xC0100, 1, 0x100000, 24, 0x4, 0x0, 0x0, 0x40000000, 0x0, 0x0, 0x0, 0x0, 0, 0x0, 0x0⟩,
  ⟨0xC0200, 1, 0x100000, 1, 0x4, 0x60000000, 0xE000FFFF, 0x0, 0x0, 0x0, 0x0, 0x0, 0, 0x0, 0x0⟩,
  ⟨0xC0204, 1, 0x100000, 1, 0x4, 0x60000000, 0xE000FFFF, 0x0, 0x0, 0x0, 0x0, 0x0, 0, 0x0, 0x0⟩,
  ⟨0xC0208, 1, 0x100000, 1, 0x4, 0x60000000, 0xE000FFFF, 0x0, 0x0, 0x0, 0x0, 0x0, 0, 0x0, 0x0⟩,
  ⟨0xC020C, 1, 0x100000, 1, 0x4, 0xA0000000, 0xE000FFFF, 0x0, 0x0, 0x0, 0x0, 0x0, 0, 0x0, 0x0⟩,
  ⟨0xC0210, 1, 0x100000, 1, 0x4, 0xA0000000, 0xE000FFFF, 0x0, 0x0, 0x0, 0x0, 0x0, 0, 0x0, 0x0⟩,
  ⟨0xC0214, 1, 0x100000, 1, 0x4, 0xA0000000, 0xE000FFFF, 0x0, 0x0, 0x0, 0x0, 0x0, 0, 0x0, 0x0⟩,
  ⟨0xC0218, 1, 0x100000, 1, 0x4, 0x60000000, 0xE000FFFF, 0x0, 0x0, 0x0, 0x0, 0x0, 0, 0x0, 0x0⟩,
  ⟨0xC021C, 1, 0x100000, 1, 0x4, 0x60000000, 0xE000FFFF, 0x0, 0x0, 0x0, 0x0, 0x0, 0, 0x0, 0x0⟩,
  ⟨0xC0220, 1, 0x100000, 1, 0x4, 0xA0000000, 0xE000FFFF, 0x0, 0x0, 0x0, 0x0, 0x0, 0, 0x0, 0x0⟩,
  ⟨0xC0224, 1, 0x100000, 1, 0x4, 0xA0000000, 0xE000FFFF, 0x0, 0x0, 0x0, 0x0, 0x0, 0, 0x0, 0x0⟩]

/-- The registers of the THM block. -/
def regRowsTHM : List RegRow := regRowsTHM0

def regRowsSEC0 : List RegRow := [
  ⟨0xE0000, 1, 0x100000, 1, 0x4, 0x0, 0x0, 0x0, 0x0, 0x0, 0x0, 0x0, 0, 0x0, 0x0⟩,
  ⟨0xE0004, 1, 0x100000, 1, 0x4, 0x0, 0x0, 0x1F, 0x0, 0x0, 0x0, 0x0, 0, 0x0, 0x0⟩,
  ⟨0xE0008, 1, 0x100000, 1, 0x4, 0x0, 0x1F, 0x0, 0x0, 0x0, 0x0, 0x0, 0, 0x0, 0x0⟩,
  ⟨0xE0010, 1, 0x100000, 1, 0x4, 0x0, 0xFFFFFFFF, 0x0, 0x0, 0x0, 0x0, 0x0, 0, 0x0, 0x0⟩,
  ⟨0xE0014, 1, 0x100000, 1, 0x4, 0x0, 0xFFFFFFFF, 0x0, 0x0, 0x0, 0x0, 0x0, 0, 0x0, 0x0⟩,
  ⟨0xE0018, 1, 0x100000, 1, 0x4, 0x0, 0x1FF, 0x0, 0x0, 0x0, 0x0, 0x0, 0, 0x100, 0x0⟩,
  ⟨0xE0020, 1, 0x100000, 1, 0x4, 0x0, 0x0, 0x0, 0xF, 0x0, 0x0, 0x0, 0, 0x0, 0x0⟩,
  ⟨0xE0040, 1, 0x100000, 8, 0x4, 0x0, 0x0, 0x0, 0x0, 0x0, 0x0, 0x0, 0, 0x0, 0x0⟩,
  ⟨0xE0060, 1, 0x100000, 1, 0x4, 0x0, 0x0, 0x0, 0x0, 0x0, 0x0, 0x0, 0, 0x0, 0x0⟩,
  ⟨0xE0070, 1, 0x100000, 1, 0x4, 0x0, 0x0, 0x0, 0x0, 0x0, 0x0, 0x0, 0, 0x0, 0x0⟩,
  ⟨0xE0074, 1, 0x100000, 1, 0x4, 0x0, 0x0, 0x0, 0x0, 0x0, 0x0, 0x0, 0, 0x0, 0x0⟩]

/-- The registers of the SEC block. -/
def regRowsSEC : List RegRow := regRowsSEC0

def regRowsPTL0 : List RegRow := [
  ⟨0x100000, 1, 0x100000, 1, 0x4, 0x600, 0xFF01, 0x0, 0x0, 0x0, 0x0, 0x0, 0, 0x0, 0x0⟩,
  ⟨0x100004, 1, 0x100000, 1, 0x4, 0x0, 0x0, 0x7, 0x0, 0x0, 0x0, 0x0, 0, 0x0, 0x0⟩,
  ⟨0x100008, 1, 0x100000, 1, 0x4, 0x0, 0x7, 0x0, 0x0, 0x0, 0x0, 0x0, 0, 0x0, 0x0⟩,
  ⟨0x10000C, 1, 0x100000, 1, 0x4, 0x3FF, 0x3FF, 0x0, 0x0, 0x0, 0x0, 0x0, 0, 0x0, 0x0⟩,
  ⟨0x100010, 1, 0x100000, 1, 0x4, 0x0, 0x0, 0x0, 0x0, 0x0, 0x0, 0x0, 0, 0x0, 0x0⟩,
  ⟨0x100100, 1, 0x100000, 10, 0x4, 0x0, 0x0, 0x80000000, 0x0, 0x0, 0x0, 0x0, 0, 0x0, 0x0⟩]

/-- The registers of the PTL block. -/
def regRowsPTL : List RegRow := regRowsPTL0

/-- The register rows of the block with index `b` (offset / 0x10000, R19); MCB (index 9) has the rows of MCA. -/
def regRowsOf : Nat → List RegRow
  | 0 => regRowsSYS
  | 1 => regRowsEMB
  | 2 => regRowsHIF
  | 3 => regRowsNVQ
  | 4 => regRowsCSC
  | 5 => regRowsMEM
  | 6 => regRowsCCH
  | 7 => regRowsDMA
  | 8 => regRowsMCA
  | 9 => regRowsMCA
  | 10 => regRowsGYL
  | 11 => regRowsSPN
  | 12 => regRowsTHM
  | 13 => regRowsEVT
  | 14 => regRowsSEC
  | 15 => regRowsOBJ
  | 16 => regRowsPTL
  | 17 => regRowsUCS
  | 18 => regRowsNVI
  | _ => []

/-- The row of the register at offset `o` of the register space, if one is assigned there (R4). -/
def regRow? (o : Nat) : Option RegRow := (regRowsOf (o / 0x10000)).find? fun r => r.hits o

/-- The value the register at offset `o` takes at reset (R7); unassigned offsets read 0 (R4). -/
def regResetVal (o : Nat) : W32 :=
  match regRow? o with
  | some r => BitVec.ofNat 32 r.rst
  | none => 0

end Sys2Proof
end

