-- ==== Sys2Proof/Machine/SMap.lean ====
section
/-! DEFINITION. Sparse tables: lists of (key, value) pairs with strictly rising keys. A table with a default holds no
entry equal to the default, so that equal contents are equal data. Every array of registers, threads, channels and bytes
of the model is one of these. -/

namespace Sys2Proof

/-- A sparse table. -/
abbrev SMap (α : Type) := List (Nat × α)

/-- The entry of key `k`; entries stand in rising order, so the search ends at the first greater key. -/
def smFind {α : Type} (m : SMap α) (k : Nat) : Option α :=
  match m with
  | [] => none
  | (j, v) :: t => if j = k then some v else if k < j then none else smFind t k

/-- The table with entry `k` set to `v`. -/
def smSet {α : Type} (m : SMap α) (k : Nat) (v : α) : SMap α :=
  match m with
  | [] => [(k, v)]
  | (j, w) :: t => if j = k then (k, v) :: t else if k < j then (k, v) :: (j, w) :: t else (j, w) :: smSet t k v

/-- The entries of a table from the first key above `k` on. -/
def smAbove {α : Type} (m : SMap α) (k : Nat) : SMap α :=
  match m with
  | [] => []
  | (j, v) :: t => if j ≤ k then smAbove t k else (j, v) :: t

/-- The table without entry `k`. -/
def smDel {α : Type} (m : SMap α) (k : Nat) : SMap α :=
  match m with
  | [] => []
  | (j, w) :: t => if j = k then smAbove t k else if k < j then (j, w) :: t else (j, w) :: smDel t k

/-- The value of key `k` in a table whose unlisted keys hold `d`. -/
def smGet {α : Type} (d : Nat → α) (m : SMap α) (k : Nat) : α := (smFind m k).getD (d k)

/-- Stores `v` under key `k`; storing the default removes the entry. -/
def smPut {α : Type} [DecidableEq α] (d : Nat → α) (m : SMap α) (k : Nat) (v : α) : SMap α :=
  if v = d k then smDel m k else smSet m k v

/-- The keys of a table stand in strictly rising order, all above or at `lo`. -/
def smRisingFrom {α : Type} (lo : Nat) (m : SMap α) : Bool :=
  match m with
  | [] => true
  | (j, _) :: t => decide (lo ≤ j) && smRisingFrom (j + 1) t

/-- The canonical form without a default: strictly rising keys. -/
def smRising {α : Type} (m : SMap α) : Bool := smRisingFrom 0 m

/-- The canonical form with a default: strictly rising keys, and no entry equal to the default. -/
def smWf {α : Type} [DecidableEq α] (d : Nat → α) (m : SMap α) : Bool :=
  smRising m && m.all (fun e => decide (e.2 ≠ d e.1))

end Sys2Proof
end

