-- ==== Sys2Proof/Machine/State.lean ====
section
/-! DEFINITION. The state of the part: every register, table, queue and mode the spec gives it, as plain data. Arrays are
sparse tables (SMap) whose unlisted entries hold the reset value. -/

namespace Sys2Proof.Machine

/-- Why a step stops. -/
inductive Fault where
  /-- A command's operand lists have a length that the thing they stand for cannot have; raised by a meaning whose operand
  is not well-formed (Instr.wf). Safe: the machine stops where the part has no such event. -/
  | illFormed (what : String)
  deriving DecidableEq, Repr

/-- Why a step gives no meaning to a command. -/
inductive Refusal where
  /-- The command has no meaning yet. Raised by Dispatch only. Safe. -/
  | notModelled (mnemonic : String)
  deriving DecidableEq, Repr

/-- A message of two 64-bit words and its sender (R56, R58). -/
structure Msg where
  w0 : W64
  w1 : W64
  src : Nat
  deriving DecidableEq, Repr

/-- A work message or block event that waits for room in a camp queue (R60, R62). `mask` names the camps; `block` is the
sending block; `rot` says whether the rotation of R62 applies. -/
structure HeldMsg where
  mask : Nat
  block : Nat
  msg : Msg
  deriving DecidableEq, Repr

/-- The micro-state of a customer instruction that runs (R78, R79). -/
structure Micro where
  upc : Nat
  /-- mt0 to mt3. -/
  mt : SMap W64
  mdr : W64
  mdw : W64
  z : Bool
  n : Bool
  c : Bool
  cnt : Nat
  stack : List Nat
  unit : W64
  /-- The cycles after dispatch at which the unit's result and the data of the last load are ready (R85, R86). -/
  unitAt : Nat
  mdrAt : Nat
  /-- A load from a cascade window under way: its request's tag, the access width in bytes and whether it sign-extends. -/
  load : Option (Nat × Nat × Bool)
  /-- Held writes of general and predicate registers, and held stores (address, width, value), in order. -/
  gw : List (Nat × W64)
  pw : List (Nat × Bool)
  st : List (W64 × Nat × W64)
  /-- Engine cycles since dispatch, and State.cyc at dispatch (R90). -/
  cycles : Nat
  disp : Nat
  deriving DecidableEq, Repr

/-- What a thread that issues nothing waits for. -/
inductive Wait where
  /-- Nothing: the thread issues. -/
  | none
  /-- WAIT, until s.ipend and the mask meet (R59). -/
  | event (mask : Nat) (rd : Nat)
  /-- A load from a cascade window, until its completion or timeout (R47, R368): the request's tag, the destination, the
  width in bytes and whether the load sign-extends. -/
  | casc (tag rd width : Nat) (signed : Bool)
  /-- A fence, until what it waits for has completed (R52): cascade stores and cache maintenance, or with `io` cache
  maintenance alone. Without `adv`, an instruction that orders like a fence before it runs (R51). -/
  | fence (adv io : Bool)
  /-- A microcoded instruction that waits for its load from a cascade window, or has its data (R85): the instruction's
  fields and the micro-state. -/
  | micro (cx rd ra rb : Nat) (word : W32) (m : Micro)
  deriving DecidableEq, Repr

/-- One hardware thread (R28, R30, R59, R25). -/
structure Thread where
  /-- Program counter. -/
  pc : W64
  /-- General registers g1 to g31; g0 is never listed (R28). -/
  g : SMap W64
  /-- Predicate registers; bit 0 is p0 and reads 1 (R28). -/
  pred : W8
  status : W64
  epc : W64
  ecause : W64
  eaddr : W64
  estat : W64
  vbase : W64
  scratch : W64
  cycle : Nat
  tmr : W64
  imask : W64
  mbsrc : W64
  tlo : W64
  thi : W64
  retired : Nat
  /-- Inbox, oldest first, at most 8 (R57). -/
  inbox : List Msg
  wait : Wait
  /-- A halt was written while an instruction is under way: the thread halts when that instruction completes (R63). -/
  halting : Bool
  /-- Halted by the debug port (R465). -/
  dbg : Bool
  /-- The debug port has asked a debug-halted thread for one instruction (R464). -/
  step : Bool
  deriving DecidableEq, Repr

/-- A thread that has never run: the reset values of R30. -/
def Thread.reset : Thread where
  pc := 0
  g := []
  pred := 1
  status := 1
  epc := 0
  ecause := 0
  eaddr := 0
  estat := 0
  vbase := 0
  scratch := 0
  cycle := 0
  tmr := 0
  imask := 0
  mbsrc := 0
  tlo := 0
  thi := 0
  retired := 0
  inbox := []
  wait := .none
  halting := false
  dbg := false
  step := false

/-- A 64-bit word as stored: data and the two syndromes its check bits give, row in bits 7:0, column in bits 15:8
(R393, R394). -/
structure CWord where
  data : W64
  syn : W16
  deriving DecidableEq, Repr

/-- The control store and its tables (R72 to R97). -/
structure Ucs where
  /-- Vendor patch RAM, by offset from 0x2000; unlisted words are 0. -/
  patch : SMap W128
  /-- Customer RAM, by offset from 0x2800. -/
  cust : SMap W128
  /-- Patch-trap table: entry n is (ROM address, patch offset) when valid (R87). -/
  traps : SMap (Nat × Nat)
  /-- Custom-entry table: entry n is (offset, TASK) when valid (R82, R91). -/
  entries : SMap (Nat × Bool)
  /-- The six replicas (R73, R96): the half-words, as they are stored with their check bits, that differ from what ROM or
  load put there, by camp × 32768 + address × 2 + half. An unlisted half is the good copy. -/
  rep : SMap CWord
  /-- The load that runs: region and image address. -/
  load : Option (Nat × Nat)
  deriving DecidableEq, Repr

/-- The control store after any reset that reaches the engines (R75). -/
def Ucs.reset : Ucs where
  patch := []
  cust := []
  traps := []
  entries := []
  rep := []
  load := none

/-- A line of the shared cache in its set: the way and whether it is dirty (R384). -/
structure CLine where
  way : Nat
  dirty : Bool
  deriving DecidableEq, Repr

/-- A line in the write-back buffer with the words it will write (R386). -/
structure WbLine where
  line : Nat
  words : SMap CWord
  deriving DecidableEq, Repr

/-- Cache maintenance functions of R53 that act on the shared cache. -/
inductive Maint where
  | clean | flush | inval | zero
  deriving DecidableEq, Repr

/-- A maintenance operation held until a fill completes (R389). -/
structure HeldMaint where
  op : Maint
  line : Nat
  thr : Nat
  deriving DecidableEq, Repr

/-- An entry of an error log (R400). -/
structure ElogEntry where
  valid : Bool
  addr : Nat
  ue : Bool
  sweep : Bool
  repaired : Bool
  count : Nat
  bitNo : Nat
  time : Nat
  deriving DecidableEq, Repr

/-- A free entry. -/
def ElogEntry.free : ElogEntry := ⟨false, 0, false, false, false, 0, 0, 0⟩

/-- Counters of one memory (MEM_ELOG_CNT). -/
structure ElogCnt where
  ue : Nat
  ce : Nat
  deriving DecidableEq, Repr

/-- DRAM, on-chip SRAM and the shared cache (R379 to R403). -/
structure Mem where
  /-- DRAM bytes by usable address; a byte not listed has not been written since INIT (DESIGN CHOICE, log entry 4). -/
  dram : List Host.Cell
  /-- Syndromes of DRAM words, by word number; unlisted words are consistent. -/
  dramSyn : SMap W16
  /-- INIT has completed (R379). -/
  ready : Bool
  /-- CAP and PROT as taken at INIT. -/
  prot : Bool
  capMib : Nat
  /-- DRAM is held in self-refresh with its content (R380). -/
  selfRef : Bool
  /-- On-chip SRAM bytes by offset from 0x0100_0000_0000; unlisted bytes are 0. -/
  sram : List Host.Cell
  sramSyn : SMap W16
  /-- Shared-cache lines in their sets, by line number (usable address / 64). -/
  lines : SMap CLine
  /-- Words of cached lines that differ from DRAM, by word number. -/
  cw : SMap CWord
  /-- The victim cache, oldest first: line and dirty (R386). -/
  vict : List (Nat × Bool)
  /-- The write-back buffer, oldest first (R386). -/
  wb : List WbLine
  /-- The miss register of each bank: the line being filled (R385). -/
  miss : SMap Nat
  /-- The hold queues, in order of arrival (R389). -/
  hold : List HeldMaint
  /-- The way pair being cleaned (true) or powered up (false) (R392). -/
  wayJob : Option (Nat × Bool)
  /-- Error logs, by memory identifier × 16 + entry (R400). -/
  elog : SMap ElogEntry
  elogCnt : SMap ElogCnt
  /-- The refresh rate and band that the next refresh takes up (R383). -/
  refNext : Option (Nat × Nat)
  deriving DecidableEq, Repr

/-- The memory system after power-on: nothing listed. -/
def Mem.reset : Mem where
  dram := []
  dramSyn := []
  ready := false
  prot := true
  capMib := 0
  selfRef := false
  sram := []
  sramSyn := []
  lines := []
  cw := []
  vict := []
  wb := []
  miss := []
  hold := []
  wayJob := none
  elog := []
  elogCnt := []
  refNext := none

/-- Trail Log state that no register shows (R496, R500). -/
structure Evt where
  /-- Time of the last reset that reached EVT, in REF50 periods. -/
  base : Nat
  /-- SYS_RST_CAUSE at that reset. -/
  cause : W32
  /-- Time of the anchor in force, in µs since `base`; none before the first anchor. -/
  anchor : Option Nat
  /-- EMB_RTC was written since the last anchor. -/
  anchorDue : Bool
  /-- Bytes of the ring from EVT_CKPT up to EVT_WR. -/
  used : Nat
  deriving DecidableEq, Repr

/-- The Trail Log after power-on. -/
def Evt.reset : Evt where
  base := 0
  cause := 0
  anchor := none
  anchorDue := false
  used := 0


/-- A read run as its GO copies it (R132). -/
structure RdRun where
  cyl : Nat
  start : Nat
  count : Nat
  recCh : Nat
  dataCh : Nat
  lstart : Nat
  keep : Bool
  deriving DecidableEq, Repr

/-- A write run as its GO copies it (R164). -/
structure WrRun where
  cyl : Nat
  start : Nat
  count : Nat
  recCh : Nat
  dataCh : Nat
  desc : Nat
  cairn : Nat
  close : Bool
  deriving DecidableEq, Repr

/-- The loops of a channel (R101): gain in 0.125 dB and offset in 0.25 code of each reader in use, and the phase of the one
timing loop, in a unit of its own. -/
structure Loops where
  gain : List Int
  ofs : List Int
  phase : Int
  deriving DecidableEq, Repr

/-- A sector of a read run that has been captured and has not ended (R112 to R137). -/
structure Sect where
  idx : Nat
  slot : Nat
  /-- The samples of readers L, C and U as last read (R112, R128). -/
  smp : List (List W8)
  /-- Its last LLR is in the elastic buffer (R112). -/
  inBuf : Bool
  /-- The slot is pinned for it; without a slot its ladder skips retained entries (R124). -/
  pinned : Bool
  /-- Marks found, conflict, bit errors and data start of the last arbitration (R119). -/
  f1 : Bool
  f2 : Bool
  conflict : Bool
  d1 : Nat
  d2 : Nat
  start : Int
  /-- A mark was missed or the marks conflicted at some arbitration. -/
  syncBad : Bool
  /-- Flagged ranges of bit positions, first and last (R117). -/
  ranges : List (Nat × Nat)
  ta : Bool
  drop : Bool
  noPin : Bool
  offTrack : Bool
  iter : Nat
  entry : Nat
  /-- Revolutions spent, and those left of the present reread entry. -/
  revs : Nat
  revsLeft : Nat
  slip : Int
  erased : Nat
  unsat1 : Nat
  mse : Nat
  decoded : Bool
  reason : Nat
  reread : Bool
  deriving DecidableEq, Repr

/-- A sector that has ended and waits for delivery (R133, R138). -/
structure EndedSect where
  idx : Nat
  status : Nat
  record : List W8
  data : Option (List W8)
  deriving DecidableEq, Repr

/-- The active read run. -/
structure ActRd where
  run : RdRun
  /-- Index of the next sector to capture. -/
  next : Nat
  /-- No further sector is opened: by abort, or by overrun. -/
  abort : Bool
  overrun : Bool
  /-- Sectors of the run whose decode runs or waits, in arrival order. -/
  fly : List Sect
  /-- Sectors in the ladder, the one whose entry runs first. -/
  lad : List Sect
  out : List EndedSect
  done : Nat
  deriving DecidableEq, Repr

/-- A slot of a write run between its writing and its end (R164 to R175). Slot 0 with INDEX 0xFFFF is the cairn. -/
structure WSlot where
  idx : Nat
  tag : List W8
  digest : List W8
  noCairn : Bool
  /-- CRC-64 written. -/
  crc : W64
  writes : Nat
  unsafeSeen : Bool
  viter : Nat
  vmse : Nat
  vunsat : Nat
  flags : Nat
  deriving DecidableEq, Repr

/-- The active write run. -/
structure ActWr where
  run : WrRun
  mode : Nat
  band : Nat
  /-- Index of the next slot of the pass. -/
  next : Nat
  /-- The sector that passes under the writer: a slot, a slot rewritten, or the cairn. -/
  cur : Option WSlot
  /-- The HTR_W frame of the run has not been sent (R162). -/
  htrWait : Bool
  /-- Slots written whose verify runs, in order. -/
  vfy : List WSlot
  /-- Slots to be rewritten on the next revolution (R170). -/
  rew : List WSlot
  /-- Rewrite revolutions begun. -/
  revs : Nat
  abort : Bool
  under : Bool
  /-- The cairn: 0 not due, 1 to be written, 2 written and verifying, 3 ended. -/
  cairn : Nat
  /-- Records not yet delivered. -/
  out : List (List W8)
  done : Nat
  deriving DecidableEq, Repr

/-- A frame of the preamp serial interface that waits or is being sent (R529, R530). -/
structure PsiFrame where
  read : Bool
  addr : Nat
  data : Nat
  /-- Sent by the write path (R162) rather than by drive firmware. -/
  auto : Bool
  /-- It carries HTR_W of a write run (R162). -/
  heat : Bool
  deriving DecidableEq, Repr

/-- One media channel beyond its registers (R98 to R175). -/
structure Med where
  /-- A zone selection waits for its commit. -/
  zonePend : Bool
  /-- The zone entry in force, 512 bytes; empty when none is loaded. -/
  zone : List W8
  /-- The entry being loaded. -/
  zoneNew : List W8
  zoneBad : Bool
  rdPend : Option RdRun
  wrPend : Option WrRun
  /-- The pending write run's GO was copied before the pending read run's. -/
  wrFirst : Bool
  rd : Option ActRd
  wr : Option ActWr
  /-- Data start of the sector a retention slot holds. -/
  slotStart : SMap Int
  /-- Slots whose unpin waits for their ladder (R124). -/
  unpinLater : List Nat
  /-- Slot data that the DMA engine has supplied, by index: the bytes, or none when marked uncorrectable (R165, R166). -/
  staged : SMap (Option (List W8))
  /-- The write gate, and the energy-assist enable (R148, R163). -/
  gate : Bool
  ea : Bool
  /-- The time before which no write gate of the run rises (R162), and before which no read run becomes active (R99). -/
  gateAt : Nat
  readAt : Nat
  /-- Front ends powered: bit 0 L, 1 C, 2 U, 3 V (R99). -/
  fe : BitVec 4
  /-- The loops as the last sector left them (R101). -/
  loops : Loops
  /-- The primary taps under adaptation, in units of 2^-20 (R109). -/
  lms : List Int
  /-- Off-track has been reported since the last sector's span ended (R136). -/
  offSeen : Bool
  /-- Preamp frames, oldest first. -/
  psi : List PsiFrame
  deriving DecidableEq, Repr

/-- A channel that is off. -/
def Med.reset : Med where
  zonePend := false
  zone := []
  zoneNew := []
  zoneBad := false
  rdPend := none
  wrPend := none
  wrFirst := false
  rd := none
  wr := none
  slotStart := []
  unpinLater := []
  staged := []
  gate := false
  ea := false
  gateAt := 0
  readAt := 0
  fe := 0
  loops := ⟨[], [], 0⟩
  lms := []
  offSeen := false
  psi := []


/-- What a DMA channel's beats are doing. -/
inductive DmaPhase where
  | idle
  /-- A remote read is outstanding. -/
  | reading
  /-- A remote write of so many bytes is outstanding. -/
  | writing (n : Nat)
  /-- The digest has been sent to another part. -/
  | digest
  deriving DecidableEq, Repr

/-- One DMA channel beyond its registers (R404 to R415). -/
structure DmaCh where
  /-- The current descriptor and its accelerator block as read. -/
  desc : Option (List W8)
  acc : List W8
  /-- It breaks R404 to R411. -/
  bad : Bool
  /-- It has ended: all moved, failed, or its run is over. -/
  finished : Bool
  aborted : Bool
  bus : Bool
  ue : Bool
  idxErr : Bool
  noDigest : Bool
  phase : DmaPhase
  /-- Source bytes read and not yet processed, and processed bytes not yet written, with their marks. -/
  buf : List (W8 × Bool)
  obuf : List (W8 × Bool)
  /-- Stream bytes read and written. -/
  rdPos : Nat
  wrPos : Nat
  /-- Bytes moved through an indexed port. -/
  idxMoved : Nat
  /-- The key latched from the descriptor's slot (R471). -/
  key : Option (BitVec 512)
  /-- KICK was written while the channel ran (R414). -/
  kick : Bool
  /-- Size of the last circular descriptor since GO; 0 when none (R408). -/
  ring : Nat
  /-- ERROR was entered with a writeback, so that KICK can resume (R413). -/
  resumable : Bool
  /-- The index a write path waits for (R407). -/
  idxReq : Option Nat
  /-- The descriptor has claimed or joined its SHA engine (R411). -/
  shaIn : Bool
  /-- Digest and writeback are written; the message waits for room (R412). -/
  wbDone : Bool
  /-- ABORT came with the descriptor's completion (R415). -/
  stopIdle : Bool
  /-- Remote writes sent and not yet answered (R412). -/
  outW : Nat
  /-- The digest has been dealt with (R411). -/
  digDone : Bool
  deriving DecidableEq, Repr

/-- A channel with nothing started. -/
def DmaCh.reset : DmaCh where
  desc := none
  acc := []
  bad := false
  finished := false
  aborted := false
  bus := false
  ue := false
  idxErr := false
  noDigest := false
  phase := .idle
  buf := []
  obuf := []
  rdPos := 0
  wrPos := 0
  idxMoved := 0
  key := none
  kick := false
  ring := 0
  resumable := false
  idxReq := none
  shaIn := false
  wbDone := false
  stopIdle := false
  outW := 0
  digDone := false

/-- A SHA-384 engine (R411): owner, chaining value, bytes not yet in a block, length, and its marks. -/
structure ShaEng where
  owner : Option Nat
  h : List W64
  rest : List W8
  total : Nat
  ue : Bool
  bus : Bool
  deriving DecidableEq, Repr

/-- A SHA engine that no channel owns. -/
def ShaEng.free : ShaEng := ⟨none, [], [], 0, false, false⟩


/-- One Guyline context beyond its registers (R178 to R207). -/
structure GCtx where
  /-- First word of the law installed. -/
  law : Nat
  /-- The next run has TRANSFER = 1.0 (R205). -/
  transfer : Bool
  /-- The y0 sent last (YPREV), and the y0 frozen for the present sample. -/
  yprev : W32
  frozen : Option W32
  /-- The output instant of the present sample is still to come. -/
  due : Bool
  /-- Consecutive late samples; late since the actuator's last sample instant (R189). -/
  late : Nat
  lateNow : Bool
  /-- SENSE of the last valid return frame of this context's frame type (R201). -/
  sense : BitVec 18
  /-- State-register writes held until the run ends (R195). -/
  held : List (Nat × W32)
  deriving DecidableEq, Repr

/-- A context at reset. -/
def GCtx.reset : GCtx := ⟨0, false, 0, none, false, 0, false, 0, []⟩

/-- The law run under way (R190 to R193): context, whether its sample has passed (R197), next word, words executed, F, the
cycle of the last issue, and when results, F and the unpipelined unit are ready. -/
structure GRun where
  ctx : Nat
  stale : Bool
  pc : Nat
  words : Nat
  f : Bool
  cyc : Nat
  ready : SMap Nat
  fReady : Nat
  unit : Nat
  deriving DecidableEq, Repr

/-- One actuator of Guyline beyond its registers (R179 to R210). -/
structure GAct where
  /-- Positions of the last two valid wedges, integer and fraction (R184). -/
  p1 : Int
  f1 : W32
  p2 : Int
  f2 : W32
  /-- The next valid wedge resolves N = G. -/
  resolve : Bool
  /-- Number of the last wedge, consecutive missed wedges, consecutive found ones in sequence. -/
  wedge : Option Nat
  missed : Nat
  found : Nat
  /-- The present sample's wedge was found; its runout and the last valid PES. -/
  valid : Bool
  rro : W32
  pes : W32
  /-- Target in force, and the seek: distance, speed, direction, limits, references (R203). -/
  tcyl : Nat
  tofs : W32
  seek : Bool
  u : W32
  w : W32
  neg : Bool
  amax : W32
  vmax : W32
  ref : W32
  vref : W32
  aref : W32
  /-- e_q of the last sample, clean samples, and whether the next sample follows a head change (R187, R189). -/
  eq : W32
  clean : Nat
  hold : Bool
  /-- The present wedge has ended a load: the trigger returns at the next one (R208). -/
  acqNow : Bool
  /-- Frames waiting for the port: type and payload (R199). -/
  adi : List (Nat × Nat)
  /-- SEQ of the next frame, frames sent, type of the last one, consecutive return frames discarded, FLT (R200, R201). -/
  seq : Nat
  sent : Nat
  lastType : Nat
  bad : Nat
  flt : Bool
  deriving DecidableEq, Repr

/-- An actuator at reset. -/
def GAct.reset : GAct where
  p1 := 0
  f1 := 0
  p2 := 0
  f2 := 0
  resolve := true
  wedge := none
  missed := 0
  found := 0
  valid := false
  rro := 0
  pes := 0
  tcyl := 0
  tofs := 0
  seek := false
  u := 0
  w := 0
  neg := false
  amax := 0
  vmax := 0
  ref := 0
  vref := 0
  aref := 0
  eq := 0
  clean := 0
  hold := false
  acqNow := false
  adi := []
  seq := 0
  sent := 0
  lastType := 0
  bad := 0
  flt := false


/-- A Ranger command that runs (R461): its code, its block's address, and its result once performed. -/
structure SecCmd where
  code : Nat
  addr : Nat
  result : Option Nat
  /-- The number of its arrival at Ranger. -/
  seq : Nat
  /-- MK_EPOCH has programmed its EPOCH slot and waits for descriptors (R472). -/
  stage : Bool
  deriving DecidableEq, Repr

/-- Ranger: the OTP store, the key slots and what lasts for one boot (R448 to R475). -/
structure Sec where
  /-- Fused lifecycle: 0 Open, 1 Sealed, 3 Returned (R450, R452). -/
  lc : Nat
  /-- VREVOKE. -/
  vrevoke : Nat
  /-- CKEY_IMG and CKEY_TOK, 96 bytes each; CKEY_ESC, 48 bytes. -/
  ckeyImg : Option (List W8)
  ckeyTok : Option (List W8)
  ckeyEsc : Option (List W8)
  minSvn : Nat
  /-- EPOCH salts after slot 0, oldest first. -/
  epochs : List (BitVec 256)
  custKill : Bool
  /-- Media key slots 0 to 63 (R471). -/
  slots : SMap (BitVec 512)
  /-- Tokens refused in this boot (R467). -/
  refused : Nat
  /-- A customer token with PERM.RETURN was accepted in this boot (R452). -/
  returnOk : Bool
  /-- R468 is in force for the rest of this boot. -/
  noCust : Bool
  cmd : Option SecCmd
  /-- Commands and DOE requests that have arrived (R461). -/
  arrived : Nat
  /-- Result of the boot-signature check in Open (R459): 0 none, 1 passed, 2 failed. -/
  openBoot : Nat
  /-- SHA-384 of the running image's signed header, of the vendor patch and of the customer region (R469). -/
  hdrHash : List W8
  patchHash : List W8
  custHash : List W8
  /-- An export key pair exists (R473): the number of the pair. -/
  exportPair : Nat
  /-- BOOT_LOAD by relay runs: units that passed (R457). -/
  relayBoot : Option Nat
  /-- BOOT_LOAD listens on the debug UART (R457, R458). -/
  uartBoot : Bool
  /-- Entry address of the image that passed. -/
  entry : Nat
  /-- The JTAG instruction register (R464). -/
  tap : TapIns
  deriving DecidableEq, Repr

/-- A part from the factory: Open, nothing provisioned (DESIGN CHOICE, log entry 1). -/
def Sec.reset : Sec where
  lc := 0
  vrevoke := 0
  ckeyImg := none
  ckeyTok := none
  ckeyEsc := none
  minSvn := 0
  epochs := []
  custKill := false
  slots := []
  refused := 0
  returnOk := false
  noCust := false
  cmd := none
  arrived := 0
  openBoot := 0
  hdrHash := []
  patchHash := []
  custHash := []
  exportPair := 0
  relayBoot := none
  uartBoot := false
  entry := 0
  tap := .idcode

/-- A firmware relay to another part (R486): the unit under way, its failures, and whether the relay has failed or all
units passed. -/
structure Relay where
  unit : Nat
  fails : Nat
  /-- 0 runs, 1 done, 2 failed. -/
  st : Nat
  deriving DecidableEq, Repr

/-- A Firmware Commit that runs: its command's tag, CA and slot (R484). -/
structure Commit where
  tag : Nat
  ca : Nat
  slot : Nat
  deriving DecidableEq, Repr

/-- Firmware update (R476 to R493): SPI NOR, the image being downloaded, relays and the handover. -/
structure Fw where
  /-- SPI NOR bytes; an unlisted byte is erased and reads 0xFF (PRESUMED, log entry 7). -/
  nor : List Host.Cell
  /-- Pieces of the image in progress, by 64 KiB unit (R483). -/
  img : SMap (List W8)
  commit : Option Commit
  /-- Relays by part (R486, R487). -/
  relays : SMap Relay
  /-- Units that passed here as receiver (R486). -/
  unitsOk : Nat
  /-- A handover runs: the parts whose READY came (R490). -/
  handover : Option (List Nat)
  /-- Header fields of the running image: IMG_VER, HVER, HMIN, LOAD, NBLK, REC_VER, REC_MIN. -/
  imgVer : Nat
  hver : Nat
  load : Nat
  nblk : Nat
  recVer : Nat
  recMin : Nat
  /-- Record version in force (R493), and whether the running image has confirmed (R492). -/
  inForce : Nat
  confirmed : Bool
  /-- A committed image waits for the next assertion of PERST# on port 0 (R484). -/
  resetDue : Bool
  /-- The new image of the handover runs on this part (R490). -/
  handed : Bool
  deriving DecidableEq, Repr

/-- Nothing downloaded, nothing running. -/
def Fw.reset : Fw where
  nor := []
  img := []
  commit := none
  relays := []
  unitsOk := 0
  handover := none
  imgVer := 0
  hver := 0
  load := 0
  nblk := 0
  recVer := 0
  recMin := 0
  inForce := 0
  confirmed := false
  resetDue := false
  handed := false


/-- The six gate outputs of the spindle unit: all low (R211, R213, R216, R219, R233; and in reset, R13), the three low sides
on (R230), or PWM with each phase's on-times of its high and its low gate within the present period, in ns as binary32
(R214, R215). -/
inductive Gates where
  | low
  | zero
  | pwm (hi lo : List W32)
  deriving DecidableEq, Repr

/-- The observer (R222): electrical angle and phase error in 2^-32 of a turn, the error in two's complement, the speed in
1/16 rpm, and what else it holds. -/
structure Obs where
  angle : W32
  err : W32
  speed : Nat
  inner : List W32
  deriving DecidableEq, Repr

/-- The spindle unit beyond its registers (R211 to R239). -/
structure Spn where
  gates : Gates
  /-- Duties computed in the last period, as times in ns of the three high gates before dead time: they take effect at the
  next period start (R214). -/
  duty : Option (List W32)
  /-- The voltage vector commanded last, in the windings' frame. -/
  volts : W32 × W32
  /-- Duties in effect in this period. -/
  dutyNow : Option (List W32)
  obs : Obs
  /-- Electrical angle turned in the present speed period, in 2^-32 of a turn (R225). -/
  turn : Int
  /-- Phase currents U, V, W as last reconstructed (R217). -/
  cur : List W32
  /-- RUN waits for the next period start: the last edge, the time of its window's end in ns and the speed found (R229). -/
  sync : Option (Edge × Nat × Nat)
  /-- The open-loop angle, in 1/(60,000 · FREQ²) of an electrical turn (R231). -/
  rampAngle : Nat
  /-- Torque-current reference that context 4 sent last. -/
  iref : W32
  /-- REQ as applied at the last PWM period start; none after EN rose. -/
  req : Option Nat
  /-- FREQ and DEAD as sampled when EN rose. -/
  freq : Nat
  dead : Nat
  /-- CUR_KP, CUR_KI and IMAX in force. -/
  kp : W32
  ki : W32
  imax : W32
  /-- Integrators of the d, q and generator loops; currents and voltages of the last period. -/
  xd : W32
  xq : W32
  xg : W32
  id : W32
  iq : W32
  vd : W32
  vq : W32
  /-- Periods below 10° and above 30° phase error. -/
  lockRun : Nat
  lostRun : Nat
  /-- The present speed period: periods, sum of i_q, ceiling met, lock kept. -/
  periods : Nat
  iqSum : W32
  ceil : Bool
  lockOk : Bool
  /-- The next speed sample is the first since RUN was entered. -/
  entry : Bool
  atRun : Nat
  /-- The present period was cut by overcurrent; consecutive periods cut. -/
  cut : Bool
  cutRun : Nat
  /-- ZVBRAKE: an observation runs; it belongs to a stop. -/
  observe : Bool
  stopping : Bool
  /-- Ramp speed in units of 1/FREQ rpm: each period of 1/FREQ ms adds RAMP (R231). -/
  ramp : Nat
  /-- VM samples since BRK_OUT rose. -/
  chopN : Nat
  /-- A power loss waits for the next PWM period start. -/
  genTrig : Bool
  deriving DecidableEq, Repr

/-- The spindle unit at reset. -/
def Spn.reset : Spn where
  gates := .low
  duty := none
  volts := (0, 0)
  dutyNow := none
  obs := ⟨0, 0, 0, []⟩
  turn := 0
  cur := [0, 0, 0]
  sync := none
  rampAngle := 0
  iref := 0
  req := none
  freq := 40
  dead := 20
  kp := 0x3F800000
  ki := 0x3DCCCCCD
  imax := 0x40400000
  xd := 0
  xq := 0
  xg := 0
  id := 0
  iq := 0
  vd := 0
  vq := 0
  lockRun := 0
  lostRun := 0
  periods := 0
  iqSum := 0
  ceil := false
  lockOk := true
  entry := false
  atRun := 0
  cut := false
  cutRun := 0
  observe := false
  stopping := false
  ramp := 0
  chopN := 0
  genTrig := false


/-- A non-posted request a function has outstanding (R332). -/
structure HReq where
  tag : Nat
  addr : Nat
  len : Nat
  /-- The DMA channel that waits, and the stream offset. -/
  chan : Nat
  arg : Nat
  /-- Data received so far. -/
  got : List W8
  deriving DecidableEq, Repr

/-- A DOE mailbox (R349): the response not yet read and the request objects that wait for Ranger, as double words. -/
structure Doe where
  inObj : List W32
  /-- Requests that wait for Ranger, with the numbers of their arrival (R461). -/
  wait : List (Nat × List W32)
  /-- The response Ranger is working on (R469). -/
  prep : List W32
  resp : List W32
  err : Bool
  deriving DecidableEq, Repr

/-- One PCIe port and its function (R319 to R349). -/
structure HifP where
  /-- Configuration space, by byte offset of the double word; unlisted ones hold their default. -/
  cfg : SMap W32
  /-- PERST# is asserted. -/
  perst : Bool
  reqs : List HReq
  quar : List Nat
  /-- Tags of requests that a reset ended: completions for them are discarded silently (R343). -/
  silent : List Nat
  /-- MSI-X table, by double word; vector control words hold 1 (masked) by default. -/
  msix : SMap W32
  /-- Vectors with their pending bit set (PBA, or MSI Pending) (R340). -/
  pba : List Nat
  msiPend : List Nat
  /-- INTA is asserted (R341). -/
  inta : Bool
  doe : Doe
  deriving DecidableEq, Repr

/-- A port at reset. -/
def HifP.reset : HifP where
  cfg := []
  perst := false
  reqs := []
  quar := []
  silent := []
  msix := []
  pba := []
  msiPend := []
  inta := false
  doe := ⟨[], [], [], [], false⟩


/-- How a command that holds a tag is served (R290, R294 to R296). -/
inductive FastPh where
  /-- On the engine path. -/
  | engine
  /-- A Write that waits for the indivisible check of R294. -/
  | candidate
  /-- A fast-path write whose data is fetched into this slot. -/
  | write (slot : Nat)
  /-- A fast-path read of this slot. -/
  | read (slot : Nat)
  deriving DecidableEq, Repr

/-- A command that holds a tag (R289). -/
structure NCmd where
  tag : Nat
  seq : Nat
  ctrl : Nat
  qid : Nat
  /-- The 64-byte submission entry. -/
  entry : List W8
  ph : FastPh
  /-- Its data point is reached (R297). -/
  dp : Bool
  /-- Its controller was reset (R343). -/
  orphan : Bool
  /-- Its completion is posted and not yet written to the host (R292). -/
  posted : Bool
  deriving DecidableEq, Repr

/-- A submission queue. `stopped`: a fetch failed, and nothing is fetched until the next doorbell (R289). -/
structure NSq where
  base : Nat
  size : Nat
  head : Nat
  tail : Nat
  cq : Nat
  stopped : Bool
  deriving DecidableEq, Repr

/-- A completion entry that waits for its queue (R291, R292). -/
structure NCpl where
  tag : Nat
  dw0 : Nat
  dw1 : Nat
  status : Nat
  deriving DecidableEq, Repr

/-- A completion queue. `owed`: an entry's interrupt has not been signalled (R340). -/
structure NCq where
  base : Nat
  size : Nat
  head : Nat
  tail : Nat
  phase : Bool
  vec : Nat
  ien : Bool
  held : List NCpl
  owed : Bool
  deriving DecidableEq, Repr

/-- The NVMe registers and admin state of one controller (R288, R329). -/
structure NCtl where
  cc : W32
  rdy : Bool
  /-- CSTS.SHST. -/
  shst : Nat
  aqa : W32
  asq : Nat
  acq : Nat
  intms : W32
  /-- Features set, by identifier. -/
  feats : SMap Nat
  /-- Tags of outstanding Asynchronous Event Requests, oldest first; events that wait for one; event types that wait for
  their log page to be read. -/
  aer : List Nat
  events : List Nat
  muted : List Nat
  /-- The Error Information log, newest first, and its count. -/
  errlog : List (List W8)
  errCnt : Nat
  deriving DecidableEq, Repr

/-- A controller at reset. -/
def NCtl.reset : NCtl := ⟨0, false, 0, 0, 0, 0, 0, [], [], [], [], [], 0⟩

/-- The queue engine beyond its registers (R289 to R298). -/
structure Nvq where
  /-- Commands that hold a tag, in fetch order. -/
  cmds : List NCmd
  seq : Nat
  /-- Queues, by controller × 256 + identifier. -/
  sqs : SMap NSq
  cqs : SMap NCq
  /-- The queue fetched from last, and fetches left in its turn. -/
  last : Nat
  turn : Nat
  /-- Work messages that a camp mask of 0 holds: class and message (NVQ_ROUTE). -/
  unposted : List (Nat × Msg)
  /-- A dump trigger stopped fetching and posting (R309). -/
  stopped : Bool
  /-- Fast-path log records that wait for a read of the slot given up (R295): LBA, new slot, old slot. -/
  owed : List (Nat × Nat × Nat)
  /-- NVQ_BC_CFG and the bases in force: they follow the registers while FAST_WR = FAST_RD = 0. -/
  dir : Nat
  slots : Nat
  free : Nat
  flog : Nat
  cfg : W32
  c0 : NCtl
  c1 : NCtl
  deriving DecidableEq, Repr

/-- The queue engine at reset. -/
def Nvq.reset : Nvq where
  cmds := []
  seq := 0
  sqs := []
  cqs := []
  last := 511
  turn := 0
  unposted := []
  stopped := false
  owed := []
  dir := 0
  slots := 0
  free := 0
  flog := 0
  cfg := 0x0C0C0010
  c0 := NCtl.reset
  c1 := NCtl.reset

/-- A Groundsheet image (R310, R311). -/
structure GsImage where
  area : Nat
  pos : Nat
  seq : Nat
  listN : Nat
  time : Nat
  charge : Nat
  slotBase : Nat
  /-- Save-list extents: address and content. -/
  extents : List (Nat × List W8)
  /-- Bucket records of 64 bytes, and the slots they name with their content (none outside the usable DRAM). -/
  ways : List (List W8)
  slots : List (Nat × Option (List W8))
  /-- Stripes in the image. -/
  pages : Nat
  deriving DecidableEq, Repr

/-- The Groundsheet vault beyond its registers (R308 to R312). -/
structure Gs where
  /-- Newest sealed image of each area. -/
  img0 : Option GsImage
  img1 : Option GsImage
  /-- Bytes of a stripe and stripes of the armed area, as found at PREP; the newest sealed SEQ found there. -/
  stripe : Nat
  stripes : Nat
  seqNew : Nat
  /-- PREP and a restore run: the area being prepared. -/
  prep : Option Nat
  restore : Bool
  /-- The dump that runs: its image, and whether Bivouac entry started it. -/
  dump : Option GsImage
  bivDump : Bool
  /-- The extended-margin timing set of the NAND interface is in force (R533). -/
  nandExt : Bool
  deriving DecidableEq, Repr

/-- The vault with nothing in it (DESIGN CHOICE, log entry 1). -/
def Gs.reset : Gs := ⟨none, none, 0, 0, 0, none, false, none, false, false⟩



/-- A data chunk of an object (R248, R259): its plaintext bytes, the unit of each shard, the shards not yet verified, and
whether it is UNDERSPREAD or committed (R263, R267). -/
structure Chunk where
  idx : Nat
  data : List W8
  units : List Nat
  pend : List Nat
  under : Bool
  committed : Bool
  /-- It has been sent to the media, with LAST as told (R251). -/
  placed : Option Bool
  /-- No generation of it was found by the index rebuild: its digest from the record (R256). -/
  lost : Option (List W8)
  /-- The next command's sequence number when the PUT of its data completed (R300). -/
  put : Nat
  deriving DecidableEq, Repr

/-- A sealed version (R245, R246, R253). -/
structure Ver where
  ns : Nat
  key : List W8
  version : Nat
  handle : Nat
  prev : Nat
  length : Nat
  created : Nat
  retain : Nat
  hold : Bool
  tomb : Bool
  deleted : Nat
  updated : Nat
  gen : Nat
  user : List W8
  chunks : List Chunk
  /-- Its digest chunks (R255). -/
  digs : List Chunk
  /-- The units of its metadata chunk, and whether they are fewer than its shards. -/
  units : List Nat
  under : Bool
  /-- Its metadata chunk as last written; none before R257 lets it be written. -/
  metaC : Option Chunk
  /-- That metadata chunk has committed (R265). -/
  metaDone : Bool
  /-- The next command's sequence number when the first command that changed the record and has not committed completed
  (R300). -/
  put : Nat
  deriving DecidableEq, Repr

/-- An open PUT session (R266, R279). -/
structure Sess where
  token : Nat
  ns : Nat
  key : List W8
  handle : Nat
  retain : Nat
  user : Option (List W8)
  chunks : List Chunk
  /-- Time of its last command, in REF50 periods. -/
  last : Nat
  deriving DecidableEq, Repr

/-- An object namespace: its descriptor and the next handle (R241, R245), the media key slot, the last version number of
each key ever sealed (R246, R273), the retention clock at its creation, and the descriptor's generation and metadata chunk
(R243, R252). -/
structure ObjNs where
  desc : List W8
  nextHandle : Nat
  slot : Nat
  lastVer : List (List W8 × Nat)
  created : Nat
  gen : Nat
  descC : Option Chunk
  deriving DecidableEq, Repr

/-- The export session (R283): its token, namespace, the clock at OPEN, the frames not yet sent as bytes with the trailer
appended when due, the ENTRY payloads and object bytes counted so far. -/
structure Export where
  token : Nat
  ns : Nat
  start : Nat
  /-- Handles of the versions covered, in stream order. -/
  vers : List Nat
  sent : Nat
  trailer : List W8
  last : Nat
  deriving DecidableEq, Repr

/-- A Sanitize or Format that runs (R316 to R318): the action, its namespaces, bands done and total. -/
structure Wipe where
  action : Nat
  nsid : Nat
  done : Nat
  total : Nat
  /-- What overwrites: the 32-bit pattern and the passes (R316). -/
  pattern : Nat
  passes : Nat
  deriving DecidableEq, Repr

/-- The services of the reference firmware: the block namespace and the object store (R240 to R318, R513). -/
structure Svc where
  /-- LBAs of NSID 1 (DESIGN CHOICE, log entry 20). -/
  nsze : Nat
  /-- Content of LBAs outside the directory, cached or on the media; an unlisted LBA reads as zeros. -/
  blk : SMap (List W8)
  /-- LBAs among them whose data is charged and not yet verified on the media. -/
  vol : List Nat
  /-- The directory is in use: drive firmware has enabled the fast path or restored the cache. -/
  dir : Bool
  /-- The cache has been restored since the last reset of the engines (R313). -/
  ready : Bool
  /-- R307 is in force. -/
  readOnly : Bool
  nss : SMap ObjNs
  /-- Next handle and descriptor generation of namespaces that have been deleted: their tags stay on the media (R157,
  R245). -/
  gone : SMap (Nat × Nat)
  /-- The index has come up since the last start (R276). -/
  index : Bool
  /-- The retention clock as last journaled (R271). -/
  clk : Nat
  vers : List Ver
  sess : List Sess
  nextToken : Nat
  export_ : Option Export
  /-- The journal since the last checkpoint: number of records (R275). -/
  journal : Nat
  ckpts : Nat
  sanitize : Option Wipe
  /-- The last Sanitize ended failed, and was started with AUSE = 0. -/
  sanFailed : Bool
  sanDone : Bool
  format : Option Wipe
  /-- NVMe feature 0xC0 (R275). -/
  ckptMin : Nat
  /-- Shards that a GET no longer waits for (R267): tag, chunk index, shard. -/
  slow : List (Nat × Nat × Nat)
  deriving DecidableEq, Repr

/-- Nothing stored. -/
def Svc.reset : Svc where
  nsze := 2 ^ 28
  blk := []
  vol := []
  dir := false
  ready := false
  readOnly := false
  nss := []
  gone := []
  index := false
  clk := 0
  vers := []
  sess := []
  nextToken := 1
  export_ := none
  journal := 0
  ckpts := 0
  sanitize := none
  sanFailed := false
  sanDone := false
  format := none
  ckptMin := 15
  slow := []



/-- A reset sequence of R430 that runs. -/
structure RstSeq where
  /-- A request of the third column (warm, watchdog, cascade FULL, sideband) takes part. -/
  full : Bool
  /-- Bits of every cause requested (R431). -/
  causes : W32
  /-- It waits for a dump that ran already (R431), or for the dump its step 2 started. -/
  oldDump : Bool
  ownDump : Bool
  /-- A sideband reset takes part: the part stays in reset while the line is low (R353). -/
  sb : Bool
  deriving DecidableEq, Repr

/-- Power states, resets and THM beyond their registers (R416 to R447). -/
structure Pwr where
  /-- 0 Active, 1 Spun, 2 Kindled, 3 Ember (R419). -/
  st : Nat
  /-- The state a transition runs toward, and a request written meanwhile (R420). -/
  target : Option Nat
  next : Option Nat
  /-- PWR_EN is high. -/
  pwrEn : Bool
  /-- POR_N is low. -/
  por : Bool
  /-- A Kindling is due: a wake source was taken, POR_N was released, or the retry of R426 waits. -/
  due : Bool
  retry : Bool
  /-- This Kindling began at a release of POR_N. -/
  fromPor : Bool
  /-- Failed attempts (R426). -/
  tries : Nat
  /-- Ember was entered through a trip (R429). -/
  viaTrip : Bool
  rst : Option RstSeq
  /-- The trip sequence runs; a trip is due (R444, R445). -/
  trip : Bool
  tripDue : Bool
  /-- DS7 was broken at the trip; consecutive DS7 conversions below 110 °C (R446). -/
  ds7Broken : Bool
  cool : Nat
  /-- Next channel of the round (R433). -/
  adc : Nat
  /-- A round has completed since the reset. -/
  round : Bool
  /-- Last sample of each die sensor, its consecutive bad samples and consecutive hot good samples (R434, R444). -/
  last : SMap Int
  badRun : SMap Nat
  hotRun : SMap Nat
  /-- Die sensors whose round three consecutive bad samples have made bad (R434). -/
  badDie : List Nat
  /-- Seconds in Ember under the trip hold (R446). -/
  heldS : Nat
  /-- DIE value in 1/16 °C (R436). -/
  die : Int
  /-- The groups DIE, PACK and BOARD have had a value since the reset (R437). -/
  dieSet : Bool
  packSet : Bool
  boardSet : Bool
  /-- Consecutive rounds in which the two sensors of PACK and of BOARD differ (R436). -/
  packDis : Nat
  boardDis : Nat
  /-- Consecutive rounds of each supply outside its window (R435). -/
  supply : SMap Nat
  /-- The firewood account in µJ (R442). -/
  acct : Nat
  deriving DecidableEq, Repr

/-- Active after a power-on reset. -/
def Pwr.reset : Pwr where
  st := 0
  target := none
  next := none
  pwrEn := true
  por := false
  due := false
  retry := false
  fromPor := false
  tries := 0
  viaTrip := false
  rst := none
  trip := false
  tripDue := false
  ds7Broken := false
  cool := 0
  adc := 0
  round := false
  last := []
  badRun := []
  hotRun := []
  badDie := []
  heldS := 0
  die := 0
  dieSet := false
  packSet := false
  boardSet := false
  packDis := 0
  boardDis := 0
  supply := []
  acct := 60000000



/-- Patrol beyond its registers (R508, R509): the item that runs, the next one to consider, and when the lap began. -/
structure Ptl where
  item : Option Nat
  next : Nat
  start : Nat
  deriving DecidableEq, Repr

/-- Patrol at the start of a lap. -/
def Ptl.reset : Ptl := ⟨none, 0, 0⟩



/-- What a cascade request is for. -/
inductive CscUse where
  /-- A load of an engine thread. -/
  | load (p : Nat)
  /-- A store of an engine thread. -/
  | store (p : Nat)
  /-- A DMA channel's transfer. -/
  | dma (c : Nat)
  /-- A message or doorbell of send port p. -/
  | msg (p : Nat)
  | ping
  | reset
  | relay
  /-- A load or store of the debug port (R464). -/
  | dbg (load : Bool)
  deriving DecidableEq, Repr

/-- A request this part has outstanding (R368). -/
structure CscReq where
  tag : Nat
  dst : Nat
  /-- Sent west. -/
  west : Bool
  kind : Nat
  arg : Nat
  len : Nat
  data : List W8
  use : CscUse
  /-- Already sent again once (R374). -/
  again : Bool
  deriving DecidableEq, Repr

/-- The link layer of one Zeunene port (R357 to R365). -/
structure ZLink where
  /-- Extended SEQ of the next sequenced flit to send, and of the next one expected. -/
  txSeq : Nat
  rxSeq : Nat
  /-- Sequenced flits sent and not yet acknowledged, oldest first (at most 512). -/
  replay : List Flit
  /-- Resends without progress (R359). -/
  resends : Nat
  /-- Credits held for sending, by class (R360). -/
  crReq : Nat
  crCpl : Nat
  /-- Credits to give back to the peer. -/
  retReq : Nat
  retCpl : Nat
  /-- Packets waiting for credit or replay room, oldest first. -/
  sendQ : List Packet
  /-- Bytes of the packet stream received and not yet a whole packet. -/
  rxBuf : List W8
  /-- Whole packets received and not yet taken up. -/
  pktIn : List Packet
  /-- Times of bad flits in the current window, newest first (R362). -/
  bad : List Nat
  /-- Sequenced flits sent under the present key, and the key's number, by direction (R365). -/
  txKeyUse : Nat
  txKey : Nat
  rxKey : Nat
  /-- Counters of unsequenced flits (R364). -/
  idleTx : Nat
  idleRx : Nat
  deriving DecidableEq, Repr

/-- A link before flit lock. -/
def ZLink.reset : ZLink where
  txSeq := 0
  rxSeq := 0
  replay := []
  resends := 0
  crReq := 128
  crCpl := 128
  retReq := 0
  retCpl := 0
  sendQ := []
  rxBuf := []
  pktIn := []
  bad := []
  txKeyUse := 0
  txKey := 0
  rxKey := 0
  idleTx := 0
  idleRx := 0

/-- The cascade controller's state beyond its registers. -/
structure Csc where
  east : ZLink
  west : ZLink
  /-- Outstanding requests in their issue order. -/
  reqs : List CscReq
  /-- Tags in quarantine (R368). -/
  quar : List Nat
  /-- SEQN of this part's last LINKSTATE. -/
  seqn : Nat
  /-- The newest SEQN seen, by originator. -/
  seen : SMap Nat
  /-- This Outpost knows N (R372). -/
  sizeKnown : Bool
  /-- Consecutive failed pings, by part (R375). -/
  missed : SMap Nat
  /-- Offers waiting to be sent: on the West side, and the value (R354). -/
  offers : List (Bool × Nat)
  /-- A WAKE to forward on this side (true: West), and when one was last forwarded (R352). -/
  wakeFwd : Option Bool
  wakeAt : Option Nat
  /-- Roll-call runs; whether it closed the ring (R354). -/
  rollCall : Bool
  rcClosed : Bool
  /-- The next source served, in rotation (R368). -/
  serve : Nat
  /-- Relay bytes counted and short of a unit of CSC_RLY_CNT. -/
  rlyRem : Nat
  deriving DecidableEq, Repr

/-- The cascade controller at reset. -/
def Csc.reset : Csc where
  east := ZLink.reset
  west := ZLink.reset
  reqs := []
  quar := []
  seqn := 0
  seen := []
  sizeKnown := false
  missed := []
  offers := []
  wakeFwd := none
  wakeAt := none
  rollCall := false
  rcClosed := false
  serve := 0
  rlyRem := 0

/-- The events of the blocks (R60): those raised at the end of the last command, and the messages that their rises have
made due and that have not been sent. -/
structure EvSeen where
  seen : List Nat
  due : SMap Nat
  deriving DecidableEq, Repr

/-- A line of an instruction cache: its number (address / 64) and its sixteen words (R48, R55). -/
structure IcLine where
  line : Nat
  words : List W32
  deriving DecidableEq, Repr

/-- The write waveform of a sector (R146, R167): its channel bits, bit i in bit i mod 8 of byte i div 8; the shift of each
transition in 1/64 cell, by bit position; overshoot in percent, its duration in 1/16 cell, and the edge rate (R160). -/
structure Wave where
  bits : List W8
  shifts : List (Nat × Int)
  ovs : Nat
  ovsDur : Nat
  rise : Nat
  deriving DecidableEq, Repr


/-- What the part sends out (the model's own record, DESIGN CHOICE, log entry 5). -/
inductive OutEvent where
  /-- A 32-bit frame on the actuator driver interface of an actuator (R199). -/
  | adiFrame (a : Nat) (w : W32)
  /-- A part of a physical sector written by an actuator, with the gate up all along: head, cylinder, sector, the track data
  cell of its bit 0, first and end bit position of the part (R148), and the sector's waveform (R146, R167). -/
  | sectorPart (a head cyl sector cell lo hi : Nat) (wave : Wave)
  /-- A frame on the preamp serial interface (R529). -/
  | psiFrame (a : Nat) (read : Bool) (addr data : Nat)
  /-- The write gate of an actuator (R148, R163). -/
  | writeGate (a : Nat) (on : Bool)
  /-- The energy-assist enable of an actuator; `lead` is how many ns it rises before the write gate (R163). -/
  | energyAssist (a : Nat) (on : Bool) (lead : Nat)
  /-- The front ends powered of an actuator: bit 0 L, 1 C, 2 U, 3 V, with the servo reader's in a servo gate (R99, R181). -/
  | frontEnds (a : Nat) (on : BitVec 4)
  /-- A memory read request of a function: address, length, tag (R333). -/
  | pcieRead (n addr len tag : Nat)
  /-- A memory write of a function; `ep` marks poisoned data. -/
  | pcieWrite (n addr : Nat) (data : List W8) (ep : Bool)
  /-- A completion of a request the host made: 0 success, 1 Unsupported Request, 2 Request Retry Status. -/
  | pcieCpl (n status : Nat) (data : List W8) (ep : Bool)
  /-- Assert_INTA (true) or Deassert_INTA (R341). -/
  | inta (n : Nat) (on : Bool)
  /-- The sectors of a shard go to a spread unit for writing: tag and data of each, in ascending SECT (R262). -/
  | shardWrite (unit : Nat) (sectors : List (List W8 × List W8))
  /-- Every data slot and cairn of bands `lo` up to `hi`, counted over the drive, overwritten `passes` times with this data and
  tag, the cairns with NRUN = 0 (R316). -/
  | overwrite (lo hi passes : Nat) (data tag : List W8)
  /-- A slot that ended RELOCATE is to be written again under this tag (R171). -/
  | relocate (a : Nat) (tag : List W8)
  /-- An LTR message (R348). -/
  | ltr (n : Nat) (v : W32)
  /-- Data of an engine-path command placed in host memory through its data pointer (R278, R288): controller, tag and
  bytes. -/
  | cmdData (n tag : Nat) (data : List W8)
  /-- A data structure whose stated fields are given by byte offset; its other bytes are left open (R288). -/
  | cmdFields (n tag : Nat) (fields : List (Nat × List W8))
  /-- THERM_TRIP_N driven low (true) or released (R445, R446). -/
  | thermTrip (low : Bool)
  /-- The levels that the part drives on its GPIO balls and which it drives (R537). -/
  | gpio (out oe : W32)
  /-- The NAND interface changes its timing set and repeats its training: extended margin or normal (R533). -/
  | nandTiming (ext : Bool)
  /-- The DRAM PHY calibrates its impedance and retrains its reads (R438). -/
  | dramRetrain
  /-- PWR_EN raised (true) or dropped (R425, R426, R445). -/
  | pwrEn (on : Bool)
  /-- A flit sent on a Zeunene port (west). -/
  | zFlit (west : Bool) (f : Flit)
  /-- A sideband low pulse on a port (west), in µs (R351). -/
  | sideband (west : Bool) (us : Nat)
  /-- Ranger's answer to a debug frame: status byte and data (R464). -/
  | dbg (status : Nat) (data : List W8)
  deriving DecidableEq, Repr

/-- The state of the part. -/
structure State where
  /-- Commands that wait, first in, first out (the model's own). -/
  pending : List Instr
  /-- REF50 periods of 20 ns since power-on. -/
  now : Nat
  /-- The value of `now` at the last reset that reached the engines (R30, s.time). -/
  timeBase : Nat
  /-- Number of free values taken so far (the model's own). -/
  fresh : Nat
  /-- What the part has sent out, oldest first (the model's own). -/
  out : List OutEvent
  /-- Value returned by the last command that read a register or memory from outside (the model's own). -/
  rdata : W64
  /-- Registers of the register space by offset (R19); unlisted ones hold their reset value. -/
  regs : SMap W32
  /-- Committed copies of RWH registers (R6). -/
  active : SMap W32
  /-- Each agent's holding copy for reads of pairs: the pair's _LO offset and its captured _HI (R25). -/
  pairHold : SMap (Nat × W32)
  /-- Each agent's pending place for writes of pairs: the pair's _LO offset and the value (R25). -/
  pairPend : SMap (Nat × W32)
  /-- Hardware threads (R28). -/
  thrs : SMap Thread
  /-- Camp queues, oldest first, at most 64 entries (R56). -/
  campQ : SMap (List Msg)
  /-- Messages that wait for room (R62). -/
  heldMsgs : List HeldMsg
  /-- The blocks' events and the messages due for them (R60). -/
  evSeen : EvSeen
  /-- The camp each block's rotation used last (R62). -/
  rot : SMap Nat
  /-- Lines held by the instruction caches, with their content: by engine × 128 + set, at most two (R55). -/
  ic : SMap (List IcLine)
  /-- Engine cycles since power-on (R70, R86). -/
  cyc : Nat
  /-- The cycle from which each engine's divider is free, by engine (R70, R86). -/
  divFree : SMap Nat
  ucs : Ucs
  mem : Mem
  evt : Evt
  med0 : Med
  med1 : Med
  dch : SMap DmaCh
  sha : SMap ShaEng
  gctx : SMap GCtx
  gact0 : GAct
  gact1 : GAct
  /-- Contexts whose run is pending, with the time of their sample instant, in the order of R180. -/
  gylQ : List (Nat × Nat)
  gylRun : Option GRun
  sec : Sec
  fw : Fw
  spn : Spn
  hif0 : HifP
  hif1 : HifP
  nvq : Nvq
  gs : Gs
  svc : Svc
  pwr : Pwr
  ptl : Ptl
  csc : Csc
  /-- Remote transfers of DMA channels that have ended: channel, window offset, data or failure (R368). -/
  dmaRemote : List (Nat × Nat × Option (List W8 × Bool))
  /-- The channel that the funnel served last (R410). -/
  dmaLast : Nat
  deriving DecidableEq, Repr

/-- The part at the release of POR_N with nothing run (DESIGN CHOICE, log entry 1). -/
def State.reset : State where
  pending := []
  now := 0
  timeBase := 0
  fresh := 0
  out := []
  rdata := 0
  regs := []
  active := []
  pairHold := []
  pairPend := []
  thrs := [(160, { Thread.reset with pc := 0x010000280000 })]
  campQ := []
  heldMsgs := []
  evSeen := ⟨[], []⟩
  rot := []
  ic := []
  cyc := 0
  divFree := []
  ucs := Ucs.reset
  mem := Mem.reset
  evt := Evt.reset
  med0 := Med.reset
  med1 := Med.reset
  dch := []
  sha := []
  gctx := []
  gact0 := GAct.reset
  gact1 := GAct.reset
  gylQ := []
  gylRun := none
  sec := Sec.reset
  fw := Fw.reset
  spn := Spn.reset
  hif0 := HifP.reset
  hif1 := HifP.reset
  nvq := Nvq.reset
  gs := Gs.reset
  svc := Svc.reset
  pwr := Pwr.reset
  ptl := Ptl.reset
  csc := Csc.reset
  dmaRemote := []
  dmaLast := 31

end Sys2Proof.Machine
end

