-- ==== Sys2Proof/Machine/Ops.lean ====
section
/-! DEFINITION. The named operations over registers, free values, outputs and block events that every meaning uses. -/

namespace Sys2Proof.Machine

/-- The answer of a step. -/
abbrev Out := Host.Outcome State Fault Refusal

/-! ### Registers of the register space -/

/-- The value the register at offset `o` holds (R6; for RWH, the value last written to the shadow). -/
def State.reg (s : State) (o : Nat) : W32 := smGet regResetVal s.regs o
/-- The register at offset `o` set by hardware. -/
def State.setReg (s : State) (o : Nat) (v : W32) : State := { s with regs := smPut regResetVal s.regs o v }
/-- Bits set by hardware (a status bit sets when its event occurs, R24). -/
def State.orReg (s : State) (o : Nat) (m : W32) : State := s.setReg o (s.reg o ||| m)
/-- Bits cleared by hardware. -/
def State.clrReg (s : State) (o : Nat) (m : W32) : State := s.setReg o (s.reg o &&& ~~~ m)
/-- A field of a register. -/
def State.fld (s : State) (o lo len : Nat) : Nat := getF (s.reg o) lo len
/-- A field of a register set by hardware. -/
def State.setFld (s : State) (o lo len x : Nat) : State := s.setReg o (setF (s.reg o) lo len x)
/-- Bit `i` of a register. -/
def State.rbit (s : State) (o i : Nat) : Bool := tb (s.reg o) i
/-- A counter field incremented; it saturates (R23). -/
def State.incFld (s : State) (o lo len : Nat) (n : Nat := 1) : State :=
  s.setFld o lo len (satAdd (s.fld o lo len) n len)
/-- The 64-bit value of the pair whose _LO lies at `o`. -/
def State.reg64 (s : State) (o : Nat) : Nat := (s.reg o).toNat + 2 ^ 32 * (s.reg (o + 4)).toNat
/-- Both halves of a pair set. -/
def State.setReg64 (s : State) (o x : Nat) : State :=
  (s.setReg o (BitVec.ofNat 32 x)).setReg (o + 4) (BitVec.ofNat 32 (x / 2 ^ 32))
/-- The committed copy of an RWH register (R6). -/
def State.act (s : State) (o : Nat) : W32 := smGet regResetVal s.active o
/-- The committed copy set. -/
def State.setAct (s : State) (o : Nat) (v : W32) : State := { s with active := smPut regResetVal s.active o v }

/-! ### Free values, outputs -/

/-- A free number below `n + 1`, and the state with the counter of free values advanced (DESIGN CHOICE, log entry 3). -/
def State.freeNat (s : State) (n : Nat) : Nat × State :=
  (Config.freeNat s.fresh % (n + 1), { s with fresh := s.fresh + 1 })
/-- A free number of any size. -/
def State.freeAny (s : State) : Nat × State := (Config.freeNat s.fresh, { s with fresh := s.fresh + 1 })
/-- An output appended to the record of what the part has sent out. -/
def State.emit (s : State) (e : OutEvent) : State := { s with out := s.out ++ [e] }
/-- Several outputs in order. -/
def State.emits (s : State) (l : List OutEvent) : State := { s with out := s.out ++ l }

/-! ### Time -/

/-- REF50 periods since the last reset that reached the engines (R30, s.time). -/
def State.sTime (s : State) : Nat := s.now - s.timeBase
/-- Microseconds since the last reset that reached EVT (R496). -/
def State.evtUs (s : State) : Nat := (s.now - s.evt.base) / 50
/-- The Ember real-time clock in seconds. -/
def State.rtc (s : State) : Nat := s.reg64 Reg.EMB_RTC_LO
/-- Minutes since 2000-01-01 00:00 UTC (R154), from EMB_RTC (DEDUCED, log entry 8). -/
def State.minutes (s : State) : Nat := s.rtc / 60

/-! ### Block events (R24, R60 to R62) -/

/-- The status and enable registers of a block; `none` for a block that has no such pair. -/
def blockRegs (b : Nat) : List (Nat × Nat) :=
  match b with
  | 0 => [(Reg.SYS_STATUS, Reg.SYS_ENABLE)]
  | 1 => [(Reg.EMB_STATUS, Reg.EMB_ENABLE)]
  | 2 => [(Reg.HIF_STATUS, Reg.HIF_ENABLE)]
  | 3 => [(Reg.NVQ_STATUS, Reg.NVQ_ENABLE)]
  | 4 => [(Reg.CSC_STATUS, Reg.CSC_ENABLE)]
  | 5 => [(Reg.MEM_STATUS, Reg.MEM_ENABLE)]
  | 6 => [(Reg.CCH_STATUS, Reg.CCH_ENABLE)]
  | 7 => [(Reg.DMA_STATUS, Reg.DMA_ENABLE), (Reg.DMA_ERRSTATUS, Reg.DMA_ERRENABLE)]
  | 8 => [(Reg.MCA_STATUS 0, Reg.MCA_ENABLE 0), (Reg.MCA_WR_STATUS 0, Reg.MCA_WR_ENABLE 0)]
  | 9 => [(Reg.MCA_STATUS 1, Reg.MCA_ENABLE 1), (Reg.MCA_WR_STATUS 1, Reg.MCA_WR_ENABLE 1)]
  | 10 => [(Reg.GYL_STATUS, Reg.GYL_ENABLE)]
  | 11 => [(Reg.SPN_STATUS, Reg.SPN_ENABLE)]
  | 12 => [(Reg.THM_STATUS, Reg.THM_ENABLE)]
  | 13 => [(Reg.EVT_STATUS, Reg.EVT_ENABLE)]
  | 14 => [(Reg.SEC_STATUS, Reg.SEC_ENABLE)]
  | 15 => [(Reg.OBJ_STATUS, Reg.OBJ_ENABLE)]
  | 16 => [(Reg.PTL_STATUS, Reg.PTL_ENABLE)]
  | 17 => [(Reg.UCS_STATUS, Reg.UCS_ENABLE)]
  | 18 => [(Reg.NVI_GS_STATUS, Reg.NVI_GS_ENABLE), (Reg.NVI_GPIO_STATUS, Reg.NVI_GPIO_ENABLE)]
  | _ => []

/-- A block raises its event while any status bit is 1 with its enable bit also 1 (R24). -/
def State.raised (s : State) (b : Nat) : Bool :=
  (blockRegs b).any fun r => decide (s.reg r.1 &&& s.reg r.2 ≠ 0)

/-- The routing byte of a block (EVT_ROUTEn). -/
def State.routeMask (s : State) (b : Nat) : Nat := s.fld (Reg.EVT_ROUTE (b / 4)) (8 * (b % 4)) 6

/-- The blocks whose event is raised. -/
def State.risen (s : State) : List Nat := (List.range 19).filter fun b => s.raised b

/-- Messages due for block `b`. -/
def EvSeen.dueOf (e : EvSeen) (b : Nat) : Nat := smGet (fun _ => 0) e.due b

/-- One more message due for each block of a list: its event went from not raised to raised (R60). -/
def EvSeen.rise (e : EvSeen) (l : List Nat) : EvSeen :=
  { e with due := l.foldl (fun d b => smPut (fun _ => 0) d b (smGet (fun _ => 0) d b + 1)) e.due }

/-- The end of every command (R60): an event that has risen makes one message due, whatever becomes of the event. While a
block's routing byte is 0 its events are held: a message due is dropped when the event is raised no more (R62). -/
def State.settle (s : State) : State :=
  let up := s.risen
  let e := s.evSeen.rise (up.filter fun b => !(s.evSeen.seen.contains b))
  { s with evSeen := ⟨up, e.due.filter fun d => up.contains d.1 || decide (s.routeMask d.1 ≠ 0)⟩ }

/-- The command has come about and leaves state `s`. -/
def done (s : State) : Out := .next s.settle

end Sys2Proof.Machine
end

