-- ==== Sys2Proof/Machine/Mem.lean ====
section
/-! DEFINITION. Memory: the parity code, error logs, on-chip SRAM, DRAM, the shared cache with its victim cache and
write-back buffer (R8, R379 to R401). Words are 64 bits; a word number is an address divided by 8, a line number an address
divided by 64. -/

namespace Sys2Proof.Machine

/-! ### The parity code (R393, R394) -/

/-- XOR of the bits of a byte. -/
def parity8 (b : W8) : Bool := (List.range 8).foldl (fun p i => xor p (b.getLsbD i)) false

/-- Row parity byte of a word: bit i is the parity of data byte i (R393). -/
def rowParity (d : W64) : W8 :=
  BitVec.ofNat 8 ((List.range 8).foldl (fun a i => a + b2n (parity8 (BitVec.ofNat 8 (d.toNat / 256 ^ i))) * 2 ^ i) 0)

/-- Column parity byte of a word: the XOR of its bytes (R393). -/
def colParity (d : W64) : W8 := (leBytes 8 d.toNat).foldl (· ^^^ ·) 0

/-- The 16 check bits of a word, rows in bits 7:0 and columns in bits 15:8. -/
def checkBits (d : W64) : W16 := BitVec.ofNat 16 ((rowParity d).toNat + 256 * (colParity d).toNat)

/-- The diagnosis of R394. -/
inductive Diag where
  | good
  /-- One stored bit, 0 to 79, was in error (data bit, row parity bit 64 + i, column parity bit 72 + j). -/
  | corrected (bitNo : Nat)
  | poisoned
  | multiple
  deriving DecidableEq, Repr

/-- The one bit set in a byte, if exactly one is. -/
def oneBit (n : Nat) : Option Nat := (List.range 8).find? fun i => n == 2 ^ i

/-- R394: the diagnosis of the syndromes (row in bits 7:0, column in bits 15:8). -/
def diagnose (syn : W16) : Diag :=
  let r := syn.toNat % 256
  let c := syn.toNat / 256
  if r = 0 ∧ c = 0 then .good
  else if r = 255 ∧ c = 255 then .poisoned
  else match oneBit r, oneBit c with
    | some i, some j => .corrected (8 * i + j)
    | some i, none => if c = 0 then .corrected (64 + i) else .multiple
    | none, some j => if r = 0 then .corrected (72 + j) else .multiple
    | none, none => .multiple

/-- The data delivered for a word: a data bit found in error is inverted. -/
def correctedData (w : CWord) : W64 :=
  match diagnose w.syn with
  | .corrected b => if b < 64 then w.data ^^^ BitVec.ofNat 64 (2 ^ b) else w.data
  | _ => w.data

/-- The word is uncorrectable. -/
def CWord.bad (w : CWord) : Bool :=
  match diagnose w.syn with
  | .poisoned | .multiple => true
  | _ => false

/-- An upset of the 80 stored bits of a word, data in bits 63:0, row parity in 71:64, column parity in 79:72. -/
def CWord.upset (w : CWord) (u : BitVec 80) : CWord :=
  let d : W64 := u.setWidth 64
  { data := w.data ^^^ d, syn := w.syn ^^^ checkBits d ^^^ (u.extractLsb' 64 16) }

/-- The poisoned form of a word (R395). -/
def CWord.poison (w : CWord) : CWord := { w with syn := 0xFFFF }

/-! ### Error logs (R400, R401) -/

/-- A free entry of an error log. -/
def elogDflt : Nat → ElogEntry := fun _ => ElogEntry.free
/-- Counters at 0. -/
def elogCntDflt : Nat → ElogCnt := fun _ => ⟨0, 0⟩

/-- Entry `n` of the log of memory `id`. -/
def State.elogAt (s : State) (id n : Nat) : ElogEntry := smGet elogDflt s.mem.elog (id * 16 + n)
/-- That entry set. -/
def State.setElog (s : State) (id n : Nat) (e : ElogEntry) : State :=
  { s with mem := { s.mem with elog := smPut elogDflt s.mem.elog (id * 16 + n) e } }
/-- The counters of memory `id`. -/
def State.elogCntAt (s : State) (id : Nat) : ElogCnt := smGet elogCntDflt s.mem.elogCnt id

/-- The identifiers of R401. -/
def elogIdOk (id : Nat) : Bool := decide (id ≤ 0x39) || (decide (0x40 ≤ id) && decide (id ≤ 0x6F))

/-- The entry that a new error takes (R400): the one that holds its address, else the lowest free one, else the oldest
correctable one. -/
def State.elogSlot (s : State) (id addr : Nat) (ue : Bool) : Option (Nat × Bool) :=
  match (List.range 16).find? (fun n => let e := s.elogAt id n; e.valid && e.addr == addr && e.ue == ue) with
  | some n => some (n, true)
  | none =>
    match (List.range 16).find? (fun n => !(s.elogAt id n).valid) with
    | some n => some (n, false)
    | none =>
      let ces := (List.range 16).filter fun n => !(s.elogAt id n).ue
      match ces.find? (fun n => ces.all fun m => decide ((s.elogAt id n).time ≤ (s.elogAt id m).time)) with
      | some n => some (n, false)
      | none => none

/-- Counts and logs one error (R396, R397, R400): CE or UE sets in MEM_STATUS, or LOG_FULL. -/
def State.logErr (s : State) (id addr : Nat) (ue sweep repaired : Bool) (bitNo : Nat) : State :=
  let c := s.elogCntAt id
  let c' := if ue then { c with ue := satAdd c.ue 1 16 } else { c with ce := satAdd c.ce 1 16 }
  let s := { s with mem := { s.mem with elogCnt := smPut elogCntDflt s.mem.elogCnt id c' } }
  match s.elogSlot id addr ue with
  | some (n, same) =>
    let old := s.elogAt id n
    let cnt := if same then satAdd old.count 1 4 else 0
    let e : ElogEntry := ⟨true, addr, ue, sweep, repaired, cnt, if ue then 0x7F else bitNo, s.rtc % 2 ^ 32⟩
    (s.setElog id n e).orReg Reg.MEM_STATUS (if ue then bit 3 else bit 2)
  | none => s.orReg Reg.MEM_STATUS (bit 4)

/-- Logs what reading a word found; a poisoned word is not logged again (R394). -/
def State.logDiag (s : State) (id addr : Nat) (sweep : Bool) (d : Diag) : State :=
  match d with
  | .good | .poisoned => s
  | .corrected b => s.logErr id addr false sweep false b
  | .multiple => s.logErr id addr true sweep false 0x7F

/-! ### Stored words -/

/-- Bytes of SRAM that nothing has written since the SRAM was cleared: 0, the boot stub apart (R429, R455). -/
def sramDflt : Nat → W8 := fun off => if 0x280000 ≤ off ∧ off < 0x282000 then Config.stubByte off else 0
/-- Words that nothing has upset are consistent. -/
def synDflt : Nat → W16 := fun _ => 0

/-- The memory identifier of an SRAM offset and the address logged for it (R18, R401). -/
def sramId (off : Nat) : Nat × Nat :=
  if off < 0x300000 then (off / 0x10000, off % 0x10000)
  else if off < 0x500000 then (0x30, off - 0x400000)
  else if off < 0x600000 then (0x31, off - 0x500000)
  else if off < 0x800000 then (0x32, off - 0x600000)
  else (0x33, off - 0x800000)

/-- The populated part of the on-chip SRAM region (R18). -/
def sramPopulated (off : Nat) : Bool :=
  (decide (off < 0x300000) && decide (off % 0x10000 < 0x8000)) ||
  (decide (0x400000 ≤ off) && decide (off < 0x480000)) ||
  (decide (0x500000 ≤ off) && decide (off < 0x500800)) ||
  (decide (0x600000 ≤ off) && decide (off < 0x600000 + 1766784)) ||
  (decide (0x800000 ≤ off) && decide (off < 0x800000 + 1766784))

/-- The offset lies in the local data RAM of an engine, populated part. -/
def inLocalRam (off : Nat) : Bool := decide (off < 0x300000) && decide (off % 0x10000 < 0x8000)

/-- A byte of SRAM as stored. -/
def State.sramByte (s : State) (off : Nat) : W8 := smGet sramDflt s.mem.sram off

/-- `n` bytes of a table from address `a` on. -/
def readCells (d : Nat → W8) (m : List Host.Cell) (a : Nat) : Nat → List W8
  | 0 => []
  | n + 1 => smGet d m a :: readCells d m (a + 1) n

/-- The table with bytes `l` stored from address `a` on. -/
def writeCells (d : Nat → W8) (m : List Host.Cell) (a : Nat) (l : List W8) : List Host.Cell :=
  match l with
  | [] => m
  | b :: t => writeCells d (smPut d m a b) (a + 1) t

/-- A word of SRAM as stored. -/
def State.sramWord (s : State) (w : Nat) : CWord :=
  { data := BitVec.ofNat 64 (ofLe (readCells sramDflt s.mem.sram (8 * w) 8)), syn := smGet synDflt s.mem.sramSyn w }

/-- `n` bytes of SRAM from `off` on, both multiples of 8, their words corrected. -/
def State.sramGood (s : State) (off n : Nat) : List W8 :=
  s.mem.sramSyn.foldl (fun l e =>
    if off ≤ 8 * e.1 ∧ 8 * e.1 + 8 ≤ off + n then
      l.take (8 * e.1 - off) ++ leBytes 8 (correctedData (s.sramWord e.1)).toNat ++ l.drop (8 * e.1 + 8 - off)
    else l) (readCells sramDflt s.mem.sram off n)

/-- A word of SRAM stored with its check bits. -/
def State.setSramWord (s : State) (w : Nat) (c : CWord) : State :=
  { s with mem := { s.mem with
      sram := writeCells sramDflt s.mem.sram (8 * w) (leBytes 8 c.data.toNat)
      sramSyn := smPut synDflt s.mem.sramSyn w c.syn } }

/-- Bytes of SRAM as they are stored. -/
def State.sramBytes (s : State) (off n : Nat) : List W8 := readCells sramDflt s.mem.sram off n

/-- The channel that holds usable address `a` (R381, R382). -/
def dramChan (prot : Bool) (a : Nat) : Nat :=
  let line := a / 64
  let p := if prot then 5 * (line / 4) + line % 4 else line
  p * 64 / 256 % 2

/-- All 8 bytes of DRAM word `w` have been written since INIT. -/
def State.dramWritten (s : State) (w : Nat) : Bool :=
  (List.range 8).all fun i => (smFind s.mem.dram (8 * w + i)).isSome

/-- A word of DRAM as stored. With PROT = 1 a word never written whole reads uncorrectable; with PROT = 0 no word has
check bits (R380, R395). -/
def State.dramWord (s : State) (w : Nat) : CWord :=
  { data := BitVec.ofNat 64 (ofLe (readCells Config.dramByte s.mem.dram (8 * w) 8))
    syn := if s.mem.prot then (if s.dramWritten w then smGet synDflt s.mem.dramSyn w else 0x0303) else 0 }

/-- Bytes written into DRAM; every byte written is listed. -/
def writeDramCells (m : List Host.Cell) (a : Nat) (l : List W8) : List Host.Cell :=
  match l with
  | [] => m
  | b :: t => writeDramCells (smSet m a b) (a + 1) t

/-- A word written into DRAM: with PROT = 1 an uncorrectable word is written poisoned; with PROT = 0 the mark is lost
(R395). -/
def State.setDramWord (s : State) (w : Nat) (c : CWord) : State :=
  let syn : W16 := if s.mem.prot then (if c.bad then 0xFFFF else c.syn) else 0
  { s with mem := { s.mem with
      dram := writeDramCells s.mem.dram (8 * w) (leBytes 8 c.data.toNat)
      dramSyn := smPut synDflt s.mem.dramSyn w syn } }

/-- The canonical form of the memory: strictly rising addresses; no entry of SRAM or of the syndromes equal to what an unlisted
one reads as. A listed DRAM byte is one that has been written since INIT, whatever its value (DESIGN CHOICE, log entry 4). -/
def Memory.wf (m : Mem) : Bool :=
  smWf sramDflt m.sram && smWf synDflt m.sramSyn && smRising m.dram && smWf synDflt m.dramSyn

/-! ### The shared cache (R384 to R392) -/

/-- The bank of a line. -/
def lineBank (l : Nat) : Nat := l % 8
/-- The set of a line, banks included. -/
def lineSet (l : Nat) : Nat := l % 4096

/-- The line lies in its set. -/
def State.inSet (s : State) (l : Nat) : Option CLine := smFind s.mem.lines l
/-- The victim cache's entry for a line. -/
def State.inVict (s : State) (l : Nat) : Option Bool := (s.mem.vict.find? fun e => e.1 == l).map (·.2)
/-- The write-back buffer's entry for a line; the newest one. -/
def State.inWb (s : State) (l : Nat) : Option WbLine := s.mem.wb.reverse.find? fun e => e.line == l

/-- The words of line `l` that the cache holds. -/
def State.cwOf (s : State) (l : Nat) : SMap CWord := s.mem.cw.filter fun e => e.1 / 8 == l
/-- Those words dropped. -/
def State.dropCw (s : State) (l : Nat) : State :=
  { s with mem := { s.mem with cw := s.mem.cw.filter fun e => e.1 / 8 != l } }
/-- A cached word set. -/
def State.setCw (s : State) (w : Nat) (c : CWord) : State :=
  { s with mem := { s.mem with cw := smSet s.mem.cw w c } }
/-- Words written into DRAM. -/
def State.writeWords (s : State) (l : SMap CWord) : State := l.foldl (fun s e => s.setDramWord e.1 e.2) s

/-- The oldest line of the write-back buffer is written to DRAM (R386). -/
def State.drainOne (s : State) : State :=
  match s.mem.wb with
  | [] => s
  | e :: t => ({ s with mem := { s.mem with wb := t } }).writeWords e.words

/-- A dirty line enters the write-back buffer; a full buffer drains first, and the bank stalls meanwhile (R386). The
stalled cycles are a free number. -/
def State.toWb (s : State) (l : Nat) : State :=
  let s := if 4 ≤ s.mem.wb.length then
      let (n, s) := s.freeAny
      (s.incFld (Reg.CCH_CNT 3) 0 32 n).drainOne
    else s
  let e : WbLine := { line := l, words := s.cwOf l }
  ({ s with mem := { s.mem with wb := s.mem.wb ++ [e] } }).dropCw l

/-- A line leaves its set into the victim cache; a full one gives up its oldest entry (R386). -/
def State.toVictim (s : State) (l : Nat) (dirty : Bool) : State :=
  let s := match s.mem.vict with
    | (o, d) :: t =>
      if 64 ≤ s.mem.vict.length then
        let s := { s with mem := { s.mem with vict := t } }
        if d then s.toWb o else s.dropCw o
      else s
    | [] => s
  { s with mem := { s.mem with vict := s.mem.vict ++ [(l, dirty)] } }

/-- Ways that take new lines: those of pairs neither powered down nor being cleaned or powered up (R384, R392). -/
def State.openWays (s : State) : List Nat :=
  (List.range 16).filter fun w =>
    !(s.rbit Reg.CCH_WAYPWR (8 + w / 2)) && !(s.mem.wayJob.map (·.1) == some (w / 2))

/-- The line that way `w` of set `st` holds. -/
def State.lineAt (s : State) (st w : Nat) : Option (Nat × CLine) :=
  s.mem.lines.find? fun e => lineSet e.1 == st && e.2.way == w

/-- Line `l` is placed in its set: the lowest-numbered invalid way, else the way the pseudo-LRU tree names (a free choice
among the open ways), whose line moves to the victim cache (R384, R386). -/
def State.place (s : State) (l : Nat) (dirty : Bool) : State :=
  let ways := s.openWays
  match ways.find? (fun w => (s.lineAt (lineSet l) w).isNone) with
  | some w => { s with mem := { s.mem with lines := smSet s.mem.lines l ⟨w, dirty⟩ } }
  | none =>
    let (k, s) := s.freeNat (ways.length - 1)
    let w := ways.getD k 0
    let s := match s.lineAt (lineSet l) w with
      | some (o, c) => ({ s with mem := { s.mem with lines := smDel s.mem.lines o } }).toVictim o c.dirty
      | none => s
    { s with mem := { s.mem with lines := smSet s.mem.lines l ⟨w, dirty⟩ } }

/-- What a fill finds in DRAM: words that do not read good are logged and kept in the cache as delivered (R396, R397). -/
def State.fillWords (s : State) (l : Nat) : State :=
  (List.range 8).foldl (fun s i =>
    let w := 8 * l + i
    let c := s.dramWord w
    match diagnose c.syn with
    | .good => s
    | d =>
      let s := s.logDiag (0x38 + dramChan s.mem.prot (8 * w)) (8 * w) false d
      s.setCw w (if c.bad then { c with syn := 0xFFFF } else ⟨correctedData c, 0⟩)) s

/-- Line `l` brought into its set: by recall from the victim cache, from the write-back buffer, or by a DRAM read (R386,
R387). The victim's place is freed before the displaced line takes it. -/
def State.fill (s : State) (l : Nat) : State :=
  match s.inVict l with
  | some d =>
    let s := { s with mem := { s.mem with vict := s.mem.vict.filter fun e => e.1 != l } }
    (s.place l d).incFld (Reg.CCH_CNT 2) 0 32
  | none =>
    match s.inWb l with
    | some e => (e.words.foldl (fun s x => s.setCw x.1 x.2) (s.place l false)).incFld (Reg.CCH_CNT 2) 0 32
    | none => ((s.place l false).fillWords l).incFld (Reg.CCH_CNT 1) 0 32

/-- The line is marked dirty in its set. -/
def State.markDirty (s : State) (l : Nat) : State :=
  match s.inSet l with
  | some c => { s with mem := { s.mem with lines := smSet s.mem.lines l { c with dirty := true } } }
  | none => s
/-- The line is marked clean in its set. -/
def State.markClean (s : State) (l : Nat) : State :=
  match s.inSet l with
  | some c => { s with mem := { s.mem with lines := smSet s.mem.lines l { c with dirty := false } } }
  | none => s

/-- A cache write of line `l`'s words to DRAM, past the write-back buffer's older writes of any line. -/
def State.cleanLine (s : State) (l : Nat) : State :=
  let older := s.mem.wb
  let s := older.foldl (fun t e => t.writeWords e.words) { s with mem := { s.mem with wb := [] } }
  s.writeWords (s.cwOf l)

/-- The line is zeroed: valid and dirty with 64 zero bytes (R53). -/
def State.zeroWords (s : State) (l : Nat) : State :=
  ((List.range 8).foldl (fun s i => s.setCw (8 * l + i) ⟨0, 0⟩) s).markDirty l

/-- A maintenance operation acts on a line whose fill is not in flight (R53, R390). -/
def State.maintain (s : State) (op : Maint) (l : Nat) : State :=
  match s.inSet l with
  | some c =>
    match op with
    | .clean => if c.dirty then (s.cleanLine l).markClean l else s
    | .flush =>
      let s := if c.dirty then s.cleanLine l else s
      ({ s with mem := { s.mem with lines := smDel s.mem.lines l } }).dropCw l
    | .inval => ({ s with mem := { s.mem with lines := smDel s.mem.lines l } }).dropCw l
    | .zero => s.zeroWords l
  | none =>
    match s.inVict l with
    | some d =>
      match op with
      | .clean =>
        if d then
          let v := s.mem.vict.map fun e => if e.1 == l then (l, false) else e
          let s := s.cleanLine l
          { s with mem := { s.mem with vict := v } }
        else s
      | .flush =>
        let s := if d then s.cleanLine l else s
        ({ s with mem := { s.mem with vict := s.mem.vict.filter fun e => e.1 != l } }).dropCw l
      | .inval => ({ s with mem := { s.mem with vict := s.mem.vict.filter fun e => e.1 != l } }).dropCw l
      | .zero => (s.fill l).zeroWords l
    | none =>
      match op with
      | .zero => (s.place l true).zeroWords l
      | _ => s

/-- The fill of a bank's miss register completes: the line is in its set and the held operations of the bank that wait for
it act in their order of arrival (R389). -/
def State.fillDone (s : State) (bank : Nat) : State :=
  match smFind s.mem.miss bank with
  | none => s
  | some l =>
    let held := s.mem.hold.filter fun h => lineBank h.line == bank
    let rest := s.mem.hold.filter fun h => lineBank h.line != bank
    let s := { s with mem := { s.mem with miss := smDel s.mem.miss bank, hold := rest } }
    let s := if (s.inSet l).isSome then s else s.fill l
    held.foldl (fun s h => s.maintain h.op h.line) s

/-- The stalled cycles of a bank are counted; how many they are is a free number (R385). -/
def State.stall (s : State) : State :=
  let (n, s) := s.freeAny
  s.incFld (Reg.CCH_CNT 3) 0 32 n

/-- A request for line `l` is served: it hits, joins the fill in flight, or misses; a busy miss register makes it wait for
the first fill (R385 to R388). -/
def State.touch (s : State) (l : Nat) : State :=
  match smFind s.mem.miss (lineBank l) with
  | some m =>
    if m = l then s.fillDone (lineBank l)
    else if (s.inSet l).isSome then s.incFld (Reg.CCH_CNT 0) 0 32
    else ((s.stall).fillDone (lineBank l)).fill l
  | none => if (s.inSet l).isSome then s.incFld (Reg.CCH_CNT 0) 0 32 else s.fill l

/-- A maintenance operation arrives (R389): on a line whose fill is in flight it is held; a fifth one stalls the bank. -/
def State.maintReq (s : State) (op : Maint) (l thr : Nat) : State :=
  if smFind s.mem.miss (lineBank l) = some l then
    if (s.mem.hold.filter fun h => lineBank h.line == lineBank l).length < 4 then
      { s with mem := { s.mem with hold := s.mem.hold ++ [⟨op, l, thr⟩] } }
    else ((s.stall).fillDone (lineBank l)).maintain op l
  else s.maintain op l

/-- PREFETCH starts a fill of an absent line (R53, R389, R390). -/
def State.prefetch (s : State) (l : Nat) : State :=
  if (s.inSet l).isSome then s
  else match smFind s.mem.miss (lineBank l) with
    | some m => if m = l then s else
        let s := (s.stall).fillDone (lineBank l)
        { s with mem := { s.mem with miss := smSet s.mem.miss (lineBank l) l } }
    | none => { s with mem := { s.mem with miss := smSet s.mem.miss (lineBank l) l } }

/-- The line lies in its set and is dirty. -/
def State.lineDirty (s : State) (l : Nat) : Bool := match s.inSet l with | some x => x.dirty | none => false

/-- A clean line is fetched again, and the fetched copy replaces it (R397); a write of it that still waits goes first (R390). -/
def State.refetch (s : State) (l : Nat) : State :=
  match s.inWb l with
  | some e => e.words.foldl (fun s x => s.setCw x.1 x.2) (s.dropCw l)
  | none => (s.dropCw l).fillWords l

/-- A word of a line that lies in its set, as the cache delivers it: the data, whether it is marked uncorrectable, and the
state after logging (R396, R397). A line with a bad word is fetched again from DRAM when it is clean. -/
def State.cachedWord (s : State) (w : Nat) : W64 × Bool × State :=
  match smFind s.mem.cw w with
  | none => (correctedData (s.dramWord w), (s.dramWord w).bad, s)
  | some c =>
    match diagnose c.syn with
    | .good => (c.data, false, s)
    | .corrected b => (correctedData c, false, s.logErr 0x34 (8 * w) false false false b)
    | .poisoned => (c.data, true, s)
    | .multiple =>
      if s.lineDirty (w / 8) then (c.data, true, s.logErr 0x34 (8 * w) true false false 0x7F)
      else
        let s := ((s.logErr 0x34 (8 * w) true false true 0x7F).orReg Reg.CCH_STATUS (bit 2))
        let s := s.refetch (w / 8)
        let d := (smFind s.mem.cw w).getD (s.dramWord w)
        (correctedData d, d.bad, s)

/-- A word of DRAM read through the shared cache. Until INIT_DONE every word is uncorrectable (R379). -/
def State.readDramWord (s : State) (w : Nat) : W64 × Bool × State :=
  if s.mem.ready then (s.touch (w / 8)).cachedWord w
  else (BitVec.ofNat 64 (ofLe (readCells Config.dramByte s.mem.dram (8 * w) 8)), true, s)

/-- Bytes `l` laid over a word from byte `o` on. -/
def mergeWord (d : W64) (o : Nat) (l : List W8) : W64 :=
  BitVec.ofNat 64 (ofLe ((patchB (leBytes 8 d.toNat) o l).take 8))

/-- Bytes stored into one DRAM word through the cache: a whole word replaces it, a part merges, and a merge into an
uncorrectable word leaves it poisoned (R395, R398). `bad` marks data that arrived uncorrectable. Until INIT_DONE the store
is discarded (R379). -/
def State.writeDramPart (s : State) (w o : Nat) (l : List W8) (bad : Bool) : State :=
  if !s.mem.ready then s
  else if l.length = 8 then
    let s := s.touch (w / 8)
    (s.setCw w ⟨BitVec.ofNat 64 (ofLe l), if bad then 0xFFFF else 0⟩).markDirty (w / 8)
  else
    let (d, ue, s) := (s.touch (w / 8)).cachedWord w
    (s.setCw w ⟨mergeWord d o l, if ue || bad then 0xFFFF else 0⟩).markDirty (w / 8)

/-- A word of SRAM read: the data, whether it is uncorrectable, and the state after logging. -/
def State.readSramWord (s : State) (w : Nat) : W64 × Bool × State :=
  let c := s.sramWord w
  let d := diagnose c.syn
  (correctedData c, c.bad, match d with
    | .good => s
    | _ => s.logDiag (sramId (8 * w)).1 (sramId (8 * w)).2 false d)

/-- Bytes stored into one SRAM word. -/
def State.writeSramPart (s : State) (w o : Nat) (l : List W8) (bad : Bool) : State :=
  if l.length = 8 then s.setSramWord w ⟨BitVec.ofNat 64 (ofLe l), if bad then 0xFFFF else 0⟩
  else
    let (d, ue, s) := s.readSramWord w
    s.setSramWord w ⟨mergeWord d o l, if ue || bad then 0xFFFF else 0⟩

/-- One word's share of an access: the word number, the first byte within it and the bytes. -/
def splitBytes (a : Nat) (l : List W8) : Nat → List (Nat × Nat × List W8)
  | 0 => []
  | fuel + 1 =>
    match l with
    | [] => []
    | _ =>
      let n := 8 - a % 8
      (a / 8, a % 8, l.take n) :: splitBytes (a + (l.take n).length) (l.drop n) fuel

/-- Bytes stored into SRAM from offset `off` on, word by word: whole words replace, parts merge (R398). -/
def State.sramFill (s : State) (off : Nat) (l : List W8) : State :=
  (splitBytes off l (l.length + 1)).foldl (fun s p => s.writeSramPart p.1 p.2.1 p.2.2 false) s

/-! ### Memory addressed by the part's agents -/

/-- The kinds of memory a 48-bit address of the part names (R14, R15, R18, R19), own cascade window apart. -/
inductive Place where
  | dram (a : Nat)
  | sram (off : Nat)
  | reg (off : Nat)
  /-- The window of cascade part n. -/
  | casc (n off : Nat)
  | host (off : Nat)
  /-- Outside every region, or inside one but outside its populated part. -/
  | hole
  deriving DecidableEq, Repr

/-- The usable DRAM capacity in bytes: 16 GiB until INIT_DONE, then what MEM_CAP reports (R15). -/
def State.dramSize (s : State) : Nat := if s.mem.ready then s.mem.capMib * 2 ^ 20 else 2 ^ 34

/-- R14 to R19 for an address of the local part. -/
def State.place0 (s : State) (a : Nat) : Place :=
  if a < s.dramSize then .dram a
  else if 0x010000000000 ≤ a ∧ a < 0x010001000000 then
    (if sramPopulated (a - 0x010000000000) then .sram (a - 0x010000000000) else .hole)
  else if 0x020000000000 ≤ a ∧ a < 0x020000130000 then .reg (a - 0x020000000000)
  else if 0x030000000000 ≤ a ∧ a < 0x034000000000 then
    (if (a - 0x030000000000) / 0x001000000000 < 4 then
      .casc ((a - 0x030000000000) / 0x001000000000) ((a - 0x030000000000) % 0x001000000000) else .hole)
  else if 0x040000000000 ≤ a ∧ a < 0x140000000000 then .host (a - 0x040000000000)
  else .hole

/-- Bytes read from consecutive words with `rd`. -/
def readWords (rd : State → Nat → W64 × Bool × State) (s : State) (a : Nat) : Nat → List W8 × Bool × State
  | 0 => ([], false, s)
  | n + 1 =>
    let (d, ue, s) := rd s (a + 0)
    let (t, ue', s) := readWords rd s (a + 1) n
    (leBytes 8 d.toNat ++ t, ue || ue', s)

/-- `n` bytes read from address `a` with a word reader: the bytes, whether any word they come from is uncorrectable, and
the state after. -/
def readSpan (rd : State → Nat → W64 × Bool × State) (s : State) (a n : Nat) : List W8 × Bool × State :=
  if n = 0 then ([], false, s)
  else
    let k := (a + n - 1) / 8 - a / 8 + 1
    let (l, ue, s) := readWords rd s (a / 8) k
    ((l.drop (a % 8)).take n, ue, s)

/-- A whole aligned line written: it is allocated without a fill (R384). -/
def State.writeLine (s : State) (l : Nat) (d : List W8) (bad : Bool) : State :=
  let syn : W16 := if bad then 0xFFFF else 0
  let s := match smFind s.mem.miss (lineBank l) with
    | some m => if m = l then s.fillDone (lineBank l)
      else if (s.inSet l).isSome then s else (s.stall).fillDone (lineBank l)
    | none => s
  let s := if (s.inSet l).isSome then s.incFld (Reg.CCH_CNT 0) 0 32
    else if (s.inVict l).isSome then s.fill l else s.place l true
  ((List.range 8).foldl (fun s i => s.setCw (8 * l + i) ⟨BitVec.ofNat 64 (leAt d (8 * i) 8), syn⟩) s).markDirty l

/-- Bytes written into DRAM from usable address `a` on, line by line where a whole line is written and word by word
elsewhere. -/
def State.writeDram (s : State) (a : Nat) (l : List W8) (bad : Bool) : Nat → State
  | 0 => s
  | fuel + 1 =>
    match l with
    | [] => s
    | _ =>
      if !s.mem.ready then s
      else if a % 64 = 0 ∧ 64 ≤ l.length then
        (s.writeLine (a / 64) (l.take 64) bad).writeDram (a + 64) (l.drop 64) bad fuel
      else
        let n := 8 - a % 8
        (s.writeDramPart (a / 8) (a % 8) (l.take n) bad).writeDram (a + n) (l.drop n) bad fuel

/-- `n` bytes of DRAM or SRAM read by any agent of the part; another address yields zeros marked uncorrectable. -/
def State.memRead (s : State) (a n : Nat) : List W8 × Bool × State :=
  match s.place0 a with
  | .dram x => readSpan State.readDramWord s x n
  | .sram x => readSpan State.readSramWord s x n
  | _ => (List.replicate n 0, true, s)

/-- Stores to the last-words log and to the retention buffers have no effect (R18, R125). -/
def sramStoreIgnored (off : Nat) : Bool := decide (0x500000 ≤ off)

/-- Bytes stored into DRAM or SRAM by any agent of the part; another address takes nothing. -/
def State.memWrite (s : State) (a : Nat) (l : List W8) (bad : Bool := false) : State :=
  match s.place0 a with
  | .dram x => s.writeDram x l bad (l.length + 1)
  | .sram x =>
    if sramStoreIgnored x then s
    else (splitBytes x l (l.length + 1)).foldl (fun s p => s.writeSramPart p.1 p.2.1 p.2.2 bad) s
  | _ => s

/-- A place of this part's memory as an address. -/
def Place.localAddr : Place → Nat
  | .dram a => a
  | .sram off => 0x010000000000 + off
  | _ => 2 ^ 48

/-- Bytes with their marks: those of an uncorrectable 64-bit word are marked. -/
def State.memReadMarked (s : State) (a n : Nat) : Nat → List (W8 × Bool) × State
  | 0 => ([], s)
  | fuel + 1 =>
    if n = 0 then ([], s)
    else
      let k := min n (8 - a % 8)
      let (l, ue, s) := s.memRead a k
      let (t, s) := s.memReadMarked (a + k) (n - k) fuel
      (l.map (fun b => (b, ue)) ++ t, s)

/-- Any byte is marked. -/
def anyMark (l : List (W8 × Bool)) : Bool := l.any fun x => x.2

/-- The shared part of a marked write: one word's share at a time, poisoned when any of its bytes is marked (R395). -/
def State.memWriteMarkedW (s : State) (a : Nat) (l : List (W8 × Bool)) : Nat → State
  | 0 => s
  | fuel + 1 =>
    match l with
    | [] => s
    | _ =>
      let k := 8 - a % 8
      (s.memWrite a ((l.take k).map (·.1)) (anyMark (l.take k))).memWriteMarkedW (a + k) (l.drop k) fuel

/-- Bytes with their marks stored into memory; a whole line without marks is allocated without a fill (R409). -/
def State.memWriteMarked (s : State) (a : Nat) (l : List (W8 × Bool)) : State :=
  if anyMark l then s.memWriteMarkedW a l (l.length + 1) else s.memWrite a (l.map (·.1))

/-- A little-endian number read from memory. -/
def State.memNat (s : State) (a n : Nat) : Nat × Bool × State :=
  let (l, ue, s) := s.memRead a n
  (ofLe l, ue, s)

/-- The stored bytes at an address, seen without any effect on the cache or the logs. -/
def State.peekWord (s : State) (w : Nat) : W64 :=
  match smFind s.mem.cw w with
  | some c => correctedData c
  | none =>
    match s.inWb (w / 8) with
    | some e => match smFind e.words w with
      | some c => correctedData c
      | none => correctedData (s.dramWord w)
    | none => correctedData (s.dramWord w)

/-- The byte at usable DRAM address `a` as any agent would read it. -/
def State.dramByteAt (s : State) (a : Nat) : W8 := BitVec.ofNat 8 ((s.peekWord (a / 8)).toNat / 256 ^ (a % 8))

end Sys2Proof.Machine
end

