-- ==== Sys2Proof/Machine/Evt.lean ====
section
/-! DEFINITION. The Trail Log: records, anchors, merging, reclaiming and the fall-back (R494 to R503). -/

namespace Sys2Proof.Machine

/-- Offset of the ring in the SRAM region, and its size (R18). -/
def ringBase : Nat := 0x400000
def ringSize : Nat := 0x80000

/-- `n` bytes of the ring from offset `o`, wrapping. -/
def State.ringBytes (s : State) (o n : Nat) : List W8 := s.sramBytes (ringBase + o) n
/-- Length in bytes of the record at ring offset `o`. -/
def State.recLen (s : State) (o : Nat) : Nat := (s.sramByte (ringBase + o)).toNat % 32 * 8
/-- Severity of the record at ring offset `o`. -/
def State.recSev (s : State) (o : Nat) : Nat := (s.sramByte (ringBase + o)).toNat / 32

/-- Offsets of the stored records over `used` bytes from offset `o`, oldest first. -/
def State.recordsFrom (s : State) (o used : Nat) : Nat → List Nat
  | 0 => []
  | fuel + 1 =>
    if used = 0 then [] else
    let n := s.recLen o
    if n = 0 then [] else o :: s.recordsFrom ((o + n) % ringSize) (used - n) fuel

/-- The records from EVT_CKPT up to EVT_WR. -/
def State.records (s : State) : List Nat :=
  s.recordsFrom (s.reg Reg.EVT_CKPT).toNat s.evt.used (s.evt.used / 8 + 1)

/-- The record at `o` is an anchor or a pad (R497). -/
def State.isMark (s : State) (o : Nat) : Bool :=
  let b := s.ringBytes o 4
  b.getD 1 0 == 0x0D && (leAt b 2 2 == 0 || leAt b 2 2 == 1)

/-- A header of R494. -/
def recHeader (len sev source code rep tofs : Nat) : List W8 :=
  leBytes 1 (len % 32 + sev % 8 * 32) ++ leBytes 1 source ++ leBytes 2 code ++ leBytes 2 rep ++ leBytes 2 tofs

/-- Bytes that storing `n` bytes at offset `o` takes, a pad to the end of the ring counted, and the offset after it. -/
def ringTake (o n : Nat) : Nat × Nat :=
  if o + n ≤ ringSize then (n, (o + n) % ringSize) else (ringSize - o + n, n)

/-- A record stored at EVT_WR, behind a pad when it would run past the end (R497). -/
def State.ringStore (s : State) (sev : Nat) (rec : List W8) : State :=
  let o := (s.reg Reg.EVT_WR).toNat
  let pad := if o + rec.length ≤ ringSize then [] else recHeader ((ringSize - o) / 8) sev 0x0D 0 0 0 ++
    List.replicate (ringSize - o - 8) 0
  let s := s.sramFill (ringBase + o) pad
  let at' := if pad = [] then o else 0
  let s := s.sramFill (ringBase + at') rec
  let half := ringSize / 2
  let used := s.evt.used + pad.length + rec.length
  let s := if s.evt.used ≤ half ∧ half < used then s.orReg Reg.EVT_STATUS (bit 3) else s
  let s := if s.fld Reg.EVT_CTRL 4 3 ≤ sev then s.orReg Reg.EVT_STATUS (bit 0) else s
  ({ s with evt := { s.evt with used := used } }).setReg Reg.EVT_WR (BitVec.ofNat 32 ((at' + rec.length) % ringSize))

/-- What became of a record (EVT_POSTp_STAT). -/
inductive PostRes where
  | stored | merged | folded | counted | refused
  deriving DecidableEq, Repr

/-- The code of a result in EVT_POSTp_STAT. -/
def PostRes.code : PostRes → Nat
  | .stored => 0
  | .merged => 1
  | .folded => 2
  | .counted => 3
  | .refused => 4

/-- The fall-back of R501. -/
def State.foldRec (s : State) (sev source code : Nat) (value : W32) : PostRes × State :=
  let s := (s.incFld (Reg.EVT_HIST sev) 0 32).orReg Reg.EVT_STATUS (bit 1)
  let key : W32 := BitVec.ofNat 32 (2 ^ 31 + source * 2 ^ 16 + code)
  let now : W32 := BitVec.ofNat 32 s.rtc
  match (List.range 64).find? (fun n => decide (s.reg (Reg.EVT_SUM_KEY n) = key)) with
  | some n =>
    let s := s.incFld (Reg.EVT_SUM_VAL n 0) 0 32
    let mn := s.reg (Reg.EVT_SUM_VAL n 1)
    let mx := s.reg (Reg.EVT_SUM_VAL n 2)
    let s := s.setReg (Reg.EVT_SUM_VAL n 1) (if value.toInt < mn.toInt then value else mn)
    let s := s.setReg (Reg.EVT_SUM_VAL n 2) (if mx.toInt < value.toInt then value else mx)
    (.folded, s.setReg (Reg.EVT_SUM_VAL n 4) now)
  | none =>
    match (List.range 64).find? (fun n => !(s.rbit (Reg.EVT_SUM_KEY n) 31)) with
    | some n =>
      let s := (s.setReg (Reg.EVT_SUM_KEY n) key).setReg (Reg.EVT_SUM_VAL n 0) 1
      let s := (s.setReg (Reg.EVT_SUM_VAL n 1) value).setReg (Reg.EVT_SUM_VAL n 2) value
      (.folded, (s.setReg (Reg.EVT_SUM_VAL n 3) now).setReg (Reg.EVT_SUM_VAL n 4) now)
    | none => (.counted, s.orReg Reg.EVT_STATUS (bit 2))

/-- The oldest records whose reclaim makes `need` bytes free, all of severity `sev` or below; none when a record of higher
severity stands before (R500). -/
def State.reclaimable (s : State) (sev need : Nat) (free : Nat) (l : List Nat) : Option (List Nat) :=
  if need ≤ free then some []
  else match l with
    | [] => none
    | o :: t => if sev < s.recSev o then none else (s.reclaimable sev need (free + s.recLen o) t).map (o :: ·)

/-- Records reclaimed: each counts in EVT_HIST_OVR and EVT_CKPT moves past it (R500). -/
def State.reclaim (s : State) (l : List Nat) : State :=
  l.foldl (fun s o =>
    let n := s.recLen o
    let s := s.incFld (Reg.EVT_HIST_OVR (s.recSev o)) 0 32
    ({ s with evt := { s.evt with used := s.evt.used - n } }).setReg Reg.EVT_CKPT (BitVec.ofNat 32 ((o + n) % ringSize))) s

/-- The anchor of R496. -/
def State.anchorRec (s : State) (sev : Nat) : List W8 :=
  recHeader 3 sev 0x0D 1 0 0 ++ leBytes 6 s.evtUs ++ leBytes 1 s.evt.cause.toNat ++ [0] ++
    leBytes 8 (if s.rbit Reg.EMB_CLK 1 then s.rtc else 0)

/-- A record of SOURCE, CODE and payload enters the Trail Log (R496 to R501). -/
def State.record (s : State) (sev source code : Nat) (payload : List W8) : PostRes × State :=
  if !(s.rbit Reg.EVT_CTRL 0) then (.refused, (s.incFld (Reg.EVT_HIST sev) 0 32).orReg Reg.EVT_STATUS (bit 2))
  else
    let len := payload.length / 8 + 1
    let body := recHeader len sev source code 0 0
    let same := fun o => s.recLen o == len * 8 && s.ringBytes o 4 == body.take 4 && s.ringBytes (o + 8) (len * 8 - 8) == payload
    let newest := s.records.reverse.find? fun o => (s.ringBytes o 2).getD 1 0 == BitVec.ofNat 8 source
    match newest.filter (fun o => s.rbit Reg.EVT_CTRL 1 && same o && !(s.isMark o)) with
    | some o =>
      let rep := leAt (s.ringBytes (o + 4) 2) 0 2
      (.merged, s.sramFill (ringBase + o + 4) (leBytes 2 (satAdd rep 1 16)))
    | none =>
      let us := s.evtUs
      let needAnchor := match s.evt.anchor with
        | none => true
        | some a => s.evt.anchorDue || decide (65535 < us - a)
      let wr := (s.reg Reg.EVT_WR).toNat
      let (na, o1) := if needAnchor then ringTake wr 24 else (0, wr)
      let (nr, _) := ringTake o1 (len * 8)
      match s.reclaimable sev (na + nr) (ringSize - s.evt.used) s.records with
      | none => s.foldRec sev source code (BitVec.ofNat 32 (leAt payload 0 4))
      | some l =>
        let s := s.reclaim l
        let s := if needAnchor then
            let s := s.ringStore sev (s.anchorRec sev)
            { s with evt := { s.evt with anchor := some us, anchorDue := false } }
          else s
        let tofs := us - s.evt.anchor.getD us
        (.stored, s.ringStore sev (recHeader len sev source code 0 tofs ++ payload))

/-- A record that hardware writes. -/
def State.hwRecord (s : State) (sev source code : Nat) (payload : List W8) : State := (s.record sev source code payload).2

end Sys2Proof.Machine
end

