-- ==== Sys2Proof/Machine/Csc.lean ====
section
/-! DEFINITION. The cascade controller: ports, routing, requests, link layer and sideband (R350 to R378). What a received
packet does to memory and registers stands in CscPkt. -/

namespace Sys2Proof.Machine

/-! ### Position, ports, segments -/

/-- This part's ring position (SYS_ROLE.POSITION). -/
def State.pos (s : State) : Nat := s.fld Reg.SYS_ROLE 0 2
/-- The position is valid. -/
def State.posValid (s : State) : Bool := s.rbit Reg.SYS_ROLE 3
/-- This part is the Basecamp (R12). -/
def State.isBase (s : State) : Bool := s.rbit Reg.SYS_ROLE 2
/-- N, the ring size in use (CSC_RING.SIZE). -/
def State.ringN (s : State) : Nat := s.fld Reg.CSC_RING 4 4
/-- The link of a port. -/
def State.link (s : State) (z : Nat) : ZLink := if z = 0 then s.csc.east else s.csc.west
/-- The link of a port set. -/
def State.setLink (s : State) (z : Nat) (l : ZLink) : State :=
  if z = 0 then { s with csc := { s.csc with east := l } } else { s with csc := { s.csc with west := l } }
/-- STATE of a port: 0 DISABLED, 1 TRAINING, 2 AUTH, 3 UP, 4 DEGRADED, 5 REFUSED, 6 DOWN. -/
def State.zState (s : State) (z : Nat) : Nat := s.fld (Reg.CSC_PORT_STATE z) 0 4
/-- The segment a port of this part ends (R350). -/
def State.segOf (s : State) (z : Nat) : Nat :=
  if z = 0 then s.pos else if s.pos = 0 then max s.ringN 1 - 1 else s.pos - 1
/-- The usable flag of a segment (R372). -/
def State.segUsable (s : State) (g : Nat) : Bool := s.rbit Reg.CSC_SEGMAP g

/-- The segments a request from this part to position `q` crosses going west or east (R373). -/
def State.pathSegs (s : State) (q : Nat) (west : Bool) : List Nat :=
  let n := max s.ringN 1
  let d := (q + n - s.pos % n) % n
  if west then (List.range (n - d)).map fun i => (s.pos + n - 1 - i) % n
  else (List.range d).map fun i => (s.pos + i) % n

/-- The direction toward position `q` over usable segments, the shorter way first (R373): `none` when both ways are broken;
`some true` is west. -/
def State.wayTo (s : State) (q : Nat) : Option Bool :=
  if s.ringN ≤ q || q = s.pos then none
  else
    let n := s.ringN
    let d := (q + n - s.pos) % n
    let west := decide (n - d < d)
    if (s.pathSegs q west).all s.segUsable then some west
    else if (s.pathSegs q (!west)).all s.segUsable then some (!west)
    else none

/-- The direction of a request to position `q` (R372, R373, R376): `none` when there is no route. An Outpost that does not
know N sends west. -/
def State.route (s : State) (q : Nat) : Option Bool :=
  if !(s.rbit Reg.CSC_CTRL 0) || s.rbit (Reg.CSC_PART_STATE q) 8 then none
  else if !s.isBase && !s.csc.sizeKnown then
    (if s.zState 1 = 3 then some true else none)
  else s.wayTo q

/-- The direction of a PING: without a route, a DEGRADED port of this part still carries it (R362). -/
def State.pingRoute (s : State) (q : Nat) : Option Bool :=
  match s.route q with
  | some w => some w
  | none =>
    if !(s.rbit Reg.CSC_CTRL 0) || s.rbit (Reg.CSC_PART_STATE q) 8 then none
    else if s.zState 0 = 4 then some false
    else if s.zState 1 = 4 then some true
    else none

/-! ### Packets and flits (R358 to R360, R366) -/

/-- Class of a packet: CPL is a completion, every other KIND a request. -/
def pktIsCpl (p : Packet) : Bool := p.kind == 3

/-- A packet as bytes: the 16-byte header, the data and its padding (R366). MRD, RESET, PING and LINKSTATE carry no data. -/
def pktBytes (p : Packet) : List W8 :=
  let n := p.data.length
  [p.kind, BitVec.ofNat 8 (p.src.toNat + 4 * p.dst.toNat + 16 * b2n p.west)] ++ leBytes 2 p.tag.toNat ++
    leBytes 4 p.len.toNat ++ leBytes 8 p.arg.toNat ++ p.data ++ List.replicate ((4 - n % 4) % 4) 0

/-- Data bytes that follow a header of this KIND. -/
def kindData (kind len : Nat) : Nat := if kind = 1 ∨ kind = 3 ∨ kind = 4 ∨ kind = 5 ∨ kind = 6 then len else 0

/-- A packet read from the stream, and the bytes after it; none until it is whole. A zero word where a packet would start
is filler (DESIGN CHOICE, log entry 12). -/
def parsePacket (l : List W8) : Option (Packet × List W8) :=
  if l.length < 16 then none
  else
    let kind := (l.getD 0 0).toNat
    let route := (l.getD 1 0).toNat
    let len := leAt l 4 4
    let n := kindData kind (min len 4096)
    let whole := 16 + (n + 3) / 4 * 4
    if l.length < whole then none
    else
      let p : Packet := {
        kind := BitVec.ofNat 8 kind, src := BitVec.ofNat 2 route, dst := BitVec.ofNat 2 (route / 4)
        west := route / 16 % 2 == 1, resv := BitVec.ofNat 16 (route / 32 + 8 * (leAt l 2 2 / 1024))
        tag := BitVec.ofNat 10 (leAt l 2 2), len := BitVec.ofNat 32 len, arg := BitVec.ofNat 64 (leAt l 8 8)
        data := sliceB l 16 n }
      some (p, l.drop whole)

/-- Every whole packet of the stream, and what remains. -/
def parsePackets (l : List W8) : Nat → List Packet × List W8
  | 0 => ([], l)
  | fuel + 1 =>
    if 4 ≤ l.length ∧ l.take 4 = [0, 0, 0, 0] then parsePackets (l.drop 4) fuel
    else match parsePacket l with
      | none => ([], l)
      | some (p, rest) =>
        let (ps, r) := parsePackets rest fuel
        (p :: ps, r)

/-- Bytes cut into flit payloads of 244 bytes, the last one filled with zeros. -/
def chunk244 (l : List W8) : Nat → List (List W8)
  | 0 => []
  | fuel + 1 => match l with
    | [] => []
    | _ => padTo 244 (l.take 244) :: chunk244 (l.drop 244) fuel

/-- The header fields every flit carries: ACK of the last flit received in order and the credits given back (R358). -/
def ZLink.header (l : ZLink) : BitVec 10 × BitVec 2 × W8 × ZLink :=
  let ack : BitVec 10 := BitVec.ofNat 10 (l.rxSeq + 1023)
  if l.retCpl ≠ 0 then
    (ack, 1, BitVec.ofNat 8 (min l.retCpl 255), { l with retCpl := l.retCpl - min l.retCpl 255 })
  else (ack, 0, BitVec.ofNat 8 (min l.retReq 255), { l with retReq := l.retReq - min l.retReq 255 })

/-- HDR and PAYLOAD of a flit (R358). -/
def flitTypeCode : FlitType → Nat
  | .idle => 0
  | .data => 1
  | .nak => 2
  | .key => 3
def flitBody (f : Flit) : List W8 :=
  leBytes 4 (f.seq.toNat + f.ack.toNat * 2 ^ 10 + flitTypeCode f.type * 2 ^ 20 + f.cclass.toNat * 2 ^ 22 + f.ccount.toNat * 2 ^ 24) ++
    padTo 244 f.payload
/-- Keys are in use on a port (KEYED). -/
def State.keyed (s : State) (z : Nat) : Bool := s.rbit (Reg.CSC_PORT_STATE z) 4
/-- A flit with its CHECK: the CRC-64 before keys are in use; the tag after is the key's and is not computed (log entry 12). -/
def State.sealFlit (s : State) (z : Nat) (f : Flit) : Flit :=
  { f with check := if s.keyed z then Config.flitTag (2 * (s.link z).txKey + z) (flitBody f) else crc64 (flitBody f) }

/-- A sequenced flit is sent and kept for replay (R359). -/
def State.sendSeq (s : State) (z : Nat) (t : FlitType) (payload : List W8) : State :=
  let (ack, cls, cnt, l) := (s.link z).header
  let f := s.sealFlit z ⟨BitVec.ofNat 10 l.txSeq, ack, t, cls, cnt, payload, 0⟩
  (s.setLink z { l with txSeq := l.txSeq + 1, replay := l.replay ++ [f], txKeyUse := l.txKeyUse + 1 }).emit
    (.zFlit (z == 1) f)

/-- An IDLE or NAK flit is sent; it carries the unsequenced counter and the next SEQ to be used (R358, R359). -/
def State.sendUnseq (s : State) (z : Nat) (t : FlitType) : State :=
  let (ack, cls, cnt, l) := (s.link z).header
  let f := s.sealFlit z ⟨BitVec.ofNat 10 l.txSeq, ack, t, cls, cnt, padTo 244 (leBytes 8 l.idleTx), 0⟩
  (s.setLink z { l with idleTx := l.idleTx + 1 }).emit (.zFlit (z == 1) f)

/-- Credits a packet consumes (R360). -/
def pktCredits (p : Packet) : Nat := (16 + p.data.length + 255) / 256

/-- The packet may be sent now: credit of its class and room in the replay buffer. -/
def ZLink.canSend (l : ZLink) (p : Packet) : Bool :=
  decide (pktCredits p ≤ (if pktIsCpl p then l.crCpl else l.crReq)) &&
    decide (l.replay.length + ((pktBytes p).length + 243) / 244 ≤ 512)

/-- The first packet of the queue that can go: the head of its class (R360: completions never wait for request credits). -/
def ZLink.nextToSend (l : ZLink) : Option Packet :=
  let c := l.sendQ.find? fun p => pktIsCpl p
  let r := l.sendQ.find? fun p => !pktIsCpl p
  match c.filter l.canSend, r.filter l.canSend with
  | some p, _ => some p
  | none, q => q

/-- Packets leave the queue while they can. -/
def State.pump (s : State) (z : Nat) : Nat → State
  | 0 => s
  | fuel + 1 =>
    let l := s.link z
    match l.nextToSend with
    | none => s
    | some p =>
      let l := { l with sendQ := l.sendQ.erase p }
      let l := if pktIsCpl p then { l with crCpl := l.crCpl - pktCredits p } else { l with crReq := l.crReq - pktCredits p }
      let s := s.setLink z l
      ((chunk244 (pktBytes p) ((pktBytes p).length + 1)).foldl (fun s c => s.sendSeq z .data c) s).pump z fuel

/-- A packet goes out of a port. An UP port carries every packet; a DEGRADED one only PING and its answer (R362). -/
def State.sendPkt (s : State) (z : Nat) (p : Packet) (ping : Bool) : State :=
  if s.zState z = 3 ∨ (s.zState z = 4 ∧ ping) then
    let l := s.link z
    let l := { l with sendQ := l.sendQ ++ [p] }
    (s.setLink z l).pump z l.sendQ.length
  else s

/-! ### Requests (R368, R371, R373) -/

/-- The lowest tag neither outstanding nor in quarantine. -/
def State.freeTag (s : State) : Option Nat :=
  (List.range 1024).find? fun t => !(s.csc.reqs.any fun r => r.tag == t) && !(s.csc.quar.contains t)

/-- The packet of a request. -/
def State.reqPacket (s : State) (r : CscReq) : Packet :=
  { kind := BitVec.ofNat 8 r.kind, src := BitVec.ofNat 2 s.pos, dst := BitVec.ofNat 2 r.dst, west := r.west, resv := 0
    tag := BitVec.ofNat 10 r.tag, len := BitVec.ofNat 32 r.len, arg := BitVec.ofNat 64 r.arg, data := r.data }

/-- A request is issued on its route and held outstanding: its tag, or none when it fails at once: without a route
(NOROUTE, R373), or with none of the 1,024 tags free (R47; DESIGN CHOICE, log entry 87). -/
def State.cscIssue (s : State) (dst kind arg len : Nat) (data : List W8) (use : CscUse) : Option Nat × State :=
  match (if kind = 8 then s.pingRoute dst else s.route dst), s.freeTag with
  | some west, some t =>
    let r : CscReq := ⟨t, dst, west, kind, arg, len, data, use, false⟩
    let s := { s with csc := { s.csc with reqs := s.csc.reqs ++ [r] } }
    (some t, s.sendPkt (b2n west) (s.reqPacket r) (kind == 8))
  | _, _ => (none, s)

/-- A store to a cascade window failed (R368): STORE_FAIL sets and CSC_FAIL takes the address if it is empty. -/
def State.storeFail (s : State) (dst off : Nat) : State :=
  let empty := !(s.rbit Reg.CSC_STATUS 9)
  let s := s.orReg Reg.CSC_STATUS (bit 9)
  if empty then s.setReg64 Reg.CSC_FAIL_LO (0x030000000000 + dst * 0x001000000000 + off) else s

/-- The status of a message send port (R371): 0 delivered, 1 pending, 2 failed, 3 unknown. -/
def State.setMsgStat (s : State) (p st : Nat) : State := s.setFld (Reg.CSC_MSG_SEND p) 0 2 st

/-- A part's STATE field changes (R375). -/
def State.setPartState (s : State) (n st : Nat) : State :=
  if s.fld (Reg.CSC_PART_STATE n) 0 2 = st then s
  else (s.setFld (Reg.CSC_PART_STATE n) 0 2 st).orReg Reg.CSC_STATUS (bit 7)

/-- The position that the ring requires of the neighbour on a port; none when an Outpost does not know N (R363). -/
def State.wantPos (s : State) (z : Nat) : Option Nat :=
  if !s.isBase && !s.csc.sizeKnown then none
  else some (if z = 0 then (s.pos + 1) % max s.ringN 1 else (s.pos + max s.ringN 1 - 1) % max s.ringN 1)
/-- The neighbour that a port faces. -/
def State.neighbour (s : State) (z : Nat) : Nat := (s.wantPos z).getD (s.fld (Reg.CSC_PORT_STATE z) 5 2)
/-- The port that faces a part refuses it (R375). -/
def State.refuses (s : State) (n : Nat) : Bool := [0, 1].any fun z => s.neighbour z == n && s.zState z == 5

/-- A ping of a part has failed: three in a row make it ABSENT (R375). -/
def State.pingFailed (s : State) (n : Nat) : State :=
  let k := smGet (fun _ => 0) s.csc.missed n + 1
  let s := { s with csc := { s.csc with missed := smPut (fun _ => 0) s.csc.missed n k } }
  if 3 ≤ k ∧ !s.refuses n then s.setPartState n 2 else s

/-- A thread. -/
def State.thr (s : State) (p : Nat) : Thread := smGet (fun _ => Thread.reset) s.thrs p
/-- A thread set. -/
def State.setThr (s : State) (p : Nat) (t : Thread) : State :=
  { s with thrs := smPut (fun _ => Thread.reset) s.thrs p t }

/-- Exception entry (R65, R68): the saved status, pc, cause and address, PRIV = 1, IE = 0, EXL = 1, and the vector. -/
def Thread.enterExc (t : Thread) (cause trap : Nat) (epc eaddr : W64) : Thread :=
  { t with
    estat := t.status
    status := 5
    epc := epc
    ecause := BitVec.ofNat 64 (cause + trap * 2 ^ 16)
    eaddr := eaddr
    wait := .none
    pc := t.vbase + BitVec.ofNat 64 ((cause - 1) * 0x40) }

/-- The run bit of a thread in SYS_CAMPn_RUN (R63). -/
def State.runBit (s : State) (p : Nat) : Bool := s.rbit (Reg.SYS_CAMP_RUN (p / 32)) (p % 32)
/-- The run bit set or cleared by hardware. -/
def State.setRunBit (s : State) (p : Nat) (b : Bool) : State := s.setFld (Reg.SYS_CAMP_RUN (p / 32)) (p % 32) 1 (b2n b)

/-- s.tid of a thread (R30). -/
def State.tid (s : State) (p : Nat) : Nat :=
  p + p / 32 * 256 + s.pos * 2048 + b2n s.posValid * 8192

/-- A synchronous exception is taken, or with EXL = 1 halts the thread and is recorded (R69). -/
def State.takeExc (s : State) (p cause trap : Nat) (epc eaddr : W64) : State :=
  let t := s.thr p
  if t.status.getLsbD 2 then
    ((s.setRunBit p false).setThr p { t with wait := .none, halting := false }).hwRecord 7 0 0x10
      (leBytes 2 (s.tid p) ++ leBytes 1 cause ++ List.replicate 5 0 ++ leBytes 8 eaddr.toNat)
  else s.setThr p (t.enterExc cause trap epc eaddr)

/-- A general register; g0 reads as 0 (R28). -/
def Thread.getG (t : Thread) (r : Nat) : W64 := if r = 0 then 0 else smGet (fun _ => 0) t.g r
/-- A general register written; writes to g0 are discarded (R28). -/
def Thread.setG (t : Thread) (r : Nat) (v : W64) : Thread :=
  if r = 0 then t else { t with g := smPut (fun _ => 0) t.g r v }

/-- A load's value from its little-endian bytes. -/
def loadValue (bytes : List W8) (signed : Bool) : W64 :=
  if signed then sext64 (8 * bytes.length) (ofLe bytes) else BitVec.ofNat 64 (ofLe bytes)

/-- A halt written while an instruction was under way takes effect at the boundary now reached (R63). -/
def State.boundary (s : State) (p : Nat) : State :=
  if (s.thr p).halting then (s.setRunBit p false).setThr p { s.thr p with halting := false } else s

/-- Cache maintenance of the thread is held (R389). -/
def State.maintBusy (s : State) (p : Nat) : Bool := s.mem.hold.any fun h => h.thr == p

/-- The thread has accesses that a fence waits for: cascade stores outstanding or held cache maintenance (R52). -/
def State.fenceBusy (s : State) (p : Nat) : Bool :=
  (s.csc.reqs.any fun r => r.use == .store p) || s.maintBusy p

/-- What a fence of either kind waits for is still under way. -/
def State.fenceHeld (s : State) (p : Nat) (io : Bool) : Bool := if io then s.maintBusy p else s.fenceBusy p

/-- A thread held at a fence goes on once nothing holds it (R47, R52). -/
def State.fenceWake (s : State) (p : Nat) : State :=
  let t := s.thr p
  match t.wait with
  | .fence adv io =>
    if s.fenceHeld p io then s
    else if adv then s.setThr p { t with wait := .none, pc := t.pc + 4, retired := t.retired + 1 }
    else s.setThr p { t with wait := .none }
  | _ => s

/-- A load from a cascade window ends: with data, the register is written and the thread goes on; without, the memory
error of R47 is raised. The completion of a request that the thread no longer waits for is dropped. -/
def State.cascLoadEnd (s : State) (p tag : Nat) (data : Option (List W8)) (win : Nat) : State :=
  let t := s.thr p
  match t.wait with
  | .casc k rd n signed =>
    if k ≠ tag then s
    else match data with
    | some d => (s.setThr p { (t.setG rd (loadValue (padTo n d) signed)) with
        wait := .none, pc := t.pc + 4, retired := t.retired + 1 }).boundary p
    | none => (s.takeExc p 5 0 t.pc (BitVec.ofNat 64 win)).boundary p
  | .micro cx rd ra rb word m =>
    match m.load with
    | some (k, n, signed) =>
      if k ≠ tag then s
      else match data with
      | some d =>
        s.setThr p { t with wait := .micro cx rd ra rb word { m with mdr := loadValue (padTo n d) signed, load := none } }
      | none => (s.takeExc p 5 0 t.pc (BitVec.ofNat 64 win)).boundary p
    | none => s
  | _ => s

/-- What a DMA channel keeps of a remote transfer is told through this place in State: the channel's remote results, taken
up by the next DMA_BEAT (R368). -/
def State.dmaRemoteEnd (s : State) (c : Nat) (arg : Nat) (data : Option (List W8 × Bool)) : State :=
  { s with dmaRemote := s.dmaRemote ++ [(c, arg, data)] }

/-- The relay to a part has failed (R486). -/
def relayFail (m : SMap Relay) (n : Nat) : SMap Relay :=
  match smFind m n with
  | some r => smSet m n { r with st := 2 }
  | none => m

/-- A request fails (R368): by timeout, by REFUSED and its like, or by the loss of its path. `unknown` is the status of a
message whose path broke (R374). -/
def State.reqFailed (s : State) (r : CscReq) (unknown : Bool) : State :=
  match r.use with
  | .load p => s.cascLoadEnd p r.tag none (0x030000000000 + r.dst * 0x001000000000 + r.arg)
  | .store p => (s.storeFail r.dst r.arg).fenceWake p
  | .dma c => s.dmaRemoteEnd c r.arg none
  | .msg p => s.setMsgStat p (if unknown then 3 else 2)
  | .ping => s.pingFailed r.dst
  | .relay => if r.kind = 4 then { s with fw := { s.fw with relays := relayFail s.fw.relays r.dst } } else s
  | .reset => s
  | .dbg load => if load then s.emit (.dbg 3 []) else s.storeFail r.dst r.arg

/-- The request leaves the outstanding ones. -/
def State.dropReq (s : State) (t : Nat) : State :=
  { s with csc := { s.csc with reqs := s.csc.reqs.filter fun r => r.tag != t } }
/-- A tag enters quarantine (R368). -/
def State.quarantine (s : State) (t : Nat) : State := { s with csc := { s.csc with quar := s.csc.quar ++ [t] } }

/-- R374 for one outstanding request whose path crosses a segment that is no longer usable. -/
def State.reroute (s : State) (r : CscReq) : State :=
  if (s.pathSegs r.dst r.west).all s.segUsable then s
  else if r.kind = 1 ∨ r.kind = 2 ∨ r.kind = 8 then
    let s := (s.dropReq r.tag).quarantine r.tag
    if r.again then s.reqFailed r false
    else match s.route r.dst, s.freeTag with
      | some west, some t =>
        let r' := { r with tag := t, west := west, again := true }
        let s := { s with csc := { s.csc with reqs := s.csc.reqs ++ [r'] } }
        let s := match r.use with
          | .load p => let th := s.thr p
            match th.wait with
            | .casc _ rd n sg => s.setThr p { th with wait := .casc t rd n sg }
            | .micro cx rd ra rb w m =>
              s.setThr p { th with wait := .micro cx rd ra rb w { m with load := m.load.map fun (l : Nat × Nat × Bool) => (t, l.2) } }
            | _ => s
          | _ => s
        s.sendPkt (b2n west) (s.reqPacket r') (r.kind == 8)
      | _, _ => s.reqFailed r false
  else ((s.dropReq r.tag).quarantine r.tag).reqFailed r true

/-- R374 for every outstanding request, in issue order. -/
def State.rerouteAll (s : State) : State := s.csc.reqs.foldl (fun s r => s.reroute r) s

/-- This part's LINKSTATE for one of its segments, on every UP port (R372). -/
def State.sendLinkState (s : State) (seg : Nat) (usable : Bool) : State :=
  let s := { s with csc := { s.csc with seqn := s.csc.seqn + 1 } }
  let size := if s.isBase then s.ringN else 0
  let arg := seg + (if usable then 0 else 256) + size * 2 ^ 16 + (s.csc.seqn % 65536) * 2 ^ 32
  [0, 1].foldl (fun s z =>
    if s.zState z = 3 then
      let p : Packet := { kind := 9, src := BitVec.ofNat 2 s.pos, dst := BitVec.ofNat 2 s.pos, west := z == 1, resv := 0
                          tag := 0, len := 0, arg := BitVec.ofNat 64 arg, data := [] }
      s.sendPkt z p false
    else s) s

/-- A segment's usable flag changes (R372, R374). -/
def State.setSeg (s : State) (g : Nat) (u : Bool) : State :=
  if s.segUsable g = u then s
  else
    let s := (s.setFld Reg.CSC_SEGMAP g 1 (b2n u)).orReg Reg.CSC_STATUS (bit 6)
    if u then s else s.rerouteAll

/-- A port changes state (R361 to R363): the change is flagged, a port entering or leaving UP changes its segment and tells
the other parts, and a port that leaves UP and DEGRADED loses its link layer. -/
def State.setZState (s : State) (z st : Nat) : State :=
  let old := s.zState z
  if old = st then s
  else
    let s := (s.setFld (Reg.CSC_PORT_STATE z) 0 4 st).orReg Reg.CSC_STATUS (if z = 0 then bit 4 else bit 5)
    let s := if st = 3 ∨ st = 4 ∨ st = 2 then s else (s.setLink z ZLink.reset).setFld (Reg.CSC_PORT_STATE z) 4 1 0
    if (old = 3) = (st = 3) then s
    else (s.setSeg (s.segOf z) (st == 3)).sendLinkState (s.segOf z) (st == 3)

/-- A port's enable bit decides whether it trains (R357, R361). A Basecamp alone in its ring keeps its ports DISABLED (R350), and
a REFUSED port stays so (R363). -/
def State.zEnable (s : State) (z : Nat) (on : Bool) : State :=
  if on then (if (s.zState z = 0 ∧ !(s.isBase && decide (s.ringN ≤ 1))) ∨ s.zState z = 6 then s.setZState z 1 else s)
  else if s.zState z = 0 ∨ s.zState z = 5 then s else s.setZState z 0

/-- R361: the port goes DOWN, then trains again while its enable bit is set. -/
def State.zDown (s : State) (z : Nat) : State :=
  let s := s.setZState z 6
  if s.rbit Reg.CSC_CTRL (1 + z) then s.setZState z 1 else s

/-- CSC_CTRL written: the enable bits train or stop the ports. -/
def State.cscCtrlWritten (s : State) : State :=
  (s.zEnable 0 (s.rbit Reg.CSC_CTRL 1)).zEnable 1 (s.rbit Reg.CSC_CTRL 2)

/-! ### Engine accesses to the windows (R9, R369) -/

/-- An engine load from the window of another part: one MRD. The answer is the tag, or none when it fails at once. -/
def State.cascLoad (s : State) (p n off w : Nat) : Option Nat × State := s.cscIssue n 2 off w [] (.load p)
/-- An engine store to the window of another part: one MWR; a store without a route fails at once. -/
def State.cascStore (s : State) (p n off : Nat) (l : List W8) : State :=
  match s.cscIssue n 1 off l.length l (.store p) with
  | (some _, s) => s
  | (none, s) => s.storeFail n off

/-! ### Sideband (R351 to R354) -/

/-- What a received sideband low pulse of `us` µs is (R351). -/
inductive SbEvent where
  | east (v : Nat)
  | west (v : Nat)
  | wake
  | reset
  deriving DecidableEq, Repr
/-- The classes of R351; a pulse of any other width is ignored. -/
def sbClass (us : Nat) : Option SbEvent :=
  if 2000 ≤ us then some .reset
  else if 180 ≤ us ∧ us ≤ 220 then some .wake
  else match (List.range 9).find? fun c => decide (1 ≤ c) && decide (10 * c ≤ us + 3) && decide (us ≤ 10 * c + 3) with
    | some c => if c ≤ 4 then some (.east c) else some (.west (8 - c))
    | none => none

/-- A sideband low pulse. -/
def State.sbPulse (s : State) (west : Bool) (us : Nat) : State := s.emit (.sideband west us)

/-- CSC_SB.WAKE: one WAKE on both ports (R352). -/
def State.sbWakeBoth (s : State) : State := (s.sbPulse false 200).sbPulse true 200

/-- CSC_SB.RC_GO on the Basecamp: an east offer of position 1 on ZE_SB (R354). The bit reads 1 until RC_DONE. -/
def State.startRollCall (s : State) : State :=
  if s.isBase then
    { ((s.orReg Reg.CSC_SB (bit 0)).sbPulse false 10) with
      csc := { s.csc with rollCall := true, rcClosed := false } }
  else s.clrReg Reg.CSC_SB (bit 0)

/-- A write of CSC_SB (R352, R354, R378): each bit written 1 starts its operation. WAKE and the sideband resets are sent
within the command and their bits end at 0. -/
def State.writeSb (s : State) (v : W32) : State :=
  let s := if tb v 1 then s.sbWakeBoth else s
  let s := if tb v 2 then s.sbPulse false 2500 else s
  let s := if tb v 3 then s.sbPulse true 2500 else s
  if tb v 0 then s.startRollCall else s

/-- A write of CSC_RESET (R378): on the Basecamp a RESET of the MODE goes to each target position; on an Outpost nothing
happens (R378). -/
def State.writeCscReset (s : State) (v : W32) : State :=
  if s.isBase then
    [1, 2, 3].foldl (fun s n =>
      if tb v n then (s.cscIssue n 7 (getF v 4 1) 0 [] .reset).2 else s) s
  else s

/-- A write of CSC_PORTx_CTRL (R362, R363). -/
def State.writeZCtrl (s : State) (z : Nat) (v : W32) : State :=
  let s := if tb v 1 ∧ s.zState z = 5 then s.setZState z (b2n (s.rbit Reg.CSC_CTRL (1 + z))) else s
  if tb v 0 ∧ s.zState z = 4 then s.setZState z 3 else s

/-- A write of CSC_MSGp_SEND by its own thread (R371). -/
def State.writeMsgSend (s : State) (p : Nat) (v : W32) : State :=
  let w0 := s.reg64 (Reg.CSC_MSG_W p 0)
  let w1 := s.reg64 (Reg.CSC_MSG_W p 2)
  let dst := getF v 0 2
  let (kind, data) := if tb v 4 then (5, leBytes 4 w0) else (4, leBytes 8 w0 ++ leBytes 8 w1)
  match s.cscIssue dst kind 0 data.length data (.msg p) with
  | (some _, s) => s.setMsgStat p 1
  | (none, s) => s.setMsgStat p 2

/-- Pings due: the Basecamp pings every numbered part, an Outpost pings position 0 (R375). -/
def State.pingAll (s : State) : State :=
  let targets := if s.isBase then (List.range s.ringN).filter (· != 0) else if s.posValid then [0] else []
  targets.foldl (fun s n =>
    match s.cscIssue n 8 0 0 [] .ping with
    | (some _, s) => s
    | (none, s) => s.pingFailed n) s

end Sys2Proof.Machine
end

