-- ==== Sys2Proof/Machine/Operands.lean ====
section
/-! DEFINITION. Operand forms of the engines: instruction words, immediates, effective addresses and the checks of an
access before it is performed (R31, R33, R40, R41, R64, R66). -/

namespace Sys2Proof.Machine

/-! ### Instruction words (R31) -/

/-- A word of format A. -/
def wordA (op : Nat) (rd ra rb : R5) (fn : Nat) : W32 :=
  BitVec.ofNat 32 (op * 2 ^ 26 + rd.toNat * 2 ^ 21 + ra.toNat * 2 ^ 16 + rb.toNat * 2 ^ 11 + fn)
/-- A word of format I or M. -/
def wordI (op : Nat) (rd ra : R5) (imm : W16) : W32 :=
  BitVec.ofNat 32 (op * 2 ^ 26 + rd.toNat * 2 ^ 21 + ra.toNat * 2 ^ 16 + imm.toNat)
/-- A word of format B. -/
def wordB (op : Nat) (pr : BitVec 3) (cond : BitVec 2) (off : BitVec 21) : W32 :=
  BitVec.ofNat 32 (op * 2 ^ 26 + pr.toNat * 2 ^ 23 + cond.toNat * 2 ^ 21 + off.toNat)
/-- A word of format X. -/
def wordX (rd ra rb : R5) (cx : BitVec 4) (fn : BitVec 7) : W32 :=
  BitVec.ofNat 32 (0x3F * 2 ^ 26 + rd.toNat * 2 ^ 21 + ra.toNat * 2 ^ 16 + rb.toNat * 2 ^ 11 + cx.toNat * 2 ^ 7 + fn.toNat)

/-- The fields of a word (R31): op, rd, ra, rb, fn, imm16, pr, cond, off21, cx, fn[6:0] of format X. -/
def wOp (w : W32) : Nat := getF w 26 6
def wRd (w : W32) : R5 := BitVec.ofNat 5 (getF w 21 5)
def wRa (w : W32) : R5 := BitVec.ofNat 5 (getF w 16 5)
def wRb (w : W32) : R5 := BitVec.ofNat 5 (getF w 11 5)
def wFn (w : W32) : F11 := BitVec.ofNat 11 (getF w 0 11)
def wImm (w : W32) : W16 := BitVec.ofNat 16 (getF w 0 16)
def wPr (w : W32) : BitVec 3 := BitVec.ofNat 3 (getF w 23 3)
def wCond (w : W32) : BitVec 2 := BitVec.ofNat 2 (getF w 21 2)
def wOff (w : W32) : BitVec 21 := BitVec.ofNat 21 (getF w 0 21)
def wCx (w : W32) : BitVec 4 := BitVec.ofNat 4 (getF w 7 4)
def wFx (w : W32) : BitVec 7 := BitVec.ofNat 7 (getF w 0 7)

/-- Bytes of an access width. -/
def widthBytes : Width → Nat
  | .b1 => 1
  | .b2 => 2
  | .b4 => 4
  | .b8 => 8
/-- sext(imm16). -/
def simm (imm : W16) : W64 := imm.signExtend 64
/-- zext(imm16). -/
def zimm (imm : W16) : W64 := imm.setWidth 64

/-! ### Exceptions before an access (R65, R66) -/

/-- A synchronous exception an instruction meets: cause, trap code, whether s.epc is the next instruction, s.eaddr. -/
structure Exc where
  cause : Nat
  trap : Nat
  next : Bool
  eaddr : W64
  deriving DecidableEq, Repr

/-- Illegal instruction (cause 0x01). -/
def excIllegal (w : W32) : Exc := ⟨1, 0, false, w.setWidth 64⟩
/-- Privilege fault (0x02). -/
def excPriv (a : W64) : Exc := ⟨2, 0, false, a⟩
/-- Access fault (0x03). -/
def excAccess (a : W64) : Exc := ⟨3, 0, false, a⟩
/-- Alignment fault (0x04). -/
def excAlign (a : W64) : Exc := ⟨4, 0, false, a⟩
/-- Memory error (0x05). -/
def excMem (a : W64) : Exc := ⟨5, 0, false, a⟩

/-- The exception taken by thread `p` at its present instruction. -/
def State.raise (s : State) (p : Nat) (e : Exc) : State :=
  let t := s.thr p
  s.takeExc p e.cause e.trap (if e.next then t.pc + 4 else t.pc) e.eaddr

/-- The first exception of a list of checks. -/
def firstExc (l : List (Option Exc)) : Option Exc := l.findSome? id

/-- A check: the exception when the condition holds. -/
def excIf (b : Bool) (e : Exc) : Option Exc := if b then some e else none

/-! ### Places an effective address names (R14 to R19, R40) -/

/-- The local address that an offset in this part's own window reaches (R17, R369). -/
def State.ownWindow (s : State) (off : Nat) : Place :=
  if off < 2 ^ 34 then s.place0 off
  else if 0x400000000 ≤ off ∧ off < 0x401000000 then s.place0 (0x010000000000 + (off - 0x400000000))
  else if 0x800000000 ≤ off ∧ off < 0x800130000 then .reg (off - 0x800000000)
  else .hole

/-- The offset lies in the populated part of another part's window (R369). -/
def windowPopulated (off : Nat) : Bool :=
  decide (off < 2 ^ 34) || (decide (0x400000000 ≤ off) && decide (off < 0x401000000)) ||
    (decide (0x800000000 ≤ off) && decide (off < 0x800130000))

/-- What an effective address names; the own window is known once the position is valid (R17). -/
def State.resolve (s : State) (ea : W64) : Place :=
  if ea.toNat / 2 ^ 48 ≠ 0 then .hole
  else match s.place0 ea.toNat with
    | .casc n off =>
      if s.posValid && n == s.pos then s.ownWindow off else if windowPopulated off then .casc n off else .hole
    | q => q

/-- The address lies in the register-space region itself (R41). -/
def inRegRegion (ea : W64) : Bool := decide (0x020000000000 ≤ ea.toNat) && decide (ea.toNat < 0x020000130000)

/-- The access lies in the thread's own engine's local data RAM. -/
def inOwnRam (p : Nat) (ea : W64) (w : Nat) : Bool :=
  decide (0x010000000000 + p / 4 * 0x10000 ≤ ea.toNat) &&
    decide (ea.toNat + w ≤ 0x010000000000 + p / 4 * 0x10000 + 0x8000)

/-- The thread runs at the privileged level (R64). -/
def Thread.priv (t : Thread) : Bool := t.status.getLsbD 0

/-- A place in the register space. -/
def Place.isReg : Place → Bool
  | .reg _ => true
  | _ => false

/-- R64 at the task level: outside the window and the own RAM, or in the register space (R27). -/
def State.taskDenied (s : State) (p : Nat) (ea : W64) (w : Nat) : Bool :=
  let t := s.thr p
  !t.priv && ((s.resolve ea).isReg ||
    !((decide (t.tlo.toNat ≤ ea.toNat) && decide (ea.toNat + w ≤ t.thi.toNat)) || inOwnRam p ea w))

/-- The exceptions of a load or store that are known before it is performed, in the order of R66; no camp has a role of its own (R10). -/
def State.accessExc (s : State) (p : Nat) (ea : W64) (w : Nat) : Option Exc :=
  firstExc [excIf (s.taskDenied p ea w) (excPriv ea),
    excIf (!inRegRegion ea && decide (ea.toNat % w ≠ 0)) (excAlign ea),
    match s.resolve ea with
    | .hole | .host _ => some (excAccess ea)
    | _ => none]

/-- The same for an AMO, which is permitted on DRAM and local data RAM only (R51). The part's own cascade window is another
region (DESIGN CHOICE, log entry 46). -/
def State.amoExc (s : State) (p : Nat) (ea : W64) (w : Nat) : Option Exc :=
  firstExc [excIf (s.taskDenied p ea w) (excPriv ea),
    excIf (!inRegRegion ea && decide (ea.toNat % w ≠ 0)) (excAlign ea),
    if ea.toNat / 2 ^ 48 ≠ 0 then some (excAccess ea)
    else match s.place0 ea.toNat with
      | .dram _ => none
      | .sram off => excIf (!inLocalRam off) (excAccess ea)
      | _ => some (excAccess ea)]

/-! ### Fetch (R42, R48) -/

/-- The exception of a fetch from a region that holds no instructions (R42). The part's own cascade window is such a region
(DESIGN CHOICE, log entry 46). -/
def State.fetchExc (s : State) (pc : W64) : Option Exc :=
  if pc.toNat / 2 ^ 48 ≠ 0 then some (excAccess pc)
  else match s.place0 pc.toNat with
    | .dram _ => none
    | .sram off => excIf (!inLocalRam off) (excAccess pc)
    | _ => some (excAccess pc)

/-- The instruction-cache set of an address: 128 sets of two 64-byte lines. -/
def icKey (p : Nat) (a : Nat) : Nat := p / 4 * 128 + a / 64 % 128
/-- The lines an instruction-cache set holds. -/
def State.icSet (s : State) (k : Nat) : List IcLine := smGet (fun _ => []) s.ic k
/-- A set changed. -/
def State.setIc (s : State) (k : Nat) (l : List IcLine) : State := { s with ic := smPut (fun _ => []) s.ic k l }
/-- The words of the line that holds address `a`, if thread `p`'s engine has it in its instruction cache. -/
def State.icLine (s : State) (p a : Nat) : Option (List W32) :=
  ((s.icSet (icKey p a)).find? fun l => l.line == a / 64).map (·.words)

/-- A line read from memory, `n` of its 64-bit words from address `a` on: the instruction words, whether each 64-bit word
was delivered uncorrectable, and the state after the reads. -/
def State.readLine (s : State) (a : Nat) : Nat → List W32 × List Bool × State
  | 0 => ([], [], s)
  | n + 1 =>
    let (l, ue, s) := s.memRead a 8
    let (ws, us, s) := s.readLine (a + 8) n
    (BitVec.ofNat 32 (leAt l 0 4) :: BitVec.ofNat 32 (leAt l 4 4) :: ws, ue :: us, s)

/-- A line enters a set of an instruction cache; the line replaced in a full set is a free choice. -/
def State.icFill (s : State) (k : Nat) (l : IcLine) : State :=
  if (s.icSet k).length < 2 then s.setIc k (s.icSet k ++ [l])
  else
    let (v, s) := s.freeNat 1
    s.setIc k ((s.icSet k).eraseIdx v ++ [l])

/-- The fetch of the instruction at `pc`: its word, or none when its 64-bit word is uncorrectable (R48). A hit needs no
memory; a miss reads the line, and a line with any word uncorrectable is not kept (DESIGN CHOICE, log entry 77). -/
def State.fetch (s : State) (p : Nat) (pc : W64) : Option W32 × State :=
  let a := pc.toNat
  match s.icLine p a with
  | some ws => (some (ws.getD (a / 4 % 16) 0), s)
  | none =>
    let (ws, us, s) := s.readLine (a / 64 * 64) 8
    if us.getD (a / 8 % 8) false then (none, s)
    else
      let s := if us.any id then s else s.icFill (icKey p a) ⟨a / 64, ws⟩
      (some (ws.getD (a / 4 % 16) 0), s)

/-! ### Interrupts (R30, R67) -/

/-- s.ipend (R30): INBOX, CAMPQ, TIMER. -/
def State.ipend (s : State) (p : Nat) : Nat :=
  let t := s.thr p
  b2n (!t.inbox.isEmpty) + 2 * b2n (!(smGet (fun _ => []) s.campQ (p / 32)).isEmpty) +
    4 * b2n (decide (t.tmr ≠ 0) && decide (t.tmr.toNat ≤ s.sTime))

/-- s.ipend & s.imask. -/
def State.irqBits (s : State) (p : Nat) : Nat := s.ipend p &&& (s.thr p).imask.toNat % 8

/-- An interrupt is pending and enabled (R67). -/
def State.irqNow (s : State) (p : Nat) : Bool :=
  (s.thr p).status.getLsbD 1 && !(s.thr p).status.getLsbD 2 && decide (s.irqBits p ≠ 0)

/-- The interrupt is taken; during WAIT, s.epc is the address of the WAIT (R59, R67). -/
def State.takeIrq (s : State) (p : Nat) : State :=
  let t := s.thr p
  s.setThr p (t.enterExc 8 0 t.pc (BitVec.ofNat 64 (s.irqBits p)))

/-! ### Issue -/

/-- The thread issues: its run bit is 1, it does not wait, the debug port has not halted it or has asked for one
instruction (R464), and the engines are not clock-gated (R419). -/
def State.canRun (s : State) (p : Nat) : Bool :=
  s.runBit p && decide ((s.thr p).wait = .none) && (!(s.thr p).dbg || (s.thr p).step) && decide (s.pwr.st < 2)

/-- The thread goes on to the next instruction. -/
def Thread.adv (t : Thread) : Thread := { t with pc := t.pc + 4, retired := t.retired + 1 }
/-- The same in the state. -/
def State.adv (s : State) (p : Nat) : State := s.setThr p (s.thr p).adv
/-- A register written and the thread gone on. -/
def State.advG (s : State) (p rd : Nat) (v : W64) : State := s.setThr p ((s.thr p).setG rd v).adv
/-- A predicate register written; p0 reads 1 and writes to it are discarded (R28). -/
def Thread.setP (t : Thread) (n : Nat) (b : Bool) : Thread :=
  if n = 0 then t
  else { t with pred := if b then t.pred ||| BitVec.ofNat 8 (2 ^ n) else t.pred &&& ~~~ BitVec.ofNat 8 (2 ^ n) }
/-- A predicate register. -/
def Thread.getP (t : Thread) (n : Nat) : Bool := n == 0 || t.pred.getLsbD n
/-- A predicate written and the thread gone on. -/
def State.advP (s : State) (p n : Nat) (b : Bool) : State := s.setThr p ((s.thr p).setP n b).adv

/-- A single step asked for by the debug port is used up (R464). -/
def State.stepTaken (s : State) (p : Nat) : State :=
  if (s.thr p).step then s.setThr p { s.thr p with step := false } else s

end Sys2Proof.Machine
end

