-- ==== Sys2Proof/Machine/Msg.lean ====
section
/-! DEFINITION. Messages: inboxes, camp queues and the destinations of R57. -/

namespace Sys2Proof.Machine

/-- A camp queue. -/
def State.queue (s : State) (c : Nat) : List Msg := smGet (fun _ => []) s.campQ c
/-- A camp queue set. -/
def State.setQueue (s : State) (c : Nat) (q : List Msg) : State := { s with campQ := smPut (fun _ => []) s.campQ c q }

/-- Entries of a camp queue and messages of an inbox (R56). -/
def queueSize : Nat := 64
def inboxSize : Nat := 8

/-- The destination of R57: a thread's inbox (`inl`) or a camp queue (`inr`); none when it does not exist. -/
def msgDest (ra : Nat) : Option (Nat ⊕ Nat) :=
  if natF ra 8 3 = 0 then (if natF ra 0 6 < 48 then some (.inl (natF ra 0 6 * 4 + natF ra 6 2)) else none)
  else if natF ra 8 3 = 1 then (if natF ra 0 3 < 6 then some (.inr (natF ra 0 3)) else none)
  else none

/-- A message sent to the destination in `ra`: the status of R57 and the state after. -/
def State.sendMsg (s : State) (ra : Nat) (m : Msg) : Nat × State :=
  match msgDest ra with
  | none => (2, s)
  | some (.inl p) =>
    if (s.thr p).inbox.length < inboxSize then (0, s.setThr p { s.thr p with inbox := (s.thr p).inbox ++ [m] })
    else (1, s)
  | some (.inr c) => if (s.queue c).length < queueSize then (0, s.setQueue c (s.queue c ++ [m])) else (1, s)

/-- The sender number of a block (R58). -/
def blockSrc (b : Nat) : Nat := 0x100 + b

/-- The camps named by a mask, in rotation after the camp used last (R62). -/
def rotation (mask last : Nat) : List Nat :=
  ((List.range 6).map fun i => (last + 1 + i) % 6).filter fun c => mask.testBit c

/-- A block's message goes to the first camp of the rotation that has room; none when every queue is full (R62). -/
def State.tryPost (s : State) (h : HeldMsg) : Option State :=
  match (rotation h.mask (smGet (fun _ => 5) s.rot h.block)).find? (fun c => (s.queue c).length < queueSize) with
  | some c => some (({ s with rot := smSet s.rot h.block c }).setQueue c (s.queue c ++ [h.msg]))
  | none => none

/-- A block's message is delivered, or waits for room, and none is lost (R62). A message already waiting for the same
block keeps its order. -/
def State.post (s : State) (h : HeldMsg) : State :=
  if s.heldMsgs.any fun x => x.block == h.block then { s with heldMsgs := s.heldMsgs ++ [h] }
  else match s.tryPost h with
    | some s => s
    | none => { s with heldMsgs := s.heldMsgs ++ [h] }

end Sys2Proof.Machine
end

