-- ==== Sys2Proof/Machine/Keys.lean ====
section
/-! DEFINITION. The media key slots and their wrapping (R471, R472). -/

namespace Sys2Proof.Machine

/-- The key slots set; SEC_KSLOT shows which are full. -/
def State.setSlots (s : State) (m : SMap (BitVec 512)) : State :=
  ({ s with sec := { s.sec with slots := m } }).setReg64 Reg.SEC_KSLOT_LO (m.foldl (fun (a : Nat) (e : Nat × BitVec 512) => a ||| 2 ^ e.1) 0)
/-- One key slot filled. -/
def State.setKeySlot (s : State) (n : Nat) (k : BitVec 512) : State := s.setSlots (smSet s.sec.slots n k)

/-- The index of the newest programmed EPOCH slot; slot 0 is the factory's (R450). -/
def State.epochIx (s : State) : Nat := s.sec.epochs.length
/-- The newest EPOCH salt. -/
def State.epochSalt (s : State) : BitVec 256 := s.sec.epochs.getLastD Config.epoch0

/-- The media wrap key: HKDF from UDS, salt the newest EPOCH, info "GX8 MEDIA v1" (R471). -/
def State.mediaKek (s : State) : List W8 :=
  hkdf384 (leBytes 32 Config.uds.toNat) (leBytes 32 s.epochSalt.toNat) (beBytes 12 0x475838204D45444941207631) 32

/-- The 80-byte blob of a key (R471). -/
def State.wrapBlob (s : State) (k : BitVec 512) : List W8 :=
  [0x4D, 0x4B, 1, BitVec.ofNat 8 s.epochIx, 0, 0, 0, 0] ++ keyWrap s.mediaKek (leBytes 64 k.toNat)

/-- What a blob is found to be: of another layout, of an older epoch or altered, or a key (R471). -/
inductive Blob where
  | format
  | badKey
  | key (k : BitVec 512)
  deriving DecidableEq, Repr

/-- A blob unwrapped. -/
def State.unwrapBlob (s : State) (b : List W8) : Blob :=
  if leAt b 0 3 ≠ 0x014B4D ∨ leAt b 4 4 ≠ 0 then .format
  else if leAt b 3 1 ≠ s.epochIx then .badKey
  else match keyUnwrap s.mediaKek (sliceB b 8 72) with
    | some k => .key (BitVec.ofNat 512 (ofLe k))
    | none => .badKey

/-- The next EPOCH slot takes 256 random bits (R472). -/
def State.nextEpoch (s : State) : State :=
  let (x, s) := s.freeAny
  { s with sec := { s.sec with epochs := s.sec.epochs ++ [BitVec.ofNat 256 x] } }

end Sys2Proof.Machine
end

