-- ==== Sys2Proof/Machine/Erasure.lean ====
section
/-! DEFINITION. Format rules of the object service: chunk layout, the metadata record, encryption and the erasure code
(R248 to R259). -/

namespace Sys2Proof.Machine

/-- Bytes of a chunk (R248). -/
def chunkSize : Nat := 2097152

/-- k and m of a geometry code (R155). -/
def geomKM (g : Nat) : Nat × Nat :=
  [(1, 0), (1, 1), (2, 1), (2, 2), (3, 1), (3, 2), (4, 1), (4, 2), (4, 3), (4, 4), (5, 1), (5, 2), (5, 3), (6, 1), (6, 2),
    (7, 1)].getD g (1, 0)

/-- S (R249). -/
def shardS (k : Nat) : Nat := (512 + k - 1) / k
/-- Extent in sectors of a chunk of `n` bytes (R248). -/
def extentOf (n : Nat) : Nat := (n + 4095) / 4096

/-- The tweak of a chunk sector (R258). -/
def chunkTweak (handle chunk ns j : Nat) : List W8 := leBytes 8 handle ++ leBytes 4 chunk ++ leBytes 2 j ++ leBytes 1 ns ++ [0]

/-- Sector `j` of a chunk in the coded domain: encrypted when a key is given; zeros at or beyond the extent (R248, R258,
R259). -/
def codedSector (key : Option (List W8)) (handle chunk ns : Nat) (d : List W8) (j : Nat) : List W8 :=
  if extentOf d.length ≤ j ∨ 512 ≤ j then List.replicate 4096 0
  else
    let p := sliceB d (4096 * j) 4096
    match key with
    | some k => xtsUnit true k (chunkTweak handle chunk ns j) p
    | none => p

/-- The coefficient g(r, c) for m parity shards (R259). -/
def gfCoef (m r c : Nat) : W8 := gfInv (BitVec.ofNat 8 (r ^^^ (m + c)))

/-- A sum of scaled sectors over GF(2^8). -/
def gfSum (l : List (W8 × List W8)) : List W8 :=
  l.foldl (fun a x => xorB a (x.2.map (gfMul x.1))) (List.replicate 4096 0)

/-- The sectors of a shard that are written (R249). -/
def writtenSectors (k e shard : Nat) : List Nat :=
  let s := shardS k
  if e = 512 then List.range s
  else if shard < k then (List.range s).filter fun t => decide (shard * s + t < e)
  else List.range (min s e)

/-- Sector `t` of a data shard in the coded domain. -/
def dataShardSector (sec : Nat → List W8) (k c t : Nat) : List W8 := sec (c * shardS k + t)

/-- Sector `t` of shard `i` in the coded domain (R259). -/
def shardSector (sec : Nat → List W8) (k m i t : Nat) : List W8 :=
  if i < k then dataShardSector sec k i t
  else gfSum ((List.range k).map fun c => (gfCoef m (i - k) c, dataShardSector sec k c t))

/-- The bytes of a shard as written: its written sectors in order. -/
def shardBytes (sec : Nat → List W8) (k m e i : Nat) : List W8 :=
  (writtenSectors k e i).flatMap fun t => shardSector sec k m i t

/-- Sector `t` read back from a shard's bytes; an unwritten sector is zero (R249). -/
def readSector (k e i : Nat) (d : List W8) (t : Nat) : List W8 :=
  match (writtenSectors k e i).findIdx? (· == t) with
  | some p => sliceB d (4096 * p) 4096
  | none => List.replicate 4096 0

/-! ### Recovery (R259) -/

/-- The matrix row of a shard: an identity row for a data shard, a g row for a parity shard. -/
def codeRow (k m i : Nat) : List W8 :=
  (List.range k).map fun c => if i < k then (if i = c then 1 else 0) else gfCoef m (i - k) c

/-- A row scaled. -/
def rowScale (a : W8) (r : List W8) : List W8 := r.map (gfMul a)

/-- Column `c` of a matrix cleared by Gauss-Jordan elimination: rows carry the matrix and the inverse side by side. -/
def gfPivot (rows : List (List W8)) (c : Nat) : List (List W8) :=
  match (rows.drop c).findIdx? (fun r => decide (bAt r c ≠ 0)) with
  | none => rows
  | some i =>
    let p := rows.getD (c + i) []
    let rows := (rows.set (c + i) (rows.getD c [])).set c (rowScale (gfInv (bAt p c)) p)
    let p := rows.getD c []
    rows.mapIdx fun j r => if j = c then r else xorB r (rowScale (bAt r c) p)

/-- The inverse of a k × k matrix. -/
def gfInvert (k : Nat) (rows : List (List W8)) : List (List W8) :=
  let aug := rows.mapIdx fun i r => r ++ (List.range k).map fun c => if i = c then 1 else 0
  ((List.range k).foldl gfPivot aug).map fun r => r.drop k

/-- The data sectors `t` of all k data shards recovered from k shards held: their numbers and bytes. -/
def recoverSector (k e : Nat) (held : List (Nat × List W8)) (inv : List (List W8)) (c t : Nat) : List W8 :=
  let row := inv.getD c []
  gfSum (held.mapIdx fun i h => (bAt row i, readSector k e h.1 h.2 t))

/-- The plaintext of a chunk of `n` bytes recovered from exactly k shards (R259, R258). -/
def recoverChunk (key : Option (List W8)) (handle chunk ns k m n : Nat) (held : List (Nat × List W8)) : List W8 :=
  let e := extentOf n
  let inv := gfInvert k (held.map fun h => codeRow k m h.1)
  let sec := fun j =>
    let p := recoverSector k e held inv (j / shardS k) (j % shardS k)
    match key with
    | some kk => xtsUnit false kk (chunkTweak handle chunk ns j) p
    | none => p
  ((List.range e).flatMap sec).take n

/-! ### The metadata record (R253 to R255) -/

/-- Bytes 0 to 63 of a metadata record. -/
def recFixed (key : List W8) (ns handle length nchunk version prev created geom enc ulen : Nat) : List W8 :=
  [0x47, 0x4F, 0x53, 0x4D, 1, 0] ++ leBytes 1 key.length ++ leBytes 1 ns ++ leBytes 8 handle ++ leBytes 8 length ++
    leBytes 4 nchunk ++ leBytes 4 version ++ leBytes 8 prev ++ leBytes 8 created ++ leBytes 1 geom ++ leBytes 1 enc ++
    leBytes 2 ulen ++ List.replicate 12 0

/-- Bytes 64 to 127. -/
def recState (retain : Nat) (tomb hold : Bool) (deleted updated : Nat) : List W8 :=
  leBytes 8 retain ++ leBytes 1 (b2n tomb + 2 * b2n hold) ++ List.replicate 7 0 ++ leBytes 8 deleted ++ leBytes 8 updated ++
    List.replicate 32 0

/-- The object manifest digest (R254). -/
def odigOf (digs : List (List W8)) (fixed key user : List W8) : List W8 := sha384 (digs.flatMap id ++ fixed ++ key ++ user)

/-- The whole metadata record (R253, R254); digests beyond the first 40,960 stand in digest chunks (R255). -/
def metaRecord (fixed state key user : List W8) (digs : List (List W8)) : List W8 :=
  let body := fixed ++ state ++ key ++ user ++ (digs.take 40960).flatMap id ++ odigOf digs fixed key user
  body ++ sha384 body

/-- Keys are compared as unsigned byte strings, a prefix of another first (R244). -/
def keyLt (a b : List W8) : Bool :=
  match a, b with
  | _, [] => false
  | [], _ :: _ => true
  | x :: s, y :: t => decide (x.toNat < y.toNat) || (x == y && keyLt s t)

end Sys2Proof.Machine
end

