-- ==== Sys2Proof/Machine/Format.lean ====
section
/-! DEFINITION. The on-media sector: scrambler, LDPC code, CRCs, channel bits, precompensation (R140 to R147, R167). -/

namespace Sys2Proof.Machine

/-! ### Sector format (R140 to R147) -/

/-- Scrambler bits from a register of 31 bits, oldest in bit 0: c[n] = c[n-3] XOR c[n-31] (R143). -/
def scramBytes (x : BitVec 31) : Nat → List W8
  | 0 => []
  | n + 1 =>
    let step := fun (p : BitVec 31 × Nat × Nat) (_ : Nat) =>
      let r := p.1
      let b := b2n (r.getLsbD 0)
      let nw := xor (r.getLsbD 28) (r.getLsbD 0)
      ((r >>> 1) ||| (if nw then 0x40000000 else 0), p.2.1 + b * 2 ^ p.2.2, p.2.2 + 1)
    let q := (List.range 8).foldl step (x, 0, 0)
    BitVec.ofNat 8 q.2.1 :: scramBytes q.1 n

/-- The scrambler's seed (R143). -/
def scramSeed (cyl sect : Nat) : BitVec 31 := BitVec.ofNat 31 ((cyl * 65536 + sect) % (2 ^ 31 - 1)) ||| 1

/-- Information bytes scrambled or descrambled. -/
def scramble (cyl sect : Nat) (l : List W8) : List W8 := xorB l (scramBytes (scramSeed cyl sect) l.length)

/-- The shift of H(i, j) for an information column, and whether the block is there (R144). -/
def ldpcRows (j : Nat) : List Nat := [j % 13, (j + 3) % 13, (j + 7) % 13, (j + 10) % 13]
def ldpcShift (i j : Nat) : Nat := ((i + 1) * (j + 1) * (j + 3) + 37 * i) % 256

/-- Information block j of the scrambled bytes: bit t is u[256j + t]. -/
def infoBlock (u : List W8) (j : Nat) : BitVec 256 := BitVec.ofNat 256 (leAt u (32 * j) 32)

/-- λ_i: the sum over the information columns of H(i, j) x_j (R145). -/
def ldpcLambda (u : List W8) (i : Nat) : BitVec 256 :=
  (List.range 130).foldl (fun a j =>
    if (ldpcRows j).contains i then a ^^^ (infoBlock u j).rotateRight (ldpcShift i j) else a) 0

/-- The parity blocks v_0 to v_12 (R145). -/
def ldpcParity (u : List W8) : List (BitVec 256) :=
  let v := (List.range 12).foldl (fun (p : List (BitVec 256)) i =>
    p ++ [(p.getLast?.getD 0) ^^^ ldpcLambda u i]) []
  v ++ [v.getD 11 0 ^^^ ldpcLambda u 12 ^^^ (v.getD 0 0).rotateRight 1]

/-- Bits sent from bit 23 first, as bytes with the first position in bit 0. -/
def markBytes (m : Nat) : List W8 :=
  leBytes 3 ((List.range 24).foldl (fun a i => a + b2n (m.testBit (23 - i)) * 2 ^ i) 0)

/-- The sync marks (R146). -/
def mark1 : Nat := 0x0B791D
def mark2 : Nat := 0x3E4A63

/-- The 36,808 channel bits of a sector whose scrambled information bytes are `u` (R146). -/
def physSector (u : List W8) : List W8 :=
  List.replicate 12 0x33 ++ markBytes mark1 ++ List.replicate 5 0x0F ++ markBytes mark2 ++ u ++
    (ldpcParity u).flatMap (fun v => leBytes 32 v.toNat) ++ [0x33, 0x33]

/-- The payload of a sector (R140, R141): data, the tag with its CRC, the CRC-64, the reserved bytes. -/
def tagOf (t28 : List W8) : List W8 := padTo 28 t28 ++ leBytes 4 (crc32c (padTo 28 t28)).toNat
/-- The tag of a relocated copy: RELOC set, every other field as it was (R157, R171). -/
def relocTag (t : List W8) : List W8 := tagOf (patchB (t.take 28) 24 [bAt t 24 ||| 2])
def sectorCrc (data tag : List W8) : W64 := crc64 (data ++ tag)
def payloadOf (data tag : List W8) : List W8 :=
  data ++ tag ++ leBytes 8 (sectorCrc data tag).toNat ++ List.replicate 24 0

/-- What R113 finds of a converged decode: 0 success, 3 CRC-64 mismatch, 4 tag CRC-32C mismatch. -/
def payloadCheck (p : List W8) : Nat :=
  if (crc64 (sliceB p 0 4128)).toNat ≠ leAt p 4128 8 then 3
  else if (crc32c (sliceB p 4096 28)).toNat ≠ leAt p 4124 4 then 4 else 0

/-- The bits of a byte list, bit i of the list in bit i mod 8 of byte i div 8. -/
def byteBits (l : List W8) : List Bool := l.flatMap fun b => (List.range 8).map b.getLsbD

/-- The shift of each transition of channel bits, by bit position (R167): PRE_n for the run of n equal bits before it, capped
at 4. `run` counts the equal bits so far. -/
def shiftsFrom (pre : List Int) (pos run : Nat) (last : Bool) : List Bool → List (Nat × Int)
  | [] => []
  | b :: t =>
    if b = last then shiftsFrom pre (pos + 1) (run + 1) last t
    else (pos, pre.getD (min run 4 - 1) 0) :: shiftsFrom pre (pos + 1) 1 b t
/-- The shifts of a sector's transitions; its first bit follows none. -/
def transitions (pre : List Int) : List Bool → List (Nat × Int)
  | [] => []
  | b :: t => shiftsFrom pre 1 1 b t

end Sys2Proof.Machine
end

