-- ==== Sys2Proof/Machine/Place.lean ====
section
/-! DEFINITION. What the object service writes to the media (R154 to R157, R171, R243, R247 to R259, R262): tags, the sectors of
a chunk's shards, data chunks, digest chunks and metadata chunks with their generations. -/

namespace Sys2Proof.Machine

/-- Fields of a namespace descriptor (R241). -/
def dCsi (d : List W8) : Nat := leAt d 1 1
def dGeom (d : List W8) : Nat := leAt d 2 1 % 16
def dPol (d : List W8) (i : Nat) : Bool := (leAt d 3 1).testBit i
def dKeep (d : List W8) : Nat := leAt d 4 2
def dMinRetain (d : List W8) : Nat := leAt d 8 8
def dQuota (d : List W8) : Nat := leAt d 16 8
/-- POLICY bits. -/
def pWriteOnce : Nat := 0
def pVersioned : Nat := 1
def pEncrypt : Nat := 2
def pDouble : Nat := 3
def pLocked : Nat := 4

/-- The service state changed. -/
def State.setSvc (s : State) (v : Svc) : State := { s with svc := v }
/-- The retention clock (R271). -/
def State.rclock (s : State) : Nat := s.reg64 Reg.OBJ_RCLOCK_LO
/-- The media key of a namespace with ENCRYPT. -/
def State.nsKey (s : State) (o : ObjNs) : Option (List W8) :=
  if dPol o.desc pEncrypt then some (leBytes 64 ((smGet (fun _ => 0) s.sec.slots o.slot).toNat)) else none

/-! ### Tags and sectors -/

/-- A chunk as it is written. -/
structure ChunkOut where
  ns : Nat
  handle : Nat
  idx : Nat
  gen : Nat
  geom : Nat
  time : Nat
  last : Bool
  key : Option (List W8)
  data : List W8
  deriving DecidableEq, Repr

/-- The chunk index of metadata chunks and of digest chunk j (R253, R255). -/
def metaIdx : Nat := 0xFFFFFFFF
def digIdx (j : Nat) : Nat := 0xFFFE0000 + j

/-- SECT of sector t of shard i (R156). -/
def sectOf (k i t : Nat) : Nat := if i < k then i * shardS k + t else t
/-- FLAGS of that sector's tag: PAD where a data shard's sector lies past the chunk's 512 (R154, R156). -/
def tagFlags (k i t : Nat) (enc last : Bool) : Nat :=
  b2n (decide (i < k) && decide (512 ≤ sectOf k i t)) + 4 * b2n enc + 8 * b2n last
/-- The tag of sector t of shard i (R154). -/
def ChunkOut.tag (w : ChunkOut) (i t : Nat) : List W8 :=
  let k := (geomKM w.geom).1
  tagOf (leBytes 8 w.handle ++ leBytes 4 w.idx ++ leBytes 2 (sectOf k i t) ++ leBytes 1 (i + 16 * w.geom) ++ leBytes 1 w.ns ++
    leBytes 4 w.gen ++ leBytes 4 w.time ++ leBytes 2 (tagFlags k i t w.key.isSome w.last) ++ leBytes 2 1)
/-- The sectors of shard i that are written, each with its tag (R249, R258, R259). -/
def ChunkOut.sectors (w : ChunkOut) (i : Nat) : List (List W8 × List W8) :=
  let (k, m) := geomKM w.geom
  let sec := codedSector w.key w.handle w.idx w.ns w.data
  (writtenSectors k (extentOf w.data.length) i).map fun t => (w.tag i t, shardSector sec k m i t)

/-- The shards of a chunk of `n` bytes that have written sectors: they are to be verified (R249, R263). -/
def shardsOf (geom n : Nat) : List Nat :=
  (List.range ((geomKM geom).1 + (geomKM geom).2)).filter fun i => !(writtenSectors (geomKM geom).1 (extentOf n) i).isEmpty
/-- A shard goes to its unit. -/
def State.writeShard (s : State) (w : ChunkOut) (i u : Nat) : State := s.emit (.shardWrite u (w.sectors i))
/-- Every shard that has sectors to be written goes to its unit. -/
def State.writeShards (s : State) (w : ChunkOut) (units : List Nat) : State :=
  s.emits (((shardsOf w.geom w.data.length).map fun i => .shardWrite (units.getD i 0) (w.sectors i)))

/-- A chunk of handle `h` in namespace `n` as it is written; the namespace descriptor is never encrypted (R243). -/
def State.chunkOut (s : State) (n : Nat) (o : ObjNs) (h : Nat) (c : Chunk) (gen : Nat) (last : Bool) : ChunkOut :=
  ⟨n, h, c.idx, gen, dGeom o.desc, s.minutes, last, if h = 1 then none else s.nsKey o, c.data⟩
/-- A chunk to be written on `units`, every shard still to be verified. -/
def chunkAt (geom idx : Nat) (d : List W8) (units : List Nat) (under : Bool) : Chunk :=
  ⟨idx, d, units, shardsOf geom d.length, under, false, some false, none, 0⟩

/-! ### Metadata (R253 to R255) -/

/-- The digest of a chunk (R250). -/
def Chunk.digest (c : Chunk) : List W8 := match c.lost with | some d => d | none => sha384 c.data
/-- The digests of a version's data chunks, in order. -/
def verDigs (v : Ver) : List (List W8) := v.chunks.map Chunk.digest
/-- The parts of a version's metadata record. -/
def verFixed (o : ObjNs) (v : Ver) : List W8 :=
  recFixed v.key v.ns v.handle v.length ((v.length + chunkSize - 1) / chunkSize) v.version v.prev v.created (dGeom o.desc)
    (b2n (dPol o.desc pEncrypt)) v.user.length
def verState (v : Ver) : List W8 := recState v.retain v.tomb v.hold v.deleted v.updated
/-- ODIG of a version. -/
def verOdig (o : ObjNs) (v : Ver) : List W8 := odigOf (verDigs v) (verFixed o v) v.key v.user
/-- The metadata record of a version. -/
def verRecord (o : ObjNs) (v : Ver) : List W8 := metaRecord (verFixed o v) (verState v) v.key v.user (verDigs v)
/-- The digest chunks of an object with these digests (R255). -/
def digChunks (geom : Nat) (digs : List (List W8)) (units : List Nat) (under : Bool) : List Chunk :=
  (List.range ((digs.length - 1) / 40960)).map fun j =>
    chunkAt geom (digIdx (j + 1)) (((digs.drop (40960 * (j + 1))).take 40960).flatMap id) units under

/-- A version changed, under its handle. -/
def State.putVer (s : State) (v : Ver) : State :=
  s.setSvc { s.svc with vers := s.svc.vers.map fun w => if w.ns == v.ns && w.handle == v.handle then v else w }
/-- Data and digest chunks sent with GEN = 1 (R252). -/
def State.sendChunks (s : State) (n : Nat) (o : ObjNs) (h : Nat) (l : List Chunk) : State :=
  l.foldl (fun s c => s.writeShards (s.chunkOut n o h c 1 (c.placed == some true)) c.units) s
/-- A version's metadata chunk goes to the media, on the version's units. -/
def State.writeMeta (s : State) (o : ObjNs) (v : Ver) : State :=
  let c := chunkAt (dGeom o.desc) metaIdx (verRecord o v) v.units v.under
  (s.writeShards (s.chunkOut v.ns o v.handle c v.gen false) v.units).putVer { v with metaC := some c, metaDone := false }
/-- A version with a changed record: one that is on the media is written again under the next generation (R252); one that is
not yet written waits for its chunks (R257). -/
def State.rewriteMeta (s : State) (o : ObjNs) (v : Ver) : State :=
  let v := { v with put := if v.metaDone then s.nvq.seq else v.put }
  if v.metaC.isSome then s.writeMeta o { v with gen := v.gen + 1 } else s.putVer v
/-- Every data chunk and digest chunk of a version has committed. -/
def Ver.ready (v : Ver) : Bool := v.chunks.all (·.committed) && v.digs.all (·.committed)
/-- The first metadata chunk is written once they have (R257). -/
def State.metaStep (s : State) (o : ObjNs) (v : Ver) : State :=
  if v.metaC.isNone && v.ready then s.writeMeta o v else s
/-- A version tombstoned (R247). -/
def State.tombVer (s : State) (o : ObjNs) (v : Ver) : State :=
  s.rewriteMeta o { v with tomb := true, deleted := s.rclock, updated := s.rclock }

/-- The descriptor's record: KLEN = 0, LENGTH = 0, the descriptor as user metadata (R243). -/
def State.descRecord (s : State) (n : Nat) (o : ObjNs) (tomb : Bool) : List W8 :=
  metaRecord (recFixed [] n 1 0 0 1 0 o.created (dGeom o.desc) 0 256)
    (recState 0 tomb false (if tomb then s.rclock else 0) s.rclock) [] o.desc []
/-- The descriptor goes to the media under its next generation. -/
def State.writeDesc (s : State) (n : Nat) (o : ObjNs) (tomb : Bool) (units : List Nat) (under : Bool) : State × ObjNs :=
  let c := chunkAt (dGeom o.desc) metaIdx (s.descRecord n o tomb) units under
  (s.writeShards (s.chunkOut n o 1 c (o.gen + 1) false) units, { o with gen := o.gen + 1, descC := some c })

end Sys2Proof.Machine
end

