-- ==== Sys2Proof/Machine/Rebuild.lean ====
section
/-! DEFINITION. The rebuild of the object index from the media (R176, R177, R256, R257, R276): generations judged, chunks
recovered from any k shards, versions attached through their metadata chunks. -/

namespace Sys2Proof.Machine

/-- Fields of a tag (R154). -/
def tHandle (t : List W8) : Nat := leAt t 0 8
def tChunk (t : List W8) : Nat := leAt t 8 4
def tSect (t : List W8) : Nat := leAt t 12 2
def tShard (t : List W8) : Nat := leAt t 14 1 % 16
def tGeom (t : List W8) : Nat := leAt t 14 1 / 16
def tNs (t : List W8) : Nat := leAt t 15 1
def tGen (t : List W8) : Nat := leAt t 16 4
def tEnc (t : List W8) : Bool := (leAt t 24 2).testBit 2
/-- A sector that yields something: its tag's CRC holds and its format is this manual's (R176, R177). -/
def Loc.good (x : Loc) : Bool :=
  (crc32c (x.tag.take 28)).toNat == leAt x.tag 28 4 && leAt x.tag 26 2 == 1

/-- The sectors of one chunk of a handle. -/
def locsOf (l : List Loc) (n h i : Nat) : List Loc :=
  l.filter fun x => tNs x.tag == n && tHandle x.tag == h && tChunk x.tag == i
/-- The generations found among them, highest first. -/
def gensOf (l : List Loc) : List Nat :=
  (l.foldl (fun (a : List Nat) x => if a.contains (tGen x.tag) then a else a ++ [tGen x.tag]) []).mergeSort fun a b => decide (b ≤ a)

/-- Shard i as found for a chunk of extent `e`: all its written sectors, or nothing; a data shard without any counts as
present (R249). -/
def shardFound (l : List Loc) (k e i : Nat) : Option (List W8) :=
  ((writtenSectors k e i).mapM fun t =>
    (l.find? fun x => tShard x.tag == i && tSect x.tag == sectOf k i t).map (·.data)).map (·.flatMap id)
/-- The chunk's `n` bytes from the first k shards found, or nothing when fewer are (R256, R259). -/
def chunkFound (key : Option (List W8)) (l : List Loc) (geom ns h i n : Nat) : Option (List W8) :=
  let (k, m) := geomKM geom
  let held := (List.range (k + m)).filterMap fun j => (shardFound l k (extentOf n) j).map fun d => (j, d)
  if held.length < k then none else some (recoverChunk key h i ns k m n (held.take k))

/-- The length R of a metadata record, from its first bytes (R253). -/
def recLength (r : List W8) : Nat := 128 + leAt r 6 1 + leAt r 50 2 + 48 * min (leAt r 24 4) 40960 + 96
/-- A whole record whose RDIG holds (R254). -/
def recOk (r : List W8) : Bool :=
  leAt r 0 4 == 0x4D534F47 && r.length == recLength r && sha384 (r.take (r.length - 48)) == r.drop (r.length - 48)
/-- The metadata record of one generation: of some extent up to 485 sectors, with RDIG right (R253, R256). -/
def recordOf (key : Option (List W8)) (l : List Loc) (ns h : Nat) : Option (List W8) :=
  let key := if l.any fun x => tEnc x.tag then key else none
  let geom := ((l.head?.map fun x => tGeom x.tag)).getD 0
  (List.range 485).findSome? fun e =>
    match chunkFound key l geom ns h metaIdx (4096 * (e + 1)) with
    | some b => let r := b.take (recLength b)
      if recOk r then some r else none
    | none => none
/-- The metadata chunk of a handle: the highest generation found, with its number (R256). -/
def metaFound (key : Option (List W8)) (l : List Loc) (ns h : Nat) : Option (List W8 × Nat) :=
  let l := locsOf l ns h metaIdx
  (gensOf l).findSome? fun g => (recordOf key (l.filter fun x => tGen x.tag == g) ns h).map fun r => (r, g)

/-- The unit of each shard found, by shard number; the first unit of the drive for one that is not. -/
def unitsFound (l : List Loc) (n : Nat) : List Nat :=
  (List.range n).map fun i => ((l.find? fun x => tShard x.tag == i).map (·.unit)).getD 0
/-- A chunk with its digest as the record gives it; one whose rebuild fails or does not match counts as not found. -/
def dataFound (key : Option (List W8)) (l : List Loc) (geom ns h i n : Nat) (dig : Option (List W8)) : Chunk :=
  let l := locsOf l ns h i
  let us := unitsFound l ((geomKM geom).1 + (geomKM geom).2)
  let none' : Chunk := ⟨i, List.replicate n 0, us, [], false, true, some false, some (dig.getD []), 0⟩
  let found := (gensOf l).findSome? fun g =>
    match chunkFound key (l.filter fun x => tGen x.tag == g) geom ns h i n with
    | some d => if (match dig with | some y => sha384 d == y | none => true) then some d else none
    | none => none
  match found with
  | some d => ⟨i, d, us, [], false, true, some ((l.head?.map fun x => (leAt x.tag 24 2).testBit 3).getD false), none, 0⟩
  | none => none'

/-- The parts of a record after byte 128: KEY, USER and the digests in it. -/
def recKey (r : List W8) : List W8 := sliceB r 128 (leAt r 6 1)
def recUser (r : List W8) : List W8 := sliceB r (128 + leAt r 6 1) (leAt r 50 2)
def recDigs (r : List W8) : List (List W8) :=
  (List.range (min (leAt r 24 4) 40960)).map fun i => sliceB r (128 + leAt r 6 1 + leAt r 50 2 + 48 * i) 48

/-- A version from its metadata record of generation `g` (R176, R253, R255 to R257). -/
def verFound (key : Option (List W8)) (l : List Loc) (ns h : Nat) (r : List W8) (g : Nat) : Ver :=
  let geom := leAt r 48 1 % 16
  let len := leAt r 16 8
  let nch := leAt r 24 4
  let key := if (leAt r 49 1).testBit 0 then key else none
  let digs := (List.range ((nch - 1) / 40960)).map fun j =>
    dataFound key l geom ns h (digIdx (j + 1)) (48 * min 40960 (nch - 40960 * (j + 1))) none
  let all := recDigs r ++ digs.flatMap fun c => if c.lost.isSome then [] else
    (List.range (c.data.length / 48)).map fun i => sliceB c.data (48 * i) 48
  let us := unitsFound (locsOf l ns h metaIdx) ((geomKM geom).1 + (geomKM geom).2)
  { ns := ns, key := recKey r, version := leAt r 28 4, handle := h, prev := leAt r 32 8, length := len
    created := leAt r 40 8, retain := leAt r 64 8, hold := (leAt r 72 1).testBit 1, tomb := (leAt r 72 1).testBit 0
    deleted := leAt r 80 8, updated := leAt r 88 8, gen := g, user := recUser r
    chunks := (List.range nch).map fun i => dataFound key l geom ns h i (min chunkSize (len - i * chunkSize)) (some (all.getD i []))
    digs := digs, units := us, under := false
    metaC := some ⟨metaIdx, r, us, [], false, true, some false, none, 0⟩, metaDone := true, put := 0 }

/-- The last version number of each key. -/
def lastOf (l : List Ver) : List (List W8 × Nat) :=
  l.foldl (fun a v =>
    let old := ((a.find? fun (e : List W8 × Nat) => e.1 == v.key).map (·.2)).getD 0
    (a.filter fun e => e.1 != v.key) ++ [(v.key, max old v.version)]) []

/-- The versions of a namespace found, in handle order: handles without a metadata chunk are orphans (R257). -/
def versFound (key : Option (List W8)) (l : List Loc) (n : Nat) : List Ver :=
  let hs := (l.filter fun x => tNs x.tag == n && decide (0x100 ≤ tHandle x.tag)).map fun x => tHandle x.tag
  (hs.eraseDups.mergeSort fun a b => decide (a ≤ b)).filterMap fun h =>
    (metaFound key l n h).map fun r => verFound key l n h r.1 r.2

/-- Namespace `n` as found: its descriptor, with every handle ever seen used up (R245), or its last handle and generation
when the descriptor is a tombstone. -/
def nsFound (l : List Loc) (n : Nat) : Option (ObjNs × Bool) :=
  (metaFound none l n 1).map fun (r, g) =>
    let d := padTo 256 (recUser r)
    let top := (l.filter fun x => tNs x.tag == n).foldl (fun a x => max a (tHandle x.tag + 1)) 0x100
    let us := unitsFound (locsOf l n 1 metaIdx) ((geomKM (dGeom d)).1 + (geomKM (dGeom d)).2)
    (⟨d, top, n, [], leAt r 40 8, g, some ⟨metaIdx, r, us, [], false, true, some false, none, 0⟩⟩, (leAt r 72 1).testBit 0)

/-- The index rebuilt from what the cairn walk found (R276): open sessions went with the journal. -/
def State.rebuildIndex (s : State) (found : List Loc) : State :=
  let l := found.filter Loc.good
  let all := (List.range 64).filterMap fun n => (nsFound l n).map fun o => (n, o)
  let live := all.filter fun e => !e.2.2
  let vers := live.map fun e => (e.1, versFound (s.nsKey e.2.1) l e.1)
  s.setSvc { s.svc with
    nss := live.map fun e => (e.1, { e.2.1 with lastVer := lastOf (((vers.find? fun v => v.1 == e.1).map (·.2)).getD []) })
    gone := (all.filter (·.2.2)).map fun e => (e.1, (e.2.1.nextHandle, e.2.1.gen))
    vers := vers.flatMap (·.2), sess := [], journal := 0 }

end Sys2Proof.Machine
end

