-- ==== Sys2Proof/Machine/RegBasic.lean ====
section
/-! DEFINITION. What a write or read of a register does by the access types of its fields (R6, R21 to R25), before any
effect the register's own chapter adds. -/

namespace Sys2Proof.Machine

/-- The RWL bits of a register that Ranger has locked (R462). -/
def State.lockedBits (s : State) (off : Nat) (r : RegRow) : W32 :=
  if off = Reg.CSC_CTRL then
    (if s.rbit Reg.SEC_LOCK 1 then bit 4 else 0) ||| (if s.rbit Reg.SEC_LOCK 3 then bit 3 else 0)
  else if s.rbit Reg.SEC_LOCK r.lock then BitVec.ofNat 32 r.rwl else 0

/-- The value a register takes when software writes `v` while hardware sets the bits `hwSet` and clears the bits `hwClr`
in the same cycle (R6, R21). -/
def writtenVal (old v hwSet hwClr locked : W32) (r : RegRow) : W32 :=
  let cmd : W32 := BitVec.ofNat 32 r.cmd
  let hwc : W32 := BitVec.ofNat 32 r.hwc
  let w1c : W32 := BitVec.ofNat 32 r.w1c
  let w1s : W32 := BitVec.ofNat 32 r.w1s
  let rw : W32 := BitVec.ofNat 32 r.rw &&& ~~~ locked &&& ~~~ cmd
  -- stored bits
  let x := (old &&& ~~~ rw) ||| (v &&& rw)
  -- a command bit: hardware may clear it, and a write of 1 wins
  let x := (x &&& ~~~ (hwClr &&& (cmd ||| w1s))) ||| (v &&& cmd) ||| (v &&& w1s)
  -- a status bit: a write of 1 clears it, and a hardware set wins
  let x := (x &&& ~~~ (v &&& w1c)) ||| (hwSet &&& w1c)
  -- any other bit that hardware clears: the clear wins
  x &&& ~~~ (hwClr &&& hwc)

/-- The blocks that an Outpost holds in reset: HIF, NVQ and SPN (R13). -/
def State.heldInReset (s : State) (off : Nat) : Bool :=
  !s.isBase && (off / 0x10000 == 2 || off / 0x10000 == 3 || off / 0x10000 == 11)

/-- A register written by the access types of its fields (R4 to R6). -/
def State.basicWrite (s : State) (off : Nat) (v hwSet hwClr : W32) : State :=
  if s.heldInReset off then s
  else match regRow? off with
    | none => s
    | some r => s.setReg off (writtenVal (s.reg off) v hwSet hwClr (s.lockedBits off r) r)

/-- The _LO registers of the pairs of R25: first offset, number, stride. -/
def pairTable : List (Nat × Nat × Nat) :=
  [(0x120, 1, 4), (0x110010, 1, 4), (0x080018, 2, 0x10000), (0x088020, 2, 0x10000), (0x088028, 2, 0x10000),
   (0x0F0000, 1, 4), (0x0F1000, 8, 0x20), (0x0F1008, 8, 0x20), (0x030010, 5, 8), (0x121014, 1, 4),
   (0x020104, 2, 0x40), (0x040030, 1, 4), (0x040108, 2, 0x40), (0x040200, 4, 8), (0x040300, 4, 0x10),
   (0x044000, 192, 0x20), (0x044008, 192, 0x20), (0x050100, 16, 0x10), (0x071004, 32, 0x40), (0x07100C, 32, 0x40),
   (0x010020, 1, 4), (0x010028, 1, 4), (0x0E0010, 1, 4), (0x0E0070, 1, 4), (0x040060, 1, 4), (0x0D4000, 192, 0x10)]

/-- The offset is the _LO register of a pair. -/
def isPairLo (off : Nat) : Bool :=
  pairTable.any fun t => decide (t.1 ≤ off) && decide ((off - t.1) % t.2.2 = 0) && decide ((off - t.1) / t.2.2 < t.2.1)

/-- The offset is the _HI register of a pair. -/
def isPairHi (off : Nat) : Bool := decide (4 ≤ off) && isPairLo (off - 4)

/-- The index of an agent's holding copy and pending place (R25); the debug port and each remote part have one of their own,
as each thread has (DESIGN CHOICE, log entry 87). -/
def agentIx : Agent → Nat
  | .thread p => p
  | .debug => 192
  | .remote n => 193 + n

/-- A register pair half read: _LO captures _HI, and the first read of that _HI returns the copy (R25). -/
def State.pairRead (s : State) (ag : Agent) (off : Nat) (cur : Nat → W32) : W32 × State :=
  let k := agentIx ag
  if isPairLo off then (cur off, { s with pairHold := smSet s.pairHold k (off, cur (off + 4)) })
  else if isPairHi off then
    match smFind s.pairHold k with
    | some (lo, v) => if lo = off - 4 then (v, { s with pairHold := smDel s.pairHold k }) else (cur off, s)
    | none => (cur off, s)
  else (cur off, s)

/-- A _LO half written: its value waits in the agent's pending place (R25). -/
def State.pendLo (s : State) (ag : Agent) (off : Nat) (v : W32) : State :=
  { s with pairPend := smSet s.pairPend (agentIx ag) (off, v) }

/-- The _LO value that a write of _HI takes effect with, and the state with the pending place emptied (R25). -/
def State.takeLo (s : State) (ag : Agent) (lo : Nat) : W32 × State :=
  match smFind s.pairPend (agentIx ag) with
  | some (o, v) => if o = lo then (v, { s with pairPend := smDel s.pairPend (agentIx ag) }) else (s.reg lo, s)
  | none => (s.reg lo, s)

end Sys2Proof.Machine
end

