-- ==== Sys2Proof/Machine/Hif.lean ====
section
/-! DEFINITION. The PCIe endpoint: configuration space, requests and tags, interrupts, peer windows (R319 to R349). -/

namespace Sys2Proof.Machine

/-- A port. -/
def State.hp (s : State) (n : Nat) : HifP := if n = 0 then s.hif0 else s.hif1
/-- A port set. -/
def State.setHp (s : State) (n : Nat) (p : HifP) : State := if n = 0 then { s with hif0 := p } else { s with hif1 := p }

/-- The HIF_STATUS bit of an event of port `n`: the pair's lower bit is port 0. -/
def State.hifEvent (s : State) (n lo : Nat) : State := s.orReg Reg.HIF_STATUS (bit (lo + n))

/-- The HIF_MODE strap (R319): dual port. -/
def State.dualPort (s : State) : Bool := s.rbit Reg.SYS_STRAP 2
/-- The BAR_MODE strap (R325): resizable BAR4. -/
def State.barResize (s : State) : Bool := s.rbit Reg.SYS_STRAP 3
/-- The port exists: HIF is not held in reset (R13) and port 1 is there in dual-port mode only (R319). -/
def State.portLive (s : State) (n : Nat) : Bool := s.isBase && (n == 0 || s.dualPort) && decide (s.pwr.st < 3)

/-! ### Configuration space (R322 to R324) -/

/-- Default of the double word at a byte offset; the identity and the capability chain (R322, R323). -/
def cfgDflt (off : Nat) : W32 :=
  match off with
  | 0x000 => 0x0A581CF7
  | 0x004 => 0x00100000
  | 0x008 => 0x01080220
  | 0x010 => 0x00000004
  | 0x018 => 0x00000004
  | 0x020 => 0x0000000C
  | 0x034 => 0x00000040
  | 0x03C => 0x00000100
  | 0x040 => 0x00035001
  | 0x044 => 0x00000008
  | 0x050 => 0x018A7005
  | 0x070 => 0x0002B010
  | 0x074 => 0x10008005
  | 0x078 => 0x00002810
  | 0x094 => 0x0003080F
  | 0x0B0 => 0x00800011
  | 0x0B4 => 0x00000002
  | 0x0B8 => 0x00001002
  | 0x100 => 0x14820001
  | 0x10C => 0x00462030
  | 0x114 => 0x00002000
  | 0x148 => 0x15810003
  | 0x158 => 0x16010018
  | 0x160 => 0x1701001E
  | 0x2C4 => 0x0003FFF0
  | 0x2C8 => 0x00000624
  | 0x300 => 0x0002002E
  | _ => 0

/-- The bits of a double word that a configuration write stores. -/
def cfgRw (off : Nat) : Nat :=
  match off with
  | 0x004 => 0x00000546
  | 0x00C => 0x000000FF
  | 0x010 => 0xFFFFC000
  | 0x014 => 0xFFFFFFFF
  | 0x018 => 0xFFFFE000
  | 0x01C => 0xFFFFFFFF
  | 0x020 => 0xFFF00000
  | 0x024 => 0xFFFFFFFF
  | 0x03C => 0x000000FF
  | 0x044 => 0x00000003
  | 0x050 => 0x00710000
  | 0x054 => 0xFFFFFFFC
  | 0x058 => 0xFFFFFFFF
  | 0x05C => 0x0000FFFF
  | 0x060 => 0xFFFFFFFF
  | 0x078 => 0x000070EF
  | 0x080 => 0x000001C3
  | 0x098 => 0x0000140F
  | 0x0A0 => 0x0000000F
  | 0x0B0 => 0xC0000000
  | 0x108 => 0x03FFF030
  | 0x10C => 0x03FFF030
  | 0x114 => 0x0000F1C1
  | 0x15C => 0x1FFF1FFF
  | 0x168 => 0xE3FFFF0F
  | 0x16C => 0x000000FB
  | _ => 0

/-- The bits that a write of 1 clears. -/
def cfgW1c (off : Nat) : Nat :=
  match off with
  | 0x104 => 0x03FFF030
  | 0x110 => 0x0000F1C1
  | 0x078 => 0x000F0000
  | _ => 0

/-- Sticky double words: the AER registers (R342). -/
def cfgSticky (off : Nat) : Bool := decide (0x104 ≤ off) && decide (off ≤ 0x134)
/-- Link fields, which an FLR leaves (R342): Link Control and Link Control 2. -/
def cfgLink (off : Nat) : Bool := off == 0x080 || off == 0x0A0

/-- A stored double word of configuration space. -/
def State.cfg (s : State) (n off : Nat) : W32 := smGet cfgDflt (s.hp n).cfg off
/-- That double word set. -/
def State.setCfg (s : State) (n off : Nat) (v : W32) : State :=
  s.setHp n { s.hp n with cfg := smPut cfgDflt (s.hp n).cfg off v }

/-- BAR4's size in bytes (R325, R327). -/
def State.bar4Size (s : State) (n : Nat) : Nat := s.fld (Reg.HIF_PORT_PW_SIZE n) 0 14 * 2 ^ 20
/-- BAR4's address; the bits below its size read 0. -/
def State.bar4Base (s : State) (n : Nat) : Nat :=
  let a := (s.cfg n 0x024).toNat * 2 ^ 32 + (s.cfg n 0x020).toNat / 2 ^ 20 * 2 ^ 20
  if s.bar4Size n = 0 then a else a / s.bar4Size n * s.bar4Size n

/-- Memory Space Enable. -/
def State.memSpace (s : State) (n : Nat) : Bool := tb (s.cfg n 0x004) 1
/-- Bus Master Enable. -/
def State.busMaster (s : State) (n : Nat) : Bool := s.portLive n && tb (s.cfg n 0x004) 2
/-- D3hot. -/
def State.d3hot (s : State) (n : Nat) : Bool := getF (s.cfg n 0x044) 0 2 == 3

/-- The double word a configuration read returns: the subsystem identity, the serial number, BAR4's low address bits, the
resizable BAR and the DOE status come from elsewhere (R322, R323, R327, R349). -/
def State.cfgRead (s : State) (n off : Nat) : W32 :=
  if off = 0x02C then s.reg Reg.HIF_SUBSYS
  else if off = 0x14C then BitVec.ofNat 32 Config.serial.toNat
  else if off = 0x150 then BitVec.ofNat 32 (Config.serial.toNat / 2 ^ 32)
  else if off = 0x020 then BitVec.ofNat 32 (s.bar4Base n % 2 ^ 32) ||| 0xC
  else if off = 0x024 then BitVec.ofNat 32 (s.bar4Base n / 2 ^ 32)
  else if off = 0x064 then BitVec.ofNat 32 ((s.hp n).msiPend.foldl (fun a v => a ||| 2 ^ v) 0)
  else if off = 0x07C then (Config.freeOf 0 off &&& 0xFFFFF000) ||| (if s.dualPort then 0x817 else 0x827)
  else if off = 0x080 then
    (s.cfg n off &&& 0xFFFF) ||| BitVec.ofNat 32 (2 ^ 16 * s.fld (Reg.HIF_PORT_LINK n) 27 3 + 2 ^ 20 * s.fld (Reg.HIF_PORT_LINK n) 25 2)
  else if off = 0x164 then (Config.freeOf 0 off &&& 0xFFFFFF00) ||| 0x1F
  else if off = 0x170 then (Config.freeOf 0 (off + 0x1000 * b2n s.barResize) &&& 0xFFF00000) ||| 0x10019
  else if 0x170 < off ∧ off < 0x2C0 then Config.freeOf 0 (off + 0x1000 * b2n s.barResize)
  else if off = 0x2C0 then (if s.barResize then 0x30010015 else 0)
  else if 0x2C0 < off ∧ off < 0x300 ∧ !s.barResize then 0
  else if off = 0x30C then
    (if (s.hp n).doe.err then bit 2 else 0) ||| (if (s.hp n).doe.resp.isEmpty then 0 else bit 31) |||
      (if (s.hp n).doe.wait.isEmpty && (s.hp n).doe.prep.isEmpty then 0 else bit 0)
  else if off = 0x314 then (s.hp n).doe.resp.headD 0
  else s.cfg n off

/-- An uncorrectable error logged under AER (R345). -/
def State.aerUnc (s : State) (n b : Nat) : State := s.setCfg n 0x104 (s.cfg n 0x104 ||| bit b)
/-- An advisory non-fatal error logged under AER. -/
def State.aerAdvisory (s : State) (n b : Nat) : State :=
  (s.aerUnc n b).setCfg n 0x110 ((s.aerUnc n b).cfg n 0x110 ||| bit 13)

/-- Configuration space to its defaults, keeping the double words `keep` (R342). -/
def State.cfgReset (s : State) (n : Nat) (keep : Nat → Bool) : State :=
  let p := s.hp n
  (s.setHp n { p with cfg := p.cfg.filter fun e => keep e.1 }).setFld (Reg.HIF_PORT_PW_SIZE n) 0 14 64

/-! ### Completions toward the host -/

/-- A completion with data. -/
def State.cplOk (s : State) (n : Nat) (d : List W8) (ep : Bool := false) : State :=
  { s.emit (.pcieCpl n 0 d ep) with rdata := BitVec.ofNat 64 (ofLe d) }
/-- A completion with Unsupported Request, logged under AER. -/
def State.cplUr (s : State) (n : Nat) : State := (s.aerUnc n 20).emit (.pcieCpl n 1 [] false)

/-! ### Requests the part issues (R332, R333, R335 to R337) -/

/-- Requests that may be outstanding, and tags there are, with the tags in use (R332). -/
def State.tagLimit (s : State) (n : Nat) : Nat := if s.fld (Reg.HIF_PORT_LINK n) 20 3 = 0 then 256 else 768
def State.tagCount (s : State) (n : Nat) : Nat :=
  match s.fld (Reg.HIF_PORT_LINK n) 20 3 with
  | 0 => 256
  | 1 => 1024
  | _ => 16384

/-- The first of `fuel` tags from `t` on that `ok` takes. -/
def firstTag (ok : Nat → Bool) : Nat → Nat → Option Nat
  | 0, _ => none
  | fuel + 1, t => if ok t then some t else firstTag ok fuel (t + 1)

/-- The lowest tag neither outstanding nor in quarantine, one that a reset left with a completion to come last (DESIGN CHOICE,
log entry 83); none while the limit of outstanding requests is reached. -/
def State.hifFreeTag (s : State) (n : Nat) : Option Nat :=
  let p := s.hp n
  let free := fun (t : Nat) => !(p.reqs.any fun r => r.tag == t) && !(p.quar.contains t)
  if s.tagLimit n ≤ p.reqs.length then none
  else match firstTag (fun t => free t && !(p.silent.contains t)) (s.tagCount n) 0 with
    | some t => some t
    | none => firstTag free (s.tagCount n) 0

/-- A host address lies in the function's own BAR4 as decoded now (R329). -/
def State.inBar4 (s : State) (n addr : Nat) : Bool :=
  s.memSpace n && decide (s.bar4Base n ≤ addr) && decide (addr < s.bar4Base n + s.bar4Size n)

/-- The DRAM address that a host address reaches through the function's own BAR4 (R328, R329). -/
def State.ownBar4 (s : State) (n addr len : Nat) : Option Nat :=
  let o := addr - s.bar4Base n
  let lim := getF (s.act (Reg.HIF_PORT_PW_LIMIT n)) 0 14 * 2 ^ 20
  if s.inBar4 n addr ∧ o + len ≤ min lim (s.bar4Size n) then
    some ((s.act (Reg.HIF_PORT_PW_BASE_LO n)).toNat + 2 ^ 32 * (s.act (Reg.HIF_PORT_PW_BASE_LO n + 4)).toNat + o)
  else none

/-- What became of a host read. -/
inductive HostRead where
  | now (d : List W8) (ue : Bool)
  | waits
  | noTag
  | fails
  deriving DecidableEq, Repr

/-- A host read of a DMA channel: served from the own window, or sent as a request of at most 64 bytes, which every
Max_Read_Request_Size allows (R329, R333, R343). An address in the own
BAR4 beyond LIMIT sends no request and fails (DEDUCED, log entry 83). -/
def State.hostRead (s : State) (n addr len chan arg : Nat) : HostRead × State :=
  if !s.busMaster n then (.fails, s)
  else match s.ownBar4 n addr len with
    | some a =>
      let (d, ue, s) := s.memRead a len
      (.now d ue, s)
    | none =>
      if s.inBar4 n addr then (.fails, s)
      else match s.hifFreeTag n with
      | none => (.noTag, s)
      | some t =>
        let p := s.hp n
        (.waits, (s.setHp n { p with reqs := p.reqs ++ [⟨t, addr, len, chan, arg, []⟩], silent := p.silent.filter (· != t) }).emit (.pcieRead n addr len t))

/-- The largest write payload: Max_Payload_Size of Device Control, at most 4,096 bytes (R333). -/
def State.maxPayload (s : State) (n : Nat) : Nat := min 4096 (128 * 2 ^ getF (s.cfg n 0x078) 5 3)

/-- Host writes cut so that none crosses 4 KiB or exceeds the payload size (R333). -/
def cutWrites (addr : Nat) (l : List W8) (mps : Nat) : Nat → List (Nat × List W8)
  | 0 => []
  | fuel + 1 => match l with
    | [] => []
    | _ =>
      let n := max 1 (min mps (4096 - addr % 4096))
      (addr, l.take n) :: cutWrites (addr + (l.take n).length) (l.drop n) mps fuel

/-- A host write: through the own window, or as memory writes; false when it cannot be sent (R336). -/
def State.hostWrite (s : State) (n addr : Nat) (l : List W8) (ep : Bool := false) : Bool × State :=
  if !s.busMaster n then (false, s)
  else match s.ownBar4 n addr l.length with
    | some a => (true, s.memWrite a l ep)
    | none => if s.inBar4 n addr then (false, s) else (true, s.emits ((cutWrites addr l (s.maxPayload n) (l.length + 1)).map fun c => .pcieWrite n c.1 c.2 ep))

/-- The data of a read completed in parts of at most Max_Payload_Size, cut at multiples of 128 bytes of the address (R333). -/
def cutCpls (addr : Nat) (l : List W8) (mps : Nat) : Nat → List (List W8)
  | 0 => []
  | fuel + 1 =>
    let n := (addr + mps) / 128 * 128 - addr
    if l.length ≤ mps then [l] else l.take n :: cutCpls (addr + n) (l.drop n) mps fuel

/-- A read of host memory by NVQ fails (R336). -/
def State.hostFail (s : State) (n : Nat) : HostData → State
  | .timeout => ((s.hifEvent n 10).incFld (Reg.HIF_PORT_CTO_CNT n) 0 32).aerUnc n 14
  | .poisoned => s.aerUnc n 12
  | _ => s
/-- Its bytes, if it succeeds. -/
def hostBytes : HostData → Option (List W8)
  | .data l => some l
  | _ => none

/-! ### Interrupts (R338 to R341) -/

/-- A double word of the MSI-X table; vector control words hold 1 by default. -/
def msixDflt (i : Nat) : W32 := if i % 4 = 3 then 1 else 0
/-- A double word of a function's MSI-X table. -/
def State.msixDw (s : State) (n i : Nat) : W32 := smGet msixDflt (s.hp n).msix i

/-- The mechanism in force: 2 MSI-X, 1 MSI, 0 INTx, none when nothing is enabled (R338). -/
def State.intMech (s : State) (n : Nat) : Option Nat :=
  if tb (s.cfg n 0x0B0) 31 then some 2
  else if tb (s.cfg n 0x050) 16 then some 1
  else if !(tb (s.cfg n 0x004) 10) then some 0
  else none

/-- An MSI-X message for vector `v`. -/
def State.sendMsix (s : State) (n v : Nat) : State :=
  let a := (s.msixDw n (4 * v)).toNat + 2 ^ 32 * (s.msixDw n (4 * v + 1)).toNat
  (s.hostWrite n a (leBytes 4 (s.msixDw n (4 * v + 2)).toNat)).2

/-- An MSI message for message number `v`. -/
def State.sendMsi (s : State) (n v : Nat) : State :=
  let a := (s.cfg n 0x054).toNat + 2 ^ 32 * (s.cfg n 0x058).toNat
  let d := (s.cfg n 0x05C).toNat
  (s.hostWrite n a (leBytes 4 (d / 2 ^ getF (s.cfg n 0x050) 20 3 * 2 ^ getF (s.cfg n 0x050) 20 3 + v))).2

/-- A completion queue signals through vector `v` (R339, R340). `intms` are the vectors INTMS masks, which act on MSI and
INTx only. -/
def State.signalVec (s : State) (n v : Nat) (intms : Nat) : State :=
  let p := s.hp n
  match s.intMech n with
  | some 2 =>
    if tb (s.cfg n 0x0B0) 30 ∨ tb (s.msixDw n (4 * v + 3)) 0 then
      (if p.pba.contains v then s else s.setHp n { p with pba := p.pba ++ [v] })
    else s.sendMsix n v
  | some 1 =>
    let m := v % 2 ^ getF (s.cfg n 0x050) 20 3
    if intms.testBit m then s
    else if tb (s.cfg n 0x060) m then
      (if p.msiPend.contains m then s else s.setHp n { p with msiPend := p.msiPend ++ [m] })
    else s.sendMsi n m
  | some _ =>
    if intms.testBit 0 ∨ p.inta then s else (s.setHp n { p with inta := true }).emit (.inta n true)
  | none => s

/-- Pending vectors that are no longer masked send exactly one message each (R340). -/
def State.flushPending (s : State) (n : Nat) : State :=
  let s := if tb (s.cfg n 0x0B0) 31 ∧ !(tb (s.cfg n 0x0B0) 30) then
      let go := (s.hp n).pba.filter fun v => !(tb (s.msixDw n (4 * v + 3)) 0)
      let s := s.setHp n { s.hp n with pba := (s.hp n).pba.filter fun v => tb (s.msixDw n (4 * v + 3)) 0 }
      go.foldl (fun s v => s.sendMsix n v) s
    else s
  if !(tb (s.cfg n 0x0B0) 31) ∧ tb (s.cfg n 0x050) 16 then
    let go := (s.hp n).msiPend.filter fun v => !(tb (s.cfg n 0x060) v)
    let s := s.setHp n { s.hp n with msiPend := (s.hp n).msiPend.filter fun v => tb (s.cfg n 0x060) v }
    go.foldl (fun s v => s.sendMsi n v) s
  else s

/-! ### Peer window (R327 to R331) -/

/-- The committed LIMIT in bytes. -/
def State.pwLimit (s : State) (n : Nat) : Nat := min 8192 (getF (s.act (Reg.HIF_PORT_PW_LIMIT n)) 0 14) * 2 ^ 20
/-- The committed BASE. -/
def State.pwBase (s : State) (n : Nat) : Nat :=
  (s.act (Reg.HIF_PORT_PW_BASE_LO n)).toNat + 2 ^ 32 * (s.act (Reg.HIF_PORT_PW_BASE_LO n + 4)).toNat

/-- The function takes memory requests: Memory Space Enable and not D3hot (R346). -/
def State.takesMem (s : State) (n : Nat) : Bool := s.memSpace n && !s.d3hot n

/-- A TLP boundary of port `n` after GO: the shadow becomes active, or ERR sets when it exceeds the usable capacity
(R331). -/
def State.pwCommit (s : State) (n : Nat) : State :=
  if !(s.rbit (Reg.HIF_PORT_PW_COMMIT n) 0) then s
  else
    let s := s.clrReg (Reg.HIF_PORT_PW_COMMIT n) (bit 0)
    let base := s.reg64 (Reg.HIF_PORT_PW_BASE_LO n)
    let lim := min 8192 (s.fld (Reg.HIF_PORT_PW_LIMIT n) 0 14)
    if s.dramSize < base + lim * 2 ^ 20 then s.orReg (Reg.HIF_PORT_PW_COMMIT n) (bit 1)
    else
      let s := s.setAct (Reg.HIF_PORT_PW_BASE_LO n) (s.reg (Reg.HIF_PORT_PW_BASE_LO n))
      let s := s.setAct (Reg.HIF_PORT_PW_BASE_LO n + 4) (s.reg (Reg.HIF_PORT_PW_BASE_LO n + 4))
      let s := s.setAct (Reg.HIF_PORT_PW_LIMIT n) (BitVec.ofNat 32 lim)
      s.clrReg (Reg.HIF_PORT_PW_COMMIT n) (bit 1)

/-! ### Requests that end (R336, R337) -/

/-- A request leaves the outstanding ones. -/
def State.dropHReq (s : State) (n t : Nat) : State :=
  s.setHp n { s.hp n with reqs := (s.hp n).reqs.filter fun r => r.tag != t }

/-- The whole request fails (R336): the channel is told. -/
def State.hreqFailed (s : State) (r : HReq) : State := s.dmaRemoteEnd r.chan r.arg none

/-- An unexpected completion (R337). -/
def State.unexpected (s : State) (n : Nat) : State :=
  ((s.hifEvent n 12).incFld (Reg.HIF_PORT_UNEXP_CNT n) 0 32).aerAdvisory n 16

/-- Every outstanding request of a function ends by a reset; late completions are discarded silently (R343). -/
def State.endHReqs (s : State) (n : Nat) : State :=
  let rs := (s.hp n).reqs
  let s := s.setHp n { s.hp n with reqs := [], silent := (s.hp n).silent ++ rs.map (·.tag) }
  rs.foldl (fun s r => s.hreqFailed r) s

end Sys2Proof.Machine
end

