-- ==== Sys2Proof/Machine/Nvq.lean ====
section
/-! DEFINITION. The NVMe queue engine: queues, fetching, tags, completions, the fast path and controller resets (R288 to
R299, R339 to R344). The entry layouts and opcodes are those of NVMe Base 2.1 (PRESUMED, log entry 6). -/

namespace Sys2Proof.Machine

/-! ### Controllers and queues -/

/-- The controller of a port. -/
def State.ctl (s : State) (n : Nat) : NCtl := if n = 0 then s.nvq.c0 else s.nvq.c1
/-- That controller set. -/
def State.setCtl (s : State) (n : Nat) (c : NCtl) : State :=
  { s with nvq := if n = 0 then { s.nvq with c0 := c } else { s.nvq with c1 := c } }
/-- The key of a queue: controller × 256 + identifier. -/
def qKey (n q : Nat) : Nat := n * 256 + q
/-- A submission queue. -/
def State.sq (s : State) (k : Nat) : Option NSq := smFind s.nvq.sqs k
/-- A completion queue. -/
def State.cq (s : State) (k : Nat) : Option NCq := smFind s.nvq.cqs k
/-- A submission queue set. -/
def State.setSq (s : State) (k : Nat) (q : NSq) : State := { s with nvq := { s.nvq with sqs := smSet s.nvq.sqs k q } }
/-- A completion queue set. -/
def State.setCq (s : State) (k : Nat) (q : NCq) : State := { s with nvq := { s.nvq with cqs := smSet s.nvq.cqs k q } }
/-- A feature's value, or its default. -/
def State.feat (s : State) (n fid dflt : Nat) : Nat := smGet (fun _ => dflt) (s.ctl n).feats fid

/-- NVQ_INFLIGHT.COUNT follows the tags held. -/
def State.countTags (s : State) : State := s.setFld Reg.NVQ_INFLIGHT 0 12 s.nvq.cmds.length
/-- The commands that hold a tag. -/
def State.setCmds (s : State) (l : List NCmd) : State := ({ s with nvq := { s.nvq with cmds := l } }).countTags
/-- The command of a tag. -/
def State.cmd? (s : State) (t : Nat) : Option NCmd := s.nvq.cmds.find? fun c => c.tag == t
/-- A command changed. -/
def State.putCmd (s : State) (c : NCmd) : State := s.setCmds (s.nvq.cmds.map fun x => if x.tag == c.tag then c else x)
/-- A tag released. -/
def State.dropCmd (s : State) (t : Nat) : State := s.setCmds (s.nvq.cmds.filter fun x => x.tag != t)

/-! ### Fields of a submission entry -/

/-- Opcode. -/
def NCmd.opc (c : NCmd) : Nat := leAt c.entry 0 1
/-- FUSE, and the data pointer type. -/
def NCmd.fuse (c : NCmd) : Nat := leAt c.entry 1 1 % 4
def NCmd.psdt (c : NCmd) : Nat := leAt c.entry 1 1 / 64
/-- Command identifier and namespace identifier. -/
def NCmd.cid (c : NCmd) : Nat := leAt c.entry 2 2
def NCmd.nsid (c : NCmd) : Nat := leAt c.entry 4 4
/-- Command double word n. -/
def NCmd.dw (c : NCmd) (n : Nat) : Nat := leAt c.entry (4 * n) 4
/-- PRP entries. -/
def NCmd.prp1 (c : NCmd) : Nat := leAt c.entry 24 8
def NCmd.prp2 (c : NCmd) : Nat := leAt c.entry 32 8
/-- Starting LBA and number of LBAs of a read or write. -/
def NCmd.slba (c : NCmd) : Nat := leAt c.entry 40 8
def NCmd.nlb (c : NCmd) : Nat := c.dw 12 % 65536 + 1
/-- FUA. -/
def NCmd.fua (c : NCmd) : Bool := (c.dw 12).testBit 30
/-- From an admin queue. -/
def NCmd.admin (c : NCmd) : Bool := c.qid == 0

/-- The LBA range of a command to NSID 1 that has one (R297): first LBA and count. Deallocate ranges and Flush have
none. -/
def NCmd.range (c : NCmd) : Option (Nat × Nat) :=
  if !c.admin && c.nsid == 1 && [0x01, 0x02, 0x05, 0x08, 0x0C].contains c.opc then some (c.slba, c.nlb) else none

/-- Two ranges share an LBA. -/
def overlap (a b : Nat × Nat) : Bool := decide (a.1 < b.1 + b.2) && decide (b.1 < a.1 + a.2)

/-- An earlier-fetched overlapping command has not reached its data point (R297). -/
def State.mustWait (s : State) (c : NCmd) : Bool :=
  match c.range with
  | none => false
  | some r => s.nvq.cmds.any fun x =>
      decide (x.seq < c.seq) && !x.dp && (match x.range with | some y => overlap r y | none => false)

/-! ### Asynchronous events (R288, R346) -/

/-- An outstanding Asynchronous Event Request completes, or the event waits. The completion itself is posted by
`State.flushEvents`. -/
def State.asyncEvent (s : State) (n type info page : Nat) : State :=
  let c := s.ctl n
  let v := type + 2 ^ 8 * info + 2 ^ 16 * page
  if c.events.contains v ∨ !c.rdy then s else s.setCtl n { c with events := c.events ++ [v] }

/-! ### Completions (R291, R292, R339 to R341) -/

/-- INTx of a function is due (R341). -/
def State.intxDue (s : State) (n : Nat) : Bool :=
  !(tb (s.ctl n).intms 0) &&
    s.nvq.cqs.any fun e => e.1 / 256 == n && e.2.ien && e.2.head != e.2.tail

/-- INTx follows its condition. -/
def State.intxUpdate (s : State) (n : Nat) : State :=
  let p := s.hp n
  if p.inta ∧ (!s.intxDue n ∨ s.intMech n ≠ some 0) then (s.setHp n { p with inta := false }).emit (.inta n false) else s

/-- A message for vector `v` would leave now: the mechanism in force sends it. -/
def State.vecSends (s : State) (n v : Nat) : Bool :=
  match s.intMech n with
  | some 2 => !(tb (s.cfg n 0x0B0) 30 || tb (s.msixDw n (4 * v + 3)) 0)
  | some 1 => let m := v % 2 ^ getF (s.cfg n 0x050) 20 3
    !((s.ctl n).intms.toNat.testBit m || tb (s.cfg n 0x060) m)
  | some _ => !(tb (s.ctl n).intms 0)
  | none => false

/-- A completion queue signals the host, or owes its interrupt (R339, R340). -/
def State.signalCq (s : State) (k : Nat) : State :=
  match s.cq k with
  | none => s
  | some q =>
    if !q.ien then s
    else
      let n := k / 256
      let s' := s.setCq k { q with owed := !s.vecSends n q.vec }
      s'.signalVec n q.vec (s.ctl n).intms.toNat

/-- Interrupts owed are signalled by the mechanism now in force (R340). -/
def State.signalOwed (s : State) (n : Nat) : State :=
  s.nvq.cqs.foldl (fun s e => if e.1 / 256 == n ∧ e.2.owed ∧ e.2.head ≠ e.2.tail then s.signalCq e.1 else s) s

/-- A queue has no room for another entry. -/
def NCq.full (q : NCq) : Bool := decide ((q.tail + 1) % max 1 q.size = q.head)

/-- The first held entry of a queue is written to the host, its tag released and the host signalled (R291). -/
def State.cqWrite (s : State) (k : Nat) (q : NCq) (e : NCpl) (rest : List NCpl) : State :=
  match s.cmd? e.tag with
  | none => s.setCq k { q with held := rest }
  | some c =>
    let sqh := match s.sq (qKey c.ctrl c.qid) with
      | some x => x.head
      | none => 0
    let ent := leBytes 4 e.dw0 ++ leBytes 4 e.dw1 ++ leBytes 2 sqh ++ leBytes 2 c.qid ++ leBytes 2 c.cid ++
      leBytes 2 (e.status * 2 + b2n q.phase)
    let s := (s.hostWrite (k / 256) (q.base + 16 * q.tail) ent).2
    let t := (q.tail + 1) % max 1 q.size
    let s := s.setCq k { q with held := rest, tail := t, phase := if t = 0 then !q.phase else q.phase, owed := true }
    (s.dropCmd e.tag).signalCq k

/-- Entries of a queue are written in order while it has room, posting is not stopped and the function may write (R292,
R309, R343). -/
def State.cqDrain (s : State) (k : Nat) : Nat → State
  | 0 => s
  | fuel + 1 =>
    match s.cq k with
    | none => s
    | some q =>
      match q.held with
      | [] => s
      | e :: rest =>
        if q.full || s.nvq.stopped || !s.busMaster (k / 256) then s else (s.cqWrite k q e rest).cqDrain k fuel

/-- Every queue's held entries are tried. -/
def State.drainAll (s : State) : State := s.nvq.cqs.foldl (fun s e => s.cqDrain e.1 (e.2.held.length)) s

/-- A completion enters its queue: the tag stays held until the entry has been written (R289). -/
def State.complete (s : State) (t dw0 dw1 status : Nat) : State :=
  match s.cmd? t with
  | none => s
  | some c =>
    if c.orphan then
      ((s.dropCmd t).setFld (Reg.HIF_PORT_ORPHAN c.ctrl) 0 12 (s.fld (Reg.HIF_PORT_ORPHAN c.ctrl) 0 12 - 1))
    else match s.sq (qKey c.ctrl c.qid) with
      | none => s.dropCmd t
      | some x =>
        let k := qKey c.ctrl x.cq
        match s.cq k with
        | none => s.dropCmd t
        | some q =>
          let s := s.putCmd { c with posted := true, dp := true }
          let s := s.setCq k { q with held := q.held ++ [⟨t, dw0, dw1, status⟩] }
          s.cqDrain k (q.held.length + 1)

/-- A post of a completion port (R291, R292, R343): a tag not held, or of a fast-path command, sets BADTAG. -/
def State.nvqPost (s : State) (t dw0 dw1 status : Nat) : State :=
  match s.cmd? t with
  | none => s.orReg Reg.NVQ_STATUS (bit 0)
  | some c =>
    if c.ph ≠ .engine ∨ c.posted then s.orReg Reg.NVQ_STATUS (bit 0) else s.complete t dw0 dw1 status

/-- A completion port register written by its own thread: W3 posts the port's contents (R291). -/
def State.cplPortWrite (s : State) (ag : Agent) (p : Thr) (v : W32) : State :=
  if ag ≠ .thread p ∨ !s.isBase then s
  else
    let s := s.setReg (Reg.NVQ_CPL p 3) v
    s.nvqPost (s.fld (Reg.NVQ_CPL p 2) 0 11) (s.reg (Reg.NVQ_CPL p 0)).toNat (s.reg (Reg.NVQ_CPL p 1)).toNat (getF v 1 15)

/-- Status field of a completion: SC, SCT and DNR. -/
def stField (sct sc dnr : Nat) : Nat := sc + 2 ^ 8 * sct + 2 ^ 14 * dnr

/-- Waiting events complete outstanding Asynchronous Event Requests, one each (R288); an event type stays muted until its
log page has been read. -/
def State.flushEvents (s : State) (n : Nat) : Nat → State
  | 0 => s
  | fuel + 1 =>
    let c := s.ctl n
    match c.aer, c.events.find? (fun v => !(c.muted.contains (v % 8))) with
    | t :: ts, some v =>
      let s := s.setCtl n { c with aer := ts, events := c.events.erase v, muted := c.muted ++ [v % 8] }
      (s.complete t v 0 0).flushEvents n fuel
    | _, _ => s

/-- An asynchronous event reported. -/
def State.event (s : State) (n type info page : Nat) : State := (s.asyncEvent n type info page).flushEvents n 8

/-! ### Doorbells (R289, R292, R346) -/

/-- A submission queue tail doorbell. -/
def State.sqDoorbell (s : State) (n q v : Nat) : State :=
  if !s.portLive n ∨ !s.takesMem n then s
  else match if q < 256 then s.sq (qKey n q) else none with
    | none => s.event n 0 0 1
    | some x =>
      let free := (x.head + x.size - 1 - x.tail) % max 1 x.size
      let add := (v + x.size - x.tail) % max 1 x.size
      if x.size ≤ v ∨ add = 0 ∨ free < add then s.event n 0 1 1
      else s.setSq (qKey n q) { x with tail := v, stopped := false }

/-- A completion queue head doorbell: held entries go out, and INTx follows (R292, R341). -/
def State.cqDoorbell (s : State) (n q v : Nat) : State :=
  if !s.portLive n ∨ !s.takesMem n then s
  else match if q < 256 then s.cq (qKey n q) else none with
    | none => s.event n 0 0 1
    | some x =>
      let used := (x.tail + x.size - x.head) % max 1 x.size
      let add := (v + x.size - x.head) % max 1 x.size
      if x.size ≤ v ∨ add = 0 ∨ used < add then s.event n 0 1 1
      else
        let x := { x with head := v, owed := x.owed && decide (v ≠ x.tail) }
        ((s.setCq (qKey n q) x).cqDrain (qKey n q) x.held.length).intxUpdate n

/-! ### Bases in force -/

/-- FLOG_BITS, FREE_BITS and DIRBITS in force; values outside act as the nearer limit. -/
def State.flogSize (s : State) : Nat := 2 ^ max 6 (min 20 (getF s.nvq.cfg 24 5))
def State.freeSize (s : State) : Nat := 2 ^ max 6 (min 20 (getF s.nvq.cfg 16 5))
def State.dirSize (s : State) : Nat := 2 ^ max 10 (min 20 (getF s.nvq.cfg 0 5))

/-- The bases and sizes follow their registers while FAST_WR = FAST_RD = 0. -/
def State.nvqBases (s : State) : State :=
  if s.fld Reg.NVQ_CTRL 1 2 = 0 then
    { s with nvq := { s.nvq with dir := s.reg64 Reg.NVQ_BC_DIR_LO, slots := s.reg64 Reg.NVQ_BC_SLOT_LO,
                                 free := s.reg64 Reg.NVQ_FREE_LO, flog := s.reg64 Reg.NVQ_FLOG_LO,
                                 cfg := s.reg Reg.NVQ_BC_CFG } }
  else s

/-- NVQ_CTRL written: EN = 1 resumes fetching and posting once the dump has ended (DEDUCED, log entry 21), and the first enable of
the fast path puts the directory into use. -/
def State.nvqCtrlWritten (s : State) : State :=
  let s := if s.fld Reg.NVQ_CTRL 1 2 ≠ 0 then { s with svc := { s.svc with dir := true } } else s
  let s := s.nvqBases
  if s.rbit Reg.NVQ_CTRL 0 ∧ s.gs.dump.isNone ∧ s.nvq.stopped then
    ({ s with nvq := { s.nvq with stopped := false } }).drainAll
  else s

/-! ### The charge (R304) -/

/-- The ceiling in force. -/
def State.ceil (s : State) : Nat := min 0x1000000 (s.fld Reg.NVI_GS_CEIL 0 25)
/-- The charge. -/
def State.charge (s : State) : Nat := s.fld Reg.NVI_GS_CHARGE 0 25
/-- A fast-path change of the charge. -/
def State.setCharge (s : State) (n : Nat) : State := s.setFld Reg.NVI_GS_CHARGE 0 25 n

/-- A signed change through a charge port (R304). -/
def State.chargeAdjust (s : State) (p : Nat) (d : Int) : State :=
  let x := (s.charge : Int) + d
  if 0 ≤ x ∧ x ≤ (s.ceil : Int) then (s.setCharge x.toNat).setReg (Reg.NVI_GS_ADJ p) 1
  else (s.setReg (Reg.NVI_GS_ADJ p) 0).orReg Reg.NVI_GS_STATUS (bit 6)

/-! ### Buckets (R293) -/

/-- A way of a bucket line: LBA, slot and flags. -/
structure Way where
  lba : Nat
  slot : Nat
  flags : Nat
  deriving DecidableEq, Repr

/-- Way `i` of a line. -/
def wayOf (l : List W8) (i : Nat) : Way := ⟨leAt l (16 * i) 8, leAt l (16 * i + 8) 4, leAt l (16 * i + 12) 2⟩
/-- VALID, DIRTY, BUSY. -/
def Way.valid (w : Way) : Bool := w.flags.testBit 0
def Way.dirty (w : Way) : Bool := w.flags.testBit 1
def Way.busy (w : Way) : Bool := w.flags.testBit 2
/-- A way as stored. -/
def Way.bytes (w : Way) : List W8 := leBytes 8 w.lba ++ leBytes 4 w.slot ++ leBytes 2 w.flags ++ [0, 0]
/-- The address of the bucket of an LBA. -/
def State.bucketAt (s : State) (lba : Nat) : Nat := s.nvq.dir + 64 * (lba % s.dirSize)
/-- The address of a slot. -/
def State.slotAt (s : State) (i : Nat) : Nat := s.nvq.slots + 4096 * i
/-- The line of an LBA's bucket, whether it reads uncorrectable, and the state after. -/
def State.bucket (s : State) (lba : Nat) : List W8 × Bool × State := s.memRead (s.bucketAt lba) 64
/-- The way of a line that is the LBA's own. -/
def ownWay (l : List W8) (lba : Nat) : Option Nat :=
  (List.range 4).find? fun i => (wayOf l i).valid && (wayOf l i).lba == lba
/-- A way for the LBA with BUSY = 1. -/
def busyWay (l : List W8) (lba : Nat) : Bool :=
  (List.range 4).any fun i => (wayOf l i).busy && (wayOf l i).lba == lba
/-- The way a fast-path write takes (step 3 of R295). -/
def chooseWay (l : List W8) (lba : Nat) : Option Nat :=
  if busyWay l lba then none
  else match ownWay l lba with
    | some i => some i
    | none =>
      match (List.range 4).find? (fun i => !(wayOf l i).valid && !(wayOf l i).busy) with
      | some i => some i
      | none => (List.range 4).find? fun i => !(wayOf l i).dirty && !(wayOf l i).busy

/-! ### Fetch and classification (R289, R290, R294, R298) -/

/-- The controller fetches: enabled by the host. -/
def State.ctlOn (s : State) (n : Nat) : Bool := tb (s.ctl n).cc 0 && (s.ctl n).rdy

/-- A submission queue from which NVQ may fetch. -/
def State.fetchable (s : State) (k : Nat) (q : NSq) : Bool :=
  s.ctlOn (k / 256) && q.head != q.tail && !q.stopped && s.busMaster (k / 256)

/-- The queue whose turn it is (R289): the last one while its burst lasts, else the next in rotation. -/
def State.nextSq (s : State) : Option (Nat × NSq) :=
  let ok := s.nvq.sqs.filter fun e => s.fetchable e.1 e.2
  match ok.find? (fun e => e.1 == s.nvq.last && s.nvq.turn != 0) with
  | some e => some e
  | none =>
    match ok.find? (fun e => decide (s.nvq.last < e.1)) with
    | some e => some e
    | none => ok.head?

/-- Fetches in one turn: 2^AB of the Arbitration feature, without limit at 7. -/
def State.burst (s : State) (n : Nat) : Nat :=
  let ab := s.feat n 1 0 % 8
  if ab = 7 then 4096 else 2 ^ ab

/-- The lowest free tag. -/
def State.freeCmdTag (s : State) : Option Nat := (List.range 2048).find? fun t => (s.cmd? t).isNone

/-- The address of a tag's entry copy. -/
def State.entryAt (s : State) (t : Nat) : Nat := s.reg64 Reg.NVQ_CMDBUF_LO + 64 * t

/-- An active object namespace (R241). -/
def State.objNsid (s : State) (nsid : Nat) : Bool := decide (2 ≤ nsid) && (smFind s.svc.nss (nsid - 2)).isSome

/-- The class of a command: 0 admin, 1 NVM, 2 object (R290). -/
def State.cmdClass (s : State) (c : NCmd) : Nat := if c.admin then 0 else if s.objNsid c.nsid then 2 else 1

/-- The camp mask of a class. -/
def State.classMask (s : State) (c : Nat) : Nat := s.fld Reg.NVQ_ROUTE (8 * c) 6

/-- The work message of a command (R290). -/
def State.workMsg (s : State) (c : NCmd) (fallback : Bool) : Msg :=
  { w0 := BitVec.ofNat 64 (c.tag + 2 ^ 16 * c.qid + 2 ^ 24 * c.ctrl + 2 ^ 25 * b2n fallback + 2 ^ 32 * (c.seq % 2 ^ 32))
    w1 := BitVec.ofNat 64 (s.entryAt c.tag), src := blockSrc 3 }

/-- A command goes down the engine path: its work message is posted, or held while its class's mask is 0. -/
def State.toEngine (s : State) (c : NCmd) (fallback : Bool) : State :=
  let s := (s.putCmd { c with ph := .engine }).incFld (Reg.NVQ_CNT 2) 0 32
  let k := s.cmdClass c
  let m := s.workMsg c fallback
  if s.classMask k = 0 then { s with nvq := { s.nvq with unposted := s.nvq.unposted ++ [(k, m)] } }
  else s.post ⟨s.classMask k, 32 + k, m⟩

/-- Work messages of a class whose mask is no longer 0 are posted (NVQ_ROUTE written). -/
def State.routeWritten (s : State) : State :=
  let go := s.nvq.unposted.filter fun e => s.classMask e.1 != 0
  let s := { s with nvq := { s.nvq with unposted := s.nvq.unposted.filter fun e => s.classMask e.1 == 0 } }
  go.foldl (fun s e => s.post ⟨s.classMask e.1, 32 + e.1, e.2⟩) s

/-- The fast path's conditions that the entry alone decides (R294). -/
def State.fastShape (s : State) (c : NCmd) : Bool :=
  !c.admin && c.nsid == 1 && c.nlb == 1 && !c.fua && c.fuse == 0 && c.psdt == 0 && decide (c.slba < s.svc.nsze)

/-- No engine-path command in flight that touches NSID 1 covers the LBA (R298). -/
def State.engineCovers (s : State) (c : NCmd) : Bool :=
  s.nvq.cmds.any fun x => x.tag != c.tag && x.ph == .engine &&
    (match x.range with | some r => overlap r (c.slba, 1) | none => false)

/-- Tail plus one of a ring meets its head. -/
def ringFull (tail head size : Nat) : Bool := decide ((tail + 1) % size = head % size)

/-- Records that the log ring still has room for, beyond those owed by fast-path writes in flight. -/
def State.flogRoom (s : State) : Bool :=
  let size := s.flogSize
  let used := (s.fld Reg.NVQ_FLOG_TAIL 0 20 + size - s.fld Reg.NVQ_FLOG_HEAD 0 20) % size
  let due := s.nvq.owed.length + (s.nvq.cmds.filter fun c => match c.ph with | .write _ => !c.posted | _ => false).length
  decide (used + due + 1 < size)

/-- Bivouac holds (SYS_ROLE.BIVOUAC). -/
def State.inBiv (s : State) : Bool := s.rbit Reg.SYS_ROLE 4

/-- Classification of a fetched command (R290, R294): a fast-path read, a Write that waits for its indivisible check, or
the engine path. -/
def State.classify (s : State) (c : NCmd) : State :=
  if s.fastShape c && c.opc == 0x01 && s.rbit Reg.NVQ_CTRL 1 then s.putCmd { c with ph := .candidate }
  else if s.fastShape c && c.opc == 0x02 && s.rbit Reg.NVQ_CTRL 2 && !s.engineCovers c then
    let (l, ue, s) := s.bucket c.slba
    match ownWay l c.slba with
    | some i => if ue || busyWay l c.slba then s.toEngine c false else s.putCmd { c with ph := .read (wayOf l i).slot }
    | none => s.toEngine c false
  else s.toEngine c false

/-- A fetch failed at PCIe (R289). -/
def State.fetchFailed (s : State) (k : Nat) (q : NSq) : State :=
  let s := s.setSq k { q with stopped := true }
  let first := !(s.rbit Reg.NVQ_STATUS 5)
  let s := s.orReg Reg.NVQ_STATUS (bit 5)
  if first then s.setReg Reg.NVQ_FETCH_ERR (BitVec.ofNat 32 (2 ^ 24 * (k / 256) + 2 ^ 16 * (k % 256))) else s

/-- One fetch from the queue whose turn it is (R289). `e` is what the host returns for the entry; an entry within the own window is read there (R329). -/
def State.nvqFetch (s : State) (e : HostData) : State :=
  if !s.isBase || !(s.rbit Reg.NVQ_CTRL 0) || s.nvq.stopped then s
  else match s.nextSq with
    | none => s
    | some (k, q) =>
      match s.freeCmdTag with
      | none => s.orReg Reg.NVQ_STATUS (bit 4)
      | some t =>
        let n := k / 256
        let turn := if k = s.nvq.last ∧ s.nvq.turn ≠ 0 then s.nvq.turn - 1 else s.burst n - 1
        let s := { s with nvq := { s.nvq with last := k, turn := turn } }
        let a := q.base + 64 * q.head
        let (ent, s) := match s.ownBar4 n a 64 with
          | some x => let (d, ue, s) := s.memRead x 64; (if ue then none else some d, s)
          | none => if s.inBar4 n a || !s.busMaster n then (none, s) else (hostBytes e, s.hostFail n e)
        match ent with
        | none => s.fetchFailed k q
        | some d =>
          let c : NCmd := ⟨t, s.nvq.seq, n, k % 256, padTo 64 d, .engine, false, false, false⟩
          let s := s.setSq k { q with head := (q.head + 1) % max 1 q.size }
          let s := { s with nvq := { s.nvq with seq := s.nvq.seq + 1 } }
          let s := (s.setCmds (s.nvq.cmds ++ [c])).memWrite (s.entryAt t) c.entry
          s.classify c

/-! ### The fast path (R294 to R296) -/

/-- A fast-path log record, written at the tail of its ring (R293). -/
def State.flogWrite (s : State) (r : Nat × Nat × Nat) : State :=
  let t := s.fld Reg.NVQ_FLOG_TAIL 0 20
  let s := s.memWrite (s.nvq.flog + 16 * t) (leBytes 8 r.1 ++ leBytes 4 r.2.1 ++ leBytes 4 r.2.2)
  (s.setFld Reg.NVQ_FLOG_TAIL 0 20 ((t + 1) % s.flogSize)).orReg Reg.NVQ_STATUS (bit 1)

/-- A fast-path read still moves data from the slot. -/
def State.slotRead (s : State) (i : Nat) : Bool := s.nvq.cmds.any fun c => decide (c.ph = .read i)

/-- Owed records whose slot no read holds any more are written, in order (R295). -/
def State.flogFlush (s : State) : State :=
  let go := s.nvq.owed.filter fun r => !s.slotRead r.2.2
  let s := { s with nvq := { s.nvq with owed := s.nvq.owed.filter fun r => s.slotRead r.2.2 } }
  go.foldl (fun s r => s.flogWrite r) s

/-- Step 1 of R295 with the checks of R294, in one action: the command becomes a fast-path write with its slot, or goes
down the engine path. -/
def State.fastWrite (s : State) (t : Nat) : State :=
  match s.cmd? t with
  | none => s
  | some c =>
    if c.ph ≠ .candidate || s.nvq.stopped then s
    else if !(s.rbit Reg.NVQ_CTRL 1) || s.engineCovers c || !(s.rbit Reg.NVI_GS_STATE 0) || s.rbit Reg.NVI_GS_STATE 5 ||
        s.inBiv then s.toEngine c false
    else if s.fld Reg.NVQ_FREE_HEAD 0 20 % s.freeSize = s.fld Reg.NVQ_FREE_TAIL 0 20 % s.freeSize then
      (s.orReg Reg.NVQ_STATUS (bit 2)).toEngine c false
    else if !s.flogRoom then (s.orReg Reg.NVQ_STATUS (bit 3)).toEngine c false
    else
      let (l, ue, s) := s.bucket c.slba
      if ue || (chooseWay l c.slba).isNone || decide (s.ceil < s.charge + 65) then s.toEngine c false
      else
        let h := s.fld Reg.NVQ_FREE_HEAD 0 20
        let (slot, _, s) := s.memNat (s.nvq.free + 4 * h) 4
        let s := (s.setCharge (s.charge + 65)).setFld Reg.NVQ_FREE_HEAD 0 20 ((h + 1) % s.freeSize)
        s.putCmd { c with ph := .write slot }

/-- The host pages of a 4,096-byte transfer: address and length (R288). -/
def NCmd.pages (c : NCmd) : List (Nat × Nat) :=
  let o := c.prp1 % 4096
  if o = 0 then [(c.prp1, 4096)] else [(c.prp1, 4096 - o), (c.prp2, o)]

/-- The 4,096 bytes a fast-path write fetches: pieces in the own window are read there, others are the host's (R329);
uncorrectable window data fails the transfer like poisoned data. -/
def State.fastData (s : State) (c : NCmd) (d : HostData) : Option (List W8) × State :=
  let sent := s.busMaster c.ctrl && c.pages.any fun p => !(s.inBar4 c.ctrl p.1)
  let s := if sent then s.hostFail c.ctrl d else s
  let (l, _, s) := c.pages.foldl (fun (acc : Option (List W8) × Nat × State) p =>
    let (got, o, s) := acc
    match s.ownBar4 c.ctrl p.1 p.2 with
    | some a =>
      let (x, ue, s) := s.memRead a p.2
      (if ue then none else got.map (· ++ x), o + p.2, s)
    | none =>
      (if s.busMaster c.ctrl && !(s.inBar4 c.ctrl p.1) then (got.bind fun g => (hostBytes d).map fun d => g ++ sliceB d o p.2) else none,
        o + p.2, s))
    ((some [], 0, s) : Option (List W8) × Nat × State)
  (l, s)

/-- The fast-path write ends without its data (R296): the charge falls again and the slot goes back through a log
record. -/
def State.fastWriteFail (s : State) (c : NCmd) (slot : Nat) : State :=
  let s := (s.setCharge (s.charge - 65)).flogWrite (2 ^ 64 - 1, slot, 2 ^ 32 - 1)
  s.complete c.tag 0 0 (stField 0 4 0)

/-- Reads of the LBA fetched later copy from its new slot (R297). -/
def State.retarget (s : State) (c : NCmd) (slot : Nat) : State :=
  s.setCmds (s.nvq.cmds.map fun x =>
    match x.ph with
    | .read _ => if x.slba == c.slba && decide (c.seq < x.seq) then { x with ph := .read slot } else x
    | _ => x)

/-- Steps 2 to 5 of R295: the data, the bucket line, the charge, the record and the completion. While no way qualifies
nothing is written and the step repeats; an overlapping earlier command goes first (R297). -/
def State.fastBucket (s : State) (t : Nat) (d : HostData) : State :=
  match s.cmd? t with
  | none => s
  | some c =>
    match c.ph with
    | .write slot =>
      if s.nvq.stopped || s.mustWait c || c.posted then s
      else match s.fastData c d with
        | (none, s) => s.fastWriteFail c slot
        | (some data, s) =>
          let (l, _, s) := s.bucket c.slba
          match chooseWay l c.slba with
          | none => s
          | some i =>
            let w := wayOf l i
            let own := w.valid && w.lba == c.slba
            let s := s.memWrite (s.slotAt slot) data
            let s := s.memWrite (s.bucketAt c.slba) (patchB l (16 * i) (Way.bytes ⟨c.slba, slot, 3⟩))
            let s := if own && w.dirty then s.setCharge (s.charge - 65) else s
            let s := s.retarget c slot
            let s := { s with nvq := { s.nvq with owed := s.nvq.owed ++ [(c.slba, slot, if w.valid then w.slot else 2 ^ 32 - 1)] } }
            let s := s.incFld (Reg.NVQ_CNT 0) 0 32
            (s.putCmd { c with dp := true }).complete t 0 0 0 |>.flogFlush
    | _ => s

/-- The bytes before the first uncorrectable word. -/
def goodPrefix (l : List (W8 × Bool)) : List W8 := (l.takeWhile fun x => !x.2).map (·.1)

/-- Bytes sent to the host pages of a command. -/
def State.toPages (s : State) (n : Nat) (l : List W8) (ps : List (Nat × Nat)) : State :=
  match ps with
  | [] => s
  | p :: rest => ((s.hostWrite n p.1 (l.take p.2)).2).toPages n (l.drop p.2) rest

/-- A fast-path read (R296): the slot is copied to the host, and an uncorrectable word hands the command to the engine
path. -/
def State.fastRead (s : State) (t : Nat) : State :=
  match s.cmd? t with
  | none => s
  | some c =>
    match c.ph with
    | .read slot =>
      if s.nvq.stopped || s.mustWait c || c.posted then s
      else if !s.busMaster c.ctrl then (s.putCmd { c with ph := .read (2 ^ 32) }).complete t 0 0 (stField 0 4 0) |>.flogFlush
      else
        let (l, s) := s.memReadMarked (s.slotAt slot) 4096 513
        let s := s.toPages c.ctrl (goodPrefix l) c.pages
        if anyMark l then (s.toEngine c true).flogFlush
        else ((s.incFld (Reg.NVQ_CNT 1) 0 32).putCmd { c with dp := true, ph := .read (2 ^ 32) }).complete t 0 0 0 |>.flogFlush
    | _ => s

/-! ### Resets of a controller (R342, R343) -/

/-- What a reset of controller `n` does to its commands: fast-path commands end as for a failed transfer and their tags
are released; engine-path tags become orphaned (R343). -/
def State.loseCmds (s : State) (n : Nat) : State :=
  s.nvq.cmds.foldl (fun s c =>
    if c.ctrl ≠ n ∨ c.orphan then s
    else match c.ph with
      | .engine =>
        if c.posted then s.dropCmd c.tag
        else (s.putCmd { c with orphan := true }).incFld (Reg.HIF_PORT_ORPHAN n) 0 12
      | .candidate => s.dropCmd c.tag
      | .write slot =>
        if c.dp then s.dropCmd c.tag
        else ((s.setCharge (s.charge - 65)).flogWrite (2 ^ 64 - 1, slot, 2 ^ 32 - 1)).dropCmd c.tag
      | .read _ => (s.dropCmd c.tag).flogFlush) s

/-- Controller `n` is reset: as by CC.EN going from 1 to 0, every queue deleted; `regs` takes CC, AQA, ASQ and ACQ to
their defaults (R342); a firmware image in progress is discarded (R483). -/
def State.ctlReset (s : State) (n : Nat) (regs : Bool) : State :=
  let s := (s.loseCmds n).endHReqs n
  let s := { s with fw := { s.fw with
    img := [], commit := if s.fw.handover.isSome then s.fw.commit else none, relays := [] } }
  let s := { s with nvq := { s.nvq with sqs := s.nvq.sqs.filter (fun e => e.1 / 256 != n),
                                        cqs := s.nvq.cqs.filter (fun e => e.1 / 256 != n) } }
  let c := s.ctl n
  let c' := { NCtl.reset with errlog := c.errlog, errCnt := c.errCnt }
  let s := s.setCtl n (if regs then c' else { c' with cc := c.cc &&& ~~~ bit 0, aqa := c.aqa, asq := c.asq, acq := c.acq })
  s.intxUpdate n

/-- CC.EN written from 0 to 1: the admin queues exist and the controller becomes ready. -/
def State.ctlEnable (s : State) (n : Nat) : State :=
  let c := s.ctl n
  let s := s.setCtl n { c with rdy := true, shst := 0 }
  let s := s.setSq (qKey n 0) ⟨c.asq / 4096 * 4096, getF c.aqa 0 12 + 1, 0, 0, 0, false⟩
  s.setCq (qKey n 0) ⟨c.acq / 4096 * 4096, getF c.aqa 16 12 + 1, 0, 0, true, 0, true, [], false⟩

/-- CC written (R342, R326). -/
def State.ccWrite (s : State) (n : Nat) (v : W32) : State :=
  let old := (s.ctl n).cc
  let s := s.setCtl n { s.ctl n with cc := v, shst := if getF v 14 2 ≠ 0 then 2 else (s.ctl n).shst }
  if tb old 0 ∧ !(tb v 0) then s.ctlReset n false
  else if !(tb old 0) ∧ tb v 0 then s.ctlEnable n
  else s

/-- A 32-bit word of the NVMe registers in BAR0 (R288, R326, R329); CAP.TO is a free value. -/
def State.nvmeReg (s : State) (n off : Nat) : W32 :=
  let c := s.ctl n
  let lim := getF (s.act (Reg.HIF_PORT_PW_LIMIT n)) 0 14
  match off with
  | 0x00 => BitVec.ofNat 32 (0x0FFF + 2 ^ 16 + 2 ^ 24 * ((Config.freeOf 1 0).toNat % 256))
  | 0x04 => BitVec.ofNat 32 (2 ^ 5 + 2 ^ 11 + (if lim = 0 then 0 else 2 ^ 25))
  | 0x08 => 0x00020100
  | 0x0C => c.intms
  | 0x10 => c.intms
  | 0x14 => c.cc
  | 0x1C => BitVec.ofNat 32 (b2n c.rdy + 4 * c.shst)
  | 0x24 => c.aqa
  | 0x28 => BitVec.ofNat 32 c.asq
  | 0x2C => BitVec.ofNat 32 (c.asq / 2 ^ 32)
  | 0x30 => BitVec.ofNat 32 c.acq
  | 0x34 => BitVec.ofNat 32 (c.acq / 2 ^ 32)
  | 0x38 => if lim = 0 then 0 else 4
  | 0x3C => if lim = 0 then 0 else BitVec.ofNat 32 (1 + 4 + 8 + 16 + 2 ^ 8 * 2 + 2 ^ 12 * lim)
  | _ => 0

/-- A write of a 32-bit word of the NVMe registers. -/
def State.nvmeRegWrite (s : State) (n off : Nat) (v : W32) : State :=
  let c := s.ctl n
  match off with
  | 0x0C => (s.setCtl n { c with intms := c.intms ||| v }).intxUpdate n
  | 0x10 => (s.setCtl n { c with intms := c.intms &&& ~~~ v }).signalOwed n
  | 0x14 => s.ccWrite n v
  | 0x24 => s.setCtl n { c with aqa := v &&& 0x0FFF0FFF }
  | 0x28 => s.setCtl n { c with asq := c.asq / 2 ^ 32 * 2 ^ 32 + v.toNat / 4096 * 4096 }
  | 0x2C => s.setCtl n { c with asq := c.asq % 2 ^ 32 + 2 ^ 32 * v.toNat }
  | 0x30 => s.setCtl n { c with acq := c.acq / 2 ^ 32 * 2 ^ 32 + v.toNat / 4096 * 4096 }
  | 0x34 => s.setCtl n { c with acq := c.acq % 2 ^ 32 + 2 ^ 32 * v.toNat }
  | _ => s

end Sys2Proof.Machine
end

