-- ==== Sys2Proof/Machine/F32.lean ====
section
/-! DEFINITION. Binary32 arithmetic of Guyline and the spindle unit (R190): exact results rounded once to nearest even,
subnormals and underflows replaced by +0.0, overflows by the greatest magnitude, infinities and NaN read as +0.0. -/

namespace Sys2Proof.Machine

/-- An exact value (-1)^neg · m · 2^e; a zero keeps its sign. -/
structure Flt where
  neg : Bool
  m : Nat
  e : Int
  deriving DecidableEq, Repr

/-- The value of an operand, +0.0 for a subnormal, an infinity or a NaN. -/
def fval (x : W32) : Flt :=
  let e := getF x 23 8
  let n := tb x 31
  if e = 255 then ⟨false, 0, 0⟩
  else if e = 0 then ⟨n && getF x 0 23 == 0, 0, 0⟩
  else ⟨n, 2 ^ 23 + getF x 0 23, (e : Int) - 150⟩

/-- An infinity or a NaN (BADOP). -/
def fbad (x : W32) : Bool := getF x 23 8 == 255

/-- Sign, exponent field and fraction as a word. -/
def fpack (neg : Bool) (e f : Nat) : W32 := BitVec.ofNat 32 (b2n neg * 2 ^ 31 + e * 2 ^ 23 + f % 2 ^ 23)

/-- The greatest magnitude (0x7F7F_FFFF with the sign). -/
def fmax (neg : Bool) : W32 := fpack neg 254 (2 ^ 23 - 1)

/-- A magnitude of 24 significant bits M · 2^E, M from 2^23 to 2^24 - 1, as a word; overflow is told. -/
def fassemble (neg : Bool) (m : Nat) (e : Int) : W32 × Bool :=
  let f := e + 150
  if f ≤ 0 then (0, false) else if 255 ≤ f then (fmax neg, true) else (fpack neg f.toNat m, false)

/-- Rounding of an exact value: to nearest, ties to even, on 24 significant bits with unbounded exponent, then the limits
of R190. The flag tells an overflow. -/
def fround (x : Flt) : W32 × Bool :=
  if x.m = 0 then (fpack x.neg 0 0, false)
  else
    let n := Nat.log2 x.m + 1
    if n ≤ 24 then fassemble x.neg (x.m * 2 ^ (24 - n)) (x.e - (24 - n : Nat))
    else
      let k := n - 24
      let q := x.m / 2 ^ k
      let r := x.m % 2 ^ k
      let q := if 2 ^ (k - 1) < r ∨ (r = 2 ^ (k - 1) ∧ q % 2 = 1) then q + 1 else q
      if q = 2 ^ 24 then fassemble x.neg (2 ^ 23) (x.e + k + 1) else fassemble x.neg q (x.e + k)

/-- Exact sum; the sum of opposite values is +0. -/
def Flt.add (a b : Flt) : Flt :=
  if a.m = 0 ∧ b.m = 0 then ⟨a.neg && b.neg, 0, 0⟩
  else
    let e := min a.e b.e
    let e := if a.m = 0 then b.e else if b.m = 0 then a.e else e
    let x : Int := (if a.neg then -1 else 1) * (a.m * 2 ^ (a.e - e).toNat : Nat)
    let y : Int := (if b.neg then -1 else 1) * (b.m * 2 ^ (b.e - e).toNat : Nat)
    ⟨decide (x + y < 0), (x + y).natAbs, e⟩
/-- Negation. -/
def Flt.negate (a : Flt) : Flt := { a with neg := !a.neg }
/-- Exact product. -/
def Flt.mul (a b : Flt) : Flt := ⟨a.neg != b.neg, a.m * b.m, a.e + b.e⟩
/-- A quotient with enough bits and a sticky bit that rounding is as from the exact one; the divisor is not 0. -/
def Flt.div (a b : Flt) : Flt :=
  let q := a.m * 2 ^ 64 / b.m
  let r := a.m * 2 ^ 64 % b.m
  ⟨a.neg != b.neg, if r = 0 then 2 * q else 2 * q + 1, a.e - b.e - 65⟩
/-- a < b. -/
def Flt.lt (a b : Flt) : Bool := let d := a.add b.negate; d.neg && d.m != 0

/-- The operations of the datapath on words. -/
def fadd (a b : W32) : W32 := (fround ((fval a).add (fval b))).1
def fsub (a b : W32) : W32 := (fround ((fval a).add (fval b).negate)).1
def fmul (a b : W32) : W32 := (fround ((fval a).mul (fval b))).1
def fdiv (a b : W32) : W32 := (fround ((fval a).div (fval b))).1
def fneg (a : W32) : W32 := (fround (fval a).negate).1
def fabs (a : W32) : W32 := (fround { fval a with neg := false }).1
def flt (a b : W32) : Bool := (fval a).lt (fval b)
def fle (a b : W32) : Bool := !(flt b a)
def fzero (a : W32) : Bool := (fval a).m == 0
/-- The smaller and the larger of two; the first when equal. -/
def fmin2 (a b : W32) : W32 := if flt b a then b else a
def fmax2 (a b : W32) : W32 := if flt a b then b else a
/-- An integer as binary32. -/
def fint (x : Int) : W32 := (fround ⟨decide (x < 0), x.natAbs, 0⟩).1
/-- m · 2^e as binary32. -/
def fdyad (x : Int) (e : Int) : W32 := (fround ⟨decide (x < 0), x.natAbs, e⟩).1

/-- Constants. -/
def f0 : W32 := 0
def f1 : W32 := 0x3F800000
def fm1 : W32 := 0xBF800000
def fhalf : W32 := 0x3F000000
def f2 : W32 := 0x40000000
def fquarter : W32 := 0x3E800000

/-- Integer square root by 40 steps of trial, from bit 39 down. -/
def isqrt (n : Nat) : Nat :=
  (List.range 40).foldl (fun r i => let t := r + 2 ^ (39 - i); if t * t ≤ n then t else r) 0

/-- The words within 1 ulp of an exact positive value whose first 24 significant bits are m · 2^e: `k` chooses among them. -/
def fnear (neg : Bool) (m : Nat) (e : Int) (exact : Bool) (k : Nat) : W32 × Bool :=
  let t := if exact then (if k % 3 = 0 then m else if k % 3 = 1 then m + 1 else m - 1) else m + k % 2
  if t = 2 ^ 24 then fassemble neg (2 ^ 23) (e + 1)
  else if t < 2 ^ 23 then fassemble neg (2 * t) (e - 1)
  else fassemble neg t e

/-- 1/a within 1 ulp (R192); the overflow result for 0. -/
def frcp (a : W32) (k : Nat) : W32 × Bool :=
  let x := fval a
  if x.m = 0 then (fmax x.neg, true)
  else
    -- x.m has 24 bits; 2^47 / x.m lies from 2^23 to 2^24
    let q := 2 ^ 47 / x.m
    let r := 2 ^ 47 % x.m
    if q = 2 ^ 24 then fnear x.neg (2 ^ 23) (-47 - x.e + 1) true k
    else fnear x.neg q (-47 - x.e) (r == 0) k

/-- 1/√a within 1 ulp (R192); the overflow result for 0. The flags tell overflow and a negative operand. -/
def frsq (a : W32) (k : Nat) : W32 × Bool × Bool :=
  let x := fval a
  if x.m = 0 then (fmax x.neg, true, false)
  else if x.neg then (0, false, true)
  else
    -- 1/√(m·2^e) = √(2^(2n)/m') · 2^(-(n) - e'/2) with e' even
    let (m, e) := if x.e % 2 = 0 then (x.m, x.e) else (2 * x.m, x.e - 1)
    let q := isqrt (2 ^ 72 / m)
    let exact := q * q * m == 2 ^ 72
    let n := Nat.log2 q + 1
    let t := if 24 ≤ n then q / 2 ^ (n - 24) else q * 2 ^ (24 - n)
    let ex := exact && (decide (n ≤ 24) || q % 2 ^ (n - 24) == 0)
    let r := fnear false t (-36 - e / 2 + (n - 24 : Int)) ex k
    (r.1, r.2, false)

/-- The nearest integer to a value times 2^p, ties away from zero, limited. -/
def fscale (x : Flt) (p : Nat) (lo hi : Int) : Int :=
  let e := x.e + p
  let v : Nat := if 0 ≤ e then x.m * 2 ^ min e.toNat 64 else (2 * x.m + 2 ^ min (-e).toNat 200) / 2 ^ (min (-e).toNat 200 + 1)
  let y : Int := if x.neg then -(v : Int) else v
  if y < lo then lo else if hi < y then hi else y

end Sys2Proof.Machine
end

