-- ==== Sys2Proof/Machine/Channel.lean ====
section
/-! DEFINITION. The signal path of a media channel on plain samples: defect detector, equaliser and its adaptation, front
ends and loops, detector, LDPC decoder, sync marks (R98 to R121). What the spec leaves open of it are free functions of Config
(DESIGN CHOICE, log entry 50). -/

namespace Sys2Proof.Machine

/-! ### Arithmetic -/

/-- round(a / n), ties away from zero (R106, R128). -/
def roundDiv (a : Int) (n : Nat) : Int :=
  if 0 ≤ a then (2 * a + n) / (2 * n) else -((2 * (-a) + n) / (2 * n))
/-- A value saturated to 8 bits. -/
def sat8 (x : Int) : W8 := BitVec.ofInt 8 (if x < -128 then -128 else if 127 < x then 127 else x)
/-- A value saturated to 16 bits. -/
def sat16 (x : Int) : Int := if x < -32768 then -32768 else if 32767 < x then 32767 else x
/-- Signed 16-bit and 8-bit values. -/
def sgn16 (n : Nat) : Int := (BitVec.ofNat 16 n).toInt
def sgn8 (n : Nat) : Int := (BitVec.ofNat 8 n).toInt
/-- Magnitude of an ADC code, a signed byte (R100). -/
def mag (b : W8) : Nat := b.toInt.natAbs
/-- The greatest magnitude of some samples. -/
def peak (l : List W8) : Nat := l.foldl (fun a b => max a (mag b)) 0

/-! ### Defect detector (R115 to R117) -/

/-- State of the thermal-asperity detector: position, the last 16 samples, samples over, samples below, the open span. -/
structure TaSt where
  i : Nat
  win : List Int
  above : Nat
  below : Nat
  span : Option Nat
  spans : List (Nat × Nat)

/-- Before the first sample. -/
def TaSt.init : TaSt := ⟨0, [], 0, 0, none, []⟩

/-- One sample (R115): the running mean exceeds the threshold in magnitude for 8 consecutive samples, until it has stayed
below for 64. Before 16 samples have been taken, the missing ones count as 0 (DESIGN CHOICE, log entry 79). -/
def taStep (thr : Nat) (t : TaSt) (b : W8) : TaSt :=
  let win := (t.win ++ [b.toInt]).drop (t.win.length + 1 - 16)
  let sum := (win.foldl (· + ·) 0).natAbs
  let hi := decide (16 * thr < sum)
  let above := if hi then t.above + 1 else 0
  let below := if sum < 16 * thr then t.below + 1 else 0
  match t.span with
  | none =>
    if 8 ≤ above then ⟨t.i + 1, win, above, 0, some (t.i - 7), t.spans⟩ else ⟨t.i + 1, win, above, below, none, t.spans⟩
  | some st =>
    if 64 ≤ below then ⟨t.i + 1, win, 0, 0, none, t.spans ++ [(st, t.i)]⟩
    else ⟨t.i + 1, win, above, below, some st, t.spans⟩

/-- Thermal asperities of one reader's samples. -/
def taSpans (thr : Nat) (l : List W8) : List (Nat × Nat) :=
  if thr = 0 then []
  else
    let t := l.foldl (taStep thr) TaSt.init
    match t.span with
    | some st => t.spans ++ [(st, l.length - 1)]
    | none => t.spans

/-- Peaks of consecutive 16-sample windows, which lie on a grid from bit position 0 (DESIGN CHOICE, log entry 79). -/
def windowPeaks (l : List W8) : Nat → List Nat
  | 0 => []
  | fuel + 1 => if l.length < 16 then [] else peak (l.take 16) :: windowPeaks (l.drop 16) fuel

/-- Runs of 2 or more consecutive low windows, as spans of positions (R116). -/
def lowRuns (i : Nat) (run : Nat) : List Bool → List (Nat × Nat)
  | [] => if 2 ≤ run then [((i - run) * 16, i * 16 - 1)] else []
  | true :: t => lowRuns (i + 1) (run + 1) t
  | false :: t => (if 2 ≤ run then [((i - run) * 16, i * 16 - 1)] else []) ++ lowRuns (i + 1) 0 t

/-- Dropouts of one reader's samples; the preamble amplitude is the peak over the preamble's samples. -/
def dropSpans (pct : Nat) (l : List W8) : List (Nat × Nat) :=
  if pct = 0 then []
  else
    let amp := peak (l.take 96)
    lowRuns 0 0 ((windowPeaks l (l.length / 16 + 1)).map fun p => decide (p * 100 < pct * amp))

/-- The dropout detector as it runs (R116): position, preamble amplitude so far, peak of the window, low windows in a row. -/
structure DropSt where
  i : Nat
  amp : Nat
  top : Nat
  low : Nat

/-- Before the first sample. -/
def DropSt.init : DropSt := ⟨0, 0, 0, 0⟩

/-- One sample. -/
def dropStep (pct : Nat) (t : DropSt) (b : W8) : DropSt :=
  let amp := if t.i < 96 then max t.amp (mag b) else t.amp
  let top := max t.top (mag b)
  if t.i % 16 = 15 then ⟨t.i + 1, amp, 0, if top * 100 < pct * amp then t.low + 1 else 0⟩ else ⟨t.i + 1, amp, top, t.low⟩

/-- Insertion by first position. -/
def insSpan (x : Nat × Nat) : List (Nat × Nat) → List (Nat × Nat)
  | [] => [x]
  | y :: t => if x.1 ≤ y.1 then x :: y :: t else y :: insSpan x t

/-- At most 16 ranges are held: later ones extend the last (R117). -/
def capRanges (l : List (Nat × Nat)) : List (Nat × Nat) :=
  match (l.drop 15) with
  | [] => l
  | x :: t => l.take 15 ++ [t.foldl (fun a y => (min a.1 y.1, max a.2 y.2)) x]

/-- Codeword bits inside the ranges, by the data start (R117); ranges stand in rising order. -/
def erasedBits (start : Int) (l : List (Nat × Nat)) : Nat :=
  (l.foldl (fun (p : Nat × Int) x =>
    let lo := max (max (x.1 : Int) start) p.2
    let hi := min (x.2 : Int) (start + 36607)
    if lo ≤ hi then (p.1 + (hi - lo + 1).toNat, hi + 1) else p) (0, start)).1

/-- A bit position lies in a flagged range. -/
def inRange (l : List (Nat × Nat)) (p : Int) : Bool := l.any fun x => decide ((x.1 : Int) ≤ p) && decide (p ≤ (x.2 : Int))

/-! ### Equaliser and target (R106, R107, R109) -/

/-- A reader on a data path: whether it contributes (R108), its start gain and offset, asymmetry, delay and 13 taps
(R103). -/
structure Rdr where
  on : Bool
  gain : Int
  ofs : Int
  asym : Int
  dly : Int
  taps : List Int
  deriving DecidableEq, Repr

/-- Bit positions for which the equaliser's output is formed: a sector's, and those a late data start reaches (R119,
R120). -/
def eqLen : Nat := 36832

/-- A sample corrected for reader asymmetry (R106). -/
def asymCorrect (asym x : Int) : Int := (sat8 (x + roundDiv (asym * x * x) 16384)).toInt

/-- The samples of a reader from index n - 6 + d of position n = 0 on, 0 before the span (R107): the window of position n is
the 13 samples from the n-th on, the latest tap's first. -/
def eqSamples (r : Rdr) (l : List W8) : List Int :=
  let c := l.map fun b => asymCorrect r.asym b.toInt
  let o := r.dly - 6
  if 0 ≤ o then c.drop o.toNat else List.replicate (-o).toNat 0 ++ c

/-- Sum of products of reversed taps with the samples from a position on. -/
def eqDot (w xs : List Int) : Int := (List.zipWith (· * ·) w xs).foldl (· + ·) 0

/-- The output in units of 1/16 code, from a sum in units of 2^-12 code: saturated at 1,023.9375 codes (R107). -/
def eqOut (x : Int) : Int :=
  let y := if x % 256 = 0 then x / 256 else x / 256 + (if Config.eqUp x then 1 else 0)
  if y < -16383 then -16383 else if 16383 < y then 16383 else y

/-- The equaliser's outputs over `n` positions, from the reversed taps and the samples of each reader. -/
def eqRun (ws : List (List Int)) : Nat → List (List Int) → List Int
  | 0, _ => []
  | n + 1, xs => eqOut ((List.zipWith eqDot ws xs).foldl (· + ·) 0) :: eqRun ws n (xs.map (·.drop 1))

/-- The readers that contribute, with their samples. -/
def onReaders (rs : List Rdr) (smp : List (List W8)) : List (Rdr × List W8) := (List.zip rs smp).filter (·.1.on)

/-- The equaliser's output over a sector's samples (R106 to R108). -/
def equalise (rs : List Rdr) (smp : List (List W8)) : List Int :=
  let p := onReaders rs smp
  eqRun (p.map fun x => x.1.taps.reverse) eqLen (p.map fun x => eqSamples x.1 x.2)

/-- The ideal output for channel bits a[n], a[n - 1], …, newest first (R107). -/
def idealOut (g a : List Int) : Int := (List.zipWith (· * ·) g a).foldl (· + ·) 0

/-- a[n] = 2b - 1 (R147). -/
def chanVal (b : Bool) : Int := if b then 1 else -1

/-- The decision-directed error of the newest output, in 1/16 code (R101, R109). -/
def dirErr (g ys : List Int) : Int :=
  ys.headD 0 - idealOut g ((List.range 5).map fun i => chanVal ((Config.slicer ys).getLsbD i))

/-- Adaptation under way: MU, the first codeword position, the flagged ranges (R109). -/
structure Lms where
  mu : Nat
  start : Int
  ranges : List (Nat × Nat)

/-- A tap moves by 2^-MU of its sample against the sign of the error y - z, in units of 2^-20, within the range of the
taps (R109). -/
def lmsTap (mu : Nat) (e acc x : Int) : Int :=
  let v := acc - e.sign * x * 2 ^ (20 - mu)
  if v < -8388608 then -8388608 else if 8388607 < v then 8388607 else v

/-- The equaliser with adapting taps: each reader's reversed taps in units of 2^-20 and whether its middle tap stays (C6).
Answers the outputs, newest first, and the taps. -/
def lmsRun (cfg : Lms) (g : List Int) (fixed : List Bool) :
    Nat → Nat → List (List Int) → List (List Int) → List Int → List Int × List (List Int)
  | 0, _, acc, _, ys => (ys, acc)
  | f + 1, n, acc, xs, ys =>
    let y := eqOut ((List.zipWith (fun a x => eqDot (a.map (· / 256)) x) acc xs).foldl (· + ·) 0)
    let p : Int := n
    let on := decide (cfg.start ≤ p) && decide (p < cfg.start + 36608) && !inRange cfg.ranges p
    let e := dirErr g (y :: ys)
    let upd := fun (k : Bool) (a : List Int) (x : List Int) =>
      (List.zip a (List.range 13)).zipWith (fun (w : Int × Nat) v => if k && w.2 == 6 then w.1 else lmsTap cfg.mu e w.1 v)
        (x ++ List.replicate 13 0)
    let acc := if on then (List.zip fixed (List.zip acc xs)).map fun (k, a, x) => upd k a x else acc
    lmsRun cfg g fixed f (n + 1) acc (xs.map (·.drop 1)) (y :: ys)

/-- The outputs over a sector with the taps `lms` (39, in units of 2^-20, order L, C, U) adapting, and the taps after it. A
reader that does not contribute keeps its taps. -/
def equaliseLms (cfg : Lms) (g : List Int) (rs : List Rdr) (lms : List Int) (smp : List (List W8)) : List Int × List Int :=
  let ix := (List.range 3).filter fun r => (rs[r]?.map (·.on)).getD false
  let acc := ix.map fun r => ((lms.drop (13 * r)).take 13).reverse
  let xs := (onReaders rs smp).map fun x => eqSamples x.1 x.2
  let (ys, acc) := lmsRun cfg g (ix.map (· == 1)) eqLen 0 acc xs []
  (ys.reverse, (List.range 3).flatMap fun r => match smFind (List.zip ix acc) r with
    | some a => a.reverse
    | none => (lms.drop (13 * r)).take 13)

/-! ### Front ends and loops (R98 to R101) -/

/-- The settings of the front ends and detectors that a zone entry gives (R103): RATE, CTF_FC + 64, boost, high-pass code,
the thresholds of the defect detector. -/
structure FrontSet where
  rate : Nat
  fc : Nat
  boost : Nat
  hpf : Nat
  taThr : Nat
  dropPct : Nat

/-- Sampling under way: loops, samples of each reader newest first, the detectors of each, the equaliser's outputs newest
first. -/
structure Sampler where
  loops : Loops
  smp : List (List W8)
  ta : List TaSt
  dr : List DropSt
  ys : List Int

/-- The ADC's code of a reader at a bit cell (R100). -/
def adcCode (fs : FrontSet) (sig : List Int) (n : Nat) (gain ofs phase : Int) : W8 :=
  sat8 ((Config.frontEnd [fs.rate, fs.fc, fs.boost, fs.hpf] sig n gain phase + ofs) / 4)

/-- The gain, from 0 to 30 dB, at which the peak over the preamble is 64 codes; the greatest where none reaches it (R101,
R103). -/
def acqGain (fs : FrontSet) (sig : List Int) (ofs phase : Int) : Int :=
  let ok := fun (g : Nat) => decide (64 ≤ peak ((List.range 96).map fun n => adcCode fs sig n g ofs phase))
  Int.ofNat (((List.range 241).find? ok).getD 240)

/-- The corrected sample of index `j` from samples up to cell `n`, newest first; 0 outside. -/
def backSample (r : Rdr) (l : List W8) (n : Nat) (j : Int) : Int :=
  if j < 0 ∨ (n : Int) < j then 0 else asymCorrect r.asym (l.getD (n - j.toNat) 0).toInt

/-- The newest output whose samples have all been taken at cell `n` (R107). -/
def newestOut (rs : List Rdr) (smp : List (List W8)) (n : Nat) : Option Int :=
  let p := onReaders rs smp
  let k : Int := n - 6 - p.foldl (fun a x => max a x.1.dly) 0
  if k < 0 then none
  else some (eqOut ((p.map fun (r, l) =>
    eqDot r.taps ((List.range 13).map fun i => backSample r l n (k - i + 6 + r.dly))).foldl (· + ·) 0))

/-- The loops after cell `n` (R101): acquisition through bit 95, with the phase start after 32 bits and the preamble at 64
codes at its end; tracking from bit 96 on; held while a span is flagged. -/
def loopsNext (fs : FrontSet) (g : List Int) (sigs : List (List Int)) (t : Sampler) (out flagged : Bool) (n : Nat) : Loops :=
  let x := t.loops
  let one := fun (f : Nat → Int → List W8 → Int) (k : Nat) (l : List Int) => List.zipWith (f k) l t.smp
  if flagged then x
  else if n < 95 then
    { gain := one (fun k v l => Config.acquire k n v l) 0 x.gain, ofs := one (fun k v l => Config.acquire k n v l) 1 x.ofs
      phase := if n = 31 then Config.zeroPhase (t.smp.getD 0 []) else Config.acquire 2 n x.phase (t.smp.getD 0 []) }
  else if n = 95 then
    { gain := (List.zip x.ofs sigs).map fun (o, sg) => acqGain fs sg o x.phase
      ofs := one (fun k v l => Config.acquire k n v l) 1 x.ofs, phase := Config.acquire 2 n x.phase (t.smp.getD 0 []) }
  else if out then
    let e := dirErr g t.ys
    { gain := one (fun k v l => Config.track k v e (l.headD 0).toInt) 0 x.gain
      ofs := one (fun k v l => Config.track k v e (l.headD 0).toInt) 1 x.ofs
      phase := Config.track 2 x.phase e (((t.smp.getD 0 []).headD 0).toInt) }
  else x

/-- One bit cell is sampled: by one clock for all readers (R98), into the defect detectors and the loops. -/
def Sampler.step (fs : FrontSet) (g : List Int) (rs : List Rdr) (sigs : List (List Int)) (t : Sampler) (n : Nat) : Sampler :=
  let codes := (List.zip sigs (List.zip t.loops.gain t.loops.ofs)).map fun (sg, a, o) => adcCode fs sg n a o t.loops.phase
  let smp := List.zipWith (fun c l => c :: l) codes t.smp
  let ta := List.zipWith (taStep fs.taThr) t.ta codes
  let dr := List.zipWith (dropStep fs.dropPct) t.dr codes
  let y := newestOut rs smp n
  let t := { t with smp := smp, ta := ta, dr := dr, ys := y.toList ++ t.ys }
  let flagged := fs.taThr != 0 && ta.any (·.span.isSome) || fs.dropPct != 0 && dr.any (fun d => decide (2 ≤ d.low))
  { t with loops := loopsNext fs g sigs t y.isSome flagged n }

/-- A sector is sampled from the readers that are on: their start values (R101, R103), and what the loops and samples
become. -/
def sampleSector (fs : FrontSet) (g : List Int) (rs : List Rdr) (sigs : List (List Int)) : Loops × List (List W8) :=
  let p := (List.zip rs sigs).filter (·.1.on)
  let z := fun {α : Type} (a : α) => p.map fun _ => a
  let t := (List.range 36808).foldl (Sampler.step fs g (p.map (·.1)) (p.map (·.2)))
    ⟨⟨p.map (·.1.gain), p.map (·.1.ofs), 0⟩, z [], z TaSt.init, z DropSt.init, []⟩
  (t.loops, t.smp.map (·.reverse))

/-- The samples of the readers that are on, spread over all readers: one that is off has none. -/
def spreadSamples (rs : List Rdr) : List (List W8) → List (List W8)
  | smp => match rs with
    | [] => []
    | r :: t => if r.on then smp.headD [] :: spreadSamples t (smp.drop 1) else [] :: spreadSamples t smp

/-! ### Detector (R110) -/

/-- The metric of a branch: state bit i is a[n - 1 - i]; a priori information favours the bit value 0. -/
def branch (g : List Int) (y ap : Int) (st : Nat) (b : Bool) : Int :=
  (if b then 0 else Config.apWeight ap) -
    (y - idealOut g (chanVal b :: (List.range 4).map fun i => chanVal (st.testBit i))) ^ 2

/-- The greatest of some metrics. -/
def maxOf (l : List Int) : Int := l.foldl max (l.headD 0)

/-- Metrics of the states after a bit: state t follows states t / 2 and t / 2 + 8 by the bit t mod 2. -/
def fwdStep (g : List Int) (al : List Int) (y ap : Int) : List Int :=
  (List.range 16).map fun t =>
    maxOf ([t / 2, t / 2 + 8].map fun st => al.getD st 0 + branch g y ap st (t.testBit 0))
/-- Metrics of the states before a bit, from those after it. -/
def bwdStep (g : List Int) (be : List Int) (y ap : Int) : List Int :=
  (List.range 16).map fun st =>
    maxOf ([false, true].map fun b => be.getD ((2 * st + b2n b) % 16) 0 + branch g y ap st b)
/-- The metric of the best path with a bit value. -/
def bestWith (g al be : List Int) (y ap : Int) (b : Bool) : Int :=
  maxOf ((List.range 16).map fun st => al.getD st 0 + branch g y ap st b + be.getD ((2 * st + b2n b) % 16) 0)

/-- The max-log-MAP detector on the 16-state trellis (R110): for each output with its a priori value, the best metric with
bit 0 less the best with bit 1; and the backward metrics. Every state may begin and end the sector. -/
def detect (g : List Int) : List Int → List (Int × Int) → List Int × List Int
  | _, [] => (List.replicate 16 0, [])
  | al, (y, ap) :: t =>
    let (be, ds) := detect g (fwdStep g al y ap) t
    (bwdStep g be y ap, (bestWith g al be y ap false - bestWith g al be y ap true) :: ds)

/-- The detector's metrics over a sector's outputs; missing a priori values are 0. -/
def detectAll (g ys ap : List Int) : List Int :=
  (detect g (List.replicate 16 0) (List.zip ys (ap ++ List.replicate (ys.length - ap.length) 0))).2

/-- The 6-bit log-likelihood ratio of a metric: a positive value favours 0 (R110). -/
def llrOf (d : Int) : Int := d.sign * (min 31 (Config.llrMag d.natAbs) : Nat)

/-- A decision on a value whose sign favours a bit: negative 1, positive 0. -/
def hardBit (pos : Nat) (d : Int) : Bool := if d < 0 then true else if 0 < d then false else Config.tieBit pos

/-- The detector's hard decisions over the first 208 bit positions (R118). -/
def hardBits (ds : List Int) : BitVec 208 :=
  ((ds.take 208).zip (List.range 208)).foldl (fun (v : BitVec 208) p =>
    if hardBit p.2 p.1 then v ||| BitVec.ofNat 208 (2 ^ p.2) else v) 0

/-- The LLRs of the codeword from a data start, 0 inside an erasure span (R110, R117). -/
def codeLlrs (ds : List Int) (start : Int) (ranges : List (Nat × Nat)) : List Int :=
  (List.range 36608).zipWith (fun k d => if inRange ranges (start + (k : Nat)) then 0 else llrOf d)
    (ds.drop start.toNat ++ List.replicate 36608 0)

/-! ### LDPC decoder (R111) -/

/-- The blocks of circulant row `i` with their shifts (R144). -/
def rowBlocks (i : Nat) : List (Nat × Nat) :=
  ((List.range 130).filter fun j => (ldpcRows j).contains i).map (fun j => (j, ldpcShift i j)) ++
    (if i < 12 then [(130 + i, 0)] else [(142, 0), (130, 1)]) ++ (if i = 0 then [] else [(129 + i, 0)])

/-- The codeword bits of check `c`: row c mod 256 of circulant row c div 256. -/
def parityBits (c : Nat) : List Nat := (rowBlocks (c / 256)).map fun (j, s) => 256 * j + (c % 256 + s) % 256

/-- The decoder's values: each bit's, and the messages of each check. -/
structure Ldpc where
  q : Array Int
  r : Array (List Int)

/-- The message of a check to one bit: the normalised least magnitude of the others with the product of their signs. -/
def minSumMsg (others : List Int) : Int :=
  let m : Int := Config.minSum (((others.map Int.natAbs).min?).getD 0)
  if (others.filter (· < 0)).length % 2 = 1 then -m else m

/-- One check is processed. -/
def ldpcCheck (x : Ldpc) (c : Nat) : Ldpc :=
  let vs := parityBits c
  let old := (x.r.getD c []) ++ List.replicate vs.length 0
  let t := List.zipWith (fun v o => x.q.getD v 0 - o) vs old
  let new := (List.range t.length).map fun e => minSumMsg (t.eraseIdx e)
  { q := (List.zip vs (List.zipWith (· + ·) t new)).foldl (fun q (v, y) => q.setIfInBounds v y) x.q
    r := x.r.setIfInBounds c new }

/-- One iteration: the 13 layers in order. -/
def ldpcIter (x : Ldpc) : Ldpc := (List.range 3328).foldl ldpcCheck x

/-- Unsatisfied checks of the 3,328. -/
def ldpcUnsat (x : Ldpc) : Nat :=
  ((List.range 3328).filter fun c => ((parityBits c).filter fun v => hardBit v (x.q.getD v 0)).length % 2 = 1).length

/-- Iterations until every check is satisfied, or `left` have been done: the values, iterations, unsatisfied checks after
the first and after the last. -/
def ldpcGo (x : Ldpc) (it unsat1 : Nat) : Nat → Ldpc × Nat × Nat × Nat
  | 0 => (x, it, unsat1, ldpcUnsat x)
  | left + 1 =>
    let y := ldpcIter x
    let u := ldpcUnsat y
    let u1 := if it = 0 then u else unsat1
    if u = 0 then (y, it + 1, u1, 0) else ldpcGo y (it + 1) u1 left

/-- The end of a decode: iterations, whether every check holds, unsatisfied checks after the first and the last iteration,
and the 36,608 decided bits as bytes. -/
structure Decode where
  iters : Nat
  conv : Bool
  unsat1 : Nat
  unsat : Nat
  word : List W8
  deriving DecidableEq, Repr

/-- The decided bits as bytes. -/
def ldpcWord (x : Ldpc) : List W8 :=
  (List.range 4576).map fun b =>
    BitVec.ofNat 8 ((List.range 8).foldl (fun a i => a + b2n (hardBit (8 * b + i) (x.q.getD (8 * b + i) 0)) * 2 ^ i) 0)

/-- A decode of `limit` iterations at most: its result, and the extrinsic information of each bit (R111, R114). -/
def ldpcDecode (llrs : List Int) (limit : Nat) : Decode × List Int :=
  let (x, it, u1, u) := ldpcGo ⟨llrs.toArray, Array.replicate 3328 []⟩ 0 0 limit
  (⟨it, decide (u = 0), u1, u, ldpcWord x⟩, List.zipWith (· - ·) x.q.toList llrs)

/-- Retry passes (R114): detector and decoder in turn, the extrinsic information given back to the detector; 40 iterations
in all at most. `det` gives the codeword's LLRs from a priori values. -/
def retryPasses (det : List Int → List Int) (per : Nat) : Nat → Nat → List Int → Decode
  | 0, used, _ => ⟨used, false, 0, 3328, []⟩
  | n + 1, used, ap =>
    let (d, ext) := ldpcDecode (det ap) (min per (40 - used))
    let used := used + d.iters
    if d.conv ∨ n = 0 ∨ 40 ≤ used then { d with iters := used } else retryPasses det per n used ext

/-! ### Mean square error (R134, R168) -/

/-- Channel bits of bytes as a[n] = 2b - 1 (R146, R147). -/
def chanBits (l : List W8) : List Int := l.flatMap fun b => (List.range 8).map fun i => chanVal (b.getLsbD i)

/-- Sum of (y - z)² in 1/256 code² over a codeword: `prev` holds the channel bits before, newest first. -/
def sqErr (g : List Int) : List Int → List Int → List Int → Nat
  | prev, a :: as, y :: ys =>
    let h := (a :: prev).take 5
    (y - idealOut g h).natAbs ^ 2 + sqErr g h as ys
  | prev, a :: as, [] =>
    let h := (a :: prev).take 5
    (idealOut g h).natAbs ^ 2 + sqErr g h as []
  | _, [], _ => 0

/-- The mean over 36,608 bits in 1/256 code², its rounding and a value beyond 16 bits free. -/
def meanSq (n : Nat) : Nat :=
  let q := if n % 36608 = 0 then n / 36608 else n / 36608 + (if Config.mseUp n then 1 else 0)
  if q < 65536 then q else (Config.freeOf 2 q).toNat % 65536

/-- The mean square error of a decode: outputs from the data start against the decided codeword, which the second mark
precedes (R134). -/
def decodeMse (g ys : List Int) (start : Int) (word : List W8) : Nat :=
  meanSq (sqErr g (((chanBits (markBytes mark2)).reverse).take 4) (chanBits word) (ys.drop start.toNat))

/-! ### Sync marks (R118, R119) -/

/-- Differing bits between the last 24 hard decisions at end position `e` and a mark. -/
def markDist (hard : BitVec 208) (pat e : Nat) : Nat :=
  (List.range 24).foldl (fun n i => n + b2n (hard.getLsbD (e - 24 + i) != pat.testBit (23 - i))) 0

/-- End positions of a window in the order of preference: nearest first, the earlier of two first. -/
def windowOrder (nom w : Nat) : List Nat := nom :: (List.range w).flatMap fun i => [nom - (i + 1), nom + (i + 1)]

/-- The position with the fewest differing bits, the first in order of preference among equals. -/
def bestMark (hard : BitVec 208) (pat : Nat) : List Nat → Option (Nat × Nat)
  | [] => none
  | e :: t =>
    let d := markDist hard pat e
    match bestMark hard pat t with
    | some (d', e') => if d' < d then some (d', e') else some (d, e)
    | none => some (d, e)

/-- A mark found: bit errors and end position. -/
def findMark (hard : BitVec 208) (pat nom w thr : Nat) : Option (Nat × Nat) :=
  (bestMark hard pat (windowOrder nom w)).filter fun p => decide (p.1 ≤ thr)

/-- The arbitration of R119: found flags, conflict, bit errors, data start. -/
structure Arb where
  f1 : Bool
  f2 : Bool
  conflict : Bool
  d1 : Nat
  d2 : Nat
  start : Int
  deriving DecidableEq, Repr

/-- R119 on two marks. -/
def arbitrate (a b : Option (Nat × Nat)) : Arb :=
  match a, b with
  | some (d1, e1), some (d2, e2) =>
    if e1 + 64 = e2 then ⟨true, true, false, d1, d2, e2⟩
    else ⟨true, true, true, d1, d2, if d1 < d2 then e1 + 64 else e2⟩
  | some (d1, e1), none => ⟨true, false, false, d1, 0, e1 + 64⟩
  | none, some (d2, e2) => ⟨false, true, false, 0, d2, e2⟩
  | none, none => ⟨false, false, false, 0, 0, 184⟩

/-- A mark was missed, or the marks conflict. -/
def Arb.bad (a : Arb) : Bool := !a.f1 || !a.f2 || a.conflict
/-- Neither mark was found. -/
def Arb.neither (a : Arb) : Bool := !a.f1 && !a.f2

/-- A sector takes up an arbitration. -/
def Sect.withArb (x : Sect) (a : Arb) : Sect :=
  { x with f1 := a.f1, f2 := a.f2, conflict := a.conflict, d1 := a.d1, d2 := a.d2, start := a.start
           syncBad := x.syncBad || a.bad }

end Sys2Proof.Machine
end

