-- ==== Sys2Proof/Machine/Dma.lean ====
section
/-! DEFINITION. The DMA engine: descriptors, funnel, accelerators, ports, completion (R404 to R415). -/

namespace Sys2Proof.Machine

/-! ### Channels, descriptors, accelerator blocks -/

/-- A channel. -/
def State.dmaCh (s : State) (c : Nat) : DmaCh := smGet (fun _ => DmaCh.reset) s.dch c
/-- A channel set. -/
def State.setDmaCh (s : State) (c : Nat) (x : DmaCh) : State :=
  { s with dch := smPut (fun _ => DmaCh.reset) s.dch c x }
/-- A SHA engine. -/
def State.shaEng (s : State) (e : Nat) : ShaEng := smGet (fun _ => ShaEng.free) s.sha e
/-- A SHA engine set. -/
def State.setShaEng (s : State) (e : Nat) (x : ShaEng) : State :=
  { s with sha := smPut (fun _ => ShaEng.free) s.sha e x }

/-- STATE of a channel: 0 IDLE, 1 ACTIVE, 2 WAIT, 3 PARKED, 4 ERROR. -/
def State.dmaSt (s : State) (c : Nat) : Nat := s.fld (Reg.DMA_CH_STATE c) 0 3
/-- That field set. -/
def State.setDmaSt (s : State) (c st : Nat) : State := s.setFld (Reg.DMA_CH_STATE c) 0 3 st
/-- The channel runs a chain: ACTIVE or WAIT. -/
def State.dmaRuns (s : State) (c : Nat) : Bool := s.dmaSt c == 1 || s.dmaSt c == 2

/-- Fields of a descriptor (R404). -/
def dSrc (d : List W8) : Nat := leAt d 0 8
def dDst (d : List W8) : Nat := leAt d 8 8
def dLen (d : List W8) : Nat := leAt d 16 4
def dFlags (d : List W8) : Nat := leAt d 20 4
def dNext (d : List W8) : Nat := leAt d 24 8
def dHost (d : List W8) : Nat := leAt d 32 8
def dAcc (d : List W8) : Nat := leAt d 40 8
def dMsgDst (d : List W8) : Nat := leAt d 48 4
def dMsgTag (d : List W8) : Nat := leAt d 52 4
def dIrq (d : List W8) : Bool := (dFlags d).testBit 0
def dMsg (d : List W8) : Bool := (dFlags d).testBit 1
def dStop (d : List W8) : Bool := (dFlags d).testBit 2
def dSrcK (d : List W8) : Bool := (dFlags d).testBit 4
def dDstK (d : List W8) : Bool := (dFlags d).testBit 5
def dCsize (d : List W8) : Nat := natF (dFlags d) 8 4
/-- Size of the circular buffer; 0 for a linear destination (R408). -/
def dRing (d : List W8) : Nat := if dCsize d = 0 then 0 else 2 ^ (dCsize d + 9)
/-- An indexed port (R406). -/
def dIndexed (d : List W8) : Bool :=
  (dSrcK d && (dSrc d == 0 || dSrc d == 4)) || (dDstK d && (dDst d == 2 || dDst d == 6))
/-- A stream port. -/
def dStream (d : List W8) : Bool := dSrcK d && (dSrc d == 1 || dSrc d == 5)

/-- Fields of an accelerator block (R411). -/
def aSha (a : List W8) : Nat := leAt a 0 1
def aShaEn (a : List W8) : Bool := (aSha a).testBit 0
def aShaEng (a : List W8) : Nat := natF (aSha a) 1 2
def aShaInit (a : List W8) : Bool := (aSha a).testBit 3
def aShaFinal (a : List W8) : Bool := (aSha a).testBit 4
def aDigest (a : List W8) : Nat := leAt a 8 8
def aGfEn (a : List W8) : Bool := (leAt a 16 1).testBit 0
def aGfInit (a : List W8) : Bool := (leAt a 16 1).testBit 1
def aNpar (a : List W8) : Nat := leAt a 17 1
def aPbase (a : List W8) : Nat := leAt a 24 8
def aPstride (a : List W8) : Nat := leAt a 32 4
def aXts (a : List W8) : Nat := leAt a 36 4
def aXtsEn (a : List W8) : Bool := (aXts a).testBit 0
def aXtsDec (a : List W8) : Bool := (aXts a).testBit 1
def aXtsSlot (a : List W8) : Nat := natF (aXts a) 8 8

/-- A byte range of a block is 0. -/
def zeroB (l : List W8) (o n : Nat) : Bool := leAt l o n == 0

/-- What a DMA address names; bits 63:48 must be 0 (R405). -/
def State.dmaPlace (s : State) (a : Nat) : Place := s.resolve (BitVec.ofNat 64 a)

/-- A place that a DMA transfer may read. -/
def Place.dmaSrcOk : Place → Bool
  | .reg _ | .hole => false
  | _ => true
/-- A place that a DMA transfer may write: no retention buffer (R405). -/
def Place.dmaDstOk : Place → Bool
  | .reg _ | .hole => false
  | .sram off => decide (off < 0x600000)
  | _ => true

/-- Both ends of a span lie in places that `ok` permits, within 48 bits. -/
def State.spanOk (s : State) (a n : Nat) (ok : Place → Bool) : Bool :=
  decide (a + n ≤ 2 ^ 48) && ok (s.dmaPlace a) && ok (s.dmaPlace (a + n - 1))

/-- The accelerator block breaks R411. SHA ownership is judged when the descriptor reaches its engine. -/
def State.accBad (s : State) (a : List W8) (len : Nat) : Bool :=
  !(zeroB a 1 7) || decide (aSha a / 32 ≠ 0) || decide (leAt a 16 1 / 4 ≠ 0) || !(zeroB a 18 2) || !(zeroB a 40 8) ||
    decide (natF (aXts a) 2 6 ≠ 0) || decide (aXts a / 2 ^ 16 ≠ 0) ||
    (aShaEn a && aShaFinal a && !(s.spanOk (aDigest a) 48 Place.dmaDstOk)) ||
    (aGfEn a && (decide (aNpar a < 1) || decide (4 < aNpar a) || decide (aPstride a < len) ||
      decide (s.dramSize < aPbase a + (aNpar a - 1) * aPstride a + len))) ||
    (aXtsEn a && (decide (len % 4096 ≠ 0) || (smFind s.sec.slots (aXtsSlot a)).isNone || decide (64 ≤ aXtsSlot a)))

/-- The descriptor breaks R404 to R408. -/
def State.descBad (s : State) (d : List W8) : Bool :=
  let len := dLen d
  decide (len = 0) || decide (dFlags d / 2 ^ 12 ≠ 0) ||
    decide (natF (dHost d) 20 4 ≠ 0) || decide (dHost d / 2 ^ 25 ≠ 0) ||
    decide (dAcc d % 64 ≠ 0) ||
    (dSrcK d && dDstK d) ||
    (dSrcK d && !(dSrc d == 0 || dSrc d == 4 || dSrc d == 1 || dSrc d == 5)) ||
    (dDstK d && !(dDst d == 2 || dDst d == 6)) ||
    (!dSrcK d && !(s.spanOk (dSrc d) len Place.dmaSrcOk)) ||
    (!dDstK d && !(s.spanOk (dDst d) (if dRing d = 0 then len else dRing d) Place.dmaDstOk)) ||
    (dIndexed d && decide (len % 4096 ≠ 0)) ||
    (decide (dCsize d ≠ 0) && (dDstK d || (dSrcK d && dIndexed d) || decide (dDst d % 2 ^ (dCsize d + 9) ≠ 0) ||
      (match s.dmaPlace (dDst d) with | .host _ => true | _ => false)))

/-! ### Accelerators (R411) -/

/-- What a descriptor finds at its SHA engine. -/
inductive ShaGate where
  | ready
  | waits
  | bad
  deriving DecidableEq, Repr

/-- The descriptor claims, restarts or joins its SHA engine; another owner makes it wait. A key slot emptied since the
descriptor was read makes it BADDESC. -/
def State.shaGate (s : State) (c : Nat) : ShaGate × State :=
  let x := s.dmaCh c
  if x.acc ≠ [] ∧ aXtsEn x.acc ∧ x.key = none ∧ smFind s.sec.slots (aXtsSlot x.acc) = none then (.bad, s)
  else if x.acc = [] ∨ !(aShaEn x.acc) ∨ x.shaIn then (.ready, s)
  else
    let e := aShaEng x.acc
    match (s.shaEng e).owner with
    | none =>
      if aShaInit x.acc then
        (.ready, (s.setShaEng e ⟨some c, sha384Iv, [], 0, false, false⟩).setDmaCh c { x with shaIn := true })
      else (.bad, s)
    | some o =>
      if o ≠ c then (.waits, s)
      else if aShaInit x.acc then
        (.ready, (s.setShaEng e ⟨some c, sha384Iv, [], 0, false, false⟩).setDmaCh c { x with shaIn := true })
      else (.ready, s.setDmaCh c { x with shaIn := true })

/-- Bytes taken in by a SHA engine. -/
def ShaEng.take (g : ShaEng) (l : List (W8 × Bool)) : ShaEng :=
  let all := g.rest ++ l.map (·.1)
  let r := shaBlocks g.h all (all.length / 128 + 1)
  { g with h := r.1, rest := r.2, total := g.total + l.length, ue := g.ue || anyMark l }

/-- The tweak of data unit `u` (R411). -/
def unitTweak (a : List W8) (u : Nat) : List W8 :=
  let t := sliceB a 48 16
  patchB t 12 (leBytes 2 (leAt t 12 2 + u))

/-- A data unit through the XTS engine: all of it is marked when any of it was (R411). -/
def xtsPass (enc : Bool) (key : BitVec 512) (a : List W8) (u : Nat) (l : List (W8 × Bool)) : List (W8 × Bool) :=
  (xtsUnit enc (leBytes 64 key.toNat) (unitTweak a u) (l.map (·.1))).map fun b => (b, anyMark l)

/-- Bytes from stream position `pos` on to parity output `r` (R411). -/
def State.gfOut (s : State) (a : List W8) (r pos : Nat) (l : List (W8 × Bool)) : State :=
  let at' := aPbase a + r * aPstride a + pos
  let k := a.getD (20 + r) 0
  let v := l.map fun x => (gfMul k x.1, x.2)
  if aGfInit a then s.memWriteMarked at' v
  else
    let (old, s) := s.memReadMarked at' l.length (l.length + 1)
    s.memWriteMarked at' (List.zipWith (fun x y => (x.1 ^^^ y.1, x.2 || y.2)) v old)

/-- The units of R411 in their order; the state carries engine, parity and key. -/
def State.accPass (s : State) (c pos : Nat) (l : List (W8 × Bool)) : List (W8 × Bool) × State :=
  let x := s.dmaCh c
  let a := x.acc
  if a = [] then (l, s)
  else
    let ue := anyMark l
    let key := if aXtsEn a then (match x.key with | some k => some k | none => smFind s.sec.slots (aXtsSlot a)) else none
    let s := s.setDmaCh c { x with key := key }
    let (l, s) := match key with
      | some k => if aXtsDec a then (xtsPass false k a (pos / 4096) l, if ue then s.orReg Reg.OBJ_STATUS (bit 3) else s) else (l, s)
      | none => (l, s)
    let s := if aShaEn a then
        let s := s.setShaEng (aShaEng a) ((s.shaEng (aShaEng a)).take l)
        if anyMark l then s.orReg Reg.OBJ_STATUS (bit 1) else s
      else s
    let (l, s) := match key with
      | some k => if aXtsDec a then (l, s) else (xtsPass true k a (pos / 4096) l, if ue then s.orReg Reg.OBJ_STATUS (bit 3) else s)
      | none => (l, s)
    let s := if aGfEn a then
        let s := (List.range (aNpar a)).foldl (fun s r => s.gfOut a r pos l) s
        if anyMark l then s.orReg Reg.OBJ_STATUS (bit 2) else s
      else s
    (l, s)

/-! ### Remote results -/

/-- The first remote result of a channel, taken out of the list. -/
def State.takeRemote (s : State) (c : Nat) : Option (Option (List W8 × Bool)) × State :=
  match s.dmaRemote.find? (fun r => r.1 == c) with
  | some r => (some r.2.2, { s with dmaRemote := s.dmaRemote.erase r })
  | none => (none, s)

/-- PCIe address of a host-side offset (R405), and the function. -/
def hostAddr (d : List W8) (off : Nat) : Nat := natF (dHost d) 0 20 * 2 ^ 44 + off
def hostFn (d : List W8) : Nat := natF (dHost d) 24 1

/-! ### Reading and writing one piece -/

/-- What became of a piece read. -/
inductive Got where
  | data (l : List (W8 × Bool))
  | waits
  | fails
  /-- No tag is free: the channel waits. -/
  | busy
  deriving DecidableEq, Repr

/-- `n` source bytes at address `a` of channel `c`'s descriptor. -/
def State.dmaReadPiece (s : State) (c : Nat) (d : List W8) (a n : Nat) : Got × State :=
  match s.dmaPlace a with
  | .host off =>
    match s.hostRead (hostFn d) (hostAddr d off) n c 0 with
    | (.now l ue, s) => (.data (l.map fun b => (b, ue)), s)
    | (.waits, s) => (.waits, s)
    | (.noTag, s) => (.busy, s)
    | (.fails, s) => (.fails, s)
  | .casc q off =>
    match s.cscIssue q 2 off n [] (.dma c) with
    | (some _, s) => (.waits, s)
    | (none, s) => (.fails, s)
  | p =>
    let (l, s) := s.memReadMarked p.localAddr n (n + 1)
    (.data l, s)

/-- What became of a piece written. -/
inductive Put where
  | done
  | waits
  | fails
  deriving DecidableEq, Repr

/-- Bytes written at destination address `a`. Host-side bytes go with EP = 1 when any is marked (R413). -/
def State.dmaWritePiece (s : State) (c : Nat) (d : List W8) (a : Nat) (l : List (W8 × Bool)) : Put × State :=
  match s.dmaPlace a with
  | .host off =>
    let (ok, s) := s.hostWrite (hostFn d) (hostAddr d off) (l.map (·.1)) (anyMark l)
    (if ok then .done else .fails, s)
  | .casc q off =>
    match s.cscIssue q 1 off l.length (l.map (·.1)) (.dma c) with
    | (some _, s) => (.waits, s)
    | (none, s) => (.fails, s)
  | p => (.done, s.memWriteMarked p.localAddr l)

/-- Bytes moved are counted in units of 64. -/
def State.dmaCount (s : State) (c old new : Nat) : State := s.incFld (Reg.DMA_CH_BYTES c) 0 32 (new / 64 - old / 64)

/-- Room for `n` more bytes in the circular buffer (R408). -/
def State.ringRoom (s : State) (c : Nat) (d : List W8) (n : Nat) : Bool :=
  dRing d == 0 ||
    decide (((s.reg (Reg.DMA_CH_WRPTR c)).toNat + n + 2 ^ 32 - (s.reg (Reg.DMA_CH_RDPTR c)).toNat) % 2 ^ 32 ≤ dRing d)

/-- Destination address of stream byte `k`. -/
def State.dmaDstAt (s : State) (c : Nat) (d : List W8) (k : Nat) : Nat :=
  if dRing d = 0 then dDst d + k else dDst d + (s.reg (Reg.DMA_CH_WRPTR c)).toNat % dRing d

/-- A channel whose descriptor waits for its port is in WAIT (R406). -/
def State.portRest (s : State) (c : Nat) : State := if (s.dmaCh c).finished then s else s.setDmaSt c 2

/-- `n` bytes have been written at the destination. -/
def State.dmaWrote (s : State) (c n : Nat) : State :=
  let x := s.dmaCh c
  let d := x.desc.getD []
  let s := s.dmaCount c x.wrPos (x.wrPos + n)
  let s := if dRing d = 0 then s
    else s.setReg (Reg.DMA_CH_WRPTR c) (s.reg (Reg.DMA_CH_WRPTR c) + BitVec.ofNat 32 n)
  s.setDmaCh c { x with wrPos := x.wrPos + n, obuf := x.obuf.drop n, phase := .idle
                        finished := x.finished || x.aborted || (decide (dLen d ≤ x.wrPos + n) && !dIndexed d) }

/-- The descriptor meets a bus error: the rest is skipped (R413). -/
def State.dmaBus (s : State) (c : Nat) : State :=
  let x := s.dmaCh c
  s.setDmaCh c { x with bus := true, phase := .idle, buf := [], obuf := []
                        finished := x.finished || x.aborted || !(dIndexed (x.desc.getD [])) }

/-- Length of the next piece to read at source address `a`: a remote source is cut at 64-byte boundaries (R409). -/
def State.readLen (s : State) (d : List W8) (pos want : Nat) : Nat :=
  let a := dSrc d + pos
  match s.dmaPlace a with
  | .host _ | .casc _ _ => min want (64 - a % 64)
  | _ => want

/-- Source bytes gathered before they pass the units: a data unit under XTS, else up to the destination's next 64-byte
boundary. -/
def State.wantLen (s : State) (c : Nat) (d : List W8) : Nat :=
  let x := s.dmaCh c
  let rest := dLen d - x.wrPos
  if x.acc ≠ [] ∧ aXtsEn x.acc then min rest 4096 else min rest (64 - s.dmaDstAt c d x.wrPos % 64)

/-- Bytes read join the buffer; once it is full it passes the units. -/
def State.dmaGot (s : State) (c : Nat) (l : List (W8 × Bool)) (want : Nat) : State :=
  let x := s.dmaCh c
  let buf := x.buf ++ l
  let s := s.setDmaCh c { x with phase := .idle, rdPos := x.rdPos + l.length, buf := buf, ue := x.ue || anyMark l
                                 finished := x.finished || x.aborted }
  if buf.length < want then s
  else
    let (o, s) := s.accPass c x.wrPos buf
    s.setDmaCh c { s.dmaCh c with buf := [], obuf := o }

/-- Writes one piece of the processed bytes. -/
def State.dmaDrain (s : State) (c : Nat) (d : List W8) : State :=
  let x := s.dmaCh c
  let a := s.dmaDstAt c d x.wrPos
  let l := x.obuf.take (64 - a % 64)
  if !(s.ringRoom c d l.length) then s.setDmaSt c 2
  else match s.dmaWritePiece c d a l with
    | (.done, s) => (s.setDmaSt c 1).dmaWrote c l.length
    | (.waits, s) => (s.setDmaSt c 1).setDmaCh c { s.dmaCh c with phase := .writing l.length }
    | (.fails, s) => (s.setDmaSt c 1).dmaBus c

/-- Reads one piece of the source. -/
def State.dmaFill (s : State) (c : Nat) (d : List W8) : State :=
  let x := s.dmaCh c
  let want := s.wantLen c d
  let n := s.readLen d x.rdPos (want - x.buf.length)
  match s.dmaReadPiece c d (dSrc d + x.rdPos) n with
  | (.data l, s) => (s.setDmaSt c 1).dmaGot c l want
  | (.waits, s) => (s.setDmaSt c 1).setDmaCh c { s.dmaCh c with phase := .reading }
  | (.fails, s) => (s.setDmaSt c 1).dmaBus c
  | (.busy, s) => s

/-! ### Indexed ports (R407) -/

/-- The memory side of an indexed access of index `i` fails or is uncorrectable. -/
def State.idxFailed (s : State) (c : Nat) (ue : Bool) : State :=
  let x := s.dmaCh c
  if ue then s.setDmaCh c { x with ue := true } else s.setDmaCh c { x with bus := true, phase := .idle, buf := [] }

/-- A media channel's staged data. -/
def State.med (s : State) (m : Nat) : Med := if m = 0 then s.med0 else s.med1
/-- A media channel set. -/
def State.setMed (s : State) (m : Nat) (x : Med) : State := if m = 0 then { s with med0 := x } else { s with med1 := x }

/-- Sector data of index `i` is supplied to the write path: the bytes, or none when they are marked (R165, R166). -/
def State.stage (s : State) (m i : Nat) (d : Option (List W8)) : State :=
  s.setMed m { s.med m with staged := smSet (s.med m).staged i d }

/-- A sector read for the write path passes the units and is staged. -/
def State.stageSector (s : State) (c m i : Nat) (l : List (W8 × Bool)) : State :=
  let (o, s) := s.accPass c (4096 * i) l
  let x := s.dmaCh c
  let s := s.dmaCount c x.idxMoved (x.idxMoved + 4096)
  let s := s.setDmaCh c { x with idxMoved := x.idxMoved + 4096, idxReq := none, buf := [], ue := x.ue || anyMark l, phase := .idle
                                 finished := x.finished || x.aborted }
  (s.portRest c).stage m i (if anyMark o then none else some (o.map (·.1)))

/-- The write-data request that a channel serves fails (R407). -/
def State.stageFailed (s : State) (c m i : Nat) : State :=
  let s := s.idxFailed c false
  let x := s.dmaCh c
  ((s.setDmaCh c { x with idxReq := none, finished := x.finished || x.aborted }).portRest c).stage m i none

/-- The channel's current descriptor serves port `p`, and its SHA engine is ready. -/
def State.portCurrent (s : State) (c p : Nat) (src : Bool) : Bool :=
  let x := s.dmaCh c
  match x.desc with
  | none => false
  | some d => s.dmaRuns c && !x.finished && !x.bad && !x.aborted &&
      (if src then dSrcK d && dSrc d == p else dDstK d && dDst d == p)

/-- A piece of a remote write-data request. -/
def State.idxFill (s : State) (c m i : Nat) (d : List W8) : State :=
  let x := s.dmaCh c
  let a := dSrc d + 4096 * i + x.buf.length
  let n := min (4096 - x.buf.length) (64 - a % 64)
  match s.dmaReadPiece c d a n with
  | (.data l, s) =>
    let s := s.setDmaCh c { x with buf := x.buf ++ l, phase := .idle }
    if (x.buf ++ l).length < 4096 then s else s.stageSector c m i (x.buf ++ l)
  | (.waits, s) => s.setDmaCh c { s.dmaCh c with phase := .reading }
  | (.fails, s) => s.stageFailed c m i
  | (.busy, s) => s

/-- A write-data request of index `i` (R407): beyond LEN it moves nothing; from local memory it is served at once. -/
def State.idxRequest (s : State) (c m i : Nat) : State :=
  let x := s.dmaCh c
  let d := x.desc.getD []
  if dLen d ≤ 4096 * i then (s.setDmaCh c { x with idxErr := true }).stage m i none
  else match s.shaGate c with
    | (.waits, s) => s.setDmaSt c 2
    | (.bad, s) => (s.setDmaCh c { s.dmaCh c with bad := true, finished := true }).stage m i none
    | (.ready, s) =>
      let s := s.setDmaSt c 1
      match s.dmaPlace (dSrc d + 4096 * i) with
      | .host _ | .casc _ _ => s.setDmaCh c { s.dmaCh c with idxReq := some i, buf := [] }
      | p =>
        let (l, s) := s.memReadMarked p.localAddr 4096 4097
        s.stageSector c m i l

/-- Sector data of index `i` from the read path (R407): false while the channel does not accept it. -/
def State.idxDeliver (s : State) (c m i : Nat) (data : List W8) : Bool × State :=
  let x := s.dmaCh c
  let d := x.desc.getD []
  if !(s.portCurrent c (4 * m) true) || decide (x.phase ≠ .idle) then (false, s)
  else if dLen d ≤ 4096 * i then (true, s.setDmaCh c { x with idxErr := true })
  else match s.shaGate c with
    | (.waits, s) => (false, s.setDmaSt c 2)
    | (.bad, s) => (true, s.setDmaCh c { s.dmaCh c with bad := true, finished := true })
    | (.ready, s) =>
      let s := s.setDmaSt c 1
      let (o, s) := s.accPass c (4096 * i) (data.map fun b => (b, false))
      match s.dmaWritePiece c d (dDst d + 4096 * i) o with
      | (.done, s) =>
        let x := s.dmaCh c
        (true, ((s.dmaCount c x.idxMoved (x.idxMoved + 4096)).setDmaCh c { x with idxMoved := x.idxMoved + 4096 }).portRest c)
      | (.waits, s) => (true, s.setDmaCh c { s.dmaCh c with phase := .writing 4096 })
      | (.fails, s) => (true, (s.idxFailed c false).portRest c)

/-- A media run has ended: the indexed descriptor of its channel ends (R407). -/
def State.idxRunEnd (s : State) (c p : Nat) (src : Bool) : State :=
  if s.portCurrent c p src then s.setDmaCh c { s.dmaCh c with finished := true } else s

/-! ### Stream ports (R408) -/

/-- The pieces of a record written from the present position on. -/
def State.streamWrite (s : State) (c : Nat) (d : List W8) (l : List (W8 × Bool)) : Nat → Bool × State
  | 0 => (true, s)
  | fuel + 1 =>
    match l with
    | [] => (true, s)
    | _ =>
      let a := s.dmaDstAt c d (s.dmaCh c).wrPos
      let k := 64 - a % 64
      match s.dmaWritePiece c d a (l.take k) with
      | (.done, s) => (s.dmaWrote c (l.take k).length).streamWrite c d (l.drop k) fuel
      | (.waits, s) =>
        let s := s.dmaWrote c (l.take k).length
        (s.setDmaCh c { s.dmaCh c with outW := (s.dmaCh c).outW + 1 }).streamWrite c d (l.drop k) fuel
      | (.fails, s) => (false, s.dmaBus c)

/-- A record of a run for port `p`: false while the channel does not accept it. A record is taken whole. -/
def State.streamPut (s : State) (c p : Nat) (rec : List W8) : Bool × State :=
  let d := (s.dmaCh c).desc.getD []
  if !(s.portCurrent c p true) then (false, s)
  else if !(s.ringRoom c d rec.length) then (false, s.setDmaSt c 2)
  else match s.shaGate c with
    | (.waits, s) => (false, s.setDmaSt c 2)
    | (.bad, s) => (false, s.setDmaCh c { s.dmaCh c with bad := true, finished := true })
    | (.ready, s) =>
      let s := s.setDmaSt c 1
      let (o, s) := s.accPass c (s.dmaCh c).wrPos (rec.map fun b => (b, false))
      (true, (s.streamWrite c d o 3).2.portRest c)

/-! ### Chains (R413 to R415) -/

/-- ERR of a channel. -/
def State.dmaErr (s : State) (c : Nat) : State := s.orReg Reg.DMA_ERRSTATUS (bit c)
/-- A channel's engines are released without a digest (R415). -/
def State.shaRelease (s : State) (c : Nat) : State :=
  (List.range 4).foldl (fun s e => if (s.shaEng e).owner = some c then s.setShaEng e ShaEng.free else s) s

/-- The channel goes on with the descriptor at `a`. -/
def State.dmaGoto (s : State) (c a : Nat) : State :=
  let x := s.dmaCh c
  ((s.setReg64 (Reg.DMA_CH_CUR_LO c) a).setDmaSt c 1).setDmaCh c { DmaCh.reset with kick := x.kick, ring := x.ring }

/-- NEXT of the descriptor at CUR is read again: the channel goes on, or parks (R414). -/
def State.dmaRekick (s : State) (c : Nat) : State :=
  let (n, ue, s) := s.memNat (s.reg64 (Reg.DMA_CH_CUR_LO c) / 64 * 64 + 24) 8
  if ue then ((s.setDmaSt c 4).dmaErr c).setDmaCh c { s.dmaCh c with resumable := false }
  else if n = 0 then (s.setDmaSt c 3).setDmaCh c { s.dmaCh c with kick := false }
  else s.dmaGoto c n

/-- IDLE: ABORT reads 0 again. -/
def State.dmaIdle (s : State) (c : Nat) : State :=
  ((s.setDmaSt c 0).clrReg (Reg.DMA_CH_CTRL c) (bit 2)).setDmaCh c { DmaCh.reset with ring := (s.dmaCh c).ring }

/-- GO (R414). -/
def State.dmaGo (s : State) (c : Nat) : State :=
  if s.dmaRuns c then s
  else
    let s := s.setDmaCh c DmaCh.reset
    let s := (s.setReg (Reg.DMA_CH_WRPTR c) 0).setReg (Reg.DMA_CH_RDPTR c) 0
    s.dmaGoto c (s.reg64 (Reg.DMA_CH_HEAD_LO c))

/-- KICK (R413, R414). -/
def State.dmaKick (s : State) (c : Nat) : State :=
  if s.dmaRuns c then s.setDmaCh c { s.dmaCh c with kick := true }
  else if s.dmaSt c = 3 ∨ (s.dmaSt c = 4 ∧ (s.dmaCh c).resumable) then s.dmaRekick c
  else s

/-- A write of RDPTR (R408). -/
def State.rdptrWritten (s : State) (c : Nat) (v : W32) : State :=
  let x := s.dmaCh c
  let size := match x.desc with
    | some d => if dRing d = 0 then x.ring else dRing d
    | none => x.ring
  if ((s.reg (Reg.DMA_CH_WRPTR c)) - v).toNat ≤ size then s.setReg (Reg.DMA_CH_RDPTR c) v else s

/-- The channel reads its descriptor and accelerator block (R404, R411, R413). -/
def State.descFetch (s : State) (c : Nat) : State :=
  let x := s.dmaCh c
  if !(s.dmaRuns c) || x.desc.isSome then s
  else
    let cur := s.reg64 (Reg.DMA_CH_CUR_LO c) / 64 * 64
    let (d, ue, s) := s.memRead cur 64
    if ue then ((s.setDmaSt c 4).dmaErr c).setDmaCh c { x with resumable := false }
    else
      let a := dAcc d
      let (acc, aue, s) := if a = 0 ∨ a % 64 ≠ 0 then ([], false, s) else s.memRead a 64
      if aue then ((s.setDmaSt c 4).dmaErr c).setDmaCh c { x with resumable := false }
      else
        let bad := s.descBad d || (decide (acc ≠ []) && s.accBad acc (dLen d))
        let s := s.setDmaCh c { x with desc := some d, acc := acc, bad := bad, finished := bad
                                       ring := if bad ∨ dRing d = 0 then x.ring else dRing d }
        if dStream d || dIndexed d then s.portRest c else s

/-- ABORT (R415). `atEnd` says that the descriptor completes in the same cycle, or has been written back: its completion
stands. A descriptor not yet read is read for its writeback (log entry 84). -/
def State.dmaAbort (s : State) (c : Nat) (atEnd : Bool) : State :=
  if !(s.dmaRuns c) then (s.shaRelease c).dmaIdle c
  else
    let s := s.descFetch c
    if !(s.dmaRuns c) then (s.shaRelease c).dmaIdle c
    else
      let x := s.dmaCh c
      let s := s.orReg (Reg.DMA_CH_CTRL c) (bit 2)
      if x.wbDone ∨ (x.finished ∧ atEnd) then s.setDmaCh c { x with stopIdle := true }
      else s.setDmaCh c { x with aborted := true, stopIdle := true, obuf := [], buf := []
                                 finished := x.finished || decide (x.phase = .idle) }

/-- A write of DMA_CHc_CTRL. -/
def State.dmaCtrlWrite (s : State) (c : Nat) (v : W32) (atEnd : Bool) : State :=
  let s := s.setFld (Reg.DMA_CH_CTRL c) 8 1 (getF v 8 1)
  let s := if tb v 2 then s.dmaAbort c atEnd else s
  let s := if tb v 0 then s.dmaGo c else s
  if tb v 1 then s.dmaKick c else s

/-- A remote result for the channel stands in the list. -/
def State.hasRemote (s : State) (c : Nat) : Bool := s.dmaRemote.any fun r => r.1 == c

/-- The descriptor waits for a SHA engine that another channel owns (R411). -/
def State.shaWaits (s : State) (c : Nat) : Bool :=
  let x := s.dmaCh c
  aShaEn x.acc && !x.shaIn &&
    (match (s.shaEng (aShaEng x.acc)).owner with | some o => o != c | none => false)

/-- The channel can use a beat of the funnel (R410). -/
def State.dmaReady (s : State) (c : Nat) : Bool :=
  let x := s.dmaCh c
  match x.desc with
  | none => false
  | some d => s.dmaRuns c &&
    (if x.phase ≠ .idle ∨ 0 < x.outW then s.hasRemote c
     else !x.finished && !dStream d &&
       (if dIndexed d then x.idxReq.isSome
        else if x.obuf ≠ [] then s.ringRoom c d (x.obuf.take (64 - s.dmaDstAt c d x.wrPos % 64)).length
        else !s.shaWaits c))

/-- The channel that the funnel serves (R410): in rotation after the last one served, those with PRIO first. -/
def State.dmaTurn (s : State) : Option Nat :=
  let order := (List.range 32).map fun i => (s.dmaLast + 1 + i) % 32
  match order.find? fun c => s.rbit (Reg.DMA_CH_CTRL c) 8 && s.dmaReady c with
  | some c => some c
  | none => order.find? fun c => s.dmaReady c

/-- A channel's beat (R409, R410): a remote result is taken up, a piece is written, or a piece is read. -/
def State.dmaBeat (s : State) (c : Nat) : State :=
  let x := s.dmaCh c
  match x.desc with
  | none => s
  | some d =>
    if !(s.dmaRuns c) then s
    else match x.phase with
    | .reading =>
      match s.takeRemote c with
      | (none, s) => s
      | (some r, s) =>
      if x.aborted then s.setDmaCh c { x with phase := .idle, finished := true, idxReq := none }
      else match r with
      | none =>
        match x.idxReq with
        | some i => (s.setDmaCh c { x with phase := .idle, buf := [] }).stageFailed c (dDst d / 4) i
        | none => s.dmaBus c
      | some (l, ue) =>
        let m := l.map fun b => (b, ue)
        match x.idxReq with
        | some i =>
          if (x.buf ++ m).length < 4096 then s.setDmaCh c { x with buf := x.buf ++ m, phase := .idle }
          else s.stageSector c (dDst d / 4) i (x.buf ++ m)
        | none => s.dmaGot c m (s.wantLen c d)
    | .writing n =>
      match s.takeRemote c with
      | (none, s) => s
      | (some none, s) => s.dmaBus c
      | (some (some _), s) =>
        if dIndexed d then (s.dmaCount c x.idxMoved (x.idxMoved + n)).setDmaCh c { x with idxMoved := x.idxMoved + n, phase := .idle
                                                                                          finished := x.finished || x.aborted }
        else s.dmaWrote c n
    | .digest =>
      match s.takeRemote c with
      | (none, s) => s
      | (some r, s) => s.setDmaCh c { x with phase := .idle, bus := x.bus || r.isNone, noDigest := r.isNone }
    | .idle =>
      if 0 < x.outW then
        match s.takeRemote c with
        | (none, s) => s
        | (some r, s) =>
          let s := s.setDmaCh c { x with outW := x.outW - 1 }
          if r.isNone then s.dmaBus c else s
      else if x.finished then s
      else if dStream d then s
      else if dIndexed d then
        (match x.idxReq with | some i => s.idxFill c (dDst d / 4) i d | none => s)
      else if x.obuf ≠ [] then s.dmaDrain c d
      else match s.shaGate c with
        | (.waits, s) => s.setDmaSt c 2
        | (.bad, s) => s.setDmaCh c { s.dmaCh c with bad := true, finished := true }
        | (.ready, s) => s.dmaFill c d

/-- The funnel offers channel `c` its next beat (R410): a ready channel takes it only in its turn; one that is not ready
moves no data. -/
def State.dmaOffer (s : State) (c : Nat) : State :=
  if !(s.dmaReady c) then s.dmaBeat c
  else if s.dmaTurn = some c then { s.dmaBeat c with dmaLast := c }
  else s

/-- STAT of a descriptor (R413). -/
def DmaCh.stat (x : DmaCh) : Nat := if x.bad then 3 else if x.aborted then 4 else if x.bus then 1 else if x.ue then 2 else 0

/-- The digest at the end of a descriptor (R411): written, kept back, or the engine released. -/
def State.shaEnd (s : State) (c : Nat) : State :=
  let x := s.dmaCh c
  if x.aborted ∧ !x.bad then
    let s := s.setDmaCh c { x with noDigest := x.acc ≠ [] ∧ aShaEn x.acc ∧ aShaFinal x.acc }
    s.shaRelease c
  else if x.acc = [] ∨ !(aShaEn x.acc) then s
  else
    let e := aShaEng x.acc
    let g := s.shaEng e
    let mine := decide (g.owner = some c)
    if !(aShaFinal x.acc) then (if x.bus ∧ mine then s.setShaEng e { g with bus := true } else s)
    else if x.bad ∨ x.bus ∨ g.bus ∨ !mine then
      let s := s.setDmaCh c { x with noDigest := true }
      if mine then s.setShaEng e ShaEng.free else s
    else
      let dg := sha384Final g.h g.rest g.total
      let s := s.setShaEng e ShaEng.free
      match s.dmaWritePiece c (x.desc.getD []) (aDigest x.acc) (dg.map fun b => (b, g.ue)) with
      | (.done, s) => s
      | (.waits, s) => s.setDmaCh c { x with phase := .digest }
      | (.fails, s) => s.setDmaCh c { x with bus := true, noDigest := true }

/-- The writeback of R412. -/
def State.dmaWb (s : State) (c : Nat) : State :=
  let x := s.dmaCh c
  let d := x.desc.getD []
  let moved := if dIndexed d then x.idxMoved else x.wrPos
  let wb := leBytes 4 moved ++ leBytes 1 x.stat ++
    leBytes 1 (b2n x.idxErr + 2 * b2n x.ue + 4 * b2n x.noDigest + 128) ++ [0, 0]
  s.memWrite (s.reg64 (Reg.DMA_CH_CUR_LO c) / 64 * 64 + 56) wb

/-- What the channel does after a descriptor (R413 to R415). -/
def State.dmaNext (s : State) (c : Nat) : State :=
  let x := s.dmaCh c
  let d := x.desc.getD []
  let st := x.stat
  let s := s.setFld (Reg.DMA_CH_STATE c) 8 8 st
  let s := if st = 0 then s else s.dmaErr c
  let s := if dIrq d then s.orReg Reg.DMA_STATUS (bit c) else s
  if st = 4 ∨ x.stopIdle then (s.shaRelease c).dmaIdle c
  else if st ≠ 0 ∧ dStop d then
    ((s.setDmaSt c 4).dmaErr c).setDmaCh c { DmaCh.reset with ring := x.ring, kick := x.kick, resumable := true }
  else if dNext d = 0 then
    let s := (s.setDmaSt c 3).setDmaCh c { DmaCh.reset with ring := x.ring }
    if x.kick then s.dmaRekick c else s
  else s.dmaGoto c (dNext d)

/-- A descriptor that has ended writes its digest and writeback, then signals (R411, R412). A full message destination
makes the channel wait. -/
def State.descEnd (s : State) (c : Nat) : State :=
  let x := s.dmaCh c
  match x.desc with
  | none => s
  | some d =>
    if !(s.dmaRuns c) || !x.finished || decide (x.phase ≠ .idle) || decide (0 < x.outW) then s
    else
      let s := if x.digDone then s
        else
          let s := s.shaEnd c
          s.setDmaCh c { s.dmaCh c with digDone := true }
      if (s.dmaCh c).phase ≠ .idle then s
      else
      let s := if x.wbDone then s
        else
          let s := s.dmaWb c
          s.setDmaCh c { s.dmaCh c with wbDone := true }
      if dMsg d then
        let m : Msg := ⟨BitVec.ofNat 64 (s.reg64 (Reg.DMA_CH_CUR_LO c) / 64 * 64),
          BitVec.ofNat 64 ((s.dmaCh c).stat + c * 2 ^ 8 + dMsgTag d * 2 ^ 32), blockSrc 7⟩
        match s.sendMsg (dMsgDst d) m with
        | (1, s) => s.setDmaSt c 2
        | (_, s) => s.dmaNext c
      else s.dmaNext c

end Sys2Proof.Machine
end

