-- ==== Sys2Proof/Machine/Media.lean ====
section
/-! DEFINITION. The media channels: zone table, retention buffer, retry ladder, read runs, write runs, verify and cairn (R98
to R177). Channel 0 is MCA, channel 1 is MCB. -/

namespace Sys2Proof.Machine

/-! ### The zone entry (R103, R160) -/

/-- A field of the entry in force. -/
def State.zoneF (s : State) (m o n : Nat) : Nat := leAt (s.med m).zone o n
/-- The committed head. -/
def State.zHead (s : State) (m : Nat) : Nat := s.fld (Reg.MCA_ZONE_STAT m) 8 5
/-- A reader (0 L, 1 C, 2 U, 3 V) is enabled for the committed head (R108). -/
def State.reader (s : State) (m r : Nat) : Bool :=
  let h := s.zHead m
  s.rbit (Reg.MCA_RDR_MASK m (h / 8)) (4 * (h % 8) + r)
/-- The L, C and U readers that MCA_RDR_MASK enables for a head (R99, R108). -/
def State.headReaders (s : State) (m h : Nat) : BitVec 4 :=
  if 23 < h then 0 else BitVec.ofNat 4 (s.fld (Reg.MCA_RDR_MASK m (h / 8)) (4 * (h % 8)) 3)
/-- SYNC_WIN and SYNC_THR. -/
def State.syncWin (s : State) (m : Nat) : Nat := natF (s.zoneF m 6 1) 0 4
def State.syncThr (s : State) (m : Nat) : Nat := natF (s.zoneF m 6 1) 4 2

/-- The PACK band (R437, R161). -/
def State.packBand (s : State) : Nat := s.fld Reg.THM_BANDS 16 3
/-- The band is latched (R161). -/
def State.latchBand (s : State) (m : Nat) : State := s.setReg (Reg.MCA_WR_BAND m) (BitVec.ofNat 32 s.packBand)
/-- A value of the latched band's entry (R160). -/
def State.bandF (s : State) (m o : Nat) : Nat := s.zoneF m (416 + 12 * (s.reg (Reg.MCA_WR_BAND m)).toNat + o) 2
/-- A frame of the channel on the preamp interface; address 0 suppresses it (R162, R530). -/
def State.psiAuto (s : State) (m addr data : Nat) (heat : Bool) : State :=
  if addr = 0 then s else s.setMed m { s.med m with psi := (s.med m).psi ++ [⟨false, addr, data, true, heat⟩] }
/-- HTR_R over the preamp interface. -/
def State.sendHtrR (s : State) (m : Nat) : State := s.psiAuto m (s.fld (Reg.MCA_WR_PSIA0 m) 16 16) (s.bandF m 8) false

/-- An actuator of Guyline. -/
def State.gact (s : State) (a : Nat) : GAct := if a = 0 then s.gact0 else s.gact1
/-- An actuator set. -/
def State.setGact (s : State) (a : Nat) (x : GAct) : State := if a = 0 then { s with gact0 := x } else { s with gact1 := x }
/-- The committed head of an actuator changes (R187): the next wedge resolves N = G, and its sample is none of the WU_CLEAR
clean ones that end write-unsafe. -/
def State.headChange (s : State) (a : Nat) : State :=
  s.setGact a { s.gact a with resolve := true, hold := true }

/-- No run is active (R104). -/
def Med.idle (x : Med) : Bool := x.rd.isNone && x.wr.isNone
/-- EN and ZONE_READY. -/
def State.medReady (s : State) (m : Nat) : Bool := s.rbit (Reg.MCA_CTRL m) 0 && s.rbit (Reg.MCA_ZONE_STAT m) 31

/-- The zone selection commits (R102, R104, R105): the entry is read through the shared cache. -/
def State.zoneCommit (s : State) (m : Nat) : State :=
  let x := s.med m
  if !x.zonePend || !x.idle then s
  else
    let v := s.reg (Reg.MCA_ZONE_SEL m)
    let h := getF v 8 5
    let z := getF v 0 6
    let a := s.reg64 (Reg.MCA_ZTAB_LO m) / 512 * 512 + (h * 64 + z) * 512
    let (e, ue, s) := s.memRead a 512
    let s := (s.setAct (Reg.MCA_ZONE_SEL m) v).latchBand m
    let s := if h = s.zHead m then s else s.headChange m
    let s := s.setReg (Reg.MCA_ZONE_STAT m) (bit 30 ||| BitVec.ofNat 32 (h * 256 + z))
    s.setMed m { s.med m with zonePend := false, zone := [], zoneNew := e, zoneBad := ue
                              fe := (s.med m).fe &&& s.headReaders m h }

/-- Reason a zone load fails (R105), 0 for none; of several, the first in the order head, uncorrectable data, VALID, RATE
(DESIGN CHOICE, log entry 79). -/
def zoneFault (h : Nat) (e : List W8) (ue : Bool) : Nat :=
  if 23 < h then 1
  else if ue then 4
  else if !((leAt e 4 1).testBit 0) then 2
  else if leAt e 0 4 < 0x00200000 ∨ 0x00800000 < leAt e 0 4 then 3 else 0

/-- The zone load completes (R104, R105): the front ends are powered (R99), and the live taps are set from the entry (R109). -/
def State.zoneLoadDone (s : State) (m : Nat) : State :=
  if !(s.rbit (Reg.MCA_ZONE_STAT m) 30) then s
  else
    let x := s.med m
    let s := s.clrReg (Reg.MCA_ZONE_STAT m) (bit 30)
    let f := zoneFault (s.zHead m) x.zoneNew x.zoneBad
    if f ≠ 0 then
      ((s.setFld (Reg.MCA_ZONE_STAT m) 24 4 f).orReg (Reg.MCA_STATUS m) (bit 1)).setMed m { x with zoneNew := [], fe := 0 }
    else
      let s := s.setMed m { x with zone := x.zoneNew, zoneNew := []
                                   lms := (List.range 39).map fun i => 256 * sgn16 (leAt x.zoneNew (32 + 2 * i) 2)
                                   fe := if s.rbit (Reg.MCA_CTRL m) 0 then s.headReaders m (s.zHead m) else 0 }
      let s := (List.range 39).foldl (fun s i =>
        s.setReg (Reg.MCA_LIVE_TAP m i) (BitVec.ofNat 32 (s.zoneF m (32 + 2 * i) 2))) s
      ((s.orReg (Reg.MCA_ZONE_STAT m) (bit 31)).orReg (Reg.MCA_STATUS m) (bit 0)).sendHtrR m

/-! ### Signal path of a channel (R98 to R119) -/

/-- The arbitration of channel `m` on hard decisions. -/
def State.arb (s : State) (m : Nat) (hard : BitVec 208) : Arb :=
  arbitrate (findMark hard mark1 120 (s.syncWin m) (s.syncThr m)) (findMark hard mark2 184 (s.syncWin m) (s.syncThr m))

/-- Where a data path's taps come from: the live ones, the entry's, or its alternates (R103, R109, R127). -/
inductive TapSet where
  | live | entry | alt
  deriving DecidableEq, Repr

/-- A reader of the committed head: 0 L, 1 C, 2 U, 3 V (R103, R108). -/
def State.rdr (s : State) (m r : Nat) (taps : List Int) : Rdr where
  on := s.reader m r
  gain := (min 240 (s.zoneF m (8 + r) 1) : Nat)
  ofs := sgn8 (s.zoneF m (12 + r) 1)
  asym := sgn8 (s.zoneF m (16 + r) 1)
  dly := if r = 0 then sgn8 (s.zoneF m 24 1) else if r = 2 then sgn8 (s.zoneF m 25 1) else 0
  taps := taps

/-- The leading readers with a tap set (R107, R108). -/
def State.readers (s : State) (m : Nat) (t : TapSet) : List Rdr :=
  (List.range 3).map fun r => s.rdr m r ((List.range 13).map fun i => match t with
    | .live => sgn16 (s.reg (Reg.MCA_LIVE_TAP m (13 * r + i))).toNat
    | .entry => sgn16 (s.zoneF m (32 + 2 * (13 * r + i)) 2)
    | .alt => sgn16 (s.zoneF m (160 + 2 * (13 * r + i)) 2))
/-- The V reader with its one-dimensional equaliser's taps (R139). -/
def State.vReader (s : State) (m : Nat) : List Rdr :=
  [s.rdr m 3 ((List.range 13).map fun i => sgn16 (s.zoneF m (110 + 2 * i) 2))]

/-- The target g_0 to g_4 in use, in 1/16 code (R103). -/
def State.target (s : State) (m : Nat) (t : TapSet) : List Int :=
  (List.range 5).map fun i => sgn16 (s.zoneF m ((if t = .alt then 238 else 136) + 2 * i) 2)

/-- The front ends' settings and the defect detector's thresholds, 0 where a detector is off (R103). -/
def State.frontSet (s : State) (m : Nat) : FrontSet where
  rate := s.zoneF m 0 4
  fc := s.zoneF m 20 1 + 64
  boost := natF (s.zoneF m 21 1) 0 4
  hpf := natF (s.zoneF m 22 1) 0 3
  taThr := if s.rbit (Reg.MCA_DEFECT_CFG m) 0 then s.zoneF m 28 1 else 0
  dropPct := if s.rbit (Reg.MCA_DEFECT_CFG m) 1 then min 100 (s.zoneF m 29 1) else 0

/-- A sector is sampled through the front ends of the leading readers that are on (R98 to R101): the loops at its end, and
the samples of L, C and U, none of a masked reader. -/
def State.sample (s : State) (m : Nat) (cap : Capture) : Loops × List (List W8) :=
  let rs := s.readers m .live
  let p := sampleSector (s.frontSet m) (s.target m .live) rs [cap.l, cap.c, cap.u]
  (p.1, spreadSamples rs p.2)

/-- The detector's metrics over samples of the leading readers. -/
def State.metrics (s : State) (m : Nat) (t : TapSet) (smp : List (List W8)) : List Int :=
  detectAll (s.target m t) (equalise (s.readers m t) smp) []
/-- The arbitration of R119 over samples of the leading readers. -/
def State.arbOf (s : State) (m : Nat) (t : TapSet) (smp : List (List W8)) : Arb := s.arb m (hardBits (s.metrics m t smp))

/-- The live taps adapt (R109). -/
def State.adapting (s : State) (m : Nat) : Bool :=
  let mu := s.zoneF m 5 1
  (s.zoneF m 4 1).testBit 1 && decide (8 ≤ mu) && decide (mu ≤ 20) && s.rbit (Reg.MCA_CTRL m) 1

/-- The on-the-fly pass over a sector's samples with `limit` iterations at most: its result, its mean square error and the
primary taps after it (R109 to R112). -/
def State.flyDecode (s : State) (m : Nat) (x : Sect) (limit : Nat) : Decode × Nat × List Int :=
  let g := s.target m .live
  let rs := s.readers m .live
  let lms := (s.med m).lms
  let (ys, lms) := if s.adapting m then equaliseLms ⟨s.zoneF m 5 1, x.start, x.ranges⟩ g rs lms x.smp
    else (equalise rs x.smp, lms)
  let d := (ldpcDecode (codeLlrs (detectAll g ys []) x.start x.ranges) limit).1
  (d, decodeMse g ys x.start d.word, lms)

/-- One detector pass and `per` iterations, or `passes` of them, over samples from a data start (R114, R120): the result and
its mean square error. -/
def State.memDecode (s : State) (m : Nat) (t : TapSet) (smp : List (List W8)) (start : Int) (ranges : List (Nat × Nat))
    (passes per : Nat) : Decode × Nat :=
  let g := s.target m t
  let ys := equalise (s.readers m t) smp
  let d := retryPasses (fun ap => codeLlrs (detectAll g ys (List.replicate start.toNat 0 ++ ap)) start ranges) per passes 0 []
  (d, decodeMse g ys start d.word)

/-- The verify pass over the V reader's signal (R139, R168): arbitration, result and mean square error; without a mark no
decode is made, and its mean square error is left open. -/
def State.vfyDecode (s : State) (m : Nat) (v : List Int) (limit : Nat) : Loops × Arb × Decode × Nat :=
  let g := s.target m .live
  let rs := s.vReader m
  let p := sampleSector (s.frontSet m) g rs [v]
  let ys := equalise rs (spreadSamples rs p.2)
  let ds := detectAll g ys []
  let a := s.arb m (hardBits ds)
  if a.neither then (p.1, a, ⟨0, false, 0xFFFF, 3328, []⟩, (Config.freeOf 3 s.now).toNat % 65536)
  else
    let d := (ldpcDecode (codeLlrs ds a.start []) limit).1
    (p.1, a, d, decodeMse g ys a.start d.word)

/-- The information bytes of a decode, descrambled for a sector (R113). -/
def decodedPayload (cyl sect : Nat) (d : Decode) : List W8 := scramble cyl sect (padTo 4160 d.word)
/-- The payload of a decode that succeeds for this sector (R113). -/
def goodPayload (cyl sect : Nat) (d : Decode) : Option (List W8) :=
  let p := decodedPayload cyl sect d
  if d.conv ∧ payloadCheck p = 0 then some p else none

/-- The defect detector on the samples of the enabled leading readers: ranges, and whether an asperity or a dropout was
flagged. `alt` is RET_ALT's setting (R127). -/
def State.defects (s : State) (m : Nat) (cap : List (List W8)) (alt : Bool) : List (Nat × Nat) × Bool × Bool :=
  let thr0 := s.zoneF m 28 1
  let pct0 := min 100 (s.zoneF m 29 1)
  let thr := if alt ∧ thr0 ≠ 0 then max 1 (thr0 / 2) else thr0
  let pct := if alt then min 100 (pct0 * 3 / 2) else pct0
  let on := (List.range 3).filter fun r => s.reader m r
  let ta := if s.rbit (Reg.MCA_DEFECT_CFG m) 0 then on.flatMap fun r => taSpans thr (cap.getD r []) else []
  let dr := if s.rbit (Reg.MCA_DEFECT_CFG m) 1 then on.flatMap fun r => dropSpans pct (cap.getD r []) else []
  let g := 8 * s.fld (Reg.MCA_DEFECT_CFG m) 8 8
  let all := (ta ++ dr).foldl (fun l x => insSpan (x.1 - g, min 36807 (x.2 + g)) l) []
  (capRanges all, decide (ta ≠ []), decide (dr ≠ []))

/-! ### Retention buffer (R122 to R125) -/

/-- SRAM offset of a slot. -/
def slotBase (m k : Nat) : Nat := 0x600000 + m * 0x200000 + k * 110424
/-- A slot is valid, pinned. -/
def State.slotValid (s : State) (m k : Nat) : Bool := s.rbit (Reg.MCA_RET_SLOT_B m k) 31
def State.slotPinned (s : State) (m k : Nat) : Bool := s.rbit (Reg.MCA_RET_SLOT_B m k) 30
/-- PIN_MAX. -/
def State.pinMax (s : State) (m : Nat) : Nat := min 8 (s.fld (Reg.MCA_RET_CTRL m) 0 4)
/-- Slots pinned. -/
def State.pins (s : State) (m : Nat) : Nat := ((List.range 16).filter fun k => s.slotPinned m k).length
/-- The pinned slot that holds a sector (R131). -/
def State.slotOf (s : State) (m cyl head sect : Nat) : Option Nat :=
  (List.range 16).find? fun k => s.slotPinned m k && (s.reg (Reg.MCA_RET_SLOT_A m k)).toNat == cyl &&
    s.fld (Reg.MCA_RET_SLOT_B m k) 16 5 == head && s.fld (Reg.MCA_RET_SLOT_B m k) 0 16 == sect
/-- The next unpinned slot after the last one written (R123). -/
def State.nextSlot (s : State) (m : Nat) : Nat :=
  let n := s.fld (Reg.MCA_RET_NEXT m) 0 4
  (((List.range 16).map fun i => (n + 1 + i) % 16).find? fun k => !(s.slotPinned m k)).getD ((n + 1) % 16)
/-- A slot pinned or unpinned. -/
def State.setPin (s : State) (m k : Nat) (b : Bool) : State := s.setFld (Reg.MCA_RET_SLOT_B m k) 30 1 (b2n b)

/-- A reader's samples as the slot stores them: a masked reader's are 0 (R122). -/
def State.readerBytes (s : State) (m r : Nat) (l : List W8) : List W8 :=
  if s.reader m r then padTo 36808 l else List.replicate 36808 0
/-- Samples stored into a slot, which is then the one written last (R123). -/
def State.slotStore (s : State) (m k : Nat) (smp : List (List W8)) : State :=
  (s.sramFill (slotBase m k) ((List.range 3).flatMap fun r => s.readerBytes m r (smp.getD r []))).setFld (Reg.MCA_RET_NEXT m) 0 4 k
/-- The samples of the readers in a slot; single-bit errors of its words are corrected (R125, R393). -/
def State.slotSamples (s : State) (m k : Nat) : List (List W8) :=
  (List.range 3).map fun r => s.sramGood (slotBase m k + 36808 * r) 36808
/-- A slot's words are upset and then read: a word with an error is logged (R125, R394). -/
def State.slotHit (s : State) (m k : Nat) (ups : List SlotUpset) : State :=
  let w0 := slotBase m k / 8
  let s := ups.foldl (fun s u => s.setSramWord (w0 + u.word.val) ((s.sramWord (w0 + u.word.val)).upset u.flips)) s
  (s.mem.sramSyn.filter fun e => decide (w0 ≤ e.1) && decide (e.1 < w0 + 13803)).foldl (fun s e => (s.readSramWord e.1).2.2) s

/-- A capture fills a slot and its descriptor (R123); `pin` keeps or sets PINNED. -/
def State.slotFill (s : State) (m k cyl head sect : Nat) (smp : List (List W8)) (start : Int) (pin : Bool) : State :=
  let s := s.slotStore m k smp
  let s := s.setReg (Reg.MCA_RET_SLOT_A m k) (BitVec.ofNat 32 cyl)
  let s := s.setReg (Reg.MCA_RET_SLOT_B m k) (bit 31 ||| (if pin then bit 30 else 0) ||| BitVec.ofNat 32 (head * 2 ^ 16 + sect))
  s.setMed m { s.med m with slotStart := smSet (s.med m).slotStart k start }

/-- A byte list shifted: byte i takes byte i + d; outside it is 0. -/
def shiftSamples (l : List W8) (d : Int) : List W8 :=
  if 0 ≤ d then padTo l.length (l.drop d.toNat) else (List.replicate (-d).toNat 0 ++ l).take l.length
/-- The rounded running mean of `n` reads, of which `y` is the last (R128). -/
def avgSample (n : Nat) (o y : W8) : W8 := sat8 (roundDiv (((n : Int) - 1) * o.toInt + y.toInt) n)
/-- A reread averaged into a slot (R128). -/
def State.slotAverage (s : State) (m k : Nat) (smp : List (List W8)) (start : Int) : State :=
  let n := min 16 (s.fld (Reg.MCA_RET_SLOT_B m k) 26 4 + 2)
  let d := start - smGet (fun _ => 184) (s.med m).slotStart k
  let avg := List.zipWith (fun o x => List.zipWith (avgSample n) o (shiftSamples (padTo 36808 x) d)) (s.slotSamples m k)
    (smp ++ List.replicate 3 [])
  (s.slotStore m k avg).setFld (Reg.MCA_RET_SLOT_B m k) 26 4 (n - 1)

/-! ### Runs: arming (R132, R164) -/

/-- The read registers are copied into the pending place. -/
def State.rdCopy (s : State) (m : Nat) : State :=
  let x := s.med m
  if !(s.rbit (Reg.MCA_RD_CTRL m) 0) || x.rdPend.isSome then s
  else
    let r : RdRun := {
      cyl := (s.reg (Reg.MCA_RD_CYL m)).toNat, start := s.fld (Reg.MCA_RD_SECT m) 0 16
      count := max 1 (s.fld (Reg.MCA_RD_SECT m) 16 16), recCh := s.fld (Reg.MCA_RD_DMA m) 8 5
      dataCh := s.fld (Reg.MCA_RD_DMA m) 0 5, lstart := s.fld (Reg.MCA_RD_CTRL m) 17 3
      keep := s.rbit (Reg.MCA_RD_CTRL m) 16 }
    let s := (s.clrReg (Reg.MCA_RD_CTRL m) (bit 0)).orReg (Reg.MCA_RD_STAT m) (bit 30)
    s.setMed m { s.med m with rdPend := some r, wrFirst := x.wrPend.isSome }

/-- The write registers are copied into the pending place. -/
def State.wrCopy (s : State) (m : Nat) : State :=
  let x := s.med m
  if !(s.rbit (Reg.MCA_WR_CTRL m) 0) || x.wrPend.isSome then s
  else
    let r : WrRun := {
      cyl := (s.reg (Reg.MCA_WR_CYL m)).toNat, start := s.fld (Reg.MCA_WR_SECT m) 0 16
      count := max 1 (s.fld (Reg.MCA_WR_SECT m) 16 16), recCh := s.fld (Reg.MCA_WR_DMA m) 8 5
      dataCh := s.fld (Reg.MCA_WR_DMA m) 0 5, desc := s.reg64 (Reg.MCA_WR_DESC_LO m)
      cairn := s.reg64 (Reg.MCA_WR_CAIRN_LO m), close := s.rbit (Reg.MCA_WR_CTRL m) 16 }
    let s := (s.clrReg (Reg.MCA_WR_CTRL m) (bit 0)).orReg (Reg.MCA_WR_STAT m) (bit 30)
    s.setMed m { s.med m with wrPend := some r, wrFirst := x.rdPend.isNone }

/-- The pending read run is discarded; a GO that waits is copied into the place it leaves (R132, R137). -/
def State.rdDiscard (s : State) (m : Nat) : State :=
  ((s.setMed m { s.med m with rdPend := none }).clrReg (Reg.MCA_RD_STAT m) (bit 30)).rdCopy m
/-- The pending write run is discarded; a GO that waits is copied into the place it leaves (R132, R164, R174). -/
def State.wrDiscard (s : State) (m : Nat) : State :=
  ((s.setMed m { s.med m with wrPend := none }).clrReg (Reg.MCA_WR_STAT m) (bit 30)).wrCopy m

/-! ### Read runs -/

/-- The active read run. -/
def State.rdRun (s : State) (m : Nat) (f : ActRd → ActRd) : State :=
  s.setMed m { s.med m with rd := (s.med m).rd.map f }

/-- A read run ends once nothing of it is left (R132, R133, R137, R138). -/
def State.rdEndCheck (s : State) (m : Nat) : State :=
  match (s.med m).rd with
  | none => s
  | some a =>
    if (a.abort || a.overrun || decide (a.run.count ≤ a.next)) && a.fly.isEmpty && a.lad.isEmpty && a.out.isEmpty then
      let st := BitVec.ofNat 32 a.done ||| (if a.abort then bit 29 else 0) ||| (if a.overrun then bit 28 else 0) |||
        (if (s.med m).rdPend.isSome then bit 30 else 0)
      let s := (s.setReg (Reg.MCA_RD_STAT m) st).setFld (Reg.MCA_RD_NEXT m) 0 16 (a.run.start + a.next)
      let s := (s.clrReg (Reg.MCA_RD_CTRL m) (bit 2)).orReg (Reg.MCA_STATUS m) (bit 2 ||| (if a.overrun then bit 6 else 0))
      (s.setMed m { s.med m with rd := none }).idxRunEnd a.run.dataCh (4 * m) true
    else s

/-- The status word as a run begins: ACTIVE, and how the last ended run ended (R132, R164). -/
def runStat (old : W32) : W32 := bit 31 ||| (old &&& 0x30000000)

/-- The pending read run becomes active (R99, R104, R132, R161, R162). -/
def State.rdStart (s : State) (m : Nat) : State :=
  let x := s.med m
  match x.rdPend with
  | none => s
  | some r =>
    if !x.idle || !(s.medReady m) || x.zonePend || (x.wrPend.isSome && x.wrFirst) || decide (s.now < x.readAt) then s
    else
      let s := s.setMed m { x with rdPend := none, rd := some ⟨r, 0, false, false, [], [], [], 0⟩, offSeen := false }
      let s := s.setReg (Reg.MCA_RD_STAT m) (runStat (s.reg (Reg.MCA_RD_STAT m)))
      ((s.latchBand m).sendHtrR m).rdCopy m

/-- Successful statuses (R135). -/
def statusOk (st : Nat) : Bool := decide (st ≤ 2)

/-- The result record (R134). -/
def State.rdRecord (s : State) (m : Nat) (r : RdRun) (x : Sect) (st ent : Nat) (left : Bool) (tag : List W8) : List W8 :=
  leBytes 4 r.cyl ++ leBytes 2 (r.start + x.idx) ++ leBytes 1 (s.zHead m) ++ leBytes 1 st ++ leBytes 2 x.idx ++
    leBytes 1 x.iter ++ leBytes 1 ent ++ leBytes 1 x.revs ++ leBytes 1 (b2n x.f1 + 2 * b2n x.f2 + 4 * b2n x.conflict) ++
    leBytes 1 (x.d1 + 4 * x.d2) ++ leBytes 1 (natOfInt x.slip 8) ++ leBytes 2 x.erased ++ leBytes 2 x.unsat1 ++
    leBytes 2 x.mse ++ leBytes 1 (b2n x.ta + 2 * b2n x.drop + 4 * b2n x.noPin + 8 * b2n left + 16 * b2n x.offTrack) ++
    leBytes 1 x.reason ++ List.replicate 8 0 ++ padTo 32 tag

/-- A sector with nothing found yet. -/
def Sect.fresh (idx slot : Nat) : Sect where
  idx := idx
  slot := slot
  smp := []
  inBuf := false
  pinned := false
  f1 := false
  f2 := false
  conflict := false
  d1 := 0
  d2 := 0
  start := 184
  syncBad := false
  ranges := []
  ta := false
  drop := false
  noPin := false
  offTrack := false
  iter := 0
  entry := 0
  revs := 0
  revsLeft := 0
  slip := 0
  erased := 0
  unsat1 := 0xFFFF
  mse := 0
  decoded := false
  reason := 0
  reread := false

/-- The output buffer is full (R138). -/
def ActRd.full (a : ActRd) : Bool := decide (4 ≤ a.out.length)

/-- A sector ends: its pin, counters, events and record (R124, R133 to R135, R137). `ent` is the record's ENTRY; `payload` the
descrambled payload of a success. -/
def State.sectEnd (s : State) (m : Nat) (x : Sect) (st ent : Nat) (payload : List W8) : State :=
  match (s.med m).rd with
  | none => s
  | some a =>
    let md := s.med m
    let noLadder := decide (ent = 0xFF) && st != 0x14
    let stays := x.pinned && !md.unpinLater.contains x.slot && (a.run.keep || st == 0x12 || st == 0x13 || noLadder)
    let s := if x.pinned ∧ !stays then s.setPin m x.slot false else s
    let s := if x.pinned then s.setMed m { s.med m with unpinLater := md.unpinLater.filter (· != x.slot) } else s
    let s := match st with
      | 0 => s.incFld (Reg.MCA_CNT m 0) 0 32
      | 1 => s.incFld (Reg.MCA_CNT m 1) 0 32
      | 2 => s.incFld (Reg.MCA_CNT m 2) 0 32
      | 0x11 => (s.incFld (Reg.MCA_CNT m 3) 0 32).orReg (Reg.MCA_STATUS m) (bit 3)
      | 0x12 => s.orReg (Reg.MCA_STATUS m) (bit 4)
      | _ => s
    let s := if x.syncBad then s.incFld (Reg.MCA_CNT m 4) 0 32 else s
    let s := if x.ta then s.incFld (Reg.MCA_CNT m 5) 0 32 else s
    let ok := statusOk st
    let record := s.rdRecord m a.run x st ent stays (if ok then sliceB payload 4096 32 else [])
    s.rdRun m fun a => { a with out := a.out ++ [⟨x.idx, st, record, if ok then some (sliceB payload 0 4096) else none⟩] }

/-- Mode, REVS, ITER, PASSES and SLIPIT of a ladder entry. -/
def State.ladMode (s : State) (m e : Nat) : Nat := s.fld (Reg.MCA_LADDER m e) 24 4
def State.ladRevs (s : State) (m e : Nat) : Nat := max 1 (min 4 (s.fld (Reg.MCA_LADDER m e) 16 4))
def State.ladIter (s : State) (m e : Nat) : Nat := max 1 (min 40 (s.fld (Reg.MCA_LADDER m e) 8 6))
def State.ladPasses (s : State) (m e : Nat) : Nat := max 1 (min 4 (s.fld (Reg.MCA_LADDER m e) 4 4))
def State.ladSlipIt (s : State) (m e : Nat) : Nat := max 1 (s.fld (Reg.MCA_LADDER m e) 0 4)

/-- The head of the ladder drops out. -/
def State.ladPop (s : State) (m : Nat) : State := s.rdRun m fun a => { a with lad := a.lad.drop 1 }
/-- The head of the ladder changes. -/
def State.ladHead (s : State) (m : Nat) (x : Sect) : State := s.rdRun m fun a => { a with lad := x :: a.lad.drop 1 }

/-- Entries that end the ladder, or are skipped, are passed; the head then stands at an entry that runs (R126, R127,
R129), or waits for room in the output buffer (R138). After ABORT every sector of the ladder ends ABORTED (R137). -/
def State.ladGo (s : State) (m : Nat) : Nat → State
  | 0 => s
  | fuel + 1 =>
    match (s.med m).rd with
    | none => s
    | some a =>
      match a.lad with
      | [] => s
      | x :: _ =>
        let md := s.ladMode m x.entry
        let fin := fun (st : Nat) =>
          if a.full then s else ((s.ladPop m).sectEnd m x st (min 7 x.entry) []).ladGo m fuel
        if a.abort then fin 0x14
        else if 7 < x.entry then fin 0x11
        else if md = 0 ∨ 6 < md then fin 0x11
        else if md = 6 then fin 0x12
        else if md = 4 ∨ md = 5 then
          if s.rbit (Reg.MCA_CTRL m) 3 then fin 0x13
          else s.ladHead m { x with revsLeft := s.ladRevs m x.entry, smp := if x.pinned then x.smp else [] }
        else if !x.pinned then (s.ladHead m { x with entry := x.entry + 1 }).ladGo m fuel
        else s

/-- Steps of the ladder that may follow at once: each sector passes its 8 entries and its end. -/
def State.ladSettle (s : State) (m : Nat) : State :=
  s.ladGo m (9 * ((s.med m).rd.map fun a => a.lad.length + 1).getD 0)

/-- A sector enters the ladder (R124, R126); after an abort it ends ABORTED there (R137). -/
def State.ladEnter (s : State) (m : Nat) (x : Sect) (reason : Nat) : State :=
  match (s.med m).rd with
  | none => s
  | some a =>
    let x := { x with reason := reason, entry := a.run.lstart, revs := 0, revsLeft := 0, slip := 0 }
    if a.abort then s.sectEnd m x 0x14 0xFF []
    else
      let (x, s) :=
        if s.slotPinned m x.slot ∧ x.pinned then (x, s)
        else if s.pins m < s.pinMax m then ({ x with pinned := true }, s.setPin m x.slot true)
        else ({ x with noPin := true, pinned := false }, s.orReg (Reg.MCA_STATUS m) (bit 7))
      let first := a.lad.isEmpty
      let s := s.rdRun m fun a => { a with lad := a.lad ++ [x] }
      if first then s.ladSettle m else s

/-- The leading readers are all masked (R108). -/
def State.noReaders (s : State) (m : Nat) : Bool := !(s.reader m 0) && !(s.reader m 1) && !(s.reader m 2)

/-- The sector is blank (R121): with every gain at 30 dB after the preamble. -/
def State.isBlank (s : State) (m : Nat) (gain30 : Bool) (smp : List (List W8)) (a : Arb) : Bool :=
  let thr := s.zoneF m 7 1
  s.rbit (Reg.MCA_CTRL m) 6 && decide (thr ≠ 0) && a.neither && gain30 &&
    ((List.range 3).all fun r => !(s.reader m r) ||
      decide (((smp.getD r []).take 96).foldl (fun n b => n + mag b) 0 < thr * 96))

/-- The preamble of every enabled leading reader leaves its gain at 30 dB (R101, R121). -/
def State.gain30 (s : State) (m : Nat) (cap : Capture) : Bool :=
  (List.zip (s.readers m .live) [cap.l, cap.c, cap.u]).all fun (r, sg) =>
    !r.on || acqGain (s.frontSet m) sg r.ofs 0 == 240

/-- Guyline reported off-track during the span of the sector that ends now (R136): at any time since the last one ended, or
now. The next span begins. -/
def State.spanOff (s : State) (m : Nat) : Bool × State :=
  let off := s.rbit (Reg.GYL_ACT_QUAL m) 0
  (off || (s.med m).offSeen, s.setMed m { s.med m with offSeen := off })

/-- The defect detector's findings go into a sector, and an asperity raises its event (R115 to R117). -/
def State.sectDefects (s : State) (m : Nat) (x : Sect) (smp : List (List W8)) (alt : Bool) : Sect × State :=
  let (rg, ta, dr) := s.defects m smp alt
  ({ x with ranges := rg, ta := x.ta || ta, drop := x.drop || dr }, if ta then s.orReg (Reg.MCA_STATUS m) (bit 5) else s)

/-- A sector of the read run has been sampled: its slot, its marks and where it goes (R119, R121 to R123, R131). -/
def State.sectorTake (s : State) (m : Nat) (a : ActRd) (x : Sect) (smp : List (List W8)) (gain30 : Bool) : State :=
  let sect := a.run.start + x.idx
  let arb := s.arbOf m .live smp
  let held := s.slotOf m a.run.cyl (s.zHead m) sect
  let k := held.getD (s.nextSlot m)
  let s :=
    if held.isSome ∧ s.ladMode m a.run.lstart = 5 then (if arb.neither then s else s.slotAverage m k smp arb.start)
    else s.slotFill m k a.run.cyl (s.zHead m) sect smp arb.start held.isSome
  let (x, s) := s.sectDefects m { (x.withArb arb) with slot := k, pinned := held.isSome, smp := smp } smp false
  if s.isBlank m gain30 smp arb then s.sectEnd m x 0x10 0xFF []
  else if arb.neither then s.ladEnter m x 1
  else s.rdRun m fun a => { a with fly := a.fly ++ [x] }

/-- A sector of the read run passes under the head (R101, R108, R119, R121 to R123, R131, R136, R138). -/
def State.sectorCapture (s : State) (m : Nat) (cap : Capture) : State :=
  match (s.med m).rd with
  | none => s
  | some a =>
    if a.abort || a.overrun || decide (a.run.count ≤ a.next) || !(s.rbit (Reg.MCA_CTRL m) 0) then s
    else if a.full then (s.rdRun m fun a => { a with overrun := true }).rdEndCheck m
    else
      let (off, s) := s.spanOff m
      let s := s.rdRun m fun a => { a with next := a.next + 1 }
      let x := { Sect.fresh a.next 0 with offTrack := off }
      if s.noReaders m then s.sectEnd m x 0x15 0xFF []
      else if off ∧ s.rbit (Reg.MCA_CTRL m) 7 then s.sectEnd m x 0x16 0xFF []
      else
        let (loops, smp) := s.sample m cap
        (s.setMed m { s.med m with loops := loops }).sectorTake m a x smp (s.gain30 m cap)

/-- A sector's last LLR enters the elastic buffer of 4 codewords (R112). -/
def State.otfStart (s : State) (m : Nat) : State :=
  match (s.med m).rd with
  | none => s
  | some a =>
    if 4 ≤ (a.fly.filter (·.inBuf)).length then s
    else match a.fly.find? (fun x => !x.inBuf) with
      | none => s
      | some x => s.rdRun m fun a => { a with fly := a.fly.map fun y => if y.idx = x.idx then { y with inBuf := true } else y }

/-- The live taps after adaptation, and their registers in Q3.12 (R109). -/
def State.adapt (s : State) (m : Nat) (lms : List Int) : State :=
  if s.adapting m then
    let s := s.setMed m { s.med m with lms := lms }
    (List.range 39).foldl (fun s i => s.setReg (Reg.MCA_LIVE_TAP m i) (BitVec.ofNat 32 (natOfInt (lms.getD i 0 / 256) 16))) s
  else s

/-- Iterations the on-the-fly decode has (R112): 12; with 3 complete codewords waiting, those done when they were all there,
`full`. -/
def otfLimit (a : ActRd) (full : Nat) : Nat := if 4 ≤ (a.fly.filter (·.inBuf)).length then max 1 (min 12 full) else 12

/-- What a decode of a sector ends as, with what it found taken up (R113, R126): success, or its reason. -/
def State.otfFinish (s : State) (m : Nat) (a : ActRd) (x : Sect) (d : Decode) (mse : Nat) : State :=
  let x := { x with iter := d.iters, unsat1 := d.unsat1, mse := if x.decoded then x.mse else mse
                    decoded := true, erased := erasedBits x.start x.ranges }
  if !d.conv then s.ladEnter m x 2
  else
    let p := decodedPayload a.run.cyl (a.run.start + x.idx) d
    let r := payloadCheck p
    if r = 0 then s.sectEnd m x 0 0xFF p else s.ladEnter m x r

/-- The on-the-fly decode of the oldest sector ends (R109, R112, R113, R126); it waits while the output buffer is full
(R138). -/
def State.otfEnd (s : State) (m full : Nat) : State :=
  match (s.med m).rd with
  | none => s
  | some a =>
    match a.fly with
    | [] => s
    | x :: t =>
      if !x.inBuf || a.full then s
      else
        let (d, mse, lms) := s.flyDecode m x (otfLimit a full)
        (((s.rdRun m fun a => { a with fly := t }).adapt m lms).otfFinish m a x d mse).rdEndCheck m

/-- The slip candidates in their order (R120). -/
def slipOrder (neither : Bool) : List Int := (if neither then [0] else []) ++ [1, -1, 2, -2, 3, -3, 4, -4]

/-- First success among the slip candidates: offset, decode, mean square error and payload. -/
def slipFirst (cyl sect : Nat) : List (Int × Decode × Nat) → Option (Int × Decode × Nat × List W8)
  | [] => none
  | (o, d, e) :: t => match goodPayload cyl sect d with
    | some p => some (o, d, e, p)
    | none => slipFirst cyl sect t

/-- The candidate with the fewest unsatisfied checks, the first tried among equals. -/
def slipBest : List (Int × Decode × Nat) → Int
  | [] => 0
  | (o, d, _) :: t => if t.all (fun y => decide (d.unsat ≤ y.2.1.unsat)) then o else slipBest t

/-- The slip search on samples (R120): the offset taken, its decode and mean square error. -/
def State.slipSearch (s : State) (m : Nat) (cyl sect : Nat) (x : Sect) (smp : List (List W8)) : Int × Decode × Nat :=
  let cands := (slipOrder (!x.f1 && !x.f2)).map fun o =>
    (o, s.memDecode m .entry smp (x.start + o) x.ranges 1 (s.ladSlipIt m x.entry))
  match slipFirst cyl sect cands with
  | some (o, d, e, _) => (o, d, e)
  | none =>
    let o := slipBest cands
    (o, s.memDecode m .entry smp (x.start + o) x.ranges (s.ladPasses m x.entry) (s.ladIter m x.entry))

/-- The decode of a ladder entry (R120, R127): the slip applied, the result and its mean square error. -/
def State.ladDecode (s : State) (m : Nat) (a : ActRd) (x : Sect) (smp : List (List W8)) : Int × Decode × Nat :=
  let md := s.ladMode m x.entry
  if md = 2 then s.slipSearch m a.run.cyl (a.run.start + x.idx) x smp
  else (0, s.memDecode m (if md = 3 then .alt else .entry) smp x.start x.ranges (s.ladPasses m x.entry) (s.ladIter m x.entry))

/-- The samples a ladder entry works on: the slot's, or those of a reread that is decoded directly (R128). -/
def State.ladSamples (s : State) (m : Nat) (x : Sect) : List (List W8) := if x.pinned then s.slotSamples m x.slot else x.smp

/-- What a ladder entry's decode ends as: success, or the next entry (R126). -/
def State.retryFinish (s : State) (m : Nat) (a : ActRd) (x : Sect) (slip : Int) (d : Decode) (mse : Nat) : State :=
  let x := { x with iter := d.iters, mse := if x.decoded then x.mse else mse, decoded := true
                    erased := erasedBits (x.start + slip) x.ranges }
  match goodPayload a.run.cyl (a.run.start + x.idx) d with
  | some p => ((s.ladPop m).sectEnd m { x with slip := slip, start := x.start + slip } (if x.reread then 2 else 1) x.entry p).ladSettle m
  | none => (s.ladHead m { x with entry := x.entry + 1 }).ladSettle m

/-- The present ladder entry of the sector at the head ends (R120, R126 to R128): after its sync arbitration it decodes; it
waits while the output buffer is full (R138). `ups`: words of its slot that were upset. -/
def State.retryEnd (s : State) (m : Nat) (ups : List SlotUpset) : State :=
  match (s.med m).rd with
  | none => s
  | some a =>
    match a.lad with
    | [] => s
    | x :: _ =>
      let md := s.ladMode m x.entry
      if (md = 4 ∨ md = 5) ∧ x.revsLeft ≠ 0 ∨ a.full then s
      else
        let s := if x.pinned then s.slotHit m x.slot ups else s
        let smp := s.ladSamples m x
        let y := x.withArb (s.arbOf m (if md = 3 then .alt else .entry) smp)
        let (y, s) := if x.pinned then s.sectDefects m y smp (md == 3) else (y, s)
        let (slip, d, mse) := s.ladDecode m a y smp
        (s.retryFinish m a y slip d mse).rdEndCheck m

/-- A reread has been sampled (R127, R128): it replaces the slot's samples or is averaged into them; without a slot it is
decoded directly. -/
def State.rereadTake (s : State) (m : Nat) (a : ActRd) (x : Sect) (smp : List (List W8)) : State :=
  let arb := s.arbOf m .live smp
  let sect := a.run.start + x.idx
  let x := { (x.withArb arb) with revs := x.revs + 1, revsLeft := x.revsLeft - 1, reread := true }
  let (x, s) := s.sectDefects m x smp false
  if x.pinned then
    (if arb.neither then s
      else if s.ladMode m x.entry = 5 then s.slotAverage m x.slot smp arb.start
      else s.slotFill m x.slot a.run.cyl (s.zHead m) sect smp arb.start true).ladHead m x
  else if arb.neither then s.ladHead m (if x.smp = [] then { x with smp := smp } else x)
  else if s.pins m < s.pinMax m then
    let k := s.nextSlot m
    (s.slotFill m k a.run.cyl (s.zHead m) sect smp arb.start true).ladHead m { x with slot := k, pinned := true }
  else s.ladHead m { x with smp := smp }

/-- One revolution of a REREAD or COMBINE entry (R127, R128); under OT_GATE an off-track sector is not captured and ends
(R136). -/
def State.rereadRev (s : State) (m : Nat) (cap : Capture) : State :=
  match (s.med m).rd with
  | none => s
  | some a =>
    match a.lad with
    | [] => s
    | x :: _ =>
      let md := s.ladMode m x.entry
      if !(md == 4 || md == 5) || x.revsLeft == 0 then s
      else
        let (off, t) := s.spanOff m
        let x := { x with offTrack := x.offTrack || off }
        if off ∧ s.rbit (Reg.MCA_CTRL m) 7 then
          if a.full then s else (((t.ladPop m).sectEnd m x 0x16 x.entry []).ladSettle m).rdEndCheck m
        else
          let (loops, smp) := t.sample m cap
          (t.setMed m { t.med m with loops := loops }).rereadTake m a x smp

/-- The oldest ended sector's data and record are delivered once the DMA channels accept them (R133); sectors that waited
for room in the output buffer then end (R138). -/
def State.sectDeliver (s : State) (m : Nat) : State :=
  match (s.med m).rd with
  | none => s
  | some a =>
    match a.out with
    | [] => s
    | e :: t =>
      let (ok, s) := match e.data with
        | some d => s.idxDeliver a.run.dataCh m e.idx d
        | none => (true, s)
      if !ok then s
      else
        let s := s.rdRun m fun a => { a with out := { e with data := none } :: t }
        let (ok, s) := s.streamPut a.run.recCh (1 + 4 * m) e.record
        if !ok then s
        else
          let s := s.rdRun m fun a => { a with out := t, done := a.done + 1 }
          ((s.setFld (Reg.MCA_RD_STAT m) 0 16 (a.done + 1)).ladSettle m).rdEndCheck m

/-- ABORT of the read side (R137). -/
def State.rdAbort (s : State) (m : Nat) (atEnd : Bool) : State :=
  let s := s.rdDiscard m
  match (s.med m).rd with
  | none => s.clrReg (Reg.MCA_RD_CTRL m) (bit 2)
  | some _ =>
    if atEnd then s.clrReg (Reg.MCA_RD_CTRL m) (bit 2)
    else (((s.orReg (Reg.MCA_RD_CTRL m) (bit 2)).rdRun m fun a => { a with abort := true }).ladSettle m).rdEndCheck m

/-- A write of MCA_RD_CTRL (R132, R137). -/
def State.rdCtrlWrite (s : State) (m : Nat) (v : W32) (atEnd : Bool) : State :=
  let s := s.setFld (Reg.MCA_RD_CTRL m) 16 4 (getF v 16 4)
  let s := if tb v 0 then (s.orReg (Reg.MCA_RD_CTRL m) (bit 0)).rdCopy m else s
  if tb v 2 then s.rdAbort m atEnd else s

/-- A write of MCA_RET_UNPIN (R124): a slot whose ladder runs is unpinned when that ladder ends. -/
def State.retUnpin (s : State) (m : Nat) (v : W32) : State :=
  (List.range 16).foldl (fun s k =>
    if !(tb v k) then s
    else if ((s.med m).rd.map (fun a => a.lad.any fun x => x.pinned && x.slot == k)).getD false then
      s.setMed m { s.med m with unpinLater := (s.med m).unpinLater ++ [k] }
    else s.setPin m k false) s

/-! ### Write runs -/

/-- The active write run changed. -/
def State.wrRun (s : State) (m : Nat) (f : ActWr → ActWr) : State :=
  s.setMed m { s.med m with wr := (s.med m).wr.map f }

/-- What rises and falls with the write gate (R163): the energy-assist enable, EA_LEAD × 10 ns ahead of each rise. -/
def gateEvents (m lead : Nat) (b : Bool) : List OutEvent :=
  if b then [.energyAssist m true lead, .writeGate m true] else [.writeGate m false, .energyAssist m false 0]

/-- EA_LEAD in ns (R160, R163). -/
def State.eaLead (s : State) (m : Nat) : Nat := 10 * s.zoneF m 397 1

/-- The write gate and the energy-assist enable (R163); neither rises in Bivouac. -/
def State.setGate (s : State) (m : Nat) (b : Bool) : State :=
  let b := b && !(s.rbit Reg.SYS_ROLE 4)
  if (s.med m).gate = b then s
  else { s.setMed m { s.med m with gate := b, ea := b } with out := s.out ++ gateEvents m (s.eaLead m) b }

/-- The write-unsafe qualifier. -/
def State.wUnsafe (s : State) (m : Nat) : Bool := s.rbit (Reg.GYL_ACT_QUAL m) 1

/-- The qualifier has asserted: the write gate falls and the sector under the writer is marked (R163, R175). -/
def State.wrUnsafeDrop (s : State) (m : Nat) : State :=
  if !(s.med m).gate then s
  else
    let s := (s.setGate m false).orReg (Reg.MCA_WR_STATUS m) (bit 2)
    (s.incFld (Reg.MCA_WCNT m 3) 0 32).wrRun m fun a => { a with cur := a.cur.map fun w => { w with unsafeSeen := true } }

/-- Sector number of a slot. -/
def wSector (r : WrRun) (idx : Nat) : Nat := if idx = 0xFFFF then 0 else r.start + idx

/-- The write record (R173). -/
def State.wrRecord (s : State) (m : Nat) (a : ActWr) (w : WSlot) (st : Nat) : List W8 :=
  leBytes 4 a.run.cyl ++ leBytes 2 (wSector a.run w.idx) ++ leBytes 1 (s.zHead m) ++ leBytes 1 st ++ leBytes 2 w.idx ++
    leBytes 1 w.writes ++ leBytes 1 w.viter ++ leBytes 2 w.vmse ++ leBytes 2 w.vunsat ++
    leBytes 1 (b2n w.unsafeSeen + w.flags) ++ leBytes 1 a.band ++ List.replicate 14 0

/-- The slot continues the last entry of the work area (R159). -/
def cairnCont (area : List W8) (n sector : Nat) (tag : List W8) : Bool :=
  let e := sliceB area (64 + 32 * (n - 1)) 32
  decide (n ≠ 0) && leAt e 0 2 + leAt e 2 2 == sector && leAt e 4 8 == leAt tag 0 8 && leAt e 12 4 == leAt tag 8 4 &&
    leAt e 16 2 + leAt e 2 2 == leAt tag 12 2 && e.getD 18 0 == tag.getD 14 0 && e.getD 19 0 == tag.getD 15 0 &&
    leAt e 20 4 == leAt tag 16 4

/-- The slot is listed in the cairn work area (R158, R172). -/
def State.cairnList (s : State) (a : ActWr) (w : WSlot) : State :=
  if w.noCairn ∨ w.idx = 0xFFFF then s
  else
    let base := a.run.cairn / 4096 * 4096
    let (area, _, s) := s.memRead base 4096
    let n := leAt area 28 2
    let sector := wSector a.run w.idx
    if (leAt area 27 1).testBit 0 then s
    else if cairnCont area n sector w.tag then
      s.memWrite (base + 64 + 32 * (n - 1) + 2) (leBytes 2 (leAt area (64 + 32 * (n - 1) + 2) 2 + 1))
    else if 126 ≤ n then s.memWrite (base + 27) (leBytes 1 (leAt area 27 1 + 1))
    else
      let e := leBytes 2 sector ++ leBytes 2 1 ++ sliceB w.tag 0 8 ++ sliceB w.tag 8 4 ++ sliceB w.tag 12 2 ++
        sliceB w.tag 14 1 ++ sliceB w.tag 15 1 ++ sliceB w.tag 16 4 ++ padTo 8 w.digest
      (s.memWrite (base + 64 + 32 * n) e).memWrite (base + 28) (leBytes 2 (n + 1))

/-- A slot of a write run ends: counters, events, cairn and record (R172, R173). -/
def State.slotEnd (s : State) (m : Nat) (w : WSlot) (st : Nat) : State :=
  match (s.med m).wr with
  | none => s
  | some a =>
    let cairn := decide (w.idx = 0xFFFF)
    let s := if st ≤ 2 ∨ st = 0x10 then s.cairnList a w else s
    let s := match st with
      | 0 => if cairn then s else s.incFld (Reg.MCA_WCNT m 0) 0 32
      | 0x11 => if cairn then s.orReg (Reg.MCA_WR_STATUS m) (bit 3)
          else ((s.incFld (Reg.MCA_WCNT m 2) 0 32).orReg (Reg.MCA_WR_STATUS m) (bit 1)).emit (.relocate m (relocTag w.tag))
      | 0x12 => s.orReg (Reg.MCA_WR_STATUS m) (bit 4)
      | _ => s
    let record := s.wrRecord m a w st
    s.wrRun m fun a => { a with out := a.out ++ [record], cairn := if cairn then 3 else a.cairn }

/-- The run's pass has left the media: all slots written, or stopped. -/
def ActWr.passed (a : ActWr) : Bool := a.abort || a.under || a.run.start == 0 || decide (a.run.count ≤ a.next)

/-- Nothing of the run is left: no slot to write, under the writer, in verify or awaiting rewrite, no cairn due, no record
undelivered (R173). -/
def ActWr.over (a : ActWr) : Bool :=
  a.passed && a.cur.isNone && a.vfy.isEmpty && a.rew.isEmpty && a.out.isEmpty && (a.cairn == 0 || a.cairn == 3)

/-- A write run ends once nothing of it is left (R99, R173). -/
def State.wrEndCheck (s : State) (m : Nat) : State :=
  match (s.med m).wr with
  | none => s
  | some a =>
    if a.over then
      let st := BitVec.ofNat 32 a.done ||| BitVec.ofNat 32 (a.revs * 2 ^ 24) ||| (if a.abort then bit 29 else 0) |||
        (if a.under then bit 28 else 0) ||| (if (s.med m).wrPend.isSome then bit 30 else 0)
      let s := (s.setReg (Reg.MCA_WR_STAT m) st).setFld (Reg.MCA_WR_NEXT m) 0 16 (a.run.start + a.next)
      let s := (s.clrReg (Reg.MCA_WR_CTRL m) (bit 2)).orReg (Reg.MCA_WR_STATUS m) (bit 0 ||| (if a.under then bit 5 else 0))
      let s := (s.setGate m false).sendHtrR m
      (s.setMed m { s.med m with
        wr := none, staged := [], readAt := s.now + 100
        fe := if s.medReady m then s.headReaders m (s.zHead m) else 0 }).idxRunEnd a.run.dataCh (2 + 4 * m) false
    else s

/-- The sector under the writer has passed (R148, R169): the gate falls, unless the next slot follows without unwritten
cells between; without verify the sector ends WRITTEN, else it waits for V. -/
def State.wrFinish (s : State) (m : Nat) : State :=
  match (s.med m).wr with
  | none => s
  | some a =>
    match a.cur with
    | none => s
    | some w =>
      let s := if a.passed ∨ s.zoneF m 386 2 ≠ 0 then s.setGate m false else s
      let s := s.wrRun m fun a => { a with cur := none }
      if a.mode = 0 then s.slotEnd m w 2 else s.wrRun m fun a => { a with vfy := a.vfy ++ [w] }

/-- The pending write run becomes active (R99, R104, R161, R162, R164, R169, R530). -/
def State.wrStart (s : State) (m : Nat) : State :=
  let x := s.med m
  match x.wrPend with
  | none => s
  | some r =>
    if !x.idle || !(s.medReady m) || x.zonePend || (x.rdPend.isSome && !x.wrFirst) then s
    else
      let s := s.latchBand m
      let mode := min 2 (s.fld (Reg.MCA_VFY_CFG m) 0 2)
      let heater := s.fld (Reg.MCA_WR_PSIA0 m) 16 16
      let a : ActWr := { run := r, mode := mode, band := s.packBand, next := 0, cur := none, htrWait := heater != 0, vfy := []
                         rew := [], revs := 0, abort := false, under := false
                         cairn := if r.start = 0 ∨ r.close then 1 else 0, out := [], done := 0 }
      let s := s.setMed m { s.med m with
        wrPend := none, wr := some a, staged := [], gateAt := 0, fe := if mode ≠ 0 ∧ s.reader m 3 then 8 else 0 }
      let s := s.setReg (Reg.MCA_WR_STAT m) (runStat (s.reg (Reg.MCA_WR_STAT m)))
      let s := s.psiAuto m (s.fld (Reg.MCA_WR_PSIA0 m) 0 16) (s.bandF m 4) false
      let s := s.psiAuto m heater (s.bandF m 6) true
      let s := s.psiAuto m (s.fld (Reg.MCA_WR_PSIA1 m) 0 16) (s.bandF m 10) false
      s.wrCopy m

/-- The HTR_W frame of a write run has been sent: the gate may rise HSETTLE µs later (R162). -/
def State.htrSent (s : State) (m : Nat) : State :=
  (s.setMed m { s.med m with gateAt := s.now + 50 * s.zoneF m 404 1 }).wrRun m fun a => { a with htrWait := false }

/-- The write gate may rise: HTR_W has been sent HSETTLE µs ago or more (R162). -/
def State.gateFree (s : State) (m : Nat) (a : ActWr) : Bool := !a.htrWait && decide ((s.med m).gateAt ≤ s.now)

/-- The track data cell at which a sector begins (R148, R160). -/
def State.sectorCell (s : State) (m sector : Nat) : Nat := s.zoneF m 388 4 + sector * (36808 + s.zoneF m 386 2)

/-- Where the servo gates that open at the given cells of a sector split it: WGUARD cells earlier, at a bit position inside
it (R148). -/
def State.sectorCuts (s : State) (m : Nat) (gates : List Nat) : List Nat :=
  (gates.map (· - s.zoneF m 392 2)).filter fun p => decide (0 < p) && decide (p < 36808)

/-- The waveform of channel bits (R160, R167): each transition shifted by PRE_n, n the run of equal bits before it, capped at
4; the latched band's overshoot and edge rate. -/
def State.waveOf (s : State) (m : Nat) (bits : List W8) : Wave where
  bits := bits
  shifts := transitions ((List.range 4).map fun i => sgn8 (s.zoneF m (400 + i) 1)) (byteBits bits)
  ovs := s.bandF m 0 % 256
  ovsDur := s.bandF m 1 % 16
  rise := s.bandF m 2 % 8

/-- The parts of a sector, with gate and energy-assist enable low over each wedge span between them (R148, R163). -/
def partEvents (m lead : Nat) (mk : Nat → Nat → OutEvent) : Nat → List Nat → List OutEvent
  | lo, [] => [mk lo 36808]
  | lo, p :: t => mk lo p :: (gateEvents m lead false ++ gateEvents m lead true ++ partEvents m lead mk p t)

/-- A sector's payload goes onto the media under the raised gate (R146 to R148, R163, R167). -/
def State.sectorEvents (s : State) (m : Nat) (r : WrRun) (sector : Nat) (payload : List W8) (gates : List Nat) : List OutEvent :=
  let wave := s.waveOf m (physSector (scramble r.cyl sector payload))
  partEvents m (s.eaLead m)
    (fun lo hi => .sectorPart m (s.zHead m) r.cyl sector (s.sectorCell m sector) lo hi wave) 0 (s.sectorCuts m gates)

/-- A sector passes under the writer: with the channel enabled and write-unsafe clear, the gate is up and it is written
(R163). -/
def State.writeSector (s : State) (m : Nat) (r : WrRun) (sector : Nat) (payload : List W8) (gates : List Nat) : State :=
  if s.wUnsafe m || !(s.rbit (Reg.MCA_CTRL m) 0) || s.rbit Reg.SYS_ROLE 4 then s.setGate m false
  else
    let t := s.setGate m true
    { t with out := t.out ++ t.sectorEvents m r sector payload gates }

/-- A slot not written. -/
def WSlot.blank (idx : Nat) : WSlot := ⟨idx, [], [], true, 0, 0, false, 0xFF, 0, 0, 0⟩

/-- A sector begins to pass under the writer. -/
def State.wrBegin (s : State) (m : Nat) (w : WSlot) (payload : List W8) (gates : List Nat) : State :=
  match (s.med m).wr with
  | none => s
  | some a =>
    (s.writeSector m a.run (wSector a.run w.idx) payload gates).wrRun m fun a =>
      { a with cur := some { w with writes := w.writes + 1, unsafeSeen := s.wUnsafe m } }

/-- A slot of the pass ends without being written: the gate is low over it (R165, R166). -/
def State.slotPass (s : State) (m : Nat) (w : WSlot) (st : Nat) : State :=
  (((s.setGate m false).wrRun m fun a => { a with next := a.next + 1 }).slotEnd m w st).wrEndCheck m

/-- The next slot of the pass (R162, R165, R166). A slot that comes before the gate may rise, or before its data, is not
begun. -/
def State.slotWrite (s : State) (m : Nat) (gates : List Nat) : State :=
  let s := s.wrFinish m
  match (s.med m).wr with
  | none => s
  | some a =>
    if a.passed || !(s.gateFree m a) then s
    else
      let (d, ue, s) := s.memRead (a.run.desc / 64 * 64 + 64 * a.next) 64
      let w0 := WSlot.blank a.next
      let fl := leAt d 40 1
      let drop := fun (s : State) => s.setMed m { s.med m with staged := smDel (s.med m).staged a.next }
      if ue then s.slotPass m w0 0x12
      else if fl.testBit 0 then s.slotPass m w0 0x14
      else match smFind (s.med m).staged a.next with
        | none => s
        | some none => (drop s).slotPass m w0 0x12
        | some (some data) =>
          let tag := tagOf (sliceB d 0 28)
          let w : WSlot := { w0 with
            tag := tag, digest := sliceB d 32 8, noCairn := fl.testBit 1, crc := sectorCrc data tag }
          ((drop s).wrBegin m w (payloadOf data tag) gates).wrRun m fun a => { a with next := a.next + 1 }

/-- Data missing before the next slot's preamble (R166): that slot and every later one stay unwritten. -/
def State.wrUnderrun (s : State) (m : Nat) : State :=
  match (s.med m).wr with
  | none => s
  | some a =>
    if a.passed || (smFind (s.med m).staged a.next).isSome then s
    else (s.wrRun m fun a => { a with under := true }).wrEndCheck m

/-- What the verify of a slot finds (R168): the flags of the record, and whether it passes. -/
def State.vfyFlags (s : State) (m : Nat) (a : ActWr) (w : WSlot) (arb : Arb) (d : Decode) (mse : Nat) : Nat × Bool :=
  let conv := d.conv && !arb.neither
  let p := decodedPayload a.run.cyl (wSector a.run w.idx) d
  let crcBad := conv && (decide (payloadCheck p ≠ 0) || decide (leAt p 4128 8 ≠ w.crc.toNat))
  (2 * b2n (!conv) + 4 * b2n crcBad, conv && !crcBad && decide (mse ≤ s.zoneF m 398 2) && !w.unsafeSeen)

/-- VFY_ITER (R160). -/
def State.vfyIter (s : State) (m : Nat) : Nat := max 1 (min 12 (s.zoneF m 396 1))

/-- A verified slot ends, or joins the rewrite list (R168 to R170, R172, R174). -/
def State.vfyFinish (s : State) (m : Nat) (a : ActWr) (w : WSlot) (ok : Bool) : State :=
  if ok then s.slotEnd m w (if w.writes = 1 then 0 else 1)
  else if a.mode = 1 then s.slotEnd m w 0x10
  else if 3 ≤ w.writes then s.slotEnd m w 0x11
  else if a.abort then s.slotEnd m w 0x13
  else if w.idx = 0xFFFF then s.wrRun m fun a => { a with rew := [w], cairn := 1 }
  else if 64 ≤ a.rew.length then s.slotEnd m { w with flags := w.flags + 8 } 0x11
  else s.wrRun m fun a => { a with rew := a.rew ++ [w] }

/-- The sector under the writer has passed if nothing written before it is still to be verified. -/
def State.vfyReady (s : State) (m : Nat) : State :=
  if ((s.med m).wr.map (·.vfy.isEmpty)).getD false then s.wrFinish m else s

/-- The verify of the oldest written slot ends (R139, R168 to R170, R172, R174). -/
def State.verifyResult (s : State) (m : Nat) (v : List Int) : State :=
  let s := s.vfyReady m
  match (s.med m).wr with
  | none => s
  | some a =>
    match a.vfy with
    | [] => s.wrEndCheck m
    | w :: t =>
      let (loops, arb, d, mse) := s.vfyDecode m v (s.vfyIter m)
      let (fl, ok) := s.vfyFlags m a w arb d mse
      let s := (s.setMed m { s.med m with loops := loops }).wrRun m fun a => { a with vfy := t }
      (s.vfyFinish m a { w with viter := d.iters, vmse := mse, vunsat := d.unsat1, flags := fl } ok).wrEndCheck m

/-- The data of every slot in the rewrite list has been supplied again (R165). -/
def State.rewReady (s : State) (m : Nat) (l : List WSlot) : Bool :=
  l.all fun w => (smFind (s.med m).staged w.idx).isSome

/-- One slot rewritten in place (R165, R168, R170, R175): the one before it has passed. -/
def State.rewriteOne (s : State) (m : Nat) (w : WSlot) (gates : List Nat) : State :=
  let s := s.wrFinish m
  let data := (smFind (s.med m).staged w.idx).getD none
  let s := s.setMed m { s.med m with staged := smDel (s.med m).staged w.idx }
  match data with
  | none => (s.setGate m false).slotEnd m w 0x12
  | some data => (s.incFld (Reg.MCA_WCNT m 1) 0 32).wrBegin m { w with crc := sectorCrc data w.tag } (payloadOf data w.tag) gates

/-- A rewrite revolution (R170): `gates` gives, for each slot in turn, where servo gates open. -/
def State.rewriteRev (s : State) (m : Nat) (gates : List (List Nat)) : State :=
  let s := s.vfyReady m
  match (s.med m).wr with
  | none => s
  | some a =>
    if !a.passed || !a.vfy.isEmpty || a.rew.isEmpty || a.cairn == 1 && (a.rew.any fun w => w.idx == 0xFFFF) || a.abort ||
      !(s.rewReady m a.rew) || decide (2 ≤ a.revs) || !(s.gateFree m a) then s
    else
      let s := s.wrRun m fun a => { a with rew := [], revs := a.revs + 1 }
      let s := s.setFld (Reg.MCA_WR_STAT m) 24 2 (a.revs + 1)
      (((List.range a.rew.length).zip a.rew).foldl (fun s (w : Nat × WSlot) => s.rewriteOne m w.2 (gates.getD w.1 [])) s).wrEndCheck m

/-- The cairn's tag (R154, R172). -/
def State.cairnTag (s : State) (area : List W8) : List W8 :=
  tagOf (leBytes 8 0 ++ sliceB area 20 4 ++ sliceB area 24 2 ++ [0, 0xEF] ++ leBytes 4 0 ++ leBytes 4 s.minutes ++
    leBytes 2 0 ++ leBytes 2 1)

/-- The work area is written as sector 0 (R150, R164, R172). -/
def State.cairnWrite (s : State) (m : Nat) (gates : List Nat) : State :=
  let s := s.vfyReady m
  match (s.med m).wr with
  | none => s
  | some a =>
    let cairnRew := a.rew.filter fun w => w.idx == 0xFFFF
    if !a.passed || a.abort || !a.vfy.isEmpty || a.cairn != 1 || decide (a.rew.length ≠ cairnRew.length) || !(s.gateFree m a) then s
    else
      let (area, ue, s) := s.memRead (a.run.cairn / 4096 * 4096) 4096
      let old := cairnRew.head?.getD (WSlot.blank 0xFFFF)
      if ue then ((s.wrRun m fun a => { a with rew := [] }).slotEnd m old 0x12).wrEndCheck m
      else
        let tag := s.cairnTag area
        let s := if old.writes = 0 then s else s.incFld (Reg.MCA_WCNT m 1) 0 32
        (s.wrRun m fun a => { a with rew := [], cairn := 2 }).wrBegin m { old with tag := tag, crc := sectorCrc area tag }
          (payloadOf area tag) gates

/-- The oldest write record is delivered once its channel accepts it (R173). -/
def State.wrDeliver (s : State) (m : Nat) : State :=
  let s := if ((s.med m).wr.map (·.out.isEmpty)).getD false then s.wrFinish m else s
  match (s.med m).wr with
  | none => s
  | some a =>
    match a.out with
    | [] => s.wrEndCheck m
    | r :: t =>
      let (ok, s) := s.streamPut a.run.recCh (1 + 4 * m) r
      if !ok then s
      else
        let s := s.wrRun m fun a => { a with out := t, done := a.done + 1 }
        (s.setFld (Reg.MCA_WR_STAT m) 0 16 (a.done + 1)).wrEndCheck m

/-- Slots from index `i` on end ABORTED. -/
def State.abortRest (s : State) (m i : Nat) : Nat → State
  | 0 => s
  | n + 1 => (s.slotEnd m (WSlot.blank i) 0x13).abortRest m (i + 1) n

/-- The active write run stops: what is not written or awaits rewrite ends ABORTED, and no cairn is written; the sector under
the writer completes (R174). -/
def State.wrStop (s : State) (m : Nat) (a : ActWr) : State :=
  let s := s.wrRun m fun a => { a with abort := true, rew := [], cairn := if a.cairn = 1 then 0 else a.cairn }
  let s := if a.cur.isNone then s.setGate m false else s
  let s := if a.passed then s else s.abortRest m a.next (a.run.count - a.next)
  (a.rew.filter fun w => w.idx != 0xFFFF || a.cairn == 1).foldl (fun s w => s.slotEnd m w 0x13) s

/-- ABORT of the write side (R174). -/
def State.wrAbort (s : State) (m : Nat) (atEnd : Bool) : State :=
  let s := s.wrDiscard m
  match (s.med m).wr with
  | none => s.clrReg (Reg.MCA_WR_CTRL m) (bit 2)
  | some a =>
    if atEnd then s.clrReg (Reg.MCA_WR_CTRL m) (bit 2)
    else ((s.orReg (Reg.MCA_WR_CTRL m) (bit 2)).wrStop m a).wrEndCheck m

/-- A write of MCA_WR_CTRL (R164, R174). -/
def State.wrCtrlWrite (s : State) (m : Nat) (v : W32) (atEnd : Bool) : State :=
  let s := s.setFld (Reg.MCA_WR_CTRL m) 16 1 (getF v 16 1)
  let s := if tb v 0 then (s.orReg (Reg.MCA_WR_CTRL m) (bit 0)).wrCopy m else s
  if tb v 2 then s.wrAbort m atEnd else s

/-- The end of a write run at entry to Bivouac (R512): the sector being written is cut short. -/
def State.wrCut (s : State) (m : Nat) : State :=
  let s := (s.wrDiscard m).setGate m false
  match (s.med m).wr with
  | none => s
  | some a =>
    let s := s.wrRun m fun a => { a with vfy := [], cur := none }
    let s := (a.vfy ++ a.cur.toList).foldl (fun s w => s.slotEnd m w 0x13) s
    (s.wrStop m { a with cur := none }).wrEndCheck m

/-- A request of a media channel through its indexed port for index `i` (R407): the write path asks for a slot's data, or
the read path hands over the data of its oldest ended sector. A run of the cairn alone asks for none (R164). -/
def State.mediaIndexed (s : State) (m i : Nat) : State :=
  match (s.med m).wr, (s.med m).rd with
  | some a, _ =>
    if s.portCurrent a.run.dataCh (2 + 4 * m) false ∧ (smFind (s.med m).staged i).isNone ∧
        (s.dmaCh a.run.dataCh).idxReq = none ∧ i < a.run.count ∧ a.run.start ≠ 0 then s.idxRequest a.run.dataCh m i
    else s
  | none, some a =>
    match a.out with
    | e :: t =>
      match e.data with
      | some d =>
        if e.idx ≠ i then s
        else
          let (ok, s) := s.idxDeliver a.run.dataCh m i d
          if ok then s.rdRun m fun a => { a with out := { e with data := none } :: t } else s
      | none => s
    | [] => s
  | none, none => s

/-- The reader mask or EN has been written with EN set: with a zone loaded and no write run, the enabled front ends are
powered; one already powered stays so until a commit (R99). -/
def State.feWritten (s : State) (m : Nat) : State :=
  if s.medReady m ∧ (s.med m).wr = none then
    s.setMed m { s.med m with fe := (s.med m).fe ||| s.headReaders m (s.zHead m) }
  else s

/-- MCA_CTRL written. With EN cleared, the write gate falls (R163) and the front ends go off (R99). -/
def State.mcaCtrlWritten (s : State) (m : Nat) : State :=
  if s.rbit (Reg.MCA_CTRL m) 0 then s.feWritten m
  else (s.setGate m false).setMed m { (s.setGate m false).med m with fe := 0 }

end Sys2Proof.Machine
end

