-- ==== Sys2Proof/Machine/Servo.lean ====
section
/-! DEFINITION. Guyline: contexts, demodulators, qualifiers, law programs, outputs, the actuator driver interface, seeks, load,
unload and retract (R178 to R210). -/

namespace Sys2Proof.Machine

/-! ### Access -/

/-- A context. -/
def State.gc (s : State) (c : Nat) : GCtx := smGet (fun _ => GCtx.reset) s.gctx c
/-- A context set. -/
def State.setGc (s : State) (c : Nat) (x : GCtx) : State := { s with gctx := smPut (fun _ => GCtx.reset) s.gctx c x }
/-- GYL_CTRL.EN. -/
def State.gylOn (s : State) : Bool := s.rbit Reg.GYL_CTRL 0
/-- EN of a context. -/
def State.ctxOn (s : State) (c : Nat) : Bool := s.rbit (Reg.GYL_CTX_CTRL c) 0
/-- The actuator a context serves, for contexts 0 to 3. -/
def ctxAct (c : Nat) : Nat := c / 2
/-- Voice-coil and microactuator contexts of an actuator. -/
def vcm (a : Nat) : Nat := 2 * a
def mac (a : Nat) : Nat := 2 * a + 1

/-- State bits of GYL_ACTa_QUAL. -/
def State.acquired (s : State) (a : Nat) : Bool := s.rbit (Reg.GYL_ACT_QUAL a) 3
def State.loading (s : State) (a : Nat) : Bool := s.rbit (Reg.GYL_ACT_QUAL a) 4
def State.unloading (s : State) (a : Nat) : Bool := s.rbit (Reg.GYL_ACT_QUAL a) 5
def State.retracting (s : State) (a : Nat) : Bool := s.rbit (Reg.GYL_ACT_QUAL a) 6
/-- A load, unload or retract is in progress. -/
def State.moving (s : State) (a : Nat) : Bool := s.loading a || s.unloading a || s.retracting a
/-- A bit of GYL_ACTa_QUAL set. -/
def State.setQual (s : State) (a b : Nat) (v : Bool) : State := s.setFld (Reg.GYL_ACT_QUAL a) b 1 (b2n v)

/-- SUP (R202). -/
def State.sup (s : State) : W32 :=
  let vm := s.reg Reg.GYL_VM
  let vn := s.reg Reg.GYL_VNOM
  if flt vm (fmul fquarter vn) ∨ fzero vm then f2 else fmin2 (fmax2 (fdiv vn vm) fhalf) f2

/-! ### Qualifiers (R188, R189) -/

/-- Off-track at a new value; the read channel sees that it was asserted (R136). -/
def State.setOff (s : State) (a : Nat) (off : Bool) : State :=
  let s := s.setQual a 0 off
  if off then s.setMed a { s.med a with offSeen := true } else s
/-- Write-unsafe asserted; a write gate that is up falls. -/
def State.wuAssert (s : State) (a : Nat) : State :=
  ((s.setQual a 1 true).setGact a { s.gact a with clean := 0 }).wrUnsafeDrop a
/-- Both qualifiers asserted, as GYL_CTRL.EN = 0 does. -/
def State.qualAssert (s : State) (a : Nat) : State := (s.setOff a true).wuAssert a

/-! ### Frames (R199, R200) -/

/-- The CRC-6 with x^6 + x + 1 over bits 31:6, first bit first. -/
def crc6 (w : Nat) : Nat :=
  (List.range 26).foldl (fun c i =>
    let b := b2n (w.testBit (31 - i))
    let fb := (c / 32 + b) % 2
    (c * 2 % 64) ^^^ (fb * 3)) 0

/-- A frame waits for the port; without EN there are no frames. -/
def State.adiQueue (s : State) (a type payload : Nat) : State :=
  if s.gylOn then s.setGact a { s.gact a with adi := (s.gact a).adi ++ [(type, payload)] } else s

/-- The oldest waiting frame goes out on the port. -/
def State.adiSend (s : State) (a : Nat) : State :=
  let x := s.gact a
  match x.adi with
  | [] => s
  | (ty, pl) :: t =>
    if !s.gylOn then s
    else
      let w := ty * 2 ^ 28 + x.seq * 2 ^ 24 + pl % 2 ^ 18 * 2 ^ 6
      (s.setGact a { x with adi := t, seq := (x.seq + 1) % 16, sent := x.sent + 1, lastType := ty }).emit
        (.adiFrame a (BitVec.ofNat 32 (w + crc6 w)))

/-- The command of a context's y0 (R200). -/
def State.cmdOf (s : State) (c : Nat) (y : W32) : Int :=
  let x := if s.rbit (Reg.GYL_CTX_CTRL c) 1 then (fval y).mul (fval s.sup) else fval y
  if c % 2 = 0 then fscale x 17 (-131072) 131071 else fscale x 15 (-32768) 32767

/-- The frame of a voice-coil or microactuator command. -/
def State.sendCmd (s : State) (c : Nat) (y : W32) : State :=
  let v := s.cmdOf c y
  if c % 2 = 0 then s.adiQueue (ctxAct c) 1 (natOfInt v 18) else s.adiQueue (ctxAct c) 2 (natOfInt v 16 * 4)

/-- A context's output: a frame, the torque-current reference of the spindle unit, or nothing (R178). During a load or an
unload MA frames carry 0 (R206, R208). -/
def State.sendOut (s : State) (c : Nat) (y : W32) : State :=
  if c < 4 then
    let y := if c % 2 = 1 ∧ (s.loading (ctxAct c) ∨ s.unloading (ctxAct c)) then f0 else y
    (s.sendCmd c y).setGc c { s.gc c with yprev := y }
  else
    let s := s.setGc c { s.gc c with yprev := y }
    if c = 4 then { s with spn := { s.spn with iref := y } } else s

/-! ### Faults and retract (R194, R210) -/

/-- The run of a context stops; held state writes are applied (R195). -/
def State.endRun (s : State) (c : Nat) : State :=
  let x := s.gc c
  let s := x.held.foldl (fun s w => s.setReg (Reg.GYL_CTX_S c w.1) w.2) s
  ({ s with gylRun := none }).setGc c { x with held := [] } |>.clrReg (Reg.GYL_CTX_STAT c) (bit 31)

/-- A context neither runs nor waits. -/
def State.dropCtx (s : State) (c : Nat) : State :=
  let s := { s with gylQ := s.gylQ.filter (·.2 != c) }
  let s := if s.gylRun.map (·.ctx) = some c then s.endRun c else s
  s.setGc c { s.gc c with frozen := none, due := false }

/-- A retract begins (R210). -/
def State.retract (s : State) (a : Nat) : State :=
  let s := (s.dropCtx (vcm a)).dropCtx (mac a)
  let s := (s.clrReg (Reg.GYL_CTX_CTRL (vcm a)) (bit 0)).clrReg (Reg.GYL_CTX_CTRL (mac a)) (bit 0)
  let s := ((s.setQual a 4 false).setQual a 5 false).setQual a 6 true
  let s := (s.clrReg (Reg.GYL_ACT_LOAD a) (bit 11 ||| bit 12)).orReg (Reg.GYL_ACT_LOAD a) (bit 13)
  (s.adiQueue a 2 0).adiQueue a 3 (s.fld (Reg.GYL_ACT_RETRACT a) 0 16 * 4)

/-- A context faults (R194). -/
def State.ctxFault (s : State) (c code : Nat) : State :=
  let s := (s.dropCtx c).clrReg (Reg.GYL_CTX_CTRL c) (bit 0)
  let s := ((s.orReg (Reg.GYL_CTX_STAT c) (bit 30)).setFld (Reg.GYL_CTX_STAT c) 20 4 code).orReg Reg.GYL_STATUS (bit c)
  let act := s.fld (Reg.GYL_CTX_CTRL c) 10 2
  if act = 0 then s
  else if act = 2 ∧ (c = 0 ∨ c = 2) then s.retract (ctxAct c)
  else s.sendOut c f0

/-! ### Commit and triggering (R198, R205, R207) -/

/-- The commit event of a context. -/
def State.ctxCommit (s : State) (c : Nat) : State :=
  if !(s.rbit (Reg.GYL_CTX_COMMIT c) 0) then s
  else
    let law := s.reg (Reg.GYL_CTX_LAW c)
    let start := getF law 0 11
    let x := s.gc c
    let s := s.setGc c { x with
      law := start, transfer := x.transfer || tb law 16 || decide (start ≠ getF (s.act (Reg.GYL_CTX_LAW c)) 0 11) }
    let s := (s.setAct (Reg.GYL_CTX_LAW c) law).setAct (Reg.GYL_CTX_PHASE c) (s.reg (Reg.GYL_CTX_PHASE c))
    let s := (List.range 64).foldl (fun s j => s.setAct (Reg.GYL_CTX_K c j) (s.reg (Reg.GYL_CTX_K c j))) s
    (s.clrReg (Reg.GYL_CTX_LAW c) (bit 16)).clrReg (Reg.GYL_CTX_COMMIT c) (bit 0)

/-- A sample of a context is late (R197, R198). -/
def State.ctxLate (s : State) (c : Nat) : State :=
  let x := s.gc c
  let s := (s.orReg Reg.GYL_STATUS (bit (8 + c))).incFld (Reg.GYL_CTX_LATE c) 0 16
  let s := s.setGc c { x with late := x.late + 1, lateNow := true, frozen := none, due := false }
  if max 1 (s.fld (Reg.GYL_CTX_CTRL c) 16 4) ≤ x.late + 1 then s.ctxFault c 5 else s

/-- A context's inputs latched (R196). -/
def State.latchInputs (s : State) (c : Nat) (l : List W32) : State :=
  ((List.range 16).zip (l ++ List.replicate (16 - l.length) f0)).foldl (fun s p => s.setReg (Reg.GYL_CTX_I c p.1) p.2) s

/-- A sample instant that comes before the output instant of the last sample abandons that output, which is late (R198). -/
def State.abandon (s : State) (c : Nat) : State := if (s.gc c).due then s.ctxLate c else s

/-- Place of a context among those with one sample instant: 1, 0, 3, 2, 4, 5 (R180). -/
def ctxRank (c : Nat) : Nat := if c < 4 then c / 2 * 2 + (1 - c % 2) else c
/-- A pending run takes its place: by the time of its sample instant, then by rank (R180). -/
def pendIns (e : Nat × Nat) : List (Nat × Nat) → List (Nat × Nat)
  | [] => [e]
  | x :: t => if e.1 < x.1 ∨ e.1 = x.1 ∧ ctxRank e.2 < ctxRank x.2 then e :: x :: t else x :: pendIns e t

/-- A context is triggered at its sample instant with the inputs i0 to i9; its run becomes pending (R179, R180). A run of its
last sample that still goes on freezes nothing for this one (R197). -/
def State.trigger (s : State) (c : Nat) (ins : List W32) : State :=
  if !s.gylOn || !(s.ctxOn c) then s
  else
    let s := s.abandon c
    if !(s.ctxOn c) then s
    else
      let s := s.ctxCommit c
      let x := s.gc c
      let s := s.latchInputs c (ins ++ List.replicate (10 - ins.length) f0 ++ [x.yprev, if x.transfer then f1 else f0])
      let s := s.setGc c { x with frozen := none, due := true }
      { s with gylQ := pendIns (s.now, c) (s.gylQ.filter (·.2 != c))
               gylRun := s.gylRun.map fun r => if r.ctx = c then { r with stale := true } else r }

/-- Inputs i0 to i9 of an actuator's contexts at a sample (R196). -/
def State.actInputs (s : State) (a c : Nat) (timer : Bool) : List W32 :=
  let x := s.gact a
  [x.pes, s.reg (Reg.GYL_ACT_FRAC a), x.ref, x.vref, x.aref, s.sup, fdyad (s.gc c).sense.toInt (-17), x.rro,
    if x.valid ∧ !timer then f1 else f0, if x.seek then f1 else f0]

/-- The contexts an actuator's sample instant triggers, the microactuator first (R180). -/
def State.triggerAct (s : State) (a : Nat) (timer : Bool) : State :=
  let s := s.trigger (mac a) (s.actInputs a (mac a) timer)
  s.trigger (vcm a) (s.actInputs a (vcm a) timer)

/-! ### Demodulation (R182 to R186) -/

/-- A Gray-coded number decoded. -/
def ungray (g : W32) : Nat :=
  ((List.range 32).foldl (fun (p : Nat × Bool) i =>
    let b := xor p.2 (g.getLsbD (31 - i))
    (p.1 * 2 + b2n b, b)) (0, false)).1

/-- f of R183 in [-0.5, 0.5); with S = 0 the spec states no value and it is free. -/
def State.demodF (s : State) (w : Wedge) : W32 × State :=
  let n := fmul (fsub w.a1 w.a3) fhalf
  let q := fmul (fsub w.a2 w.a4) fhalf
  let sm := fadd (fabs n) (fabs q)
  if fzero sm then
    let (k, s) := s.freeAny
    let f : W32 := BitVec.ofNat 32 k
    (if !(fbad f) && fle (fneg fhalf) f && flt f fhalf then f else f0, s)
  else
    let s4 := fmul 0x40800000 sm
    let wrap := fun (x : W32) => if fle fhalf x then fsub x f1 else if flt x (fneg fhalf) then fadd x f1 else x
    let f :=
      if fle (fabs n) (fabs q) then (if flt q f0 then fdiv n s4 else wrap (fsub fhalf (fdiv n s4)))
      else if flt f0 n then fadd fquarter (fdiv q s4) else fsub (fneg fquarter) (fdiv q s4)
    (f, s)

/-- |N + f − (2P[n−1] − P[n−2])| exactly, for R184's choice. -/
def posDist (x : GAct) (n : Int) (f : W32) : Flt :=
  let i : Int := n - (2 * x.p1 - x.p2)
  let d : Flt := (⟨decide (i < 0), i.natAbs, 0⟩ : Flt)
  let d := (d.add (fval f)).add ((fval x.f2).add ((fval x.f1).mul ⟨true, 2, 0⟩))
  { d with neg := false }

/-- The integer track of R184; ties go to G. -/
def pickTrack (x : GAct) (g : Nat) (f : W32) : Int :=
  if x.resolve then (g : Int)
  else
    let best := if (posDist x (g - 1) f).lt (posDist x g f) then ((g : Int) - 1) else (g : Int)
    if (posDist x (g + 1) f).lt (posDist x best f) then (g : Int) + 1 else best

/-- WEDGES, 128 to 1,024. -/
def State.wedges (s : State) (a : Nat) : Nat := max 128 (min 1024 (s.fld (Reg.GYL_ACT_WEDGES a) 0 11))

/-- A missed wedge (R182): VALID is 0.0; after MISS_MAX in a row, acquisition is lost and both contexts fault. -/
def State.wedgeMissed (s : State) (a : Nat) : State :=
  let x := s.gact a
  let s := s.setGact a { x with valid := false, resolve := true, missed := x.missed + 1, found := 0
                                wedge := x.wedge.map fun w => (w + 1) % s.wedges a }
  let s := s.wuAssert a
  if s.acquired a ∧ max 1 (s.fld (Reg.GYL_ACT_CTRL a) 28 4) ≤ x.missed + 1 then
    let s := (s.setQual a 3 false).orReg Reg.GYL_STATUS (bit (24 + a))
    (s.ctxFault (mac a) 6).ctxFault (vcm a) 6
  else s

/-- Acquisition of a load (R208, step 4); the next wedge resolves N = G (R184). -/
def State.acquireCheck (s : State) (a : Nat) : State :=
  if s.loading a ∧ max 1 (s.fld (Reg.GYL_ACT_CTRL a) 20 4) ≤ (s.gact a).found then
    let s := ((s.setQual a 3 true).setQual a 4 false).orReg Reg.GYL_STATUS (bit (18 + a))
    (s.clrReg (Reg.GYL_ACT_LOAD a) (bit 11)).setGact a { s.gact a with missed := 0, resolve := true, acqNow := true }
  else s

/-- PES (R186): the integer part is exact, and only the result becomes binary32. -/
def pesOf (n : Int) (f : W32) (tcyl : Nat) (tofs : W32) : W32 := fsub (fadd (fint (n - tcyl)) f) tofs

/-- The servo reader: 0 L, 1 C, 2 U (R181). -/
def servoReader (v : W32) : Nat := if getF v 3 2 = 3 then 1 else getF v 3 2
/-- The servo gate of a wedge: the servo reader's front end is powered for the whole of it (R99, R181). -/
def State.servoGate (s : State) (a : Nat) : State :=
  if s.gylOn ∧ s.rbit (Reg.GYL_ACT_CTRL a) 1 then
    let fe := (s.med a).fe
    { s with out := s.out ++
        [.frontEnds a (fe ||| BitVec.ofNat 4 (2 ^ servoReader (s.reg (Reg.GYL_ACT_CTRL a)))), .frontEnds a fe] }
  else s

/-- GYL_ACTa_CTRL written: after a change of servo reader the next wedge resolves N as after a head change (R181). -/
def State.actCtrlWrite (s : State) (a : Nat) (v : W32) : State :=
  let t := s.basicWrite (Reg.GYL_ACT_CTRL a) v 0 0
  if servoReader (t.reg (Reg.GYL_ACT_CTRL a)) = servoReader (s.reg (Reg.GYL_ACT_CTRL a)) then t
  else t.setGact a { t.gact a with resolve := true }

/-- A servo wedge is demodulated (R181 to R185). A wedge out of sequence counts as missed. -/
def State.servoWedge (s : State) (a : Nat) (w : Wedge) : State :=
  if !(s.rbit (Reg.GYL_ACT_CTRL a) 0) then s
  else
    let s := s.servoGate a
    let x := s.gact a
    let next := x.wedge.map fun k => (k + 1) % s.wedges a
    let inSeq := match next with | some k => k == w.number.toNat | none => true
    if s.acquired a ∧ !inSeq then
      (s.wedgeMissed a).setGact a { (s.wedgeMissed a).gact a with wedge := some w.number.toNat }
    else
      let (f, s) := s.demodF w
      let x := s.gact a
      let n := pickTrack x (ungray w.gray) f
      let s := (s.setReg (Reg.GYL_ACT_POS a) (BitVec.ofInt 32 n)).setReg (Reg.GYL_ACT_FRAC a) f
      let s := s.setGact a { x with p2 := x.p1, f2 := x.f1, p1 := n, f1 := f, resolve := false, wedge := some w.number.toNat
                                    missed := 0, found := if inSeq then x.found + 1 else 1, valid := true
                                    rro := fdyad w.runout.toInt (-10) }
      s.acquireCheck a

/-! ### Seek generator (R203, R204) -/

/-- One sample of the generator. -/
def seekStep (x : GAct) : GAct :=
  let a :=
    if flt x.w f0 then fmin2 x.amax (fneg x.w)
    else if fle x.u (fadd (fdiv (fmul x.w x.w) (fmul f2 x.amax)) x.w) then fneg (fmin2 x.amax x.w)
    else fmin2 (fmax2 (fsub x.vmax x.w) (fneg x.amax)) x.amax
  let w := fadd x.w a
  let (a, w) := if flt x.u w then (fsub a (fsub w x.u), x.u) else (a, w)
  let u := fsub x.u w
  let dir := fun (y : W32) => if x.neg then fneg y else y
  { x with u := u, w := w, ref := fneg (dir u), vref := dir w, aref := dir a }

/-- A seek starts or starts again at a sample instant. -/
def State.seekStart (s : State) (a : Nat) : State :=
  let x := s.gact a
  let cyl := (s.reg (Reg.GYL_ACT_TGT_CYL a)).toNat
  let ofs := s.reg (Reg.GYL_ACT_TGT_OFS a)
  -- distance from the reference to the target
  let d := if x.seek then fsub (fadd (fint ((cyl : Int) - x.tcyl)) (fsub ofs x.tofs)) x.ref
    else fneg (pesOf x.p1 x.f1 cyl ofs)
  let neg := flt d f0
  let w := if x.seek then (if neg then fneg x.vref else x.vref) else f0
  let s := s.setGact a { x with tcyl := cyl, tofs := ofs, seek := true, u := fabs d, w := w, neg := neg
                                amax := s.reg (Reg.GYL_ACT_AMAX a), vmax := s.reg (Reg.GYL_ACT_VMAX a) }
  ((s.clrReg (Reg.GYL_ACT_SEEK a) (bit 0)).orReg (Reg.GYL_ACT_SEEK a) (bit 1)).setQual a 2 true

/-- The seek generator at a sample instant; a seek that has arrived ends. -/
def State.seekSample (s : State) (a : Nat) : State :=
  let s := if s.rbit (Reg.GYL_ACT_SEEK a) 0 then s.seekStart a else s
  let x := s.gact a
  if !x.seek then s
  else
    let y := seekStep x
    if fzero y.u ∧ fzero y.w then
      let s := s.setGact a { y with seek := false, ref := f0, vref := f0, aref := f0 }
      ((s.clrReg (Reg.GYL_ACT_SEEK a) (bit 1)).setQual a 2 false).orReg Reg.GYL_STATUS (bit (16 + a))
    else s.setGact a y

/-! ### Sample instants -/

/-- Lateness of an actuator's contexts has been judged. -/
def State.lateSeen (s : State) (c : Nat) : State := s.setGc c { s.gc c with lateNow := false }

/-- The qualifiers at a sample instant (R187 to R189). -/
def State.qualSample (s : State) (a : Nat) : State :=
  let x := s.gact a
  let e := fsub x.pes x.ref
  let e := if s.rbit (Reg.GYL_ACT_CTRL a) 2 then fsub e x.rro else e
  let off := flt (s.reg (Reg.GYL_ACT_OTLIM a)) (fabs e) || !x.valid || x.seek || !(s.acquired a)
  let wl := s.reg (Reg.GYL_ACT_WULIM a)
  let ctxBad := fun (c : Nat) => (s.gc c).lateNow || s.rbit (Reg.GYL_CTX_STAT c) 30
  let wu := flt wl (fabs e) || flt wl (fabs (fsub (fmul f2 e) x.eq)) || !x.valid || x.seek || s.moving a ||
    !(s.acquired a) || ctxBad (vcm a) || ctxBad (mac a) || x.flt || x.hold
  let s := (((s.setOff a off).setGact a { x with eq := e, hold := false }).lateSeen (vcm a)).lateSeen (mac a)
  if wu then s.wuAssert a
  else
    let n := x.clean + 1
    let s := s.setGact a { s.gact a with clean := n }
    if max 1 (s.fld (Reg.GYL_ACT_CTRL a) 24 4) ≤ n then s.setQual a 1 false else s

/-- PES of the present sample (R186): of a wedge that was found. -/
def State.pesSample (s : State) (a : Nat) : State :=
  let x := s.gact a
  let ofs := if x.seek then x.tofs else s.reg (Reg.GYL_ACT_TGT_OFS a)
  s.setGact a { x with tofs := ofs, pes := if x.valid then pesOf x.p1 x.f1 x.tcyl ofs else x.pes }

/-- The sample instant of an actuator's contexts (R179, R196, R198, R202, R203): outputs not yet sent are abandoned, the
supply is converted, a seek and the position error are updated, qualifiers are evaluated, and the contexts become pending. -/
def State.actSample (s : State) (a : Nat) (vm : W32) (timer : Bool) : State :=
  let s := (s.abandon (mac a)).abandon (vcm a)
  ((((s.setReg Reg.GYL_VM vm).seekSample a).pesSample a).qualSample a).triggerAct a timer

/-- The end of the runout field of a wedge (R179). During a load, an unload or a retract, and at the wedge that ends a load,
it is no sample instant of the actuator's two contexts (R208 to R210). -/
def State.sampleInstant (s : State) (a : Nat) (vm : W32) : State :=
  if !s.gylOn then s.qualAssert a
  else
    let s :=
      if s.moving a || (s.gact a).acqNow then
        ((s.setGact a { s.gact a with acqNow := false }).pesSample a).qualSample a
      else s.actSample a vm false
    if s.fld (Reg.GYL_CTX_CTRL 5) 8 2 = a then (s.setReg Reg.GYL_VM vm).trigger 5 (s.actInputs a 5 false) else s

/-- A tick of context 5's timer. -/
def State.timer5 (s : State) : State :=
  if s.fld (Reg.GYL_CTX_CTRL 5) 8 2 = 2 then s.trigger 5 [f0, f0, f0, f0, f0, s.sup] else s

/-! ### Law programs (R190 to R193) -/

/-- Fields of a law word. -/
def lwOp (w : W32) : Nat := getF w 26 6
def lwD (w : W32) : Nat := getF w 16 8
def lwA (w : W32) : Nat := getF w 8 8
def lwB (w : W32) : Nat := getF w 0 8

/-- Fields an operation uses: d, a, b; none for an undefined op (R192). -/
def lawUses (op : Nat) : Option (Bool × Bool × Bool) :=
  match op with
  | 0x00 | 0x1E | 0x1F => some (false, false, false)
  | 0x01 | 0x02 | 0x03 | 0x04 | 0x05 | 0x06 | 0x07 | 0x08 => some (true, true, true)
  | 0x09 | 0x0A | 0x0B | 0x0C | 0x0D | 0x10 | 0x12 => some (true, true, false)
  | 0x0E | 0x0F => some (false, true, true)
  | _ => none

/-- An operand that a law may write, and one that it may read (R191). -/
def lawWritable (x : Nat) : Bool := decide (x ≤ 0x3F) || (decide (0x90 ≤ x) && decide (x ≤ 0x97))
def lawReadable (x : Nat) : Bool :=
  decide (x ≤ 0x97) || (decide (0x98 ≤ x) && decide (x ≤ 0x9C)) || (decide (0xA0 ≤ x) && decide (x ≤ 0xB7))

/-- Fault code of a law word, 0 when it is sound (R193). -/
def lawFault (w : W32) : Nat :=
  match lawUses (lwOp w) with
  | none => 1
  | some (d, a, b) =>
    if getF w 24 2 ≠ 0 ∨ (!d ∧ lwD w ≠ 0) ∨ (!a ∧ lwA w ≠ 0) ∨ (!b ∧ lwB w ≠ 0) then 1
    else if (d ∧ !(lawWritable (lwD w))) ∨ (a ∧ !(lawReadable (lwA w))) ∨ (b ∧ !(lawReadable (lwB w))) then 2
    else 0

/-- The raw bits of an operand (R191). -/
def State.lawRaw (s : State) (c x : Nat) : W32 :=
  if x ≤ 0x3F then s.reg (Reg.GYL_CTX_S c x)
  else if x ≤ 0x7F then s.act (Reg.GYL_CTX_K c (x - 0x40))
  else if x ≤ 0x8F then s.reg (Reg.GYL_CTX_I c (x - 0x80))
  else if x ≤ 0x97 then s.reg (Reg.GYL_CTX_Y c (x - 0x90))
  else if x = 0x99 then f1
  else if x = 0x9A then fm1
  else if x = 0x9B then fhalf
  else if x = 0x9C then f2
  else if x < 0xA0 then f0
  else s.reg (Reg.GYL_CTX_Y ((x - 0xA0) / 4) ((x - 0xA0) % 4))

/-- An operand written. -/
def State.lawSet (s : State) (c x : Nat) (v : W32) : State :=
  if x ≤ 0x3F then s.setReg (Reg.GYL_CTX_S c x) v else s.setReg (Reg.GYL_CTX_Y c (x - 0x90)) v

/-- A law word of the store. -/
def State.lawWord (s : State) (n : Nat) : W32 := s.reg (Reg.GYL_LAWST n)

/-- After a word, the run faults when the next one cannot be executed (R193). -/
def State.lawCheck (s : State) : State :=
  match s.gylRun with
  | none => s
  | some r =>
    if 2047 < r.pc then s.ctxFault r.ctx 3
    else if 512 ≤ r.words then s.ctxFault r.ctx 4
    else
      let f := lawFault (s.lawWord r.pc)
      if f ≠ 0 then s.ctxFault r.ctx f else s

/-- A pending run starts: the oldest one, with the datapath free (R180). It is the one run of its TRANSFER (R205). -/
def State.runStart (s : State) (c : Nat) (ue : Bool) : State :=
  match s.gylRun with
  | some r => if r.ctx = c ∧ ue then s.ctxFault c 8 else s
  | none =>
    match s.gylQ with
    | [] => s
    | q :: t =>
      if q.2 ≠ c || !s.gylOn || !(s.ctxOn c) then s
      else
        let s := ({ s with gylQ := t, gylRun := some ⟨c, false, (s.gc c).law, 0, false, 0, [], 0, 0⟩ }).orReg
          (Reg.GYL_CTX_STAT c) (bit 31)
        let s := s.setGc c { s.gc c with transfer := false }
        if ue then s.ctxFault c 8 else s.lawCheck

/-- An operand address under one name: y_0 to y_3 of the run's own context have two (R191). -/
def GRun.home (r : GRun) (x : Nat) : Nat := if 0xA0 + 4 * r.ctx ≤ x ∧ x < 0xA4 + 4 * r.ctx then x - (0x10 + 4 * r.ctx) else x
/-- Cycle at which an operand is ready. -/
def GRun.readyAt (r : GRun) (x : Nat) : Nat := smGet (fun _ => 0) r.ready (r.home x)
/-- y0 is frozen as this sample's command, unless that is done or the run belongs to an earlier sample (R192, R197). -/
def State.freeze (s : State) (r : GRun) : State :=
  let x := s.gc r.ctx
  if r.stale || x.frozen.isSome then s else s.setGc r.ctx { x with frozen := some (s.reg (Reg.GYL_CTX_Y r.ctx 0)) }
/-- Latency of an operation that writes d (R192). -/
def lawLatency (op : Nat) : Nat := if op = 0x0C ∨ op = 0x0D then 10 else 4

/-- The value an operation gives d, and the flags OVF and NAN it sets; `k` chooses within 1 ulp (R192). -/
def lawValue (op : Nat) (d a b : W32) (k : Nat) : W32 × Bool × Bool :=
  let r := fun (x : Flt) => let y := fround x; (y.1, y.2, false)
  match op with
  | 0x01 => r ((fval a).add (fval b))
  | 0x02 => r ((fval a).add (fval b).negate)
  | 0x03 => r ((fval a).mul (fval b))
  | 0x04 => r ((fval d).add ((fval a).mul (fval b)))
  | 0x05 => r ((fval d).add ((fval a).mul (fval b)).negate)
  | 0x06 => r (if (fval b).lt (fval a) then fval b else fval a)
  | 0x07 => r (if (fval a).lt (fval b) then fval b else fval a)
  | 0x08 =>
    let l := { fval b with neg := false }
    let m := if (fval a).lt l.negate then l.negate else fval a
    r (if l.lt m then l else m)
  | 0x09 => r { fval a with neg := false }
  | 0x0A => r (fval a).negate
  | 0x0C => let y := frcp a k; (y.1, y.2, false)
  | 0x0D => frsq a k
  | _ => r (fval a)

/-- BADOP for the operands an operation reads. -/
def State.lawBadop (s : State) (c : Nat) (l : List W32) : State :=
  if l.any fbad then s.orReg (Reg.GYL_CTX_STAT c) (bit 14) else s

/-- The word at the run's address is fetched and executed if it is the one named (R190 to R193, R195); a word that has been
rewritten with a bad one faults. -/
def State.lawExec (s : State) (c : Nat) (w : W32) : State :=
  match s.gylRun with
  | none => s
  | some r =>
    if r.ctx ≠ c then s
    else if lawFault (s.lawWord r.pc) ≠ 0 then s.ctxFault c (lawFault (s.lawWord r.pc))
    else if s.lawWord r.pc ≠ w then s
    else
      let op := lwOp w
      let a := s.lawRaw c (lwA w)
      let b := s.lawRaw c (lwB w)
      let d := s.lawRaw c (lwD w)
      let first := r.words = 0
      let t0 := if first then 0 else r.cyc + 1
      let ra := max (r.readyAt (lwA w)) (r.readyAt (lwB w))
      let go := fun (s : State) (r : GRun) =>
        ({ s with gylRun := some { r with pc := r.pc + 1, words := r.words + 1 } }).lawCheck
      match lawUses op with
      | some (true, _, two) =>
        let rd := if op = 0x04 ∨ op = 0x05 ∨ op = 0x10 ∨ op = 0x12 then r.readyAt (lwD w) else 0
        let t := max (max t0 (if two then ra else r.readyAt (lwA w))) (max rd (if op = 0x10 then r.fReady else 0))
        let t := if op = 0x0C ∨ op = 0x0D then max t r.unit else t
        let s := s.lawBadop c ((if two then [a, b] else [a]) ++ (if op = 0x04 ∨ op = 0x05 then [d] else []))
        let writes := !(op == 0x10 && !r.f) && !(op == 0x12 && s.reg (Reg.GYL_CTX_I c 11) != f1)
        let (k, s) := if op = 0x0C ∨ op = 0x0D then s.freeAny else (0, s)
        let yp := s.reg (Reg.GYL_CTX_I c 10)
        let (v, ovf, nan) := if op = 0x12 then lawValue 2 d yp a k else lawValue op d a b k
        let s := if writes then s.lawSet c (lwD w) v else s
        let s := if writes ∧ ovf then s.orReg (Reg.GYL_CTX_STAT c) (bit 12) else s
        let s := if writes ∧ nan then s.orReg (Reg.GYL_CTX_STAT c) (bit 13) else s
        go s { r with cyc := t, ready := smSet r.ready (lwD w) (t + lawLatency op)
                      unit := if op = 0x0C ∨ op = 0x0D then t + 10 else r.unit }
      | some (false, true, _) =>
        let t := max t0 ra
        let s := s.lawBadop c [a, b]
        go s { r with cyc := t, fReady := t + 2, f := if op = 0x0E then flt a b else fle b a }
      | _ =>
        if op = 0x1E then
          go (s.freeze r) { r with cyc := max t0 (r.readyAt 0x90) }
        else if op = 0x1F then
          let t := max (max t0 r.fReady) (r.ready.foldl (fun m e => max m e.2) 0)
          ((s.freeze r).endRun c).setFld (Reg.GYL_CTX_STAT c) 0 12 (min 4095 (t + 1))
        else go s { r with cyc := t0 }

/-- A law word by its fields. -/
def lawEnc (op : Nat) (d a b : W8) : W32 := BitVec.ofNat 32 (op * 2 ^ 26 + d.toNat * 2 ^ 16 + a.toNat * 2 ^ 8 + b.toNat)

/-! ### Outputs (R197, R198) -/

/-- A context's output instant; `met` says that the frozen y0 met its deadline. -/
def State.outputInstant (s : State) (c : Nat) (met : Bool) : State :=
  let x := s.gc c
  if !x.due || !s.gylOn then s
  else match x.frozen, met with
    | some y, true => (s.setGc c { x with due := false, frozen := none, late := 0 }).sendOut c y
    | _, _ => (s.sendOut c x.yprev).ctxLate c

/-! ### Return frames (R201) -/

/-- An unload that has parked the heads ends (R209). -/
def State.unloadEnd (s : State) (a : Nat) : State :=
  let s := (s.adiQueue a 4 0).setQual a 5 false
  let s := (s.dropCtx (vcm a)).dropCtx (mac a)
  let s := (s.clrReg (Reg.GYL_CTX_CTRL (vcm a)) (bit 0)).clrReg (Reg.GYL_CTX_CTRL (mac a)) (bit 0)
  (s.clrReg (Reg.GYL_ACT_LOAD a) (bit 12)).orReg Reg.GYL_STATUS (bit (22 + a))

/-- A retract that has parked the heads ends (R210). -/
def State.retractEnd (s : State) (a : Nat) : State :=
  ((s.setQual a 6 false).clrReg (Reg.GYL_ACT_LOAD a) (bit 13)).orReg Reg.GYL_STATUS (bit (22 + a))

/-- A return frame from the driver. -/
def State.returnFrame (s : State) (a : Nat) (w : W32) : State :=
  let x := s.gact a
  if x.sent = 0 ∨ !s.gylOn then s
  else if crc6 (w.toNat / 64 * 64) ≠ getF w 0 6 then
    let s := (s.incFld (Reg.GYL_ACT_ADIERR a) 0 16).setGact a { x with bad := x.bad + 1 }
    if 8 ≤ x.bad + 1 then ((s.setGact a { x with bad := 0 }).ctxFault (mac a) 7).ctxFault (vcm a) 7 else s
  else
    let s := s.setGact a { x with bad := 0, flt := tb w 31 }
    let s := if 2 ≤ x.sent ∧ getF w 24 4 ≠ (x.seq + 14) % 16 then s.incFld (Reg.GYL_ACT_ADIERR a) 16 16 else s
    let sense : BitVec 18 := BitVec.ofNat 18 (getF w 6 18)
    let s := if x.lastType = 1 then s.setGc (vcm a) { s.gc (vcm a) with sense := sense }
      else if x.lastType = 2 then s.setGc (mac a) { s.gc (mac a) with sense := sense } else s
    let s := if tb w 31 then (s.orReg Reg.GYL_STATUS (bit (26 + a))).wuAssert a else s
    let s := s.setQual a 7 (tb w 30)
    if !(tb w 30) then s
    else if s.retracting a then s.retractEnd a
    else if s.unloading a then s.unloadEnd a else s

/-! ### Load, unload (R208, R209) -/

/-- A law installed for both contexts' voice coil, with TRANSFER = 1.0. -/
def State.installLaw (s : State) (a start : Nat) : State :=
  s.setGc (vcm a) { s.gc (vcm a) with law := start, transfer := true }

/-- A load begins. -/
def State.loadStart (s : State) (a : Nat) : State :=
  let s := (s.installLaw a (s.fld (Reg.GYL_ACT_LOAD a) 0 11)).orReg (Reg.GYL_ACT_LOAD a) (bit 11)
  (s.setQual a 4 true).setGact a { s.gact a with found := 0, wedge := none, resolve := true }

/-- An unload begins. -/
def State.unloadStart (s : State) (a : Nat) : State :=
  let s := (s.installLaw a (s.fld (Reg.GYL_ACT_LOAD a) 16 11)).orReg (Reg.GYL_ACT_LOAD a) (bit 12)
  (s.setQual a 3 false).setQual a 5 true

/-- A write of GYL_ACTa_LOAD: a retract overrides, a load or unload starts when none is in progress (R210). -/
def State.loadWrite (s : State) (a : Nat) (v : W32) : State :=
  let s := (s.setFld (Reg.GYL_ACT_LOAD a) 0 11 (getF v 0 11)).setFld (Reg.GYL_ACT_LOAD a) 16 11 (getF v 16 11)
  let s := if tb v 13 ∧ !(s.retracting a) then s.retract a else s
  let s := if tb v 12 ∧ !(s.moving a) then s.unloadStart a else s
  if tb v 11 ∧ !(s.moving a) then s.loadStart a else s

/-- The load timer triggers both contexts: its tick is their sample instant (R179, R202, R203, R208). -/
def State.loadTick (s : State) (a : Nat) (vm : W32) : State :=
  if s.gylOn && (s.loading a || s.unloading a) && !(s.retracting a) then s.actSample a vm true else s

/-- LOAD_TMO passes during a load. -/
def State.loadTimeout (s : State) (a : Nat) : State :=
  if !(s.loading a) then s
  else
    let s := ((s.setQual a 4 false).clrReg (Reg.GYL_ACT_LOAD a) (bit 11)).orReg Reg.GYL_STATUS (bit (20 + a))
    s.unloadStart a

/-- LOAD_TMO passes during an unload. -/
def State.unloadTimeout (s : State) (a : Nat) : State := if s.unloading a then s.retract a else s

/-- A STATUS frame of a retract. -/
def State.retractTick (s : State) (a : Nat) : State := if s.retracting a then s.adiQueue a 5 0 else s

/-- RET_TMO passes during a retract (R210). -/
def State.retractTimeout (s : State) (a : Nat) : State :=
  if !(s.retracting a) then s
  else
    let s := ((s.setQual a 6 false).clrReg (Reg.GYL_ACT_LOAD a) (bit 13)).adiQueue a 4 0
    s.ctxFault (vcm a) 9

/-- A context control register written (R194): EN = 1 restarts a faulted context. Context 4 of an Outpost never runs. -/
def State.ctxCtrlWrite (s : State) (c : Nat) (v : W32) : State :=
  let s := s.basicWrite (Reg.GYL_CTX_CTRL c) v 0 0
  let s := if c = 4 ∧ !s.isBase then s.clrReg (Reg.GYL_CTX_CTRL c) (bit 0) else s
  if s.ctxOn c then
    (if s.rbit (Reg.GYL_CTX_STAT c) 30 then
      (s.clrReg (Reg.GYL_CTX_STAT c) (bit 30)).setGc c { s.gc c with transfer := true, late := 0 }
    else s)
  else s.dropCtx c

/-- A state register written: between runs (R195). -/
def State.stateWrite (s : State) (c j : Nat) (v : W32) : State :=
  if s.gylRun.map (·.ctx) = some c then s.setGc c { s.gc c with held := (s.gc c).held ++ [(j, v)] }
  else s.setReg (Reg.GYL_CTX_S c j) v

/-- GYL_CTRL written: without EN both qualifiers are asserted and no run goes on. -/
def State.gylCtrlWritten (s : State) : State :=
  if s.gylOn then s
  else
    let s := (List.range 6).foldl (fun s c => s.dropCtx c) s
    ((s.setGact 0 { s.gact 0 with adi := [] }).setGact 1 { s.gact 1 with adi := [] }).qualAssert 0 |>.qualAssert 1

end Sys2Proof.Machine
end

