-- ==== Sys2Proof/Machine/Spindle.lean ====
section
/-! DEFINITION. The spindle commutation unit (R211 to R239). Its arithmetic is that of F32; angles are electrical, in 2^-32 of
a turn; times within a PWM period are in ns as binary32 (DESIGN CHOICE, log entry 80). -/

namespace Sys2Proof.Machine

/-- States (R211). -/
def spOFF : Nat := 0
def spCATCH : Nat := 1
def spZV : Nat := 2
def spALIGN : Nat := 3
def spRAMP : Nat := 4
def spRUN : Nat := 5
def spSTOP : Nat := 6
def spGEN : Nat := 7
def spCOAST : Nat := 8
def spFAULT : Nat := 9

/-- STATE of the unit. -/
def State.spSt (s : State) : Nat := s.fld Reg.SPN_STATE 28 4
/-- States in which currents are controlled (R220). -/
def spFoc (n : Nat) : Bool := n == spRUN || n == spSTOP || n == spGEN
/-- States in which the gates carry PWM (R211). -/
def spDriven (n : Nat) : Bool := spFoc n || n == spALIGN || n == spRAMP
/-- Bits of SPN_STATE that a state does not have: CEIL belongs to the current loops (R221), LOCKED to the states in which the
observer runs (R222), ATSPD to RUN (R227) (DEDUCED, log entry 80). -/
def spLost (n : Nat) : W32 :=
  (if spFoc n then 0 else bit 27) ||| (if spFoc n || n == spRAMP then 0 else bit 24) ||| (if n == spRUN then 0 else bit 23)
/-- A state entered: the gates follow the table of R211 at once; PWM begins with the next period start. -/
def State.setSpSt (s : State) (n : Nat) : State :=
  let s := (s.setFld Reg.SPN_STATE 28 4 n).clrReg Reg.SPN_STATE (spLost n)
  { s with spn := { s.spn with
      gates := if spDriven n then s.spn.gates else if n = spZV then .zero else .low
      duty := if spDriven n then s.spn.duty else none
      dutyNow := if spDriven n then s.spn.dutyNow else none
      lockRun := if spFoc n then s.spn.lockRun else 0
      atRun := if n = spRUN then s.spn.atRun else 0
      sync := none, observe := false } }
/-- TARGET in rpm, limited. -/
def State.spTarget (s : State) : Nat := max 5400 (min 10000 (s.fld Reg.SPN_TARGET 0 16))
/-- Speed in 1/16 rpm. -/
def State.spSpeed (s : State) : Nat := s.fld Reg.SPN_SPEED 0 18
/-- The speed is below `pct` percent of TARGET. -/
def State.spBelow (s : State) (pct : Nat) : Bool := decide (s.spSpeed * 100 < pct * 16 * s.spTarget)
/-- A speed measurement (R225). -/
def State.setSpeed (s : State) (v : Nat) (back : Bool) : State :=
  s.setReg Reg.SPN_SPEED (BitVec.ofNat 32 (v % 2 ^ 18 + 2 ^ 30 + b2n back * 2 ^ 31))
/-- CHOP_FAULTY. -/
def State.chopFaulty (s : State) : Bool := s.rbit Reg.SPN_STATE 25
/-- The unit changed. -/
def State.setSpn (s : State) (x : Spn) : State := { s with spn := x }

/-- RUN is entered (R223): the q reference is 0 until context 4's first output. -/
def State.enterRun (s : State) : State :=
  let s := s.setSpSt spRUN
  s.setSpn { s.spn with
    iref := 0, xd := 0, xq := 0, periods := 0, iqSum := 0, ceil := false, lockOk := true, entry := true, atRun := 0, lostRun := 0
    stopping := false, turn := 0 }
/-- COAST is entered. -/
def State.enterCoast (s : State) : State :=
  let s := s.setSpSt spCOAST
  s.setSpn { s.spn with stopping := false, genTrig := false }
/-- CATCH is entered. -/
def State.enterCatch (s : State) : State :=
  let s := s.setSpSt spCATCH
  s.setSpn { s.spn with stopping := false }
/-- ZVBRAKE is entered, for a stop or for a start. -/
def State.enterZv (s : State) (stop : Bool) : State :=
  let s := s.setSpSt spZV
  s.setSpn { s.spn with stopping := stop }

/-- A change of REQ takes effect (R212). -/
def State.applyReq (s : State) (r : Nat) : State :=
  let st := s.spSt
  let s := s.setSpn { s.spn with req := some r }
  if st = spOFF then (if r = 1 then s.enterCatch else s)
  else if st = spFAULT then s
  else if r = 1 then
    if st = spCOAST ∨ st = spSTOP then s.enterCatch
    else if st = spZV then s.setSpn { s.spn with stopping := false }
    else s
  else if r = 2 then
    if st = spRUN then s.setSpSt spSTOP
    else if st = spCATCH ∨ st = spALIGN ∨ st = spRAMP then s.enterZv true
    else if st = spZV then s.setSpn { s.spn with stopping := true }
    else s
  else s.enterCoast

/-- √x of a value at or above 0, to nearest (R221). -/
def fsqrt (a : W32) : W32 :=
  let x := fval a
  if x.m = 0 ∨ x.neg then 0
  else
    let (m, e) := if x.e % 2 = 0 then (x.m, x.e) else (2 * x.m, x.e - 1)
    let q := isqrt (m * 2 ^ 52)
    let ex := q * q == m * 2 ^ 52
    (fround ⟨false, if ex then 2 * q else 2 * q + 1, e / 2 - 27⟩).1

/-- A value limited to ± a bound; whether it was limited. -/
def flim (x lim : W32) : W32 × Bool :=
  if flt lim x then (lim, true) else if flt x (fneg lim) then (fneg lim, true) else (x, false)

/-- The voltage ceiling 0.95 · VM / √3 (R221). -/
def State.vmax (s : State) : W32 := fmul (fmul (fint (s.fld Reg.SPN_VM 0 16)) 0x3A83126F) 0x3F0C695E

/-- The q reference in the present state (R220, R223, R226, R238). -/
def State.qRef (s : State) : W32 × State :=
  let x := s.spn
  let lim := fun (y : W32) => (flim y x.imax).1
  let st := s.spSt
  if st = spSTOP then (lim (fneg (s.reg Reg.SPN_BRAKE_I)), s)
  else if st = spGEN then
    let e := fsub (fmul (fint (s.fld Reg.SPN_GEN 16 16)) 0x3A83126F) (fmul (fint (s.fld Reg.SPN_VM 0 16)) 0x3A83126F)
    let y := fneg (fadd (fmul (s.reg Reg.SPN_GEN_KP) e) x.xg)
    let y := if flt f0 y then f0 else if flt y (fneg x.imax) then fneg x.imax else y
    (y, s.setSpn { x with xg := fadd x.xg (fmul (s.reg Reg.SPN_GEN_KI) e) })
  else
    let off := !(s.ctxOn 4) && decide (s.fld (Reg.GYL_CTX_CTRL 4) 10 2 ≠ 0)
    let y := if off then f0 else x.iref
    let y := if s.chopFaulty ∧ flt y f0 then f0 else y
    (lim y, s)

/-! ### Gates and duties (R214, R215) -/

/-- The PWM period and the dead time in ns. -/
def Spn.period (x : Spn) : W32 := fdiv (fint 1000000) (fint x.freq)
def Spn.deadNs (x : Spn) : W32 := fint (5 * x.dead)
/-- Each gate is high for its duty less the dead time, which is taken from its rising edge (R215). -/
def Spn.gatesOf (x : Spn) (d : List W32) : Gates :=
  .pwm (d.map fun y => fmax2 f0 (fsub y x.deadNs)) (d.map fun y => fmax2 f0 (fsub (fsub x.period y) x.deadNs))
/-- The gates as a period starts. -/
def State.gatesNow (s : State) : State :=
  let x := s.spn
  let d := if spDriven s.spSt then x.duty else none
  s.setSpn { x with dutyNow := d, gates := (match d with
    | some d => x.gatesOf d
    | none => if s.spSt = spZV ∧ !x.observe then .zero else .low) }
/-- All six gates fall. -/
def State.gatesLow (s : State) : State := s.setSpn { s.spn with gates := .low }

/-- Sine and cosine of an angle. -/
def sinOf (a : W32) : W32 := if a = 0 then f0 else Config.sine a
def cosOf (a : W32) : W32 := if a = 0 then f1 else Config.cosine a
/-- A vector turned by an angle: the inverse of the transform of R220. -/
def turned (a x y : W32) : W32 × W32 :=
  (fsub (fmul x (cosOf a)) (fmul y (sinOf a)), fadd (fmul x (sinOf a)) (fmul y (cosOf a)))
/-- A vector seen from an angle (R220). -/
def seenFrom (a x y : W32) : W32 × W32 :=
  (fadd (fmul x (cosOf a)) (fmul y (sinOf a)), fsub (fmul y (cosOf a)) (fmul x (sinOf a)))
/-- Phase values of a vector, and the vector of phase currents, amplitude-invariant (R220). -/
def phasesOf (al be : W32) : List W32 :=
  let h := fmul fhalf al
  let b := fmul 0x3F5DB3D7 be
  [al, fsub b h, fneg (fadd h b)]
def clarke (u v : W32) : W32 × W32 := (u, fmul (fadd u (fmul f2 v)) 0x3F13CD3A)

/-- VM in volts. -/
def State.vmVolts (s : State) : W32 := fmul (fint (s.fld Reg.SPN_VM 0 16)) 0x3A83126F
/-- The dead time with the sign of a phase's current (R215). -/
def Spn.comp (x : Spn) (i : W32) : W32 := if flt f0 i then x.deadNs else if flt i f0 then fneg x.deadNs else f0
/-- Duties of a voltage vector: space-vector modulation with min-max centring (R214), compensated for dead time (R215). -/
def State.dutiesOf (s : State) (al be : W32) : List W32 :=
  let x := s.spn
  let vm := s.vmVolts
  let v := phasesOf al be
  let v0 := fmul (fneg fhalf) (fadd (v.foldl fmax2 (v.getD 0 0)) (v.foldl fmin2 (v.getD 0 0)))
  (List.zip v x.cur).map fun (y, i) =>
    let part := if fzero vm then Config.dutyNoVm y else fadd fhalf (fdiv (fadd y v0) vm)
    fmin2 x.period (fmax2 f0 (fadd (fmul x.period part) (x.comp i)))
/-- The duties of the next period computed. -/
def State.setVolts (s : State) (v : W32 × W32) : State := 
  s.setSpn { s.spn with duty := some (s.dutiesOf v.1 v.2), volts := v }

/-! ### The shunt (R217 to R219) -/

/-- The phases with the greatest and with the smallest duty. -/
def dutyMax (d : List W32) : Nat :=
  (List.range 3).foldl (fun k i => if flt (d.getD k 0) (d.getD i 0) then i else k) 0
def dutyMin (d : List W32) : Nat :=
  (List.range 3).foldl (fun k i => if flt (d.getD (2 - i) 0) (d.getD k 0) then 2 - i else k) 2
/-- A window's length in ns: half the difference of two duties, less the dead time (R217). -/
def Spn.window (x : Spn) (a b : W32) : W32 := fsub (fmul fhalf (fsub a b)) x.deadNs
/-- The two windows of the first half period: only the first phase's high gate is on, then all but the last one's. -/
def Spn.windows (x : Spn) : List W32 :=
  match x.dutyNow with
  | none => []
  | some d =>
    let a := d.getD (dutyMax d) 0
    let c := d.getD (dutyMin d) 0
    let b := d.getD (3 - dutyMax d - dutyMin d) 0
    [x.window a b, x.window b c]
/-- WMIN, limited, in ns. -/
def State.wmin (s : State) : W32 := fint (50 * max 8 (min 120 (s.fld Reg.SPN_SHUNT 8 8)))
/-- A window is usable. -/
def State.usable (s : State) (k : Nat) : Bool := ((s.spn.windows)[k]?.map (fle s.wmin)).getD false
/-- Both windows are: the period is measured. -/
def State.measured (s : State) : Bool := s.usable 0 && s.usable 1
/-- The current of a window: the mean of its four codes. -/
def State.shunt (s : State) (c : List (BitVec 14)) : W32 :=
  fmul (fmul (fint (c.foldl (fun a x => a + x.toInt) 0)) fquarter) (s.reg Reg.SPN_ISCALE)
/-- Phase currents of a measured period: the table of R217. -/
def State.phaseCur (s : State) (i : PwmIn) : List W32 :=
  let d := (s.spn.dutyNow).getD []
  let p := s.shunt i.c1
  let n := fneg (s.shunt i.c2)
  (List.range 3).map fun k => if k = dutyMax d then p else if k = dutyMin d then n else fneg (fadd p n)
/-- A code beyond OC_LIM (R219). -/
def State.overCur (s : State) (c : BitVec 14) : Bool := decide (s.fld Reg.SPN_SHUNT 16 14 < c.toInt.natAbs)
/-- A conversion above OC_LIM (R219). -/
def State.ocCut (s : State) (code : BitVec 14) : State :=
  if !s.isBase || !(s.overCur code) || !(spDriven s.spSt) || s.spn.cut then s
  else
    let s := (s.orReg Reg.SPN_STATUS (bit 6)).incFld Reg.SPN_CNT_OC 0 32
    s.setSpn { s.spn with cut := true, gates := .low }
/-- The period's conversions. -/
def State.convert (s : State) (i : PwmIn) : State :=
  let l := (if s.usable 0 then i.c1 else []) ++ (if s.usable 1 then i.c2 else [])
  let s := l.foldl State.ocCut s
  if s.measured then s.setSpn { s.spn with cur := s.phaseCur i } else s

/-! ### Current loops -/

/-- The current loops and the voltage ceiling of one period (R218, R220, R221). -/
def State.currentLoop (s : State) : State :=
  let meas := s.measured
  let x := s.spn
  let v := clarke (x.cur.getD 0 0) (x.cur.getD 1 0)
  let (id, iq) := if meas then seenFrom x.obs.angle v.1 v.2 else (x.id, x.iq)
  let pr := s.fld Reg.SPN_STATE 0 8
  let s := s.setFld Reg.SPN_STATE 0 8 (if meas then 0 else min 255 (pr + 1))
  let s := if !meas ∧ pr + 1 = 8 then (s.incFld Reg.SPN_CNT_PRED 0 32).orReg Reg.SPN_STATUS (bit 5) else s
  let (r, s) := s.qRef
  let x := s.spn
  let ed := fneg id
  let eq := fsub r iq
  let vm := s.vmax
  let (vd, ld) := flim (fadd (fmul x.kp ed) x.xd) vm
  let vql := fsqrt (fsub (fmul vm vm) (fmul vd vd))
  let (vq, lq) := flim (fadd (fmul x.kp eq) x.xq) vql
  let was := s.rbit Reg.SPN_STATE 27
  let s := s.setFld Reg.SPN_STATE 27 1 (b2n lq)
  let s := if lq ∧ !was then s.orReg Reg.SPN_STATUS (bit 4) else s
  let v := turned x.obs.angle id iq
  let s := s.setSpn { x with
    id := id, iq := iq, vd := vd, vq := vq, cur := if meas then x.cur else phasesOf v.1 v.2
    xd := if meas ∧ !ld then fadd x.xd (fmul x.ki ed) else x.xd
    xq := if meas ∧ !lq then fadd x.xq (fmul x.ki eq) else x.xq
    iqSum := fadd x.iqSum iq, ceil := x.ceil || lq, periods := x.periods + 1 }
  s.setVolts (turned x.obs.angle vd vq)

/-- The observer takes the period's currents and voltages (R222). -/
def State.observe (s : State) (v : W32 × W32) : State :=
  let x := s.spn
  let i := clarke (x.cur.getD 0 0) (x.cur.getD 1 0)
  let o := x.obs
  let l := [i.1, i.2, v.1, v.2]
  let a := Config.obsAngle o.inner o.angle o.speed l
  s.setSpn { x with turn := x.turn + (a - o.angle).toInt, obs := ⟨a, Config.obsErr o.inner o.angle o.speed l,
    Config.obsSpeed o.inner o.angle o.speed l, Config.obsInner o.inner o.angle o.speed l⟩ }
/-- The phase error is below `n` degrees. -/
def Obs.errBelow (o : Obs) (n : Nat) : Bool := decide (o.err.toInt.natAbs * 360 < n * 2 ^ 32)
/-- The observer's lock (R222): the state after, with CATCH where RUN loses it. -/
def State.lockStep (s : State) : State :=
  let x := s.spn
  let lk := if x.obs.errBelow 10 then x.lockRun + 1 else 0
  let ls := if 30 * 2 ^ 32 < x.obs.err.toInt.natAbs * 360 then x.lostRun + 1 else 0
  let s := s.setSpn { x with lockRun := min 64 lk, lostRun := min 64 ls }
  let s := if 64 ≤ lk then s.orReg Reg.SPN_STATE (bit 24) else s
  let s := if !(s.rbit Reg.SPN_STATE 24) then s.setSpn { s.spn with lockOk := false } else s
  if s.spSt = spRUN ∧ 64 ≤ ls then (s.orReg Reg.SPN_STATUS (bit 14)).enterCatch else s

/-! ### Speed -/

/-- POLES. -/
def State.poles (s : State) : Nat := max 1 (s.fld Reg.SPN_MOTOR 0 4)
/-- A quotient as a speed in 1/16 rpm. -/
def speedRound (num den : Nat) : Nat :=
  min (2 ^ 18 - 1) (num / den + (if num % den ≠ 0 ∧ Config.speedUp num den then 1 else 0))
/-- The speed of a speed period, from the observer's angle (R225). -/
def State.obsSpeed (s : State) : Nat :=
  speedRound (s.spn.turn.natAbs * (s.spn.freq * 960000)) (2 ^ 32 * s.poles * s.spn.periods)
/-- A speed period's measurement. -/
def State.measureSpeed (s : State) : State := s.setSpeed s.obsSpeed (decide (s.spn.turn < 0))

/-- A speed sample (R223 to R227): the sample instant of context 4. -/
def State.speedSample (s : State) : State :=
  let x := s.spn
  let t := s.spTarget
  let sp := s.spSpeed
  let tf := fint t
  let spf := fdyad sp (-4)
  let near := decide (64 * ((16 * (t : Int) - sp).natAbs) ≤ t)
  let at' := if near then min 8 (x.atRun + 1) else 0
  let was := s.rbit Reg.SPN_STATE 23
  let s := s.setFld Reg.SPN_STATE 23 1 (b2n (at' == 8))
  let s := if at' = 8 ∧ !was then s.orReg Reg.SPN_STATUS (bit 0) else s
  let ins := [fdiv (fsub tf spf) tf, fdiv spf tf, if x.ceil then f1 else f0, fdiv x.iqSum (fint (max 1 x.periods)), tf, s.sup,
    f0, f0, if x.lockOk then f1 else f0, if x.entry then f1 else f0]
  (s.setSpn { x with atRun := at', periods := 0, iqSum := 0, turn := 0, ceil := false, lockOk := true, entry := false }).trigger 4 ins

/-- SPD_DIV. -/
def State.spdDiv (s : State) : Nat := max 1 (min 64 (s.fld Reg.SPN_MOTOR 8 8))

/-- GEN in a period (R239): its end conditions, COAST before RUN. -/
def State.genCheck (s : State) (i : PwmIn) : State :=
  if s.spBelow (max 5 (min 50 (s.fld Reg.SPN_GEN 8 8))) then (s.orReg Reg.SPN_STATUS (bit 12)).enterCoast
  else if s.rbit Reg.SPN_CTRL 7 ∧ i.pfailHigh ∧ 100 * s.fld Reg.SPN_GEN 0 8 < s.fld Reg.SPN_VM 0 16 then (s.orReg Reg.SPN_STATUS (bit 13)).enterRun
  else s

/-- ALIGN_V percent of VM / √3 (R231). -/
def State.alignMag (s : State) : W32 :=
  fdiv (fmul (fmul (fint (max 1 (min 50 (s.fld Reg.SPN_START 16 8)))) s.vmVolts) 0x3F13CD3A) (fint 100)
/-- The ramp of a start (R231): speed and angle rise, and the handover at 10 % of TARGET with the observer locked; at 20 %
the speed holds. -/
def State.rampStep (s : State) : State :=
  let x := s.spn
  let full := s.spTarget * x.freq
  let r := if full ≤ 5 * x.ramp then x.ramp else x.ramp + max 1 (s.fld Reg.SPN_START 8 8)
  let unit := 60000 * x.freq * x.freq
  let a := (x.rampAngle + r * s.poles) % unit
  let mag := fmax2 s.alignMag (fmul s.vmax (fdiv (fint r) (fint full)))
  let s := s.setSpn { x with ramp := r, rampAngle := a }
  let s := s.setVolts (turned (BitVec.ofNat 32 (a * 2 ^ 32 / unit)) mag f0)
  if full ≤ 10 * r ∧ s.rbit Reg.SPN_STATE 24 then s.enterRun else s

/-- RUN is entered by synchronisation (R229): the observer starts from the last edge's angle, 30° on, advanced at the speed
found for the time since. -/
def State.syncRun (s : State) : State :=
  match s.spn.sync with
  | none => s
  | some (e, t, v) =>
    let dt := (20000000 - e.1) + 20 * (s.now - t)
    let a := Config.edgeAngle e.2.1.val e.2.2 + BitVec.ofNat 32 (2 ^ 32 / 12) + BitVec.ofNat 32 (v * s.poles * dt * 2 ^ 32 / 960000000000)
    let s := s.enterRun.orReg Reg.SPN_STATE (bit 24)
    s.setSpn { s.spn with obs := ⟨a, 0, v, []⟩ }

/-- What takes effect as a period starts: gains, the end of an overcurrent run (R219), a power loss (R237), REQ (R212), a
faulty chopper (R235), synchronisation (R229), the duties (R214). -/
def State.periodStart (s : State) : State :=
  let s := s.setSpn { s.spn with kp := s.reg Reg.SPN_CUR_KP, ki := s.reg Reg.SPN_CUR_KI, imax := s.reg Reg.SPN_IMAX }
  let s := if s.spn.cut then
      let n := s.spn.cutRun + 1
      let s := s.setSpn { s.spn with cut := false, cutRun := n }
      if 16 ≤ n then s.setSpSt spFAULT else s
    else s.setSpn { s.spn with cutRun := 0 }
  let s := if s.spn.genTrig ∧ (s.spSt = spRUN ∨ s.spSt = spSTOP) then
      let s := (s.setSpSt spGEN).orReg Reg.SPN_STATUS (bit 11)
      s.setSpn { s.spn with genTrig := false, xg := 0 }
    else s.setSpn { s.spn with genTrig := false }
  let req := s.fld Reg.SPN_CTRL 1 2 % 3
  let s := if s.spSt ≠ spGEN ∧ s.spn.req ≠ some req ∧ !s.pwr.trip then s.applyReq req else s
  let s := if s.spSt = spSTOP ∧ s.chopFaulty then s.enterZv true else s
  s.syncRun.gatesNow

/-- A period of current control (R217 to R227, R237 to R239). -/
def State.focPeriod (s : State) (i : PwmIn) : State :=
  let s := (s.currentLoop.observe s.spn.volts).lockStep
  let full := decide (s.spdDiv ≤ s.spn.periods)
  let s := if full then s.measureSpeed else s
  if s.spSt = spRUN then (if full then s.speedSample else s)
  else
    let s := if full then
        s.setSpn { s.spn with periods := 0, iqSum := 0, turn := 0, ceil := false, lockOk := true } else s
    if s.spSt = spSTOP then (if s.spBelow 10 then s.enterZv true else s)
    else if s.spSt = spGEN then s.genCheck i
    else s

/-- A PWM period (R212, R214, R217 to R227, R231, R237 to R239): what its start brings, its conversions, its computation. -/
def State.pwmPeriod (s : State) (i : PwmIn) : State :=
  if !s.isBase || !(s.rbit Reg.SPN_CTRL 0) then s
  else
    let s := s.periodStart.convert i
    if spFoc s.spSt then s.focPeriod i
    else if s.spSt = spRAMP then ((s.observe s.spn.volts).lockStep).rampStep
    else if s.spSt = spALIGN then s.setVolts (s.alignMag, f0)
    else s

/-- A write of SPN_CTRL with EN = 0 (R213), or with EN rising: FREQ and DEAD are sampled (R214). -/
def State.spnCtrlWrite (s : State) (v : W32) : State :=
  if !s.isBase then s
  else
    let was := s.rbit Reg.SPN_CTRL 0
    let s := s.basicWrite Reg.SPN_CTRL v 0 0
    if !(s.rbit Reg.SPN_CTRL 0) then
      let s := s.setSpSt spOFF
      s.setSpn { s.spn with req := none, stopping := false, cut := false, cutRun := 0, genTrig := false }
    else if was then s
    else s.setSpn { s.spn with req := none, freq := max 20 (min 80 (s.fld Reg.SPN_PWM 16 8)), dead := max 4 (min 100 (s.fld Reg.SPN_PWM 0 7)) }

/-- SPN_FLT_N low for 100 ns (R216). -/
def State.extFault (s : State) : State :=
  if !s.isBase then s
  else (s.orReg Reg.SPN_STATUS (bit 7)).setSpSt spFAULT

/-- The direction of the edges: of the last two of one kind from different phases, U, V, W being forward (R228). -/
def edgeDir (l : List Edge) : Option Bool :=
  let step := fun (a : Option (Fin 3) × Option (Fin 3) × Option Bool) (e : Edge) =>
    let p := if e.2.2 then a.1 else a.2.1
    let d := match p with
      | some p => if e.2.1 = p + 1 then some true else if e.2.1 = p + 2 then some false else a.2.2
      | none => a.2.2
    if e.2.2 then (some e.2.1, a.2.1, d) else (a.1, some e.2.1, d)
  (l.foldl step (none, none, none)).2.2
/-- A window's direction, free where the edges do not show one. -/
def State.edgeFwd (s : State) (l : List Edge) : Bool × State :=
  match edgeDir l with
  | some d => (d, s)
  | none => let r := s.freeNat 1; (r.1 == 1, r.2)
/-- A window's speed in 1/16 rpm, from the mean edge interval of its last 10 ms with six edges a turn and pole pair (R228,
R230); without an interval there, 0 below 3 edges and free else. -/
def State.edgeSpeed (s : State) (l : List Edge) : Nat × State :=
  let r := l.filter fun e => 10000000 ≤ e.1
  let d := (r.getLastD (0, 0, false)).1 - (r.headD (0, 0, false)).1
  if 2 ≤ r.length ∧ 0 < d then (speedRound (160000000000 * (r.length - 1)) (s.poles * d), s)
  else if l.length < 3 then (0, s)
  else s.freeNat (2 ^ 18 - 1)
/-- The measurement at a window's end: direction, speed. -/
def State.edgeRead (s : State) (l : List Edge) : Bool × Nat × State :=
  let f := s.edgeFwd l
  let v := f.2.edgeSpeed l
  (f.1, v.1, v.2.setSpeed v.1 (!f.1))

/-- An edge put in by its time, after those of the same time. -/
def insEdge (e : Edge) : List Edge → List Edge
  | [] => [e]
  | x :: t => if e.1 < x.1 then e :: x :: t else x :: insEdge e t
/-- The edges of the three comparators in the order of their times. -/
def edgesOf (u v w : Edges) : List Edge :=
  let tag := fun (p : Fin 3) (l : Edges) => l.map fun e => ((e.1, p, e.2) : Edge)
  (tag 0 u ++ tag 1 v ++ tag 2 w).foldl (fun l e => insEdge e l) []

/-- The catch-spin window ends (R228, R229). -/
def State.catchEnd (s : State) (l : List Edge) : State :=
  if s.spSt ≠ spCATCH then s
  else
    let r := s.edgeRead l
    let s := r.2.2.orReg Reg.SPN_STATUS (bit 3)
    if l.length < 3 then s.setSpSt spALIGN
    else if r.1 ∧ 160 * s.spTarget < 100 * r.2.1 then
      s.setSpn { s.spn with sync := some (l.getLastD (0, 0, false), s.now, r.2.1) }
    else s.enterZv false

/-- A zero-vector slice ends and an observation begins (R230). -/
def State.zvSliceEnd (s : State) : State :=
  if s.spSt = spZV ∧ !s.spn.observe then s.setSpn { s.spn with observe := true, gates := .low } else s

/-- An observation ends (R212, R230): standstill ends the braking, in ALIGN or, for a stop, in COAST. -/
def State.zvObserveEnd (s : State) (l : List Edge) : State :=
  if s.spSt ≠ spZV ∨ !s.spn.observe then s
  else
    let r := s.edgeRead l
    let s := r.2.2
    if l.length < 3 ∨ (r.1 ∧ s.spBelow 2) then
      if s.spn.stopping then (s.orReg Reg.SPN_STATUS (bit 1)).enterCoast else s.setSpSt spALIGN
    else s.setSpn { s.spn with observe := false, gates := .zero }

/-- ALIGN_MS passes (R231). -/
def State.alignEnd (s : State) : State :=
  if s.spSt = spALIGN then
    let s := s.setSpSt spRAMP
    s.setSpn { s.spn with ramp := 0, rampAngle := 0, obs := ⟨0, 0, 0, []⟩, lockRun := 0, lostRun := 0 }
  else s

/-- START_TMO passes before RUN (R232). -/
def State.startTimeout (s : State) : State :=
  let st := s.spSt
  if st = spCATCH ∨ (st = spZV ∧ !s.spn.stopping) ∨ st = spALIGN ∨ st = spRAMP then
    (s.orReg Reg.SPN_STATUS (bit 2)).enterCoast
  else s

/-- The chopper is declared faulty (R234). -/
def State.chopFault (s : State) : State :=
  ((s.clrReg Reg.SPN_STATE (bit 26)).orReg Reg.SPN_STATE (bit 25)).orReg Reg.SPN_STATUS (bit 9)

/-- A VM and BRK_ISNS sample (R233, R234, R236); the flag tells an OV3 crossing, which requests Bivouac. -/
def State.vmSample (s : State) (mv ma : Nat) : Bool × State :=
  if !s.isBase || decide (3 ≤ s.pwr.st) then (false, s)
  else
    let s := (s.setFld Reg.SPN_VM 0 16 mv).setFld Reg.SPN_CHOP 16 16 ma
    let on := s.rbit Reg.SPN_STATE 26
    let s := if on then s.setSpn { s.spn with chopN := s.spn.chopN + 1 } else s
    let n := s.spn.chopN
    let s :=
      if on ∧ ((ma < 50 ∧ 10 ≤ n) ∨ (14400 < mv ∧ 200 ≤ n)) then s.chopFault
      else if on ∧ mv < 13400 then s.clrReg Reg.SPN_STATE (bit 26)
      else if !on ∧ 13800 < mv ∧ !s.chopFaulty then
        ((s.orReg Reg.SPN_STATE (bit 26)).orReg Reg.SPN_STATUS (bit 8)).setSpn { s.spn with chopN := 0 }
      else s
    if 15000 < mv then
      let s := s.orReg Reg.SPN_STATUS (bit 10)
      (true, s.setSpSt spFAULT)
    else (false, s)

/-- A write of SPN_CHOP.CLR (R234, R236): a fault latched in the same cycle stays. -/
def State.chopClr (s : State) (v : W32) (faultNow : Bool) : State :=
  if tb v 0 ∧ !faultNow ∧ s.isBase then s.clrReg Reg.SPN_STATE (bit 25) else s

/-- A power-loss trigger (R237). -/
def State.spnPowerLoss (s : State) : State :=
  let st := s.spSt
  if !s.isBase ∨ st = spOFF ∨ st = spFAULT ∨ st = spGEN then s
  else if (st = spRUN ∨ st = spSTOP) ∧ s.rbit Reg.SPN_CTRL 6 then s.setSpn { s.spn with genTrig := true }
  else s.enterCoast

end Sys2Proof.Machine
end

