-- ==== Sys2Proof/Machine/Gs.lean ====
section
/-! DEFINITION. The Groundsheet vault: PREP, dumps and restores (R308 to R312), the power-fail trigger (R309) and entry
into Bivouac (R511, R512). -/

namespace Sys2Proof.Machine

/-- The vault changed. -/
def State.setGs (s : State) (g : Gs) : State := { s with gs := g }
/-- The newest sealed image (R312). -/
def State.gsNewest (s : State) : Option GsImage :=
  match s.gs.img0, s.gs.img1 with
  | some a, some b => if a.seq < b.seq then some b else some a
  | some a, none => some a
  | none, b => b

/-- The area that PREP acts on (R308). -/
def State.prepArea (s : State) : Nat :=
  match s.gsNewest with
  | some i => 1 - i.area
  | none => 0

/-- Save-list entries counted (NVI_GS_LIST_N). -/
def State.saveCount (s : State) : Nat := min 4096 (s.fld Reg.NVI_GS_LIST_N 0 13)

/-- The VALID entries of the save list: address and length in bytes. -/
def State.saveList (s : State) : List (Nat × Nat) × State :=
  (List.range s.saveCount).foldl (fun (acc : List (Nat × Nat) × State) i =>
    let (d, _, t) := acc.2.memRead (s.reg64 Reg.NVI_GS_LIST_LO + 16 * i) 16
    (if (leAt d 14 1).testBit 0 then acc.1 ++ [(leAt d 0 8, 4096 * leAt d 8 4)] else acc.1, t)) ([], s)

/-- A write of PREP = 1 (R308): ignored during a dump, a restore or a PREP. The old image of the area is erased, and an
armed area is no longer armed. -/
def State.gsPrepStart (s : State) : State :=
  if s.gs.dump.isSome ∨ s.gs.restore ∨ s.gs.prep.isSome then
    (if s.gs.prep.isSome then s else s.clrReg Reg.NVI_GS_CTRL (bit 0))
  else
    let a := s.prepArea
    let g := s.gs
    let seq := (s.gsNewest.map (·.seq)).getD 0
    let s := s.setGs { g with prep := some a, seqNew := seq, img0 := if a = 0 then none else g.img0,
                              img1 := if a = 1 then none else g.img1 }
    (if s.rbit Reg.NVI_GS_STATE 0 ∧ s.fld Reg.NVI_GS_STATE 4 1 = a then s.clrReg Reg.NVI_GS_STATE (bit 0) else s).orReg
      Reg.NVI_GS_CTRL (bit 0)

/-- ⌈a / b⌉. -/
def ceilDiv (a b : Nat) : Nat := if b = 0 then 0 else (a + b - 1) / b

/-- PREP ends (R308). The vault found `dies` dies of `page` bytes a page and `ppb` pages a block, with `bad` bad blocks in
the area on the worst die, and a program rate of `rate` MB/s. -/
def State.gsPrepDone (s : State) (dies page ppb bad rate : Nat) : State :=
  match s.gs.prep with
  | none => s
  | some a =>
    let (l, s) := s.saveList
    let total := (l.map (·.2)).foldl (· + ·) 0
    let b := page * dies
    let nblk := s.fld (Reg.NVI_GS_AREA a) 16 16
    let usable := nblk - bad - ceilDiv (2 * nblk) 100
    let stripes := usable * ppb
    let need := 2 + ceilDiv (64 * s.ceil) b + ceilDiv total b
    let s := ((s.setFld Reg.NVI_GS_STATE 16 16 rate).setFld Reg.NVI_GS_STATE 10 6 dies).clrReg Reg.NVI_GS_CTRL (bit 0)
    let s := s.setGs { s.gs with prep := none }
    if b ≠ 0 ∧ need ≤ stripes then
      let s := s.setGs { s.gs with stripe := b, stripes := stripes }
      ((s.setFld Reg.NVI_GS_STATE 4 1 a).orReg Reg.NVI_GS_STATE (bit 0)).orReg Reg.NVI_GS_STATUS (bit 0)
    else s.orReg Reg.NVI_GS_STATUS (bit 1)

/-- The timing set that the BOARD band selects: extended margin in B0, B1 and B7 (R438, R533). -/
def State.nandWant (s : State) : Bool := [0, 1, 7].contains (s.fld Reg.THM_BANDS 8 3)

/-- The timing set changes and its training is repeated, once no dump, PREP or RESTORE runs (R533). -/
def State.nandSync (s : State) : State :=
  if s.gs.dump.isSome ∨ s.gs.prep.isSome ∨ s.gs.restore ∨ s.gs.nandExt = s.nandWant then s
  else (s.setGs { s.gs with nandExt := s.nandWant }).emit (.nandTiming s.nandWant)

/-! ### Dumps (R309 to R311) -/

/-- The ways of one bucket that a dump writes: bucket records of 64 bytes (R310). Each way stands on its own two words. -/
def State.dumpBucket (s : State) (b : Nat) : List (List W8) × State :=
  (List.range 4).foldl (fun (acc : List (List W8) × State) i =>
    let (d, ue, t) := acc.2.memRead (s.nvq.dir + 64 * b + 16 * i) 16
    let w := wayOf d 0
    if w.valid && w.dirty then
      (acc.1 ++ [d ++ leBytes 1 i ++ leBytes 1 (b2n ue) ++ List.replicate 46 0], t)
    else (acc.1, t)) ([], s)

/-- Every bucket record of the directory. -/
def State.dumpBuckets (s : State) : Nat → List (List W8) × State
  | 0 => ([], s)
  | n + 1 =>
    let (l, s) := s.dumpBuckets n
    let (m, s) := s.dumpBucket n
    (l ++ m, s)

/-- The image of a dump as its trigger finds memory (R310, DESIGN CHOICE, log entry 22). -/
def State.gsImage (s : State) : GsImage × State :=
  let seq := s.gs.seqNew + 1
  let (l, s) := s.saveList
  let (ext, s) := l.foldl (fun (acc : List (Nat × List W8) × State) e =>
    let (d, _, t) := acc.2.memRead e.1 e.2
    (acc.1 ++ [(e.1, d)], t)) ([], s)
  let (ways, s) := if s.isBase ∧ s.svc.dir then s.dumpBuckets s.dirSize else ([], s)
  let (slots, s) := ways.foldl (fun (acc : List (Nat × Option (List W8)) × State) r =>
    let i := leAt r 8 4
    let a := acc.2.slotAt i
    if a + 4096 ≤ acc.2.dramSize then
      let (d, _, t) := acc.2.memRead a 4096
      (acc.1 ++ [(i, some d)], t)
    else (acc.1 ++ [(i, none)], acc.2)) ([], s)
  let b := s.gs.stripe
  let body := (l.map (·.2)).foldl (· + ·) 0
  let saved := (slots.filter fun x => x.2.isSome).length
  (⟨s.fld Reg.NVI_GS_STATE 4 1, s.pos, seq, l.length, s.rtc, s.charge, s.nvq.slots, ext, ways, slots,
    2 + ceilDiv body b + ceilDiv (64 * ways.length + 4096 * saved) b⟩, s)

/-- A dump starts, unless one runs; without an armed area it fails at once (R309, R310). The area it writes is no longer
armed (R311). -/
def State.dumpStart (s : State) (biv : Bool) : State :=
  if s.gs.dump.isSome then s
  else if !(s.rbit Reg.NVI_GS_STATE 0) then (s.orReg Reg.NVI_GS_STATUS (bit 3)).clrReg Reg.NVI_GS_CTRL (bit 2)
  else
    let (im, s) := s.gsImage
    let s := s.setGs { s.gs with dump := some im, bivDump := biv }
    (s.orReg Reg.NVI_GS_STATE (bit 5)).clrReg Reg.NVI_GS_STATE (bit 0)

/-- The other actions of a trigger (R309): NVQ stops, and Guyline retracts both actuators. -/
def State.dumpActions (s : State) : State :=
  let s := if s.isBase then { s with nvq := { s.nvq with stopped := true } } else s
  (s.retract 0).retract 1

/-- A trigger of R309: the first starts the dump, and the others have no effect, a dump of Bivouac entry apart. -/
def State.dumpTrigger (s : State) : State :=
  match s.gs.dump with
  | some _ => if s.gs.bivDump then (s.setGs { s.gs with bivDump := false }).dumpActions else s
  | none => if s.pwr.trip then s else (s.dumpActions).dumpStart false

/-- A write of SW_DUMP = 1 (R309). -/
def State.swDump (s : State) : State :=
  match s.gs.dump with
  | some _ => s.orReg Reg.NVI_GS_CTRL (bit 2)
  | none => (s.orReg Reg.NVI_GS_CTRL (bit 2)).dumpTrigger

/-- The dump's seal or its failure (R310, R311): `lost` stripes went to program failures. -/
def State.dumpEnd (s : State) (lost : Nat) : State :=
  match s.gs.dump with
  | none => s
  | some im =>
    let g := s.gs
    let s := (s.clrReg Reg.NVI_GS_STATE (bit 5)).clrReg Reg.NVI_GS_CTRL (bit 2)
    let g := { g with dump := none, bivDump := false }
    if im.pages + lost ≤ g.stripes then
      (s.setGs { g with img0 := if im.area = 0 then some im else g.img0, img1 := if im.area = 1 then some im else g.img1 }).orReg
        Reg.NVI_GS_STATUS (bit 2)
    else (s.setGs g).orReg Reg.NVI_GS_STATUS (bit 3)

/-- A reset's own dump or a dump during a trip may be abandoned (R311). -/
def State.mayAbandon (s : State) : Bool :=
  s.pwr.trip || (match s.pwr.rst with | some r => r.ownDump | none => false)

/-- A dump reaches the limit of a reset or a trip (R311). -/
def State.dumpAbandon (s : State) : State :=
  if s.gs.dump.isNone then s
  else
    (((s.setGs { s.gs with dump := none, bivDump := false }).clrReg Reg.NVI_GS_STATE (bit 5)).clrReg Reg.NVI_GS_CTRL
      (bit 2)).orReg Reg.NVI_GS_STATUS (bit 3)

/-! ### Restore (R312) -/

/-- A write of RESTORE = 1. -/
def State.gsRestoreStart (s : State) : State :=
  if s.gs.dump.isSome ∨ s.gs.prep.isSome then s.clrReg Reg.NVI_GS_CTRL (bit 1)
  else if s.gs.restore then s
  else (s.setGs { s.gs with restore := true }).orReg Reg.NVI_GS_CTRL (bit 1)

/-- One bucket record and its slot restored: BUSY = 0, but 1 for a way with UE = 1. -/
def State.restoreWay (s : State) (r : List W8) (slot : Nat × Option (List W8)) : State :=
  let w := wayOf r 0
  let ue := (leAt r 17 1).testBit 0
  let flags := w.flags % 4 + (if ue then 4 else 0)
  let s := s.memWrite (s.bucketAt w.lba + 16 * (leAt r 16 1 % 4)) (Way.bytes { w with flags := flags })
  match slot.2 with
  | some d => s.memWrite (s.slotAt slot.1) d
  | none => s

/-- The restore ends (R312): `bad` is the first item, in image order, that a page with a wrong CRC carries. -/
def State.gsRestoreDone (s : State) (bad : Option Nat) : State :=
  if !s.gs.restore then s
  else
    let s := (s.setGs { s.gs with restore := false }).clrReg Reg.NVI_GS_CTRL (bit 1)
    match s.gsNewest with
    | none =>
      let s := (s.orReg Reg.NVI_GS_STATE (bit 7)).orReg Reg.NVI_GS_STATUS (bit 4)
      { s with svc := { s.svc with ready := true } }
    | some im =>
      let n := bad.getD (im.extents.length + im.ways.length)
      let s := (im.extents.take n).foldl (fun s e => s.memWrite e.1 e.2) s
      let s := ((im.ways.zip im.slots).take (n - im.extents.length)).foldl (fun s p => s.restoreWay p.1 p.2) s
      let s := (s.clrReg Reg.NVI_GS_STATE (bit 7)).setFld Reg.NVI_GS_STATE 6 1 im.area
      match bad with
      | some _ => s.orReg Reg.NVI_GS_STATUS (bit 5)
      | none => { (s.orReg Reg.NVI_GS_STATUS (bit 4)) with svc := { s.svc with ready := true, dir := true } }

/-- NVI_GS_CTRL written: each bit written 1 starts its operation; the bits follow the operations that run. -/
def State.gsCtrlWrite (s : State) (v : W32) : State :=
  let s := if tb v 0 then s.gsPrepStart else s
  let s := if tb v 1 then s.gsRestoreStart else s
  if tb v 2 then s.swDump else s

/-! ### Power fail and Bivouac (R309, R511, R512) -/

/-- PFAIL_N low for 2 µs: the trigger of R309 and the power-loss trigger of the spindle (R237). -/
def State.powerFail (s : State) : State := if 3 ≤ s.pwr.st then s else (s.dumpTrigger).spnPowerLoss

/-- Entry into Bivouac with cause bit `c` (8 OV3, 9 TAG_LOST, 10 REF_LOST, 11 DIE_LOW, 12 FIRMWARE): entry is a single
event, and later causes add bits only (R511, R512). The Basecamp's firmware posts an event of type SMART / Health (R513). -/
def State.enterBiv (s : State) (c : Nat) : State :=
  if s.rbit Reg.SYS_BIV 31 then s.orReg Reg.SYS_BIV (bit c)
  else
    let s := ((s.orReg Reg.SYS_BIV (bit c ||| bit 31)).orReg Reg.SYS_ROLE (bit 4))
    let s := (s.wrCut 0).wrCut 1
    let s := if s.rbit Reg.NVI_GS_STATE 0 ∧ s.charge ≠ 0 then s.dumpStart true else s
    let s := s.hwRecord 7 0 0x20 (leBytes 2 (s.fld Reg.SYS_BIV 8 5) ++ List.replicate 6 0)
    let s := s.orReg Reg.EVT_STATUS (bit 4)
    if s.isBase then (s.event 0 1 0 2).event 1 1 0 2 else s

/-- SYS_BIV_ENTER written (R511): with its key it enters Bivouac with cause FIRMWARE. -/
def State.bivEnterWrite (s : State) (v : W32) : State :=
  if getF v 16 16 = 0xB1C0 ∧ tb v 0 then s.enterBiv 12 else s

end Sys2Proof.Machine
end

