-- ==== Sys2Proof/Machine/Svc.lean ====
section
/-! DEFINITION. What drive firmware's NVMe service does with the commands it receives: the block namespace, the admin
commands, Sanitize and Format (R288, R297 to R318, R513). Each operation takes the command of a tag and ends with its
completion, or leaves the state as it is while the command has to wait. -/

namespace Sys2Proof.Machine

/-- The command of tag `t` is served, when firmware has it and it has not been completed; an orphaned one is only posted
(R343, R344). -/
def State.serve (s : State) (t : Nat) (ok : NCmd → Bool) (f : NCmd → State) : State :=
  match s.cmd? t with
  | none => s
  | some c =>
    if c.ph ≠ .engine || c.posted || !ok c then s
    else if c.orphan then s.complete t 0 0 0
    else f c

/-- An entry of the Error Information log (R313); `loc` is the byte offset of the bad field in the command. -/
def State.logNvme (s : State) (c : NCmd) (status lba : Nat) (loc : Nat := 0) : State :=
  let k := s.ctl c.ctrl
  let e := leBytes 8 (k.errCnt + 1) ++ leBytes 2 c.qid ++ leBytes 2 c.cid ++ leBytes 2 (2 * status) ++ leBytes 2 loc ++
    leBytes 8 lba ++ leBytes 4 c.nsid ++ List.replicate 36 0
  s.setCtl c.ctrl { k with errCnt := k.errCnt + 1, errlog := (e :: k.errlog).take 64 }

/-- A command ends well. -/
def State.cmdOk (s : State) (c : NCmd) (dw0 dw1 : Nat) : State := s.complete c.tag dw0 dw1 0
/-- A command ends with an error, which the Error Information log takes (R313). -/
def State.cmdErr (s : State) (c : NCmd) (sct sc dnr : Nat) (dw0 : Nat := 0) (lba : Nat := 0)
    (loc : Nat := 0) : State :=
  (s.logNvme c (stField sct sc dnr) lba loc).complete c.tag dw0 0 (stField sct sc dnr)

/-- Invalid Field in Command: the byte offset of the bad field enters the log (R313). -/
def State.badField (s : State) (c : NCmd) (loc : Nat) : State := s.cmdErr c 0 0x02 1 0 0 loc
/-- A command ends at a gate; the field that gates find bad is FUSE, byte 1. -/
def State.gateErr (s : State) (c : NCmd) (e : Nat × Nat × Nat) : State :=
  s.cmdErr c e.1 e.2.1 e.2.2 0 0 (if e.1 = 0 ∧ e.2.1 = 2 then 1 else 0)

/-- The DNR bit of a host transfer status (R313). -/
def xferDnr (e : Nat) : Nat := if e = 0x04 then 0 else 1

/-- The kinds of NVM command in Bivouac and while namespaces are wiped. -/
def State.wiping (s : State) (nsid : Nat) : Bool :=
  match s.svc.format with
  | some w => w.nsid == nsid || w.nsid == 0xFFFFFFFF
  | none => false

/-- The causes of Bivouac that stop media reads (R513). -/
def State.bivNoMedia (s : State) : Bool := s.inBiv && (s.rbit Reg.SYS_BIV 8 || s.rbit Reg.SYS_BIV 10)

/-- The status that ends an I/O command before it is looked at further (R313, R513): Sanitize, Format, FUSE, namespace,
Bivouac. -/
def State.ioGate (s : State) (c : NCmd) (changes : Bool) : Option (Nat × Nat × Nat) :=
  if s.svc.sanitize.isSome then some (0, 0x1D, 0)
  else if s.svc.sanFailed then some (0, 0x1C, 1)
  else if c.fuse ≠ 0 then some (0, 0x02, 1)
  else if s.wiping c.nsid then some (0, 0x84, 0)
  else if changes && s.inBiv then some (2, 0x80, 1)
  else none

/-- The statuses of a command to NSID 1 (R313): the gate above, an inactive namespace, the restart, the LBA range. -/
def State.blkGate (s : State) (c : NCmd) (changes : Bool) : Option (Nat × Nat × Nat) :=
  match s.ioGate c changes with
  | some e => some e
  | none =>
    if c.nsid ≠ 1 then some (0, 0x0B, 1)
    else if !s.svc.ready then some (0, 0x82, 0)
    else if s.svc.nsze < c.slba + c.nlb then some (0, 0x80, 1)
    else none

/-! ### The block cache as the engine path uses it (DESIGN CHOICE, log entry 23) -/

/-- A zero block. -/
def zeroBlk : List W8 := List.replicate 4096 0

/-- The LBA's way in the directory leaves it; a dirty one gives its charge back. -/
def State.dropWay (s : State) (lba : Nat) : State :=
  if !s.svc.dir then s
  else
    let (l, _, s) := s.bucket lba
    match ownWay l lba with
    | none => s
    | some i =>
      let w := wayOf l i
      let s := s.memWrite (s.bucketAt lba + 16 * i) (Way.bytes { w with flags := 0 })
      if w.dirty then s.setCharge (s.charge - 65) else s

/-- The data of an LBA: its bytes, whether they read uncorrectable, and whether they come from the buffer; a clean way
that reads uncorrectable is served from the media (R296). -/
def State.lbaData (s : State) (lba : Nat) : List W8 × Bool × Bool × State :=
  let (l, _, s) := if s.svc.dir then s.bucket lba else ([], false, s)
  let media := smGet (fun _ => zeroBlk) s.svc.blk lba
  match if s.svc.dir then ownWay l lba else none with
  | some i =>
    let w := wayOf l i
    let (d, ue, s) := s.memRead (s.slotAt w.slot) 4096
    if ue && !w.dirty then (media, false, false, s) else (d, ue, true, s)
  | none => (media, false, s.svc.vol.contains lba, s)

/-- LBAs of a range read in order. A result of `some` is the status that ends the read; the bytes so far. -/
def State.readLbas (s : State) (x : CmdIn) (lba : Nat) : Nat → List W8 × Option (Nat × Nat × Nat) × State
  | 0 => ([], none, s)
  | n + 1 =>
    let (d, ue, buf, s) := s.lbaData lba
    if ue then ([], some (2, 0x81, 0), s)
    else if !buf && s.bivNoMedia then ([], some (0, 0x82, 0), s)
    else if !buf && x.badLbas.contains lba then ([], some (2, 0x81, 0), s)
    else
      let (t, e, s) := s.readLbas x (lba + 1) n
      (d ++ t, e, s)

/-- The volatile write cache is enabled (feature 0x06). -/
def State.wce (s : State) (n : Nat) : Bool := (s.feat n 6 1).testBit 0

/-- Writes are written through (R303). -/
def State.writeThrough (s : State) (c : NCmd) (x : CmdIn) : Bool :=
  !(s.rbit Reg.NVI_GS_STATE 0) || !x.armed || !s.wce c.ctrl || c.fua

/-- R307 takes force: data stays charged, SMART shows read-only, and the event is reported. The fast path takes no more
writes, as every later write ends Write Fault. -/
def State.goReadOnly (s : State) (n : Nat) : State :=
  if s.svc.readOnly then s
  else (((s.setSvc { s.svc with readOnly := true }).clrReg Reg.NVQ_CTRL (bit 1)).nvqBases).event n 1 0 2

/-- Blocks replace the content of consecutive LBAs: the directory gives its ways up, and the data is charged, or is on the
media when written through (R301 to R303). -/
def State.putLbas (s : State) (thr : Bool) (lba : Nat) (l : List (List W8)) : State :=
  match l with
  | [] => s
  | d :: t =>
    let s := s.dropWay lba
    let was := s.svc.vol.contains lba
    let vol := s.svc.vol.filter (· != lba)
    let s := s.setSvc { s.svc with
      blk := smPut (fun _ => zeroBlk) s.svc.blk lba d
      vol := if thr then vol else vol ++ [lba] }
    let s := if thr && was then s.setCharge (s.charge - 64)
      else if !thr && !was then s.setCharge (s.charge + 64) else s
    s.putLbas thr (lba + 1) t

/-- Units by which a write may raise the charge (R305). -/
def State.putNeed (s : State) (lba n : Nat) : Nat :=
  64 * ((List.range n).filter fun i => !(s.svc.vol.contains (lba + i))).length

/-- A Write of data blocks (R297, R301 to R303, R307): it waits for its turn and for room in the charge. -/
def State.blkWrite (s : State) (c : NCmd) (x : CmdIn) (l : List (List W8)) : State :=
  if s.mustWait c then s
  else if s.svc.readOnly then s.cmdErr c 2 0x80 1
  else
    let thr := s.writeThrough c x
    if x.fault && thr then s.cmdErr c 2 0x80 1
    else if x.fault then (s.goReadOnly c.ctrl).cmdErr c 2 0x80 1
    else if !thr && decide (s.ceil < s.charge + s.putNeed c.slba l.length) then s
    else (s.putLbas thr c.slba l).cmdOk c 0 0

/-- Blocks of 4,096 bytes. -/
def blocksOf (n : Nat) (l : List W8) : List (List W8) := (List.range n).map fun i => sliceB l (4096 * i) 4096

/-- NVM Write. -/
def State.svcWrite (s : State) (t : Nat) (x : CmdIn) : State :=
  s.serve t (fun c => !c.admin && s.cmdClass c == 1 && c.opc == 0x01) fun c =>
    match s.blkGate c true with
    | some e => s.gateErr c e
    | none =>
      if 8192 < c.nlb then s.badField c 48
      else if x.err ≠ 0 ∨ !s.busMaster c.ctrl then s.cmdErr c 0 (if x.err = 0 then 4 else x.err) (xferDnr (if x.err = 0 then 4 else x.err))
      else s.blkWrite c x (blocksOf c.nlb x.data)

/-- NVM Write Zeroes. -/
def State.svcWriteZeroes (s : State) (t : Nat) (x : CmdIn) : State :=
  s.serve t (fun c => !c.admin && s.cmdClass c == 1 && c.opc == 0x08) fun c =>
    match s.blkGate c true with
    | some e => s.gateErr c e
    | none => s.blkWrite c x (List.replicate c.nlb zeroBlk)

/-- NVM Read, Compare and Verify share the read of their range (R297). `k` acts on the bytes. -/
def State.blkRead (s : State) (c : NCmd) (x : CmdIn) (k : State → List W8 → State) : State :=
  match s.blkGate c false with
  | some e => s.gateErr c e
  | none =>
    if c.opc ≠ 0x0C ∧ 8192 < c.nlb then s.badField c 48
    else if s.mustWait c then s
    else if x.err ≠ 0 ∨ (c.opc ≠ 0x0C ∧ !s.busMaster c.ctrl) then
      s.cmdErr c 0 (if x.err = 0 then 4 else x.err) (xferDnr (if x.err = 0 then 4 else x.err))
    else
      let (d, e, s) := s.readLbas x c.slba c.nlb
      match e with
      | some e => s.cmdErr c e.1 e.2.1 e.2.2 0 c.slba
      | none => k s d

/-- NVM Read. -/
def State.svcRead (s : State) (t : Nat) (x : CmdIn) : State :=
  s.serve t (fun c => !c.admin && s.cmdClass c == 1 && c.opc == 0x02) fun c =>
    s.blkRead c x fun s d => (s.emit (.cmdData c.ctrl c.tag d)).cmdOk c 0 0
/-- NVM Compare. -/
def State.svcCompare (s : State) (t : Nat) (x : CmdIn) : State :=
  s.serve t (fun c => !c.admin && s.cmdClass c == 1 && c.opc == 0x05) fun c =>
    s.blkRead c x fun s d => if d = padTo d.length x.data then s.cmdOk c 0 0 else s.cmdErr c 2 0x85 1
/-- NVM Verify. -/
def State.svcVerify (s : State) (t : Nat) (x : CmdIn) : State :=
  s.serve t (fun c => !c.admin && s.cmdClass c == 1 && c.opc == 0x0C) fun c => s.blkRead c x fun s _ => s.cmdOk c 0 0

/-- LBAs deallocated: they read as zeros (R288). -/
def State.dealloc (s : State) (lba : Nat) : Nat → State
  | 0 => s
  | n + 1 =>
    let s := s.dropWay lba
    let s := if s.svc.vol.contains lba then s.setCharge (s.charge - 64) else s
    (s.setSvc { s.svc with blk := smDel s.svc.blk lba, vol := s.svc.vol.filter (· != lba) }).dealloc (lba + 1) n

/-- NVM Dataset Management: ranges of 16 bytes, deallocated with attribute bit 2. -/
def State.svcDsm (s : State) (t : Nat) (x : CmdIn) : State :=
  s.serve t (fun c => !c.admin && s.cmdClass c == 1 && c.opc == 0x09) fun c =>
    match s.ioGate c true with
    | some e => s.gateErr c e
    | none =>
      if c.nsid ≠ 1 then s.cmdErr c 0 0x0B 1
      else if !s.svc.ready then s.cmdErr c 0 0x82 0
      else if x.err ≠ 0 then s.cmdErr c 0 x.err (xferDnr x.err)
      else
        let rs := (List.range (c.dw 10 % 256 + 1)).map fun i => (leAt x.data (16 * i + 8) 8, leAt x.data (16 * i + 4) 4)
        if rs.any (fun r => decide (s.svc.nsze < r.1 + r.2)) then s.cmdErr c 0 0x80 1
        else if (c.dw 11).testBit 2 then (rs.foldl (fun s r => s.dealloc r.1 r.2) s).cmdOk c 0 0
        else s.cmdOk c 0 0

/-! ### Flush (R300) -/

/-- The dirty ways of a bucket destaged and verified: their data is on the media and they are clean. -/
def State.cleanBucket (s : State) (b : Nat) : State :=
  (List.range 4).foldl (fun s i =>
    let at' := s.nvq.dir + 64 * b + 16 * i
    let (d, _, s) := s.memRead at' 16
    let w := wayOf d 0
    if w.valid && w.dirty && !w.busy then
      let (x, _, s) := s.memRead (s.slotAt w.slot) 4096
      let s := s.memWrite at' (Way.bytes { w with flags := 1 })
      (s.setSvc { s.svc with blk := smPut (fun _ => zeroBlk) s.svc.blk w.lba x }).setCharge (s.charge - 65)
    else s) s

/-- Every bucket destaged. -/
def State.cleanBuckets (s : State) : Nat → State
  | 0 => s
  | n + 1 => (s.cleanBuckets n).cleanBucket n

/-- All written blocks are on the media and verified. -/
def State.destage (s : State) : State :=
  let s := if s.svc.dir then s.cleanBuckets s.dirSize else s
  let s := s.setCharge (s.charge - 64 * s.svc.vol.length)
  s.setSvc { s.svc with vol := [] }

/-- A chunk that a Flush with sequence number `q` waits for: its PUT completed before the Flush was fetched. -/
def Chunk.owed (q : Nat) (k : Chunk) : Bool := !k.committed && decide (k.put ≤ q)
/-- Every chunk of the object namespaces `p` selects that a Flush waits for has committed (R263, R300). -/
def State.allCommitted (s : State) (p : Nat → Bool) (q : Nat) : Bool :=
  (s.svc.vers.all fun v => !p v.ns || (!(v.chunks.any (Chunk.owed q)) && (decide (q < v.put) || (v.metaDone && v.ready)))) &&
    s.svc.sess.all fun e => !p e.ns || !(e.chunks.any (Chunk.owed q))

/-- Chunks of open sessions that a Flush waits for go to the media, as not the last of their objects (R251). -/
def State.flushSess (s : State) (p : Nat → Bool) (q : Nat) : State :=
  let due := fun (k : Chunk) => k.owed q && k.placed.isNone
  let s' := s.svc.sess.foldl (fun u e =>
    match (if p e.ns then smFind s.svc.nss e.ns else none) with
    | some o => u.sendChunks e.ns o e.handle (e.chunks.filter due)
    | none => u) s
  let sent := fun (e : Sess) => { e with chunks := e.chunks.map fun k => if due k then { k with placed := some false } else k }
  s'.setSvc { s'.svc with sess := s.svc.sess.map fun e => if p e.ns then sent e else e }

/-- NVMe Flush: it completes once what was completed before is on the media and verified, or committed. -/
def State.svcFlush (s : State) (t : Nat) (x : CmdIn) : State :=
  s.serve t (fun c => !c.admin && c.opc == 0x00) fun c =>
    match s.ioGate c false with
    | some e => s.gateErr c e
    | none =>
      let all := c.nsid == 0xFFFFFFFF
      if !all && c.nsid ≠ 1 && !s.objNsid c.nsid then s.cmdErr c 0 0x0B 1
      else
        let blk := all || c.nsid == 1
        if blk && !s.svc.ready then s.cmdErr c 0 0x82 0
        else if blk && x.fault then s.goReadOnly c.ctrl
        else if !s.allCommitted (fun n => all || n + 2 == c.nsid) c.seq then s.flushSess (fun n => all || n + 2 == c.nsid) c.seq
        else (if blk then s.destage else s).cmdOk c 0 0

/-! ### Admin commands (R288) -/

/-- An admin command is served in Bivouac and during Sanitize alike; `c.fuse` must be 0. -/
def State.adminServe (s : State) (t opc : Nat) (f : NCmd → State) : State :=
  s.serve t (fun c => c.admin && c.opc == opc) fun c => if c.fuse ≠ 0 then s.badField c 1 else f c

/-- Percent of a Format still to do. -/
def wipeLeft (w : Wipe) : Nat := if w.total = 0 then 0 else 100 - 100 * w.done / w.total

/-- The stated fields of Identify Controller (R288, R322, R482). -/
def State.idController (s : State) (n : Nat) : List (Nat × List W8) :=
  [(0, leBytes 2 0x1CF7), (2, leBytes 2 (s.fld Reg.HIF_SUBSYS 0 16)), (77, [13]), (78, leBytes 2 (n + 1)),
   (80, leBytes 4 0x00020100), (256, leBytes 2 6), (258, [7]), (259, [7]), (260, [0x17]), (262, [63]), (266, leBytes 2 1),
   (319, [0x10]), (328, leBytes 4 (if 15 ≤ s.sec.epochs.length then 4 else 5)), (514, leBytes 2 2048), (520, leBytes 2 0xCD), (525, [1]), (526, leBytes 2 511),
   (528, leBytes 2 511)]

/-- The stated fields of Identify Namespace for NSID 1 (R288, R318). -/
def State.idNamespace (s : State) : List (Nat × List W8) :=
  [(0, leBytes 8 s.svc.nsze), (8, leBytes 8 s.svc.nsze), (25, [0]), (26, [0]), (27, [0]), (28, [0]), (29, [0]),
   (32, [match s.svc.format with | some w => BitVec.ofNat 8 (128 + wipeLeft w) | none => 128]),
   (33, [1]), (34, leBytes 2 511), (36, leBytes 2 511), (38, leBytes 2 0), (42, leBytes 2 0), (128, leBytes 4 (12 * 65536))]

/-- The active namespace identifiers above `a`. -/
def State.nsList (s : State) (a : Nat) : List Nat := (1 :: s.svc.nss.map fun e => e.1 + 2).filter fun n => decide (a < n)

/-- Identify. -/
def State.svcIdentify (s : State) (t : Nat) (x : CmdIn) : State :=
  s.adminServe t 0x06 fun c =>
    if x.err ≠ 0 ∨ !s.busMaster c.ctrl then s.cmdErr c 0 (if x.err = 0 then 4 else x.err) (xferDnr (if x.err = 0 then 4 else x.err))
    else
      match c.dw 10 % 256 with
      | 0 => if c.nsid = 1 then (s.emit (.cmdFields c.ctrl c.tag s.idNamespace)).cmdOk c 0 0
        else if s.objNsid c.nsid then (s.emit (.cmdFields c.ctrl c.tag [])).cmdOk c 0 0
        else s.cmdErr c 0 0x0B 1
      | 1 => (s.emit (.cmdFields c.ctrl c.tag (s.idController c.ctrl))).cmdOk c 0 0
      | 2 =>
        (s.emit (.cmdData c.ctrl c.tag (padTo 4096 ((s.nsList c.nsid).flatMap fun n => leBytes 4 n)))).cmdOk c 0 0
      | 3 =>
        if c.nsid = 1 then (s.emit (.cmdFields c.ctrl c.tag [])).cmdOk c 0 0
        else match smFind s.svc.nss (c.nsid - 2) with
          | some o => if c.nsid < 2 then s.cmdErr c 0 0x0B 1 else
              (s.emit (.cmdData c.ctrl c.tag (padTo 4096 [4, 1, 0, 0, BitVec.ofNat 8 (leAt o.desc 1 1)]))).cmdOk c 0 0
          | none => s.cmdErr c 0 0x0B 1
      | 6 => (s.emit (.cmdFields c.ctrl c.tag [])).cmdOk c 0 0
      | _ => s.badField c 40

/-- The features of R288. -/
def featKnown (fid : Nat) : Bool := [0x01, 0x02, 0x04, 0x06, 0x07, 0x08, 0x09, 0x0B, 0x0E, 0xC0, 0xC1].contains fid

/-- A write of the retention clock: a value below the present one has no effect (R271). -/
def State.rclockRaise (s : State) (v : Nat) : State :=
  if s.reg64 Reg.OBJ_RCLOCK_LO < v then (s.setReg64 Reg.OBJ_RCLOCK_LO v).orReg Reg.OBJ_STATUS (bit 0) else s

/-- Get Features. -/
def State.svcGetFeatures (s : State) (t : Nat) (x : CmdIn) : State :=
  s.adminServe t 0x0A fun c =>
    let fid := c.dw 10 % 256
    if !featKnown fid then s.badField c 40
    else match fid with
      | 0x06 => s.cmdOk c (s.feat c.ctrl 6 1) 0
      | 0x07 => s.cmdOk c (127 + 127 * 65536) 0
      | 0x0E => if x.err ≠ 0 then s.cmdErr c 0 x.err (xferDnr x.err) else
          (s.emit (.cmdData c.ctrl c.tag (leBytes 6 (1000 * s.reg64 Reg.OBJ_RCLOCK_LO) ++ [0, 0]))).cmdOk c 0 0
      | 0xC0 => s.cmdOk c s.svc.ckptMin 0
      | 0xC1 => s.cmdOk c (s.fld Reg.NVI_GS_CEIL 0 25) 0
      | _ => s.cmdOk c (s.feat c.ctrl fid 0) 0

/-- R306: the largest ceiling, in units of 64 bytes. `hold` is what the board's hold-up alone can save. -/
def State.ceilLimit (s : State) (hold : Nat) : Nat :=
  let a := min 0x1000000 (s.fld Reg.NVI_GS_STATE 16 16 * 800000 / 64)
  if s.spSt = spRUN ∨ s.spSt = spSTOP then a else min a hold

/-- Set Features. -/
def State.svcSetFeatures (s : State) (t : Nat) (x : CmdIn) : State :=
  s.adminServe t 0x09 fun c =>
    let fid := c.dw 10 % 256
    let v := c.dw 11
    if !featKnown fid then s.badField c 40
    else
      let put := fun (s : State) => s.setCtl c.ctrl { s.ctl c.ctrl with feats := smSet (s.ctl c.ctrl).feats fid v }
      match fid with
      | 0x06 =>
        let s := if v.testBit 0 then s else (s.clrReg Reg.NVQ_CTRL (bit 1)).nvqBases
        (put s).cmdOk c 0 0
      | 0x07 => s.cmdOk c (127 + 127 * 65536) 0
      | 0x0E =>
        if x.err ≠ 0 then s.cmdErr c 0 x.err (xferDnr x.err) else (s.rclockRaise (leAt x.data 0 6 / 1000)).cmdOk c 0 0
      | 0xC0 => if v < 1 ∨ 1440 < v then s.badField c 44 else (s.setSvc { s.svc with ckptMin := v }).cmdOk c 0 0
      | 0xC1 =>
        if s.ceilLimit x.holdUp < v then s.badField c 44 else (s.setFld Reg.NVI_GS_CEIL 0 25 v).cmdOk c 0 0
      | _ => (put s).cmdOk c 0 0

/-- A new queue's identifier and size: the status when they are refused. -/
def qArgs (id size : Nat) (taken : Bool) : Option (Nat × Nat × Nat) :=
  if id = 0 ∨ 128 < id ∨ taken then some (1, 0x01, 1)
  else if size = 0 ∨ 4095 < size then some (1, 0x02, 1)
  else none

/-- Create I/O Completion Queue (R288, R329, R339). -/
def State.svcCreateCq (s : State) (t : Nat) : State :=
  s.adminServe t 0x05 fun c =>
    let id := c.dw 10 % 65536
    let vec := c.dw 11 / 65536
    match qArgs id (c.dw 10 / 65536) (s.cq (qKey c.ctrl id)).isSome with
    | some e => s.cmdErr c e.1 e.2.1 e.2.2
    | none =>
      if 128 < vec then s.cmdErr c 1 0x08 1
      else if !((c.dw 11).testBit 0) then s.badField c 44
      else if c.prp1 % 4096 ≠ 0 ∨ (s.ownBar4 c.ctrl c.prp1 1).isSome then s.badField c 24
      else (s.setCq (qKey c.ctrl id) ⟨c.prp1, c.dw 10 / 65536 + 1, 0, 0, true, vec, (c.dw 11).testBit 1, [], false⟩).cmdOk c 0 0

/-- Create I/O Submission Queue. -/
def State.svcCreateSq (s : State) (t : Nat) : State :=
  s.adminServe t 0x01 fun c =>
    let id := c.dw 10 % 65536
    let cq := c.dw 11 / 65536
    match qArgs id (c.dw 10 / 65536) (s.sq (qKey c.ctrl id)).isSome with
    | some e => s.cmdErr c e.1 e.2.1 e.2.2
    | none =>
      if cq = 0 ∨ 255 < cq ∨ (s.cq (qKey c.ctrl cq)).isNone then s.cmdErr c 1 0x00 1
      else if !((c.dw 11).testBit 0) then s.badField c 44
      else if c.prp1 % 4096 ≠ 0 then s.badField c 24
      else (s.setSq (qKey c.ctrl id) ⟨c.prp1, c.dw 10 / 65536 + 1, 0, 0, cq, false⟩).cmdOk c 0 0

/-- Delete I/O Submission Queue: its commands end aborted (R313); fast-path commands end first (R315). -/
def State.svcDeleteSq (s : State) (t : Nat) : State :=
  s.adminServe t 0x00 fun c =>
    let id := c.dw 10 % 65536
    if id = 0 ∨ 255 < id ∨ (s.sq (qKey c.ctrl id)).isNone then s.cmdErr c 1 0x01 1
    else
      let mine := s.nvq.cmds.filter fun x => x.ctrl == c.ctrl && x.qid == id
      if mine.any (fun x => x.ph != .engine && !x.posted) then s
      else
        let s := mine.foldl (fun s x => if x.posted then s else s.cmdErr x 0 0x08 0) s
        ({ s with nvq := { s.nvq with sqs := smDel s.nvq.sqs (qKey c.ctrl id) } }).cmdOk c 0 0

/-- Delete I/O Completion Queue: refused while a submission queue uses it. -/
def State.svcDeleteCq (s : State) (t : Nat) : State :=
  s.adminServe t 0x04 fun c =>
    let id := c.dw 10 % 65536
    if id = 0 ∨ 255 < id ∨ (s.cq (qKey c.ctrl id)).isNone then s.cmdErr c 1 0x01 1
    else if s.nvq.sqs.any (fun e => e.1 / 256 == c.ctrl && e.2.cq == id) then s.cmdErr c 1 0x0C 1
    else (({ s with nvq := { s.nvq with cqs := smDel s.nvq.cqs (qKey c.ctrl id) } }).intxUpdate c.ctrl).cmdOk c 0 0

/-- Abort (R314, R315). -/
def State.svcAbort (s : State) (t : Nat) : State :=
  s.adminServe t 0x08 fun c =>
    let before := s.nvq.cmds.filter fun x => x.ctrl == c.ctrl && x.admin && x.opc == 0x08 && !x.posted && decide (x.seq < c.seq)
    if 8 ≤ before.length then s.cmdErr c 1 0x03 1
    else
      match s.nvq.cmds.find? (fun x => x.ctrl == c.ctrl && x.qid == c.dw 10 % 65536 && x.cid == c.dw 10 / 65536 && x.tag != c.tag) with
      | none => s.cmdOk c 1 0
      | some x =>
        if x.posted ∨ x.dp ∨ x.ph ≠ .engine then s.cmdOk c 1 0
        else
          let k := s.ctl c.ctrl
          let s := s.setCtl c.ctrl { k with aer := k.aer.filter (· != x.tag) }
          (s.cmdErr x 0 0x07 0).cmdOk c 0 0

/-- Asynchronous Event Request: at most 8 wait. -/
def State.svcAer (s : State) (t : Nat) : State :=
  s.adminServe t 0x0C fun c =>
    let k := s.ctl c.ctrl
    if k.aer.contains c.tag then s
    else if 8 ≤ k.aer.length then s.cmdErr c 1 0x05 1
    else (s.setCtl c.ctrl { k with aer := k.aer ++ [c.tag] }).flushEvents c.ctrl 8

/-! ### Retention (R271 to R274) -/

/-- A live version. -/
def Ver.live (v : Ver) : Bool := !v.tomb
/-- A version is retained (R272). -/
def State.retained (s : State) (v : Ver) : Bool := decide (s.rclock < v.retain)
/-- The status that protects versions: RETAINED, else LEGAL_HOLD (R281). -/
def State.guarded (s : State) (l : List Ver) : Option Nat :=
  if l.any (fun v => v.live && s.retained v) then some 0x05
  else if l.any (fun v => v.live && v.hold) then some 0x06
  else none

/-! ### Sanitize and Format (R316 to R318) -/

/-- All blocks of NSID 1 deallocated. -/
def State.wipeBlk (s : State) : State :=
  let s := if s.svc.dir then (List.range s.dirSize).foldl (fun s b =>
      (List.range 4).foldl (fun s i => s.memWrite (s.nvq.dir + 64 * b + 16 * i) (List.replicate 16 0)) s) s else s
  (s.setCharge 0).setSvc { s.svc with blk := [], vol := [] }

/-- The versions of the object namespaces `p` selects are gone; the descriptors remain (R316). -/
def State.wipeObj (s : State) (p : Nat → Bool) : State :=
  s.setSvc { s.svc with
    vers := s.svc.vers.filter (fun v => !p v.ns)
    sess := s.svc.sess.filter (fun v => !p v.ns) }

/-- The descriptors of the object namespaces are written again once a Sanitize ends (R316). -/
def State.rewriteDescs (s : State) : State :=
  s.svc.nss.foldl (fun s e =>
    let c := e.2.descC
    let r := s.writeDesc e.1 e.2 false ((c.map (·.units)).getD []) ((c.map (·.under)).getD false)
    r.1.setSvc { r.1.svc with nss := smSet r.1.svc.nss e.1 r.2 }) s

/-- The Groundsheet areas and the checkpoints are erased. -/
def State.wipeVault (s : State) : State :=
  let s := s.setGs { s.gs with img0 := none, img1 := none }
  (s.clrReg Reg.NVI_GS_STATE (bit 0)).setSvc { s.svc with ckpts := 0, journal := 0 }

/-- A Sanitize command is refused (R274, R313, R513): the status. -/
def State.sanGate (s : State) (c : NCmd) : Option (Nat × Nat × Nat) :=
  if s.inBiv then some (2, 0x80, 1)
  else if s.svc.sanitize.isSome then some (0, 0x1D, 0)
  else match s.guarded s.svc.vers with
    | some e => some (7, e, 1)
    | none =>
      if (c.dw 10 % 8 = 3 ∧ (c.dw 10).testBit 8) ∨ (c.dw 10 % 8 = 4 ∧ 15 ≤ s.sec.epochs.length) then some (0, 0x02, 1) else none

/-- OWPASS of a Sanitize command: 0 stands for 16 passes (PRESUMED, log entry 6). -/
def owPasses (dw10 : Nat) : Nat := if dw10 / 16 % 16 = 0 then 16 else dw10 / 16 % 16
/-- The tag of an overwritten sector: every field 0 but VER and TCRC (R316). -/
def wipeTag : List W8 := tagOf (List.replicate 26 0 ++ [1, 0])
/-- The overwriting reaches `done` bands. -/
def State.overwrite (s : State) (w : Wipe) (done : Nat) : State :=
  if w.done < done then
    s.emit (.overwrite w.done done w.passes ((List.range 1024).flatMap fun _ => leBytes 4 w.pattern) wipeTag)
  else s

/-- A Sanitize goes on: `done` of `total` bands are overwritten (R317). A part of the roll-call that is absent pauses it,
and one declared failed ends it. -/
def State.sanStep (s : State) (done total : Nat) : State :=
  match s.svc.sanitize with
  | none => s
  | some w =>
    let st := fun n => s.fld (Reg.CSC_PART_STATE n) 0 2
    if [1, 2, 3].any (fun n => decide (st n = 3)) then
      s.setSvc { s.svc with sanitize := none, sanFailed := !((w.nsid : Nat) == 1) }
    else if [1, 2, 3].any (fun n => decide (st n = 2)) then s
    else if done < total then
      (s.overwrite w done).setSvc { s.svc with sanitize := some { w with done := max w.done done, total := total } }
    else
      let s := (((s.overwrite w total).wipeBlk).wipeObj fun _ => true).wipeVault
      (s.setSvc { s.svc with sanitize := none, sanFailed := false, sanDone := true }).rewriteDescs

/-- A Sanitize command with action `act` starts the operation, or the running one goes on (R316, R317). `erase` replaces
the media keys. -/
def State.svcSanitize (s : State) (t act : Nat) (done total : Nat) (erase : State → State) : State :=
  match s.svc.sanitize with
  | some w => if w.action = act then s.sanStep done total else s
  | none =>
    s.adminServe t 0x84 fun c =>
      if c.dw 10 % 8 ≠ act then s
      else match s.sanGate c with
        | some e => if e.1 = 0 ∧ e.2.1 = 2 then s.badField c (if c.dw 10 % 8 = 3 then 41 else 40) else s.gateErr c e
        | none =>
          let s := erase s
          let s := s.setSvc { s.svc with sanitize := some ⟨act, b2n ((c.dw 10).testBit 3), 0, total, c.dw 11, owPasses (c.dw 10)⟩
                                         sanDone := false
                                         sess := [], export_ := none }
          (s.clrReg Reg.NVQ_CTRL (bit 1 ||| bit 2)).cmdOk c 0 0

/-- Sanitize with an action the part does not support: Invalid Field (R316). -/
def State.svcSanitizeBad (s : State) (t act : Nat) : State :=
  s.adminServe t 0x84 fun c => if c.dw 10 % 8 ≠ act then s else s.badField c 40

/-- A Format reaches an object namespace with its versions tombstoned (SES 0) or its bands emptied (SES 1). -/
def State.formatObj (s : State) (all : Bool) (nsid : Nat) (empty : Bool) : State :=
  let hit := fun (v : Ver) => all || v.ns + 2 == nsid
  let s := (s.svc.vers.filter fun v => hit v && v.live).foldl (fun s v =>
    match smFind s.svc.nss v.ns with
    | some o => s.tombVer o v
    | none => s) s
  s.setSvc { s.svc with vers := if empty then s.svc.vers.filter fun v => !hit v else s.svc.vers
                        sess := s.svc.sess.filter fun v => !(all || v.ns + 2 == nsid) }

/-- The versions a Format would reach. -/
def State.formatVers (s : State) (nsid : Nat) : List Ver :=
  s.svc.vers.filter fun v => nsid == 0xFFFFFFFF || v.ns + 2 == nsid

/-- Format NVM (R274, R318): it starts, and `done` of `total` bands tell its progress; `newKey` replaces a namespace's
media key. -/
def State.svcFormat (s : State) (t done total : Nat) (newKey : State → Nat → State) : State :=
  match s.svc.format with
  | some w =>
    if done < total then s.setSvc { s.svc with format := some { w with done := done, total := total } }
    else
      let all := w.nsid == 0xFFFFFFFF
      let s := if all ∨ w.nsid = 1 then s.wipeBlk else s
      let s := if w.nsid ≠ 1 then s.formatObj all w.nsid (w.action == 1) else s
      s.setSvc { s.svc with format := none }
  | none =>
    s.adminServe t 0x80 fun c =>
      let ses := c.dw 10 / 512 % 8
      let all := c.nsid == 0xFFFFFFFF
      let objs := s.svc.nss.filter fun e => all || e.1 + 2 == c.nsid
      if s.inBiv then s.cmdErr c 2 0x80 1
      else if s.svc.sanitize.isSome then s.cmdErr c 0 0x1D 0
      else if !all && c.nsid ≠ 1 && !s.objNsid c.nsid then s.cmdErr c 0 0x0B 1
      else if (c.nsid = 1 ∨ all) ∧ c.dw 10 % 16 ≠ 0 then s.badField c 40
      else if 2 < ses ∨ (ses = 2 ∧ (all ∨ c.nsid = 1)) then s.badField c 41
      else if ses = 2 ∧ objs.any (fun e => !((leAt e.2.desc 3 1).testBit 2)) then s.badField c 41
      else match s.guarded (s.formatVers c.nsid) with
        | some e => s.cmdErr c 7 e 1
        | none =>
          let s := if ses = 2 then objs.foldl (fun s e => newKey s e.2.slot) s else s
          let s := if c.nsid = 1 ∨ all then s.clrReg Reg.NVQ_CTRL (bit 1 ||| bit 2) else s
          (s.setSvc { s.svc with format := some ⟨ses, c.nsid, 0, total, 0, 0⟩ }).cmdOk c 0 0

end Sys2Proof.Machine
end

