-- ==== Sys2Proof/Machine/Obj.lean ====
section
/-! DEFINITION. The Grenros Object Service and the Key Value commands (R241 to R287): namespaces, sessions, versions,
chunks, retention, export and the index-assist unit. -/

namespace Sys2Proof.Machine

/-! ### Namespaces (R241 to R243) -/

/-- The descriptor's reserved parts are 0 and its codes are defined. -/
def descOk (d : List W8) : Bool :=
  decide (dCsi d ≤ 1) && decide (leAt d 2 1 < 16) && decide (leAt d 3 1 < 32) && leAt d 6 2 == 0 &&
    (d.drop 56).all fun b => b == 0

/-- The spread units of the drive (R261): two for each part of a cascade, else those of the single part. -/
def State.spreadUnits (s : State) (units : List Nat) : Nat := if 1 < s.ringN then 2 * s.ringN else units.length

/-- The object namespace of a command. -/
def State.nsOf (s : State) (nsid : Nat) : Option (Nat × ObjNs) :=
  if nsid < 2 then none else (smFind s.svc.nss (nsid - 2)).map fun o => (nsid - 2, o)
/-- A namespace set. -/
def State.setNs (s : State) (n : Nat) (o : ObjNs) : State := s.setSvc { s.svc with nss := smSet s.svc.nss n o }
/-- A journal record (R275), with the retention clock (R271). -/
def State.journal (s : State) : State := s.setSvc { s.svc with journal := s.svc.journal + 1, clk := s.rclock }

/-- A new media key of a namespace, in its key slot: free bits (R258, R471). -/
def State.newMediaKey (s : State) (slot : Nat) : State :=
  let (x, s) := s.freeAny
  s.setKeySlot slot (BitVec.ofNat 512 x)

/-- Crypto erase (R316, R472): a new epoch clears every slot, and the namespaces take new keys. With every epoch in use
MK_EPOCH changes nothing. -/
def State.cryptoErase (s : State) : State :=
  if 15 ≤ s.sec.epochs.length then s
  else s.svc.nss.foldl (fun s e => if dPol e.2.desc pEncrypt then s.newMediaKey e.2.slot else s) (s.nextEpoch.setSlots [])

/-- The units that take the shards of a chunk (R261, R262, R267): none when SPREAD_SHORT holds; the flag is
UNDERSPREAD. In a single GX8 no actuator takes more than half, rounded up. -/
def State.pickFor (s : State) (desc : List W8) (present : List Nat) : Option (List Nat × Bool) :=
  let (k, m) := geomKM (dGeom desc)
  let n := k + m
  if n ≤ present.length then
    if 1 < s.ringN then some (present.take n, false)
    else
      let half := (n + 1) / 2
      let a := present.filter fun u => decide (u < 24)
      let b := present.filter fun u => decide (24 ≤ u)
      let na := min half (max (n - min half b.length) 0)
      let l := a.take na ++ b.take (n - min na a.length)
      if l.length = n ∧ n - min na a.length ≤ half then some (l, false) else none
  else if dPol desc pDouble && decide (n ≤ 2 * present.length) then
    some ((present ++ present).take n, true)
  else none

def State.pickUnits (s : State) (o : ObjNs) (present : List Nat) : Option (List Nat × Bool) := s.pickFor o.desc present

/-- A completion whose DW0 and DW1 the spec does not state. -/
def State.cmdOkFree (s : State) (c : NCmd) : State :=
  let (x, s) := s.freeNat (2 ^ 64 - 1)
  s.cmdOk c (x % 2 ^ 32) (x / 2 ^ 32)

/-- A chunk on its way to the media is written again in full, with the generation it has (R266). -/
def State.outAgain (s : State) (n : Nat) (o : ObjNs) (h gen : Nat) (c : Chunk) : List OutEvent :=
  match c.placed with
  | some last => if c.committed then [] else
      (shardsOf (dGeom o.desc) c.data.length).map fun i => .shardWrite (c.units.getD i 0) ((s.chunkOut n o h c gen last).sectors i)
  | none => []
/-- Every shard of such a chunk is to be verified anew. -/
def Chunk.again (geom : Nat) (c : Chunk) : Chunk :=
  if c.committed || c.placed.isNone then c else { c with pend := shardsOf geom c.data.length }
/-- Every chunk that had not committed when the service stopped (R266). -/
def State.rewriteChunks (s : State) : State :=
  let geom := fun (n : Nat) => ((smFind s.svc.nss n).map fun o => dGeom o.desc).getD 0
  let of := fun (n : Nat) (f : ObjNs → List OutEvent) => match smFind s.svc.nss n with
    | some o => f o
    | none => []
  let ev := s.svc.vers.flatMap (fun v => of v.ns fun o =>
      (v.chunks ++ v.digs).flatMap (s.outAgain v.ns o v.handle 1) ++ v.metaC.toList.flatMap (s.outAgain v.ns o v.handle v.gen)) ++
    s.svc.sess.flatMap (fun e => of e.ns fun o => e.chunks.flatMap (s.outAgain e.ns o e.handle 1)) ++
    s.svc.nss.flatMap (fun e => e.2.descC.toList.flatMap (s.outAgain e.1 e.2 1 e.2.gen))
  (s.emits ev).setSvc { s.svc with
    vers := s.svc.vers.map fun v => { v with
      chunks := v.chunks.map (Chunk.again (geom v.ns)), digs := v.digs.map (Chunk.again (geom v.ns))
      metaC := v.metaC.map (Chunk.again (geom v.ns)) }
    sess := s.svc.sess.map fun e => { e with chunks := e.chunks.map (Chunk.again (geom e.ns)) }
    nss := s.svc.nss.map fun e => (e.1, { e.2 with descC := e.2.descC.map (Chunk.again (geom e.1)) }) }

/-- The service comes up: the retention clock takes the larger of the real-time clock and its journaled value (R271); the index is loaded, or rebuilt from the media (R276); chunks that
had not committed are written again in full (R266). -/
def State.indexStart (s : State) (x : CmdIn) : State :=
  if s.svc.index then s
  else
    let up := fun (s : State) => (s.setSvc { s.svc with index := true }).rclockRaise (max s.rtc s.svc.clk)
    match x.index with
    | .rebuilding => s
    | .loaded => (up s).rewriteChunks
    | .rebuilt l => up (s.rebuildIndex l)

/-- The gate of every GOS and Key Value command (R276, R277, R313): `write` marks those that change stored data. -/
def State.gosGate (s : State) (c : NCmd) (x : CmdIn) (write : Bool) : Option (Nat × Nat × Nat) :=
  match s.ioGate c write with
  | some e => some e
  | none =>
    if !s.svc.index then some (7, 0x13, 1)
    else if x.err ≠ 0 then some (0, x.err, xferDnr x.err)
    else if !s.busMaster c.ctrl then some (0, 0x04, 0)
    else none

/-- Reserved parts of a GOS command are 0 (R277). -/
def gosShape (c : NCmd) (x : CmdIn) : Bool :=
  let p := padTo 128 x.param
  c.dw 13 == 0 && c.dw 14 == 0 && c.dw 15 == 0 && leAt c.entry 16 8 % 128 == 0 && decide (c.dw 12 ≤ 33554432) &&
    leAt p 1 3 == 0 && leAt p 32 32 == 0 && (sliceB p (64 + min (leAt p 0 1) 64) (64 - min (leAt p 0 1) 64)).all fun b => b == 0
/-- Where the command is not of that shape: its first bad field, the parameter block standing at its pointer (R313). -/
def gosBadAt (c : NCmd) : Nat :=
  if c.dw 13 ≠ 0 then 52 else if c.dw 14 ≠ 0 then 56 else if c.dw 15 ≠ 0 then 60 else if 33554432 < c.dw 12 then 48 else 16

/-- An admin command on namespaces, past its gate: the reserved parts of R277 are 0. -/
def State.nsServe (s : State) (t opc : Nat) (x : CmdIn) (write : Bool) (f : State → NCmd → State) : State :=
  s.serve t (fun c => c.admin && c.opc == opc) fun c =>
    let s := s.indexStart x
    match s.gosGate c x write with
    | some e => s.gateErr c e
    | none => if !gosShape c x then s.badField c (gosBadAt c) else f s c

/-- The key of a Key Value command: key in CDW2, CDW3, CDW14 and CDW15, its length in CDW11 (R282, PRESUMED, log entry 6). -/
def kvKey (c : NCmd) : List W8 :=
  (leBytes 4 (c.dw 2) ++ leBytes 4 (c.dw 3) ++ leBytes 4 (c.dw 14) ++ leBytes 4 (c.dw 15)).take (c.dw 11 % 256)
/-- Two commands of one session, or of the Key Value set with one key, as their entries show it (R300). -/
def sameTarget (c d : NCmd) : Bool :=
  c.nsid == d.nsid && ((c.opc == 0x81 && d.opc == 0x81 && c.dw 11 == d.dw 11 && c.dw 11 != 0) ||
    (decide (c.opc < 0x80) && decide (d.opc < 0x80) && c.opc != 0 && d.opc != 0 && kvKey c == kvKey d))
/-- An earlier-fetched command on the same target has not ended (R300); the keys of GOS commands stand in their parameter
blocks, and their order is that of the commands' service (DESIGN CHOICE, log entry 82). -/
def State.mustFollow (s : State) (c : NCmd) : Bool :=
  s.nvq.cmds.any fun d => decide (d.seq < c.seq) && d.ph == .engine && !d.posted && !d.orphan && !d.admin && sameTarget c d

/-- A command of the object service, past the start of the index. -/
def State.objServe (s : State) (t : Nat) (x : CmdIn) (ok : NCmd → Bool) (f : State → NCmd → State) : State :=
  s.serve t ok fun c => if s.mustFollow c then s else f (s.indexStart x) c

/-- NS_CREATE (R241, R243, R260). -/
def State.nsCreate (s : State) (t : Nat) (x : CmdIn) : State :=
  s.nsServe t 0xC1 x true fun s c =>
    let d := padTo 256 x.data
    let want := leAt d 0 1
    let free := (List.range 64).find? fun n => (smFind s.svc.nss n).isNone
    let n := if want = 0xFF then free else if want < 64 ∧ (smFind s.svc.nss want).isNone then some want else none
    match n with
    | none => s.badField c 24
    | some n =>
      let (k, m) := geomKM (dGeom d)
      if !descOk d ∨ c.nsid ≠ 0 then s.badField c (if c.nsid ≠ 0 then 4 else 24)
      else if s.spreadUnits x.units < k + m then s.cmdErr c 7 0x15 1
      else
        match s.pickFor d x.units with
        | none => s.cmdErr c 7 0x09 1
        | some (us, under) =>
          let s := if dPol d pEncrypt then s.newMediaKey n else s
          let old := (smFind s.svc.gone n).getD (0x100, 0)
          let r := s.writeDesc n ⟨patchB d 0 (leBytes 1 n), old.1, n, [], s.rclock, old.2, none⟩ false us under
          ((r.1.setNs n r.2).journal).cmdOkFree c

/-- A change of policy that LOCKED permits (R242). -/
def lockedChange (old new : List W8) : Bool :=
  let op := leAt old 3 1
  let np := leAt new 3 1
  (op ||| 3) == (np ||| 3) && (op.testBit 0 → np.testBit 0) && (op.testBit 1 → np.testBit 1) &&
    decide (dMinRetain old ≤ dMinRetain new) &&
    (dKeep new == dKeep old || (dKeep old == 0 && dKeep new != 0) || decide (dKeep old ≠ 0 ∧ dKeep old < dKeep new)) &&
    dQuota old == dQuota new && sliceB old 24 32 == sliceB new 24 32

/-- NS_SET (R242, R243). -/
def State.nsSet (s : State) (t : Nat) (x : CmdIn) : State :=
  s.nsServe t 0xC9 x true fun s c =>
    match s.nsOf c.nsid with
    | none => s.cmdErr c 0 0x0B 1
    | some (n, o) =>
      let d := patchB (padTo 256 x.data) 0 (leBytes 1 n)
      if !descOk d then s.badField c 24
      else if dCsi d ≠ dCsi o.desc ∨ leAt d 2 1 ≠ leAt o.desc 2 1 ∨ dPol d pEncrypt ≠ dPol o.desc pEncrypt then
        s.badField c 24
      else if dPol o.desc pLocked && !lockedChange o.desc d then s.cmdErr c 7 0x14 1
      else match s.pickFor d x.units with
        | none => s.cmdErr c 7 0x09 1
        | some (us, under) =>
          let r := s.writeDesc n { o with desc := d } false us under
          ((r.1.setNs n r.2).journal).cmdOkFree c

/-- The versions of a namespace. -/
def State.nsVers (s : State) (n : Nat) : List Ver := s.svc.vers.filter fun v => v.ns == n
/-- The export session covers the namespace. -/
def State.exporting (s : State) (n : Nat) : Bool :=
  match s.svc.export_ with
  | some e => e.ns == n
  | none => false

/-- Units of 64 bytes that a chunk's shards charge (R302, R264). -/
def chunkCharge (o : ObjNs) (n : Nat) : Nat :=
  let (k, m) := geomKM (dGeom o.desc)
  64 * (((List.range (k + m)).map fun i => (writtenSectors k (extentOf n) i).length).foldl (· + ·) 0)

/-- The charge of chunks that have not committed. -/
def chunksCharge (o : ObjNs) (l : List Chunk) : Nat :=
  (l.map fun k => if k.committed then 0 else chunkCharge o k.data.length).foldl (· + ·) 0

/-- The charge of a namespace's chunks that have not committed, which a deletion releases. -/
def State.nsCharge (s : State) (n : Nat) (o : ObjNs) : Nat :=
  chunksCharge o ((s.nsVers n).flatMap (·.chunks) ++ (s.svc.sess.filter fun x => x.ns == n).flatMap (·.chunks))
/-- Versions tombstoned, their metadata chunks on new units (R247). -/
def State.tombAll (s : State) (o : ObjNs) (l : List Ver) (us : List Nat) (under : Bool) : State :=
  l.foldl (fun s v => s.tombVer o { v with units := us, under := under }) s

/-- NS_DELETE (R243, R274). -/
def State.nsDelete (s : State) (t : Nat) (x : CmdIn) : State :=
  s.nsServe t 0xC4 x true fun s c =>
    match s.nsOf c.nsid with
    | none => s.cmdErr c 0 0x0B 1
    | some (n, o) =>
      match s.guarded (s.nsVers n) with
      | some e => s.cmdErr c 7 e 1
      | none =>
        if s.exporting n then s.cmdErr c 7 0x12 1
        else match s.pickFor o.desc x.units with
          | none => s.cmdErr c 7 0x09 1
          | some (us, under) =>
            let s := s.tombAll o ((s.nsVers n).filter Ver.live) us under
            let r := s.writeDesc n o true us under
            let s := r.1.setCharge (r.1.charge - s.nsCharge n o)
            let s := s.setSvc { s.svc with
              nss := smDel s.svc.nss n, gone := smSet s.svc.gone n (o.nextHandle, r.2.gen)
              vers := s.svc.vers.filter (fun v => v.ns != n), sess := s.svc.sess.filter (fun v => v.ns != n) }
            (s.journal).cmdOkFree c

/-- NS_QUERY (R278): the descriptor; the layout of the usage is left open. -/
def State.nsQuery (s : State) (t : Nat) (x : CmdIn) : State :=
  s.nsServe t 0xC6 x false fun s c =>
    match s.nsOf c.nsid with
    | none => s.cmdErr c 0 0x0B 1
    | some (_, o) => (s.emit (.cmdFields c.ctrl c.tag [(0, o.desc)])).cmdOkFree c

/-! ### Arguments (R277) -/

/-- What a GOS or Key Value command asks for. -/
structure GosArgs where
  flags : Nat
  session : Nat
  dlen : Nat
  key : List W8
  klen : Nat
  version : Nat
  offset : Nat
  length : Nat
  retain : Nat
  deriving DecidableEq, Repr

/-- The arguments of a GOS command. -/
def gosArgs (c : NCmd) (x : CmdIn) : GosArgs :=
  let p := padTo 128 x.param
  let kl := leAt p 0 1
  ⟨c.dw 10, c.dw 11, c.dw 12, sliceB p 64 (min kl 64), kl, leAt p 4 4, leAt p 8 8, leAt p 16 8, leAt p 24 8⟩

/-- The arguments of a Key Value command: a size in CDW10 (R282, PRESUMED, log entry 6). -/
def kvArgs (c : NCmd) (flags version : Nat) : GosArgs := ⟨flags, 0, c.dw 10, kvKey c, c.dw 11 % 256, version, 0, c.dw 10, 0⟩

/-- A GOS command with opcode `opc` on an object namespace, past its gate. -/
def State.gosServe (s : State) (t opc : Nat) (x : CmdIn) (write : Bool)
    (f : State → NCmd → Nat → ObjNs → GosArgs → State) : State :=
  s.objServe t x (fun c => !c.admin && c.opc == opc) fun s c =>
    match s.nsOf c.nsid with
    | none => s.cmdErr c 0 0x0B 1
    | some (n, o) =>
      match s.gosGate c x write with
      | some e => s.gateErr c e
      | none => if !gosShape c x then s.badField c (gosBadAt c) else f s c n o (gosArgs c x)

/-- A Key Value command on a namespace of that command set (R282). -/
def State.kvServe (s : State) (t opc : Nat) (x : CmdIn) (write : Bool)
    (f : State → NCmd → Nat → ObjNs → State) : State :=
  s.objServe t x (fun c => !c.admin && c.opc == opc && s.cmdClass c == 2) fun s c =>
    match s.nsOf c.nsid with
    | none => s.cmdErr c 0 0x0B 1
    | some (n, o) =>
      match s.gosGate c x write with
      | some e => s.gateErr c e
      | none =>
        if dCsi o.desc ≠ 1 then s.cmdErr c 0 0x01 1
        else f s c n o

/-! ### Versions and keys -/

/-- The versions of a key. -/
def State.keyVers (s : State) (n : Nat) (key : List W8) : List Ver := s.svc.vers.filter fun v => v.ns == n && v.key == key
/-- The version with the highest number in a list. -/
def newest (l : List Ver) : Option Ver :=
  l.foldl (fun a v => match a with | some b => if b.version < v.version then some v else some b | none => some v) none
/-- The version a command names (R277, R281), or its status. -/
def State.findVer (s : State) (n : Nat) (a : GosArgs) : Ver ⊕ Nat :=
  if a.klen = 0 ∨ 64 < a.klen then .inr 0x03
  else
    let l := s.keyVers n a.key
    if a.version = 0 then
      match newest (l.filter Ver.live) with
      | some v => .inl v
      | none => .inr 0x01
    else match l.find? (fun v => v.version == a.version) with
      | some v => if v.tomb then .inr 0x16 else .inl v
      | none => if l.isEmpty then .inr 0x01 else .inr 0x04

/-! ### PUT (R246, R248, R261, R264 to R267, R272, R273, R279) -/

/-- Bytes of live versions and open sessions of a namespace (R241, QUOTA). -/
def State.nsUsage (s : State) (n : Nat) : Nat :=
  (((s.nsVers n).filter Ver.live).map (·.length)).foldl (· + ·) 0 +
    (((s.svc.sess.filter fun x => x.ns == n).flatMap (·.chunks)).map fun c => c.data.length).foldl (· + ·) 0

/-- The chunks of a data PUT. -/
def cutChunks (geom first put : Nat) (l : List W8) (units : List Nat) (under thr : Bool) : Nat → List Chunk
  | 0 => []
  | fuel + 1 =>
    match l with
    | [] => []
    | _ => ⟨first, l.take chunkSize, units, if thr then [] else shardsOf geom (l.take chunkSize).length, under, thr, none, none,
          put⟩ :: cutChunks geom (first + 1) put (l.drop chunkSize) units under thr fuel

/-- What a PUT step gives: a status, a wait, or the new session. -/
inductive PutRes where
  | fail (sct sc dnr : Nat)
  | wait
  | ok (x : Sess)
  deriving DecidableEq, Repr

/-- BEGIN: the checks of R246, R273, NOOVERWRITE and QUOTA, and the new session; else the session named (R280). -/
def State.putSession (s : State) (n : Nat) (o : ObjNs) (a : GosArgs) : PutRes :=
  if a.klen = 0 ∨ 64 < a.klen then .fail 7 0x03 1
  else if a.flags.testBit 0 then
    let live := (s.keyVers n a.key).filter Ver.live
    if dPol o.desc pWriteOnce && (o.lastVer.any fun e => e.1 == a.key) then .fail 7 0x07 1
    else if a.flags.testBit 3 && !live.isEmpty then .fail 7 0x02 1
    else if !(dPol o.desc pVersioned) && (s.guarded live).isSome then .fail 7 ((s.guarded live).getD 5) 1
    else if dQuota o.desc ≠ 0 ∧ dQuota o.desc < s.nsUsage n + a.dlen then .fail 7 0x11 1
    else .ok ⟨s.svc.nextToken, n, a.key, o.nextHandle, 0, none, [], s.now⟩
  else match s.svc.sess.find? (fun x => x.token == a.session && x.ns == n && x.key == a.key) with
    | some x => .ok { x with last := s.now }
    | none => .fail 7 0x0D 1

/-- The data or metadata of a PUT enters the session. -/
def State.putData (s : State) (c : NCmd) (o : ObjNs) (a : GosArgs) (x : CmdIn) (e : Sess) : PutRes :=
  let d := padTo a.dlen x.data
  if a.flags.testBit 2 then
    if 16384 < a.dlen ∨ e.user.isSome then .fail 0 0x02 1 else .ok { e with user := some d }
  else if a.dlen = 0 then .ok e
  else
    let final := a.flags.testBit 1
    let first := a.offset / chunkSize
    let n := (a.dlen + chunkSize - 1) / chunkSize
    if a.offset % chunkSize ≠ 0 ∨ (if final then a.offset + a.dlen ≠ a.length else a.dlen % chunkSize ≠ 0) then .fail 7 0x0E 1
    else if e.chunks.any (fun k => decide (first ≤ k.idx ∧ k.idx < first + n)) then .fail 7 0x0E 1
    else match s.pickUnits o x.units with
      | none => .fail 7 0x09 1
      | some (us, under) =>
        let thr := s.writeThrough { c with entry := patchB c.entry 48 [0, 0, 0, 0] } x
        if x.fault && thr then .fail 2 0x80 1
        else
          let cs := cutChunks (dGeom o.desc) first s.nvq.seq d us under thr n
          let need := (cs.map fun k => chunkCharge o k.data.length).foldl (· + ·) 0
          if !thr && decide (s.ceil < s.charge + need) then .wait else .ok { e with chunks := e.chunks ++ cs }

/-- The charge that a session's new chunks raise. -/
def putCharge (o : ObjNs) (old new : Sess) : Nat :=
  ((new.chunks.drop old.chunks.length).map fun k => if k.committed then 0 else chunkCharge o k.data.length).foldl (· + ·) 0

/-- Number of data chunks (R248). -/
def nchunk (len : Nat) : Nat := (len + chunkSize - 1) / chunkSize
/-- The chunks of a sealed object of `len` bytes, in order, or none when one is missing (R248, R279). -/
def sealChunks (l : List Chunk) (len : Nat) : Option (List Chunk) :=
  (List.range (nchunk len)).mapM fun i => l.find? fun c => c.idx == i
/-- Chunks that do not fit an object of `len` bytes: beyond its end, or of another length (DESIGN CHOICE, log entry 25). -/
def sealMisfit (l : List Chunk) (len : Nat) : Bool :=
  l.any fun c => decide (c.data.length ≠ min chunkSize (len - c.idx * chunkSize))
/-- A data chunk sent to the media when that is due: at the seal, with LAST on chunk NCHUNK - 1 (R251). -/
def Chunk.sealed (n : Nat) (c : Chunk) : Chunk := { c with placed := some (c.idx + 1 == n) }
/-- The chunks that a seal sends: those not sent yet, and one that was sent without the LAST it has. -/
def sealDue (n : Nat) (l : List Chunk) : List Chunk := l.filter fun c => decide (c.placed ≠ some (c.idx + 1 == n))
/-- Chunks of an open session that can be sent: they are not the last, or have been written through (R251, R303). -/
def sessDue (l : List Chunk) : List Chunk := l.filter fun c => c.placed.isNone && (c.committed || l.any fun d => decide (c.idx < d.idx))

/-- The last version number of a key. -/
def ObjNs.last (o : ObjNs) (key : List W8) : Nat := ((o.lastVer.find? fun e => e.1 == key).map (·.2)).getD 0

/-- The live versions of a key beyond the newest KEEP_VER, those neither retained nor held (R246). -/
def State.keepBeyond (s : State) (n : Nat) (o : ObjNs) (key : List W8) : List Ver :=
  let live := (s.keyVers n key).filter Ver.live
  live.filter fun v => decide (dKeep o.desc ≠ 0 ∧ dKeep o.desc ≤ (live.filter fun w => decide (v.version < w.version)).length) &&
    !s.retained v && !v.hold

/-- FINAL: the seal, or its refusal; `us` are the units of its metadata chunk. -/
def State.putSeal (s : State) (c : NCmd) (n : Nat) (o : ObjNs) (a : GosArgs) (e : Sess) (us : List Nat × Bool) :
    State ⊕ (Nat × Nat) :=
  if 2 ^ 43 < a.length then .inr (7, 0x10)
  else match sealChunks e.chunks a.length with
    | none => .inr (7, 0x0F)
    | some cs =>
      let live := (s.keyVers n e.key).filter Ver.live
      let ver := dPol o.desc pVersioned
      if sealMisfit e.chunks a.length then .inr (7, 0x0E)
      else if !ver && (s.guarded live).isSome then .inr (7, (s.guarded live).getD 5)
      else
        let num := o.last e.key + 1
        let created := s.rclock
        let n' := nchunk a.length
        let digs := digChunks (dGeom o.desc) (cs.map Chunk.digest) us.1 us.2
        let v : Ver := {
          ns := n, key := e.key, version := num, handle := e.handle
          prev := ((newest (s.keyVers n e.key)).map (·.handle)).getD 0
          length := a.length, created := created, retain := max a.retain (created + dMinRetain o.desc), hold := false
          tomb := false, deleted := 0, updated := created, gen := 1, user := e.user.getD [], chunks := cs.map (Chunk.sealed n')
          digs := digs, units := us.1, under := us.2, metaC := none, metaDone := false
          put := s.nvq.seq }
        let s := if ver then s else s.tombAll o live us.1 us.2
        let s := s.setSvc { s.svc with vers := s.svc.vers ++ [v], sess := s.svc.sess.filter fun y => y.token != e.token }
        let s := s.setNs n { o with lastVer := (o.lastVer.filter fun p => p.1 != e.key) ++ [(e.key, num)] }
        let s := s.sendChunks n o e.handle ((sealDue n' cs).map (Chunk.sealed n') ++ digs)
        let s := s.metaStep o v
        let s := (s.tombAll o (s.keepBeyond n o e.key) us.1 us.2).journal
        .inl (s.cmdOk c num (e.handle % 2 ^ 32))

/-- A PUT refused: the field that it may find bad is the length of its metadata, or META given twice (R313). -/
def State.putErr (s : State) (c : NCmd) (a : GosArgs) (t k d : Nat) : State :=
  s.cmdErr c t k d 0 0 (if t = 0 ∧ k = 2 then (if 16384 < a.dlen then 48 else 40) else 0)

/-- A PUT with its arguments. -/
def State.gosPutA (s : State) (c : NCmd) (n : Nat) (o : ObjNs) (a : GosArgs) (x : CmdIn) : State :=
  match s.putSession n o a with
  | .fail t k d => s.putErr c a t k d
  | .wait => s
  | .ok e =>
    match s.putData c o a x e with
    | .fail t k d => s.putErr c a t k d
    | .wait => s
    | .ok e' =>
      let begin := a.flags.testBit 0
      let o' := if begin then { o with nextHandle := o.nextHandle + 1 } else o
      let rest := s.svc.sess.filter fun y => y.token != e.token
      let s1 := s.setCharge (s.charge + putCharge o e e')
      let s1 := s1.setSvc { s1.svc with
        nss := if begin then smSet s1.svc.nss n o' else s1.svc.nss
        nextToken := if begin then s.svc.nextToken + 1 else s.svc.nextToken
        sess := rest ++ [e'], journal := s1.svc.journal + 1, clk := s.rclock }
      if a.flags.testBit 1 then
        let refuse := fun (t k : Nat) =>
          (if begin then s else s.setSvc { s.svc with sess := rest ++ [e] }).cmdErr c t k 1
        match s.pickUnits o x.units with
        | none => refuse 7 0x09
        | some us =>
          match s1.putSeal c n o' a e' us with
          | .inl s2 => s2
          | .inr (t, k) => refuse t k
      else
        let due := sessDue e'.chunks
        let s2 := s1.sendChunks n o e'.handle due
        let cs := e'.chunks.map fun k => if due.contains k then { k with placed := some false } else k
        (s2.setSvc { s2.svc with sess := rest ++ [{ e' with chunks := cs }] }).cmdOk c (if begin then e.token else 0) 0

/-- PUT. -/
def State.gosPut (s : State) (t : Nat) (x : CmdIn) : State :=
  s.gosServe t 0x81 x true fun s c n o a => s.gosPutA c n o a x

/-! ### Commit, timeouts (R263, R266, R267) -/

/-- Shards of a chunk verified, on the units that hold them; a report of another unit is ignored (R263, R267). -/
def Chunk.verified (k : Chunk) (l : List (Nat × Nat)) : Chunk :=
  let pend := k.pend.filter fun i => !(l.any fun p => p.1 == i && k.units.getD i 0 == p.2)
  { k with pend := pend, committed := k.committed || pend.isEmpty }

/-- A chunk of a version, with its generation: data and digest chunks have GEN = 1 (R252). -/
def Ver.chunk? (v : Ver) (i : Nat) : Option (Chunk × Nat) :=
  if i = metaIdx then v.metaC.map (·, v.gen) else ((v.chunks ++ v.digs).find? fun c => c.idx == i).map (·, 1)
/-- A chunk of a version changed. -/
def Ver.putChunk (v : Ver) (k : Chunk) : Ver :=
  if k.idx = metaIdx then { v with metaC := some k, metaDone := k.committed }
  else { v with
    chunks := v.chunks.map fun c => if c.idx == k.idx then k else c
    digs := v.digs.map fun c => if c.idx == k.idx then k else c }
/-- The version, and the open session, of a handle. -/
def State.verAt (s : State) (n h : Nat) : Option Ver := s.svc.vers.find? fun v => v.ns == n && v.handle == h
def State.sessAt (s : State) (n h : Nat) : Option Sess := s.svc.sess.find? fun e => e.ns == n && e.handle == h
/-- The chunk `i` of handle `h` in namespace `n`: of a descriptor, a version or an open session. -/
def State.chunkOf (s : State) (n h i : Nat) : Option (Chunk × Nat) :=
  if h = 1 then
    if i = metaIdx then (smFind s.svc.nss n).bind fun o => o.descC.map (·, o.gen) else none
  else match s.verAt n h with
    | some v => v.chunk? i
    | none => (s.sessAt n h).bind fun e => (e.chunks.find? fun c => c.idx == i).map (·, 1)
/-- That chunk changed. -/
def State.putChunk (s : State) (n h : Nat) (k : Chunk) : State :=
  if h = 1 then match smFind s.svc.nss n with
    | some o => s.setNs n { o with descC := some k }
    | none => s
  else match s.verAt n h with
    | some v => s.putVer (v.putChunk k)
    | none => match s.sessAt n h with
      | some e => s.setSvc { s.svc with sess := s.svc.sess.map fun y => if y.token == e.token then
          { e with chunks := e.chunks.map fun c => if c.idx == k.idx then k else c } else y }
      | none => s

/-- Reports of verified shards (R263): a chunk commits when every shard has verified, a data chunk with its charge
released; with the last of them the version's metadata chunk is written (R257). -/
def State.chunkCommit (s : State) (n h i : Nat) (l : List (Nat × Nat)) : State :=
  match smFind s.svc.nss n, s.chunkOf n h i with
  | some o, some (c, _) =>
    let c' := c.verified l
    let d := if !c.committed && c'.committed && decide (h ≠ 1 ∧ i < digIdx 0) then chunkCharge o c.data.length else 0
    let s := (s.putChunk n h c').setCharge (s.charge - d)
    let s := match s.verAt n h with
      | some v => if h = 1 then s else s.metaStep o v
      | none => s
    s.journal
  | _, _ => s

/-- The shards of a chunk on unit `u` placed again on units that hold none of it, or doubled where ABSENT_DOUBLE allows
(R267). -/
def Chunk.replace (k : Chunk) (u : Nat) (present : List Nat) (double : Bool) : Chunk :=
  let step := fun (k : Chunk) (i : Nat) =>
    if k.units.getD i 0 = u then
      match present.find? (fun p => !(k.units.contains p)) with
      | some p => { k with units := k.units.set i p }
      | none =>
        if double then
          match present.find? (fun p => decide ((k.units.filter (· == p)).length < 2) && p != u) with
          | some p => { k with units := k.units.set i p, under := true }
          | none => k
        else k
    else k
  k.pend.foldl step k

/-- COMMIT_TMO passed for unit `u` (R267): its shards of the chunk go to other units. -/
def State.commitTimeout (s : State) (n h i u : Nat) (present : List Nat) : State :=
  match smFind s.svc.nss n, s.chunkOf n h i with
  | some o, some (c, g) =>
    if c.committed then s
    else
      let c' := c.replace u present (dPol o.desc pDouble)
      let s := s.putChunk n h c'
      match c.placed with
      | none => s
      | some last => (List.range c.units.length).foldl (fun s j =>
          if c.units.getD j 0 = c'.units.getD j 0 then s
          else s.writeShard (s.chunkOut n o h c g last) j (c'.units.getD j 0)) s
  | _, _ => s

/-- A PUT session without a command for SESSION_TMO (R266): its chunks are released. -/
def State.sessionTimeout (s : State) (token : Nat) : State :=
  match s.svc.sess.find? (fun e => e.token == token) with
  | none => s
  | some e =>
    let d := match smFind s.svc.nss e.ns with | some o => chunksCharge o e.chunks | none => 0
    ((s.setSvc { s.svc with sess := s.svc.sess.filter fun y => y.token != token }).setCharge (s.charge - d)).journal

/-- A checkpoint of the index (R275): the journal is truncated once both copies have verified. -/
def State.indexCheckpoint (s : State) (verified : Bool) : State :=
  s.setSvc { s.svc with ckpts := s.svc.ckpts + 1, journal := if verified then 0 else s.svc.journal }

/-! ### GET (R265, R267, R269) -/

/-- What a chunk read gives: its bytes with DEGRADED and the data shard that REPAIRED is reported for, or a status. -/
inductive ChunkRes where
  | good (d : List W8) (degraded : Bool) (repaired : Option Nat)
  | bad (sc : Nat)
  deriving DecidableEq, Repr

/-- The shards of a chunk as the media gives them. -/
def shardBytesRead (sec : Nat → List W8) (k m e i : Nat) (r : ShardIn) : Option (List W8) :=
  if (writtenSectors k e i).isEmpty && decide (i < k) then some []
  else match r with
    | .asWritten => some (shardBytes sec k m e i)
    | .other d => some d
    | _ => none

/-- The sets of R269 after the first: one data shard used left out, and a readable parity shard not in the first set
added. -/
def otherSets (k : Nat) (base : List Nat) (have' : List Nat) : List (List Nat) :=
  let par := have'.filter fun i => decide (k ≤ i) && !(base.contains i)
  (base.filter fun i => decide (i < k)).flatMap fun d => par.map fun p => (base.filter (· != d)) ++ [p]

/-- A committed chunk read from the media (R267, R269); data shards in `slow` come after the others. -/
def readChunk (key : Option (List W8)) (geom : Nat) (v : Ver) (c : Chunk) (reads : List ShardIn) (slow : List Nat) :
    ChunkRes :=
  let (k, m) := geomKM geom
  let n := c.data.length
  let e := extentOf n
  let sec := codedSector key v.handle c.idx v.ns c.data
  let at' := fun i => shardBytesRead sec k m e i (reads.getD i .asWritten)
  let have' := (List.range (k + m)).filter fun i => (at' i).isSome
  if c.lost.isSome then .bad 0x0B
  else if have'.length < k then
    .bad (if (List.range (k + m)).any (fun i => decide (reads.getD i .asWritten = .absent)) then 0x0A else 0x0B)
  else
    let late := fun i => slow.contains i && decide (i < k)
    let base := ((have'.filter fun i => !late i) ++ have'.filter late).take k
    let try' := fun (l : List Nat) => recoverChunk key v.handle c.idx v.ns k m n (l.map fun i => (i, (at' i).getD []))
    let deg := base.any fun i => decide (k ≤ i)
    if sha384 (try' base) = c.digest then .good (try' base) deg none
    else match (otherSets k base have').find? (fun l => decide (sha384 (try' l) = c.digest)) with
      | some l => .good (try' l) deg (base.find? fun i => !(l.contains i))
      | none => .bad 0x0C

/-- A chunk for a GET: an uncommitted one from the buffer (R265). -/
def State.chunkFor (s : State) (o : ObjNs) (v : Ver) (c : Chunk) (reads : List ShardIn) (slow : List Nat) : ChunkRes :=
  if !c.committed then .good c.data false none
  else readChunk (s.nsKey o) (dGeom o.desc) v c reads slow
/-- A shard written again from the rebuilt content, with GEN = 1, to a new location of its unit (R269). -/
def State.repair (s : State) (n : Nat) (o : ObjNs) (v : Ver) (c : Chunk) (i : Nat) : State :=
  s.writeShard (s.chunkOut n o v.handle c 1 (c.placed == some true)) i (c.units.getD i 0)

/-- What a GET of several chunks gives: bytes, DEGRADED, the repairs made (chunk, shard), and the failing chunk with its
status. -/
structure GetRes where
  data : List W8
  degraded : Bool
  repairs : List (Chunk × Nat)
  fail : Option (Nat × Nat)
  deriving DecidableEq, Repr

/-- Bytes of chunks read in turn from `pos` on, `n` bytes in all. -/
def State.getChunks (s : State) (o : ObjNs) (v : Ver) (reads : Nat → List ShardIn) (slow : Nat → List Nat) (pos n : Nat) :
    Nat → GetRes
  | 0 => ⟨[], false, [], none⟩
  | fuel + 1 =>
    if n = 0 then ⟨[], false, [], none⟩
    else
      let i := pos / chunkSize
      match v.chunks.find? (fun c => c.idx == i) with
      | none => ⟨[], false, [], none⟩
      | some c =>
        match s.chunkFor o v c (reads i) (slow i) with
        | .bad sc => ⟨[], false, [], some (i, sc)⟩
        | .good d g r =>
          let part := (d.drop (pos % chunkSize)).take n
          let t := s.getChunks o v reads slow (pos + part.length) (n - part.length) fuel
          ⟨part ++ t.data, g || t.degraded, r.toList.map (fun j => (c, j)) ++ t.repairs, t.fail⟩

/-- A GET with its arguments. -/
def State.gosGetA (s : State) (c : NCmd) (n : Nat) (o : ObjNs) (a : GosArgs) (x : CmdIn) : State :=
  match s.findVer n a with
  | .inr e => s.cmdErr c 7 e 1
  | .inl v =>
    let want := min (if a.length = 0 then v.length - a.offset else a.length) (min (v.length - a.offset) a.dlen)
    let first := a.offset / chunkSize
    let mine := s.svc.slow.filter fun e => e.1 == c.tag
    let slow := fun i => (mine.filter fun e => e.2.1 == i).map (·.2.2)
    let reads := fun i => x.reads.getD (i - first) []
    let used := v.chunks.filter fun k => decide (first ≤ k.idx) && decide (k.idx * chunkSize < a.offset + want)
    if s.bivNoMedia && used.any (fun k => k.committed) then s.cmdErr c 0 0x82 0
    else
      let r := s.getChunks o v reads slow a.offset want (want / chunkSize + 2)
      let s := s.setSvc { s.svc with slow := s.svc.slow.filter fun e => e.1 != c.tag }
      let s := s.emit (.cmdData c.ctrl c.tag r.data)
      let s := r.repairs.foldl (fun s p => s.repair n o v p.1 p.2) s
      match r.fail with
      | some (i, sc) => s.cmdErr c 7 sc 1 i
      | none =>
        let under := used.any fun k => k.under
        s.cmdOk c r.data.length (b2n r.degraded + 2 * b2n under + 4 * b2n (!r.repairs.isEmpty))

/-- GET. -/
def State.gosGet (s : State) (t : Nat) (x : CmdIn) : State :=
  s.gosServe t 0x82 x false fun s c n o a => s.gosGetA c n o a x

/-- A data shard still incomplete SLOW_MS after the others: a parity shard is read as well (R267). -/
def State.getSlow (s : State) (t i j : Nat) : State :=
  match s.cmd? t with
  | some c =>
    if c.posted ∨ c.admin ∨ c.opc ≠ 0x82 ∨ s.svc.slow.contains (t, i, j) then s
    else s.setSvc { s.svc with slow := s.svc.slow ++ [(t, i, j)] }
  | none => s

/-! ### DELETE, STAT, LIST, RETAIN, VERSIONS, FIXITY (R247, R270 to R273, R279) -/

/-- The live versions a DELETE names, or its status. -/
def State.deleteSet (s : State) (n : Nat) (a : GosArgs) : List Ver ⊕ Nat :=
  if a.flags.testBit 0 then
    if a.klen = 0 ∨ 64 < a.klen then .inr 0x03
    else
      let l := (s.keyVers n a.key).filter Ver.live
      if l.isEmpty then .inr 0x01 else .inl l
  else match s.findVer n a with
    | .inr e => .inr e
    | .inl v => .inl [v]

/-- A DELETE with its arguments. -/
def State.gosDeleteA (s : State) (c : NCmd) (n : Nat) (o : ObjNs) (a : GosArgs) (x : CmdIn) : State :=
  match s.deleteSet n a with
  | .inr e => s.cmdErr c 7 e 1
  | .inl l =>
    match s.guarded l with
    | some e => s.cmdErr c 7 e 1
    | none =>
      match s.pickUnits o x.units with
      | none => s.cmdErr c 7 0x09 1
      | some us => ((s.tombAll o l us.1 us.2).journal).cmdOk c l.length 0

/-- DELETE. -/
def State.gosDelete (s : State) (t : Nat) (x : CmdIn) : State :=
  s.gosServe t 0x84 x true fun s c n o a => s.gosDeleteA c n o a x

/-- A STAT with its arguments. -/
def State.gosStatA (s : State) (c : NCmd) (n : Nat) (o : ObjNs) (a : GosArgs) : State :=
  match s.findVer n a with
  | .inr e => s.cmdErr c 7 e 1
  | .inl v =>
    let st := b2n (v.chunks.all fun k => k.committed) + 2 * b2n (v.chunks.any fun k => k.under)
    let d := verFixed o v ++ sliceB (verState v) 0 64 ++ verOdig o v ++ leBytes 8 st ++ List.replicate 72 0
    (s.emit (.cmdData c.ctrl c.tag d)).cmdOk c (v.length % 2 ^ 32) (v.length / 2 ^ 32)

/-- STAT. -/
def State.gosStat (s : State) (t : Nat) (x : CmdIn) : State :=
  s.gosServe t 0x86 x false fun s c n o a => s.gosStatA c n o a

/-- A key inserted into a sorted list without repeats. -/
def insertKey (k : List W8) (l : List (List W8)) : List (List W8) :=
  match l with
  | [] => [k]
  | h :: t => if k = h then l else if keyLt k h then k :: l else h :: insertKey k t

/-- The keys of a namespace with a live version, in order. -/
def State.liveKeys (s : State) (n : Nat) : List (List W8) :=
  ((s.nsVers n).filter Ver.live).foldl (fun l v => insertKey v.key l) []

/-- Entries that fit into `n` bytes, and whether more remain. -/
def fitEntries (n : Nat) (l : List (List W8)) : List W8 × Nat × Bool :=
  match l with
  | [] => ([], 0, false)
  | e :: t => if n < e.length then ([], 0, true) else
      let (b, k, m) := fitEntries (n - e.length) t
      (e ++ b, k + 1, m)

/-- A LIST with its arguments. -/
def State.gosListA (s : State) (c : NCmd) (n : Nat) (a : GosArgs) : State :=
  if 64 < a.klen then s.cmdErr c 7 0x03 1
  else
    let ks := (s.liveKeys n).filter fun k => a.klen == 0 || keyLt a.key k
    let es := ks.map fun k =>
      let e := leBytes 1 k.length ++ [0, 0, 0] ++ leBytes 4 ((s.keyVers n k).filter Ver.live).length ++ k
      padTo ((e.length + 7) / 8 * 8) e
    let (d, cnt, more) := fitEntries a.dlen es
    (s.emit (.cmdData c.ctrl c.tag d)).cmdOk c cnt (b2n more)

/-- LIST. -/
def State.gosList (s : State) (t : Nat) (x : CmdIn) : State :=
  s.gosServe t 0x8A x false fun s c n _ a => s.gosListA c n a

/-- RETAIN (R272). -/
def State.gosRetain (s : State) (t : Nat) (x : CmdIn) : State :=
  s.gosServe t 0x8C x true fun s c n o a =>
    if a.flags.testBit 0 ∧ a.flags.testBit 1 then s.badField c 40
    else match s.findVer n a with
      | .inr e => s.cmdErr c 7 e 1
      | .inl v =>
        if a.flags.testBit 2 ∧ a.retain < v.retain then s.cmdErr c 7 0x08 1
        else match s.pickUnits o x.units with
          | none => s.cmdErr c 7 0x09 1
          | some us =>
            let v' := { v with hold := (v.hold || a.flags.testBit 0) && !(a.flags.testBit 1)
                               retain := if a.flags.testBit 2 then a.retain else v.retain
                               updated := s.rclock, units := us.1, under := us.2 }
            ((s.rewriteMeta o v').journal).cmdOk c 0 0

/-- Versions sorted newest first. -/
def insertVer (v : Ver) (l : List Ver) : List Ver :=
  match l with
  | [] => [v]
  | h :: t => if h.version < v.version then v :: l else h :: insertVer v t

/-- VERSIONS. -/
def State.gosVersions (s : State) (t : Nat) (x : CmdIn) : State :=
  s.gosServe t 0x8E x false fun s c n o a =>
    if a.klen = 0 ∨ 64 < a.klen then s.cmdErr c 7 0x03 1
    else
      let l := (s.keyVers n a.key).foldl (fun l v => insertVer v l) []
      if l.isEmpty then s.cmdErr c 7 0x01 1
      else
        let es := l.map fun v => leBytes 4 v.version ++ leBytes 1 (b2n v.tomb + 2 * b2n v.hold) ++ [0, 0, 0] ++
          leBytes 8 v.handle ++ leBytes 8 v.length ++ leBytes 8 v.created ++ leBytes 8 v.retain ++ leBytes 8 v.deleted ++
          sliceB (verOdig o v) 0 8 ++ List.replicate 8 0
        let (d, cnt, more) := fitEntries a.dlen es
        (s.emit (.cmdData c.ctrl c.tag d)).cmdOk c cnt (b2n more)

/-- The parity of a chunk that DEEP finds wrong: shards whose bytes differ from those recomputed (R270). -/
def badShards (key : Option (List W8)) (geom : Nat) (v : Ver) (c : Chunk) (reads : List ShardIn) : List Nat :=
  let (k, m) := geomKM geom
  let e := extentOf c.data.length
  let sec := codedSector key v.handle c.idx v.ns c.data
  (List.range (k + m)).filter fun i =>
    match shardBytesRead sec k m e i (reads.getD i .asWritten) with
    | some d => decide (d ≠ shardBytes sec k m e i)
    | none => true

/-- One chunk of a FIXITY: nothing when it is good, else its entry (R270, R279), and the shards written again. -/
def State.fixChunk (s : State) (o : ObjNs) (v : Ver) (c : Chunk) (reads : List ShardIn) (deep : Bool) : List W8 × List Nat :=
  let k := (geomKM (dGeom o.desc)).1
  let bad := if c.committed then badShards (s.nsKey o) (dGeom o.desc) v c reads else []
  let bits := bad.foldl (fun a i => a + 2 ^ i) 0
  let ent := fun r => leBytes 4 c.idx ++ leBytes 1 r ++ leBytes 1 bits ++ [0, 0]
  match s.chunkFor o v c reads [] with
  | .bad sc => (ent (if sc = 0x0C then 1 else 4), [])
  | .good _ _ (some i) => (ent 3, [i])
  | .good _ _ none =>
    let par := bad.filter fun i => decide (k ≤ i)
    if deep && !par.isEmpty then (ent 2, par) else ([], [])

/-- FIXITY. -/
def State.gosFixity (s : State) (t : Nat) (x : CmdIn) : State :=
  s.gosServe t 0x92 x false fun s c n o a =>
    match s.findVer n a with
    | .inr e => s.cmdErr c 7 e 1
    | .inl v =>
      let last := if a.length = 0 then v.length else a.offset + a.length
      let sel := v.chunks.filter fun k => decide (a.offset / chunkSize ≤ k.idx) && decide (k.idx * chunkSize < last)
      if s.bivNoMedia && sel.any (fun k => k.committed) then s.cmdErr c 0 0x82 0
      else
        let res := sel.map fun k => (k, s.fixChunk o v k (x.reads.getD (k.idx - a.offset / chunkSize) []) (a.flags.testBit 0))
        let fails := (res.map (·.2.1)).filter fun r => !r.isEmpty
        let s := (res.flatMap fun r => r.2.2.map fun i => (r.1, i)).foldl (fun s p => s.repair n o v p.1 p.2) s
        let whole := sel.length == v.chunks.length
        let od := if !whole then 2 else if fails.any (fun r => leAt r 4 1 == 1 || leAt r 4 1 == 4) then 1 else 0
        let d := (leBytes 4 od ++ fails.flatMap id).take a.dlen
        (s.emit (.cmdData c.ctrl c.tag d)).cmdOk c sel.length fails.length

/-- CAIRN_WALK (R279): `reads` gives for each track the cairn, blank, or unreadable. -/
def State.gosCairnWalk (s : State) (t : Nat) (x : CmdIn) : State :=
  s.gosServe t 0x9A x false fun s c _ _ a =>
    if 256 < a.length then s.badField c 16
    else if s.bivNoMedia then s.cmdErr c 0 0x82 0
    else
      let tr := (x.reads.getD 0 [])
      let es := (List.range a.length).map fun i =>
        let h := fun (st : Nat) => leBytes 4 (a.offset + i) ++ leBytes 1 a.version ++ leBytes 1 st ++ List.replicate 26 0
        match tr.getD i .unreadable with
        | .other d => h 0 ++ padTo 4096 d
        | .absent => h 1
        | _ => h 2
      let (d, cnt, _) := fitEntries a.dlen es
      (s.emit (.cmdData c.ctrl c.tag d)).cmdOk c cnt 0

/-! ### Key Value commands (R282) -/

/-- The status of a Key Value command's key and value size, if it is refused: keys of 1 to 16 bytes. -/
def kvRefuse (c : NCmd) (value : Bool) : Option (Nat × Nat) :=
  if c.dw 11 % 256 = 0 ∨ 16 < c.dw 11 % 256 then some (7, 0x03)
  else if value && decide (33554432 < c.dw 10) then some (0, 0x02)
  else none

/-- That refusal: the bad field is the value size in CDW10 (R313). -/
def State.kvErr (s : State) (c : NCmd) (e : Nat × Nat) : State := s.cmdErr c e.1 e.2 1 0 0 (if e.1 = 0 then 40 else 0)

/-- Store. -/
def State.kvStore (s : State) (t : Nat) (x : CmdIn) : State :=
  s.kvServe t 0x01 x true fun s c n o =>
    match kvRefuse c true with
    | some e => s.kvErr c e
    | none => s.gosPutA c n o (kvArgs c 3 0) x
/-- Retrieve. -/
def State.kvRetrieve (s : State) (t : Nat) (x : CmdIn) : State :=
  s.kvServe t 0x02 x false fun s c n o =>
    match kvRefuse c false with
    | some e => s.kvErr c e
    | none => s.gosGetA c n o { kvArgs c 0 0 with length := 0 } x
/-- Delete. -/
def State.kvDelete (s : State) (t : Nat) (x : CmdIn) : State :=
  s.kvServe t 0x10 x true fun s c n o =>
    match kvRefuse c false with
    | some e => s.kvErr c e
    | none => s.gosDeleteA c n o (kvArgs c 0 0) x
/-- Exist. -/
def State.kvExist (s : State) (t : Nat) (x : CmdIn) : State :=
  s.kvServe t 0x14 x false fun s c n o =>
    match kvRefuse c false with
    | some e => s.kvErr c e
    | none => s.gosStatA c n o (kvArgs c 0 0)
/-- List. -/
def State.kvList (s : State) (t : Nat) (x : CmdIn) : State :=
  s.kvServe t 0x06 x false fun s c n _ => if 16 < c.dw 11 % 256 then s.cmdErr c 7 0x03 1 else s.gosListA c n (kvArgs c 0 0)

/-! ### Export (R283 to R286) -/

/-- A frame of the stream (R285). -/
def frame (type num : Nat) (payload : List W8) : List W8 :=
  leBytes 1 type ++ [0, 0, 0] ++ leBytes 4 num ++ leBytes 8 payload.length ++ padTo ((payload.length + 7) / 8 * 8) payload

/-- The HEAD payload. -/
def expHead (e : Export) (o : ObjNs) : List W8 :=
  [0x47, 0x4F, 0x53, 0x58, 1, 0] ++ leBytes 1 e.ns ++ [0] ++ leBytes 8 e.token ++ leBytes 8 Config.serial.toNat ++
    leBytes 8 e.start ++ sliceB o.desc 24 32

/-- The ENTRY payload of a version. -/
def expEntry (o : ObjNs) (v : Ver) : List W8 :=
  leBytes 1 v.key.length ++ leBytes 1 (b2n v.tomb + 2 * b2n v.hold) ++ leBytes 1 (dGeom o.desc) ++ [0] ++
    leBytes 4 v.version ++ leBytes 8 v.handle ++ leBytes 8 v.length ++ leBytes 8 v.created ++ leBytes 8 v.retain ++
    verOdig o v ++ leBytes 4 v.chunks.length ++ leBytes 4 v.user.length ++ v.key

/-- Object bytes cut into DATA payloads. -/
def dataCuts (l : List W8) : Nat → List (List W8)
  | 0 => []
  | fuel + 1 => match l with
    | [] => []
    | _ => l.take 33554432 :: dataCuts (l.drop 33554432) fuel

/-- The frames of one version: OBJECT, DATA frames, ENTRY. -/
def verFrames (o : ObjNs) (v : Ver) : List (Nat × List W8) :=
  let b := (v.chunks.flatMap (·.data)).take v.length
  (2, verRecord o v) :: ((dataCuts b (b.length / 33554432 + 1)).map fun d => (3, d)) ++ [(4, expEntry o v)]

/-- The versions an export covers, in its order. -/
def State.expVers (s : State) (e : Export) : List Ver :=
  e.vers.filterMap fun h => s.svc.vers.find? fun v => v.ns == e.ns && v.handle == h

/-- The stream before the trailer, and its number of frames. -/
def State.expBody (s : State) (e : Export) (o : ObjNs) : List W8 × Nat :=
  let fs := (1, expHead e o) :: (s.expVers e).flatMap fun v => verFrames o v
  ((fs.mapIdx fun i f => frame f.1 i f.2).flatMap id, fs.length)

/-- The trailer payload (R285, R286): `sig` is the key identifier and both signatures. -/
def State.expTrailer (s : State) (e : Export) (o : ObjNs) (sig : List W8) : List W8 :=
  let vs := s.expVers e
  let total := (vs.map (·.length)).foldl (· + ·) 0
  [0x47, 0x4F, 0x53, 0x54, 1, 0, 0, 0] ++ leBytes 8 e.token ++ leBytes 8 vs.length ++ leBytes 8 total ++
    leBytes 8 s.rclock ++ sha384 (expHead e o ++ vs.flatMap fun v => expEntry o v) ++ sliceB sig 0 8 ++
    List.replicate 32 0 ++ sliceB sig 8 16608

/-- Versions in key order and then ascending version order (R283). -/
def insertExp (v : Ver) (l : List Ver) : List Ver :=
  match l with
  | [] => [v]
  | h :: t => if keyLt v.key h.key || (v.key == h.key && decide (v.version < h.version)) then v :: l else h :: insertExp v t

/-- EXPORT with FLAGS 0. -/
def State.exportOpen (s : State) (t : Nat) (x : CmdIn) : State :=
  s.gosServe t 0x96 x false fun s c n _ a =>
    if a.flags % 4 ≠ 0 then s
    else if s.svc.export_.isSome then s.cmdErr c 7 0x12 1
    else
      let vs := ((s.nsVers n).filter Ver.live).foldl (fun l v => insertExp v l) []
      let e : Export := ⟨s.svc.nextToken, n, s.rclock, vs.map (·.handle), 0, [], s.now⟩
      (s.setSvc { s.svc with export_ := some e, nextToken := s.svc.nextToken + 1 }).cmdOk c e.token 0

/-- EXPORT with FLAGS 1. -/
def State.exportRead (s : State) (t : Nat) (x : CmdIn) : State :=
  s.gosServe t 0x96 x false fun s c n o a =>
    if a.flags % 4 ≠ 1 then s
    else if a.dlen % 8 ≠ 0 then s.badField c 48
    else match s.svc.export_ with
      | none => s.cmdErr c 7 0x0D 1
      | some e =>
        if e.token ≠ a.session ∨ e.ns ≠ n then s.cmdErr c 7 0x0D 1
        else
          let (body, k) := s.expBody e o
          let e := if e.trailer.isEmpty ∧ body.length < e.sent + a.dlen then
              { e with trailer := frame 5 k (s.expTrailer e o x.data) }
            else e
          let all := body ++ e.trailer
          let d := (all.drop e.sent).take a.dlen
          let last := !e.trailer.isEmpty && decide (all.length ≤ e.sent + d.length)
          let s := s.setSvc { s.svc with export_ := some { e with sent := e.sent + d.length, last := s.now } }
          (s.emit (.cmdData c.ctrl c.tag d)).cmdOk c d.length (b2n last)

/-- EXPORT with FLAGS 2. -/
def State.exportClose (s : State) (t : Nat) (x : CmdIn) : State :=
  s.gosServe t 0x96 x false fun s c n _ a =>
    if a.flags % 4 ≠ 2 then s
    else match s.svc.export_ with
      | none => s.cmdErr c 7 0x0D 1
      | some e =>
        if e.token ≠ a.session ∨ e.ns ≠ n then s.cmdErr c 7 0x0D 1
        else (s.setSvc { s.svc with export_ := none }).cmdOk c 0 0

/-- 10 min without a READ end the session. -/
def State.exportTimeout (s : State) : State := s.setSvc { s.svc with export_ := none }

/-! ### Index assist and the retention clock (R271, R287) -/

/-- GO written: the search starts; DONE clears. -/
def State.idxGo (s : State) (c : Nat) (v : W32) : State :=
  if tb v 0 then (s.orReg (Reg.OBJ_IDX_CTRL c) (bit 0)).clrReg (Reg.OBJ_IDX_RESULT c) (bit 31) else s

/-- A 72-byte key record: its key, or none when KLEN is 0 or above 64. -/
def idxKey (r : List W8) : Option (List W8) :=
  let n := leAt r 0 1
  if n = 0 ∨ 64 < n then none else some (sliceB r 8 n)

/-- The binary search of R287: the lower bound, or none on a bad slot. An uncorrectable node reads as an error. -/
def State.idxLoop (s : State) (node : Nat) (key : List W8) (lo hi : Nat) : Nat → Option Nat × State
  | 0 => (some lo, s)
  | fuel + 1 =>
    if lo < hi then
      let mid := (lo + hi) / 2
      let (r, ue, s) := s.memRead (node + 64 + 96 * mid) 72
      match if ue then none else idxKey r with
      | none => (none, s)
      | some k => if keyLt key k then s.idxLoop node key lo mid fuel else s.idxLoop node key (mid + 1) hi fuel
    else (some lo, s)

/-- The search ends with its result (R287). -/
def State.idxDone (s : State) (c : Nat) : State :=
  if !(s.rbit (Reg.OBJ_IDX_CTRL c) 0) then s
  else
    let node := s.reg64 (Reg.OBJ_IDX_NODE_LO c) / 4096 * 4096
    let (kr, ue1, s) := s.memRead (s.reg64 (Reg.OBJ_IDX_KEY_LO c) / 8 * 8) 72
    let (cn, ue2, s) := s.memNat node 2
    let fin := fun (s : State) (found err : Bool) (slot : Nat) =>
      let s := s.setReg (Reg.OBJ_IDX_RESULT c) (BitVec.ofNat 32 (2 ^ 31 + 2 ^ 30 * b2n found + 2 ^ 29 * b2n err + slot))
      let s := (s.clrReg (Reg.OBJ_IDX_CTRL c) (bit 0)).orReg Reg.OBJ_STATUS (bit 4)
      if err then s.orReg Reg.OBJ_STATUS (bit 5) else s
    match if ue1 || ue2 || decide (42 < cn) then none else idxKey kr with
    | none => fin s false true 0
    | some key =>
      match s.idxLoop node key 0 cn 7 with
      | (none, s) => fin s false true 0
      | (some lo, s) =>
        if lo = 0 then fin s false false 0x3F
        else
          let (r, _, s) := s.memRead (node + 64 + 96 * (lo - 1)) 72
          fin s (decide (idxKey r = some key)) false (lo - 1)

/-- OBJ_RCLOCK_HI written with the agent's pending low half: it takes effect only when it raises the clock (R25, R271). -/
def State.rclockWrite (s : State) (ag : Agent) (v : W32) : State :=
  let (lo, s) := s.takeLo ag Reg.OBJ_RCLOCK_LO
  s.rclockRaise (lo.toNat + 2 ^ 32 * v.toNat)

/-- The retention clock advances with the real-time clock. -/
def State.rclockTick (s : State) : State := s.setReg64 Reg.OBJ_RCLOCK_LO (min (s.rclock + 1) (2 ^ 64 - 1))

end Sys2Proof.Machine
end

