-- ==== Sys2Proof/Machine/Power.lean ====
section
/-! DEFINITION. Power states, clocks, resets, the watchdog, temperatures, throttling and the trip (R416 to R447), with the
last words of R504 and what Ranger does at a start (R451 to R453, R467, R473). -/

namespace Sys2Proof.Machine

/-- The power part changed. -/
def State.setPwr (s : State) (x : Pwr) : State := { s with pwr := x }

/-! ### Last words (R504) -/

/-- Offset of the last-words log in the SRAM region. -/
def lwBase : Nat := 0x500000

/-- The first 32 bytes of the newest stored record that is neither an anchor nor a pad. -/
def State.newestRec (s : State) : List W8 :=
  match s.records.reverse.find? fun o => !(s.isMark o) with
  | some o => padTo 32 (s.ringBytes o (min 32 (s.recLen o)))
  | none => List.replicate 32 0

/-- A last-words record of a cause: 1 trip, 2 watchdog, 3 PWR_GOOD fall, 4 Kindling failure. -/
def State.lastWords (s : State) (cause : Nat) : State :=
  let r := recHeader 8 7 1 (0x100 + cause) 0 0 ++ leBytes 8 s.rtc ++ leBytes 1 s.pwr.st ++
    leBytes 2 (natOfInt s.pwr.die 16) ++ List.replicate 5 0 ++ leBytes 8 (s.evtUs % 2 ^ 48) ++ s.newestRec
  let n := s.fld Reg.EMB_LW 0 5
  let s := s.sramFill (lwBase + 64 * n) r
  (s.setFld Reg.EMB_LW 0 5 ((n + 1) % 32)).incFld Reg.EMB_LW 8 8

/-! ### What a reset leaves (R428, R429, R503) -/

/-- The columns of R429 that reach the engines. -/
inductive Scope where
  | por | kindling | full | core
  deriving DecidableEq, Repr

/-- The core lost its supply: POR_N and Kindling. -/
def Scope.cold : Scope → Bool
  | .por | .kindling => true
  | .full | .core => false

/-- The registers of R503. -/
def evtKept (off : Nat) : Bool :=
  off == Reg.EVT_WR || off == Reg.EVT_CKPT || (decide (0x0D0100 ≤ off) && decide (off < 0x0D0140)) ||
    (decide (0x0D1000 ≤ off) && decide (off < 0x0D1800))

/-- The RWS bits of a register. -/
def rwsMask (off : Nat) : W32 :=
  match regRow? off with
  | some r => BitVec.ofNat 32 r.rws
  | none => 0

/-- What a register that holds `v` holds after a reset. -/
def regAfter (sc : Scope) (off : Nat) (v : W32) : W32 :=
  let rst := regResetVal off
  if off / 0x10000 = 1 then
    (if sc ≠ .por then v
     else if off = Reg.EMB_TRIP then (v &&& 0x800000FF) ||| bit 30
     else if off = Reg.EMB_CLK then v &&& 1
     else rst)
  else if off = Reg.SYS_STRAP then v
  else if sc.cold then rst
  else if sc = .core ∧ off / 0x10000 = 4 then v
  else if evtKept off then v
  else (v &&& rwsMask off) ||| (rst &&& ~~~ rwsMask off)

/-- The register table after a reset. -/
def regsAfter (sc : Scope) (m : SMap W32) : SMap W32 :=
  m.filterMap fun e => if regAfter sc e.1 e.2 = regResetVal e.1 then none else some (e.1, regAfter sc e.1 e.2)

/-- SYS_ROLE at the release: the strap gives the role, a Basecamp has position 0, and an Outpost keeps its position at a
cascade CORE reset only (R12, R20, R378, R514). -/
def roleAfter (sc : Scope) (strap old : W32) : W32 :=
  if tb strap 4 then bit 2 ||| bit 3
  else if sc = .core then old &&& 0xB
  else 0

/-- SRAM cells that a reset keeps: the ring at the third and fourth columns, the last-words log at all but POR_N. -/
def sramKeeps (sc : Scope) (off : Nat) : Bool :=
  (!sc.cold && decide (ringBase ≤ off) && decide (off < ringBase + ringSize)) ||
    (sc ≠ .por && decide (lwBase ≤ off) && decide (off < lwBase + 0x800))

/-- Every dirty line is written to DRAM and the cache is empty (R421, R430); fills under way end first. -/
def State.cleanCache (s : State) : State :=
  let s := (List.range 8).foldl (fun s b => s.fillDone b) s
  let s := s.mem.wb.foldl (fun s e => s.writeWords e.words) s
  let dirty := (s.mem.lines.filter fun e => e.2.dirty).map (·.1) ++ (s.mem.vict.filter fun e => e.2).map (·.1)
  let s := s.writeWords (s.mem.cw.filter fun e => dirty.contains (e.1 / 8))
  { s with mem := { s.mem with lines := [], cw := [], vict := [], wb := [], miss := [], hold := [] } }

/-- DRAM, SRAM and cache after a reset: DRAM is lost, or kept in self-refresh behind the cleaned cache. -/
def State.memAfter (s : State) (sc : Scope) : Mem :=
  let m := if sc.cold then s.mem else s.cleanCache.mem
  let base := { Mem.reset with
    sram := m.sram.filter fun e => sramKeeps sc e.1
    sramSyn := m.sramSyn.filter fun e => sramKeeps sc (8 * e.1) }
  if sc.cold then base
  else { base with dram := m.dram, dramSyn := m.dramSyn, prot := m.prot, selfRef := true }

/-- One port of the endpoint after a reset: the pin's level stays, and late completions are discarded silently (R343). -/
def hifAfter (sc : Scope) (p : HifP) : HifP :=
  { HifP.reset with perst := p.perst, silent := if sc.cold then [] else p.silent ++ p.reqs.map (·.tag) }

/-- A wipe as it was last recorded: at each 1/256 of its progress (R317, R318). -/
def Wipe.recorded (w : Wipe) : Wipe :=
  if w.total = 0 then w else { w with done := (256 * w.done / w.total * w.total + 255) / 256 }

/-- Services of the firmware after a reset of the engines: what is stored stays, what lives in threads and SRAM is gone. -/
def svcAfter (v : Svc) : Svc :=
  { v with index := false, ready := false, dir := false, vol := [], export_ := none, slow := []
           sanitize := v.sanitize.map Wipe.recorded, format := v.format.map Wipe.recorded }

/-- Ranger's state after a reset that reaches SEC: OTP stays, and a RETURN cut short is completed (R453, R467). -/
def secAfter (x : Sec) : Sec :=
  let lc := if x.custKill then 3 else x.lc
  { Sec.reset with
    lc := lc, vrevoke := x.vrevoke, ckeyImg := x.ckeyImg, ckeyTok := x.ckeyTok, ckeyEsc := x.ckeyEsc, minSvn := x.minSvn
    epochs := x.epochs, custKill := x.custKill, tap := x.tap
    exportPair := if lc = 1 ∧ x.exportPair = 0 then 1 else x.exportPair }

/-- Firmware update after a reset of the engines: NOR stays, everything under way is gone (R483). -/
def fwAfter (x : Fw) : Fw := { Fw.reset with nor := x.nor, inForce := x.inForce }

/-- The power part after a reset that reaches SYS and THM. -/
def pwrAfter (x : Pwr) : Pwr :=
  { Pwr.reset with pwrEn := x.pwrEn, por := x.por, due := x.due, retry := x.retry, fromPor := x.fromPor, tries := x.tries
                   viaTrip := x.viaTrip, ds7Broken := x.ds7Broken, cool := x.cool, heldS := x.heldS, st := x.st }

/-- Every block that a reset of column `sc` reaches takes its reset state (R429). -/
def State.wipe (s : State) (sc : Scope) : State :=
  { s with
    regs := smPut regResetVal (regsAfter sc s.regs) Reg.SYS_ROLE (roleAfter sc (s.reg Reg.SYS_STRAP) (s.reg Reg.SYS_ROLE))
    active := []
    pairHold := []
    pairPend := []
    thrs := [(160, { Thread.reset with pc := 0x010000280000 })]
    campQ := []
    heldMsgs := []
    evSeen := ⟨[], []⟩
    rot := []
    ic := []
    divFree := []
    ucs := Ucs.reset
    mem := s.memAfter sc
    evt := { Evt.reset with base := s.now, used := if sc.cold then 0 else s.evt.used }
    med0 := Med.reset
    med1 := Med.reset
    dch := []
    sha := []
    gctx := []
    gact0 := GAct.reset
    gact1 := GAct.reset
    gylQ := []
    gylRun := none
    sec := secAfter s.sec
    fw := fwAfter s.fw
    spn := Spn.reset
    hif0 := hifAfter sc s.hif0
    hif1 := hifAfter sc s.hif1
    nvq := Nvq.reset
    gs := { Gs.reset with img0 := s.gs.img0, img1 := s.gs.img1 }
    svc := svcAfter s.svc
    csc := if sc = .core then s.csc else Csc.reset
    dmaRemote := []
    dmaLast := 31
    ptl := { Ptl.reset with start := s.now }
    pwr := pwrAfter s.pwr
    timeBase := s.now }

/-- Every run bit is 0. -/
def State.haltAll (s : State) : State := (List.range 6).foldl (fun s c => s.setReg (Reg.SYS_CAMP_RUN c) 0) s

/-- Fused lifecycle state as SEC_LC.STATE codes it. -/
def State.rightsNow (s : State) : Nat :=
  let perm := s.fld Reg.SEC_LC 8 8
  if s.fld Reg.SEC_LC 0 2 = 0 then perm ||| 0x0F else perm

/-- Ranger at a start: SEC_LC, SEC_SVN and a new nonce before any engine fetches, and the identity check (R451, R467). -/
def State.secStart (s : State) (identOk : Bool) : State :=
  let x := s.sec
  let prov := x.ckeyImg.isSome && x.ckeyTok.isSome
  let s := s.setReg Reg.SEC_LC (BitVec.ofNat 32 (x.lc + 32 * b2n x.custKill + 64 * b2n prov + (if x.lc = 0 then 0xF00 else 0)))
  let s := s.setReg Reg.SEC_SVN (BitVec.ofNat 32 x.minSvn)
  let s := (List.range 8).foldl (fun s i =>
    let (n, s) := s.freeAny
    s.setReg (Reg.SEC_NONCE i) (BitVec.ofNat 32 n)) s
  if identOk then s
  else ((s.orReg Reg.SEC_STATUS (bit 3)).setZState 0 5).setZState 1 5

/-- The release of a reset: SYS_RST_CAUSE takes the causes, and HE40 t0 starts (R11, R425, R429, R430). -/
def State.release (s : State) (causes : W32) (identOk : Bool) : State :=
  let s := s.setReg Reg.SYS_RST_CAUSE causes
  ({ s with evt := { s.evt with cause := causes } }).secStart identOk

/-! ### Ember, trips and Kindling -/

/-- PWR_EN changes. -/
def State.setPwrEn (s : State) (b : Bool) : State :=
  if s.pwr.pwrEn = b then s else (s.setPwr { s.pwr with pwrEn := b }).emit (.pwrEn b)

/-- The part is in Ember: the core has lost its supply (R419, R428). -/
def State.toEmber (s : State) (viaTrip : Bool) : State :=
  let s := s.setPwr { s.pwr with st := 3, viaTrip := viaTrip, due := false, retry := false, tries := 0 }
  ((s.wipe .kindling).haltAll).setPwrEn false

/-- The trip hold is set. -/
def State.tripHeld (s : State) : Bool := s.rbit Reg.EMB_TRIP 31

/-- Kindling begins if one is due and no trip hold prevents it (R425, R446, R447). -/
def State.kindle (s : State) : State :=
  if s.pwr.st = 3 ∧ s.pwr.due ∧ !s.pwr.por ∧ !s.tripHeld then
    (s.setPwr { s.pwr with due := false, tries := if s.pwr.retry then s.pwr.tries else 0, retry := false }).setPwrEn true
  else s

/-- PWR_GOOD rises and Kindling runs to its end (R425); what POR_N alone reaches was reset when it was asserted. -/
def State.kindled (s : State) (identOk : Bool) : State :=
  if s.pwr.st = 3 ∧ s.pwr.pwrEn then
    let causes := (if s.pwr.fromPor then bit 0 else bit 1) ||| (if s.pwr.viaTrip then bit 7 else 0)
    let s := s.wipe .kindling
    let s := s.setPwr { s.pwr with st := 0, fromPor := false, viaTrip := false, tries := 0 }
    s.release causes identOk
  else s

/-- The wake enables of R422 admit a source. -/
def State.wakeOn (s : State) (src : Nat) : Bool := decide (7 ≤ src) || s.rbit Reg.EMB_WAKE_EN src

/-- Every way of leaving Kindled: DRAM leaves self-refresh, and the threads go on (R421). -/
def State.leaveKindled (s : State) : State :=
  let s := s.setPwr { s.pwr with st := 0, target := none, next := none }
  let s := { s with mem := { s.mem with selfRef := false } }
  ((s.setFld Reg.SYS_PWR 8 2 0).setFld Reg.SYS_PWR 0 2 0).orReg Reg.SYS_STATUS (bit 0)

/-- A wake source (R422): bits 0 to 6 of EMB_WAKE_EN, 7 trip restart, 8 PFAIL_N, 9 a thread's WAIT, 10 a PCIe link. -/
def State.wakeBy (s : State) (src : Nat) : State :=
  if !s.wakeOn src then s
  else if s.pwr.st = 2 ∧ src ≠ 7 then
    ((s.leaveKindled).setReg Reg.EMB_WAKE_SRC (bit src)).orReg Reg.EMB_STATUS (bit 2)
  else if s.pwr.st = 3 ∧ src < 8 ∧ !s.tripHeld ∧ !s.pwr.por ∧ !s.pwr.pwrEn then
    let s := (s.setReg Reg.EMB_WAKE_SRC (bit src)).orReg Reg.EMB_STATUS (bit 2)
    s.setPwr { s.pwr with due := true, retry := false, tries := 0 }
  else s

/-- PWR_GOOD has not risen in time (R426). -/
def State.kindleTimeout (s : State) : State :=
  if s.pwr.st = 3 ∧ s.pwr.pwrEn then
    let s := (s.setPwrEn false).lastWords 4
    let n := s.pwr.tries + 1
    if 3 ≤ n then (s.setPwr { s.pwr with tries := 0, due := false, retry := false }).orReg Reg.EMB_STATUS (bit 4)
    else s.setPwr { s.pwr with tries := n, retry := true }
  else s

/-- Ember tries again (R426). -/
def State.kindleRetry (s : State) : State :=
  if s.pwr.retry then (s.setPwr { s.pwr with due := true }).kindle else s

/-- PWR_GOOD falls while the core is powered (R427). -/
def State.powerGoodFall (s : State) : State := if s.pwr.st < 3 then (s.lastWords 3).toEmber s.pwr.trip else s

/-- POR_N is asserted: every block at once, the trip hold apart (R429, R431, R447). -/
def State.porAssert (s : State) : State :=
  let s := s.setPwr { s.pwr with st := 3, por := true, fromPor := true, due := false, retry := false, tries := 0 }
  ((s.wipe .por).haltAll).setPwrEn false

/-- POR_N is released with these straps: they are latched and Kindling is due (R20, R425, R447). -/
def State.porRelease (s : State) (straps : BitVec 5) : State :=
  if s.pwr.por then
    let s := s.setReg Reg.SYS_STRAP (straps.setWidth 32)
    let s := s.setReg Reg.SYS_ROLE (roleAfter .por (s.reg Reg.SYS_STRAP) 0)
    (s.setPwr { s.pwr with por := false, due := true }).kindle
  else s

/-- VDD_EMB comes up: everything in Ember starts afresh, and the part waits for the release of POR_N (R416, R418, R429). -/
def State.emberUp (s : State) : State :=
  let s := if s.tripHeld then s.porAssert.emit (.thermTrip false) else s.porAssert
  let s := { s with regs := s.regs.filter fun e => e.1 / 0x10000 != 1 }
  s.setPwr { s.pwr with viaTrip := false, ds7Broken := false, cool := 0, heldS := 0 }

/-! ### The thermal trip (R444 to R446) -/

/-- An actuator retracts unless it is parked. -/
def State.retractUnlessParked (s : State) (a : Nat) : State :=
  if s.rbit (Reg.GYL_ACT_QUAL a) 7 ∨ s.retracting a then s else s.retract a

/-- A dump at a reset or a trip: only with an armed area and a charge (R430, R445). -/
def State.dumpIfCharged (s : State) : State :=
  if s.rbit Reg.NVI_GS_STATE 0 ∧ s.charge ≠ 0 ∧ s.gs.dump.isNone then s.dumpStart false else s

/-- NVQ stops fetching. -/
def State.nvqStop (s : State) : State := if s.isBase then { s with nvq := { s.nvq with stopped := true } } else s

/-- Steps 1 to 3 of R445. -/
def State.tripStart (s : State) : State :=
  let s := ((s.orReg Reg.EMB_TRIP (bit 31)).incFld Reg.EMB_TRIP 0 8).emit (.thermTrip true)
  let s := s.setPwr { s.pwr with trip := true, tripDue := false, rst := none, target := none, next := none, cool := 0, heldS := 0
                                 ds7Broken := s.rbit (Reg.THM_CH 7) 30 }
  let s := ((s.haltAll).wrCut 0).wrCut 1
  let s := (s.setGate 0 false).setGate 1 false
  let s := if s.isBase ∧ s.spSt ≠ spOFF ∧ s.spSt ≠ spFAULT then s.enterCoast else s
  (((s.retractUnlessParked 0).retractUnlessParked 1).dumpIfCharged).nvqStop

/-- Steps 4 and 5 of R445: at the limit, a dump that runs is abandoned. -/
def State.tripEnd (s : State) (limit : Bool) : State :=
  if s.pwr.trip ∧ (limit ∨ (s.gs.dump.isNone ∧ !s.retracting 0 ∧ !s.retracting 1)) then
    let s := s.dumpAbandon
    ((s.lastWords 1).toEmber true)
  else s

/-- A thermal trip (R444, R445): it starts when it is due, and ends once nothing is left to wait for. -/
def State.thermalTrip (s : State) (limit : Bool) : State :=
  if s.pwr.st = 3 then s
  else if s.pwr.trip then s.tripEnd limit
  else if s.pwr.tripDue then (s.tripStart).tripEnd limit
  else s

/-- DS7 conversions below 110 °C that make 10 s, and 10.31 s on the RC oscillator (R446). -/
def State.coolNeed (s : State) : Nat := if s.rbit Reg.EMB_CLK 0 then 104 else 100

/-- A DS7 conversion in Ember, in 1/16 °C. -/
def State.ds7 (s : State) (v : Int) : State :=
  if s.pwr.st = 3 ∧ s.tripHeld then s.setPwr { s.pwr with cool := if v < 110 * 16 then s.pwr.cool + 1 else 0 } else s

/-- Restart is permitted (R446). -/
def State.tripRestart (s : State) : State :=
  if s.pwr.st = 3 ∧ s.tripHeld ∧ (if s.pwr.ds7Broken then 300 ≤ s.pwr.heldS else s.coolNeed ≤ s.pwr.cool) then
    let s := ((s.clrReg Reg.EMB_TRIP (bit 31)).orReg Reg.EMB_STATUS (bit 3)).emit (.thermTrip false)
    (if s.rbit Reg.EMB_TRIP 30 then s.wakeBy 7 else s).kindle
  else s

/-! ### Resets of R430 -/

/-- A reset is requested: steps 1 and 2, or the merge of R431. -/
def State.resetRequest (s : State) (full : Bool) (cause : Nat) (sb : Bool) : State :=
  if s.pwr.st = 3 ∨ s.pwr.trip then s
  else match s.pwr.rst with
    | some r => s.setPwr { s.pwr with rst := some { r with full := r.full || full, causes := r.causes ||| bit cause
                                                           sb := r.sb || sb } }
    | none =>
      let running := s.gs.dump.isSome
      let s := (s.haltAll).nvqStop
      let s := ((s.retractUnlessParked 0).retractUnlessParked 1).dumpIfCharged
      s.setPwr { s.pwr with rst := some ⟨full, bit cause, running, !running && s.gs.dump.isSome, sb⟩, target := none
                            next := none }

/-- The sequence reaches its end (R430): `limit` says that 1.0 s and RET_TMO have passed, `high` that the sideband line has
been high for 1 ms. -/
def State.resetRelease (s : State) (limit high identOk : Bool) : State :=
  match s.pwr.rst with
  | none => s
  | some r =>
    if s.gs.dump.isSome ∧ (r.oldDump ∨ !limit) then s
    else if !limit ∧ (s.retracting 0 ∨ s.retracting 1) then s
    else if r.sb ∧ !high then s
    else
      let s := s.dumpAbandon
      let st := if s.pwr.st = 2 then 0 else s.pwr.st
      let s := (s.setPwr { s.pwr with st := st }).wipe (if r.full then .full else .core)
      let s := s.setPwr { s.pwr with st := 0 }
      s.release r.causes identOk

/-- A write of SYS_RST_CTRL. -/
def State.rstCtrlWrite (s : State) (v : W32) : State :=
  if getF v 16 16 = 0xA5C3 ∧ tb v 0 then s.resetRequest true 2 false else s

/-! ### The watchdog (R432) -/

/-- A write of SYS_WDOG. -/
def State.wdogWrite (s : State) (v : W32) : State :=
  if s.rbit Reg.SYS_WDOG 31 then s
  else s.setReg Reg.SYS_WDOG (BitVec.ofNat 32 (getF v 0 16) ||| (v &&& bit 31))

/-- A write of SYS_WDOG_KICK. -/
def State.wdogKick (s : State) (v : W32) : State :=
  if getF v 0 16 = 0x4B43 then s.clrReg Reg.SYS_WDOG (bit 30) else s

/-- The watchdog's count ends; it does not count while a thread is debug-halted, which in Kindled none is (R465, R475). -/
def State.wdogExpiry (s : State) : State :=
  if !(s.rbit Reg.SYS_WDOG 31) ∨ (s.pwr.st < 2 ∧ s.thrs.any (fun e => e.2.dbg)) then s
  else if s.rbit Reg.SYS_WDOG 30 then (s.lastWords 2).resetRequest true 3 false
  else (s.orReg Reg.SYS_WDOG (bit 30)).orReg Reg.SYS_STATUS (bit 2)

/-! ### Power states (R420, R421, R423) -/

/-- The conditions of R420 with their codes, and the states they are needed for. -/
def State.pwrConds (s : State) : List (Nat × Bool × Bool) :=
  let link := fun n => s.rbit (Reg.HIF_PORT_LINK n) 31
  let l12 := fun n => !(link n) || s.fld (Reg.HIF_PORT_LINK n) 23 2 == 3
  [(0x1, true, !(s.rbit (Reg.MCA_CTRL 0) 0) && !(s.rbit (Reg.MCA_CTRL 1) 0)),
   (0x2, true, (s.rbit (Reg.GYL_ACT_QUAL 0) 7 && s.rbit (Reg.GYL_ACT_QUAL 1) 7) || !(s.rbit Reg.GYL_CTRL 0)),
   (0x3, false, !s.isBase || [spOFF, spCOAST, spFAULT].contains s.spSt),
   (0x4, false, (List.range 32).all fun c => [0, 3, 4].contains (s.fld (Reg.DMA_CH_STATE c) 0 3)),
   (0x5, false, !s.isBase || s.nvq.cmds.isEmpty),
   (0x6, false, !s.isBase || (l12 0 && l12 1)),
   (0x7, false, !(s.rbit Reg.CSC_CTRL 1) && !(s.rbit Reg.CSC_CTRL 2)),
   (0x8, false, s.gs.dump.isNone && s.gs.prep.isNone && !s.gs.restore && s.ucs.load.isNone),
   (0x9, false, s.charge == 0),
   (0xA, false, !s.isBase || (!(link 0) && !(link 1)))]

/-- The condition of a code is needed for a target state. -/
def condNeeded (code tgt : Nat) (spun : Bool) : Bool :=
  if tgt = 1 then spun
  else if tgt = 2 then decide (code ≤ 8)
  else if tgt = 3 then code != 6
  else false

/-- The code of the first failed condition. -/
def State.pwrFail (s : State) (tgt : Nat) : Option Nat :=
  (s.pwrConds.find? fun c => condNeeded c.1 tgt c.2.1 && !c.2.2).map (·.1)

/-- A request is refused or abandoned. -/
def State.pwrRefuse (s : State) (code : Nat) : State :=
  let s := s.setPwr { s.pwr with target := none }
  ((s.setFld Reg.SYS_PWR 0 2 s.pwr.st).setFld Reg.SYS_PWR 12 4 code).orReg Reg.SYS_STATUS (bit 1)

/-- The part reaches Active or Spun, or Kindled. -/
def State.pwrReach (s : State) (st : Nat) : State :=
  let s := s.setPwr { s.pwr with st := st, target := none }
  ((s.setFld Reg.SYS_PWR 8 2 st).setFld Reg.SYS_PWR 0 2 st).orReg Reg.SYS_STATUS (bit 0)

/-- A request for state `r` when no transition runs: the first check (R420). Only a wake source leads from Kindled to Active
(R421). -/
def State.pwrStart (s : State) (r : Nat) : State :=
  if r = s.pwr.st ∨ (s.pwr.st = 2 ∧ r < 2) then s
  else if r = 0 then (if s.pwr.st = 1 then s.pwrReach 0 else s)
  else match s.pwrFail r with
    | some c => s.pwrRefuse c
    | none => s.setPwr { s.pwr with target := some r }

/-- A write of SYS_PWR (R420). -/
def State.pwrWrite (s : State) (v : W32) : State :=
  let s := s.setFld Reg.SYS_PWR 0 2 (getF v 0 2)
  match s.pwr.target with
  | some _ => s.setPwr { s.pwr with next := some (getF v 0 2) }
  | none => s.pwrStart (getF v 0 2)

/-- A request that waited for a transition to end takes effect. -/
def State.pwrNext (s : State) : State :=
  match s.pwr.next with
  | some r => ((s.setPwr { s.pwr with next := none }).setFld Reg.SYS_PWR 0 2 r).pwrStart r
  | none => s

/-- Every thread that is not halted waits in WAIT. -/
def State.allWait (s : State) : Bool :=
  (List.range 192).all fun p => !s.runBit p ||
    (match (s.thr p).wait with
     | .event _ _ => true
     | _ => false)

/-- The clock of the engines leaves boost. -/
def State.boostOff (s : State) : State :=
  if s.rbit Reg.SYS_CLK 1 then (s.clrReg Reg.SYS_CLK (bit 1)).orReg Reg.SYS_STATUS (bit 3) else s

/-- The moment of entry (R420, R421); `wake` says that a wake source falls in the same cycle (R423). -/
def State.pwrEntry (s : State) (wake : Bool) : State :=
  match s.pwr.target with
  | none => s
  | some t =>
    if 2 ≤ t ∧ !s.allWait then s
    else if 2 ≤ t ∧ wake then
      (((s.setPwr { s.pwr with st := 0 }).setFld Reg.SYS_PWR 8 2 0).pwrRefuse 0xF).pwrNext
    else match s.pwrFail t with
      | some c => (s.pwrRefuse c).pwrNext
      | none =>
        if t = 1 then ((s.boostOff).pwrReach 1).pwrNext
        else
          let s := (s.boostOff).cleanCache
          let s := { s with mem := { s.mem with selfRef := true } }
          if t = 2 then s.pwrReach 2 else s.toEmber false

/-- Spun ends before a media channel is enabled (R421). -/
def State.endSpun (s : State) : State := if s.pwr.st = 1 then s.pwrReach 0 else s

/-! ### Boost and throttle (R417, R440) -/

/-- The level of R440 from its three values. -/
def State.throttle (s : State) : State :=
  let floor := if s.rbit Reg.THM_BANDS 2 then max 8 (s.fld Reg.THM_THROT 0 4) else s.fld Reg.THM_THROT 0 4
  let lvl := max floor (max (s.fld Reg.THM_THROT 24 4) (s.fld Reg.THM_THROT 20 4))
  let old := s.fld Reg.THM_THROT 28 4
  let s := s.setFld Reg.THM_THROT 28 4 lvl
  if old = 0 ∧ lvl ≠ 0 then s.orReg Reg.THM_STATUS (bit 3) else s

/-- The conditions of R417. -/
def State.boostOk (s : State) : Bool :=
  s.rbit Reg.SYS_CLK 0 && s.fld Reg.THM_THROT 28 4 == 0 && decide (s.fld Reg.THM_BANDS 24 3 ≤ 5) &&
    decide (10000 ≤ s.fld Reg.THM_FW_ACCT 0 16) && s.pwr.st == 0

/-- A change of the engine clock ends (R417). -/
def State.boostChange (s : State) : State :=
  if s.boostOk = s.rbit Reg.SYS_CLK 1 ∨ 2 ≤ s.pwr.st then s
  else (s.setFld Reg.SYS_CLK 1 1 (b2n s.boostOk)).orReg Reg.SYS_STATUS (bit 3)

/-! ### Bands (R437, R438) -/

/-- The band that contains a temperature in 1/16 °C. -/
def bandOf (t : Int) : Nat :=
  if t < -30 * 16 then 0 else if t < -5 * 16 then 1 else if t < 20 * 16 then 2 else if t < 45 * 16 then 3
  else if t < 70 * 16 then 4 else if t < 95 * 16 then 5 else if t < 115 * 16 then 6 else 7

/-- A value with the hysteresis of 2 °C: `f` gives the band or level of a temperature. -/
def hyst (f : Int → Nat) (k : Nat) (t : Int) : Nat :=
  if k < f t then f t else if f (t + 32) < k then f (t + 32) else k

/-- The refresh rate of a band (R383). -/
def refRate (band : Nat) : Nat := if band ≤ 4 then 0 else if band = 5 then 1 else 2

/-- A group's band changes; the BOARD band asks for its refresh rate at the next refresh and selects the NAND timing set, and a
DIE band recalibrates DRAM (R383, R437, R438, R533). -/
def State.setBand (s : State) (lo k : Nat) : State :=
  let s := if lo = 8 ∧ (s.fld Reg.MEM_REF 0 3 ≠ k ∨ s.mem.refNext.isSome) then
      { s with mem := { s.mem with refNext := some (refRate k, k) } } else s
  if s.fld Reg.THM_BANDS lo 3 = k then s
  else
    let s := (s.setFld Reg.THM_BANDS lo 3 k).orReg Reg.THM_STATUS (bit 1)
    if lo = 24 then s.emit .dramRetrain else if lo = 8 then s.nandSync else s

/-- A group's value selects its band (R437). -/
def State.bandBy (s : State) (lo : Nat) (first : Bool) (t : Int) : State :=
  s.setBand lo (if first then bandOf t else hyst bandOf (s.fld Reg.THM_BANDS lo 3) t)

/-- The next refresh (R383): the rate is the higher of the band's and the one the devices demand. -/
def State.refreshRate (s : State) (dev : Nat) : State :=
  let band := (s.mem.refNext.map (·.2)).getD (s.fld Reg.MEM_REF 0 3)
  let rate := max (refRate band) dev
  let old := s.fld Reg.MEM_REF 3 2
  let s := { ((s.setFld Reg.MEM_REF 0 3 band).setFld Reg.MEM_REF 3 2 rate) with mem := { s.mem with refNext := none } }
  if old = rate then s else s.orReg Reg.MEM_STATUS (bit 6)

/-- The thermal level of a temperature (R440). -/
def thLevel (t : Int) : Nat := if t < 115 * 16 then 0 else min 12 ((t - 114 * 16) / 16).toNat

/-! ### Sensors (R433 to R436) -/

/-- THM_EXT index of a channel. -/
def extIx (ch : Nat) : Nat := ch - 8
/-- The group of a channel: 0 none, 1 PACK, 2 BOARD, 3 DIE. -/
def State.chGroup (s : State) (ch : Nat) : Nat :=
  if ch < 8 then 3
  else if ch < 18 then
    (if s.rbit (Reg.THM_EXT_CFG (extIx ch)) 29 ∧ s.fld (Reg.THM_EXT_CFG (extIx ch)) 30 2 ≠ 3 then
       s.fld (Reg.THM_EXT_CFG (extIx ch)) 30 2 else 0)
  else 0
/-- A channel is valid. -/
def State.chValid (s : State) (ch : Nat) : Bool := s.rbit (Reg.THM_CH ch) 31
/-- The reported temperature of a channel. -/
def State.chTemp (s : State) (ch : Nat) : Int := sgnF (s.reg (Reg.THM_CH ch)) 0 16
/-- Valid channels of a group. -/
def State.groupOf (s : State) (g : Nat) : List Nat :=
  (List.range 18).filter fun ch => s.chValid ch && s.chGroup ch == g

/-- A value placed in a rising list. -/
def insInt (x : Int) : List Int → List Int
  | [] => [x]
  | y :: t => if x ≤ y then x :: y :: t else y :: insInt x t
/-- Twice the median; the median of an even number of values is the mean of the two in the middle. -/
def median2 (l : List Int) : Int :=
  let r := l.foldr insInt []
  let n := r.length
  if n % 2 = 1 then 2 * r.getD (n / 2) 0 else r.getD (n / 2 - 1) 0 + r.getD (n / 2) 0
/-- The largest of a list, at least `d`. -/
def maxInt (d : Int) (l : List Int) : Int := l.foldl (fun a x => if a < x then x else a) d

/-- A temperature outside −70 to 200 °C. -/
def outOfRange (t : Int) : Bool := decide (t < -70 * 16) || decide (200 * 16 < t)

/-- Nominal supplies in mV, channels 18 to 23. -/
def nominal (ch : Nat) : Nat := [750, 800, 900, 1050, 1800, 1800].getD (ch - 18) 0

/-- The round of a temperature sensor is bad (R435). -/
def State.roundBad (s : State) (ch : Nat) (t : Int) : Bool :=
  let g := s.groupOf (s.chGroup ch)
  let others := (g.filter (· != ch)).map s.chTemp
  outOfRange t || s.pwr.badDie.contains ch ||
    (s.chGroup ch != 0 && decide (3 ≤ g.length) && decide (2 * 10 * 16 < (2 * t - median2 others).natAbs))

/-- Fewer than 4 valid die sensors, or none (R436); before the first round has ended nothing is judged. -/
def State.dieCheck (s : State) : State :=
  if !s.pwr.round then s
  else
    let n := (s.groupOf 3).length
    if n < 4 then
      let s := ((s.orReg Reg.THM_BANDS (bit 2)).orReg Reg.THM_STATUS (bit 6)).throttle
      let s := s.enterBiv 11
      if n = 0 ∧ !s.pwr.trip then s.setPwr { s.pwr with tripDue := true } else s
    else if s.rbit Reg.THM_BANDS 2 then (s.clrReg Reg.THM_BANDS (bit 2)).throttle
    else s

/-- A temperature channel converts: a sensor that is enabled, in a group and not broken takes part in it (log entry 85). -/
def State.adcTemp (s : State) (ch : Nat) (raw : Int) : State :=
  let t := if ch < 8 then raw else raw + sgnF (s.reg (Reg.THM_EXT_CFG (extIx ch))) 0 16
  if 8 ≤ ch ∧ !(s.rbit (Reg.THM_EXT_CFG (extIx ch)) 29) then s.clrReg (Reg.THM_CH ch) (bit 31)
  else
    let bad := s.roundBad ch t
    let s := s.setPwr { s.pwr with badDie := s.pwr.badDie.filter (· != ch) }
    let s := s.setFld (Reg.THM_CH ch) 0 16 (natOfInt t 16)
    if s.rbit (Reg.THM_CH ch) 30 then s
    else
    let s := s.setFld (Reg.THM_CH ch) 31 1 (b2n (s.chGroup ch != 0))
    if bad then
      let s := s.incFld (Reg.THM_CH ch) 28 2
      if s.fld (Reg.THM_CH ch) 28 2 = 3 then
        (((s.clrReg (Reg.THM_CH ch) (bit 31)).orReg (Reg.THM_CH ch) (bit 30)).orReg Reg.THM_STATUS (bit 2)).dieCheck
      else s
    else s.setFld (Reg.THM_CH ch) 28 2 0

/-- A supply channel converts. -/
def State.adcSupply (s : State) (ch mv : Nat) : State :=
  let s := s.setFld (Reg.THM_CH ch) 0 16 mv
  let out := decide (100 * mv < 95 * nominal ch) || decide (105 * nominal ch < 100 * mv)
  let k := if out then smGet (fun _ => 0) s.pwr.supply ch + 1 else 0
  let s := s.setPwr { s.pwr with supply := smPut (fun _ => 0) s.pwr.supply ch (min k 2) }
  if 2 ≤ k then s.orReg Reg.THM_STATUS (bit 5) else s

/-- Two sensors of a group of exactly two differ by more than 10 °C. -/
def State.twoDiffer (s : State) (g : Nat) : Bool :=
  match (s.groupOf g).map s.chTemp with
  | [a, b] => decide (10 * 16 < (a - b).natAbs)
  | _ => false

/-- PACK and BOARD after a round (R436): DISAGREE, the values and their bands. -/
def State.roundEnd (s : State) : State :=
  let s := (s.orReg Reg.THM_STATUS (bit 0)).setPwr { s.pwr with round := true }
  let kp := if s.twoDiffer 1 then min 3 (s.pwr.packDis + 1) else 0
  let kb := if s.twoDiffer 2 then min 3 (s.pwr.boardDis + 1) else 0
  let new := (kp = 3 ∧ s.rbit Reg.THM_BANDS 1 = false) ∨ (kb = 3 ∧ s.rbit Reg.THM_BANDS 0 = false)
  let s := s.setPwr { s.pwr with packDis := kp, boardDis := kb }
  let s := (s.setFld Reg.THM_BANDS 1 1 (b2n (kp == 3))).setFld Reg.THM_BANDS 0 1 (b2n (kb == 3))
  let s := if new then s.orReg Reg.THM_STATUS (bit 7) else s
  let pack := (s.groupOf 1).map s.chTemp
  let board := (s.groupOf 2).map s.chTemp
  let s := match pack with
    | [] => s
    | x :: _ =>
      let v := if kp = 3 then maxInt x pack else pack.foldl (· + ·) 0 / pack.length
      (s.bandBy 16 (!s.pwr.packSet) v).setPwr { (s.bandBy 16 (!s.pwr.packSet) v).pwr with packSet := true }
  let s := match board with
    | [] => s.setBand 8 7
    | x :: _ =>
      let t := s.bandBy 8 (!s.pwr.boardSet) (maxInt x board)
      t.setPwr { t.pwr with boardSet := true }
  s.dieCheck

/-- One conversion of the housekeeping ADC (R433): `raw` is a temperature in 1/16 °C, or a supply in mV. -/
def State.adcConvert (s : State) (raw : W16) : State :=
  if 3 ≤ s.pwr.st then s
  else
    let ch := s.pwr.adc
    let s := if ch < 18 then s.adcTemp ch raw.toInt else s.adcSupply ch raw.toNat
    let s := s.setPwr { s.pwr with adc := (ch + 1) % 24 }
    if ch = 23 then s.roundEnd else s

/-- One sample of die sensor `i`: bad samples and hot good samples in a row (R434, R444). The answer says whether it is
good. -/
def State.dieSample1 (s : State) (i : Nat) (t : Int) : Bool × State :=
  let x := s.pwr
  let jump := match smFind x.last i with
    | some o => decide (5 * 16 < (t - o).natAbs)
    | none => false
  let bad := outOfRange t || jump
  let nb := if bad then min 3 (smGet (fun _ => 0) x.badRun i + 1) else 0
  let nh := if bad then 0 else if 135 * 16 ≤ t then min 2 (smGet (fun _ => 0) x.hotRun i + 1) else 0
  (!bad, s.setPwr { x with last := smSet x.last i t
                           badDie := if nb = 3 ∧ !x.badDie.contains i then x.badDie ++ [i] else x.badDie
                           badRun := smPut (fun _ => 0) x.badRun i nb
                           hotRun := smPut (fun _ => 0) x.hotRun i nh })

/-- The samplers of the eight die sensors convert (R434): the DIE value, its band and thermal level, and the trip. -/
def State.dieSample (s : State) (l : List Int) : State :=
  if 3 ≤ s.pwr.st then s
  else
    let (good, s) := (List.range 8).foldl (fun (acc : List Nat × State) i =>
      let (g, t) := acc.2.dieSample1 i (l.getD i 0)
      (if g && acc.2.chValid i then acc.1 ++ [i] else acc.1, t)) ([], s)
    match good with
    | [] => s
    | i :: _ =>
      let v := maxInt (l.getD i 0) (good.map fun j => l.getD j 0)
      let s := s.bandBy 24 (!s.pwr.dieSet) v
      let s := s.setPwr { s.pwr with die := v, dieSet := true }
      let s := (s.setFld Reg.THM_THROT 24 4 (hyst thLevel (s.fld Reg.THM_THROT 24 4) v)).throttle
      if good.any (fun j => smGet (fun _ => 0) s.pwr.hotRun j == 2) ∧ !s.pwr.trip then
        s.setPwr { s.pwr with tripDue := true }
      else s

/-- A write of THM_CHn (R435): 1 to BROKEN readmits the sensor. -/
def State.sensorWrite (s : State) (ch : Nat) (v : W32) : State :=
  if tb v 30 then (s.clrReg (Reg.THM_CH ch) (bit 30)).setFld (Reg.THM_CH ch) 28 2 0 else s

/-! ### The firewood account (R441 to R443) -/

/-- A measurement of `p` mW. -/
def State.powerMeasure (s : State) (p : Nat) : State :=
  if 3 ≤ s.pwr.st then s
  else
    let sus := 10 * min 0x3B6 (s.fld Reg.THM_FW_CFG 10 11)
    let peak := 10 * min 0x47E (s.fld Reg.THM_FW_CFG 21 11)
    let refill := 10 * s.fld Reg.THM_FW_CFG 0 10
    let old := s.pwr.acct
    let acct := if sus < p then old - (p - sus) else min 60000000 (old + min (sus - p) refill)
    let s := s.setPwr { s.pwr with acct := acct }
    let s := (s.setReg Reg.THM_PWR (BitVec.ofNat 32 (min p 0xFFFF))).setReg Reg.THM_FW_ACCT (BitVec.ofNat 32 (acct / 1000))
    let s := if acct = 0 ∧ old ≠ 0 then s.orReg Reg.THM_STATUS (bit 4) else s
    let l := s.fld Reg.THM_THROT 20 4
    let l' := if peak < p ∨ (acct = 0 ∧ sus < p) then min 15 (l + 1)
      else if p + 250 < sus ∨ (p + 250 < peak ∧ 1000000 ≤ acct) then l - 1
      else l
    (s.setFld Reg.THM_THROT 20 4 l').throttle

/-! ### Clocks (R416, R418) -/

/-- The crystal has stopped (R418). -/
def State.xtalFail (s : State) : State :=
  if s.rbit Reg.EMB_CLK 0 then s else (s.orReg Reg.EMB_CLK (bit 0)).orReg Reg.EMB_STATUS (bit 1)

/-- REF50 has stopped while the core runs (R418). -/
def State.refLost (s : State) : State :=
  if 3 ≤ s.pwr.st then s else (s.orReg Reg.SYS_STATUS (bit 4)).enterBiv 10

/-- A second of the real-time clock (R23, R416): at EMB_ALARM, ALARM sets and wakes (R422). -/
def State.rtcTick (s : State) : State :=
  let s := s.setReg64 Reg.EMB_RTC_LO (min (s.rtc + 1) (2 ^ 64 - 1))
  let s := if s.pwr.st = 3 ∧ s.tripHeld then s.setPwr { s.pwr with heldS := s.pwr.heldS + 1 } else s
  let alarm := s.reg64 Reg.EMB_ALARM_LO
  if alarm ≠ 0 ∧ alarm = s.rtc then (s.orReg Reg.EMB_STATUS (bit 0)).wakeBy 4 else s

/-- EMB_RTC written: the clock is set and valid, and the next record has an anchor before it (R416, R496). -/
def State.rtcWrite (s : State) (v : Nat) : State :=
  let s := (s.setReg64 Reg.EMB_RTC_LO v).orReg Reg.EMB_CLK (bit 1)
  { s with evt := { s.evt with anchorDue := true } }

end Sys2Proof.Machine
end

