-- ==== Sys2Proof/Machine/Port.lean ====
section
/-! DEFINITION. What the host does on a PCIe port: resets, configuration and memory requests, completions, link events and
the DOE mailbox (R319 to R349). -/

namespace Sys2Proof.Machine

/-! ### Resets of a function (R342, R343) -/

/-- A reset reaches the function of port `n`: its controller loses its commands, and its configuration space takes its
defaults, the double words `keep` apart. -/
def State.portReset (s : State) (n : Nat) (keep : Nat → Bool) : State :=
  let s := (s.ctlReset n true).cfgReset n keep
  s.setHp n { s.hp n with msix := [], pba := [], msiPend := [], doe := HifP.reset.doe }

/-- The link of a port is down. -/
def State.linkLost (s : State) (n : Nat) : State :=
  if s.rbit (Reg.HIF_PORT_LINK n) 31 then (s.setReg (Reg.HIF_PORT_LINK n) 0).hifEvent n 8
  else s.setReg (Reg.HIF_PORT_LINK n) 0

/-- CFG_READYn. -/
def State.cfgReady (s : State) (n : Nat) : Bool := s.rbit Reg.HIF_CTRL n

/-- PERST# of port n asserted (R342). A committed image that waits for it on port 0 is brought up: a cascade reset of mode
CORE to every Outpost, then a core warm reset of the Basecamp (R484). -/
def State.perstAssert (s : State) (n : Nat) : State :=
  if !s.portLive n ∨ (s.hp n).perst then s.setHp n { s.hp n with perst := true }
  else
    let s := (s.portReset n fun _ => false).linkLost n
    let s := (s.clrReg Reg.HIF_CTRL (bit n)).hifEvent n 0
    let s := s.setHp n { s.hp n with perst := true }
    if n = 0 ∧ s.fw.resetDue then
      let s := { s with fw := { s.fw with resetDue := false } }
      (s.writeCscReset 0x0E).resetRequest true 2 false
    else s

/-- PERST# of port n released; it is also a wake source (R321, R422). -/
def State.perstRelease (s : State) (n : Nat) : State :=
  if (s.hp n).perst then ((s.setHp n { s.hp n with perst := false }).wakeBy n).kindle else s

/-- CFG_READYn still 0 after 1.0 s (R321). -/
def State.cfgReadyTimeout (s : State) (n : Nat) : State :=
  if s.portLive n ∧ !(s.hp n).perst ∧ !s.cfgReady n then (s.orReg Reg.HIF_CTRL (bit n)).hifEvent n 22 else s

/-- A hot reset (R342): the link retrains. -/
def State.hotReset (s : State) (n : Nat) : State :=
  if s.portLive n then ((s.portReset n cfgSticky).linkLost n).hifEvent n 2 else s

/-- A function level reset (R342). -/
def State.flr (s : State) (n : Nat) : State :=
  if s.portLive n then (s.portReset n fun o => cfgSticky o || cfgLink o).hifEvent n 4 else s

/-- The link leaves DL_Active (R342). -/
def State.linkDown (s : State) (n : Nat) : State :=
  if s.portLive n ∧ s.rbit (Reg.HIF_PORT_LINK n) 31 then ((s.linkLost n).portReset n cfgSticky).hifEvent n 2 else s

/-- TAGBITS for flit mode and the enables of R332. -/
def State.tagBits (s : State) (n : Nat) (flit tags14 : Bool) : Nat :=
  if flit && tags14 then 2 else if tb (s.cfg n 0x098) 12 then 1 else 0

/-- The link reaches DL_Active at the highest speed of both ends: `speed` is the partner's (R320). -/
def State.linkUp (s : State) (n speed : Nat) (x2 flit tags14 : Bool) : State :=
  if !s.portLive n ∨ (s.hp n).perst ∨ speed = 0 then s
  else
    let cap := s.fld Reg.HIF_CTRL 4 3
    let speed := min speed (if cap = 0 then 7 else cap)
    let flit := flit || decide (6 ≤ speed)
    let w := if x2 && !s.dualPort then 2 else 1
    let v := 2 ^ 31 + 2 ^ 30 * b2n flit + 2 ^ 27 * speed + 2 ^ 25 * w + 2 ^ 20 * s.tagBits n flit tags14
    (s.setReg (Reg.HIF_PORT_LINK n) (BitVec.ofNat 32 v)).hifEvent n 6

/-- L1 and its substate are enabled: ASPM by Link Control and L1 PM Substates Control, else in D3hot (R348). -/
def State.l1Enabled (s : State) (n sub : Nat) : Bool :=
  let aspm := tb (s.cfg n 0x080) 1
  let c := s.cfg n 0x168
  match sub with
  | 2 => (aspm && tb c 3) || (s.d3hot n && tb c 1)
  | 3 => (aspm && tb c 2) || (s.d3hot n && tb c 0)
  | _ => aspm || s.d3hot n

/-- The link enters L1, L1.1 or L1.2 (R348, R424): only when the host enables it, while NVQ holds no tag of the function and no
request is outstanding; L1.2 only in Spun. -/
def State.l1Entry (s : State) (n sub : Nat) : State :=
  let idle := (s.nvq.cmds.all fun c => c.ctrl != n) && (s.hp n).reqs.isEmpty
  if s.portLive n ∧ s.rbit (Reg.HIF_PORT_LINK n) 31 ∧ idle ∧ s.l1Enabled n sub ∧ s.pwr.st < 2 ∧ (sub ≠ 3 ∨ s.pwr.st = 1) then
    s.setFld (Reg.HIF_PORT_LINK n) 23 2 sub
  else s

/-- The link returns to L0; leaving L1.2 wakes Kindled (R422). -/
def State.l1Exit (s : State) (n : Nat) : State :=
  let pm := s.fld (Reg.HIF_PORT_LINK n) 23 2
  if !s.portLive n ∨ pm = 0 then s
  else
    let s := s.setFld (Reg.HIF_PORT_LINK n) 23 2 0
    if pm = 3 then s.wakeBy 10 else s

/-! ### DOE (R346, R349) -/

/-- The mailbox of a port. -/
def State.doe (s : State) (n : Nat) : Doe := (s.hp n).doe
/-- The mailbox changed. -/
def State.setDoe (s : State) (n : Nat) (d : Doe) : State := s.setHp n { s.hp n with doe := d }

/-- The length field of an object agrees with its double words, and it has at most 32 KiB. -/
def doeWellFormed (o : List W32) : Bool :=
  decide (2 ≤ o.length) && decide (o.length ≤ 8192) && decide (getF (o.getD 1 0) 0 18 = o.length)

/-- Vendor and type of a data object. -/
def doeProto (o : List W32) : Nat × Nat := (getF (o.getD 0 0) 0 16, getF (o.getD 0 0) 16 8)

/-- The payload bytes of a data object. -/
def doePayload (o : List W32) : List W8 := (o.drop 2).flatMap fun d => leBytes 4 d.toNat
/-- Code of an SPDM request. -/
def spdmCode (p : List W8) : Nat := leAt p 1 1
/-- An SPDM request of this code in version 1.2 (GET_VERSION: 1.0). -/
def isSpdm (code : Nat) (p : List W8) : Bool := spdmCode p == code && leAt p 0 1 == (if code = 0x84 then 0x10 else 0x12)
/-- A request of the hybrid protocol for `sel`. -/
def isHybrid (sel : Nat) (p : List W8) : Bool :=
  leAt p 0 4 == 0x51485847 && leAt p 4 2 == 1 && leAt p 6 2 == sel && leAt p 44 4 == 0 && p.length == 48

/-- A request that one of the three protocols of R349 and R469 answers. -/
def doeKnown (o : List W32) : Bool :=
  let p := doePayload o
  if doeProto o = (1, 0) then decide (4 ≤ p.length)
  else if doeProto o = (1, 1) then [0x84, 0xE1, 0xE3, 0x81, 0x82, 0x83, 0xE0].any fun c => isSpdm c p
  else if doeProto o = (0x1CF7, 1) then isHybrid 0 p || isHybrid 1 p
  else false

/-- A data object arrives (R349): Ranger takes those of the three protocols; a malformed one sets DOE Error (R346). -/
def State.doeObject (s : State) (n : Nat) (o : List W32) : State :=
  let d := s.doe n
  if !doeWellFormed o then s.setDoe n { d with inObj := [], err := true }
  else if doeKnown o then
    ({ s with sec := { s.sec with arrived := s.sec.arrived + 1 } }).setDoe n
      { d with inObj := [], wait := d.wait ++ [(s.sec.arrived, o)] }
  else if [(1, 0), (1, 1), (0x1CF7, 1)].contains (doeProto o) then s.setDoe n { d with inObj := [], err := true }
  else s.setDoe n { d with inObj := [] }

/-- The number of the DOE request that port `n` has for Ranger; none while an earlier response stands. -/
def State.doeNext (s : State) (n : Nat) : Option Nat :=
  let d := s.doe n
  if s.portLive n ∧ d.prep = [] ∧ d.resp = [] then (d.wait.head?).map (·.1) else none

/-- Nothing that arrived before `seq` waits for Ranger (R461). -/
def State.rangerTurn (s : State) (seq : Nat) : Bool :=
  [0, 1].all (fun n => (s.doeNext n).all fun k => decide (seq ≤ k)) &&
    s.sec.cmd.all (fun c => c.result.isSome || decide (seq ≤ c.seq))

/-- A DOE Abort (R349). -/
def State.doeAbort (s : State) (n : Nat) : State := s.setDoe n HifP.reset.doe

/-! ### Configuration requests (R321, R322, R327, R330) -/

/-- A configuration read of the double word at byte offset `off`. -/
def State.configRead (s : State) (n off : Nat) : State :=
  if !s.portLive n ∨ (s.hp n).perst then s
  else if !s.cfgReady n then s.emit (.pcieCpl n 2 [] false)
  else s.cplOk n (leBytes 4 (s.cfgRead n off).toNat)

/-- The bits a byte-enable mask opens. -/
def beMask (be : BitVec 4) : W32 :=
  BitVec.ofNat 32 ((List.range 4).foldl (fun a i => if be.getLsbD i then a + 0xFF * 2 ^ (8 * i) else a) 0)

/-- The value a double word takes by its field types. -/
def cfgStored (off : Nat) (old v m : W32) : W32 :=
  let rw := BitVec.ofNat 32 (cfgRw off) &&& m
  let x := (old &&& ~~~ rw) ||| (v &&& rw)
  x &&& ~~~ (v &&& m &&& BitVec.ofNat 32 (cfgW1c off))

/-- BAR4's address bits below its size read 0 from now on (R327). -/
def State.bar4Trim (s : State) (n : Nat) : State :=
  let a := s.bar4Base n
  (s.setCfg n 0x020 (BitVec.ofNat 32 (a % 2 ^ 32) ||| 0xC)).setCfg n 0x024 (BitVec.ofNat 32 (a / 2 ^ 32))

/-- The BAR Size field of the Resizable BAR capability (R327). -/
def State.bar4Resize (s : State) (n : Nat) (v : W32) : State :=
  let k := getF v 8 6
  if !s.barResize ∨ 13 < k then s
  else
    let s := s.setCfg n 0x2C8 (setF (s.cfg n 0x2C8) 8 6 k)
    ((s.setFld (Reg.HIF_PORT_PW_SIZE n) 0 14 (2 ^ k)).bar4Trim n).hifEvent n 16

/-- What a configuration write does beyond storing: BAR_CHG, tags in use, interrupts that the enables now signal. -/
def State.cfgWritten (s : State) (n off : Nat) (old : State) : State :=
  let s := if off = 0x020 ∨ off = 0x024 then
      (if s.bar4Base n ≠ old.bar4Base n then (s.bar4Trim n).hifEvent n 16 else s.bar4Trim n) else s
  let s := if off = 0x098 ∧ s.rbit (Reg.HIF_PORT_LINK n) 31 ∧ s.fld (Reg.HIF_PORT_LINK n) 20 3 ≠ 2 then
      s.setFld (Reg.HIF_PORT_LINK n) 20 3 (s.tagBits n false false) else s
  if off = 0x004 ∨ off = 0x050 ∨ off = 0x060 ∨ off = 0x0B0 then
    (((s.flushPending n).intxUpdate n).signalOwed n).drainAll
  else s

/-- A configuration write with byte enables. -/
def State.configWrite (s : State) (n off : Nat) (be : BitVec 4) (v : W32) : State :=
  if !s.portLive n ∨ (s.hp n).perst then s
  else if !s.cfgReady n then s.emit (.pcieCpl n 2 [] false)
  else
    let m := beMask be
    let v := v &&& m
    let old := s
    let s := s.emit (.pcieCpl n 0 [] false)
    if off = 0x308 then (if tb v 0 then s.doeAbort n else if tb v 31 then s.doeObject n (s.doe n).inObj else s)
    else if off = 0x310 then s.setDoe n { s.doe n with inObj := (s.doe n).inObj ++ [v] }
    else if off = 0x314 then s.setDoe n { s.doe n with resp := (s.doe n).resp.drop 1 }
    else if off = 0x2C8 then (if be.getLsbD 1 then s.bar4Resize n v else s)
    else if off = 0x044 ∧ getF v 0 2 ≠ 0 ∧ getF v 0 2 ≠ 3 then s
    else
      let s := (s.setCfg n off (cfgStored off (s.cfg n off) v m)).cfgWritten n off old
      if off = 0x078 ∧ tb v 15 then s.flr n else s

/-! ### BAR0 and BAR2 (R326) -/

/-- An aligned 1-DW or 2-DW access. -/
def barAccess (off len : Nat) : Bool := (len == 4 && off % 4 == 0) || (len == 8 && off % 8 == 0)

/-- The access lies on registers: NVMe registers and doorbells in BAR0, table and PBA in BAR2. -/
def barDefined (b : Bar) (off len : Nat) : Bool :=
  match b with
  | .bar0 => decide (off + len ≤ 0x70) || (decide (0xE00 ≤ off) && decide (off + len ≤ 0xE20)) ||
      (decide (0x1000 ≤ off) && decide (off + len ≤ 0x4000))
  | .bar2 => decide (off + len ≤ 0x810) || (decide (0x1000 ≤ off) && decide (off + len ≤ 0x1018))

/-- A double word of BAR0 or BAR2; what a doorbell reads is left open and is a free value. -/
def State.barDw (s : State) (n : Nat) (b : Bar) (off : Nat) : W32 × State :=
  match b with
  | .bar0 =>
    if 0x1000 ≤ off then
      let (x, s) := s.freeAny
      (BitVec.ofNat 32 x, s)
    else (s.nvmeReg n off, s)
  | .bar2 =>
    if off < 0x1000 then (s.msixDw n (off / 4), s)
    else
      let lo := 32 * ((off - 0x1000) / 4)
      (BitVec.ofNat 32 ((s.hp n).pba.foldl (fun a v => if lo ≤ v ∧ v < lo + 32 then a ||| 2 ^ (v - lo) else a) 0), s)

/-- A memory read of BAR0 or BAR2. -/
def State.barRead (s : State) (n : Nat) (b : Bar) (off len : Nat) : State :=
  if !s.portLive n then s
  else if !s.takesMem n then s.cplUr n
  else if !barAccess off len ∨ !barDefined b off len then (s.cplUr n).hifEvent n 20
  else
    let (x, s) := s.barDw n b off
    if len = 4 then s.cplOk n (leBytes 4 x.toNat)
    else
      let (y, s) := s.barDw n b (off + 4)
      s.cplOk n (leBytes 4 x.toNat ++ leBytes 4 y.toNat)

/-- A double word written to BAR0 or BAR2. -/
def State.barDwWrite (s : State) (n : Nat) (b : Bar) (off : Nat) (v : W32) : State :=
  match b with
  | .bar0 =>
    if 0x1000 ≤ off then
      let k := (off - 0x1000) / 4
      if k % 2 = 0 then s.sqDoorbell n (k / 2) (getF v 0 16) else s.cqDoorbell n (k / 2) (getF v 0 16)
    else s.nvmeRegWrite n off v
  | .bar2 =>
    if off < 0x1000 then
      let i := off / 4
      let v := if i % 4 = 3 then v &&& 1 else if i % 4 = 0 then v &&& 0xFFFFFFFC else v
      (s.setHp n { s.hp n with msix := smPut msixDflt (s.hp n).msix i v }).flushPending n
    else s

/-- A posted request that is not supported: discarded, and logged as advisory (R345). -/
def State.postedUr (s : State) (n : Nat) : State := s.aerAdvisory n 20

/-- A memory write to BAR0 or BAR2; a poisoned one is discarded (R345). -/
def State.barWrite (s : State) (n : Nat) (b : Bar) (off : Nat) (d : List W8) (ep : Bool) : State :=
  if !s.portLive n then s
  else if !s.takesMem n then s.postedUr n
  else if ep then s.aerUnc n 12
  else if !barAccess off d.length ∨ !barDefined b off d.length then (s.postedUr n).hifEvent n 20
  else
    let s := s.barDwWrite n b off (BitVec.ofNat 32 (leAt d 0 4))
    if d.length = 8 then s.barDwWrite n b (off + 4) (BitVec.ofNat 32 (leAt d 4 4)) else s

/-! ### The peer window (R328) -/

/-- A BAR4 read of `len` bytes, or an AtomicOp there. -/
def State.pwRead (s : State) (n off len : Nat) (atomic : Bool) : State :=
  if !s.portLive n then s
  else if !s.takesMem n ∨ s.bar4Size n ≤ off then s.cplUr n
  else if atomic ∨ s.pwLimit n ≤ off then (s.cplUr n).hifEvent n 20
  else if len = 0 then s.cplOk n [0, 0, 0, 0]
  else
    let (d, ue, s) := s.memRead (s.pwBase n + off) len
    { s.emits ((cutCpls off d (s.maxPayload n) len).map fun x => .pcieCpl n 0 x ue) with rdata := BitVec.ofNat 64 (ofLe d) }

/-- The enabled bytes of a write. -/
def State.pwBytes (s : State) (a : Nat) : List (Option W8) → State
  | [] => s
  | some b :: t => (s.memWrite a [b]).pwBytes (a + 1) t
  | none :: t => s.pwBytes (a + 1) t

/-- A BAR4 write; a byte whose enable is 0 is none. -/
def State.pwWrite (s : State) (n off : Nat) (d : List (Option W8)) (ep : Bool) : State :=
  if !s.portLive n then s
  else if !s.takesMem n ∨ s.bar4Size n ≤ off then s.postedUr n
  else if ep then s.aerUnc n 12
  else if s.pwLimit n ≤ off then (s.postedUr n).hifEvent n 20
  else if d.all (·.isSome) then s.memWrite (s.pwBase n + off) (d.map (·.getD 0))
  else s.pwBytes (s.pwBase n + off) d

/-! ### Completions of requests the part issued (R336, R337, R343) -/

/-- A fatal error: a malformed TLP, or a HIF buffer with an uncorrectable error (R345). -/
def State.hifFatal (s : State) (n b : Nat) : State := (s.aerUnc n b).hifEvent n 14

/-- A completion arrives. A malformed TLP of any kind is discarded; one lost in a HIF buffer fails the request the part
issued. -/
def State.cplReceived (s : State) (n tag : Nat) (st : CplStatus) (d : List W8) (ep : Bool) : State :=
  if !s.portLive n then s
  else if st = .malformed then s.hifFatal n 18
  else
    let s := if st = .bufferError then s.hifFatal n 22 else s
    match (s.hp n).reqs.find? fun r => r.tag == tag with
    | none => if st = .bufferError || (s.hp n).silent.contains tag then s else s.unexpected n
    | some r =>
      if st ≠ .ok ∨ ep then
        let s := if st = .ok then s.aerUnc n 12 else s
        (s.dropHReq n tag).hreqFailed r
      else
        let got := r.got ++ d
        if r.len ≤ got.length then (s.dropHReq n tag).dmaRemoteEnd r.chan r.arg (some (got.take r.len, false))
        else s.setHp n { s.hp n with reqs := (s.hp n).reqs.map fun x => if x.tag == tag then { x with got := got } else x }

/-- A request times out (R336, R337). -/
def State.cplTimeout (s : State) (n tag : Nat) : State :=
  match (s.hp n).reqs.find? fun r => r.tag == tag with
  | none => s
  | some r =>
    let s := s.dropHReq n tag
    let s := s.setHp n { s.hp n with quar := (s.hp n).quar ++ [tag] }
    (((s.hifEvent n 10).incFld (Reg.HIF_PORT_CTO_CNT n) 0 32).aerUnc n 14).hreqFailed r

/-- A write of HIF_PORTn_LTR (R348). -/
def State.ltrWrite (s : State) (n : Nat) (v : W32) : State :=
  let old := s.reg (Reg.HIF_PORT_LTR n)
  let s := s.setReg (Reg.HIF_PORT_LTR n) v
  if old ≠ v ∧ s.portLive n ∧ tb (s.cfg n 0x098) 10 then s.emit (.ltr n v) else s

end Sys2Proof.Machine
end

