-- ==== Sys2Proof/Machine/Sweep.lean ====
section
/-! DEFINITION. DRAM start, way pairs and Sweep (R379, R380, R392, R399, R402, R403). -/

namespace Sys2Proof.Machine

/-! ### INIT (R379, R380) -/

/-- Usable capacity in MiB of CAP and PROT (R381). -/
def usableMib (cap : Nat) (prot : Bool) : Nat := if prot then 2048 * 2 ^ cap * 4 / 5 else 2048 * 2 ^ cap

/-- A write of MEM_CTRL: with INIT = 1 training starts, CAP and PROT take effect, and without RESUME the content is lost. -/
def State.memCtrlWrite (s : State) (v : W32) : State :=
  let s := s.setReg Reg.MEM_CTRL ((v &&& 0xE2) ||| (s.reg Reg.MEM_CTRL &&& 1))
  if !(tb v 0) then s
  else
    let prot := tb v 5
    let keep := tb v 1 && prot == s.mem.prot
    let s := (s.orReg Reg.MEM_CTRL (bit 0)).setReg Reg.MEM_CAP 0
    let m := { s.mem with ready := false, prot := prot, capMib := usableMib (getF v 6 2) prot }
    { s with mem := if keep then m
      else { m with dram := [], dramSyn := [], lines := [], cw := [], vict := [], wb := [], miss := [], hold := [] } }

/-- Training ends. -/
def State.memInitDone (s : State) (ok : Bool) : State :=
  if !(s.rbit Reg.MEM_CTRL 0) then s
  else
    let s := s.clrReg Reg.MEM_CTRL (bit 0)
    if ok then
      let s := { s with mem := { s.mem with ready := true, selfRef := false } }
      (s.setReg Reg.MEM_CAP (BitVec.ofNat 32 s.mem.capMib)).orReg Reg.MEM_STATUS (bit 0)
    else s.orReg Reg.MEM_STATUS (bit 1)

/-- The fill of a bank's miss register completes, and the threads whose fences waited for its held operations go on. -/
def State.bankFill (s : State) (bank : Nat) : State :=
  let thrs := (s.mem.hold.filter fun h => lineBank h.line == bank).map (·.thr)
  thrs.foldl (fun s p => s.fenceWake p) (s.fillDone bank)

/-! ### Way pairs (R392) -/

/-- The next pair whose OFF bit and state differ begins to change. -/
def State.wayStart (s : State) : State :=
  if s.mem.wayJob.isSome then s
  else match (List.range' 1 7).find? fun p => s.rbit Reg.CCH_WAYPWR p != s.rbit Reg.CCH_WAYPWR (8 + p) with
    | some p =>
      ({ s with mem := { s.mem with wayJob := some (p, s.rbit Reg.CCH_WAYPWR p) } }).orReg Reg.CCH_WAYPWR (bit 16)
    | none => s

/-- A write of CCH_WAYPWR.OFF. -/
def State.wayWrite (s : State) (v : W32) : State := (s.setFld Reg.CCH_WAYPWR 1 7 (getF v 1 7)).wayStart

/-- Every line of a pair leaves it: dirty ones are written to DRAM. -/
def State.cleanPair (s : State) (p : Nat) : State :=
  (s.mem.lines.filter fun e => e.2.way / 2 == p).foldl (fun s e =>
    let s := if e.2.dirty then s.cleanLine e.1 else s
    ({ s with mem := { s.mem with lines := smDel s.mem.lines e.1 } }).dropCw e.1) s

/-- The change of a pair ends. -/
def State.wayDone (s : State) : State :=
  match s.mem.wayJob with
  | none => s
  | some (p, true) =>
    let s := s.cleanPair p
    let s := { s with mem := { s.mem with wayJob := none } }
    (((s.orReg Reg.CCH_WAYPWR (bit (8 + p))).clrReg Reg.CCH_WAYPWR (bit 16)).orReg Reg.CCH_STATUS (bit 0)).wayStart
  | some (p, false) =>
    let s := { s with mem := { s.mem with wayJob := none } }
    ((s.clrReg Reg.CCH_WAYPWR (bit (8 + p))).clrReg Reg.CCH_WAYPWR (bit 16)).wayStart

/-! ### Sweep (R402, R403) -/

/-- What Sweep leaves of a word it has read: the word to write back, if any. -/
def sweepWord (c : CWord) : Option CWord :=
  match diagnose c.syn with
  | .good | .poisoned => none
  | .corrected _ => some ⟨correctedData c, 0⟩
  | .multiple => some c.poison

/-- Sweep reads word `w` of on-chip SRAM, upset by `u` beforehand. -/
def State.sweepSram (s : State) (w : Nat) (u : BitVec 80) : State :=
  if !sramPopulated (8 * w) then s
  else
    let c := (s.sramWord w).upset u
    let s := s.logDiag (sramId (8 * w)).1 (sramId (8 * w)).2 true (diagnose c.syn)
    s.setSramWord w ((sweepWord c).getD c)

/-- Sweep reads word `w` of DRAM (R391, R402); with PROT = 0 it does not visit DRAM (R403). -/
def State.sweepDram (s : State) (w : Nat) (u : BitVec 80) : State :=
  if !s.mem.ready ∨ !s.mem.prot ∨ s.dramSize ≤ 8 * w then s
  else
    let c := (s.dramWord w).upset u
    let s := s.logDiag (0x38 + dramChan true (8 * w)) (8 * w) true (diagnose c.syn)
    let s := s.setReg Reg.MEM_SWP_POS (BitVec.ofNat 32 (8 * w / 2 ^ 20))
    match sweepWord c with
    | some c' => s.setDramWord w c'
    | none => if u = 0 then s else s.setDramWord w c

/-- A cached word: as the cache holds it. -/
def State.heldWord (s : State) (w : Nat) : CWord := (smFind s.mem.cw w).getD ⟨correctedData (s.dramWord w), 0⟩

/-- Sweep reads word `i` of way `way` of a set of the shared cache: it corrects in place, drops a clean line with an
uncorrectable word and leaves a dirty one to R397. -/
def State.sweepCache (s : State) (st way i : Nat) (u : BitVec 80) : State :=
  match s.lineAt st way with
  | none => s
  | some (l, e) =>
    let w := 8 * l + i
    let c := (s.heldWord w).upset u
    let s := s.logDiag 0x34 (8 * w) true (diagnose c.syn)
    match diagnose c.syn with
    | .good => if u = 0 then s else s.setCw w c
    | .corrected _ => s.setCw w ⟨correctedData c, 0⟩
    | _ =>
      if e.dirty then s.setCw w c
      else ({ s with mem := { s.mem with lines := smDel s.mem.lines l } }).dropCw l

/-- Sweep reads the two copies of a tag (R399), each upset beforehand: one that is bad is served from the other; with both
bad the way is invalidated, TAG_LOST sets and the part requests Bivouac. -/
def State.sweepTag (s : State) (st way : Nat) (u u2 : BitVec 80) : State :=
  let d := diagnose ((⟨0, 0⟩ : CWord).upset u).syn
  let d2 := diagnose ((⟨0, 0⟩ : CWord).upset u2).syn
  let bad := fun (x : Diag) => x == .poisoned || x == .multiple
  let id := st * 16 + way
  if bad d && bad d2 then
    let s := (s.logErr 0x35 id true true false 0x7F).orReg Reg.CCH_STATUS (bit 1)
    let s := match s.lineAt st way with
      | some (l, _) => ({ s with mem := { s.mem with lines := smDel s.mem.lines l } }).dropCw l
      | none => s
    s.enterBiv 9
  else if bad d || bad d2 then (s.logErr 0x35 id true true true 0x7F).orReg Reg.CCH_STATUS (bit 2)
  else (s.logDiag 0x35 id true d).logDiag 0x35 id true d2

/-- Sweep reads a word of the victim cache (entries 0 to 63) or of the write-back buffer (64 to 67). -/
def State.sweepVictim (s : State) (k i : Nat) (u : BitVec 80) : State :=
  if k < 64 then
    match s.mem.vict[k]? with
    | none => s
    | some (l, dirty) =>
      let w := 8 * l + i
      let c := (s.heldWord w).upset u
      let s := s.logDiag 0x36 (8 * w) true (diagnose c.syn)
      match diagnose c.syn with
      | .good => if u = 0 then s else s.setCw w c
      | .corrected _ => s.setCw w ⟨correctedData c, 0⟩
      | _ =>
        if dirty then s.setCw w c
        else ({ s with mem := { s.mem with vict := s.mem.vict.filter fun e => e.1 != l } }).dropCw l
  else
    match s.mem.wb[k - 64]? with
    | none => s
    | some e =>
      let w := 8 * e.line + i
      let c := ((smFind e.words w).getD ⟨correctedData (s.dramWord w), 0⟩).upset u
      let s := s.logDiag 0x36 (8 * w) true (diagnose c.syn)
      let c' := (sweepWord c).getD c
      { s with mem := { s.mem with wb := s.mem.wb.set (k - 64) { e with words := smSet e.words w c' } } }

/-- Sweep reads a line's word of an instruction cache, index × 2 + way: an uncorrectable line is discarded (R48). -/
def State.sweepIc (s : State) (e ix : Nat) (u : BitVec 80) : State :=
  let d := diagnose ((⟨0, 0⟩ : CWord).upset u).syn
  let k := e * 128 + ix / 2 % 128
  let s := s.logDiag (0x40 + e) (ix % 256) true d
  if d = .good then s
  else match d with
    | .corrected _ => s
    | _ => s.setIc k ((s.icSet k).eraseIdx (ix % 2))

/-- One step of Sweep over memory `id` (R401): `ix` numbers its words (for the caches: set × 128 + way × 8 + word, entry × 8 +
word, index × 2 + way); `u` and `u2` upset what it reads, and `lap` is the lap's length when this word ends one, in seconds
for DRAM and in ms for an SRAM. -/
def State.sweepStep (s : State) (id ix : Nat) (u u2 : BitVec 80) (lap : Option W32) : State :=
  if !(s.rbit Reg.MEM_SWP_CTRL 0) ∨ 3 ≤ s.pwr.st then s
  else
    let s :=
      if id < 0x30 then s.sweepSram (id * 0x2000 + ix % 0x1000) u
      else if id = 0x30 then s.sweepSram (ringBase / 8 + ix % 0x10000) u
      else if id = 0x31 then s.sweepSram (lwBase / 8 + ix % 0x100) u
      else if id = 0x32 then s.sweepSram (0x600000 / 8 + ix) u
      else if id = 0x33 then s.sweepSram (0x800000 / 8 + ix) u
      else if id = 0x34 then s.sweepCache (ix / 128 % 4096) (ix / 8 % 16) (ix % 8) u
      else if id = 0x35 then s.sweepTag (ix / 16 % 4096) (ix % 16) u u2
      else if id = 0x36 then s.sweepVictim (ix / 8) (ix % 8) u
      else if id = 0x37 then s.logDiag 0x37 ix true (diagnose ((⟨0, 0⟩ : CWord).upset u).syn)
      else if id = 0x38 ∨ id = 0x39 then
        (if dramChan true (8 * ix) = id - 0x38 then s.sweepDram ix u else s)
      else if 0x40 ≤ id ∧ id ≤ 0x6F then s.sweepIc (id - 0x40) ix u
      else s
    match lap with
    | none => s
    | some t =>
      if id = 0x38 ∨ id = 0x39 then (s.setReg Reg.MEM_SWP_LAP t).orReg Reg.MEM_STATUS (bit 5)
      else if s.reg Reg.MEM_SWP_SLAP < t then s.setReg Reg.MEM_SWP_SLAP t
      else s

end Sys2Proof.Machine
end

