-- ==== Sys2Proof/Machine/Trail.lean ====
section
/-! DEFINITION. Posts of the Trail Log and its checkpoint (R498, R502), Patrol (R508 to R510), preamp frames (R529, R530)
and GPIO (R537). -/

namespace Sys2Proof.Machine

/-! ### Posts and checkpoints -/

/-- The address of a thread's post port. -/
def State.postAddr (s : State) (p : Nat) : Nat :=
  s.fld (Reg.EVT_POST_ADDR_LO p) 3 29 * 8 + s.fld (Reg.EVT_POST_ADDR_LO p + 4) 0 16 * 2 ^ 32

/-- The result of a post, in its port. -/
def State.postResult (s : State) (p : Nat) (r : PostRes) : State :=
  s.setReg (Reg.EVT_POST_STAT p) (BitVec.ofNat 32 r.code)

/-- The record at a thread's post address enters the Trail Log (R498). -/
def State.evtPost (s : State) (p : Nat) : State :=
  if !(s.rbit Reg.EVT_CTRL 0) then s.postResult p .refused
  else
    let a := s.postAddr p
    let (h, ue, s) := s.memRead a 8
    let len := leAt h 0 1 % 32
    let src := leAt h 1 1
    if ue ∨ len = 0 ∨ src < 0x20 then s.postResult p .refused
    else
      let (d, ue, s) := s.memRead (a + 8) (8 * len - 8)
      if ue then s.postResult p .refused
      else
        let (r, s) := s.record (leAt h 0 1 / 32) src (leAt h 2 2) d
        s.postResult p r

/-- Thread `p` writes EVT_POSTp_ADDR_HI: the pair takes effect and the post runs (R25, R498). -/
def State.evtPostWrite (s : State) (p : Thr) (hi : W32) : State :=
  let (lo, s) := s.takeLo (.thread p) (Reg.EVT_POST_ADDR_LO p)
  let s := (s.setReg (Reg.EVT_POST_ADDR_LO p) (lo &&& 0xFFFFFFF8)).setReg (Reg.EVT_POST_ADDR_LO p + 4) (hi &&& 0xFFFF)
  s.evtPost p

/-- A write of EVT_CKPT (R502): EVT_WR, or the start of a stored record. -/
def State.ckptWrite (s : State) (v : W32) : State :=
  let o := getF v 3 16 * 8
  if o = (s.reg Reg.EVT_WR).toNat then
    ({ s with evt := { s.evt with used := 0 } }).setReg Reg.EVT_CKPT (BitVec.ofNat 32 o)
  else if s.records.contains o then
    let d := (o + ringSize - (s.reg Reg.EVT_CKPT).toNat) % ringSize
    ({ s with evt := { s.evt with used := s.evt.used - d } }).setReg Reg.EVT_CKPT (BitVec.ofNat 32 o)
  else s

/-- A write of EVT_SUMCLR. -/
def State.sumClear (s : State) (v : W32) : State :=
  if tb v 0 then
    (List.range 64).foldl (fun s n =>
      (List.range 5).foldl (fun s j => s.setReg (Reg.EVT_SUM_VAL n j) 0) (s.setReg (Reg.EVT_SUM_KEY n) 0)) s
  else s

/-! ### Patrol -/

/-- The first enabled item at or after `i`. -/
def State.ptlPick (s : State) (i : Nat) : Option Nat :=
  (List.range 10).find? fun k => decide (i ≤ k) && s.rbit Reg.PTL_MASK k

/-- The unit that an item tests has no request, as far as State shows its requests (R508): SHA engines, the units a running DMA
chain may use, the retry paths, the detectors, the control store's load, Guyline. -/
def State.ptlIdle (s : State) (i : Nat) : Bool :=
  if i = 0 then (List.range 4).all fun e => (s.shaEng e).owner.isNone
  else if i = 1 ∨ i = 2 then (List.range 32).all fun c => !(s.dmaRuns c)
  else if i = 4 then [s.med0, s.med1].all fun m => m.rd.all fun a => a.lad.isEmpty
  else if i = 5 then s.med0.rd.isNone && s.med1.rd.isNone
  else if i = 6 then s.ucs.load.isNone
  else if i = 7 then s.gylQ.isEmpty && s.gylRun.isNone
  else true

/-- Item `i` starts once its unit is idle; a lap begins with its first item. -/
def State.ptlStart (s : State) (i : Nat) : State :=
  if s.ptlIdle i then { s with ptl := { s.ptl with item := some i, start := if s.ptl.next = 0 then s.now else s.ptl.start } }
  else s

/-- A slice runs: of the item under way, or of the next one in table order, which starts (R508, R509). -/
def State.ptlSlice (s : State) : State :=
  if !(s.rbit Reg.PTL_CTRL 0) ∨ s.ptl.item.isSome ∨ 2 ≤ s.pwr.st then s
  else match s.ptlPick s.ptl.next with
    | some i => s.ptlStart i
    | none => match s.ptlPick 0 with
      | some i => s.ptlStart i
      | none => s

/-- A lap ends when no enabled item is left in table order (R509); its length is in minutes of REF50 time. -/
def State.ptlLap (s : State) : State :=
  if (s.ptlPick s.ptl.next).isSome then s
  else
    let s := (s.setReg Reg.PTL_LAP (BitVec.ofNat 32 ((s.now - s.ptl.start) / 3000000000))).orReg Reg.PTL_STATUS (bit 0)
    { s with ptl := ⟨none, 0, s.now⟩ }

/-- The record of a failed item (R510): the instance in byte 8, the first differing word in bytes 12 to 15. -/
def State.ptlRecord (s : State) (sev i : Nat) (inst : W8) (diff : W32) : State :=
  s.hwRecord sev 0x10 (0x100 + i) ([inst, 0, 0, 0] ++ leBytes 4 diff.toNat)

/-- A run of an item has ended. -/
def State.ptlRun (s : State) (i : Nat) (ok : Bool) : State :=
  let s := s.setFld (Reg.PTL_ITEM i) 30 1 (b2n !ok)
  if ok then s.incFld (Reg.PTL_ITEM i) 0 16 else s.incFld (Reg.PTL_ITEM i) 16 8

/-- The item under way ends: `ok` is its result, and `again` that of the repeat that follows a failure (R510). Item 6 finds what
the six replicas of the control store hold (R508). -/
def State.ptlEnd (s : State) (ok again : Bool) (inst : W8) (diff : W32) : State :=
  match s.ptl.item with
  | none => s
  | some i =>
    let same := s.ucs.rep.isEmpty
    let ok := if i = 6 then same else ok
    let again := if i = 6 then same else again
    let s := s.ptlRun i ok
    let s := if ok then s
      else
        let s := s.ptlRun i again
        if again then (s.orReg Reg.PTL_STATUS (bit 1)).ptlRecord 4 i inst diff
        else ((s.orReg (Reg.PTL_ITEM i) (bit 31)).orReg Reg.PTL_STATUS (bit 2)).ptlRecord 6 i inst diff
    ({ s with ptl := { s.ptl with item := none, next := i + 1 } }).ptlLap

/-! ### Preamp frames -/

/-- A write of MCA_PSI_CTRL (R530): GO requests one firmware frame; while one is under way a write of GO has no effect. -/
def State.psiWrite (s : State) (m : Nat) (v : W32) : State :=
  let o := Reg.MCA_PSI_CTRL m
  if s.rbit o 31 ∧ tb v 31 then s
  else
    let s := s.setReg o ((v &&& 0x4000FFFF) ||| (s.reg o &&& bit 31))
    if tb v 31 then
      let f : PsiFrame := ⟨tb v 30, getF v 0 16, s.fld (Reg.MCA_PSI_DATA m) 0 16, false, false⟩
      (s.orReg o (bit 31)).setMed m { s.med m with psi := (s.med m).psi ++ [f] }
    else s

/-- The frame under way ends (R529): a read frame returns data; the channel's frames go next, then firmware's (R530). The
heater frame of a write run starts HSETTLE (R162). -/
def State.psiSent (s : State) (m : Nat) (rdata : W16) : State :=
  match (s.med m).psi with
  | [] => s
  | f :: t =>
    let s := (s.setMed m { s.med m with psi := t.filter (·.auto) ++ t.filter fun x => !x.auto }).emit
      (.psiFrame m f.read f.addr f.data)
    let s := if f.read then s.setFld (Reg.MCA_PSI_DATA m) 16 16 rdata.toNat else s
    let s := if f.heat then s.htrSent m else s
    if f.auto then s else s.clrReg (Reg.MCA_PSI_CTRL m) (bit 31)

/-! ### GPIO -/

/-- The balls that the part drives take the levels of NVI_GPIO_OUT; a driven ball's edge shows as any input's (R537). -/
def State.gpioDrive (s : State) : State :=
  let oe := s.reg Reg.NVI_GPIO_OE
  let old := s.reg Reg.NVI_GPIO_IN
  let new := (old &&& ~~~ oe) ||| (s.reg Reg.NVI_GPIO_OUT &&& oe)
  let s := (s.setReg Reg.NVI_GPIO_IN new).orReg Reg.NVI_GPIO_STATUS ((new &&& ~~~ old) ||| ((old &&& ~~~ new) <<< 16))
  s.emit (.gpio (s.reg Reg.NVI_GPIO_OUT) oe)

/-- An edge at a GPIO input (R537); a rise of GPIO0 or GPIO1 is a wake source, in the Ember domain too (R422). -/
def State.gpioEdge (s : State) (n : Nat) (rise : Bool) : State :=
  let s := if s.pwr.st < 3 then
      (s.setFld Reg.NVI_GPIO_IN n 1 (b2n rise)).orReg Reg.NVI_GPIO_STATUS (bit (if rise then n else 16 + n))
    else s
  if rise ∧ n < 2 then (s.wakeBy (5 + n)).kindle else s

end Sys2Proof.Machine
end

