-- ==== Sys2Proof/Machine/Boot.lean ====
section
/-! DEFINITION. SPI NOR, boot records, the image check and BOOT_LOAD (R455 to R460, R476 to R481). -/

namespace Sys2Proof.Machine

/-- Ranger's state changed. -/
def State.setSec (s : State) (x : Sec) : State := { s with sec := x }
/-- The firmware-update state changed. -/
def State.setFw (s : State) (x : Fw) : State := { s with fw := x }

/-! ### SPI NOR (R479, R480) -/

/-- An erased byte of SPI NOR (PRESUMED, log entry 7). -/
def norDflt : Nat → W8 := fun _ => 0xFF
/-- Bytes of SPI NOR. -/
def State.norRead (s : State) (a n : Nat) : List W8 := readCells norDflt s.fw.nor a n
/-- Bytes written to SPI NOR. -/
def State.norWrite (s : State) (a : Nat) (l : List W8) : State :=
  s.setFw { s.fw with nor := writeCells norDflt s.fw.nor a l }

/-- Offset of a slot, 1 to 3. -/
def norSlot (n : Nat) : Nat := if n = 1 then 0x100000 else if n = 2 then 0x1200000 else 0x2300000

/-- A boot record (R480). -/
structure BootRec where
  active : Nat
  prev : Nat
  seq : Nat
  /-- 0 confirmed, 1 trial. -/
  st : Nat
  tries : Nat
  fellBack : Bool
  deriving DecidableEq, Repr

/-- The record of a copy, if it is valid. -/
def readRec (b : List W8) : Option BootRec :=
  if leAt b 0 4 = 0x52425847 ∧ leAt b 4 2 = 1 ∧ leAt b 56 8 = (crc64 (sliceB b 0 56)).toNat then
    some ⟨leAt b 6 1, leAt b 7 1, leAt b 8 8, leAt b 16 1, leAt b 17 1, leAt b 18 1 == 1⟩
  else none

/-- The 64 bytes of a record. -/
def BootRec.bytes (r : BootRec) : List W8 :=
  let b := leBytes 4 0x52425847 ++ leBytes 2 1 ++ leBytes 1 r.active ++ leBytes 1 r.prev ++ leBytes 8 r.seq ++
    leBytes 1 r.st ++ leBytes 1 r.tries ++ leBytes 1 (b2n r.fellBack) ++ List.replicate 37 0
  b ++ leBytes 8 (crc64 b).toNat

/-- The current record and the copy that holds it: the valid copy with the higher SEQ. -/
def State.bootRec (s : State) : Option (BootRec × Nat) :=
  match readRec (s.norRead 0 64), readRec (s.norRead 0x1000 64) with
  | some a, some b => if a.seq < b.seq then some (b, 1) else some (a, 0)
  | some a, none => some (a, 0)
  | none, some b => some (b, 1)
  | none, none => none

/-- A new record goes to the other copy with SEQ one higher; the first one of all to copy A with SEQ 1. -/
def State.writeRec (s : State) (r : BootRec) : State :=
  match s.bootRec with
  | some (c, k) => s.norWrite (if k = 0 then 0x1000 else 0) ({ r with seq := c.seq + 1 } : BootRec).bytes
  | none => s.norWrite 0 ({ r with seq := 1 } : BootRec).bytes

/-- The slots BOOT_LOAD tries, in order, each at most once, and the record written first (R481). -/
def bootOrder (r : Option BootRec) : List Nat × Option BootRec :=
  match r with
  | none => ([2, 3, 1], none)
  | some r =>
    if r.st = 0 then ([r.active, r.prev, 1].eraseDups, none)
    else if 0 < r.tries then ([r.active, r.prev, 1].eraseDups, some { r with tries := r.tries - 1 })
    else ([r.prev, r.active, 1].eraseDups, some { r with active := r.prev, prev := r.active, st := 0, fellBack := true })

/-! ### The image check (R458, R459, R476 to R478) -/

/-- Fields of the fixed header. -/
def hdrSigner (h : List W8) : Nat := leAt h 6 1
def hdrSvn (h : List W8) : Nat := leAt h 7 1
def hdrVer (h : List W8) : Nat := leAt h 8 4
def hdrHver (h : List W8) : Nat := leAt h 12 2
def hdrHmin (h : List W8) : Nat := leAt h 14 2
def hdrLoad (h : List W8) : Nat := leAt h 16 8
def hdrEntry (h : List W8) : Nat := leAt h 24 8
def hdrNblk (h : List W8) : Nat := leAt h 32 4
def hdrPatch (h : List W8) : Nat := leAt h 36 4
def hdrCust (h : List W8) : Nat := leAt h 40 4
def hdrRecVer (h : List W8) : Nat := leAt h 44 2
def hdrRecMin (h : List W8) : Nat := leAt h 46 2

/-- Bytes of usable DRAM (R15). -/
def State.dramBytes (s : State) : Nat := s.mem.capMib * 2 ^ 20

/-- The header's fields are those of R477. -/
def State.hdrOk (s : State) (h : List W8) : Bool :=
  leAt h 0 4 == 0x57465847 && leAt h 4 2 == 1 && hdrSigner h &&& 0xCE == 0 && decide (1 ≤ hdrNblk h) &&
    decide (hdrNblk h ≤ 256) && decide (hdrLoad h % 65536 = 0) && decide (hdrLoad h ≤ hdrEntry h) &&
    decide (hdrEntry h < hdrLoad h + 65536 * hdrNblk h) && decide (hdrLoad h + 65536 * hdrNblk h ≤ s.dramBytes)

/-- The signer is one that the lifecycle state boots (R459). -/
def State.signerOk (s : State) (h : List W8) : Bool :=
  let st := s.fld Reg.SEC_LC 0 2
  let g := natF (hdrSigner h) 4 2
  if st = 0 then true
  else if st = 3 then hdrSigner h % 2 == 1 && !(s.sec.vrevoke.testBit g)
  else hdrSigner h % 2 == 0 && s.sec.ckeyImg.isSome

/-- Steps 1 to 3 of R458 on the fixed header and the block table: the result code when the image is refused. In Open any
image passes step 1 (R459). -/
def State.headCheck (s : State) (h table : List W8) (sg : Sigs) : Option Nat :=
  let step1 := sg.rsa && sg.slh && sha384 table == sliceB h 48 48
  if !s.hdrOk h then some 4
  else if s.fld Reg.SEC_LC 0 2 ≠ 0 ∧ !step1 then some 3
  else if !s.signerOk h then some 3
  else if hdrSvn h < s.sec.minSvn then some 5
  else none

/-- The block table's digest of a payload block. -/
def tableDigest (table : List W8) (b : Nat) : List W8 := sliceB table (48 * b) 48

/-- Blocks copied to DRAM at LOAD one by one; the first whose SHA-384 differs ends the copy (R458, step 4). -/
def State.copyBlocks (s : State) (h table : List W8) (block : Nat → List W8) (b : Nat) : Nat → Bool × State
  | 0 => (true, s)
  | n + 1 =>
    let d := block b
    let s := s.memWrite (hdrLoad h + 65536 * b) d
    if sha384 d == tableDigest table b then s.copyBlocks h table block (b + 1) n else (false, s)

/-- The image runs: what Ranger and the update logic know of it (R458, R469, R492). -/
def State.imageRuns (s : State) (h table : List W8) (sg : Sigs) : State :=
  let step1 := sg.rsa && sg.slh && sha384 table == sliceB h 48 48
  let s := s.setFld Reg.SEC_SVN 8 8 (hdrSvn h)
  let s := s.setSec { s.sec with
    hdrHash := sha384 h, entry := hdrEntry h
    openBoot := if s.sec.lc = 0 then (if step1 then 1 else 2) else 0 }
  s.setFw { s.fw with
    imgVer := hdrVer h, hver := hdrHver h, load := hdrLoad h, nblk := hdrNblk h, recVer := hdrRecVer h
    recMin := hdrRecMin h, confirmed := false }

/-- One image tried: `rd` reads its bytes. The result code is 0 when it runs. -/
def State.tryImage (s : State) (rd : Nat → Nat → List W8) (sg : Sigs) : Nat × State :=
  let h := rd 0 800
  let table := rd 17408 (48 * min (hdrNblk h) 256)
  match s.headCheck h table sg with
  | some e => (e, s)
  | none =>
    match s.copyBlocks h table (fun b => rd (65536 * (b + 1)) 65536) 0 (hdrNblk h) with
    | (true, s) => (0, s.imageRuns h table sg)
    | (false, s) => (3, s)

/-- Images tried in order, each with its verdict, until one runs; the last refusal's result otherwise. -/
def State.tryImages (s : State) (l : List (Nat → Nat → List W8)) (sigs : List Sigs) (last : Nat) : Nat × List Sigs × State :=
  match l with
  | [] => (last, sigs, s)
  | rd :: t =>
    match s.tryImage rd (sigs.headD ⟨false, false⟩) with
    | (0, s) => (0, sigs.drop 1, s)
    | (e, s) => s.tryImages t (sigs.drop 1) e

/-! ### BOOT_LOAD -/

/-- Bytes of the relay area that BOOT_LOAD by relay uses, and its base (R457). -/
def State.relayArea (s : State) : Nat := s.dramBytes - 17 * 2 ^ 20
/-- Bytes of DRAM, whether or not they are correct. -/
def State.dramPeek (s : State) (a n : Nat) : List W8 := (List.range n).map fun i => s.dramByteAt (a + i)

/-- An image beside another range of DRAM. -/
def overlaps (a n b m : Nat) : Bool := decide (a < b + m) && decide (b < a + n)

/-- BOOT_LOAD turns to the debug UART (R458): an image there is checked in the same way; with none, the command ends with
the result it had, and the next BOOT_LOAD takes the UART's image. -/
def State.bootUart (s : State) (x : BootIn) (sigs : List Sigs) (last : Nat) : Option Nat × State :=
  if x.uart = [] then (some last, s.setSec { s.sec with uartBoot := true })
  else
    let (r, _, s) := s.tryImages [fun o n => sliceB x.uart o n] sigs last
    (some r, s.setSec { s.sec with uartBoot := decide (r ≠ 0) })

/-- Ranger's work on BOOT_LOAD (R456 to R459, R481): the result, or none while a boot by relay goes on. -/
def State.bootLoad (s : State) (x : BootIn) : Option Nat × State :=
  let src := s.fld Reg.SYS_STRAP 0 2
  if s.sec.uartBoot then s.bootUart x x.sigs 4
  else if src = 0 then
    let (order, rec0) := bootOrder (s.bootRec.map (·.1))
    let s := match rec0 with
      | some r => s.writeRec r
      | none => s
    let (r, sigs, s') := s.tryImages (order.map fun n => fun o k => s.norRead (norSlot n + o) k) x.sigs 4
    if r = 0 then (some 0, s') else s'.bootUart x sigs r
  else if src = 1 then
    let (r, sigs, s) := s.tryImages [fun o k => sliceB x.nand o k] x.sigs 4
    if r = 0 then (some 0, s) else s.bootUart x sigs r
  else if src = 2 ∧ !s.isBase then
    match s.sec.relayBoot with
    | none =>
      let s := (s.orReg Reg.CSC_CTRL 0x7).cscCtrlWritten
      let s := (s.setReg64 Reg.CSC_RLY_BASE_LO s.relayArea).setReg Reg.CSC_RLY_SIZE 257
      (none, s.setSec { s.sec with relayBoot := some 0 })
    | some n =>
      let h := s.dramPeek s.relayArea 800
      if n = 0 ∨ n ≤ hdrNblk h then (none, s)
      else if overlaps (hdrLoad h) (65536 * hdrNblk h) s.relayArea (257 * 65536) then (some 4, s)
      else
        let (r, _, s') := s.tryImages [fun o k => s.dramPeek (s.relayArea + o) k] x.sigs 4
        (some r, s'.setSec { s'.sec with relayBoot := none })
  else s.bootUart x x.sigs 4

end Sys2Proof.Machine
end

