-- ==== Sys2Proof/Machine/Sec.lean ====
section
/-! DEFINITION. Ranger: its command interface, lifecycle, media keys, tokens and locks (R448 to R475). -/

namespace Sys2Proof.Machine

/-! ### Memory that Ranger reads and writes -/

/-- The bytes lie in the usable DRAM (R461). -/
def State.inDram (s : State) (a n : Nat) : Bool := decide (a + n ≤ s.dramBytes)

/-- Bytes of DRAM; none outside it or with uncorrectable data (R461: MEM). -/
def State.secRead (s : State) (a n : Nat) : Option (List W8) × State :=
  if !s.inDram a n then (none, s)
  else
    let (l, ue, s) := s.memRead a n
    (if ue then none else some l, s)

/-- Bytes stored at BUF, with OUTLEN in the command block; the result is MEM outside DRAM. -/
def State.secOut (s : State) (blk buf : Nat) (l : List W8) : Nat × State :=
  if !s.inDram buf l.length then (9, s)
  else (0, (s.memWrite buf l).memWrite (blk + 20) (leBytes 4 l.length))

/-! ### The command interface (R461) -/

/-- The command codes of R461. -/
def secCodes : List Nat := [1, 2, 3, 4, 5, 6, 7, 0x10, 0x11, 0x12, 0x13, 0x14, 0x20, 0x21, 0x22]

/-- A write of SEC_CMD: without GO, CODE is stored; GO while a command runs has no effect; else the command starts. -/
def State.secCmdWrite (s : State) (v : W32) : State :=
  if s.sec.cmd.isSome then s
  else if !tb v 8 then s.setFld Reg.SEC_CMD 0 8 (getF v 0 8)
  else
    let code := getF v 0 8
    let a := s.reg64 Reg.SEC_CMD_ADDR_LO
    let s := (s.setFld Reg.SEC_CMD 0 8 code).orReg Reg.SEC_CMD (bit 8)
    s.setSec { s.sec with
      cmd := some ⟨code, natF a 6 42 * 64, if secCodes.contains code then none else some 1, s.sec.arrived, false⟩
      arrived := s.sec.arrived + 1 }

/-- A command block: its address, BUF, LEN, ARG0 and ARG1. -/
structure SecBlk where
  at_ : Nat
  buf : Nat
  len : Nat
  arg0 : Nat
  arg1 : Nat
  deriving DecidableEq, Repr

/-- Ranger performs the command of `code` if that is the one that runs and it has no result yet: `f` gives the result, or
none while the work goes on. Ranger serves in order of arrival (R461). A block that cannot be read ends it with MEM. -/
def State.secDo (s : State) (code : Nat) (f : SecBlk → State → Option Nat × State) : State :=
  match s.sec.cmd with
  | none => s
  | some c =>
    if c.code ≠ code ∨ c.result.isSome ∨ !s.rangerTurn c.seq then s
    else match s.secRead c.addr 64 with
      | (none, s) => s.setSec { s.sec with cmd := some { c with result := some 9 } }
      | (some b, s) =>
        let (r, s) := f ⟨c.addr, leAt b 0 8, leAt b 8 4, leAt b 12 4, leAt b 16 4⟩ s
        s.setSec { s.sec with cmd := s.sec.cmd.map fun c => { c with result := r } }

/-- A command that always ends. -/
def State.secRun (s : State) (code : Nat) (f : SecBlk → State → Nat × State) : State :=
  s.secDo code fun b s =>
    let (r, s) := f b s
    (some r, s)

/-- The command that has its result ends: RESULT, GO and CMD_DONE (R461). -/
def State.secDone (s : State) : State :=
  match s.sec.cmd with
  | some c =>
    match c.result with
    | some r =>
      ((((s.setFld Reg.SEC_CMD 24 8 r).clrReg Reg.SEC_CMD (bit 8)).orReg Reg.SEC_STATUS (bit 0))).setSec { s.sec with cmd := none }
    | none => s
  | none => s

/-! ### Lifecycle (R452, R453) -/

/-- SEC_LC.STATE: 0 Open, 1 Sealed, 2 Unlocked, 3 Returned. -/
def State.lcNow (s : State) : Nat := s.fld Reg.SEC_LC 0 2
/-- Both image and token key hashes are provisioned. -/
def Sec.prov (x : Sec) : Bool := x.ckeyImg.isSome && x.ckeyTok.isSome
/-- Rights and issuer in force. -/
def State.setRights (s : State) (perm issuer : Nat) : State := (s.setFld Reg.SEC_LC 8 8 perm).setFld Reg.SEC_LC 7 1 issuer

/-- An OTP bit only goes from 0 to 1 (R450). -/
def otpOr (old : Option (List W8)) (l : List W8) : Option (List W8) :=
  some (match old with
    | some o => List.zipWith (· ||| ·) o l
    | none => l)

/-- PROVISION. -/
def State.secProvision (s : State) (b : SecBlk) : Nat × State :=
  if s.lcNow ≠ 0 then (2, s)
  else match s.secRead b.buf 240 with
    | (none, s) => (9, s)
    | (some l, s) =>
      let esc := sliceB l 192 48
      let x := s.sec
      let s := s.setSec { x with
        ckeyImg := otpOr x.ckeyImg (sliceB l 0 96), ckeyTok := otpOr x.ckeyTok (sliceB l 96 96)
        ckeyEsc := if ofLe esc = 0 then x.ckeyEsc else otpOr x.ckeyEsc esc }
      (0, s.orReg Reg.SEC_LC (bit 6))

/-- SEAL (R452, R453). -/
def State.secSeal (s : State) : Nat × State :=
  if s.lcNow ≠ 0 ∨ !s.sec.prov then (2, s)
  else (0, ((s.setSec { s.sec with lc := 1 }).setFld Reg.SEC_LC 0 2 1).setRights 0 0)

/-- RETURN (R452, R453): CUST_KILL, the key slots, the RETURNED fuses. -/
def State.secReturn (s : State) : Nat × State :=
  if s.lcNow = 3 ∨ (s.lcNow ≠ 0 ∧ !s.sec.returnOk) then (2, s)
  else
    let s := (s.setSec { s.sec with custKill := true, lc := 3, exportPair := 0 }).setSlots []
    (0, ((s.setFld Reg.SEC_LC 0 2 3).orReg Reg.SEC_LC (bit 5)).setRights 0 0)

/-- SVN_ADVANCE (R460). -/
def State.secSvn (s : State) (b : SecBlk) : Nat × State :=
  if (s.lcNow ≠ 1 ∧ s.lcNow ≠ 2) ∨ s.fld Reg.SEC_SVN 8 8 < b.arg0 then (2, s)
  else
    let m := max s.sec.minSvn b.arg0
    (0, (s.setSec { s.sec with minSvn := m }).setFld Reg.SEC_SVN 0 8 m)

/-! ### Media and export keys (R471 to R473) -/

/-- MK_GEN, MK_LOAD, MK_ESCROW and EXPORT_SIGN are refused (R454, R468, R474). -/
def State.keysDenied (s : State) : Bool := s.lcNow == 3 || s.sec.custKill || s.sec.noCust

/-- MK_GEN. -/
def State.mkGen (s : State) (b : SecBlk) : Nat × State :=
  if s.keysDenied then (2, s)
  else if 63 < b.arg0 then (6, s)
  else if !s.inDram b.buf 80 then (9, s)
  else
    let (x, s) := s.freeAny
    let k : BitVec 512 := BitVec.ofNat 512 x
    (s.setKeySlot b.arg0 k).secOut b.at_ b.buf (s.wrapBlob k)

/-- MK_LOAD. -/
def State.mkLoad (s : State) (b : SecBlk) : Nat × State :=
  if s.keysDenied then (2, s)
  else if 63 < b.arg0 then (6, s)
  else match s.secRead b.buf 80 with
    | (none, s) => (9, s)
    | (some l, s) =>
      match s.unwrapBlob l with
      | .format => (4, s)
      | .badKey => (0xB, s)
      | .key k => (0, s.setKeySlot b.arg0 k)

/-- MK_CLEAR. -/
def State.mkClear (s : State) (b : SecBlk) : Nat × State :=
  if 63 < b.arg0 then (6, s) else (0, s.setSlots (smDel s.sec.slots b.arg0))

/-- MK_EPOCH has programmed its slot. -/
def State.epochStaged (s : State) : Bool := s.sec.cmd.any (·.stage)

/-- MK_EPOCH: the next EPOCH slot is programmed; then it waits until every descriptor that has latched a slot has ended, and
clears every slot (R472). -/
def State.mkEpoch (s : State) : Option Nat × State :=
  if !s.epochStaged && (s.lcNow == 3 || s.sec.custKill) then (some 2, s)
  else if !s.epochStaged && decide (15 ≤ s.sec.epochs.length) then (some 7, s)
  else
    let s := if s.epochStaged then s else s.nextEpoch
    if s.dch.any (fun e => e.2.key.isSome) then
      (none, s.setSec { s.sec with cmd := s.sec.cmd.map fun c => { c with stage := true } })
    else (some 0, s.setSlots [])

/-- A number of bytes whose values the spec does not fix: signatures and encryptions. -/
def State.freeBytes (s : State) (n : Nat) : List W8 × State :=
  let (x, s) := s.freeAny
  (leBytes n x, s)

/-- MK_ESCROW: the LEN bytes at BUF are the blob and the escrow public key, whose SHA-384 must be CKEY_ESC (DEDUCED, log
entry 86). -/
def State.mkEscrow (s : State) (seed : BitVec 384) (b : SecBlk) : Nat × State :=
  if s.keysDenied ∨ s.sec.ckeyEsc = none then (2, s)
  else match s.secRead b.buf (max 80 b.len) with
    | (none, s) => (9, s)
    | (some l, s) =>
      match s.unwrapBlob (l.take 80) with
      | .format => (4, s)
      | .badKey => (0xB, s)
      | .key k =>
        if s.sec.ckeyEsc ≠ some (sha384 (l.drop 80)) then (0xB, s)
        else s.secOut b.at_ b.buf (beBytes 384 (Config.rsaOaep k (l.drop 80) seed).toNat)

/-- Export keys may be used: Open, Sealed, or Unlocked by a customer token, and not after R454 or R468. -/
def State.exportOk (s : State) : Bool :=
  !s.keysDenied && (s.lcNow != 2 || s.rbit Reg.SEC_LC 7)

/-- EXPORT_SIGN: both signatures over the 128 bytes at BUF. -/
def State.exportSign (s : State) (b : SecBlk) : Nat × State :=
  if !s.exportOk then (2, s)
  else match s.secRead b.buf 128 with
    | (none, s) => (9, s)
    | (some _, s) =>
      let (o, s) := s.freeBytes 16608
      s.secOut b.at_ b.buf o

/-- Two certificates, each behind its 4-byte length. -/
def certPair (c q : List W8) : List W8 := leBytes 4 c.length ++ c ++ leBytes 4 q.length ++ q

/-- EXPORT_CERT. -/
def State.exportCert (s : State) (b : SecBlk) (c q : List W8) : Nat × State :=
  if !s.exportOk then (2, s) else s.secOut b.at_ b.buf (certPair c q)

/-- IDENT_CERT. -/
def State.identCert (s : State) (b : SecBlk) (c q : List W8) : Nat × State := s.secOut b.at_ b.buf (certPair c q)

/-! ### Images and tokens -/

/-- The blocks of an image at BUF, from block `i` on; none when one cannot be read. -/
def State.imgBlocks (s : State) (buf : Nat) (table : List W8) (i : Nat) : Nat → Option Bool × State
  | 0 => (some true, s)
  | n + 1 =>
    match s.secRead (buf + 65536 * (i + 1)) 65536 with
    | (none, s) => (none, s)
    | (some d, s) => if sha384 d == tableDigest table i then s.imgBlocks buf table (i + 1) n else (some false, s)

/-- IMG_VERIFY: R458 without the copy; with ARG0 = 1, steps 1 to 3 only (R486). -/
def State.imgVerify (s : State) (b : SecBlk) (sg : Sigs) : Nat × State :=
  match s.secRead b.buf 65536 with
  | (none, s) => (9, s)
  | (some a, s) =>
    let h := sliceB a 0 800
    let table := sliceB a 17408 (48 * min (hdrNblk h) 256)
    match s.headCheck h table sg with
    | some e => (e, s)
    | none =>
      if b.arg0 = 1 then (0, s)
      else if b.len ≠ 65536 * (hdrNblk h + 1) then (4, s)
      else match s.imgBlocks b.buf table 0 (hdrNblk h) with
        | (none, s) => (9, s)
        | (some true, s) => (0, s)
        | (some false, s) => (3, s)

/-- A new nonce (R467). -/
def State.newNonce (s : State) : State :=
  (List.range 8).foldl (fun s i =>
    let (n, s) := s.freeAny
    s.setReg (Reg.SEC_NONCE i) (BitVec.ofNat 32 n)) s

/-- The token's layout is that of R466. -/
def tokenLayout (t : List W8) : Bool :=
  t.length == 16672 && leAt t 0 4 == 0x54445847 && leAt t 4 2 == 1 && decide (leAt t 6 1 ≤ 1) &&
    decide (leAt t 7 1 ≤ (if leAt t 6 1 = 0 then 3 else 0)) && decide (leAt t 48 4 < 64) && leAt t 52 12 == 0

/-- The keys of the token's issuer exist and are in force: both signatures can verify (R449, R450, R454, R467). -/
def State.tokenKeys (s : State) (t : List W8) : Bool :=
  if leAt t 6 1 = 1 then s.sec.ckeyTok.isSome && !s.sec.custKill else !(s.sec.vrevoke.testBit (leAt t 7 1))

/-- SERIAL and NONCE match (R467). -/
def State.tokenFits (s : State) (t : List W8) : Bool :=
  leAt t 8 8 == Config.serial.toNat && (List.range 8).all fun i => leAt t (16 + 4 * i) 4 == (s.reg (Reg.SEC_NONCE i)).toNat

/-- The rights of R474 that a token of this issuer may carry in the present state. -/
def State.tokenMax (s : State) (customer : Bool) : Nat :=
  if s.lcNow = 3 then (if customer then 0 else 0x1F)
  else if s.lcNow = 0 then (if customer then 0x2F else 0x1F)
  else if customer then 0x2F else 0x0F

/-- The issuer is one the state accepts at all (R474). -/
def State.tokenIssuerOk (s : State) (customer : Bool) : Bool :=
  !customer || (s.lcNow != 3 && s.sec.ckeyTok.isSome)

/-- A refused token: TOKEN_FAIL, the count and a new nonce (R467). -/
def State.tokenRefused (s : State) (code : Nat) : Nat × State :=
  (code, ((s.setSec { s.sec with refused := s.sec.refused + 1 }).orReg Reg.SEC_STATUS (bit 2)).newNonce)

/-- A token is presented (R466 to R468, R474): the result and the state after. -/
def State.tokenTry (s : State) (t : List W8) (sg : Sigs) : Nat × State :=
  let customer := leAt t 6 1 == 1
  let perm := leAt t 48 4
  if 3 ≤ s.sec.refused then s.tokenRefused 0xA
  else if !tokenLayout t then s.tokenRefused 4
  else if !s.tokenIssuerOk customer then s.tokenRefused 2
  else if !(sg.rsa && sg.slh && s.tokenKeys t && s.tokenFits t) then s.tokenRefused 3
  else if perm &&& s.tokenMax customer ≠ perm then s.tokenRefused 2
  else
    let wasSealed := s.lcNow == 1 || s.lcNow == 2
    let s := s.setRights (if s.lcNow = 0 then perm ||| 0x0F else perm) (b2n customer)
    let s := if s.lcNow = 1 then s.setFld Reg.SEC_LC 0 2 2 else s
    let s := s.orReg Reg.SEC_STATUS (bit 1)
    let s := if customer && perm.testBit 5 then s.setSec { s.sec with returnOk := true } else s
    if !customer && wasSealed && decide (perm &&& 6 ≠ 0) then
      (0, (s.setSec { s.sec with noCust := true }).setSlots [])
    else (0, s)

/-- TOKEN. -/
def State.secToken (s : State) (b : SecBlk) (sg : Sigs) : Nat × State :=
  match s.secRead b.buf 16672 with
  | (none, s) => (9, s)
  | (some t, s) => s.tokenTry t sg

/-! ### Locks (R462, R463) -/

/-- Lock bits set. -/
def State.secLock (s : State) (v : W32) : State := s.orReg Reg.SEC_LOCK (v &&& 0xF)

/-- The first thread other than HE40 t0 starts: in Sealed and Unlocked every lock sets (R463). -/
def State.autoLock (s : State) : State := if s.lcNow = 1 ∨ s.lcNow = 2 then s.secLock 0xF else s

end Sys2Proof.Machine
end

