-- ==== Sys2Proof/Machine/Ucs.lean ====
section
/-! DEFINITION. The control store: images, loads, the error log, and the run registers that start and halt threads
(R63, R72 to R97). -/

namespace Sys2Proof.Machine

/-! ### Microwords (R76, R77, R80, R81) -/

/-- A field of a microword. -/
def mwF (w : W128) (lo len : Nat) : Nat := natF w.toNat lo len
/-- CL, SEQ, TARGET, COND, ALUFN, ASEL, BSEL, DSEL, MEM, MW, UNIT, PWR, FLG, LIT. -/
def mwCl (w : W128) : Nat := mwF w 125 3
def mwSeq (w : W128) : Nat := mwF w 120 5
def mwTarget (w : W128) : Nat := mwF w 106 14
def mwCond (w : W128) : Nat := mwF w 100 6
def mwAlu (w : W128) : Nat := mwF w 94 6
def mwAsel (w : W128) : Nat := mwF w 89 5
def mwBsel (w : W128) : Nat := mwF w 84 5
def mwDsel (w : W128) : Nat := mwF w 79 5
def mwMem (w : W128) : Nat := mwF w 75 4
def mwWidth (w : W128) : Nat := 2 ^ mwF w 73 2
def mwUnit (w : W128) : Nat := mwF w 69 4
def mwPwr (w : W128) : Nat := mwF w 66 3
def mwFlg (w : W128) : Bool := w.getLsbD 64
def mwLit (w : W128) : Nat := mwF w 32 32

/-- First address of the customer RAM, and one past its last (R72). -/
def custBase : Nat := 0x2800
def custEnd : Nat := 0x2C00

/-- ALUFN values of R77. -/
def aluFnOpen (f : Nat) : Bool :=
  decide (f ≤ 0x0E) || f == 0x10 || f == 0x11 || f == 0x16 || f == 0x17 || f == 0x18 || (decide (0x30 ≤ f) && decide (f ≤ 0x33)) ||
    (decide (0x38 ≤ f) && decide (f ≤ 0x3A))

/-- A control-store target inside the customer region (R88). -/
def inCust (t : Nat) : Bool := decide (custBase ≤ t) && decide (t < custEnd)

/-- Every field of a microword holds a value that R77, R80 and R81 name, and VND and bit 65 are 0. -/
def microOpen (w : W128) : Bool :=
  mwF w 0 32 == 0 && mwF w 65 1 == 0 &&
  decide (mwSeq w ≤ 0x0A) && (decide (mwCond w ≤ 6) || decide (0x20 ≤ mwCond w)) && aluFnOpen (mwAlu w) &&
  decide (mwAsel w ≤ 0xF) && decide (mwBsel w ≤ 0xF) && (decide (mwDsel w ≤ 3) || (decide (5 ≤ mwDsel w) && decide (mwDsel w ≤ 8))) &&
  decide (mwMem w ≤ 4) && decide (mwUnit w ≤ 3) && decide (mwPwr w ≤ 4)

/-- R88 for the customer microword at control-store address `a`. That an MWAY's TARGET itself, beside TARGET + 15, lies in
the region is the model's reading (DESIGN CHOICE, log entry 31). -/
def microOk (a : Nat) (w : W128) : Bool :=
  let q := mwSeq w
  let t := mwTarget w
  microOpen w &&
  (if q = 0 ∨ q = 5 ∨ q = 10 then t == 0 else true) &&
  (if q = 9 then t % 256 == 1 || t % 256 == 2 else true) &&
  (if q = 1 ∨ q = 2 ∨ q = 3 ∨ q = 4 ∨ q = 7 then inCust t else true) &&
  (if q = 8 then inCust t && inCust (t + 15) else true) &&
  (if a = 0x2BFF then !([0, 2, 3, 4, 6, 7].contains q) else true)

/-! ### Images (R91) -/

/-- Words of a region: 2,048 of the vendor patch RAM, 1,024 of the customer RAM (R72). -/
def regionWords (region : Nat) : Nat := if region = 1 then 2048 else 1024

/-- The header, counts, reserved bytes and the table that must be zero are as R91 lays them down (DESIGN CHOICE, log entry 31). -/
def ucsHeadOk (region : Nat) (h : List W8) : Bool :=
  sliceB h 0 4 == [0x47, 0x58, 0x55, 0x43] && leAt h 4 2 == 1 && leAt h 6 1 == region && leAt h 7 1 != 0 &&
  decide (leAt h 8 2 ≤ regionWords region) && (sliceB h 10 6).all (· == 0) &&
  (if region = 1 then (sliceB h 16 64).all (· == 0) else (sliceB h 80 256).all (· == 0))

/-- Word `n` of an image's microwords as stored. -/
def ucsWord (img : List W8) (n : Nat) : W128 := BitVec.ofNat 128 (leAt img (336 + 16 * n) 16)
/-- Custom-entry table entry `n`. -/
def ucsEntry (img : List W8) (n : Nat) : W32 := BitVec.ofNat 32 (leAt img (16 + 4 * n) 4)
/-- Patch-trap table entry `n`. -/
def ucsTrap (img : List W8) (n : Nat) : W32 := BitVec.ofNat 32 (leAt img (80 + 4 * n) 4)

/-- A custom-entry table entry has its other bits 0. -/
def entryOk (e : W32) : Bool := getF e 10 4 == 0 && getF e 16 16 == 0
/-- Patch-trap entry `n` is right (R92): other bits 0; when valid, a ROM address, an offset below the word count, and no
earlier valid entry with its address. -/
def trapOk (img : List W8) (words n : Nat) : Bool :=
  let e := ucsTrap img n
  getF e 14 2 == 0 && getF e 27 4 == 0 &&
  (!(tb e 31) || (decide (getF e 0 14 < 0x2000) && decide (getF e 16 11 < words) &&
    (List.range n).all fun m => !(tb (ucsTrap img m) 31 && getF (ucsTrap img m) 0 14 == getF e 0 14)))

/-- The first table entry that fails; an entry whose other bits are not 0 counts as one (DESIGN CHOICE, log entry 31). -/
def ucsBadEntry (region : Nat) (img : List W8) (words : Nat) : Option Nat :=
  if region = 1 then (List.range 64).find? fun n => !(trapOk img words n)
  else (List.range 16).find? fun n => !(entryOk (ucsEntry img n))
/-- The first customer microword that fails R88. -/
def ucsBadWord (region : Nat) (img : List W8) (words : Nat) : Option Nat :=
  if region = 1 then none else (List.range words).find? fun n => !(microOk (custBase + n) (ucsWord img n))

/-! ### Loads (R93, R94) -/

/-- The control store set. -/
def State.setUcs (s : State) (u : Ucs) : State := { s with ucs := u }

/-- The load ends with `code` in RESULT: LOAD_DONE sets and START clears. -/
def State.ucsResult (s : State) (region code word : Nat) : State :=
  let v : W32 := BitVec.ofNat 32 (word * 2 ^ 16 + code * 16 + region)
  ((s.setReg Reg.UCS_LOAD_STATUS v).orReg Reg.UCS_STATUS (bit 0)).clrReg Reg.UCS_LOAD_CTRL (bit 0)

/-- The replicas with a region written anew: no half-word of it differs any more (R73, R93). -/
def repWithout (m : SMap CWord) (region : Nat) : SMap CWord :=
  m.filter fun e =>
    let a := e.1 % 32768 / 2
    if region = 1 then decide (a < 0x2000 ∨ custBase ≤ a) else decide (a < custBase ∨ custEnd ≤ a)

/-- The region has no valid image: nothing loaded, its table empty, its version and hash 0 (R93). -/
def State.ucsClear (s : State) (region : Nat) : State :=
  if region = 1 then
    let s := ((s.setFld Reg.UCS_VERSION 16 16 0).setReg Reg.UCS_PATCH_HASH 0).setUcs { s.ucs with patch := [], traps := [], rep := repWithout s.ucs.rep 1, load := none }
    { s with sec := { s.sec with patchHash := [] } }
  else
    let s := ((s.setFld Reg.UCS_VERSION 0 16 0).setReg Reg.UCS_CUST_HASH 0).setUcs { s.ucs with cust := [], entries := [], rep := repWithout s.ucs.rep 2, load := none }
    { s with sec := { s.sec with custHash := [] } }

/-- A load that runs fails with `code`. -/
def State.ucsFail (s : State) (region code word : Nat) : State := (s.ucsClear region).ucsResult region code word

/-- A thread other than the caller runs. -/
def State.othersRun (s : State) (ag : Agent) : Bool :=
  (List.range 192).any fun p => s.runBit p && !(match ag with | .thread q => q.toNat == p | _ => false)

/-- A write of UCS_LOAD_CTRL (R93, R94): BUSY comes before BADREGION; `startNow` says that a thread start falls in the same
cycle. START while a load runs has no effect (DESIGN CHOICE, log entry 31). -/
def State.ucsCtrlWrite (s : State) (ag : Agent) (v : W32) (startNow : Bool) : State :=
  if s.ucs.load.isSome then s
  else
    let region := getF v 1 2
    let s := s.setFld Reg.UCS_LOAD_CTRL 1 2 region
    if !tb v 0 then s
    else if s.othersRun ag ∨ startNow then s.ucsResult region 3 0xFFFF
    else if region = 0 ∨ region = 3 then s.ucsResult region 4 0xFFFF
    else
      let s := (s.orReg Reg.UCS_LOAD_CTRL (bit 0)).setReg Reg.UCS_LOAD_STATUS (BitVec.ofNat 32 (0xFFFF0010 + region))
      let u := { s.ucs with load := some (region, s.reg64 Reg.UCS_LOAD_ADDR_LO) }
      s.setUcs (if region = 1 then { u with traps := [] } else { u with entries := [] })

/-- The load is abandoned because a thread is started (R94). -/
def State.ucsAbandon (s : State) : State :=
  match s.ucs.load with
  | some (r, _) => s.ucsFail r 0xA 0xFFFF
  | none => s

/-- The table of words from index `k` on; zero words are not listed. -/
def wordTable (l : List W128) (k : Nat) : SMap W128 :=
  match l with
  | [] => []
  | w :: t => if w = 0 then wordTable t (k + 1) else (k, w) :: wordTable t (k + 1)

/-- An image that passed takes effect: words, tables, version and hash (R93). -/
def State.ucsInstall (s : State) (region : Nat) (img : List W8) (words : List W128) : State :=
  let h := sha384 (img.take (364 + 16 * leAt img 8 2))
  let ver := leAt img 7 1
  let h0 := leAt h 0 1
  let h4 := BitVec.ofNat 32 (leAt h 0 4)
  if region = 1 then
    let traps := (List.range 64).filterMap fun n =>
      let e := ucsTrap img n
      if tb e 31 then some (n, getF e 0 14, getF e 16 11) else none
    let s := (s.setFld Reg.UCS_VERSION 16 16 (ver * 256 + h0)).setReg Reg.UCS_PATCH_HASH h4
    let s := s.setUcs { s.ucs with patch := wordTable words 0, traps := traps, rep := repWithout s.ucs.rep 1, load := none }
    { s with sec := { s.sec with patchHash := h } }
  else
    let entries := (List.range 16).filterMap fun n =>
      let e := ucsEntry img n
      if tb e 15 then some (n, getF e 0 10, tb e 14) else none
    let s := (s.setFld Reg.UCS_VERSION 0 16 (ver * 256 + h0)).setReg Reg.UCS_CUST_HASH h4
    let s := s.setUcs { s.ucs with cust := wordTable words 0, entries := entries, rep := repWithout s.ucs.rep 2, load := none }
    { s with sec := { s.sec with custHash := h } }

/-- The key that a region needs is provisioned: CKEY_IMG for a customer region, not in Returned (R459). -/
def State.ucsKeyOk (s : State) (region : Nat) : Bool := region == 1 || (s.lcNow != 3 && s.sec.ckeyImg.isSome)

/-- The microwords of an image as they stand in it. -/
def ucsStored (img : List W8) (n : Nat) : List W128 := (List.range n).map (ucsWord img)

/-- The microwords of a vendor patch in the clear, when its AES-256-GCM tag checks under PATCH_KEY; no data is authenticated
beside them (R92; DEDUCED, log entry 31). -/
def ucsPlain (img : List W8) (n : Nat) : Option (List W128) :=
  (gcmOpen (leBytes 32 Config.patchKey.toNat) (sliceB img (336 + 16 * n) 12) (sliceB img 336 (16 * n))
    (sliceB img (348 + 16 * n) 16)).map fun l => (List.range n).map fun i => BitVec.ofNat 128 (leAt l (16 * i) 16)

/-- The IV and the tag of a customer image are 0 (R91). -/
def ucsTailOk (region : Nat) (img : List W8) (n : Nat) : Bool :=
  region == 1 || (sliceB img (336 + 16 * n) 28).all (· == 0)

/-- The load ends (R91 to R93, R459): `sg` is what Ranger finds of the two signatures, `gen` the generation of the vendor key
that made them. -/
def State.ucsEnd (s : State) (sg : Sigs) (gen : Nat) : State :=
  match s.ucs.load with
  | none => s
  | some (r, a) =>
    let (h, ue, s) := s.memRead a 336
    if ue then s.ucsFail r 0xB 0xFFFF
    else if !(ucsHeadOk r h) then s.ucsFail r 5 0xFFFF
    else
      let n := leAt h 8 2
      let (img, ue, s) := s.memRead a (748 + 16 * n + 16224)
      if ue then s.ucsFail r 0xB 0xFFFF
      else if !(ucsTailOk r img n) then s.ucsFail r 5 0xFFFF
      else if !(s.ucsKeyOk r) then s.ucsFail r 0xC 0xFFFF
      else if !sg.rsa ∨ !sg.slh ∨ (r = 1 ∧ s.sec.vrevoke.testBit gen) then s.ucsFail r 6 0xFFFF
      else match (if r = 1 then ucsPlain img n else some (ucsStored img n)) with
        | none => s.ucsFail r 7 0xFFFF
        | some words =>
          match ucsBadWord r img n, ucsBadEntry r img n with
          | some w, _ => s.ucsFail r 8 w
          | none, some e => s.ucsFail r 9 e
          | none, none => (s.ucsInstall r img words).ucsResult r 2 0xFFFF

/-! ### The store as read (R72, R87) -/

/-- The word that ROM or load put at a control-store address; none where it is unpopulated. -/
def State.storeWord (s : State) (a : Nat) : Option W128 :=
  if a < 0x2000 then some (Config.romWord a)
  else if a < custBase then some (smGet (fun _ => 0) s.ucs.patch (a - 0x2000))
  else if a < custEnd then some (smGet (fun _ => 0) s.ucs.cust (a - custBase))
  else none

/-- Where the replica of `camp` holds half `up` of the word at address `a`. -/
def repKey (camp a : Nat) (up : Bool) : Nat := camp * 32768 + a * 2 + b2n up

/-- A half of a word: bits 63:0, or with `up` 127:64. -/
def halfOf (w : W128) (up : Bool) : W64 := if up then w.extractLsb' 64 64 else w.setWidth 64

/-- Half `up` of the word at address `a` in the replica of `camp`, as stored with its check bits (R73, R96); an unpopulated
address reads 0. -/
def State.repHalf (s : State) (camp a : Nat) (up : Bool) : CWord :=
  (smFind s.ucs.rep (repKey camp a up)).getD ⟨halfOf ((s.storeWord a).getD 0) up, 0⟩

/-- That half stored; a good copy is not listed. -/
def State.setRepHalf (s : State) (camp a : Nat) (up : Bool) (c : CWord) : State :=
  let k := repKey camp a up
  let good : CWord := ⟨halfOf ((s.storeWord a).getD 0) up, 0⟩
  s.setUcs { s.ucs with rep := if c = good then smDel s.ucs.rep k else smSet s.ucs.rep k c }

/-- The word at address `a` in the replica of `camp`, single errors corrected. -/
def State.repWord (s : State) (camp a : Nat) : W128 :=
  (correctedData (s.repHalf camp a true)).append (correctedData (s.repHalf camp a false))

/-- UCS_PEEK_ADDR written: D0 to D3 take the word of camp 0's replica, single errors corrected (DESIGN CHOICE, log entry 31);
ROM and vendor patch RAM read 0 without the VENDOR right (R474). -/
def State.peekWrite (s : State) (v : W32) : State :=
  let s := s.setReg Reg.UCS_PEEK_ADDR (v &&& maskF 0 14)
  let a := getF v 0 14
  let ok := (decide (custBase ≤ a) || s.rightsNow.testBit 4)
  let w := if ok ∧ (s.storeWord a).isSome then (s.repWord 0 a).toNat else 0
  (List.range 4).foldl (fun s i => s.setReg (Reg.UCS_PEEK_ADDR + 4 + 4 * i) (BitVec.ofNat 32 (w / 2 ^ (32 * i)))) s

/-! ### Errors of the store (R97, R400) -/

/-- The entry of UCS_ERRLOG that an error takes: the one with its ADDR, CAMP, HALF and kind, else the lowest free one, else
the oldest correctable one. -/
def State.ucsLogSlot (s : State) (key : W32) : Option (Nat × Bool) :=
  let e := fun n => s.reg (Reg.UCS_ERRLOG n)
  match (List.range 16).find? (fun n => (e n &&& ~~~ maskF 22 4) == key) with
  | some n => some (n, true)
  | none =>
    match (List.range 16).find? (fun n => !(tb (e n) 31)) with
    | some n => some (n, false)
    | none =>
      let ces := (List.range 16).filter fun n => !(tb (e n) 30)
      let t := fun n => (s.reg (Reg.UCS_ERRLOG_TIME n)).toNat
      match ces.find? (fun n => ces.all fun m => decide (t n ≤ t m)) with
      | some n => some (n, false)
      | none => none

/-- An error of the replica of `camp` is logged. -/
def State.ucsLog (s : State) (addr camp : Nat) (upper ue : Bool) : State :=
  let key : W32 := BitVec.ofNat 32 (2 ^ 31 + b2n ue * 2 ^ 30 + camp * 2 ^ 27 + b2n upper * 2 ^ 26 + addr)
  match s.ucsLogSlot key with
  | some (n, same) =>
    let cnt := if same then satAdd (s.fld (Reg.UCS_ERRLOG n) 22 4) 1 4 else 0
    (s.setReg (Reg.UCS_ERRLOG n) (setF key 22 4 cnt)).setReg (Reg.UCS_ERRLOG_TIME n) (BitVec.ofNat 32 s.rtc)
  | none => s

/-- Upsets of the stored bits (R96). -/
def State.ucsUpset (s : State) (l : List UcsUpset) : State :=
  l.foldl (fun s u => s.setRepHalf u.camp u.addr.toNat u.upper ((s.repHalf u.camp u.addr.toNat u.upper).upset u.flips)) s

/-- A correctable error of the replica of `camp` is counted and logged (R97). -/
def State.ucsCe (s : State) (camp a : Nat) (up : Bool) : State :=
  ((s.incFld Reg.UCS_CE_COUNT 0 16).orReg Reg.UCS_STATUS (bit 1)).ucsLog a camp up false

/-- The fetch of one half by an engine of `camp` (R97): its data and the cycles added, or none when both copies are
uncorrectable. A correctable error is corrected, counted and logged, and the bad copy stays; an uncorrectable half comes from
the next camp's replica, and in a writable region the good copy is written back. -/
def State.ucsHalf (s : State) (camp a : Nat) (up : Bool) : Option (W64 × Nat) × State :=
  let c := s.repHalf camp a up
  match diagnose c.syn with
  | .good => (some (c.data, 0), s)
  | .corrected _ => (some (correctedData c, 0), s.ucsCe camp a up)
  | _ =>
    let s := s.ucsLog a camp up true
    let k := (camp + 1) % 6
    let c2 := s.repHalf k a up
    if c2.bad then (none, (s.orReg Reg.UCS_STATUS (bit 3)).ucsLog a k up true)
    else
      let s := if diagnose c2.syn = .good then s else s.ucsCe k a up
      let s := s.orReg Reg.UCS_STATUS (bit 2)
      (some (correctedData c2, 12), if a < 0x2000 then s else s.setRepHalf camp a up ⟨correctedData c2, 0⟩)

/-- The address an engine reads for a fetch of address `a`: a valid trap entry redirects a ROM address (R87). -/
def State.trapAddr (s : State) (a : Nat) : Nat :=
  match s.ucs.traps.find? fun e => e.2.1 == a with
  | some e => if a < 0x2000 then 0x2000 + e.2.2 else a
  | none => a

/-- What a microword fetch gives. -/
inductive UcsFetch where
  /-- The address is unpopulated (R74). -/
  | hole
  /-- Both copies are uncorrectable (R97). -/
  | lost
  /-- The word, and the cycles added. -/
  | word (w : W128) (cycles : Nat)
  deriving DecidableEq, Repr

/-- A microword fetched by an engine of `camp` from address `a` (R74, R87, R97). -/
def State.ucsFetch (s : State) (camp a : Nat) : UcsFetch × State :=
  let a := s.trapAddr a
  match s.storeWord a with
  | none => (.hole, s)
  | some _ =>
    match s.ucsHalf camp a false with
    | (none, s) => (.lost, s)
    | (some (lo, n), s) =>
      match s.ucsHalf camp a true with
      | (none, s) => (.lost, s)
      | (some (hi, k), s) => (.word (hi.append lo) (n + k), s)

/-! ### Thread start and halt (R63) -/

/-- Thread `p` starts: its registers take their reset values, its inbox is kept, and it fetches at SYS_THR_ENTRY. -/
def State.startThread (s : State) (p : Nat) : State :=
  let pc := BitVec.ofNat 64 (s.reg64 Reg.SYS_THR_ENTRY_LO / 4 * 4)
  let t : Thread := { Thread.reset with pc := pc, inbox := (s.thr p).inbox }
  let s := (s.setThr p t).setRunBit p true
  if p = 160 then s else s.autoLock

/-- Thread `p` halts at its next instruction boundary (R63): a load from a cascade window or a microcoded instruction under
way is completed first, and the run bit clears then. -/
def State.haltThread (s : State) (p : Nat) : State :=
  match (s.thr p).wait with
  | .casc _ _ _ _ => s.setThr p { s.thr p with halting := true }
  | .micro _ _ _ _ _ _ => s.setThr p { s.thr p with halting := true }
  | _ => (s.setRunBit p false).setThr p { s.thr p with wait := .none }

/-- A write of SYS_CAMPn_RUN (R63): a 1 to a 0 bit starts, a 0 to a 1 bit halts; `haltNow` marks threads whose HALT clears
their bit in the same cycle, which start again where a 1 is written (R21). A start while a load runs abandons it (R94). -/
def State.runWrite (s : State) (c : Nat) (v haltNow : W32) : State :=
  if s.pwr.rst.isSome ∨ s.pwr.trip then s
  else
    let one := fun (s : State) (i : Nat) =>
      let p := 32 * c + i
      let now := s.runBit p && !(tb haltNow i)
      if tb v i ∧ !now then (s.ucsAbandon).startThread p
      else if !tb v i ∧ s.runBit p then s.haltThread p
      else s
    (List.range 32).foldl one s

end Sys2Proof.Machine
end

