-- ==== Sys2Proof/Machine/RegSpace.lean ====
section
/-! DEFINITION. The register space as every agent reaches it (R3 to R6, R21 to R27): what a read returns and changes, and
what a write of each register starts, by the chapter that describes the register. -/

namespace Sys2Proof.Machine

/-! ### Reads -/

/-- What a MEM_ELOG register shows of the memory selected (R400). -/
def State.elogReg (s : State) (off : Nat) : W32 :=
  let id := s.fld Reg.MEM_ELOG_SEL 0 7
  if !elogIdOk id then 0
  else if off = Reg.MEM_ELOG_CNT then
    BitVec.ofNat 32 ((s.elogCntAt id).ue * 2 ^ 16 + (s.elogCntAt id).ce)
  else
    let e := s.elogAt id ((off - 0x050100) / 16)
    match (off - 0x050100) % 16 with
    | 0 => BitVec.ofNat 32 e.addr
    | 4 => BitVec.ofNat 32 (e.addr / 2 ^ 32)
    | 8 => BitVec.ofNat 32 (b2n e.valid * 2 ^ 31 + b2n e.ue * 2 ^ 30 + b2n e.sweep * 2 ^ 29 + b2n e.repaired * 2 ^ 28 +
        e.count * 2 ^ 24 + e.bitNo)
    | _ => BitVec.ofNat 32 e.time

/-- The register shows the error log of the selected memory. -/
def isElogReg (off : Nat) : Bool := off == Reg.MEM_ELOG_CNT || (decide (0x050100 ≤ off) && decide (off < 0x050200))

/-- The value a read returns, without its effects: WO ports and blocks held in reset read 0 (R4, R6, R13). -/
def State.regNow (s : State) (off : Nat) : W32 :=
  if s.heldInReset off then 0
  else if isElogReg off then s.elogReg off
  else if 0x034000 ≤ off ∧ off < 0x034C00 then 0
  else s.reg off

/-- RC fields take their reset value, plus an increment that falls in the same cycle (R6, R22). -/
def State.readClr (s : State) (off : Nat) (r : RegRow) (inc : W32) : State :=
  let rc : W32 := BitVec.ofNat 32 r.rc
  if rc = 0 ∨ s.heldInReset off then s
  else if off = Reg.MEM_ELOG_CNT then
    let id := s.fld Reg.MEM_ELOG_SEL 0 7
    if !elogIdOk id then s
    else { s with mem := { s.mem with
      elogCnt := smPut elogCntDflt s.mem.elogCnt id ⟨getF inc 16 16, getF inc 0 16⟩ } }
  else s.setReg off ((s.reg off &&& ~~~ rc) ||| ((BitVec.ofNat 32 r.rst + inc) &&& rc))

/-- An aligned 32-bit read of the register at `off` (R3, R6, R22, R25). -/
def State.regRead (s : State) (ag : Agent) (off : Nat) (inc : W32) : W32 × State :=
  if isPairLo off || isPairHi off then
    (if s.heldInReset off then (0, s) else s.pairRead ag off s.regNow)
  else match regRow? off with
    | some r => (s.regNow off, s.readClr off r inc)
    | none => (0, s)

/-! ### Writes -/

/-- The index of offset `off` in an array of `n` registers at `base` with stride `d`. -/
def regIx (off base d n : Nat) : Option Nat :=
  if base ≤ off ∧ (off - base) % d = 0 ∧ (off - base) / d < n then some ((off - base) / d) else none

/-- The agent is thread `p`. -/
def agIs (ag : Agent) (p : Nat) : Bool := match ag with | .thread q => q.toNat == p | _ => false

/-- SYS registers (R63, R420, R430, R432, R511). -/
def State.wrSys (s : State) (off : Nat) (v : W32) : Option State :=
  match regIx off 0x100 4 6 with
  | some c => some (s.runWrite c v 0)
  | none =>
    if off = Reg.SYS_RST_CTRL then some (s.rstCtrlWrite v)
    else if off = Reg.SYS_WDOG then some (s.wdogWrite v)
    else if off = Reg.SYS_WDOG_KICK then some (s.wdogKick v)
    else if off = Reg.SYS_PWR then some (s.pwrWrite v)
    else if off = Reg.SYS_BIV_ENTER then some (s.bivEnterWrite v)
    else none

/-- HIF registers (R348). -/
def State.wrHif (s : State) (off : Nat) (v : W32) : Option State :=
  (regIx off 0x020118 0x40 2).map fun n => s.ltrWrite n v

/-- NVQ registers (R289 to R298). -/
def State.wrNvq (s : State) (ag : Agent) (off : Nat) (v : W32) : Option State :=
  if off = Reg.NVQ_CTRL then some ((s.basicWrite off v 0 0).nvqCtrlWritten)
  else if off = Reg.NVQ_ROUTE then some ((s.basicWrite off v 0 0).routeWritten)
  else if off = Reg.NVQ_BC_CFG then some ((s.basicWrite off v 0 0).nvqBases)
  else match regIx off 0x034000 4 768 with
    | some k =>
      if !(agIs ag (k / 4)) then some s
      else if k % 4 = 3 then
        match ag with
        | .thread p => some (s.cplPortWrite ag p v)
        | _ => some s
      else some (s.setReg off v)
    | none => none

/-- Messages held for want of a camp go to the camps now named (R371). -/
def State.msgRouteWritten (s : State) : State :=
  let m := s.fld Reg.CSC_MSG_ROUTE 0 6
  if m = 0 then s
  else
    let go := s.heldMsgs.filter fun h => h.block == 40 && h.mask == 0
    let s := { s with heldMsgs := s.heldMsgs.filter fun h => !(h.block == 40 && h.mask == 0) }
    go.foldl (fun s h => s.post { h with mask := m }) s

/-- CSC registers (R352, R354, R362, R363, R371, R378). -/
def State.wrCsc (s : State) (ag : Agent) (off : Nat) (v : W32) : Option State :=
  if off = Reg.CSC_CTRL then some ((s.basicWrite off v 0 0).cscCtrlWritten)
  else if off = Reg.CSC_SB then some (s.writeSb v)
  else if off = Reg.CSC_RESET then some ((s.writeCscReset v).setFld off 4 1 (getF v 4 1))
  else if off = Reg.CSC_MSG_ROUTE then some ((s.basicWrite off v 0 0).msgRouteWritten)
  else match regIx off 0x040104 0x40 2 with
    | some z => some (s.writeZCtrl z v)
    | none =>
      if (regIx off 0x040240 4 4).isSome then
        let t := s.basicWrite off v 0 0
        some (if t.reg off = s.reg off then t else t.orReg Reg.CSC_STATUS (bit 7))
      else
      match regIx off 0x044010 0x20 192 with
      | some p => some (if agIs ag p then s.writeMsgSend p v else s)
      | none => none

/-- DMA registers (R408, R414, R415). -/
def State.wrDma (s : State) (off : Nat) (v : W32) : Option State :=
  match regIx off 0x071000 0x40 32 with
  | some c => some (s.dmaCtrlWrite c v false)
  | none => (regIx off 0x07101C 0x40 32).map fun c => s.rdptrWritten c v

/-- Registers of a media channel (R124, R132, R137, R163, R164, R174, R421, R530). -/
def State.wrMca (s : State) (m off : Nat) (v : W32) : Option State :=
  if off = Reg.MCA_CTRL m then
    some (((if tb v 0 then s.endSpun else s).basicWrite off v 0 0).mcaCtrlWritten m)
  else if off = Reg.MCA_ZONE_SEL m then
    let s := s.basicWrite off v 0 0
    some (s.setMed m { s.med m with zonePend := true })
  else if off = Reg.MCA_RDR_MASK m 0 ∨ off = Reg.MCA_RDR_MASK m 1 ∨ off = Reg.MCA_RDR_MASK m 2 then
    some ((s.basicWrite off v 0 0).feWritten m)
  else if off = Reg.MCA_RD_CTRL m then some (s.rdCtrlWrite m v false)
  else if off = Reg.MCA_RET_UNPIN m then some (s.retUnpin m v)
  else if off = Reg.MCA_WR_CTRL m then some (s.wrCtrlWrite m v false)
  else if off = Reg.MCA_PSI_CTRL m then some (s.psiWrite m v)
  else none

/-- Guyline registers (R194, R195, R199, R210). -/
def State.wrGyl (s : State) (off : Nat) (v : W32) : Option State :=
  if off = Reg.GYL_CTRL then some ((s.basicWrite off v 0 0).gylCtrlWritten)
  else match regIx off 0x0A1000 0x400 6 with
    | some c => some (s.ctxCtrlWrite c v)
    | none =>
      if 0x0A1000 ≤ off ∧ off < 0x0A2800 ∧ 0x100 ≤ (off - 0x0A1000) % 0x400 ∧ (off - 0x0A1000) % 0x400 < 0x200 then
        some (s.stateWrite ((off - 0x0A1000) / 0x400) ((off - 0x0A1000) % 0x400 / 4 - 0x40) v)
      else match regIx off 0x0A3000 0x100 2 with
      | some a => some (s.actCtrlWrite a v)
      | none => match regIx off 0x0A3030 0x100 2 with
        | some a => some (s.loadWrite a v)
        | none => (regIx off 0x0A303C 0x100 2).map fun a => s.adiQueue a 6 (getF v 0 18)

/-- What a write of a single register starts beyond its access types; none where it starts nothing. -/
def State.wrSpecial (s : State) (ag : Agent) (off : Nat) (v : W32) : Option State :=
  match off / 0x10000 with
  | 0 => s.wrSys off v
  | 2 => s.wrHif off v
  | 3 => s.wrNvq ag off v
  | 4 => s.wrCsc ag off v
  | 5 =>
    if off = Reg.MEM_CTRL then some (s.memCtrlWrite v)
    else (regIx off 0x050108 16 16).map fun n =>
      let id := s.fld Reg.MEM_ELOG_SEL 0 7
      if tb v 31 ∧ elogIdOk id then s.setElog id n { s.elogAt id n with valid := false } else s
  | 6 => if off = Reg.CCH_WAYPWR then some (s.wayWrite v) else none
  | 7 => s.wrDma off v
  | 8 => s.wrMca 0 off v
  | 9 => s.wrMca 1 off v
  | 10 => s.wrGyl off v
  | 11 => if off = Reg.SPN_CTRL then some (s.spnCtrlWrite v) else if off = Reg.SPN_CHOP then some (s.chopClr v false) else none
  | 12 =>
    if off = Reg.THM_THROT then some ((s.basicWrite off v 0 0).throttle)
    else (regIx off 0x0C0100 4 24).map fun n => s.sensorWrite n v
  | 13 =>
    if off = Reg.EVT_CKPT then some (s.ckptWrite v) else if off = Reg.EVT_SUMCLR then some (s.sumClear v) else none
  | 14 => if off = Reg.SEC_CMD then some (s.secCmdWrite v) else none
  | 15 => (regIx off 0x0F1010 0x20 8).map fun c => s.idxGo c v
  | 17 =>
    if off = Reg.UCS_LOAD_CTRL then some (s.ucsCtrlWrite ag v false)
    else if off = Reg.UCS_PEEK_ADDR then some (s.peekWrite v)
    else none
  | 18 =>
    if off = Reg.NVI_GS_CTRL then some (s.gsCtrlWrite v)
    else if off = Reg.NVI_GPIO_OUT ∨ off = Reg.NVI_GPIO_OE then some (s.basicWrite off v 0 0).gpioDrive
    else (regIx off 0x122000 4 192).map fun p => if agIs ag p then s.chargeAdjust p v.toInt else s
  | _ => none

/-- The 64-bit value of a pair takes effect at the write of _HI (R25); a port of a thread ignores other agents. -/
def State.wrPairHi (s : State) (ag : Agent) (off : Nat) (v : W32) : State :=
  let lo := off - 4
  if lo = Reg.EMB_RTC_LO then
    let (l, s) := s.takeLo ag lo
    s.rtcWrite (l.toNat + 2 ^ 32 * v.toNat)
  else if lo = Reg.OBJ_RCLOCK_LO then s.rclockWrite ag v
  else match regIx off 0x0D4004 16 192 with
    | some p =>
      (match ag with
      | .thread q => if q.toNat = p then s.evtPostWrite q v else s
      | _ => s)
    | none =>
      if 0x044000 ≤ off ∧ off < 0x045800 ∧ !(agIs ag ((off - 0x044000) / 32)) then s
      else
        let (l, s) := s.takeLo ag lo
        let s := (s.basicWrite lo l 0 0).basicWrite off v 0 0
        if off / 0x10000 = 3 then s.nvqBases else s

/-- A _LO half written by an agent that may write its pair (R25). -/
def State.wrPairLo (s : State) (ag : Agent) (off : Nat) (v : W32) : State :=
  match regIx off 0x0D4000 16 192 with
  | some p => if agIs ag p then s.pendLo ag off v else s
  | none =>
    if 0x044000 ≤ off ∧ off < 0x045800 ∧ !(agIs ag ((off - 0x044000) / 32)) then s else s.pendLo ag off v

/-- A write that starts something, with the bits that hardware sets and clears in the same cycle (R21): a command bit that
hardware clears is cleared first, so that a write of 1 starts anew; a 1 written to another bit that hardware clears is lost; a
status bit that hardware sets is not cleared. -/
def State.specialWrite (s : State) (ag : Agent) (off : Nat) (v hwSet hwClr : W32) : Option State :=
  let m := (regRow? off).map fun r => (BitVec.ofNat 32 (r.cmd ||| r.w1s), BitVec.ofNat 32 r.hwc, BitVec.ofNat 32 r.w1c)
  let (cmd, hwc, w1c) : W32 × W32 × W32 := m.getD (0, 0, 0)
  let t := if hwClr &&& cmd = 0 then s else s.clrReg off (hwClr &&& cmd)
  (t.wrSpecial ag off (v &&& ~~~ (hwClr &&& hwc) &&& ~~~ (hwSet &&& w1c))).map fun u =>
    if hwSet &&& w1c = 0 then u
    else match regIx off 0x050108 16 16 with
      | some n =>
        let id := s.fld Reg.MEM_ELOG_SEL 0 7
        if elogIdOk id then u.setElog id n { u.elogAt id n with valid := true } else u
      | none => u.orReg off (hwSet &&& w1c)

/-- An aligned 32-bit write of the register at `off` (R3 to R6, R21, R25), with the bits that hardware sets and clears in the
same cycle. -/
def State.regWrite (s : State) (ag : Agent) (off : Nat) (v hwSet hwClr : W32) : State :=
  if s.heldInReset off then s
  else if isPairHi off then s.wrPairHi ag off v
  else if isPairLo off then s.wrPairLo ag off v
  else match s.specialWrite ag off v hwSet hwClr with
    | some s => s
    | none => s.basicWrite off v hwSet hwClr

/-! ### Accesses of any width (R3) -/

/-- A read of `n` bytes at register offset `off`: anything but an aligned 32-bit access reads 0 and has no effect. -/
def State.regLoad (s : State) (ag : Agent) (off n : Nat) : Nat × State :=
  if n = 4 ∧ off % 4 = 0 then
    let (v, s) := s.regRead ag off 0
    (v.toNat, s)
  else (0, s)

/-- A write of `n` bytes at register offset `off`: anything but an aligned 32-bit access has no effect. -/
def State.regStore (s : State) (ag : Agent) (off : Nat) (l : List W8) : State :=
  if l.length = 4 ∧ off % 4 = 0 then s.regWrite ag off (BitVec.ofNat 32 (ofLe l)) 0 0 else s

end Sys2Proof.Machine
end

