-- ==== Sys2Proof/Machine/Access.lean ====
section
/-! DEFINITION. What loads, stores, atomics and cache maintenance of the engines do once their checks have passed (R40 to R55). -/

namespace Sys2Proof.Machine

/-- The effective address of format M (R33, R40). -/
def State.ea (s : State) (p : Nat) (ra : R5) (imm : W16) : W64 := (s.thr p).getG ra.toNat + simm imm

/-- The value of `n` bytes in a register: sign- or zero-extended (R33). -/
def extend (signed : Bool) (n x : Nat) : W64 := if signed then sext64 (8 * n) x else BitVec.ofNat 64 x

/-- The load of `n` bytes at `ea` by thread `p` into `rd`, its checks passed (R33, R43, R47, R48). -/
def State.loadAt (s : State) (p rd : Nat) (ea : W64) (n : Nat) (signed : Bool) : State :=
  match s.resolve ea with
  | .reg off =>
    let (v, s) := s.regLoad (.thread (Fin.ofNat _ p)) off n
    s.advG p rd (extend signed n v)
  | .casc q off =>
    match s.cascLoad p q off n with
    | (some t, s) => s.setThr p { s.thr p with wait := .casc t rd n signed }
    | (none, s) => s.raise p (excMem ea)
  | pl =>
    let (l, ue, s) := s.memRead pl.localAddr n
    if ue then s.raise p (excMem ea) else s.advG p rd (extend signed n (ofLe l))

/-- The bytes `l` stored at `ea` by thread `p`, the store's checks passed (R33, R18, R125). -/
def State.storeAt (s : State) (p : Nat) (ea : W64) (l : List W8) : State :=
  match s.resolve ea with
  | .reg off => s.regStore (.thread (Fin.ofNat _ p)) off l
  | .casc q off => s.cascStore p q off l
  | pl => s.memWrite pl.localAddr l

/-! ### Upsets of stored words (R393) -/

/-- A DRAM word as it stands after an upset, its check bits not renewed. -/
def State.setDramRaw (s : State) (w : Nat) (c : CWord) : State :=
  { s with mem := { s.mem with
      dram := writeDramCells s.mem.dram (8 * w) (leBytes 8 c.data.toNat)
      dramSyn := smPut synDflt s.mem.dramSyn w c.syn } }

/-- The stored word that `ea` names is upset: in the cache where a line holds it, else in its memory. A DRAM word that was
never written whole is uncorrectable as it is. -/
def State.upsetAt (s : State) (ea : W64) (u : BitVec 80) : State :=
  if u = 0 then s
  else match s.resolve ea with
    | .dram a =>
      let w := a / 8
      if (s.inSet (w / 8)).isSome || (s.inVict (w / 8)).isSome then s.setCw w ((s.heldWord w).upset u)
      else if s.mem.ready && s.dramWritten w then s.setDramRaw w ((s.dramWord w).upset u)
      else s
    | .sram off => s.setSramWord (off / 8) ((s.sramWord (off / 8)).upset u)
    | _ => s

/-! ### Atomics (R49 to R51) -/

/-- The operation of an AMO on old value and rb (R49); CAS apart. -/
def amoFn (k : Nat) (a b : W64) : Option W64 :=
  match k with
  | 0 => some b
  | 1 => some (a + b)
  | 2 => some (a &&& b)
  | 3 => some (a ||| b)
  | 4 => some (a ^^^ b)
  | 5 => some (if BitVec.slt a b then a else b)
  | 6 => some (if BitVec.slt a b then b else a)
  | 7 => some (if BitVec.ult a b then a else b)
  | 8 => some (if BitVec.ult a b then b else a)
  | _ => none

/-- The 32-bit form, on bits 31:0 (R49). -/
def amoFn32 (k : Nat) (a b : W32) : Option W32 :=
  match k with
  | 0 => some b
  | 1 => some (a + b)
  | 2 => some (a &&& b)
  | 3 => some (a ||| b)
  | 4 => some (a ^^^ b)
  | 5 => some (if BitVec.slt a b then a else b)
  | 6 => some (if BitVec.slt a b then b else a)
  | 7 => some (if BitVec.ult a b then a else b)
  | 8 => some (if BitVec.ult a b then b else a)
  | _ => none

/-- The value an AMO writes: `d` is rd, `b` is rb; CAS (0x9) writes rb only on a match (R50). -/
def amoNew (k : Nat) (w32 : Bool) (old d b : W64) : Option W64 :=
  if w32 then
    (if k = 9 then some (if (old.setWidth 32 : W32) = d.setWidth 32 then (b.setWidth 32 : W32).setWidth 64 else old)
    else (amoFn32 k (old.setWidth 32) (b.setWidth 32)).map fun x => x.setWidth 64)
  else if k = 9 then some (if old = d then b else old)
  else amoFn k old b

/-- An AMO, its checks passed: it waits like a FENCE for the thread's earlier accesses (R51). -/
def State.amoAt (s : State) (p rd : Nat) (ea : W64) (k : Nat) (w32 : Bool) (b : W64) : State :=
  if s.fenceBusy p then s.setThr p { s.thr p with wait := .fence false false }
  else
    let n := if w32 then 4 else 8
    let a := (s.resolve ea).localAddr
    let (l, ue, s) := s.memRead a n
    if ue then s.raise p (excMem ea)
    else
      let old := BitVec.ofNat 64 (ofLe l)
      match amoNew k w32 old ((s.thr p).getG rd) b with
      | some v => (s.memWrite a (leBytes n v.toNat)).advG p rd old
      | none => s

/-! ### Fences and cache maintenance (R52 to R55) -/

/-- The DRAM line that an address names, if it lies in DRAM (R54). -/
def State.dramLine (s : State) (ea : W64) : Option Nat :=
  if ea.toNat / 2 ^ 48 ≠ 0 then none
  else match s.place0 ea.toNat with
    | .dram a => some (a / 64)
    | _ => none

/-- The access fault of an address whose bits 63:48 are not all 0 (R40). -/
def wideExc (ea : W64) : Option Exc := excIf (decide (ea.toNat / 2 ^ 48 ≠ 0)) (excAccess ea)

/-- A maintenance function on the line at `ea`; outside DRAM it has no effect (R54). -/
def State.maintAt (s : State) (p : Nat) (op : Maint) (ea : W64) : State :=
  match s.dramLine ea with
  | some l => if s.mem.ready then s.maintReq op l p else s
  | none => s

/-- PREFETCH at `ea` (R53, R54). -/
def State.prefetchAt (s : State) (ea : W64) : State :=
  match s.dramLine ea with
  | some l => if s.mem.ready then s.prefetch l else s
  | none => s

/-- The line holding `ea` leaves this engine's instruction cache (R53). -/
def State.icInv (s : State) (p : Nat) (ea : W64) : State :=
  let k := icKey p ea.toNat
  s.setIc k ((s.icSet k).filter fun l => l.line != ea.toNat / 64)

/-- Every line leaves this engine's instruction cache (R53). -/
def State.icInvAll (s : State) (p : Nat) : State :=
  { s with ic := s.ic.filter fun (e : Nat × List IcLine) => e.1 / 128 != p / 4 }

end Sys2Proof.Machine
end

