-- ==== Sys2Proof/Machine/Flags.lean ====
section
/-! DEFINITION. The engines have no condition flags: compares write predicates (R36), and microcode has the micro-flags
Z, N and C (R77). Every test and flag of the spec is here. -/

namespace Sys2Proof.Machine

/-- The test of R36 on 64-bit values: EQ, NE, LT, GE, LTU, GEU, TST, TSTN; other codes are undefined. -/
def cmpTest (t : Nat) (a b : W64) : Option Bool :=
  match t with
  | 0 => some (decide (a = b))
  | 1 => some (decide (a ≠ b))
  | 2 => some (BitVec.slt a b)
  | 3 => some (!(BitVec.slt a b))
  | 4 => some (BitVec.ult a b)
  | 5 => some (!(BitVec.ult a b))
  | 6 => some (decide (a &&& b ≠ 0))
  | 7 => some (decide (a &&& b = 0))
  | _ => none

/-- The same test on bits 31:0 only (fn[4] = 1). -/
def cmpTest32 (t : Nat) (a b : W64) : Option Bool :=
  let x : W32 := a.setWidth 32
  let y : W32 := b.setWidth 32
  match t with
  | 0 => some (decide (x = y))
  | 1 => some (decide (x ≠ y))
  | 2 => some (BitVec.slt x y)
  | 3 => some (!(BitVec.slt x y))
  | 4 => some (BitVec.ult x y)
  | 5 => some (!(BitVec.ult x y))
  | 6 => some (decide (x &&& y ≠ 0))
  | 7 => some (decide (x &&& y = 0))
  | _ => none

/-- CMP's test by its fn field (R36). -/
def cmpFn (fn : Nat) (a b : W64) : Option Bool :=
  if fn / 32 ≠ 0 then none
  else if fn / 16 % 2 = 0 then cmpTest (fn % 16) a b else cmpTest32 (fn % 16) a b

/-- CMPI's test by rd[4:3]: EQ, NE, LT signed, LTU (R36). -/
def cmpiTest (k : Nat) (a b : W64) : Bool :=
  if k = 0 then decide (a = b) else if k = 1 then decide (a ≠ b) else if k = 2 then BitVec.slt a b else BitVec.ult a b

/-- PRED's functions: PAND, POR, PXOR, PANDN, PNOT (R37). -/
def predFn (fn : Nat) (a b : Bool) : Option Bool :=
  match fn with
  | 0 => some (a && b)
  | 1 => some (a || b)
  | 2 => some (xor a b)
  | 3 => some (a && !b)
  | 4 => some (!a)
  | _ => none

/-- The micro-flag C: the carry out of an add or the borrow of a subtract (R77); none for an operation for which the spec
states no carry. -/
def microCarry (fn : Nat) (a b : W64) : Option Bool :=
  if fn = 0 then some (decide (2 ^ 64 ≤ a.toNat + b.toNat))
  else if fn = 1 then some (decide (a.toNat < b.toNat))
  else if fn = 0x10 then some (decide (2 ^ 32 ≤ a.toNat % 2 ^ 32 + b.toNat % 2 ^ 32))
  else if fn = 0x11 then some (decide (a.toNat % 2 ^ 32 < b.toNat % 2 ^ 32))
  else none

end Sys2Proof.Machine
end

