-- ==== Sys2Proof/Machine/AluFn.lean ====
section
/-! DEFINITION. The ALU's functions of register values (R34, R35), which microcode shares (R77). -/

namespace Sys2Proof.Machine

/-- Leading zeros of a 64-bit value; 64 for 0. -/
def clz64 (a : W64) : Nat := if a = 0 then 64 else 63 - Nat.log2 a.toNat
/-- Trailing zeros of a 64-bit value; 64 for 0. -/
def ctz64 (a : W64) : Nat := ((List.range 64).find? fun i => a.getLsbD i).getD 64
/-- Number of 1 bits. -/
def popc64 (a : W64) : Nat := (List.range 64).foldl (fun n i => n + b2n (a.getLsbD i)) 0
/-- A 32-bit result sign-extended. -/
def sx32 (x : W32) : W64 := x.signExtend 64

/-- The ALU functions of R34 and R35, SEL apart. -/
def aluFn (fn : Nat) (a b : W64) : Option W64 :=
  let a32 : W32 := a.setWidth 32
  let b32 : W32 := b.setWidth 32
  let k := b.toNat % 64
  match fn with
  | 0x000 => some (a + b)
  | 0x001 => some (a - b)
  | 0x002 => some (a &&& b)
  | 0x003 => some (a ||| b)
  | 0x004 => some (a ^^^ b)
  | 0x005 => some (a &&& ~~~ b)
  | 0x006 => some (a <<< k)
  | 0x007 => some (a >>> k)
  | 0x008 => some (a.sshiftRight k)
  | 0x009 => some (a.rotateLeft k)
  | 0x00A => some (a.rotateRight k)
  | 0x00B => some (if BitVec.slt a b then a else b)
  | 0x00C => some (if BitVec.slt a b then b else a)
  | 0x00D => some (if BitVec.ult a b then a else b)
  | 0x00E => some (if BitVec.ult a b then b else a)
  | 0x010 => some (sx32 (a32 + b32))
  | 0x011 => some (sx32 (a32 - b32))
  | 0x016 => some (sx32 (a32 <<< (b.toNat % 32)))
  | 0x017 => some (sx32 (a32 >>> (b.toNat % 32)))
  | 0x018 => some (sx32 (a32.sshiftRight (b.toNat % 32)))
  | 0x020 => some (a * b)
  | 0x021 => some (BitVec.ofInt 64 (a.toInt * b.toInt / 2 ^ 64))
  | 0x022 => some (BitVec.ofNat 64 (a.toNat * b.toNat / 2 ^ 64))
  | 0x024 => some (if b = 0 then -1 else BitVec.ofInt 64 (Int.tdiv a.toInt b.toInt))
  | 0x025 => some (if b = 0 then -1 else BitVec.ofNat 64 (a.toNat / b.toNat))
  | 0x026 => some (if b = 0 then a else BitVec.ofInt 64 (Int.tmod a.toInt b.toInt))
  | 0x027 => some (if b = 0 then a else BitVec.ofNat 64 (a.toNat % b.toNat))
  | 0x030 => some (BitVec.ofNat 64 (clz64 a))
  | 0x031 => some (BitVec.ofNat 64 (ctz64 a))
  | 0x032 => some (BitVec.ofNat 64 (popc64 a))
  | 0x033 => some (BitVec.ofNat 64 (ofBe (leBytes 8 a.toNat)))
  | _ => none

/-- The result of ALU by its fn field: SEL n chooses by pn (R34). -/
def aluResult (t : Thread) (fn : Nat) (a b : W64) : Option W64 :=
  if 0x040 ≤ fn ∧ fn < 0x048 then some (if t.getP (fn - 0x040) then a else b) else aluFn fn a b

end Sys2Proof.Machine
end

