-- ==== Sys2Proof/Machine/Micro.lean ====
section
/-! DEFINITION. Microcode in the encodings open to the customer: the datapath, sequencing and limits of a custom instruction
and of a patched one (R72 to R90, R97). -/

namespace Sys2Proof.Machine

/-- The fields of the custom instruction that runs. -/
structure CxIns where
  cx : Nat
  rd : Nat
  ra : Nat
  rb : Nat
  word : W32
  deriving DecidableEq, Repr

/-- The micro-state at dispatch (R78): cleared, at the entry; `unit` is what the unit result reads as before any unit was
started, which the spec does not state. -/
def Micro.init (upc : Nat) (unit : W64) (disp : Nat) : Micro where
  upc := upc
  mt := []
  mdr := 0
  mdw := 0
  z := false
  n := false
  c := false
  cnt := 0
  stack := []
  unit := unit
  unitAt := 0
  mdrAt := 0
  load := none
  gw := []
  pw := []
  st := []
  cycles := 0
  disp := disp

/-- GFMUL: the eight bytes of A each multiplied by byte B[7:0] (R77). -/
def gfMulWord (a b : W64) : W64 :=
  BitVec.ofNat 64 (ofLe ((leBytes 8 a.toNat).map fun x => gfMul x (b.setWidth 8)))

/-- The micro ALU: the function codes of R34, GFMUL, PASSA, PASSB (R77). -/
def microAlu (f : Nat) (a b : W64) : W64 :=
  if f = 0x38 then gfMulWord a b else if f = 0x39 then a else if f = 0x3A then b else (aluFn f a b).getD 0

/-- An operand source of R77: general registers as they stood at dispatch (R79). -/
def State.microSrc (s : State) (p : Nat) (i : CxIns) (m : Micro) (w : W128) (sel : Nat) : W64 :=
  let t := s.thr p
  match sel with
  | 0x01 => t.getG i.ra
  | 0x02 => t.getG i.rb
  | 0x03 => t.getG i.rd
  | 0x04 => t.getG ((i.rd + 1) % 32)
  | 0x05 => smGet (fun _ => 0) m.mt 0
  | 0x06 => smGet (fun _ => 0) m.mt 1
  | 0x07 => smGet (fun _ => 0) m.mt 2
  | 0x08 => smGet (fun _ => 0) m.mt 3
  | 0x09 => BitVec.ofNat 64 (mwLit w)
  | 0x0A => sext64 32 (mwLit w)
  | 0x0B => m.mdr
  | 0x0C => m.unit
  | 0x0D => t.pc
  | 0x0E => i.word.setWidth 64
  | 0x0F => BitVec.ofNat 64 (s.tid p)
  | _ => 0

/-- A condition of R81, on the flags and the micro-counter as this microword leaves them. -/
def State.microCond (s : State) (p : Nat) (i : CxIns) (m : Micro) (c : Nat) : Bool :=
  match c with
  | 0x00 => true
  | 0x01 => m.z
  | 0x02 => m.n
  | 0x03 => m.c
  | 0x04 => (s.thr p).getP (getF i.word 23 3)
  | 0x05 => m.cnt == 0
  | 0x06 => (s.thr p).priv
  | _ => tb i.word (c - 0x20)

/-- How a microword or a custom instruction goes on. -/
inductive MicroRes where
  | next (m : Micro)
  /-- END. -/
  | fin (m : Micro)
  | exc (e : Exc)
  /-- A load from a cascade window is under way, and the microword at `upc` needs its data. The micro-address 0x4000 stands
  for END. -/
  | wait (m : Micro)
  deriving DecidableEq, Repr

/-- The exceptions of a microcode access (R89): as an engine access, and the register space faults. -/
def State.microExc (s : State) (p : Nat) (ea : W64) (n : Nat) : Option Exc :=
  firstExc [s.accessExc p ea n, excIf (s.resolve ea).isReg (excAccess ea)]

/-- Engine cycles until a load's data is in MDR: 2 for the own local data RAM (R71, R85); for other memory the spec gives typical
figures only, and the number is free. -/
def State.loadCycles (s : State) (p : Nat) (ea : W64) (n : Nat) : Nat × State :=
  if inOwnRam p ea n then (2, s) else s.freeAny

/-- The memory operation of a microword at address `ea` (R77): a load into MDR, a held store, or a prefetch. A ninth store is
an illegal instruction before its address is looked at (R66, R90). A load reads memory as it stands, without the
instruction's own held stores (DESIGN CHOICE, log entry 32). -/
def State.microMem (s : State) (p : Nat) (i : CxIns) (m : Micro) (w : W128) (ea : W64) : MicroRes × State :=
  let n := mwWidth w
  let k := mwMem w
  if k = 0 then (.next m, s)
  else if k = 4 then (.next m, s.prefetchAt ea)
  else if k = 3 ∧ 8 ≤ m.st.length then (.exc (excIllegal i.word), s)
  else match s.microExc p ea n with
    | some e => (.exc e, s)
    | none =>
      if k = 3 then (.next { m with st := m.st ++ [(ea, n, m.mdw)] }, s)
      else
        match s.resolve ea with
        | .casc q off =>
          match s.cascLoad p q off n with
          | (some t, s) => (.next { m with load := some (t, n, k == 2) }, s)
          | (none, s) => (.exc (excMem ea), s)
        | pl =>
          let (l, ue, s) := s.memRead pl.localAddr n
          if ue then (.exc (excMem ea), s)
          else
            let (c, s) := s.loadCycles p ea n
            (.next { m with mdr := extend (k == 2) n (ofLe l), mdrAt := m.cycles + c }, s)

/-- The result of the unit a microword starts, and its latency (R77, R35). -/
def microUnit (k : Nat) (a b : W64) : Option (W64 × Nat) :=
  match k with
  | 1 => some (a * b, 3)
  | 2 => some (BitVec.ofNat 64 (a.toNat * b.toNat / 2 ^ 64), 3)
  | 3 => some (if b = 0 then -1 else BitVec.ofNat 64 (a.toNat / b.toNat), 34)
  | _ => none

/-- The microword needs the data of a load: it selects MDR, or starts another load into it. -/
def needsMdr (w : W128) : Bool := mwAsel w == 0x0B || mwBsel w == 0x0B || mwMem w == 1 || mwMem w == 2

/-- The cycle after dispatch from which the engine's divider is free. -/
def State.divAt (s : State) (p : Nat) (m : Micro) : Nat := (smFind s.divFree (p / 4)).getD 0 - m.disp

/-- The cycles at which a microword executes: it waits for MDR (R85); one that selects the unit result is held until it is ready,
and one that starts the divider until the engine's divider, which its threads share, is free (R70, R86). The multiplier takes
a new operation every cycle. -/
def State.microHold (s : State) (p : Nat) (m : Micro) (w : W128) : Micro :=
  let c := if needsMdr w then max m.cycles m.mdrAt else m.cycles
  let c := if mwAsel w = 0x0C ∨ mwBsel w = 0x0C then max c m.unitAt else c
  { m with cycles := if mwUnit w = 3 then max c (s.divAt p m) else c }

/-- A microword starts a unit (R77, R86): the unit result is that of the unit started last. -/
def State.microStart (s : State) (p : Nat) (m : Micro) (w : W128) (a b : W64) : Micro × State :=
  match microUnit (mwUnit w) a b with
  | some (r, lat) =>
    ({ m with unit := r, unitAt := m.cycles + lat },
      if mwUnit w = 3 then { s with divFree := smSet s.divFree (p / 4) (m.disp + m.cycles + lat) } else s)
  | none => (m, s)

/-- The micro-flags that FLG takes from the ALU result; a carry that the spec does not state is free (R77). -/
def State.microFlags (s : State) (m : Micro) (w : W128) (a b x : W64) : Micro × State :=
  if !mwFlg w then (m, s)
  else
    let m := { m with z := decide (x = 0), n := x.getLsbD 63 }
    match microCarry (mwAlu w) a b with
    | some c => ({ m with c := c }, s)
    | none =>
      let (k, s) := s.freeNat 1
      ({ m with c := k == 1 }, s)

/-- The predicate write of a microword, held (R77, R79). -/
def Micro.predWrite (m : Micro) (i : CxIns) (w : W128) : Micro :=
  let put := fun (b : Bool) => { m with pw := m.pw ++ [(i.rd % 8, b)] }
  match mwPwr w with
  | 1 => put m.z
  | 2 => put (!m.z)
  | 3 => put m.n
  | 4 => put m.c
  | _ => m

/-- The destination of the result (R77, R79). -/
def Micro.dest (m : Micro) (i : CxIns) (w : W128) (x : W64) : Micro :=
  match mwDsel w with
  | 0x01 => { m with gw := m.gw ++ [(i.rd, x)] }
  | 0x02 => { m with gw := m.gw ++ [((i.rd + 1) % 32, x)] }
  | 0x03 => { m with mdw := x }
  | 0x05 => { m with mt := smPut (fun _ => 0) m.mt 0 x }
  | 0x06 => { m with mt := smPut (fun _ => 0) m.mt 1 x }
  | 0x07 => { m with mt := smPut (fun _ => 0) m.mt 2 x }
  | 0x08 => { m with mt := smPut (fun _ => 0) m.mt 3 x }
  | _ => m

/-- The next micro-address (R80). -/
def State.microSeq (s : State) (p : Nat) (i : CxIns) (m : Micro) (w : W128) : MicroRes :=
  let t := mwTarget w
  let nx := m.upc + 1
  let cond := s.microCond p i m (mwCond w)
  match mwSeq w with
  | 0x00 => .next { m with upc := nx }
  | 0x01 => .next { m with upc := t }
  | 0x02 => .next { m with upc := if cond then t else nx }
  | 0x03 => .next { m with upc := if cond then nx else t }
  | 0x04 => if 2 ≤ m.stack.length then .exc (excIllegal i.word) else .next { m with upc := t, stack := nx :: m.stack }
  | 0x05 =>
    match m.stack with
    | a :: r => .next { m with upc := a, stack := r }
    | [] => .exc (excIllegal i.word)
  | 0x06 => .next { m with upc := nx, cnt := t }
  | 0x07 =>
    let c := (m.cnt + 16383) % 16384
    .next { m with cnt := c, upc := if c ≠ 0 then t else nx }
  | 0x08 => .next { m with upc := t + getF i.word 0 4 }
  | 0x09 => .exc (if t % 256 = 2 then excPriv (s.thr p).pc else excIllegal i.word)
  | _ => .fin m

/-- One microword executed (R77, R79, R80, R84, R86). A GFMUL with CL = 0 gives a free value; a store is given the MDW that the
microword finds, before its own DSEL writes MDW (DESIGN CHOICE, log entry 32). -/
def State.microWord (s : State) (p : Nat) (i : CxIns) (m : Micro) (w : W128) : MicroRes × State :=
  let m := s.microHold p m w
  let a := s.microSrc p i m w (mwAsel w)
  let b := s.microSrc p i m w (mwBsel w)
  let (x, s) := if mwAlu w = 0x38 ∧ mwCl w = 0 then
      let (k, s) := s.freeAny
      (BitVec.ofNat 64 k, s)
    else (microAlu (mwAlu w) a b, s)
  let (m, s) := s.microFlags m w a b x
  let m := m.predWrite i w
  let (m, s) := s.microStart p m w a b
  match s.microMem p i m w x with
  | (.next m, s) =>
    let m := m.dest i w x
    let m := { m with cycles := m.cycles + mwCl w + 1 }
    match s.microSeq p i m w with
    | .exc e => (.exc e, s)
    | q => if 4096 < m.cycles then (.exc (excIllegal i.word), s) else (q, s)
  | r => r

/-- Microwords execute until END, an exception or a wait (R74, R79, R82, R85, R87, R90, R97). END waits for a load that is
still under way, and a word with vendor-only encodings, which only a patch can hold, is an illegal instruction (DESIGN
CHOICE, log entries 32 and 78). -/
def State.microLoop (s : State) (p : Nat) (i : CxIns) (m : Micro) : Nat → MicroRes × State
  | 0 => (.exc (excIllegal i.word), s)
  | fuel + 1 =>
    if m.upc = 0x4000 then (if m.load.isSome then .wait m else .fin m, s)
    else match s.ucsFetch (p / 32) m.upc with
      | (.hole, s) => (.exc (excIllegal i.word), s)
      | (.lost, s) => (.exc (excMem (s.thr p).pc), s)
      | (.word w n, t) =>
        if m.load.isSome && needsMdr w then (.wait m, s)
        else if !(microOpen w) then (.exc (excIllegal i.word), t)
        else match t.microWord p i { m with cycles := m.cycles + n } w with
          | (.next m, s) => s.microLoop p i m fuel
          | (.fin m, s) => if m.load.isSome then (.wait { m with upc := 0x4000 }, s) else (.fin m, s)
          | r => r

/-- The instruction is complete: held register writes take effect in order, then held stores enter the store buffer (R79). -/
def State.microEnd (s : State) (p : Nat) (m : Micro) : State :=
  let t := m.gw.foldl (fun t e => t.setG e.1 e.2) (s.thr p)
  let t := m.pw.foldl (fun t e => t.setP e.1 e.2) t
  let s := s.setThr p { t with wait := .none }
  (m.st.foldl (fun s e => s.storeAt p e.1 (leBytes e.2.1 e.2.2.toNat)) s).adv p

/-- A microcoded instruction runs on from micro-state `m`. -/
def State.microRun (s : State) (p : Nat) (i : CxIns) (m : Micro) : State :=
  match s.microLoop p i m 4100 with
  | (.fin m, s) => (s.microEnd p m).boundary p
  | (.exc e, s) => (s.raise p e).boundary p
  | (.wait m, s) => s.setThr p { s.thr p with wait := .micro i.cx i.rd i.ra i.rb i.word m }
  | (.next _, s) => s

/-- A microcoded instruction that waited for a load goes on: the cycles that passed meanwhile count (R85, R90). While the load is
still under way it waits on, unless 4,096 cycles have passed. -/
def State.microWake (s : State) (p : Nat) (i : CxIns) (m : Micro) : State :=
  let m := { m with cycles := max m.cycles (s.cyc - m.disp) }
  if m.load.isNone then s.microRun p i m
  else if 4096 < m.cycles then (s.raise p (excIllegal i.word)).boundary p
  else s

end Sys2Proof.Machine
end

