-- ==== Sys2Proof/Machine/Issue.lean ====
section
/-! DEFINITION. Dispatch of an instruction: the word at the pc, the command it spells, its ROM microword, the exceptions that
are known before it is performed, and its effect (R31 to R33, R42, R48, R66, R67, R82, R87). -/

namespace Sys2Proof.Machine

/-! ### Words and instructions -/

/-- The function code that, with the opcode, picks the ROM entry of a word (R82): fn of format A, fn[7:0] of SYS. -/
def entryFn (w : W32) : Nat :=
  if [0x00, 0x01, 0x02, 0x1C, 0x1D, 0x1E].contains (wOp w) then getF w 0 11 else if wOp w = 0x38 then getF w 0 8 else 0

/-- The FENCE instruction of a word (R52). -/
def decodeFence (p : Thr) (w : W32) : Option Instr :=
  let hi : BitVec 8 := BitVec.ofNat 8 (getF w 3 8)
  match getF w 0 3 with
  | 0 => some (.fence p (wRd w) (wRa w) (wRb w) hi)
  | 1 => some (.fenceLd p (wRd w) (wRa w) (wRb w) hi)
  | 2 => some (.fenceSt p (wRd w) (wRa w) (wRb w) hi)
  | 3 => some (.fenceIo p (wRd w) (wRa w) (wRb w) hi)
  | 4 => some (.isync p (wRd w) (wRa w) (wRb w) hi)
  | _ => none

/-- The CACHE instruction of a word (R53). -/
def decodeCache (p : Thr) (w : W32) : Option Instr :=
  let hi : BitVec 8 := BitVec.ofNat 8 (getF w 3 8)
  match getF w 0 3 with
  | 0 => some (.clean p (wRd w) (wRa w) (wRb w) hi)
  | 1 => some (.flush p (wRd w) (wRa w) (wRb w) hi)
  | 2 => some (.inval p (wRd w) (wRa w) (wRb w) hi)
  | 3 => some (.zero p (wRd w) (wRa w) (wRb w) hi)
  | 4 => some (.prefetch p (wRd w) (wRa w) (wRb w) hi)
  | 5 => some (.icinv p (wRd w) (wRa w) (wRb w) hi)
  | 6 => some (.icinvall p (wRd w) (wRa w) (wRb w) hi)
  | _ => none

/-- The SYS instruction of a word (R56). -/
def decodeSys (p : Thr) (w : W32) : Option Instr :=
  let hi : BitVec 3 := BitVec.ofNat 3 (getF w 8 3)
  match getF w 0 8 with
  | 0 => some (.eret p (wRd w) (wRa w) (wRb w) hi)
  | 1 => some (.waitT p (wRd w) (wRa w) (wRb w) hi)
  | 2 => some (.mbsend p (wRd w) (wRa w) (wRb w) hi)
  | 3 => some (.mbrecv p (wRd w) (wRa w) (wRb w) hi)
  | 4 => some (.yieldT p (wRd w) (wRa w) (wRb w) hi)
  | 5 => some (.halt p (wRd w) (wRa w) (wRb w) hi)
  | 6 => some (.bkpt p (wRd w) (wRa w) (wRb w) hi)
  | _ => none

/-- The instruction that a word spells for thread `p` (R31 to R34, R49, R50, R52, R53, R56), its field values not yet checked;
none for an opcode or function code that the chapter does not define (R32). -/
def decodeWord (p : Thr) (w : W32) : Option Instr :=
  match wOp w with
  | 0x00 => some (.alu p (wRd w) (wRa w) (wRb w) (wFn w))
  | 0x01 => some (.cmp p (wRd w) (wRa w) (wRb w) (wFn w))
  | 0x02 => some (.pred p (wRd w) (wRa w) (wRb w) (wFn w))
  | 0x04 => some (.addi p (wRd w) (wRa w) (wImm w))
  | 0x05 => some (.andi p (wRd w) (wRa w) (wImm w))
  | 0x06 => some (.ori p (wRd w) (wRa w) (wImm w))
  | 0x07 => some (.xori p (wRd w) (wRa w) (wImm w))
  | 0x08 => some (.shli p (wRd w) (wRa w) (wImm w))
  | 0x09 => some (.shri p (wRd w) (wRa w) (wImm w))
  | 0x0A => some (.sari p (wRd w) (wRa w) (wImm w))
  | 0x0B => some (.ori16 p (wRd w) (wRa w) (wImm w))
  | 0x0C => some (.cmpi p (wRd w) (wRa w) (wImm w))
  | 0x0D => some (.extu p (wRd w) (wRa w) (wImm w))
  | 0x0E => some (.exts p (wRd w) (wRa w) (wImm w))
  | 0x0F => some (.ins p (wRd w) (wRa w) (wImm w))
  | 0x10 => some (.ld8u p (wRd w) (wRa w) (wImm w))
  | 0x11 => some (.ld16u p (wRd w) (wRa w) (wImm w))
  | 0x12 => some (.ld32u p (wRd w) (wRa w) (wImm w))
  | 0x13 => some (.ld64 p (wRd w) (wRa w) (wImm w) 0)
  | 0x14 => some (.ld8s p (wRd w) (wRa w) (wImm w))
  | 0x15 => some (.ld16s p (wRd w) (wRa w) (wImm w))
  | 0x16 => some (.ld32s p (wRd w) (wRa w) (wImm w))
  | 0x18 => some (.st8 p (wRd w) (wRa w) (wImm w))
  | 0x19 => some (.st16 p (wRd w) (wRa w) (wImm w))
  | 0x1A => some (.st32 p (wRd w) (wRa w) (wImm w))
  | 0x1B => some (.st64 p (wRd w) (wRa w) (wImm w))
  | 0x20 => some (.ori32 p (wRd w) (wRa w) (wImm w))
  | 0x21 => some (.ori48 p (wRd w) (wRa w) (wImm w))
  | 0x39 => some (.mfs p (wRd w) (wRa w) (wImm w))
  | 0x3A => some (.mts p (wRd w) (wRa w) (wImm w))
  | 0x3B => some (.trap p (wRd w) (wRa w) (wImm w))
  | 0x1C =>
    if getF w 0 4 = 9 then some (.cas p (wRd w) (wRa w) (wRb w) (tb w 4) (BitVec.ofNat 6 (getF w 5 6)))
    else some (.amo p (wRd w) (wRa w) (wRb w) (wFn w))
  | 0x1D => decodeFence p w
  | 0x1E => decodeCache p w
  | 0x30 => some (.br p (wPr w) (wCond w) (wOff w))
  | 0x31 => some (.call p (wPr w) (wCond w) (wOff w))
  | 0x32 => some (.jr p (wRd w) (wRa w) (wRb w) (wFn w))
  | 0x38 => decodeSys p w
  | 0x3F => some (.cust p (wRd w) (wRa w) (wRb w) (wCx w) (wFx w) [])
  | _ => none

/-- The word of an engine instruction, by its format (R31); none for a command that is no instruction. -/
def instrWord (i : Instr) : Option W32 :=
  match i with
  | .alu _ rd ra rb fn => some (wordA 0x00 rd ra rb fn.toNat)
  | .cmp _ rd ra rb fn => some (wordA 0x01 rd ra rb fn.toNat)
  | .pred _ rd ra rb fn => some (wordA 0x02 rd ra rb fn.toNat)
  | .addi _ rd ra imm => some (wordI 0x04 rd ra imm)
  | .andi _ rd ra imm => some (wordI 0x05 rd ra imm)
  | .ori _ rd ra imm => some (wordI 0x06 rd ra imm)
  | .xori _ rd ra imm => some (wordI 0x07 rd ra imm)
  | .shli _ rd ra imm => some (wordI 0x08 rd ra imm)
  | .shri _ rd ra imm => some (wordI 0x09 rd ra imm)
  | .sari _ rd ra imm => some (wordI 0x0A rd ra imm)
  | .ori16 _ rd ra imm => some (wordI 0x0B rd ra imm)
  | .cmpi _ rd ra imm => some (wordI 0x0C rd ra imm)
  | .extu _ rd ra imm => some (wordI 0x0D rd ra imm)
  | .exts _ rd ra imm => some (wordI 0x0E rd ra imm)
  | .ins _ rd ra imm => some (wordI 0x0F rd ra imm)
  | .ld8u _ rd ra imm => some (wordI 0x10 rd ra imm)
  | .ld16u _ rd ra imm => some (wordI 0x11 rd ra imm)
  | .ld32u _ rd ra imm => some (wordI 0x12 rd ra imm)
  | .ld64 _ rd ra imm _ => some (wordI 0x13 rd ra imm)
  | .ld8s _ rd ra imm => some (wordI 0x14 rd ra imm)
  | .ld16s _ rd ra imm => some (wordI 0x15 rd ra imm)
  | .ld32s _ rd ra imm => some (wordI 0x16 rd ra imm)
  | .st8 _ rd ra imm => some (wordI 0x18 rd ra imm)
  | .st16 _ rd ra imm => some (wordI 0x19 rd ra imm)
  | .st32 _ rd ra imm => some (wordI 0x1A rd ra imm)
  | .st64 _ rd ra imm => some (wordI 0x1B rd ra imm)
  | .ori32 _ rd ra imm => some (wordI 0x20 rd ra imm)
  | .ori48 _ rd ra imm => some (wordI 0x21 rd ra imm)
  | .mfs _ rd ra imm => some (wordI 0x39 rd ra imm)
  | .mts _ rd ra imm => some (wordI 0x3A rd ra imm)
  | .trap _ rd ra imm => some (wordI 0x3B rd ra imm)
  | .amo _ rd ra rb fn => some (wordA 0x1C rd ra rb fn.toNat)
  | .cas _ rd ra rb w32 hi => some (wordA 0x1C rd ra rb (hi.toNat * 32 + b2n w32 * 16 + 9))
  | .fence _ rd ra rb hi => some (wordA 0x1D rd ra rb (hi.toNat * 8 + 0))
  | .fenceLd _ rd ra rb hi => some (wordA 0x1D rd ra rb (hi.toNat * 8 + 1))
  | .fenceSt _ rd ra rb hi => some (wordA 0x1D rd ra rb (hi.toNat * 8 + 2))
  | .fenceIo _ rd ra rb hi => some (wordA 0x1D rd ra rb (hi.toNat * 8 + 3))
  | .isync _ rd ra rb hi => some (wordA 0x1D rd ra rb (hi.toNat * 8 + 4))
  | .clean _ rd ra rb hi => some (wordA 0x1E rd ra rb (hi.toNat * 8 + 0))
  | .flush _ rd ra rb hi => some (wordA 0x1E rd ra rb (hi.toNat * 8 + 1))
  | .inval _ rd ra rb hi => some (wordA 0x1E rd ra rb (hi.toNat * 8 + 2))
  | .zero _ rd ra rb hi => some (wordA 0x1E rd ra rb (hi.toNat * 8 + 3))
  | .prefetch _ rd ra rb hi => some (wordA 0x1E rd ra rb (hi.toNat * 8 + 4))
  | .icinv _ rd ra rb hi => some (wordA 0x1E rd ra rb (hi.toNat * 8 + 5))
  | .icinvall _ rd ra rb hi => some (wordA 0x1E rd ra rb (hi.toNat * 8 + 6))
  | .br _ pr cond off => some (wordB 0x30 pr cond off)
  | .call _ pr cond off => some (wordB 0x31 pr cond off)
  | .jr _ rd ra rb fn => some (wordA 0x32 rd ra rb fn.toNat)
  | .eret _ rd ra rb hi => some (wordA 0x38 rd ra rb (hi.toNat * 256 + 0))
  | .waitT _ rd ra rb hi => some (wordA 0x38 rd ra rb (hi.toNat * 256 + 1))
  | .mbsend _ rd ra rb hi => some (wordA 0x38 rd ra rb (hi.toNat * 256 + 2))
  | .mbrecv _ rd ra rb hi => some (wordA 0x38 rd ra rb (hi.toNat * 256 + 3))
  | .yieldT _ rd ra rb hi => some (wordA 0x38 rd ra rb (hi.toNat * 256 + 4))
  | .halt _ rd ra rb hi => some (wordA 0x38 rd ra rb (hi.toNat * 256 + 5))
  | .bkpt _ rd ra rb hi => some (wordA 0x38 rd ra rb (hi.toNat * 256 + 6))
  | .cust _ rd ra rb cx fn _ => some (wordX rd ra rb cx fn)
  | _ => none

/-! ### Issue -/

/-- What the ROM fetch at a base opcode's entry gives. -/
inductive RomRes where
  /-- The fixed ROM word, or a patch word with vendor-only encodings: the instruction is as its chapter says. -/
  | base
  /-- The patch RAM's word, in the encodings of R77, R80 and R81: the instruction is what that microcode does (R87). -/
  | patched
  /-- The word is lost (R97). -/
  | lost
  deriving DecidableEq, Repr

/-- The ROM entry address of a word (R82). -/
def romEntryOf (w : W32) : Nat := (Config.romEntry (wOp w) (entryFn w)).toNat

/-- The first microword of the base instruction `w` is fetched by thread `p`'s engine (R82, R87, R97). CUST goes to its own
entry. A patch word that uses vendor-only encodings is taken to perform the instruction as its chapter says (DESIGN CHOICE,
log entry 78). -/
def State.romFetch (s : State) (p : Nat) (w : W32) : RomRes × State :=
  if wOp w = 0x3F then (.base, s)
  else
    let a := romEntryOf w
    match s.ucsFetch (p / 32) a with
    | (.word x _, s) => (if s.trapAddr a ≠ a ∧ microOpen x then .patched else .base, s)
    | (_, s) => (.lost, s)

/-- A patched base instruction runs as microcode from its ROM entry (R87). -/
def State.runPatched (s : State) (p : Nat) (w : W32) : State :=
  let (k, s) := s.freeAny
  s.microRun p ⟨0, (wRd w).toNat, (wRa w).toNat, (wRb w).toNat, w⟩ (Micro.init (romEntryOf w) (BitVec.ofNat 64 k) s.cyc)

/-- One instruction of thread `p`, whose word is `w`: fetch, its first microword, the exceptions known before it is performed,
a pending interrupt, its effect (R42, R48, R66, R67, R82). A thread that does not issue leaves the state as it is, and so does
a command for another instruction than the one at the pc; a word that no instruction has raises the illegal-instruction
exception (R32). -/
def State.issue (s : State) (p : Nat) (w : W32) (pre : State → Option Exc) (eff : State → State) : State :=
  if !s.canRun p then s
  else
  let t := s.stepTaken p
  match t.fetchExc (t.thr p).pc with
    | some e => t.raise p e
    | none =>
      match t.fetch p (t.thr p).pc with
      | (none, f) => if t.irqNow p then t.takeIrq p else f.raise p (excMem (t.thr p).pc)
      | (some x, f) =>
        if x = w then
          let (r, f) := f.romFetch p w
          if r = .patched then (if f.irqNow p then f.takeIrq p else f.runPatched p w)
          else match pre f with
          | some e => f.raise p e
          | none =>
            if f.irqNow p then f.takeIrq p
            else if r = .lost then f.raise p (excMem (t.thr p).pc)
            else eff f
        else if (decodeWord (Fin.ofNat _ p) x).isNone then f.raise p (excIllegal x)
        else s

end Sys2Proof.Machine
end

