-- ==== Sys2Proof/Machine/Control.lean ====
section
/-! DEFINITION. Branches, special registers, system operations, mailboxes, interrupts and time (R30, R39, R56 to R69). -/

namespace Sys2Proof.Machine

/-! ### Branches (R39) -/

/-- The thread goes to `pc`, its instruction retired. -/
def State.jump (s : State) (p : Nat) (pc : W64) : State :=
  s.setThr p { s.thr p with pc := pc, retired := (s.thr p).retired + 1 }

/-- The branch is taken (R39). -/
def Thread.taken (t : Thread) (pr cond : Nat) : Bool :=
  cond == 0 || (cond == 1 && t.getP pr) || (cond == 2 && !(t.getP pr))

/-- The target of a B-format branch at `pc`. -/
def branchTarget (pc : W64) (off : BitVec 21) : W64 := pc + off.signExtend 64 * 4

/-- BR, or CALL with `link`. -/
def State.branchInstr (s : State) (p op : Nat) (pr : BitVec 3) (cond : BitVec 2) (off : BitVec 21) (link : Bool) : State :=
  s.issue p (wordB op pr cond off) (fun _ => excIf (decide (cond = 3)) (excIllegal (wordB op pr cond off)))
    (fun s =>
      let t := s.thr p
      if t.taken pr.toNat cond.toNat then
        (if link then s.setThr p (t.setG 31 (t.pc + 4)) else s).jump p (branchTarget t.pc off)
      else s.adv p)

/-- JR (R33, R39). -/
def State.jrInstr (s : State) (p : Nat) (rd ra rb : R5) (fn : F11) : State :=
  s.issue p (wordA 0x32 rd ra rb fn.toNat)
    (fun s => firstExc [excIf (decide (fn ≠ 0)) (excIllegal (wordA 0x32 rd ra rb fn.toNat)),
      let a := (s.thr p).getG ra.toNat
      excIf (decide (a.toNat % 4 ≠ 0)) (excAlign a)])
    (fun s =>
      let t := s.thr p
      (s.setThr p (t.setG rd.toNat (t.pc + 4))).jump p (t.getG ra.toNat))

/-! ### Special registers (R30) -/

/-- Access of a special register at the privileged level: none undefined, false R, true RW. -/
def srPriv (i : Nat) : Option Bool :=
  if 0x11 < i then none
  else some (!(i == 0 || i == 8 || i == 9 || i == 0xB || i == 0xE || i == 0x11))

/-- Access at the task level: none is "—". -/
def srTask (i : Nat) : Option Bool :=
  if i = 0 ∨ i = 8 ∨ i = 9 ∨ i = 0xE ∨ i = 0x11 then some false else if i = 0xD then some true else none

/-- The value of a special register of thread `p`. -/
def State.srRead (s : State) (p i : Nat) : W64 :=
  let t := s.thr p
  match i with
  | 0x000 => BitVec.ofNat 64 (s.tid p)
  | 0x001 => t.status
  | 0x002 => t.epc
  | 0x003 => t.ecause
  | 0x004 => t.eaddr
  | 0x005 => t.estat
  | 0x006 => t.vbase
  | 0x007 => t.scratch
  | 0x008 => BitVec.ofNat 64 t.cycle
  | 0x009 => BitVec.ofNat 64 s.sTime
  | 0x00A => t.tmr
  | 0x00B => BitVec.ofNat 64 (s.ipend p)
  | 0x00C => t.imask
  | 0x00D => (t.pred ||| 1).setWidth 64
  | 0x00E => t.mbsrc
  | 0x00F => t.tlo
  | 0x010 => t.thi
  | 0x011 => BitVec.ofNat 64 t.retired
  | _ => 0

/-- A special register written; bits that read 0 are ignored. -/
def Thread.srWrite (t : Thread) (i : Nat) (v : W64) : Thread :=
  match i with
  | 0x001 => { t with status := v &&& 7 }
  | 0x002 => { t with epc := v }
  | 0x003 => { t with ecause := v &&& 0xFFFF00FF }
  | 0x004 => { t with eaddr := v }
  | 0x005 => { t with estat := v &&& 7 }
  | 0x006 => { t with vbase := v &&& ~~~ 0xFFF }
  | 0x007 => { t with scratch := v }
  | 0x00A => { t with tmr := v }
  | 0x00C => { t with imask := v &&& 7 }
  | 0x00D => { t with pred := v.setWidth 8 ||| 1 }
  | 0x00F => { t with tlo := v }
  | 0x010 => { t with thi := v }
  | _ => t

/-- The exceptions of MFS and MTS: an index not in the table, imm[15:10], a read-only register, the level (R30, R66). -/
def State.srExc (s : State) (p : Nat) (imm : W16) (write : Bool) (word : W32) : Option Exc :=
  let t := s.thr p
  let i := imm.toNat % 1024
  let acc := if t.priv then srPriv i else srTask i
  firstExc [excIf (decide (imm.toNat / 1024 ≠ 0) || (srPriv i).isNone || (write && acc == some false)) (excIllegal word),
    excIf acc.isNone (excPriv t.pc)]

/-- MFS. -/
def State.mfsInstr (s : State) (p : Nat) (rd ra : R5) (imm : W16) : State :=
  s.issue p (wordI 0x39 rd ra imm) (fun s => s.srExc p imm false (wordI 0x39 rd ra imm))
    (fun s => s.advG p rd.toNat (s.srRead p (imm.toNat % 1024)))

/-- MTS. -/
def State.mtsInstr (s : State) (p : Nat) (rd ra : R5) (imm : W16) : State :=
  s.issue p (wordI 0x3A rd ra imm) (fun s => s.srExc p imm true (wordI 0x3A rd ra imm))
    (fun s => s.setThr p (((s.thr p).srWrite (imm.toNat % 1024) ((s.thr p).getG ra.toNat)).adv))

/-! ### SYS (R56 to R59, R63, R64, R68) -/

/-- A SYS instruction of code `code`: fn[10:8] must be 0 where `hi0`, with the exceptions that `pre` adds. -/
def State.sysInstr (s : State) (p : Nat) (rd ra rb : R5) (code : Nat) (hi : BitVec 3) (hi0 : Bool)
    (pre : State → List (Option Exc)) (eff : State → State) : State :=
  let w := wordA 0x38 rd ra rb (hi.toNat * 256 + code)
  s.issue p w (fun s => firstExc (excIf (hi0 && decide (hi ≠ 0)) (excIllegal w) :: pre s)) eff

/-- A privileged instruction at the task level (R64). -/
def State.needPriv (s : State) (p : Nat) : Option Exc := excIf (!(s.thr p).priv) (excPriv (s.thr p).pc)

/-- ERET (R68); a misaligned s.epc raises the alignment fault at it (R39). -/
def State.eret (s : State) (p : Nat) (rd ra rb : R5) (hi : BitVec 3) : State :=
  s.sysInstr p rd ra rb 0 hi true
    (fun s => [s.needPriv p, excIf (decide ((s.thr p).epc.toNat % 4 ≠ 0)) (excAlign (s.thr p).epc)])
    (fun s => (s.setThr p { s.thr p with status := (s.thr p).estat }).jump p (s.thr p).epc)

/-- WAIT (R59). -/
def State.waitInstr (s : State) (p : Nat) (rd ra rb : R5) (hi : BitVec 3) : State :=
  s.sysInstr p rd ra rb 1 hi true (fun _ => [])
    (fun s =>
      let mask := ((s.thr p).getG ra.toNat).toNat % 8
      if mask = 0 then s.advG p rd.toNat 0
      else if s.ipend p &&& mask ≠ 0 then s.advG p rd.toNat (BitVec.ofNat 64 (s.ipend p &&& mask))
      else s.setThr p { s.thr p with wait := .event mask rd.toNat })

/-- MBSEND (R56, R57, R64). -/
def State.mbsend (s : State) (p : Nat) (rd ra rb : R5) (hi : BitVec 3) : State :=
  s.sysInstr p rd ra rb 2 hi true
    (fun s => [excIf (decide (rb.toNat % 2 = 1)) (excIllegal (wordA 0x38 rd ra rb (hi.toNat * 256 + 2))),
      if natF ((s.thr p).getG ra.toNat).toNat 8 3 = 1 then s.needPriv p else none])
    (fun s =>
      let t := s.thr p
      let (st, s) := s.sendMsg (t.getG ra.toNat).toNat ⟨t.getG rb.toNat, t.getG (rb.toNat + 1), p⟩
      s.advG p rd.toNat (BitVec.ofNat 64 st))

/-- The message that MBRECV takes, from the own inbox or the camp queue, and the state without it. -/
def State.takeMsg (s : State) (p : Nat) (camp : Bool) : Option Msg × State :=
  if camp then
    (match s.queue (p / 32) with
    | m :: t => (some m, s.setQueue (p / 32) t)
    | [] => (none, s))
  else match (s.thr p).inbox with
    | m :: t => (some m, s.setThr p { s.thr p with inbox := t })
    | [] => (none, s)

/-- MBRECV (R57, R58, R64). -/
def State.mbrecv (s : State) (p : Nat) (rd ra rb : R5) (pn : BitVec 3) : State :=
  s.sysInstr p rd ra rb 3 pn false
    (fun s =>
      let src := (s.thr p).getG ra.toNat
      [excIf (decide (rd.toNat % 2 = 1) || decide (1 < src.toNat)) (excIllegal (wordA 0x38 rd ra rb (pn.toNat * 256 + 3))),
        if src = 1 then s.needPriv p else none])
    (fun s =>
      match s.takeMsg p (decide ((s.thr p).getG ra.toNat = 1)) with
      | (none, s) => s.advP p pn.toNat false
      | (some m, s) =>
        let t := ((s.thr p).setG rd.toNat m.w0).setG (rd.toNat + 1) m.w1
        (s.setThr p { t with mbsrc := BitVec.ofNat 64 m.src }).advP p pn.toNat true)

/-- YIELD: the thread goes on; the 4 cycles are timing (R56). -/
def State.yieldInstr (s : State) (p : Nat) (rd ra rb : R5) (hi : BitVec 3) : State :=
  s.sysInstr p rd ra rb 4 hi true (fun _ => []) (fun s => s.adv p)

/-- HALT: the thread stops and its run bit clears (R63). -/
def State.haltInstr (s : State) (p : Nat) (rd ra rb : R5) (hi : BitVec 3) : State :=
  s.sysInstr p rd ra rb 5 hi true (fun s => [s.needPriv p]) (fun s => (s.adv p).setRunBit p false)

/-- BKPT (R65). -/
def State.bkptInstr (s : State) (p : Nat) (rd ra rb : R5) (hi : BitVec 3) : State :=
  s.sysInstr p rd ra rb 6 hi true (fun _ => [some ⟨7, 0, false, 0⟩]) (fun s => s)

/-- TRAP (R33, R65). -/
def State.trapInstr (s : State) (p : Nat) (rd ra : R5) (imm : W16) : State :=
  s.issue p (wordI 0x3B rd ra imm) (fun _ => some ⟨6, imm.toNat, true, 0⟩) (fun s => s)

/-! ### Interrupts, waits and time -/

/-- The debug port lets the thread take its next instruction or interrupt (R464, R465). -/
def Thread.free (t : Thread) : Bool := !t.dbg || t.step

/-- An enabled pending interrupt is taken during WAIT (R59, R67). -/
def State.waitIrq (s : State) (p : Nat) : State :=
  let t := s.thr p
  let idle := match t.wait with
    | .event _ _ => true
    | _ => false
  if s.runBit p && t.free && decide (s.pwr.st < 2) && idle && s.irqNow p then (s.stepTaken p).takeIrq p else s

/-! ### Custom opcodes and waits (R59, R82, R85) -/

/-- CUSTn (R82): the entry must be valid, and permit the task level. `ups` are upsets of the control store that come before it
(R96, R97). -/
def State.custInstr (s : State) (p : Nat) (rd ra rb : R5) (cx : BitVec 4) (fn : BitVec 7) (ups : List UcsUpset) : State :=
  let w := wordX rd ra rb cx fn
  (s.ucsUpset ups).issue p w
    (fun s =>
      match smFind s.ucs.entries cx.toNat with
      | none => some (excIllegal w)
      | some (_, task) => excIf (!task && !(s.thr p).priv) (excPriv (s.thr p).pc))
    (fun s =>
      match smFind s.ucs.entries cx.toNat with
      | none => s
      | some (off, _) =>
        let (k, s) := s.freeAny
        s.microRun p ⟨cx.toNat, rd.toNat, ra.toNat, rb.toNat, w⟩ (Micro.init (custBase + off) (BitVec.ofNat 64 k) s.cyc))

/-- A waiting thread whose condition has become true goes on (R47, R52, R59, R85); a thread whose WAIT ends wakes a part in
Kindled (R422). -/
def State.waitWake (s : State) (p : Nat) : State :=
  let t := s.thr p
  if !s.runBit p then s
  else match t.wait with
    | .event mask rd =>
      if s.ipend p &&& mask = 0 then s
      else if 2 ≤ s.pwr.st then s.wakeBy 9
      else if !t.free then s
      else ((s.stepTaken p).setThr p { (s.stepTaken p).thr p with wait := .none }).advG p rd
        (BitVec.ofNat 64 (s.ipend p &&& mask))
    | .micro cx rd ra rb w m => if 2 ≤ s.pwr.st then s else s.microWake p ⟨cx, rd, ra, rb, w⟩ m
    | .fence _ _ => s.fenceWake p
    | _ => s

/-- Engine cycles in a REF50 period: 28 at 1.40 GHz, 32 in boost, none while the engines are gated (R417, R419). -/
def State.cycPerTick (s : State) : Nat := if 2 ≤ s.pwr.st then 0 else if s.rbit Reg.SYS_CLK 1 then 32 else 28

/-- `n` REF50 periods pass: time, and the cycle counters of running threads (R30). -/
def State.advance (s : State) (n : Nat) : State :=
  let c := s.cycPerTick * n
  let bump := fun (s : State) (p : Nat) =>
    if s.runBit p then s.setThr p { s.thr p with cycle := ((s.thr p).cycle + c) % 2 ^ 64 } else s
  (List.range 192).foldl bump { s with now := s.now + n, cyc := s.cyc + c }

/-- s.time reaches s.tmr of thread `p` (R30). -/
def State.timerExpiry (s : State) (p : Nat) : State :=
  let t := s.thr p
  if t.tmr ≠ 0 ∧ s.sTime < t.tmr.toNat then s.advance (t.tmr.toNat - s.sTime) else s

/-- A block for whose event's rise a message is due sends it, once its routing byte names a camp (R60, R62). -/
def State.eventMsg (s : State) (b : Nat) : State :=
  if s.routeMask b ≠ 0 ∧ s.evSeen.dueOf b ≠ 0 then
    { (s.post ⟨s.routeMask b, b, ⟨0, 0, blockSrc b⟩⟩) with
      evSeen := { s.evSeen with due := smPut (fun _ => 0) s.evSeen.due b (s.evSeen.dueOf b - 1) } }
  else s

/-- The `k`-th message that waits for room is delivered if a named queue has room; messages of one block keep their order
(R62). -/
def State.deliverHeld (s : State) (k : Nat) : State :=
  match s.heldMsgs[k]? with
  | none => s
  | some h =>
    if (s.heldMsgs.take k).any (fun x => x.block == h.block) then s
    else match s.tryPost h with
      | some s' => { s' with heldMsgs := s.heldMsgs.eraseIdx k }
      | none => s

end Sys2Proof.Machine
end

