-- ==== Sys2Proof/Machine/Alu.lean ====
section
/-! DEFINITION. Engine instructions on registers: ALU, CMP, PRED, the immediates, bit fields (R33 to R38). -/

namespace Sys2Proof.Machine

/-- An instruction that writes one register from register values, or is undefined (R32). -/
def State.regInstr (s : State) (p : Nat) (rd : R5) (word : W32) (f : Thread → Option W64) : State :=
  s.issue p word (fun s => excIf (f (s.thr p)).isNone (excIllegal word))
    (fun s => s.advG p rd.toNat ((f (s.thr p)).getD 0))

/-- DIV, DIVU, REM and REMU. -/
def isDivide (fn : Nat) : Bool := decide (0x024 ≤ fn) && decide (fn ≤ 0x027)

/-- The divider of thread `p`'s engine is busy for 34 cycles from the time it is free (R70, R71, R86). -/
def State.divStart (s : State) (p : Nat) : State :=
  { s with divFree := smSet s.divFree (p / 4) (max s.cyc ((smFind s.divFree (p / 4)).getD 0) + 34) }

/-- ALU (R34, R35). -/
def execAlu (p : Thr) (rd ra rb : R5) (fn : F11) (s : State) : Out :=
  let f := fun (t : Thread) => aluResult t fn.toNat (t.getG ra.toNat) (t.getG rb.toNat)
  let w := wordA 0x00 rd ra rb fn.toNat
  done (s.issue p w (fun s => excIf (f (s.thr p)).isNone (excIllegal w))
    (fun s => (if isDivide fn.toNat then s.divStart p else s).advG p rd.toNat ((f (s.thr p)).getD 0)))

/-- CMP (R36). -/
def execCmp (p : Thr) (rd ra rb : R5) (fn : F11) (s : State) : Out :=
  let f := fun (t : Thread) => if rd.toNat / 8 ≠ 0 then none else cmpFn fn.toNat (t.getG ra.toNat) (t.getG rb.toNat)
  done (s.issue p (wordA 0x01 rd ra rb fn.toNat) (fun s => excIf (f (s.thr p)).isNone (excIllegal (wordA 0x01 rd ra rb fn.toNat)))
    (fun s => s.advP p (rd.toNat % 8) ((f (s.thr p)).getD false)))

/-- PRED (R37). -/
def execPred (p : Thr) (rd ra rb : R5) (fn : F11) (s : State) : Out :=
  let f := fun (t : Thread) =>
    if rd.toNat / 8 ≠ 0 ∨ ra.toNat / 8 ≠ 0 ∨ rb.toNat / 8 ≠ 0 then none
    else predFn fn.toNat (t.getP ra.toNat) (t.getP rb.toNat)
  done (s.issue p (wordA 0x02 rd ra rb fn.toNat) (fun s => excIf (f (s.thr p)).isNone (excIllegal (wordA 0x02 rd ra rb fn.toNat)))
    (fun s => s.advP p (rd.toNat % 8) ((f (s.thr p)).getD false)))

/-- ADDI (R33). -/
def execAddi (p : Thr) (rd ra : R5) (imm : W16) (s : State) : Out :=
  done (s.regInstr p rd (wordI 0x04 rd ra imm) fun t => some (t.getG ra.toNat + simm imm))
/-- ANDI (R33). -/
def execAndi (p : Thr) (rd ra : R5) (imm : W16) (s : State) : Out :=
  done (s.regInstr p rd (wordI 0x05 rd ra imm) fun t => some (t.getG ra.toNat &&& zimm imm))
/-- ORI (R33). -/
def execOri (p : Thr) (rd ra : R5) (imm : W16) (s : State) : Out :=
  done (s.regInstr p rd (wordI 0x06 rd ra imm) fun t => some (t.getG ra.toNat ||| zimm imm))
/-- XORI (R33). -/
def execXori (p : Thr) (rd ra : R5) (imm : W16) (s : State) : Out :=
  done (s.regInstr p rd (wordI 0x07 rd ra imm) fun t => some (t.getG ra.toNat ^^^ zimm imm))
/-- The shift amount imm[5:0]; imm[15:6] must be 0 (R33). -/
def shiftImm (imm : W16) : Option Nat := if imm.toNat / 64 = 0 then some imm.toNat else none
/-- SHLI (R33). -/
def execShli (p : Thr) (rd ra : R5) (imm : W16) (s : State) : Out :=
  done (s.regInstr p rd (wordI 0x08 rd ra imm) fun t => (shiftImm imm).map fun k => t.getG ra.toNat <<< k)
/-- SHRI (R33). -/
def execShri (p : Thr) (rd ra : R5) (imm : W16) (s : State) : Out :=
  done (s.regInstr p rd (wordI 0x09 rd ra imm) fun t => (shiftImm imm).map fun k => t.getG ra.toNat >>> k)
/-- SARI (R33). -/
def execSari (p : Thr) (rd ra : R5) (imm : W16) (s : State) : Out :=
  done (s.regInstr p rd (wordI 0x0A rd ra imm) fun t => (shiftImm imm).map fun k => (t.getG ra.toNat).sshiftRight k)
/-- ORI16 (R33). -/
def execOri16 (p : Thr) (rd ra : R5) (imm : W16) (s : State) : Out :=
  done (s.regInstr p rd (wordI 0x0B rd ra imm) fun t => some (t.getG ra.toNat ||| (zimm imm <<< 16)))
/-- ORI32 (R33). -/
def execOri32 (p : Thr) (rd ra : R5) (imm : W16) (s : State) : Out :=
  done (s.regInstr p rd (wordI 0x20 rd ra imm) fun t => some (t.getG ra.toNat ||| (zimm imm <<< 32)))
/-- ORI48 (R33). -/
def execOri48 (p : Thr) (rd ra : R5) (imm : W16) (s : State) : Out :=
  done (s.regInstr p rd (wordI 0x21 rd ra imm) fun t => some (t.getG ra.toNat ||| (zimm imm <<< 48)))
/-- CMPI (R36). -/
def execCmpi (p : Thr) (rd ra : R5) (imm : W16) (s : State) : Out :=
  done (s.issue p (wordI 0x0C rd ra imm) (fun _ => none)
    (fun s => s.advP p (rd.toNat % 8) (cmpiTest (rd.toNat / 8) ((s.thr p).getG ra.toNat) (simm imm))))

/-- The field of R38: least significant bit and width; imm[15:12] must be 0. -/
def fieldImm (imm : W16) : Option (Nat × Nat) :=
  if imm.toNat / 4096 = 0 then some (imm.toNat % 64, imm.toNat / 64 + 1) else none
/-- EXTU (R38). -/
def execExtu (p : Thr) (rd ra : R5) (imm : W16) (s : State) : Out :=
  done (s.regInstr p rd (wordI 0x0D rd ra imm) fun t =>
    (fieldImm imm).map fun f => BitVec.ofNat 64 (natF (t.getG ra.toNat).toNat f.1 f.2))
/-- EXTS (R38). -/
def execExts (p : Thr) (rd ra : R5) (imm : W16) (s : State) : Out :=
  done (s.regInstr p rd (wordI 0x0E rd ra imm) fun t =>
    (fieldImm imm).map fun f => sext64 f.2 (natF (t.getG ra.toNat).toNat f.1 f.2))
/-- The bits of a 64-bit word in a field of `w` bits from bit `lo`; no bit above 63. -/
def mask64 (lo w : Nat) : W64 := BitVec.ofNat 64 ((2 ^ w - 1) * 2 ^ lo)
/-- INS (R38). -/
def execIns (p : Thr) (rd ra : R5) (imm : W16) (s : State) : Out :=
  done (s.regInstr p rd (wordI 0x0F rd ra imm) fun t =>
    (fieldImm imm).map fun f =>
      (t.getG rd.toNat &&& ~~~ mask64 f.1 f.2) ||| ((t.getG ra.toNat <<< f.1) &&& mask64 f.1 f.2))

end Sys2Proof.Machine
end

