-- ==== Sys2Proof/Machine/Fw.lean ====
section
/-! DEFINITION. Firmware update along the ring: log pages, download, commit, relay, handover and confirmation (R288, R482 to
R493). -/

namespace Sys2Proof.Machine

/-! ### Log pages (R288, R317, R482, R513) -/

/-- FRSn: the first 8 bytes of NAME, zeros for an empty slot (R482). -/
def State.frs (s : State) (n : Nat) : List W8 :=
  let h := s.norRead (norSlot n) 104
  if leAt h 0 4 = 0x57465847 then sliceB h 96 8 else List.replicate 8 0

/-- AFI: ACTIVE, and the slot that the next reset will run (R482). -/
def State.afi (s : State) : Nat :=
  let r := s.bootRec.map (·.1)
  (r.map (·.active)).getD 0 % 8 + (bootOrder r).1.headD 0 % 8 * 16

/-- SPROG (R317). -/
def State.sprog (s : State) : Nat :=
  match s.svc.sanitize with
  | some w => min 0xFFFF (65536 * w.done / max 1 w.total)
  | none => 0xFFFF

/-- Critical warning of the SMART log (R307, R513). -/
def State.smartWarning (s : State) : Nat := if s.inBiv then 0xC else if s.svc.readOnly then 8 else 0

/-- The stated fields of a log page; none for one that is not supported. -/
def State.logPage (s : State) (n lid : Nat) : Option (List (Nat × List W8)) :=
  match lid with
  | 0x01 => some [(0, padTo 4096 (s.ctl n).errlog.flatten)]
  | 0x02 => some [(0, leBytes 1 s.smartWarning)]
  | 0x03 => some [(0, leBytes 1 s.afi), (8, s.frs 1), (16, s.frs 2), (24, s.frs 3)]
  | 0x04 => some []
  | 0x05 => some []
  | 0x81 => some [(0, leBytes 2 s.sprog)]
  | _ => none

/-- The event type that a read of a log page lets be reported again. -/
def unmutes (lid : Nat) : Nat := if lid = 1 then 0 else if lid = 2 then 1 else 2

/-- Get Log Page. -/
def State.svcGetLog (s : State) (t : Nat) (x : CmdIn) : State :=
  s.adminServe t 0x02 fun c =>
    let lid := c.dw 10 % 256
    match s.logPage c.ctrl lid with
    | none => s.badField c 40
    | some l =>
      if x.err ≠ 0 ∨ !s.busMaster c.ctrl then s.cmdErr c 0 (if x.err = 0 then 4 else x.err) (xferDnr (if x.err = 0 then 4 else x.err))
      else
        let k := s.ctl c.ctrl
        let s := if (c.dw 10).testBit 15 then s else s.setCtl c.ctrl { k with muted := k.muted.filter (· != unmutes lid) }
        ((s.emit (.cmdFields c.ctrl c.tag l)).cmdOk c 0 0).flushEvents c.ctrl 8

/-! ### Download (R483) -/

/-- Units of 64 KiB that a bundle has at most. -/
def maxUnits : Nat := 257

/-- Firmware Image Download. -/
def State.svcDownload (s : State) (t : Nat) (x : CmdIn) : State :=
  if s.fw.commit.isSome then s
  else s.adminServe t 0x11 fun c =>
    let len := 4 * (c.dw 10 + 1)
    let off := 4 * c.dw 11
    if len % 65536 ≠ 0 ∨ off % 65536 ≠ 0 then s.badField c (if len % 65536 ≠ 0 then 40 else 44)
    else
      let us := (List.range (len / 65536)).map fun i => off / 65536 + i
      if us.any (fun u => decide (maxUnits ≤ u) || (smFind s.fw.img u).isSome) then s.cmdErr c 1 0x14 1
      else if x.err ≠ 0 ∨ !s.busMaster c.ctrl then s.cmdErr c 0 (if x.err = 0 then 4 else x.err) (xferDnr (if x.err = 0 then 4 else x.err))
      else
        let img := us.foldl (fun m u => smSet m u (sliceB x.data (65536 * (u - off / 65536)) 65536)) s.fw.img
        (s.setFw { s.fw with img := img }).cmdOk c 0 0

/-! ### Relay (R485 to R487) -/

/-- The parts this part relays to first: the Basecamp's East neighbour, and its West neighbour when a segment on the way
east is not usable; an Outpost relays onward, away from `src`. -/
def State.relayTargets (s : State) : List Nat :=
  let n := s.ringN
  if n < 2 then []
  else
    let broken := (List.range (n - 1)).any fun g => !(s.segUsable g)
    (if s.segUsable 0 then [1] else []) ++ (if broken && s.segUsable (n - 1) then [n - 1] else [])

/-- The part beyond this one for units that come from `src`: none at the Basecamp or over an unusable segment. -/
def State.relayNext (s : State) (src : Nat) : Option Nat :=
  let n := max s.ringN 1
  let east := (src + 1) % n == s.pos
  let next := if east then (s.pos + 1) % n else (s.pos + n - 1) % n
  if next = 0 ∨ next = src ∨ n < 2 then none
  else if s.segUsable (if east then s.pos else (s.pos + n - 1) % n) then some next else none

/-- The slot of the running image: ACTIVE, or PREV while a committed image waits for its reset. -/
def State.runSlot (s : State) : Nat := (s.bootRec.map fun r => if s.fw.resetDue then r.1.prev else r.1.active).getD 1

/-- Unit `u` of the bundle under way: of the download that a Commit relays, else of the running image on the Basecamp and of the
relay area on an Outpost (R486, R487). -/
def State.relayUnit (s : State) (u : Nat) : List W8 :=
  match if s.fw.commit.isSome then smFind s.fw.img u else none with
  | some d => d
  | none =>
    if s.isBase then s.norRead (norSlot s.runSlot + 65536 * u) 65536
    else s.dramPeek (s.reg64 Reg.CSC_RLY_BASE_LO + 65536 * u) 65536

/-- Units of the bundle under way. -/
def State.relayUnits (s : State) : Nat := hdrNblk (s.relayUnit 0) + 1

/-- An MSG of the relay to another part; its words are the firmware's own. -/
def State.relayMsg (s : State) (n : Nat) : State :=
  let (d, s) := s.freeBytes 16
  (s.cscIssue n 4 0 16 d .relay).2

/-- Unit `u` goes to part `n`: 16 RELAY packets and the MSG that names it (R486). -/
def State.sendUnit (s : State) (n u : Nat) : State :=
  let d := s.relayUnit u
  ((List.range 16).foldl (fun s i =>
    (s.cscIssue n 6 (65536 * u + 4096 * i) 4096 (sliceB d (4096 * i) 4096) .relay).2) s).relayMsg n

/-- A relay to part `n` starts. -/
def State.startRelay (s : State) (n : Nat) : State :=
  (s.setFw { s.fw with relays := smSet s.fw.relays n ⟨0, 0, 0⟩ }).sendUnit n 0

/-- Units that this part may send on: all of them on the Basecamp, those that have passed on an Outpost. -/
def State.unitsReady (s : State) : Nat := if s.isBase then s.relayUnits else s.fw.unitsOk

/-- The receiver's check of unit `u` in the relay area (R486): the first by steps 1 to 3 of R458, the others against the
block table. -/
def State.unitPasses (s : State) (u : Nat) (sg : Sigs) : Bool :=
  let base := s.reg64 Reg.CSC_RLY_BASE_LO
  let h := s.dramPeek base 800
  let table := s.dramPeek (base + 17408) (48 * min (hdrNblk h) 256)
  if u = 0 then (s.headCheck h table sg).isNone
  else decide (u ≤ hdrNblk h) && sha384 (s.dramPeek (base + 65536 * u) 65536) == tableDigest table (u - 1)

/-- A Commit's boot record: ACTIVE becomes the slot, on trial (R484). -/
def State.activate (s : State) (slot : Nat) : State :=
  s.writeRec ⟨slot, (s.bootRec.map (·.1.active)).getD 1, 0, 1, 3, false⟩

/-- Phase 2 on an Outpost (R484, R487, R488): the whole image in the relay area passes, is copied to LOAD for a handover, goes to
the slot and, but for CA 0, into the boot record. A part that boots by relay keeps no slots. -/
def State.relayPhase2 (s : State) (order : Option (Fin 4 × Fin 4)) (sg : Sigs) : State :=
  match order with
  | none => s
  | some (slot, ca) =>
    let base := s.reg64 Reg.CSC_RLY_BASE_LO
    let h := s.dramPeek base 800
    let unit := fun u => s.dramPeek (base + 65536 * u) 65536
    if slot.val < 2 ∨ s.fld Reg.SYS_STRAP 0 2 = 2 ∨ !((List.range (hdrNblk h + 1)).all fun u => s.unitPasses u sg) then s
    else
      let s := if ca = 3 then
          (List.range (hdrNblk h)).foldl (fun s b => s.memWrite (hdrLoad h + 65536 * b) (unit (b + 1))) s
        else s
      let s := (List.range (hdrNblk h + 1)).foldl (fun s u => s.norWrite (norSlot slot.val + 65536 * u) (unit u)) s
      if ca = 0 then s else s.activate slot.val

/-- A unit that passed here goes on to the part beyond, away from `src` (R486). -/
def State.relayOn (s : State) (src u : Nat) : State :=
  match s.relayNext src with
  | none => s
  | some n =>
    match smFind s.fw.relays n with
    | none => s.startRelay n
    | some r => if r.st = 0 ∧ r.unit = u then s.sendUnit n u else s

/-- The receiver acts on the MSG that names unit `u`: it checks it, answers by MSG, and sends a unit that passed on; with the
last one it does what the Basecamp orders, `order` (DESIGN CHOICE, log entry 36). Ranger does the same during a boot by relay, without sending
it on (R457, R486). -/
def State.relayCheck (s : State) (src u : Nat) (sg : Sigs) (order : Option (Fin 4 × Fin 4)) : State :=
  if s.isBase ∨ s.fld Reg.CSC_RLY_SIZE 0 9 = 0 then s
  else
    let ok := s.unitPasses u sg
    let s := s.relayMsg src
    if !ok then s
    else match s.sec.relayBoot with
      | some k => if u = k then s.setSec { s.sec with relayBoot := some (k + 1) } else s
      | none =>
        if u ≠ s.fw.unitsOk ∧ u ≠ 0 then s
        else
          let s := s.setFw { s.fw with unitsOk := u + 1, relays := if u = 0 then [] else s.fw.relays }
          let s := s.relayOn src u
          if u + 1 = s.relayUnits then s.relayPhase2 order sg else s

/-- A relay of the running image ends (R487): the part that has written it to its slots is reset, mode CORE. -/
def State.staleEnds (s : State) (n : Nat) (written : Bool) : State :=
  let s := s.setFw { s.fw with relays := smDel s.fw.relays n }
  if written then (s.cscIssue n 7 0 0 [] .reset).2 else s

/-- An ACK or NAK from part `n` (R486). `written` comes with the last ACK of a relay of the running image (R487). -/
def State.relayAck (s : State) (n : Nat) (ok written : Bool) : State :=
  match smFind s.fw.relays n with
  | none => s
  | some r =>
    let stale := s.isBase && s.fw.commit.isNone
    if r.st ≠ 0 then s
    else if !ok then
      let r' : Relay := { r with fails := r.fails + 1, st := if 3 ≤ r.fails + 1 then 2 else 0 }
      let s := s.setFw { s.fw with relays := smSet s.fw.relays n r' }
      if r'.st = 2 then (if stale then s.staleEnds n false else s) else s.sendUnit n r.unit
    else
      let r' : Relay := { unit := r.unit + 1, fails := 0, st := if r.unit + 1 = s.relayUnits then 1 else 0 }
      let s := s.setFw { s.fw with relays := smSet s.fw.relays n r' }
      if r'.st = 1 ∧ stale then s.staleEnds n written
      else if r'.st = 0 ∧ r'.unit < s.unitsReady then s.sendUnit n r'.unit else s

/-- The Basecamp relays its running image to the PRESENT parts of `stale`, whose IMG_VER differs (R487). -/
def State.relayStale (s : State) (stale : BitVec 4) : State :=
  if !s.isBase ∨ s.fw.commit.isSome ∨ s.fw.handover.isSome then s
  else [1, 2, 3].foldl (fun s n =>
    if stale.getLsbD n ∧ n < s.ringN ∧ s.fld (Reg.CSC_PART_STATE n) 0 2 = 1 ∧ (smFind s.fw.relays n).all (fun r => r.st != 0) then
      s.startRelay n
    else s) s

/-- An Outpost that boots by relay asks for an image until the first RELAY arrives (R457). -/
def State.bootRelayRequest (s : State) : State :=
  if s.sec.relayBoot = some 0 ∧ s.posValid ∧ s.reg Reg.CSC_RLY_CNT = 0 then s.relayMsg 0 else s

/-- No RELAY within 10 s of roll-call: BOOT_LOAD turns to the debug UART (R457). -/
def State.bootRelayTimeout (s : State) : State :=
  if s.sec.relayBoot = some 0 ∧ s.posValid ∧ s.reg Reg.CSC_RLY_CNT = 0 then
    s.setSec { s.sec with relayBoot := none, uartBoot := true }
  else s

/-! ### Commit (R484) -/

/-- The bytes of the downloaded image. -/
def State.imgAt (s : State) (o n : Nat) : List W8 := sliceB (smGet (fun _ => []) s.fw.img (o / 65536)) (o % 65536) n

/-- The slot a Commit names: 0 is the writable slot that is not ACTIVE. -/
def State.commitSlot (s : State) (n : Nat) : Nat :=
  if n ≠ 0 then n else if (s.bootRec.map (·.1.active)).getD 0 = 2 then 3 else 2

/-- Every unit of the image is there. -/
def State.imgWhole (s : State) : Bool :=
  (smFind s.fw.img 0).isSome &&
    (List.range (min (hdrNblk (s.imgAt 0 800)) 256 + 1)).all fun u => (smFind s.fw.img u).isSome

/-- The image passes R458 and R459 (IMG_VERIFY of the whole image). -/
def State.imgGood (s : State) (sg : Sigs) : Bool :=
  let h := s.imgAt 0 800
  let table := s.imgAt 17408 (48 * min (hdrNblk h) 256)
  s.imgWhole && (s.headCheck h table sg).isNone &&
    (List.range (hdrNblk h)).all fun b => sha384 (s.imgAt (65536 * (b + 1)) 65536) == tableDigest table b

/-- The persistent record versions fit (R484, R493). -/
def State.recFits (s : State) (h : List W8) : Bool :=
  decide (hdrRecMin h ≤ s.fw.inForce) && decide (s.fw.inForce ≤ hdrRecVer h)

/-- A numbered part is ABSENT or REFUSED (R487). -/
def State.partGone (s : State) : Bool :=
  (List.range s.ringN).any fun n => n != s.pos && (s.fld (Reg.CSC_PART_STATE n) 0 2 == 2 || s.fld (Reg.CSC_PART_STATE n) 0 2 == 3)

/-- R489 on this part for the image with header `h`. -/
def State.handoverOk (s : State) (h : List W8) : Bool :=
  !(overlaps (hdrLoad h) (65536 * hdrNblk h) s.fw.load (65536 * s.fw.nblk)) &&
    hdrPatch h == (s.reg Reg.UCS_PATCH_HASH).toNat && hdrCust h == (s.reg Reg.UCS_CUST_HASH).toNat &&
    decide (hdrHmin h ≤ s.fw.hver) && s.svc.sanitize.isNone && s.svc.format.isNone && s.gs.dump.isNone &&
    s.gs.prep.isNone && !s.gs.restore && s.ucs.load.isNone

/-- The Commit ends: the image in progress is used up. -/
def State.commitEnds (s : State) : State := s.setFw { s.fw with img := [], commit := none, relays := [] }

/-- Blocks of the downloaded image copied to their LOAD address (R488). -/
def State.loadImage (s : State) (h : List W8) : State :=
  (List.range (hdrNblk h)).foldl (fun s b => s.memWrite (hdrLoad h + 65536 * b) (s.imgAt (65536 * (b + 1)) 65536)) s

/-- Phase 2 on this part: the slot holds the image. -/
def State.writeSlot (s : State) (slot : Nat) : State :=
  (List.range (hdrNblk (s.imgAt 0 800) + 1)).foldl (fun s u => s.norWrite (norSlot slot + 65536 * u) (s.imgAt (65536 * u) 65536)) s

/-- Step 1 of the handover: fetching stops and ACTIVATE goes to every Outpost (R490). -/
def State.handoverStart (s : State) : State :=
  let s := (s.clrReg Reg.NVQ_CTRL (bit 0)).nvqCtrlWritten
  let s := s.setFw { s.fw with handover := some [], handed := false }
  ((List.range s.ringN).filter (· != s.pos)).foldl (fun s n => s.relayMsg n) s

/-- Phase 2 of a Commit with CA 0, 1 or 3 (R484, R488 to R490). -/
def State.commitPhase2 (s : State) (c : NCmd) (ca slot : Nat) (x : CommitIn) : State :=
  let h := s.imgAt 0 800
  if !x.written then (s.commitEnds).cmdErr c 0 0x06 0
  else
    let go := ca == 3 && x.ready && s.handoverOk h
    let s := if go then s.loadImage h else s
    let s := s.writeSlot slot
    if ca = 0 then (s.commitEnds).cmdOk c 0 0
    else
      let s := s.activate slot
      if go then
        let s := s.commitEnds
        (s.setFw { s.fw with commit := some ⟨c.tag, ca, slot⟩ }).handoverStart
      else
        let s := s.commitEnds
        let s := s.setFw { s.fw with resetDue := true }
        if ca = 3 then s.cmdErr c 1 0x0B 1 else s.cmdOk c 0 0

/-- Phase 1: the relays run; none when they are all done (R484, R487). -/
def State.relaysRun (s : State) : Option (Option Bool) :=
  if s.relayTargets = [] then some (some true)
  else if s.fw.commit = none then none
  else if s.fw.relays.any (fun e => e.2.st == 2) then some (some false)
  else if s.fw.relays.all (fun e => e.2.st == 1) then some (some true)
  else some none

/-- Firmware Commit with CA 0, 1 or 3. While the relays run, the command waits. -/
def State.commitImage (s : State) (t ca : Nat) (x : CommitIn) : State :=
  s.adminServe t 0x10 fun c =>
    if natF (c.dw 10) 3 3 ≠ ca ∨ s.fw.handover.isSome ∨ s.fw.commit.any (fun k => k.tag != c.tag) then s
    else if s.inBiv then s.cmdErr c 2 0x80 1
    else
      let fs := natF (c.dw 10) 0 3
      if fs = 1 ∨ 3 < fs then s.cmdErr c 1 0x06 1
      else
        let slot := s.commitSlot fs
        if !s.imgGood x.sg then (s.commitEnds).cmdErr c 1 0x07 1
        else if !s.recFits (s.imgAt 0 800) ∨ s.partGone then (s.commitEnds).cmdErr c 1 0x13 1
        else match s.relaysRun with
          | none =>
            let s := s.setFw { s.fw with commit := some ⟨c.tag, ca, slot⟩, relays := [] }
            s.relayTargets.foldl (fun s n => s.startRelay n) s
          | some none => s
          | some (some false) => (s.commitEnds).cmdErr c 1 0x13 1
          | some (some true) => if !x.others then (s.commitEnds).cmdErr c 1 0x07 1 else s.commitPhase2 c ca slot x

/-- Firmware Commit with CA 2: only the boot records change; the other parts are told by MSG. -/
def State.commitSwitch (s : State) (t : Nat) : State :=
  s.adminServe t 0x10 fun c =>
    if natF (c.dw 10) 3 3 ≠ 2 then s
    else
      let fs := natF (c.dw 10) 0 3
      if 3 < fs then s.cmdErr c 1 0x06 1
      else
        let slot := s.commitSlot fs
        let h := s.norRead (norSlot slot) 800
        if leAt h 0 4 ≠ 0x57465847 then s.cmdErr c 1 0x07 1
        else if !s.recFits h then s.cmdErr c 1 0x13 1
        else
          let s := (s.activate slot).setFw { (s.activate slot).fw with resetDue := true }
          (((List.range s.ringN).filter (· != s.pos)).foldl (fun s n => s.relayMsg n) s).cmdOk c 0 0

/-! ### Handover and confirmation (R488 to R493) -/

/-- Boot record confirmed (R492), and records move to the image's version (R493). -/
def State.confirm (s : State) : State :=
  match s.bootRec with
  | none => s
  | some (r, _) =>
    (s.writeRec { r with st := 0, tries := 0 }).setFw { (s.writeRec { r with st := 0, tries := 0 }).fw with
      confirmed := true, inForce := max s.fw.inForce s.fw.recVer }

/-- BOOT_CONFIRM: after a reset, only once the Groundsheet is restored and the index loaded on the Basecamp (R492). -/
def State.bootConfirm (s : State) : State :=
  if s.fw.confirmed ∨ (s.isBase ∧ !(s.svc.ready && s.svc.index)) then s else s.confirm

/-- Every thread but `p` has halted, with the handover record at `at_`; the instruction caches are empty, and `p` is at the
new image's ENTRY with the record's address in g1 (R490, steps 2 and 3). -/
def State.handoverActivate (s : State) (p : Nat) (at_ : W64) (record : List W8) : State :=
  if !s.runBit p ∨ (s.isBase ∧ s.fw.handover = none) then s
  else
    let h := s.norRead (norSlot ((s.bootRec.map (·.1.active)).getD 1)) 800
    let s := (s.haltAll).setRunBit p true
    let s := s.memWrite at_.toNat record
    let s := { s with ic := [] }
    let t := (s.thr p).setG 1 at_
    let s := s.setThr p { t with pc := BitVec.ofNat 64 (hdrEntry h), wait := .none, halting := false }
    s.setFw { s.fw with
      imgVer := hdrVer h, hver := hdrHver h, load := hdrLoad h, nblk := hdrNblk h, recVer := hdrRecVer h
      recMin := hdrRecMin h, confirmed := false, handed := true }

/-- Step 5 of R490, by the Basecamp's new image: fetching resumes, the Commit completes, and the image confirms (R492). -/
def State.handoverEnd (s : State) : State :=
  match s.fw.handover with
  | none => s
  | some _ =>
    if !s.fw.handed then s
    else
    let s' := (s.orReg Reg.NVQ_CTRL (bit 0)).nvqCtrlWritten
    let s' := match s.fw.commit with
      | some c => s'.complete c.tag 0 0 0
      | none => s'
    (s'.setFw { s'.fw with handover := none, commit := none }).confirm

/-- READY from an Outpost (R490). -/
def State.handoverReady (s : State) (n : Nat) : State :=
  match s.fw.handover with
  | none => s
  | some l =>
    let l := if l.contains n then l else l ++ [n]
    let s := s.setFw { s.fw with handover := some l }
    if ((List.range s.ringN).filter (· != s.pos)).all (fun k => l.contains k) then s.handoverEnd else s

end Sys2Proof.Machine
end

