-- ==== Sys2Proof/Machine/CscPkt.lean ====
section
/-! DEFINITION. The cascade as it meets its neighbours: sideband pulses, roll-call, the link layer's received flits,
authentication, and what received packets do (R351 to R378, R485). -/

namespace Sys2Proof.Machine

/-- The cascade controller set. -/
def State.setCsc (s : State) (c : Csc) : State := { s with csc := c }

/-! ### Sideband and roll-call (R351 to R354) -/

/-- An offer waits to be sent 20 µs after the received pulse: on the West side (`west`) or the East side. -/
def State.queueOffer (s : State) (west : Bool) (v : Nat) : State := s.setCsc { s.csc with offers := s.csc.offers ++ [(west, v)] }

/-- An unnumbered Outpost takes position `v` (R354). -/
def State.takePos (s : State) (v : Nat) : State := (s.setFld Reg.SYS_ROLE 0 2 v).orReg Reg.SYS_ROLE (bit 3)

/-- What an Outpost does with an offer of position `v`, forwarding `nx` on the side `west` (R354 steps 2 and 5). -/
def State.outpostOffer (s : State) (v nx : Nat) (west : Bool) : State :=
  if !s.posValid then
    (if 1 ≤ v ∧ v ≤ 3 then (s.takePos v).queueOffer west nx else s)
  else if s.pos = v then s.queueOffer west nx
  else s.orReg Reg.CSC_STATUS (bit 2)

/-- An east offer arrives on ZW_SB. -/
def State.offerEast (s : State) (v : Nat) : State :=
  if v = 0 then s
  else if s.isBase then
    (if s.csc.rollCall then
      let s := (((s.setFld Reg.CSC_RING 8 1 1).setFld Reg.CSC_RING 4 4 v).setCsc { s.csc with rcClosed := true }).cscCtrlWritten
      if v ≠ s.fld Reg.CSC_RING 0 4 then s.orReg Reg.CSC_STATUS (bit 1) else s
    else s)
  else s.outpostOffer v (v + 1) false

/-- A west offer arrives on ZE_SB; an offer of 0 is ignored, and so is any on the Basecamp. -/
def State.offerWest (s : State) (v : Nat) : State :=
  if v = 0 ∨ s.isBase then s else s.outpostOffer v (v - 1) true

/-- Low time in µs of an offer pulse (R351). -/
def offerUs (west : Bool) (v : Nat) : Nat := if west then 10 * (8 - v) else 10 * v

/-- The oldest waiting offer is sent. -/
def State.offerForward (s : State) : State :=
  match s.csc.offers with
  | [] => s
  | (w, v) :: t => (s.setCsc { s.csc with offers := t }).sbPulse w (offerUs w v)

/-- A WAKE pulse on a port: a wake source, and an Outpost is to forward it (R352). -/
def State.sbWakeIn (s : State) (z : Nat) : State :=
  let s := if s.isBase then s else s.setCsc { s.csc with wakeFwd := some (z == 0) }
  (s.wakeBy (2 + z)).kindle

/-- The WAKE is forwarded on the opposite port, unless one was in the previous 1 ms (R352). -/
def State.wakeForward (s : State) : State :=
  let recent := match s.csc.wakeAt with
    | some t => decide (s.now - t < 50000)
    | none => false
  match s.csc.wakeFwd with
  | some w =>
    if recent then s.setCsc { s.csc with wakeFwd := none }
    else (s.setCsc { s.csc with wakeFwd := none, wakeAt := some s.now }).sbPulse w 200
  | none => s

/-- 1 ms after RC_GO without closure: a west offer of EXPECT − 1 on ZW_SB (R354 step 4). -/
def State.rollWest (s : State) : State :=
  let e := s.fld Reg.CSC_RING 0 4
  if s.csc.rollCall ∧ !s.csc.rcClosed ∧ 1 ≤ e ∧ e ≤ 4 then s.sbPulse true (offerUs true (e - 1)) else s

/-- Roll-call ends: RC_DONE sets, and a ring that did not close has SIZE = EXPECT (R354 step 6); parts of `stale` take the
running image (R487). -/
def State.rollEnd (s : State) (stale : BitVec 4) : State :=
  if !s.csc.rollCall then s
  else
    let s := if s.csc.rcClosed then s
      else ((s.setFld Reg.CSC_RING 8 1 0).setFld Reg.CSC_RING 4 4 (s.fld Reg.CSC_RING 0 4)).cscCtrlWritten
    (((s.orReg Reg.CSC_STATUS (bit 0)).clrReg Reg.CSC_SB (bit 0)).setCsc { s.csc with rollCall := false }).relayStale stale

/-! ### Link layer (R357 to R365) -/

/-- The port carries flits: AUTH, UP or DEGRADED. -/
def State.zLocked (s : State) (z : Nat) : Bool := s.zState z == 2 || s.zState z == 3 || s.zState z == 4

/-- Flit lock: both sides start afresh, and authentication begins (R357, R360). -/
def State.flitLock (s : State) (z : Nat) : State :=
  if s.zState z = 1 then (s.setLink z ZLink.reset).setZState z 2 else s

/-- The port has not locked in 200 ms and starts again. -/
def State.trainAgain (s : State) (z : Nat) : State := if s.zState z = 1 then s.setLink z ZLink.reset else s

/-- The checks of R363 on what the peer claims. -/
def State.authOk (s : State) (z : Nat) (a : AuthResult) : Bool :=
  a.chainOk && a.sigOk && !(s.rbit Reg.SEC_STATUS 3) &&
  (!(s.rbit Reg.CSC_CTRL 4) || s.reg64 (Reg.CSC_ROSTER_LO a.pos.toNat) == a.fingerprint.toNat) &&
  (match s.wantPos z with
  | some q => a.pos.toNat == q
  | none => a.pos.toNat != s.pos) &&
  !(s.isBase && a.basecamp)

/-- The KEY exchange ends (R355, R356, R363): the port goes UP, keyed, or REFUSED. -/
def State.authDone (s : State) (z : Nat) (a : AuthResult) : State :=
  if s.zState z ≠ 2 ∨ !s.posValid then s
  else
    let o := Reg.CSC_PORT_STATE z
    let s := (s.setReg64 (Reg.CSC_PORT_PEER_LO z) a.fingerprint.toNat).setFld o 5 2 a.pos.toNat
    let s := s.setFld o 7 1 (b2n a.basecamp)
    let s := if s.isBase && a.basecamp then s.orReg Reg.CSC_STATUS (bit 3) else s
    if s.authOk z a then (s.setFld o 4 1 1).setZState z 3
    else (s.setZState z 5).setPartState ((s.wantPos z).getD a.pos.toNat) 3

/-- Flits of the replay buffer that an ACK covers leave it: progress clears the resends (R359). -/
def ZLink.acked (l : ZLink) (ack : BitVec 10) : ZLink :=
  match l.replay.findIdx? (fun f => f.seq == ack) with
  | some i => { l with replay := l.replay.drop (i + 1), resends := 0 }
  | none => l

/-- Credits returned (R358, R360); a receiver has 128 of each class. -/
def ZLink.credited (l : ZLink) (cls : BitVec 2) (n : Nat) : ZLink :=
  if cls = 0 then { l with crReq := min 128 (l.crReq + n) }
  else if cls = 1 then { l with crCpl := min 128 (l.crCpl + n) }
  else l

/-- Every unacknowledged flit is sent again as first sent; after 4 resends without progress the port retrains (R359, R361). -/
def State.resend (s : State) (z : Nat) : State :=
  let l := s.link z
  if l.replay = [] then s
  else if 4 ≤ l.resends then s.zDown z
  else
    let s := (s.setLink z { l with resends := l.resends + 1 }).incFld (Reg.CSC_PORT_CNT z 1) 0 32
    s.emits (l.replay.map fun f => OutEvent.zFlit (z == 1) f)

/-- The flit is discarded: a NAK names the last one received in order (R359). -/
def State.nak (s : State) (z : Nat) : State := s.sendUnseq z .nak

/-- A bad flit is dated for R362. -/
def State.badFlit (s : State) (z : Nat) : State :=
  let l := s.link z
  s.setLink z { l with bad := s.now :: l.bad }

/-- Credits of a packet taken up are owed to the peer (R360). -/
def State.creditBack (s : State) (z : Nat) (pk : Packet) : State :=
  let l := s.link z
  s.setLink z (if pktIsCpl pk then { l with retCpl := l.retCpl + pktCredits pk } else { l with retReq := l.retReq + pktCredits pk })

/-- An IDLE flit when credits are owed (DESIGN CHOICE, log entry 12). -/
def State.idleFlit (s : State) (z : Nat) : State :=
  if s.zLocked z && decide ((s.link z).retReq + (s.link z).retCpl ≠ 0) then s.sendUnseq z .idle else s

/-! ### Packets received (R366 to R376) -/

/-- A completion to the source of a request, over the way of R373; an Outpost that does not know N, and a DEGRADED port,
answer where the request came from. -/
def State.answer (s : State) (z : Nat) (pk : Packet) (status : Nat) (data : List W8) : State :=
  let q := pk.src.toNat
  if q = s.pos then s
  else
    let ping := pk.kind == 8
    let back := s.zState z == 4 || (!s.isBase && !s.csc.sizeKnown)
    match (if back then some (z == 1) else s.wayTo q) with
    | none => s
    | some w =>
      s.sendPkt (b2n w) { kind := 3, src := BitVec.ofNat 2 s.pos, dst := pk.src, west := w, resv := 0, tag := pk.tag
                          len := BitVec.ofNat 32 data.length, arg := BitVec.ofNat 64 status, data := data } ping

/-- A REFUSED answer counts at the receiving port (R370). -/
def State.refuse (s : State) (z : Nat) (pk : Packet) : State :=
  (s.incFld (Reg.CSC_PORT_CNT z 4) 0 32).answer z pk 1 []

/-- LEN is in the range of the packet's KIND (R366). -/
def lenOk (pk : Packet) : Bool :=
  let n := pk.len.toNat
  match pk.kind.toNat with
  | 1 => decide (1 ≤ n) && decide (n ≤ 4096) && decide (pk.arg.toNat % 4096 + n ≤ 4096)
  | 2 => decide (1 ≤ n) && decide (n ≤ 4096)
  | 3 => decide (n ≤ 4096)
  | 4 => n == 16
  | 5 => n == 4
  | 6 => decide (1 ≤ n) && decide (n ≤ 4096)
  | 7 => n == 0
  | 8 => n == 0
  | 9 => n == 0
  | _ => false

/-- Bits of ARG that the packet's KIND does not define are 0 (R366; DEDUCED, log entry 33). -/
def argOk (pk : Packet) : Bool :=
  let a := pk.arg.toNat
  match pk.kind.toNat with
  | 1 => decide (a < 2 ^ 36)
  | 2 => decide (a < 2 ^ 36)
  | 3 => decide (a ≤ 4)
  | 4 => a == 0
  | 5 => a == 0
  | 7 => decide (a ≤ 1)
  | 8 => a == 0
  | 9 => decide (a % 256 < 4) && decide (a / 256 % 256 ≤ 1) && a / 2 ^ 24 % 256 == 0 && a / 2 ^ 48 == 0
  | _ => true

/-- R367: the packet is malformed. -/
def State.malformed (s : State) (z : Nat) (pk : Packet) : Bool :=
  let k := pk.kind.toNat
  let src := pk.src.toNat
  k == 0 || decide (9 < k) || (src == s.pos && k != 9) ||
  ((s.isBase || s.csc.sizeKnown) && decide (s.ringN ≤ src)) ||
  decide (pk.resv ≠ 0) || !(lenOk pk) || !(argOk pk) ||
  (k == 6 && src != s.neighbour z) || (k == 7 && src != 0)

/-- A malformed packet is discarded and counted; the target answers a request that carried a TAG with BADPKT (R367). -/
def State.badPkt (s : State) (z : Nat) (pk : Packet) : State :=
  let s := s.incFld (Reg.CSC_PORT_CNT z 3) 0 32
  if pk.dst.toNat = s.pos ∧ pk.kind ≠ 3 ∧ pk.kind ≠ 9 then s.answer z pk 4 [] else s

/-- Packets of an unknown KIND are discarded as they arrive (R367). -/
def State.dropUnknown (s : State) (z : Nat) (l : List Packet) : State :=
  l.foldl (fun s pk => if 1 ≤ pk.kind.toNat ∧ pk.kind.toNat ≤ 9 then s else (s.creditBack z pk).badPkt z pk) s

/-- A request for this part waits on a port: its source. -/
def State.waitingSrcs (s : State) : List Nat :=
  let mine := fun (z : Nat) => ((s.link z).pktIn.filter fun p => p.dst.toNat == s.pos && p.kind != 3 && p.kind != 9).map (·.src.toNat)
  mine 0 ++ mine 1

/-- The source that the rotation of R368 serves next. -/
def State.nextSrc (s : State) : Option Nat :=
  ((List.range 4).map fun i => (s.csc.serve + i) % 4).find? fun q => s.waitingSrcs.contains q

/-- The packet is the oldest of its source on the port, and a request for this part is from the source whose turn it is. -/
def State.mayTake (s : State) (z : Nat) (pk : Packet) : Bool :=
  (s.link z).pktIn.find? (fun p => p.src == pk.src && pktIsCpl p == pktIsCpl pk) == some pk &&
  (pk.dst.toNat != s.pos || pk.kind == 3 || pk.kind == 9 || s.nextSrc == some pk.src.toNat)

/-- The packet at the head leaves the received ones, and its source's turn is over. -/
def State.takePkt (s : State) (z : Nat) (pk : Packet) : State :=
  let l := s.link z
  let s := (s.setLink z { l with pktIn := l.pktIn.erase pk }).creditBack z pk
  if pk.dst.toNat = s.pos ∧ pk.kind ≠ 3 ∧ pk.kind ≠ 9 then s.setCsc { s.csc with serve := (pk.src.toNat + 1) % 4 } else s

/-- A packet row: packet `pk` of KIND `kind` is taken up from port `z`. A malformed one is discarded; one for another part is
forwarded out of the port that DIR names; else `act` is what it does here (R367, R373). A DEGRADED port carries PING and its
answer only (R362). -/
def State.packet (s : State) (z : Nat) (kind : Nat) (pk : Packet) (act : State → State) : State :=
  if pk.kind.toNat ≠ kind ∨ !(s.rbit Reg.CSC_CTRL 0) ∨ !(s.zState z == 3 || s.zState z == 4) ∨ !(s.mayTake z pk) then s
  else
    let s := s.takePkt z pk
    let pingish := kind == 8 || (kind == 3 && s.csc.reqs.any fun r => r.tag == pk.tag.toNat && r.kind == 8)
    let s :=
      if s.zState z = 4 ∧ !pingish then s
      else if s.malformed z pk then s.badPkt z pk
      else if pk.dst.toNat ≠ s.pos ∧ kind ≠ 9 then s.sendPkt (b2n pk.west) pk false
      else act s
    s.idleFlit z

/-! ### Remote memory (R369, R370) -/

/-- What the inbound filter says of a remote access. -/
inductive Inbound where
  | mem (a : Nat)
  | reg (off : Nat)
  | refused
  | unpopulated
  deriving DecidableEq, Repr

/-- The access lies whole in an inbound window with the source's right. -/
def State.inWindow (s : State) (src a n : Nat) (write : Bool) : Bool :=
  (List.range 4).any fun w =>
    let base := s.reg64 (Reg.CSC_INWIN_BASE_LO w) / 4096 * 4096
    let lim := Reg.CSC_INWIN_LIMIT w
    decide (base ≤ a) && decide (a + n ≤ base + s.fld lim 0 22 * 4096) &&
      s.rbit lim ((if write then 28 else 24) + src)

/-- R370 for an access of `n` bytes at a window offset from part `src`; UNPOPULATED comes before REFUSED. -/
def State.inbound (s : State) (src off n : Nat) (write : Bool) : Inbound :=
  if off < 2 ^ 34 then
    if s.dramSize < off + n then .unpopulated
    else if s.inWindow src off n write then .mem off else .refused
  else if 0x400000000 ≤ off ∧ off + n ≤ 0x401000000 then
    let o := off - 0x400000000
    if !(sramPopulated o) ∨ !(sramPopulated (o + n - 1)) then .unpopulated
    else if !write && s.rbit Reg.CSC_INCTRL 0 then .mem (0x010000000000 + o) else .refused
  else if 0x800000000 ≤ off ∧ off + n ≤ 0x800130000 then
    let o := off - 0x800000000
    if src = 0 ∧ s.rbit Reg.CSC_INCTRL 1 ∧ n = 4 ∧ o % 4 = 0 then .reg o else .refused
  else .unpopulated

/-- MWR: the write is performed, then answered. -/
def State.mwrAct (s : State) (z : Nat) (pk : Packet) : State :=
  match s.inbound pk.src.toNat pk.arg.toNat pk.data.length true with
  | .mem a => (s.memWrite a pk.data).answer z pk 0 []
  | .reg o => (s.regStore (.remote (Fin.ofNat _ pk.src.toNat)) o pk.data).answer z pk 0 []
  | .refused => s.refuse z pk
  | .unpopulated => s.answer z pk 2 []

/-- MRD: answered with the data, or UNCORRECTABLE. -/
def State.mrdAct (s : State) (z : Nat) (pk : Packet) : State :=
  let n := pk.len.toNat
  match s.inbound pk.src.toNat pk.arg.toNat n false with
  | .mem a =>
    let (l, ue, s) := s.memRead a n
    if ue then s.answer z pk 3 [] else s.answer z pk 0 l
  | .reg o =>
    let (v, s) := s.regLoad (.remote (Fin.ofNat _ pk.src.toNat)) o n
    s.answer z pk 0 (leBytes n v)
  | .refused => s.refuse z pk
  | .unpopulated => s.answer z pk 2 []

/-! ### The other packets -/

/-- A part answered a ping: PRESENT, unless the port that faces it refuses it (R375). -/
def State.pingOk (s : State) (n : Nat) : State :=
  let s := s.setCsc { s.csc with missed := smPut (fun _ => 0) s.csc.missed n 0 }
  if s.refuses n then s else s.setPartState n 1

/-- An outstanding request is answered OK (R47, R368, R371). -/
def State.reqOk (s : State) (r : CscReq) (data : List W8) : State :=
  match r.use with
  | .load p => s.cascLoadEnd p r.tag (some data) (0x030000000000 + r.dst * 0x001000000000 + r.arg)
  | .store p => s.fenceWake p
  | .dma c => s.dmaRemoteEnd c r.arg (some (if r.kind = 2 then padTo r.len data else [], false))
  | .msg p => s.setMsgStat p 0
  | .ping => s.pingOk r.dst
  | .dbg load => if load then s.emit (.dbg 0 (padTo r.len data)) else s
  | .reset | .relay => s

/-- An outstanding request is answered with a failure; a DMA read that met uncorrectable data takes marked bytes (R413). -/
def State.reqBad (s : State) (r : CscReq) (status : Nat) : State :=
  match r.use with
  | .dma c =>
    if status = 3 ∧ r.kind = 2 then
      let (k, s) := s.freeAny
      s.dmaRemoteEnd c r.arg (some (leBytes r.len k, true))
    else s.reqFailed r false
  | _ => s.reqFailed r false

/-- CPL: ends the outstanding request of its tag, or is discarded as unexpected (R367, R368). -/
def State.cplAct (s : State) (z : Nat) (pk : Packet) : State :=
  match s.csc.reqs.find? (fun r => r.tag == pk.tag.toNat) with
  | none => s.incFld (Reg.CSC_PORT_CNT z 5) 0 32
  | some r =>
    let s := s.dropReq r.tag
    if pk.arg.toNat = 0 then s.reqOk r pk.data else s.reqBad r pk.arg.toNat

/-- MSG: a work message to the camps of CSC_MSG_ROUTE, bits 63:62 of its first word the source (R371). -/
def State.msgAct (s : State) (z : Nat) (pk : Packet) : State :=
  let w0 : W64 := BitVec.ofNat 64 (leAt pk.data 0 8 % 2 ^ 62 + pk.src.toNat * 2 ^ 62)
  let w1 : W64 := BitVec.ofNat 64 (leAt pk.data 8 8)
  (s.post ⟨s.fld Reg.CSC_MSG_ROUTE 0 6, 40, ⟨w0, w1, 0x104⟩⟩).answer z pk 0 []

/-- DBELL: ORed into CSC_DOORBELL; DBELL sets when that becomes non-zero (R371). -/
def State.dbellAct (s : State) (z : Nat) (pk : Packet) : State :=
  let m : W32 := BitVec.ofNat 32 (leAt pk.data 0 4)
  let was := s.reg Reg.CSC_DOORBELL
  let s := s.orReg Reg.CSC_DOORBELL m
  let s := if was = 0 ∧ m ≠ 0 then s.orReg Reg.CSC_STATUS (bit 8) else s
  s.answer z pk 0 []

/-- RELAY: written into the relay area, or REFUSED (R485). -/
def State.relayAct (s : State) (z : Nat) (pk : Packet) : State :=
  let size := min 257 (s.fld Reg.CSC_RLY_SIZE 0 9) * 65536
  if size = 0 ∨ size < pk.arg.toNat + pk.data.length then s.refuse z pk
  else
    let n := s.csc.rlyRem + pk.data.length
    let s := (s.memWrite (s.reg64 Reg.CSC_RLY_BASE_LO / 65536 * 65536 + pk.arg.toNat) pk.data).incFld Reg.CSC_RLY_CNT 0 32 (n / 4096)
    (s.setCsc { s.csc with rlyRem := n % 4096 }).answer z pk 0 []

/-- RESET from position 0: answered, then the part resets (R378, R430). -/
def State.resetAct (s : State) (z : Nat) (pk : Packet) : State :=
  let s := s.answer z pk 0 []
  if pk.arg.toNat % 2 = 0 then s.resetRequest false 4 false else s.resetRequest true 5 false

/-- SEQN is newer than the last one seen of its originator, counted modulo 2^16 (R372). -/
def newerSeq (old : Option Nat) (n : Nat) : Bool :=
  match old with
  | none => true
  | some o => decide (0 < (n + 65536 - o) % 65536) && decide ((n + 65536 - o) % 65536 < 32768)

/-- LINKSTATE (R372): a newer one sets the segment's flag, gives an Outpost the ring size, and goes on. -/
def State.linkstateAct (s : State) (z : Nat) (pk : Packet) : State :=
  let a := pk.arg.toNat
  let src := pk.src.toNat
  let seqn := a / 2 ^ 32 % 65536
  if src = s.pos ∨ !(newerSeq (smFind s.csc.seen src) seqn) then s
  else
    let s := s.setCsc { s.csc with seen := smSet s.csc.seen src seqn }
    let size := a / 2 ^ 16 % 256
    let s := if src = 0 ∧ 1 ≤ size ∧ size ≤ 4 ∧ !s.isBase then
        (s.setFld Reg.CSC_RING 4 4 size).setCsc { s.csc with sizeKnown := true }
      else s
    let seg := a % 256
    let up := a / 256 % 256 == 0
    let mine := fun (y : Nat) => s.segOf y == seg && s.zState y != 3
    let s := s.setSeg seg (up && !(mine 0) && !(mine 1))
    s.sendPkt (1 - z) pk false

/-! ### Flits received (R358, R359, R364) -/

/-- Payload bytes of a DATA flit join the stream; whole packets wait to be taken up, unknown ones are discarded. -/
def State.dataIn (s : State) (z : Nat) (payload : List W8) : State :=
  let l := s.link z
  let (ps, rest) := parsePackets (l.rxBuf ++ padTo 244 payload) ((l.rxBuf.length + 244) / 4 + 1)
  let known := ps.filter fun p => decide (1 ≤ p.kind.toNat) && decide (p.kind.toNat ≤ 9)
  (s.setLink z { l with rxBuf := rest, pktIn := l.pktIn ++ known }).dropUnknown z ps

/-- The header of a good flit: acknowledgement and credits, after which waiting packets may go. -/
def State.headerIn (s : State) (z : Nat) (f : Flit) : State :=
  let s := s.setLink z (((s.link z).acked f.ack).credited f.cclass f.ccount.toNat)
  s.pump z ((s.link z).sendQ.length)

/-- The unsequenced counter of an IDLE or NAK flit is acceptable: above the last one accepted, once keys are in use. -/
def State.unseqOk (s : State) (z : Nat) (f : Flit) : Bool :=
  !(s.keyed z) || decide ((s.link z).idleRx ≤ leAt f.payload 0 8)

/-- A flit is received (R359): bad ones are counted and answered by NAK, sequenced ones are taken in order. Before keys are in use
its CHECK is the CRC-64, which the part computes; the verdict on a tag is an operand. -/
def State.flitIn (s : State) (z : Nat) (f : Flit) (chk : FlitCheck) : State :=
  if !(s.zLocked z) then s
  else if !(s.keyed z) ∧ chk ≠ .fecBad ∧ f.check ≠ crc64 (flitBody f) then s.nak z
  else match if s.keyed z || chk == .fecBad then chk else .good with
    | .fecBad => ((s.incFld (Reg.CSC_PORT_CNT z 0) 0 32).badFlit z).nak z
    | .tagBad => ((s.incFld (Reg.CSC_PORT_CNT z 2) 0 32).badFlit z).nak z
    | .good =>
      match f.type with
      | .idle | .nak =>
        if !(s.unseqOk z f) then s
        else
          let l := s.link z
          let s := (s.setLink z { l with idleRx := leAt f.payload 0 8 + 1 }).headerIn z f
          if f.type = .nak then s.resend z else s
      | .data | .key =>
        if f.seq ≠ BitVec.ofNat 10 (s.link z).rxSeq then s.nak z
        else
          let s := s.setLink z { s.link z with rxSeq := (s.link z).rxSeq + 1 }
          let s := s.headerIn z f
          let s := if f.type = .data then s.dataIn z f.payload else s
          s.sendUnseq z .idle

/-- A NAK names the last flit received in order: what it covers is acknowledged, the rest is sent again (R359). -/
def State.nakIn (s : State) (z : Nat) (ack : BitVec 10) : State :=
  if s.zLocked z then (s.setLink z ((s.link z).acked ack)).resend z else s

/-- 2 µs without progress (R359). -/
def State.replayTimeout (s : State) (z : Nat) : State := if s.zLocked z then s.resend z else s

/-- No good codeword for 1 µs (R361). -/
def State.portLost (s : State) (z : Nat) : State := if s.zLocked z then s.zDown z else s

/-- CSC_FLTWIN.COUNT bad flits fall in a window of WIN_MS (R362). -/
def State.badWindow (s : State) (z : Nat) : Bool :=
  let n := max 1 (s.fld Reg.CSC_FLTWIN 24 8)
  let win := max 1 (s.fld Reg.CSC_FLTWIN 12 12) * 50000
  let l := (s.link z).bad
  match l[0]?, l[n - 1]? with
  | some a, some b => decide (a - b < win)
  | _, _ => false

/-- The port goes DEGRADED (R362): its packets other than PING are not carried. -/
def State.degrade (s : State) (z : Nat) (stall : Bool) : State :=
  if s.zState z ≠ 3 then s
  else if (stall && decide ((s.link z).sendQ ≠ [])) || (!stall && s.badWindow z) then
    let l := s.link z
    (s.setLink z { l with sendQ := l.sendQ.filter (·.kind == 8), bad := [] }).setZState z 4
  else s

/-- A direction is rekeyed after 2^32 sequenced flits, by a KEY flit within the sequence (R365). -/
def State.rekey (s : State) (z : Nat) (sending : Bool) : State :=
  let l := s.link z
  if s.zState z ≠ 3 then s
  else if sending then
    if 2 ^ 32 ≤ l.txKeyUse then
      let (k, s) := s.freeAny
      let s := s.sendSeq z .key (leBytes 244 k)
      s.setLink z { s.link z with txKey := l.txKey + 1, txKeyUse := 0 }
    else s
  else if 2 ^ 32 * (l.rxKey + 1) ≤ l.rxSeq then s.setLink z { l with rxKey := l.rxKey + 1 }
  else s

/-! ### Requests of this part -/

/-- CSC_TMO has passed since the request was issued (R368). -/
def State.cscTimeout (s : State) (t : Nat) : State :=
  match s.csc.reqs.find? (fun r => r.tag == t) with
  | some r => ((s.dropReq t).quarantine t).reqFailed r false
  | none => s

/-- A tag's quarantine ends (R368). -/
def State.quarEnd (s : State) (t : Nat) : State := s.setCsc { s.csc with quar := s.csc.quar.filter (· != t) }

end Sys2Proof.Machine
end

