-- ==== Sys2Proof/Machine/Attest.lean ====
section
/-! DEFINITION. Attestation over DOE: discovery, CMA-SPDM 1.2 and the hybrid protocol (R349, R469). The SPDM message layouts
are those of the standard (PRESUMED, log entry 6). -/

namespace Sys2Proof.Machine

/-! ### Measurements -/

/-- The OTP key hashes as bytes. -/
def Sec.keyHashes (x : Sec) : List W8 := x.ckeyImg.getD [] ++ x.ckeyTok.getD [] ++ x.ckeyEsc.getD []

/-- Measurement `i`, 48 bytes (R469). -/
def State.meas (s : State) (i : Nat) : List W8 :=
  match i with
  | 1 => beBytes 48 Config.romHash.toNat
  | 2 => beBytes 48 (Config.meas2 s.lcNow s.rightsNow (s.fld Reg.SEC_LC 7 1) s.sec.openBoot s.sec.keyHashes).toNat
  | 3 => padTo 48 s.sec.hdrHash
  | 4 => padTo 48 s.sec.patchHash
  | 5 => padTo 48 s.sec.custHash
  | 6 => beBytes 48 (Config.meas6 s.sec.minSvn (s.fld Reg.SEC_SVN 8 8)).toNat
  | _ => []

/-- The measurement indices. -/
def measIx : List Nat := [1, 2, 3, 4, 5, 6]

/-! ### DOE objects (R349) -/

/-- Double words of bytes, the last one filled with zeros. -/
def toDws (l : List W8) : List W32 := (List.range ((l.length + 3) / 4)).map fun i => BitVec.ofNat 32 (leAt l (4 * i) 4)
/-- A data object of a protocol. -/
def doeWrap (vendor type : Nat) (p : List W8) : List W32 :=
  BitVec.ofNat 32 (vendor + type * 2 ^ 16) :: BitVec.ofNat 32 (2 + (p.length + 3) / 4) :: toDws p

/-- The mailbox takes its next request: `f` answers the payload of the response, or none for a request without one, which
sets DOE Error. The request must be of this protocol and meet `m`, no response may be waiting, and Ranger serves in order of
arrival (R349, R461, R469). -/
def State.doeServe (s : State) (n vendor type : Nat) (m : List W8 → Bool) (f : List W8 → State → Option (List W8) × State) :
    State :=
  let d := s.doe n
  match d.wait with
  | [] => s
  | (seq, o) :: rest =>
    if (s.doeNext n).isNone ∨ !s.rangerTurn seq ∨ doeProto o ≠ (vendor, type) ∨ !m (doePayload o) then s
    else match f (doePayload o) (s.setDoe n { d with wait := rest }) with
      | (some p, s) => s.setDoe n { s.doe n with prep := doeWrap vendor type p }
      | (none, s) => s.setDoe n { s.doe n with err := true }

/-- Ranger's response is finished and stands in the mailbox. -/
def State.doeReady (s : State) (n : Nat) : State :=
  let d := s.doe n
  if d.prep = [] ∨ d.resp ≠ [] ∨ !s.portLive n then s else s.setDoe n { d with prep := [], resp := d.prep }

/-- DOE Discovery: the protocol of an index and the next index (R349). -/
def discoveryAt (i : Nat) : List W8 :=
  match i with
  | 0 => leBytes 2 1 ++ [0, 1]
  | 1 => leBytes 2 1 ++ [1, 2]
  | 2 => leBytes 2 0x1CF7 ++ [1, 0]
  | _ => leBytes 2 0xFFFF ++ [0, 0]

/-! ### CMA-SPDM 1.2 -/

/-- An SPDM error response: Invalid Request. -/
def spdmError : List W8 := [0x12, 0x7F, 1, 0]

/-- VERSION: one entry, 1.2. -/
def spdmVersion : List W8 := [0x10, 0x04, 0, 0, 0, 1, 0, 0x12]

/-- CAPABILITIES: certificates, challenge and signed measurements; the timing exponent and the sizes are free. -/
def State.spdmCaps (s : State) : List W8 × State :=
  let (x, s) := s.freeNat (2 ^ 72 - 1)
  ([0x12, 0x61, 0, 0, 0, BitVec.ofNat 8 x, 0, 0] ++ leBytes 4 0x16 ++ leBytes 8 (x / 256), s)

/-- ALGORITHMS: DMTF measurements, SHA-384 and ECDSA P-384. -/
def spdmAlgs : List W8 :=
  [0x12, 0x63, 0, 0] ++ leBytes 2 36 ++ [1, 0] ++ leBytes 4 4 ++ leBytes 4 0x80 ++ leBytes 4 2 ++ List.replicate 16 0

/-- DIGESTS: slot 0 only. -/
def spdmDigests (chain : List W8) : List W8 := [0x12, 0x01, 0, 1] ++ sha384 chain

/-- CERTIFICATE: a portion of slot 0's chain. -/
def spdmCert (p chain : List W8) : List W8 :=
  let off := leAt p 4 2
  if leAt p 2 1 % 16 ≠ 0 ∨ chain.length ≤ off then spdmError
  else
    let n := min (leAt p 6 2) (chain.length - off)
    [0x12, 0x02, 0, 0] ++ leBytes 2 n ++ leBytes 2 (chain.length - off - n) ++ sliceB chain off n

/-- The block of measurement `i`: index, DMTF, size, the value type (free), the value. -/
def State.measBlock (s : State) (i type : Nat) : List W8 :=
  [BitVec.ofNat 8 i, 1] ++ leBytes 2 51 ++ [BitVec.ofNat 8 type] ++ leBytes 2 48 ++ s.meas i
/-- Blocks of several measurements. -/
def State.measBlocks (s : State) (l : List Nat) (types : Nat) : List W8 :=
  l.flatMap fun i => s.measBlock i (natF types (8 * i) 8)

/-- CHALLENGE_AUTH: chain hash, nonce, the summary over all measurements if asked for, and DIK-C's signature. -/
def State.spdmChallenge (s : State) (p chain : List W8) : List W8 × State :=
  if leAt p 2 1 ≠ 0 then (spdmError, s)
  else
    let (types, s) := s.freeNat (2 ^ 64 - 1)
    let (nonce, s) := s.freeBytes 32
    let (sig, s) := s.freeBytes 96
    let sum := if leAt p 3 1 = 0 then [] else sha384 (s.measBlocks (if leAt p 3 1 = 1 then [1] else measIx) types)
    ([0x12, 0x03, 0, 1] ++ sha384 chain ++ nonce ++ sum ++ [0, 0] ++ sig, s)

/-- MEASUREMENTS: the number of blocks, one block or all of them, signed if asked for. -/
def State.spdmMeas (s : State) (p : List W8) : List W8 × State :=
  let op := leAt p 3 1
  let sel := if op = 0 then [] else if op = 0xFF then measIx else measIx.filter (· == op)
  if op ≠ 0 ∧ sel = [] then (spdmError, s)
  else
    let (types, s) := s.freeNat (2 ^ 64 - 1)
    let (nonce, s) := s.freeBytes 32
    let (sig, s) := s.freeBytes 96
    let rec_ := s.measBlocks sel types
    ([0x12, 0x60, if op = 0 then 6 else 0, 0, BitVec.ofNat 8 sel.length] ++ leBytes 3 rec_.length ++ rec_ ++ nonce ++ [0, 0] ++
      (if (leAt p 2 1).testBit 0 then sig else []), s)

/-! ### Hybrid attestation (R469) -/

/-- The response for SEL 0. -/
def State.hybridMeas (s : State) (p : List W8) : List W8 × State :=
  let bad := s.rbit Reg.SEC_STATUS 3
  let sel := measIx.filter fun i => (leAt p 40 4).testBit i
  let n := if bad then 0xFF else sel.length
  let head := [0x47, 0x58, 0x48, 0x53, 1, 0, BitVec.ofNat 8 s.lcNow, BitVec.ofNat 8 n] ++ leBytes 8 Config.serial.toNat ++
    sliceB p 8 32
  if bad then (head, s)
  else
    let (c, s) := s.freeBytes 96
    let (q, s) := s.freeBytes 16224
    (head ++ (sel.flatMap fun i => [BitVec.ofNat 8 i, 0, 0, 0] ++ s.meas i) ++ c ++ q, s)

end Sys2Proof.Machine
end

