-- ==== Sys2Proof/Machine/Dbg.lean ====
section
/-! DEFINITION. The debug ports: frames, rights, accesses, thread control, and the JTAG instruction register (R464 to R475). -/

namespace Sys2Proof.Machine

/-- Ranger's answer to a frame. -/
def State.dbgAnswer (s : State) (status : Nat) (data : List W8) : State := s.emit (.dbg status data)

/-- A command other than INFO is served: DBG_ACT sets. -/
def State.dbgServed (s : State) : State := s.orReg Reg.SEC_STATUS (bit 4)

/-- A frame arrives (R464, R474): in Ember there is no debug port; a bad frame is BAD; a command without its right is
DENIED. -/
def State.dbgFrame (s : State) (ok : Bool) (right : Option Nat) (act : State → State) : State :=
  if 3 ≤ s.pwr.st then s
  else if !ok then s.dbgAnswer 4 []
  else match right with
    | some r => if s.rightsNow.testBit r then act s else s.dbgAnswer 1 []
    | none => act s

/-- INFO: lifecycle, PERM, serial number and nonce. -/
def State.dbgInfo (s : State) : State :=
  s.dbgAnswer 0 (leBytes 1 s.lcNow ++ leBytes 1 s.rightsNow ++ leBytes 8 Config.serial.toNat ++
    ((List.range 8).map fun i => leBytes 4 (s.reg (Reg.SEC_NONCE i)).toNat).flatten)

/-- TOKEN: as the TOKEN command; a refused one is DENIED. -/
def State.dbgToken (s : State) (t : List W8) (sg : Sigs) : State :=
  let (r, s) := (s.dbgServed).tokenTry (padTo 16672 t) sg
  s.dbgAnswer (if r = 0 then 0 else 1) []

/-- Blocks that R419 keeps running in Kindled: SYS, EMB, THM, EVT, SEC and NVI. -/
def kindledBlock (b : Nat) : Bool := [0, 1, 12, 13, 14, 18].contains b

/-- In Kindled the place lies in something that is off or clock-gated (R475). -/
def State.dbgOff (s : State) (pl : Place) : Bool :=
  s.pwr.st == 2 && (match pl with
  | .reg off => !(kindledBlock (off / 0x10000))
  | .sram off => !(decide (0x400000 ≤ off) && decide (off < 0x500800))
  | .dram _ => true
  | .casc _ _ => true
  | _ => false)

/-- The address lies in the host-side window (R14). -/
def Place.isHost : Place → Bool
  | .host _ => true
  | _ => false

/-- The checks of RD and WR: DENIED for the host-side window, FAULT for a hole or a misaligned access outside the register
region, POWERED_DOWN under R475; none when the access may go on. -/
def State.dbgCheck (s : State) (a : BitVec 48) (n : Nat) : Option Nat :=
  let ea : W64 := a.setWidth 64
  let pl := s.resolve ea
  if pl.isHost then some 1
  else if pl = .hole ∨ (!inRegRegion ea ∧ ea.toNat % n ≠ 0) then some 3
  else if s.dbgOff pl then some 2
  else none

/-- RD. A read of another part is answered when its completion comes. -/
def State.dbgRead (s : State) (a : BitVec 48) (n : Nat) : State :=
  match s.dbgCheck a n with
  | some st => s.dbgAnswer st []
  | none =>
    let s := s.dbgServed
    match s.resolve (a.setWidth 64) with
    | .reg off =>
      let (v, s) := s.regLoad .debug off n
      s.dbgAnswer 0 (leBytes n v)
    | .casc q off =>
      match s.cscIssue q 2 off n [] (.dbg true) with
      | (some _, s) => s
      | (none, s) => s.dbgAnswer 3 []
    | pl =>
      let (l, ue, s) := s.memRead pl.localAddr n
      if ue then s.dbgAnswer 3 [] else s.dbgAnswer 0 l

/-- WR. -/
def State.dbgWrite (s : State) (a : BitVec 48) (n : Nat) (v : W64) : State :=
  match s.dbgCheck a n with
  | some st => s.dbgAnswer st []
  | none =>
    let s := s.dbgServed
    let l := leBytes n v.toNat
    match s.resolve (a.setWidth 64) with
    | .reg off => (s.regStore .debug off l).dbgAnswer 0 []
    | .casc q off =>
      match s.cscIssue q 1 off n l (.dbg false) with
      | (some _, s) => s.dbgAnswer 0 []
      | (none, s) => s.dbgAnswer 3 []
    | pl => (s.memWrite pl.localAddr l).dbgAnswer 0 []

/-- HALT: the thread issues nothing more; it keeps its run bit (R465). -/
def State.dbgHalt (s : State) (p : Nat) : State := ((s.dbgServed).setThr p { s.thr p with dbg := true }).dbgAnswer 0 []
/-- RUN. -/
def State.dbgRun (s : State) (p : Nat) : State :=
  ((s.dbgServed).setThr p { s.thr p with dbg := false, step := false }).dbgAnswer 0 []

/-- A command on a debug-halted thread: POWERED_DOWN while the engines are gated, FAULT on any other thread. -/
def State.dbgHalted (s : State) (p : Nat) (act : State → State) : State :=
  if s.pwr.st = 2 then s.dbgAnswer 2 [] else if (s.thr p).dbg then act s.dbgServed else s.dbgAnswer 3 []

/-- STEP: one instruction or exception entry. -/
def State.dbgStep (s : State) (p : Nat) : State :=
  s.dbgHalted p fun s => (s.setThr p { s.thr p with step := true }).dbgAnswer 0 []

/-- GETREG. -/
def State.dbgGet (s : State) (p : Nat) (r : DbgReg) : State :=
  s.dbgHalted p fun s =>
    match r with
    | .gen n => s.dbgAnswer 0 (leBytes 8 ((s.thr p).getG n.toNat).toNat)
    | .pred n => s.dbgAnswer 0 (leBytes 8 (b2n ((s.thr p).getP n.toNat)))
    | .special n =>
      if (srPriv n.toNat).isSome then s.dbgAnswer 0 (leBytes 8 (s.srRead p n.toNat).toNat) else s.dbgAnswer 3 []

/-- SETREG. -/
def State.dbgSet (s : State) (p : Nat) (r : DbgReg) (v : W64) : State :=
  s.dbgHalted p fun s =>
    match r with
    | .gen n => (s.setThr p ((s.thr p).setG n.toNat v)).dbgAnswer 0 []
    | .pred n => (s.setThr p ((s.thr p).setP n.toNat (v.getLsbD 0))).dbgAnswer 0 []
    | .special n =>
      if srPriv n.toNat = some true then (s.setThr p ((s.thr p).srWrite n.toNat v)).dbgAnswer 0 [] else s.dbgAnswer 3 []

/-- LOG: the Trail Log ring and the last-words log. -/
def State.dbgLog (s : State) : State :=
  (s.dbgServed).dbgAnswer 0 (s.sramBytes ringBase ringSize ++ s.sramBytes lwBase 0x800)

/-- An instruction reaches the JTAG instruction register: EXTEST, CLAMP and HIGHZ need the PINS right, else BYPASS is selected
(R465). -/
def State.tapUpdate (s : State) (i : TapIns) : State :=
  if 3 ≤ s.pwr.st then s
  else
    let pins := i == .extest || i == .clamp || i == .highz
    s.setSec { s.sec with tap := if pins && !(s.rightsNow.testBit 3) then .bypass else i }

end Sys2Proof.Machine
end

