-- ==== Sys2Proof/Machine/RegCmds.lean ====
section
/-! DEFINITION. Reads and writes of the register space, thread run control and control-store loads as commands (R6, R22, R25, R63, R93). -/

namespace Sys2Proof.Machine

/-- The agent may access the register at `off`: a thread only at the privileged level, while the engines run (R419); the debug port only where Ranger lets
its RD and WR through: with the REG right, outside Ember, and in Kindled to a block that keeps running (R27, R464, R474,
R475); another part only from position 0 with INCTRL.REG_FROM_BC = 1 (R370). -/
def State.mayReg (s : State) (ag : Agent) (off : Nat) : Bool :=
  match ag with
  | .thread p => decide (s.pwr.st < 2) && (s.thr p).priv
  | .debug => decide (s.pwr.st < 3) && s.rightsNow.testBit 1 && !(s.dbgOff (.reg off))
  | .remote n => decide (s.pwr.st < 2) && n == 0 && s.rbit Reg.CSC_INCTRL 1

/-- The access is an aligned 32-bit one by an agent that may make it (R3, R27). -/
def State.regOk (s : State) (ag : Agent) (off : W32) (w : Width) : Bool :=
  s.mayReg ag off.toNat && w == .b4 && off.toNat % 4 == 0

/-- An access of the debug port counts as a debug command served (R464). -/
def State.servedFor (s : State) (ag : Agent) : State :=
  match ag with
  | .debug => s.dbgServed
  | _ => s

/-- A read delivered to the agent. -/
def State.readTo (s : State) (ag : Agent) (off : W32) (inc : W32) : State :=
  let (v, s) := (s.servedFor ag).regRead ag off.toNat inc
  { s with rdata := v.setWidth 64 }

/-- REGISTER_WRITE (R6): A write to a register that has no row of its own stores, sets, clears or discards bits according to the field's access type. -/
def execRegisterWrite (ag : Agent) (off : W32) (w : Width) (v hwSet hwClr : W32) (s : State) : Out :=
  done (if s.regOk ag off w then (s.servedFor ag).regWrite ag off.toNat v hwSet hwClr else s)

/-- READ_CLEAR (R22): A read of an RC field returns its value and clears it to the reset value, without losing an increment that falls in the same cycle. -/
def execReadClear (ag : Agent) (off : W32) (w : Width) (inc : W32) (s : State) : Out :=
  done (if s.regOk ag off w then s.readTo ag off inc else { s with rdata := 0 })

/-- PAIR_LO_READ (R25): A read of a _LO register captures the pair's _HI into the reading thread's holding copy. -/
def execPairLoRead (ag : Agent) (off : W32) (s : State) : Out :=
  done (if s.regOk ag off .b4 && isPairLo off.toNat then s.readTo ag off 0 else s)

/-- PAIR_HI_READ (R25): A read of a _HI register returns and empties the captured copy, or the current value when the copy holds another pair. -/
def execPairHiRead (ag : Agent) (off : W32) (s : State) : Out :=
  done (if s.regOk ag off .b4 && isPairHi off.toNat then s.readTo ag off 0 else s)

/-- PAIR_LO_WRITE (R25): A write of a _LO register stores the value in the writing thread's pending place for that pair. -/
def execPairLoWrite (ag : Agent) (off v : W32) (s : State) : Out :=
  done (if s.regOk ag off .b4 && isPairLo off.toNat then (s.servedFor ag).regWrite ag off.toNat v 0 0 else s)

/-- PAIR_HI_WRITE (R25): A write of a _HI register makes the 64-bit value take effect, using the thread's pending _LO or else the stored _LO. -/
def execPairHiWrite (ag : Agent) (off v : W32) (s : State) : Out :=
  done (if s.regOk ag off .b4 && isPairHi off.toNat then (s.servedFor ag).regWrite ag off.toNat v 0 0 else s)

/-- THREAD_RUN_WRITE (R63): A write of SYS_CAMPn_RUN starts threads at SYS_THR_ENTRY or halts them at an instruction boundary. -/
def execThreadRunWrite (ag : Agent) (c : Camp) (v haltNow : W32) (s : State) : Out :=
  done (if s.mayReg ag (Reg.SYS_CAMP_RUN c) then (s.servedFor ag).runWrite c v haltNow else s)

/-- UCS_LOAD_START (R93): A write of START begins a control-store load, or refuses it with BUSY or BADREGION. -/
def execUcsLoadStart (ag : Agent) (v : W32) (startNow : Bool) (s : State) : Out :=
  done (if s.mayReg ag Reg.UCS_LOAD_CTRL then (s.servedFor ag).ucsCtrlWrite ag v startNow else s)

/-- UCS_LOAD_END (R93): A control-store load ends after checks and replica writes, and validates the new tables in one cycle. -/
def execUcsLoadEnd (rsa slh : Bool) (gen : BitVec 2) (s : State) : Out :=
  done (s.ucsEnd ⟨rsa, slh⟩ gen.toNat)

/-- TIMER_EXPIRY (R30): s.time reaches s.tmr and the TIMER pending bit sets. -/
def execTimerExpiry (p : Thr) (s : State) : Out :=
  done (s.timerExpiry p)

/-- BLOCK_EVENT_MESSAGE (R60): A block event going from not raised to raised sends one message under the routing byte. -/
def execBlockEventMessage (b : Block) (s : State) : Out :=
  done (s.eventMsg b)

/-- EVENT_MESSAGE_DELIVER (R62): A held event or work message is delivered once a named camp queue has room. -/
def execEventMessageDeliver (k : Nat) (s : State) : Out :=
  done (s.deliverHeld k)

end Sys2Proof.Machine
end

