-- ==== Sys2Proof/Machine/CscCmds.lean ====
section
/-! DEFINITION. Commands and events of the cascade (R350 to R378, R485). -/

namespace Sys2Proof.Machine

/-- SB_OFFER_EAST (R354): An east offer pulse arrives and an unnumbered Outpost takes the position or the Basecamp closes the ring. -/
def execSbOfferEast (us : Nat) (s : State) : Out :=
  done (match sbClass us with | some (.east v) => s.offerEast v | _ => s)

/-- SB_OFFER_WEST (R354): A west offer pulse arrives and is handled as an east offer with the offer decremented. -/
def execSbOfferWest (us : Nat) (s : State) : Out :=
  done (match sbClass us with | some (.west v) => s.offerWest v | _ => s)

/-- OFFER_FORWARD (R354): 20 µs after an offer ends the part sends the next offer. -/
def execOfferForward (s : State) : Out :=
  done s.offerForward

/-- SB_WAKE (R352): A WAKE pulse is received as a wake source. -/
def execSbWake (x : SbPulse) (s : State) : Out :=
  done (if sbClass x.us = some .wake then s.sbWakeIn x.z else s)

/-- WAKE_FORWARD (R352): An Outpost forwards a received WAKE on its opposite port 50 µs after it ends. -/
def execWakeForward (s : State) : Out :=
  done s.wakeForward

/-- SB_WAKE_SEND (R352): A write of CSC_SB.WAKE sends one WAKE on both ports. -/
def execSbWakeSend (ag : Agent) (v : W32) (s : State) : Out :=
  done (if s.mayReg ag Reg.CSC_SB then s.writeSb (v &&& 2) else s)

/-- SIDEBAND_RESET (R353): A sideband low of 2 ms or longer acts as a cascade FULL reset when enabled. -/
def execSidebandReset (x : SbPulse) (s : State) : Out :=
  done (if sbClass x.us = some .reset ∧ s.rbit Reg.CSC_CTRL 3 then s.resetRequest true 6 true else s)

/-- SIDEBAND_RESET_SEND (R378): A write of SB_E or SB_W drives a 2.5 ms sideband reset of the neighbour. -/
def execSidebandResetSend (ag : Agent) (v : W32) (s : State) : Out :=
  done (if s.mayReg ag Reg.CSC_SB then s.writeSb (v &&& 0xC) else s)

/-- ROLL_CALL (R354): A write of RC_GO on the Basecamp sends an east offer of position 1. -/
def execRollCall (ag : Agent) (v : W32) (s : State) : Out :=
  done (if s.mayReg ag Reg.CSC_SB then s.writeSb (v &&& 1) else s)

/-- ROLL_CALL_WEST (R354): 1 ms after RC_GO without closure the Basecamp sends a west offer. -/
def execRollCallWest (s : State) : Out :=
  done s.rollWest

/-- ROLL_CALL_END (R354): 2 ms after RC_GO roll-call ends and RC_DONE sets. -/
def execRollCallEnd (stale : BitVec 4) (s : State) : Out :=
  done (s.rollEnd stale)

/-- FLIT_LOCK (R357): A training port reaches flit lock and starts authentication. -/
def execFlitLock (z : ZPort) (s : State) : Out :=
  done (s.flitLock z)

/-- TRAINING_TIMEOUT (R357): A port not locked in 200 ms starts training again. -/
def execTrainingTimeout (z : ZPort) (s : State) : Out :=
  done (s.trainAgain z)

/-- AUTH_COMPLETE (R363): The KEY exchange ends and the port goes UP or REFUSED. -/
def execAuthComplete (z : ZPort) (a : AuthResult) (s : State) : Out :=
  done (s.authDone z a)

/-- FLIT_RECEIVE (R359): A flit is received, checked, acknowledged or discarded with a NAK. -/
def execFlitReceive (z : ZPort) (f : Flit) (chk : FlitCheck) (s : State) : Out :=
  done (s.flitIn z f chk)

/-- NAK_RECEIVED (R359): A NAK causes every unacknowledged flit to be resent. -/
def execNakReceived (z : ZPort) (ack : BitVec 10) (s : State) : Out :=
  done (s.nakIn z ack)

/-- REPLAY_TIMEOUT (R359): 2 µs without ACK progress causes a resend, and four fruitless resends retrain the port. -/
def execReplayTimeout (z : ZPort) (s : State) : Out :=
  done (s.replayTimeout z)

/-- PORT_DOWN (R361): No good codeword for 1 µs takes the port DOWN to retrain. -/
def execPortDown (z : ZPort) (s : State) : Out :=
  done (s.portLost z)

/-- PORT_DEGRADE (R362): A bad-flit window or a credit stall takes the port DEGRADED. -/
def execPortDegrade (z : ZPort) (stall : Bool) (s : State) : Out :=
  done (s.degrade z stall)

/-- REKEY (R365): After 2^32 sequenced flits a direction is rekeyed by KEY flits. -/
def execRekey (z : ZPort) (sending : Bool) (s : State) : Out :=
  done (s.rekey z sending)

/-- MWR (R370): A remote memory write request passes the inbound filter and writes, answered by CPL. -/
def execMwr (z : ZPort) (pk : Packet) (s : State) : Out :=
  done (s.packet z 1 pk fun s => s.mwrAct z pk)

/-- MRD (R370): A remote memory read request passes the inbound filter and is answered with data. -/
def execMrd (z : ZPort) (pk : Packet) (s : State) : Out :=
  done (s.packet z 2 pk fun s => s.mrdAct z pk)

/-- CPL (R368): A completion packet ends an outstanding request, or is discarded as unexpected. -/
def execCplPkt (z : ZPort) (pk : Packet) (s : State) : Out :=
  done (s.packet z 3 pk fun s => s.cplAct z pk)

/-- MSG (R371): A message packet becomes a work message to a camp. -/
def execMsgPkt (z : ZPort) (pk : Packet) (s : State) : Out :=
  done (s.packet z 4 pk fun s => s.msgAct z pk)

/-- DBELL (R371): A doorbell packet ORs its mask into CSC_DOORBELL. -/
def execDbell (z : ZPort) (pk : Packet) (s : State) : Out :=
  done (s.packet z 5 pk fun s => s.dbellAct z pk)

/-- RELAY (R485): A relay packet from a neighbour is written into the relay area. -/
def execRelayPkt (z : ZPort) (pk : Packet) (s : State) : Out :=
  done (s.packet z 6 pk fun s => s.relayAct z pk)

/-- RESET (R378): A reset packet from position 0 is answered and resets the part in CORE or FULL mode. -/
def execResetPkt (z : ZPort) (pk : Packet) (s : State) : Out :=
  done (s.packet z 7 pk fun s => s.resetAct z pk)

/-- PING (R375): A ping packet is answered by CPL. -/
def execPing (z : ZPort) (pk : Packet) (s : State) : Out :=
  done (s.packet z 8 pk fun s => s.answer z pk 0 [])

/-- LINKSTATE (R372): A link-state packet updates segment usability and is forwarded. -/
def execLinkstate (z : ZPort) (pk : Packet) (s : State) : Out :=
  done (s.packet z 9 pk fun s => s.linkstateAct z pk)

/-- CSC_REQUEST_TIMEOUT (R368): A cascade request without completion after CSC_TMO fails and its tag is quarantined. -/
def execCscRequestTimeout (tag : BitVec 10) (s : State) : Out :=
  done (s.cscTimeout tag.toNat)

/-- PING_TICK (R375): Every PING_MS the part pings its peers and updates ABSENT and PRESENT. -/
def execPingTick (stale : BitVec 4) (s : State) : Out :=
  done (if s.rbit Reg.CSC_CTRL 0 then s.pingAll.relayStale stale else s)

/-- CSC_MSG_SEND (R371): A write of CSC_MSGp_SEND sends an MSG or DBELL to a position. -/
def execCscMsgSend (ag : Agent) (n : Thr) (v : W32) (s : State) : Out :=
  done (if s.mayReg ag (Reg.CSC_MSG_SEND n) && agIs ag n then s.writeMsgSend n v else s)

/-- CASCADE_RESET_SEND (R378): A write of CSC_RESET sends RESET packets to the target positions. -/
def execCascadeResetSend (ag : Agent) (v : W32) (s : State) : Out :=
  done (if s.mayReg ag Reg.CSC_RESET then s.regWrite ag Reg.CSC_RESET v 0 0 else s)

/-- PORT_RETRY (R363): A write of RETRY makes a REFUSED port train again. -/
def execPortRetry (ag : Agent) (z : ZPort) (v : W32) (s : State) : Out :=
  done (if s.mayReg ag (Reg.CSC_PORT_CTRL z) then s.writeZCtrl z (v &&& 2) else s)

/-- PORT_RESTORE (R362): A write of RESTORE returns a DEGRADED port to UP. -/
def execPortRestore (ag : Agent) (z : ZPort) (v : W32) (s : State) : Out :=
  done (if s.mayReg ag (Reg.CSC_PORT_CTRL z) then s.writeZCtrl z (v &&& 1) else s)

/-- CSC_TAG_QUARANTINE_END (R368): A cascade request tag quarantined for twice CSC_TMO returns to the free tags. -/
def execCscTagQuarantineEnd (tag : BitVec 10) (s : State) : Out :=
  done (s.quarEnd tag.toNat)

end Sys2Proof.Machine
end

