-- ==== Sys2Proof/Machine/DbgCmds.lean ====
section
/-! DEFINITION. Debug frames and JTAG (R464, R465, R534). `ok` says that the frame and its CRC are good. -/

namespace Sys2Proof.Machine

/-- DBG_INFO (R464): Debug frame returning lifecycle, rights, serial and nonce. -/
def execDbgInfo (ok : Bool) (s : State) : Out :=
  done (s.dbgFrame ok none State.dbgInfo)

/-- DBG_TOKEN (R464): Debug frame presenting a token. -/
def execDbgToken (ok : Bool) (tok : List W8) (sg : Sigs) (s : State) : Out :=
  done (s.dbgFrame ok none fun s => s.dbgToken tok sg)

/-- DBG_RD (R464): Debug frame reading a 48-bit address with privilege. -/
def execDbgRd (ok : Bool) (a : BitVec 48) (w : Width) (s : State) : Out :=
  done (s.dbgFrame ok (some 1) fun s => s.dbgRead a (widthBytes w))

/-- DBG_WR (R464): Debug frame writing a 48-bit address with privilege. -/
def execDbgWr (ok : Bool) (a : BitVec 48) (w : Width) (v : W64) (s : State) : Out :=
  done (s.dbgFrame ok (some 1) fun s => s.dbgWrite a (widthBytes w) v)

/-- DBG_HALT (R465): Debug frame halting a thread at an instruction boundary. -/
def execDbgHalt (ok : Bool) (p : Thr) (s : State) : Out :=
  done (s.dbgFrame ok (some 2) fun s => s.dbgHalt p)

/-- DBG_RUN (R464): Debug frame resuming a debug-halted thread. -/
def execDbgRun (ok : Bool) (p : Thr) (s : State) : Out :=
  done (s.dbgFrame ok (some 2) fun s => s.dbgRun p)

/-- DBG_STEP (R464): Debug frame executing one instruction of a halted thread. -/
def execDbgStep (ok : Bool) (p : Thr) (s : State) : Out :=
  done (s.dbgFrame ok (some 2) fun s => s.dbgStep p)

/-- DBG_GETREG (R464): Debug frame reading registers of a halted thread. -/
def execDbgGetreg (ok : Bool) (p : Thr) (r : DbgReg) (s : State) : Out :=
  done (s.dbgFrame ok (some 2) fun s => s.dbgGet p r)

/-- DBG_SETREG (R464): Debug frame writing registers of a halted thread. -/
def execDbgSetreg (ok : Bool) (p : Thr) (r : DbgReg) (v : W64) (s : State) : Out :=
  done (s.dbgFrame ok (some 2) fun s => s.dbgSet p r v)

/-- DBG_LOG (R464): Debug frame reading the Trail Log and last-words log. -/
def execDbgLog (ok : Bool) (s : State) : Out :=
  done (s.dbgFrame ok (some 0) State.dbgLog)

/-- TAP_RESET (R534): TRST_N low resets the JTAG TAP. -/
def execTapReset (s : State) : Out :=
  done (s.setSec { s.sec with tap := .idcode })

/-- TAP_INSTRUCTION_UPDATE (R465): The JTAG instruction register is updated, selecting BYPASS, IDCODE, SAMPLE/PRELOAD, DAP, or EXTEST, CLAMP and HIGHZ, which need the PINS right. -/
def execTapInstructionUpdate (x : TapIns) (s : State) : Out :=
  done (s.tapUpdate x)

end Sys2Proof.Machine
end

