-- ==== Sys2Proof/Machine/DmaCmds.lean ====
section
/-! DEFINITION. Commands of the DMA engine (R404 to R415). -/

namespace Sys2Proof.Machine

/-- DMA_GO (R414): A write of GO starts the channel at HEAD. -/
def execDmaGo (c : DCh) (v : W32) (s : State) : Out :=
  done (s.dmaCtrlWrite c v false)

/-- DMA_KICK (R414): A write of KICK rereads NEXT of a parked descriptor or resumes after ERROR. -/
def execDmaKick (c : DCh) (v : W32) (s : State) : Out :=
  done (s.dmaCtrlWrite c v false)

/-- DMA_ABORT (R415): A write of ABORT stops the channel after its current beat. -/
def execDmaAbort (c : DCh) (v : W32) (atEnd : Bool) (s : State) : Out :=
  done (s.dmaCtrlWrite c v atEnd)

/-- DESCRIPTOR_FETCH (R404): The channel reads its next descriptor and accelerator block. -/
def execDescriptorFetch (c : DCh) (s : State) : Out :=
  done (s.descFetch c)

/-- DMA_BEAT (R410): The funnel moves one beat of a ready channel through the accelerators. -/
def execDmaBeat (c : DCh) (s : State) : Out :=
  done (s.dmaOffer c)

/-- INDEXED_REQUEST (R407): A media channel requests or delivers sector data of an index through an indexed port. -/
def execIndexedRequest (m : Act) (n : W16) (s : State) : Out :=
  done (s.mediaIndexed m n.toNat)

/-- DESCRIPTOR_END (R412): A descriptor ends, writes its digest and writeback, and signals DONE, ERR or a message. -/
def execDescriptorEnd (c : DCh) (s : State) : Out :=
  done (s.descEnd c)

/-- RDPTR_WRITE (R408): A write of RDPTR frees circular buffer space. -/
def execRdptrWrite (c : DCh) (v : W32) (s : State) : Out :=
  done (s.rdptrWritten c v)

end Sys2Proof.Machine
end

