-- ==== Sys2Proof/Machine/MemInstr.lean ====
section
/-! DEFINITION. The memory instructions of the engines: loads, stores, atomics, fences, cache maintenance (R33, R40 to R55). -/

namespace Sys2Proof.Machine

/-- A load instruction. -/
def State.loadInstr (s : State) (p op : Nat) (rd ra : R5) (imm : W16) (n : Nat) (signed : Bool) : State :=
  s.issue p (wordI op rd ra imm) (fun s => s.accessExc p (s.ea p ra imm) n) (fun s => s.loadAt p rd.toNat (s.ea p ra imm) n signed)

/-- A store instruction: the low `n` bytes of rd. -/
def State.storeInstr (s : State) (p op : Nat) (rd ra : R5) (imm : W16) (n : Nat) : State :=
  s.issue p (wordI op rd ra imm) (fun s => s.accessExc p (s.ea p ra imm) n)
    (fun s => (s.storeAt p (s.ea p ra imm) (leBytes n ((s.thr p).getG rd.toNat).toNat)).adv p)

/-- An atomic instruction by its fn field (R49). -/
def State.amoInstr (s : State) (p : Nat) (rd ra rb : R5) (fn : Nat) : State :=
  let k := fn % 16
  let w32 := fn / 16 % 2 == 1
  let n := if w32 then 4 else 8
  s.issue p (wordA 0x1C rd ra rb fn)
    (fun s => firstExc [excIf (decide (fn / 32 ≠ 0) || decide (9 < k)) (excIllegal (wordA 0x1C rd ra rb fn)),
      s.amoExc p ((s.thr p).getG ra.toNat) n])
    (fun s => s.amoAt p rd.toNat ((s.thr p).getG ra.toNat) k w32 ((s.thr p).getG rb.toNat))

/-- A fence of function code `code` (R52): with `waits` it holds the thread while a cascade store is unacknowledged or
cache maintenance is held, with `io` while cache maintenance is held. Loads and register accesses are performed when their
instruction is. -/
def State.fenceInstr (s : State) (p : Nat) (rd ra rb : R5) (code : Nat) (hi : BitVec 8) (waits io : Bool) : State :=
  let w := wordA 0x1D rd ra rb (hi.toNat * 8 + code)
  s.issue p w (fun _ => excIf (decide (hi ≠ 0)) (excIllegal w))
    (fun s => if waits && s.fenceHeld p io then s.setThr p { s.thr p with wait := .fence true io } else s.adv p)

/-- A CACHE instruction of function code `code`, with the exceptions that `pre` adds and the effect `eff` at address ra.
At the task level only INVAL is refused: the others are no access in the sense of R64, and their address is not checked
(DESIGN CHOICE, log entry 87). -/
def State.cacheInstr (s : State) (p : Nat) (rd ra rb : R5) (code : Nat) (hi : BitVec 8) (pre : State → W64 → Option Exc)
    (eff : State → W64 → State) : State :=
  s.issue p (wordA 0x1E rd ra rb (hi.toNat * 8 + code)) (fun s => firstExc [excIf (decide (hi ≠ 0)) (excIllegal (wordA 0x1E rd ra rb (hi.toNat * 8 + code))),
      pre s ((s.thr p).getG ra.toNat)])
    (fun s => (eff s ((s.thr p).getG ra.toNat)).adv p)

end Sys2Proof.Machine
end

