-- ==== Sys2Proof/Machine/EngineCmds.lean ====
section
/-! DEFINITION. The engine instructions beside the ALU ones: loads and stores, atomics, fences, cache maintenance, branches, special registers, system operations and custom opcodes (R33, R39 to R69, R82). -/

namespace Sys2Proof.Machine

/-- LD8U (R33): Loads a byte, zero-extended. -/
def execLd8u (p : Thr) (rd ra : R5) (imm : W16) (s : State) : Out :=
  done (s.loadInstr p 0x10 rd ra imm 1 false)

/-- LD16U (R33): Loads 16 bits, zero-extended. -/
def execLd16u (p : Thr) (rd ra : R5) (imm : W16) (s : State) : Out :=
  done (s.loadInstr p 0x11 rd ra imm 2 false)

/-- LD32U (R33): Loads 32 bits, zero-extended. -/
def execLd32u (p : Thr) (rd ra : R5) (imm : W16) (s : State) : Out :=
  done (s.loadInstr p 0x12 rd ra imm 4 false)

/-- LD64 (R33): Loads 64 bits. -/
def execLd64 (p : Thr) (rd ra : R5) (imm : W16) (upset : BitVec 80) (s : State) : Out :=
  done (s.issue p (wordI 0x13 rd ra imm) (fun s => s.accessExc p (s.ea p ra imm) 8)
    (fun s => (s.upsetAt (s.ea p ra imm) upset).loadAt p rd.toNat (s.ea p ra imm) 8 false))

/-- LD8S (R33): Loads a byte, sign-extended. -/
def execLd8s (p : Thr) (rd ra : R5) (imm : W16) (s : State) : Out :=
  done (s.loadInstr p 0x14 rd ra imm 1 true)

/-- LD16S (R33): Loads 16 bits, sign-extended. -/
def execLd16s (p : Thr) (rd ra : R5) (imm : W16) (s : State) : Out :=
  done (s.loadInstr p 0x15 rd ra imm 2 true)

/-- LD32S (R33): Loads 32 bits, sign-extended. -/
def execLd32s (p : Thr) (rd ra : R5) (imm : W16) (s : State) : Out :=
  done (s.loadInstr p 0x16 rd ra imm 4 true)

/-- ST8 (R33): Stores the low byte of rd. -/
def execSt8 (p : Thr) (rd ra : R5) (imm : W16) (s : State) : Out :=
  done (s.storeInstr p 0x18 rd ra imm 1)

/-- ST16 (R33): Stores the low 16 bits of rd. -/
def execSt16 (p : Thr) (rd ra : R5) (imm : W16) (s : State) : Out :=
  done (s.storeInstr p 0x19 rd ra imm 2)

/-- ST32 (R33): Stores the low 32 bits of rd. -/
def execSt32 (p : Thr) (rd ra : R5) (imm : W16) (s : State) : Out :=
  done (s.storeInstr p 0x1A rd ra imm 4)

/-- ST64 (R33): Stores rd. -/
def execSt64 (p : Thr) (rd ra : R5) (imm : W16) (s : State) : Out :=
  done (s.storeInstr p 0x1B rd ra imm 8)

/-- AMO (R49): Atomically reads a memory word, returns it and writes the result of the fn operation. -/
def execAmo (p : Thr) (rd ra rb : R5) (fn : F11) (s : State) : Out :=
  done (s.amoInstr p rd ra rb fn.toNat)

/-- CAS (R50): Atomically compares memory with rd and writes rb when they are equal, returning the old value. -/
def execCas (p : Thr) (rd ra rb : R5) (w32 : Bool) (hi : BitVec 6) (s : State) : Out :=
  done (s.amoInstr p rd ra rb (hi.toNat * 32 + b2n w32 * 16 + 9))

/-- FENCE (R52): Holds the thread until every earlier access has been performed. -/
def execFence (p : Thr) (rd ra rb : R5) (hi : BitVec 8) (s : State) : Out :=
  done (s.fenceInstr p rd ra rb 0 hi true false)

/-- FENCE_LD (R52): Holds the thread until every earlier load has been performed. -/
def execFenceLd (p : Thr) (rd ra rb : R5) (hi : BitVec 8) (s : State) : Out :=
  done (s.fenceInstr p rd ra rb 1 hi false false)

/-- FENCE_ST (R52): Holds the thread until every earlier store and cache maintenance operation is visible or acknowledged. -/
def execFenceSt (p : Thr) (rd ra rb : R5) (hi : BitVec 8) (s : State) : Out :=
  done (s.fenceInstr p rd ra rb 2 hi true false)

/-- FENCE_IO (R52): Orders DRAM and SRAM stores against register accesses. -/
def execFenceIo (p : Thr) (rd ra rb : R5) (hi : BitVec 8) (s : State) : Out :=
  done (s.fenceInstr p rd ra rb 3 hi true true)

/-- ISYNC (R52): Completes earlier instructions and refetches the instructions that follow. -/
def execIsync (p : Thr) (rd ra rb : R5) (hi : BitVec 8) (s : State) : Out :=
  done (s.fenceInstr p rd ra rb 4 hi true false)

/-- CLEAN (R53): Writes a dirty shared-cache line to DRAM and keeps it valid. -/
def execClean (p : Thr) (rd ra rb : R5) (hi : BitVec 8) (s : State) : Out :=
  done (s.cacheInstr p rd ra rb 0 hi (fun _ a => wideExc a) (fun s a => s.maintAt p .clean a))

/-- FLUSH (R53): Cleans a shared-cache line and then invalidates it. -/
def execFlush (p : Thr) (rd ra rb : R5) (hi : BitVec 8) (s : State) : Out :=
  done (s.cacheInstr p rd ra rb 1 hi (fun _ a => wideExc a) (fun s a => s.maintAt p .flush a))

/-- INVAL (R53): Invalidates a shared-cache line and discards its dirty data. -/
def execInval (p : Thr) (rd ra rb : R5) (hi : BitVec 8) (s : State) : Out :=
  done (s.cacheInstr p rd ra rb 2 hi (fun s a => firstExc [s.needPriv p, wideExc a])
    (fun s a => s.maintAt p .inval a))

/-- ZERO (R53): Makes a shared-cache line valid and dirty with zeros, without reading DRAM. -/
def execZero (p : Thr) (rd ra rb : R5) (hi : BitVec 8) (s : State) : Out :=
  done (s.cacheInstr p rd ra rb 3 hi
    (fun s a => firstExc [wideExc a, excIf (s.dramLine a).isNone (excAccess a)]) (fun s a => s.maintAt p .zero a))

/-- PREFETCH (R53): Starts a fill of an absent line and never raises an exception. -/
def execPrefetch (p : Thr) (rd ra rb : R5) (hi : BitVec 8) (s : State) : Out :=
  done (s.cacheInstr p rd ra rb 4 hi (fun _ _ => none) (fun s a => s.prefetchAt a))

/-- ICINV (R53): Invalidates one line of the engine's instruction cache. -/
def execIcinv (p : Thr) (rd ra rb : R5) (hi : BitVec 8) (s : State) : Out :=
  done (s.cacheInstr p rd ra rb 5 hi (fun _ a => wideExc a) (fun s a => s.icInv p a))

/-- ICINVALL (R53): Invalidates the engine's whole instruction cache. -/
def execIcinvall (p : Thr) (rd ra rb : R5) (hi : BitVec 8) (s : State) : Out :=
  done (s.cacheInstr p rd ra rb 6 hi (fun _ _ => none) (fun s _ => s.icInvAll p))

/-- BR (R39): Branches PC-relative when its condition holds. -/
def execBr (p : Thr) (pr : BitVec 3) (cond : BitVec 2) (off : BitVec 21) (s : State) : Out :=
  done (s.branchInstr p 0x30 pr cond off false)

/-- CALL (R29, R39): Branches conditionally and writes the return address to g31 when taken. -/
def execCall (p : Thr) (pr : BitVec 3) (cond : BitVec 2) (off : BitVec 21) (s : State) : Out :=
  done (s.branchInstr p 0x31 pr cond off true)

/-- JR (R33): Jumps to ra and writes the return address to rd. -/
def execJr (p : Thr) (rd ra rb : R5) (fn : F11) (s : State) : Out :=
  done (s.jrInstr p rd ra rb fn)

/-- MFS (R30): Reads a special register by index. -/
def execMfs (p : Thr) (rd ra : R5) (imm : W16) (s : State) : Out :=
  done (s.mfsInstr p rd ra imm)

/-- MTS (R30): Writes a special register by index. -/
def execMts (p : Thr) (rd ra : R5) (imm : W16) (s : State) : Out :=
  done (s.mtsInstr p rd ra imm)

/-- TRAP (R65): Raises the trap exception with a code. -/
def execTrap (p : Thr) (rd ra : R5) (imm : W16) (s : State) : Out :=
  done (s.trapInstr p rd ra imm)

/-- ERET (R68): Copies s.estat to s.status and continues at s.epc. -/
def execEret (p : Thr) (rd ra rb : R5) (hi : BitVec 3) (s : State) : Out :=
  done (s.eret p rd ra rb hi)

/-- WAIT (R59): Sleeps until a selected pending bit is set, or returns at once when one already is. -/
def execWaitT (p : Thr) (rd ra rb : R5) (hi : BitVec 3) (s : State) : Out :=
  done (s.waitInstr p rd ra rb hi)

/-- MBSEND (R57): Sends a two-word message to an inbox or camp queue and returns a status. -/
def execMbsend (p : Thr) (rd ra rb : R5) (hi : BitVec 3) (s : State) : Out :=
  done (s.mbsend p rd ra rb hi)

/-- MBRECV (R58): Takes one message from the thread's inbox or its camp queue into a register pair. -/
def execMbrecv (p : Thr) (rd ra rb : R5) (hi : BitVec 3) (s : State) : Out :=
  done (s.mbrecv p rd ra rb hi)

/-- YIELD (R56): The thread issues nothing for the next 4 cycles. -/
def execYieldT (p : Thr) (rd ra rb : R5) (hi : BitVec 3) (s : State) : Out :=
  done (s.yieldInstr p rd ra rb hi)

/-- HALT (R63): Halts the thread and clears its run bit. -/
def execHalt (p : Thr) (rd ra rb : R5) (hi : BitVec 3) (s : State) : Out :=
  done (s.haltInstr p rd ra rb hi)

/-- BKPT (R56): Raises the breakpoint exception. -/
def execBkpt (p : Thr) (rd ra rb : R5) (hi : BitVec 3) (s : State) : Out :=
  done (s.bkptInstr p rd ra rb hi)

/-- CUST (R82): Dispatches a custom opcode to its customer microcode entry, or raises an exception. -/
def execCust (p : Thr) (rd ra rb : R5) (cx : BitVec 4) (fn : BitVec 7) (upsets : List UcsUpset) (s : State) : Out :=
  done (s.custInstr p rd ra rb cx fn upsets)

/-- WAIT_WAKE (R59): A waiting thread wakes when its condition becomes true. -/
def execWaitWake (p : Thr) (s : State) : Out :=
  done (s.waitWake p)

/-! ### The next instruction at an interrupt (R67) -/

/-- An engine instruction runs; another command does nothing. -/
def runInstr (i : Instr) (s : State) : Out :=
  match i with
  | .alu p rd ra rb fn => execAlu p rd ra rb fn s
  | .cmp p rd ra rb fn => execCmp p rd ra rb fn s
  | .pred p rd ra rb fn => execPred p rd ra rb fn s
  | .addi p rd ra imm => execAddi p rd ra imm s
  | .andi p rd ra imm => execAndi p rd ra imm s
  | .ori p rd ra imm => execOri p rd ra imm s
  | .xori p rd ra imm => execXori p rd ra imm s
  | .shli p rd ra imm => execShli p rd ra imm s
  | .shri p rd ra imm => execShri p rd ra imm s
  | .sari p rd ra imm => execSari p rd ra imm s
  | .ori16 p rd ra imm => execOri16 p rd ra imm s
  | .ori32 p rd ra imm => execOri32 p rd ra imm s
  | .ori48 p rd ra imm => execOri48 p rd ra imm s
  | .cmpi p rd ra imm => execCmpi p rd ra imm s
  | .extu p rd ra imm => execExtu p rd ra imm s
  | .exts p rd ra imm => execExts p rd ra imm s
  | .ins p rd ra imm => execIns p rd ra imm s
  | .ld8u p rd ra imm => execLd8u p rd ra imm s
  | .ld16u p rd ra imm => execLd16u p rd ra imm s
  | .ld32u p rd ra imm => execLd32u p rd ra imm s
  | .ld64 p rd ra imm upset => execLd64 p rd ra imm upset s
  | .ld8s p rd ra imm => execLd8s p rd ra imm s
  | .ld16s p rd ra imm => execLd16s p rd ra imm s
  | .ld32s p rd ra imm => execLd32s p rd ra imm s
  | .st8 p rd ra imm => execSt8 p rd ra imm s
  | .st16 p rd ra imm => execSt16 p rd ra imm s
  | .st32 p rd ra imm => execSt32 p rd ra imm s
  | .st64 p rd ra imm => execSt64 p rd ra imm s
  | .amo p rd ra rb fn => execAmo p rd ra rb fn s
  | .cas p rd ra rb w32 hi => execCas p rd ra rb w32 hi s
  | .fence p rd ra rb hi => execFence p rd ra rb hi s
  | .fenceLd p rd ra rb hi => execFenceLd p rd ra rb hi s
  | .fenceSt p rd ra rb hi => execFenceSt p rd ra rb hi s
  | .fenceIo p rd ra rb hi => execFenceIo p rd ra rb hi s
  | .isync p rd ra rb hi => execIsync p rd ra rb hi s
  | .clean p rd ra rb hi => execClean p rd ra rb hi s
  | .flush p rd ra rb hi => execFlush p rd ra rb hi s
  | .inval p rd ra rb hi => execInval p rd ra rb hi s
  | .zero p rd ra rb hi => execZero p rd ra rb hi s
  | .prefetch p rd ra rb hi => execPrefetch p rd ra rb hi s
  | .icinv p rd ra rb hi => execIcinv p rd ra rb hi s
  | .icinvall p rd ra rb hi => execIcinvall p rd ra rb hi s
  | .br p pr cond off => execBr p pr cond off s
  | .call p pr cond off => execCall p pr cond off s
  | .jr p rd ra rb fn => execJr p rd ra rb fn s
  | .mfs p rd ra imm => execMfs p rd ra imm s
  | .mts p rd ra imm => execMts p rd ra imm s
  | .trap p rd ra imm => execTrap p rd ra imm s
  | .eret p rd ra rb hi => execEret p rd ra rb hi s
  | .waitT p rd ra rb hi => execWaitT p rd ra rb hi s
  | .mbsend p rd ra rb hi => execMbsend p rd ra rb hi s
  | .mbrecv p rd ra rb hi => execMbrecv p rd ra rb hi s
  | .yieldT p rd ra rb hi => execYieldT p rd ra rb hi s
  | .halt p rd ra rb hi => execHalt p rd ra rb hi s
  | .bkpt p rd ra rb hi => execBkpt p rd ra rb hi s
  | .cust p rd ra rb cx fn upsets => execCust p rd ra rb cx fn upsets s
  | _ => done s

/-- An enabled pending interrupt is taken during WAIT, or before the thread's next instruction: exceptions of that instruction
that are known before it is performed come first (R59, R67). -/
def State.interrupt (s : State) (p : Thr) : Out :=
  if !(s.canRun p) then done (s.waitIrq p)
  else if !(s.irqNow p) then done s
  else
    let t := s.stepTaken p
    match t.fetchExc (t.thr p).pc with
    | some e => done (t.raise p e)
    | none =>
      match t.fetch p (t.thr p).pc with
      | (none, _) => done (t.takeIrq p)
      | (some w, f) =>
        match decodeWord p w with
        | some i => runInstr i s
        | none => done (f.raise p (excIllegal w))

/-- INTERRUPT (R67): An enabled pending interrupt is taken between instructions. -/
def execInterrupt (p : Thr) (s : State) : Out := s.interrupt p

end Sys2Proof.Machine
end

