-- ==== Sys2Proof/Machine/FwCmds.lean ====
section
/-! DEFINITION. Commands of firmware update (R457, R482 to R493) and Get Log Page (R288). -/

namespace Sys2Proof.Machine

/-- GET_LOG_PAGE (R288): Admin Get Log Page returns a supported log page. -/
def execGetLogPage (t : Tag) (x : CmdIn) (s : State) : Out :=
  done (s.svcGetLog t.toNat x)

/-- FIRMWARE_IMAGE_DOWNLOAD (R483): Stores one 64 KiB-aligned piece of a firmware bundle. -/
def execFirmwareImageDownload (t : Tag) (x : CmdIn) (s : State) : Out :=
  done (s.svcDownload t.toNat x)

/-- FW_COMMIT_CA0 (R484): Firmware Commit CA 0 verifies, relays and writes the image to a slot without activating it. -/
def execFwCommitCa0 (t : Tag) (x : CommitIn) (s : State) : Out :=
  done (s.commitImage t.toNat 0 x)

/-- FW_COMMIT_CA1 (R484): Firmware Commit CA 1 writes the image and activates it at the next reset. -/
def execFwCommitCa1 (t : Tag) (x : CommitIn) (s : State) : Out :=
  done (s.commitImage t.toNat 1 x)

/-- FW_COMMIT_CA2 (R484): Firmware Commit CA 2 changes only the boot records to activate a slot at the next reset. -/
def execFwCommitCa2 (t : Tag) (s : State) : Out :=
  done (s.commitSwitch t.toNat)

/-- FW_COMMIT_CA3 (R489): Firmware Commit CA 3 writes the image and hands over at once when the conditions hold. -/
def execFwCommitCa3 (t : Tag) (x : CommitIn) (s : State) : Out :=
  done (s.commitImage t.toNat 3 x)

/-- RELAY_UNIT_CHECK (R486): The unit-naming MSG makes the receiver check the unit and answer ACK or NAK. -/
def execRelayUnitCheck (src : Fin 4) (u : Fin 257) (sg : Sigs) (order : Option (Fin 4 × Fin 4)) (s : State) : Out :=
  done (s.relayCheck src.val u.val sg order)

/-- RELAY_ACK (R486): An ACK or NAK lets the sender continue, resend, or fail the relay. -/
def execRelayAck (n : Fin 4) (ack written : Bool) (s : State) : Out :=
  done (s.relayAck n.val ack written)

/-- BOOT_RELAY_REQUEST (R457): An Outpost booting by relay asks position 0 for an image every 100 ms. -/
def execBootRelayRequest (s : State) : Out :=
  done s.bootRelayRequest

/-- BOOT_RELAY_TIMEOUT (R457): No RELAY within 10 s of roll-call turns BOOT_LOAD to the debug UART. -/
def execBootRelayTimeout (s : State) : Out :=
  done s.bootRelayTimeout

/-- HANDOVER_ACTIVATE (R490): An ACTIVATE message makes each part's threads save state and halt for handover. -/
def execHandoverActivate (p : Thr) (at_ : W64) (record : List W8) (s : State) : Out :=
  done (s.handoverActivate p.val at_ record)

/-- HANDOVER_READY (R490): A READY message from an Outpost counts toward re-enabling fetch. -/
def execHandoverReady (n : Fin 4) (s : State) : Out :=
  done (s.handoverReady n.val)

/-- HANDOVER_TIMEOUT (R490): 2.5 ms after step 1 the Basecamp re-enables fetching and posts the Commit completion. -/
def execHandoverTimeout (s : State) : Out :=
  done s.handoverEnd

/-- BOOT_CONFIRM (R492): The new image writes its boot record with STATE 0. -/
def execBootConfirm (s : State) : Out :=
  done s.bootConfirm

end Sys2Proof.Machine
end

