-- ==== Sys2Proof/WellFormed.lean ====
section
/-! DEFINITION. When a command's operands are well-formed: lists that stand for something of a fixed length have it. Every
other operand is well-formed by its type. -/

namespace Sys2Proof

/-- A head signal over the 36,808 bit cells of a sector (R146). -/
def signalWf (x : List Int) : Bool := x.length == 36808
/-- A head signal for each leading reader (R122). -/
def captureWf (x : Capture) : Bool := signalWf x.l && signalWf x.c && signalWf x.u

/-- Places along a sector stand in rising order (R148). -/
def risingWf : List Nat → Bool
  | a :: b :: t => decide (a < b) && risingWf (b :: t)
  | _ => true

/-- A comparator's edges of a 20 ms window, in the order in which they come (R228). -/
def edgesWf : Edges → Bool
  | a :: b :: t => decide (a.1 ≤ b.1) && edgesWf (b :: t)
  | [a] => decide (a.1 ≤ 20000000)
  | [] => true

/-- The operands of a command are well-formed. -/
def Instr.wf (i : Instr) : Bool :=
  match i with
  | .registerWrite _ _ _ _ _ _ => true
  | .readClear _ _ _ _ => true
  | .pairLoRead _ _ => true
  | .pairHiRead _ _ => true
  | .pairLoWrite _ _ _ => true
  | .pairHiWrite _ _ _ => true
  | .alu _ _ _ _ _ => true
  | .cmp _ _ _ _ _ => true
  | .pred _ _ _ _ _ => true
  | .addi _ _ _ _ => true
  | .andi _ _ _ _ => true
  | .ori _ _ _ _ => true
  | .xori _ _ _ _ => true
  | .shli _ _ _ _ => true
  | .shri _ _ _ _ => true
  | .sari _ _ _ _ => true
  | .ori16 _ _ _ _ => true
  | .ori32 _ _ _ _ => true
  | .ori48 _ _ _ _ => true
  | .cmpi _ _ _ _ => true
  | .extu _ _ _ _ => true
  | .exts _ _ _ _ => true
  | .ins _ _ _ _ => true
  | .ld8u _ _ _ _ => true
  | .ld16u _ _ _ _ => true
  | .ld32u _ _ _ _ => true
  | .ld64 _ _ _ _ _ => true
  | .ld8s _ _ _ _ => true
  | .ld16s _ _ _ _ => true
  | .ld32s _ _ _ _ => true
  | .st8 _ _ _ _ => true
  | .st16 _ _ _ _ => true
  | .st32 _ _ _ _ => true
  | .st64 _ _ _ _ => true
  | .amo _ _ _ _ _ => true
  | .cas _ _ _ _ _ _ => true
  | .fence _ _ _ _ _ => true
  | .fenceLd _ _ _ _ _ => true
  | .fenceSt _ _ _ _ _ => true
  | .fenceIo _ _ _ _ _ => true
  | .isync _ _ _ _ _ => true
  | .clean _ _ _ _ _ => true
  | .flush _ _ _ _ _ => true
  | .inval _ _ _ _ _ => true
  | .zero _ _ _ _ _ => true
  | .prefetch _ _ _ _ _ => true
  | .icinv _ _ _ _ _ => true
  | .icinvall _ _ _ _ _ => true
  | .br _ _ _ _ => true
  | .call _ _ _ _ => true
  | .jr _ _ _ _ _ => true
  | .mfs _ _ _ _ => true
  | .mts _ _ _ _ => true
  | .trap _ _ _ _ => true
  | .eret _ _ _ _ _ => true
  | .waitT _ _ _ _ _ => true
  | .mbsend _ _ _ _ _ => true
  | .mbrecv _ _ _ _ _ => true
  | .yieldT _ _ _ _ _ => true
  | .halt _ _ _ _ _ => true
  | .bkpt _ _ _ _ _ => true
  | .cust _ _ _ _ _ _ _ => true
  | .interrupt _ => true
  | .timerExpiry _ => true
  | .waitWake _ => true
  | .blockEventMessage _ => true
  | .eventMessageDeliver _ => true
  | .threadRunWrite _ _ _ _ => true
  | .ucsLoadStart _ _ _ => true
  | .ucsLoadEnd _ _ _ => true
  | .zoneCommit _ => true
  | .zoneLoadDone _ => true
  | .readGo _ _ => true
  | .readRunStart _ => true
  | .readAbort _ _ _ => true
  | .sectorCapture _ cap => captureWf cap
  | .otfDecodeStart _ => true
  | .otfDecodeEnd _ _ => true
  | .retryEntryEnd _ _ => true
  | .rereadRevolution _ cap => captureWf cap
  | .sectorRecordDeliver _ => true
  | .retUnpin _ _ => true
  | .writeGo _ _ => true
  | .writeRunStart _ => true
  | .slotWrite x => risingWf x.gates
  | .writeUnderrun _ => true
  | .verifyResult _ v => signalWf v
  | .rewriteRevolution x => x.gates.all risingWf
  | .cairnWrite x => risingWf x.gates
  | .writeAbort _ _ _ => true
  | .writeRecordDeliver _ => true
  | .psiFrame _ _ => true
  | .psiFrameSent _ _ => true
  | .servoWedge _ _ => true
  | .missedWedge _ => true
  | .sampleInstant _ _ => true
  | .ctx5TimerTick => true
  | .contextRun _ _ => true
  | .lawNop _ => true
  | .lawAdd _ _ _ _ => true
  | .lawSub _ _ _ _ => true
  | .lawMul _ _ _ _ => true
  | .lawMac _ _ _ _ => true
  | .lawMsc _ _ _ _ => true
  | .lawMin _ _ _ _ => true
  | .lawMax _ _ _ _ => true
  | .lawClamp _ _ _ _ => true
  | .lawAbs _ _ _ => true
  | .lawNeg _ _ _ => true
  | .lawMov _ _ _ => true
  | .lawRcp _ _ _ => true
  | .lawRsq _ _ _ => true
  | .lawSlt _ _ _ => true
  | .lawSge _ _ _ => true
  | .lawCmov _ _ _ => true
  | .lawPreset _ _ _ => true
  | .lawOut _ => true
  | .lawEnd _ => true
  | .outputInstant _ _ => true
  | .adiFrame _ => true
  | .adiReturnFrame _ _ => true
  | .adiConfig _ _ => true
  | .stateWrite _ _ _ => true
  | .seekGo _ _ => true
  | .ctxCommit _ => true
  | .ctxEnable _ _ => true
  | .load _ _ => true
  | .loadTimerTick _ => true
  | .loadTimeout _ => true
  | .unload _ _ => true
  | .unloadTimeout _ => true
  | .retract _ _ => true
  | .retractStatusTick _ => true
  | .retractTimeout _ => true
  | .pwmPeriod x => x.c1.length == 4 && x.c2.length == 4
  | .spnDisable _ => true
  | .spnReqWrite _ => true
  | .ocCut _ => true
  | .extFault => true
  | .catchEnd u v w => edgesWf u && (edgesWf v && edgesWf w)
  | .zvbrakeSliceEnd => true
  | .zvbrakeObserveEnd u v w => edgesWf u && (edgesWf v && edgesWf w)
  | .alignEnd => true
  | .startTimeout => true
  | .vmSample _ _ => true
  | .chopClr _ _ => true
  | .undervoltageTrigger => true
  | .powerFail => true
  | .gosPut _ _ => true
  | .gosGet _ _ => true
  | .gosDelete _ _ => true
  | .stat _ _ => true
  | .gosList _ _ => true
  | .retain _ _ => true
  | .versions _ _ => true
  | .fixity _ _ => true
  | .exportOpen _ _ => true
  | .exportRead _ _ => true
  | .exportClose _ _ => true
  | .exportTimeout => true
  | .cairnWalk _ _ => true
  | .nsCreate _ _ => true
  | .nsDelete _ _ => true
  | .nsQuery _ _ => true
  | .nsSet _ _ => true
  | .store _ _ => true
  | .retrieve _ _ => true
  | .kvDelete _ _ => true
  | .exist _ _ => true
  | .kvList _ _ => true
  | .chunkCommit _ _ _ _ => true
  | .commitTimeout _ _ _ _ _ => true
  | .getSlowShard _ _ _ => true
  | .sessionTimeout _ => true
  | .indexCheckpoint _ => true
  | .idxSearch _ _ => true
  | .idxSearchDone _ => true
  | .rclockWrite _ _ => true
  | .rclockTick => true
  | .sqDoorbell _ _ _ => true
  | .cqHeadDoorbell _ _ _ => true
  | .commandFetch _ => true
  | .fastWrite _ => true
  | .fastWriteBucket _ _ => true
  | .fastRead _ => true
  | .completionPost _ _ _ => true
  | .chargeAdjust _ _ _ => true
  | .gsPrep _ => true
  | .gsPrepDone _ _ _ _ _ => true
  | .swDump _ => true
  | .dumpEnd _ => true
  | .dumpAbandon => true
  | .gsRestore _ => true
  | .gsRestoreDone _ => true
  | .nvmWrite _ _ => true
  | .nvmRead _ _ => true
  | .nvmFlush _ _ => true
  | .nvmCompare _ _ => true
  | .writeZeroes _ _ => true
  | .datasetManagement _ _ => true
  | .nvmVerify _ _ => true
  | .identify _ _ => true
  | .getFeatures _ _ => true
  | .setFeatures _ _ => true
  | .getLogPage _ _ => true
  | .createIoSq _ => true
  | .createIoCq _ => true
  | .deleteIoSq _ => true
  | .deleteIoCq _ => true
  | .nvmAbort _ => true
  | .asynchronousEventRequest _ => true
  | .firmwareImageDownload _ _ => true
  | .fwCommitCa0 _ _ => true
  | .fwCommitCa1 _ _ => true
  | .fwCommitCa2 _ => true
  | .fwCommitCa3 _ _ => true
  | .formatNvm _ _ _ => true
  | .sanitizeCryptoErase _ _ _ => true
  | .sanitizeOverwrite _ _ _ => true
  | .sanitizeBlockErase _ => true
  | .perstAssert _ => true
  | .perstRelease _ => true
  | .cfgReadyTimeout _ => true
  | .hotReset _ => true
  | .flr _ => true
  | .controllerReset _ => true
  | .configRead _ _ => true
  | .configWrite _ _ _ _ => true
  | .barRead _ _ _ _ => true
  | .barWrite _ _ _ _ => true
  | .peerWindowRead _ _ _ => true
  | .peerWindowWrite _ _ _ _ => true
  | .pwCommit _ => true
  | .completionReceived _ _ _ _ _ => true
  | .completionTimeout _ _ => true
  | .tagQuarantineEnd _ _ => true
  | .linkUp _ _ _ _ _ => true
  | .linkDown _ => true
  | .creditStall _ => true
  | .doeRequest _ _ => true
  | .doeAbort _ => true
  | .ltrWrite _ _ => true
  | .sbOfferEast _ => true
  | .sbOfferWest _ => true
  | .offerForward => true
  | .sbWake _ => true
  | .wakeForward => true
  | .sbWakeSend _ _ => true
  | .sidebandReset _ => true
  | .sidebandResetSend _ _ => true
  | .rollCall _ _ => true
  | .rollCallWest => true
  | .rollCallEnd _ => true
  | .flitLock _ => true
  | .trainingTimeout _ => true
  | .authComplete _ _ => true
  | .flitReceive _ _ _ => true
  | .nakReceived _ _ => true
  | .replayTimeout _ => true
  | .portDown _ => true
  | .portDegrade _ _ => true
  | .rekey _ _ => true
  | .mwr _ _ => true
  | .mrd _ _ => true
  | .cplPkt _ _ => true
  | .msgPkt _ _ => true
  | .dbell _ _ => true
  | .relayPkt _ _ => true
  | .resetPkt _ _ => true
  | .ping _ _ => true
  | .linkstate _ _ => true
  | .cscRequestTimeout _ => true
  | .pingTick _ => true
  | .cscMsgSend _ _ _ => true
  | .cascadeResetSend _ _ => true
  | .portRetry _ _ _ => true
  | .portRestore _ _ _ => true
  | .dramInit _ => true
  | .dramInitDone _ => true
  | .cacheFillDone _ => true
  | .writebackDrain => true
  | .wayPowerDown _ => true
  | .wayPairDone => true
  | .wayPowerUp _ => true
  | .sweepStep _ _ _ _ _ => true
  | .refreshRateChange _ => true
  | .dmaGo _ _ => true
  | .dmaKick _ _ => true
  | .dmaAbort _ _ _ => true
  | .descriptorFetch _ => true
  | .dmaBeat _ => true
  | .indexedRequest _ _ => true
  | .descriptorEnd _ => true
  | .rdptrWrite _ _ => true
  | .powerRequest _ => true
  | .powerEntry _ => true
  | .wake _ => true
  | .kindling _ _ => true
  | .kindleTimeout => true
  | .kindleRetry => true
  | .pwrGoodFall => true
  | .porAssert => true
  | .warmReset _ => true
  | .resetRelease _ _ _ => true
  | .wdogEnable _ => true
  | .wdogKick _ => true
  | .wdogExpiry => true
  | .boostChange => true
  | .xtalFail => true
  | .refLost => true
  | .adcConversion _ => true
  | .dieSample _ => true
  | .sensorReadmit _ _ => true
  | .powerMeasure _ => true
  | .thermalTrip _ => true
  | .tripRestart => true
  | .emberDs7Conversion _ => true
  | .rtcTick => true
  | .rtcWrite _ => true
  | .bootLoad _ => true
  | .imgVerify _ => true
  | .tokenCmd _ => true
  | .provision => true
  | .seal => true
  | .returnPart => true
  | .svnAdvance => true
  | .mkGen => true
  | .mkLoad => true
  | .mkClear => true
  | .mkEpoch => true
  | .mkEscrow _ => true
  | .exportSign => true
  | .exportCert _ _ => true
  | .identCert _ _ => true
  | .secCmdDone => true
  | .secLockWrite _ => true
  | .dbgInfo _ => true
  | .dbgToken _ _ _ => true
  | .dbgRd _ _ _ => true
  | .dbgWr _ _ _ _ => true
  | .dbgHalt _ _ => true
  | .dbgRun _ _ => true
  | .dbgStep _ _ => true
  | .dbgGetreg _ _ _ => true
  | .dbgSetreg _ _ _ _ => true
  | .dbgLog _ => true
  | .tapReset => true
  | .spdmGetVersion _ => true
  | .spdmGetCapabilities _ => true
  | .spdmNegotiateAlgorithms _ => true
  | .spdmGetDigests _ _ => true
  | .spdmGetCertificate _ _ => true
  | .spdmChallenge _ _ => true
  | .spdmGetMeasurements _ => true
  | .hybridMeasurements _ => true
  | .hybridDicQChain _ _ => true
  | .doeDiscovery _ => true
  | .relayUnitCheck _ _ _ _ => true
  | .relayAck _ _ _ => true
  | .bootRelayRequest => true
  | .bootRelayTimeout => true
  | .handoverActivate _ _ _ => true
  | .handoverReady _ => true
  | .handoverTimeout => true
  | .bootConfirm => true
  | .evtPost _ _ => true
  | .evtCheckpoint _ => true
  | .summaryClear _ => true
  | .patrolSlice => true
  | .patrolItemEnd _ _ _ _ => true
  | .bivouacEnter _ => true
  | .sysBivEnter _ => true
  | .gpioEdge _ _ => true
  | .pwrGoodRise _ => true
  | .emberSupplyUp => true
  | .cscTagQuarantineEnd _ => true
  | .linkL1Entry _ _ => true
  | .linkL1Exit _ => true
  | .doeResponseReady _ => true
  | .tapInstructionUpdate _ => true

end Sys2Proof
end

