-- ==== Sys2Proof/Machine/MediaCmds.lean ====
section
/-! DEFINITION. Commands of the media channels (R98 to R175). -/

namespace Sys2Proof.Machine

/-- ZONE_COMMIT (R104): At the first idle cycle after a ZONE_SEL write, the channel commits the head and zone and begins loading the entry. -/
def execZoneCommit (m : Act) (s : State) : Out :=
  done (s.zoneCommit m)

/-- ZONE_LOAD_DONE (R104): The zone load completes, setting ZONE_READY or failing with ZONE_FAULT. -/
def execZoneLoadDone (m : Act) (s : State) : Out :=
  done (s.zoneLoadDone m)

/-- READ_GO (R132): A write of GO arms a read run into the pending place. -/
def execReadGo (m : Act) (v : W32) (s : State) : Out :=
  done (s.rdCtrlWrite m v false)

/-- READ_RUN_START (R132): The pending read run becomes active once the channel is idle, ready and enabled. -/
def execReadRunStart (m : Act) (s : State) : Out :=
  done (s.rdStart m)

/-- READ_ABORT (R137): A write of ABORT stops the active read run at the next sector boundary and discards the pending run. -/
def execReadAbort (m : Act) (v : W32) (atEnd : Bool) (s : State) : Out :=
  done (s.rdCtrlWrite m v atEnd)

/-- SECTOR_CAPTURE (R123): A sector of the read run passes under the head and is captured into the next unpinned retention slot. -/
def execSectorCapture (m : Act) (cap : Capture) (s : State) : Out :=
  if captureWf cap then done (s.sectorCapture m cap) else .fault (.illFormed "SECTOR_CAPTURE")

/-- OTF_DECODE_START (R112): On-the-fly decode of a sector begins when its last LLR enters the elastic buffer. -/
def execOtfDecodeStart (m : Act) (s : State) : Out :=
  done (s.otfStart m)

/-- OTF_DECODE_END (R112): The on-the-fly decode converges, or stops at its iteration limit or for buffer pressure and sends the sector to the ladder. -/
def execOtfDecodeEnd (m : Act) (full : Nat) (s : State) : Out :=
  done (s.otfEnd m full)

/-- RETRY_ENTRY_END (R126): A retry ladder entry ends with success or moves to the next entry. -/
def execRetryEntryEnd (m : Act) (ups : List SlotUpset) (s : State) : Out :=
  done (s.retryEnd m ups)

/-- REREAD_REVOLUTION (R128): A REREAD or COMBINE revolution rereads the sector and replaces or averages it into the slot. -/
def execRereadRevolution (m : Act) (cap : Capture) (s : State) : Out :=
  if captureWf cap then done (s.rereadRev m cap) else .fault (.illFormed "REREAD_REVOLUTION")

/-- SECTOR_RECORD_DELIVER (R133): A sector's data and result record are delivered to the DMA channels once they accept them. -/
def execSectorRecordDeliver (m : Act) (s : State) : Out :=
  done (s.sectDeliver m)

/-- RET_UNPIN (R124): A write of MCA_RET_UNPIN unpins slots, deferred for slots whose ladder still runs. -/
def execRetUnpin (m : Act) (v : W32) (s : State) : Out :=
  done (s.retUnpin m v)

/-- WRITE_GO (R164): A write of GO arms a write run into its pending place. -/
def execWriteGo (m : Act) (v : W32) (s : State) : Out :=
  done (s.wrCtrlWrite m v false)

/-- WRITE_RUN_START (R164): The pending write run becomes active, latching mode and band and sending its preamp frames. -/
def execWriteRunStart (m : Act) (s : State) : Out :=
  done (s.wrStart m)

/-- SLOT_WRITE (R165): A slot of the write run is encoded and written as its position passes under the writer. -/
def execSlotWrite (x : WritePass) (s : State) : Out :=
  if risingWf x.gates then done (s.slotWrite x.m x.gates) else .fault (.illFormed "SLOT_WRITE")

/-- WRITE_UNDERRUN (R166): Data missing 2 µs before a slot's preamble ends the run with UNDERRUN. -/
def execWriteUnderrun (m : Act) (s : State) : Out :=
  done (s.wrUnderrun m)

/-- VERIFY_RESULT (R168): The V-reader decode of a written sector passes or fails verify. -/
def execVerifyResult (m : Act) (v : List Int) (s : State) : Out :=
  if signalWf v then done (s.verifyResult m v) else .fault (.illFormed "VERIFY_RESULT")

/-- REWRITE_REVOLUTION (R170): Under Enforce, the failed slots are rewritten in place on a later revolution. -/
def execRewriteRevolution (x : RewritePass) (s : State) : Out :=
  if x.gates.all risingWf then done (s.rewriteRev x.m x.gates) else .fault (.illFormed "REWRITE_REVOLUTION")

/-- CAIRN_WRITE (R172): The cairn work area is written as sector 0 at its next passage. -/
def execCairnWrite (x : WritePass) (s : State) : Out :=
  if risingWf x.gates then done (s.cairnWrite x.m x.gates) else .fault (.illFormed "CAIRN_WRITE")

/-- WRITE_ABORT (R174): A write of ABORT ends the write run at the next sector boundary. -/
def execWriteAbort (m : Act) (v : W32) (atEnd : Bool) (s : State) : Out :=
  done (s.wrCtrlWrite m v atEnd)

/-- WRITE_RECORD_DELIVER (R173): A write record is delivered to REC_CH for each ended slot and for the cairn. -/
def execWriteRecordDeliver (m : Act) (s : State) : Out :=
  done (s.wrDeliver m)

end Sys2Proof.Machine
end

