-- ==== Sys2Proof/Machine/MemCmds.lean ====
section
/-! DEFINITION. Commands of DRAM, the shared cache and Sweep (R379 to R403). -/

namespace Sys2Proof.Machine

/-- DRAM_INIT (R379): A write of MEM_CTRL.INIT trains the channels, resuming or not. -/
def execDramInit (v : W32) (s : State) : Out :=
  done (s.memCtrlWrite v)

/-- DRAM_INIT_DONE (R379): Training ends with INIT_DONE or INIT_FAIL. -/
def execDramInitDone (ok : Bool) (s : State) : Out :=
  done (s.memInitDone ok)

/-- CACHE_FILL_DONE (R385): A bank's miss fill completes, serving joined requests and held maintenance operations. -/
def execCacheFillDone (bank : Fin 8) (s : State) : Out :=
  done (s.bankFill bank)

/-- WRITEBACK_DRAIN (R386): The DRAM controller accepts a line from the write-back buffer. -/
def execWritebackDrain (s : State) : Out :=
  done s.drainOne

/-- WAY_POWER_DOWN (R392): Setting a CCH_WAYPWR.OFF bit starts cleaning a way pair. -/
def execWayPowerDown (v : W32) (s : State) : Out :=
  done (s.wayWrite v)

/-- WAY_PAIR_DONE (R392): A way pair finishes cleaning and powers down. -/
def execWayPairDone (s : State) : Out :=
  done s.wayDone

/-- WAY_POWER_UP (R392): Clearing an OFF bit powers a pair up with its ways invalid. -/
def execWayPowerUp (v : W32) (s : State) : Out :=
  done (s.wayWrite v)

/-- SWEEP_STEP (R402): In an idle cycle Sweep reads a word and rewrites or poisons it as needed. -/
def execSweepStep (id : BitVec 7) (ix : W32) (u u2 : BitVec 80) (lap : Option W32) (s : State) : Out :=
  done (s.sweepStep id.toNat ix.toNat u u2 lap)

end Sys2Proof.Machine
end

