-- ==== Sys2Proof/Machine/NvqCmds.lean ====
section
/-! DEFINITION. Commands of the queue engine and the Groundsheet (R289 to R312). -/

namespace Sys2Proof.Machine

/-- SQ_DOORBELL (R289): A host submission queue tail doorbell write makes the queue eligible for fetch. -/
def execSqDoorbell (n : HPort) (q : BitVec 8) (v : W16) (s : State) : Out :=
  done (s.sqDoorbell n q.toNat v.toNat)

/-- CQ_HEAD_DOORBELL (R292): A host completion queue head doorbell releases held completion entries. -/
def execCqHeadDoorbell (n : HPort) (q : BitVec 8) (v : W16) (s : State) : Out :=
  done (s.cqDoorbell n q.toNat v.toNat)

/-- COMMAND_FETCH (R289): NVQ fetches a submission entry, assigns tag and sequence number, and classifies it. -/
def execCommandFetch (e : HostData) (s : State) : Out :=
  done (s.nvqFetch e)

/-- FAST_WRITE (R295): An eligible write raises the charge, takes a free slot and fetches its data. -/
def execFastWrite (t : Tag) (s : State) : Out :=
  done (s.fastWrite t.toNat)

/-- FAST_WRITE_BUCKET (R295): With data in place, the bucket line is updated indivisibly, a log record is written and the completion posted. -/
def execFastWriteBucket (t : Tag) (d : HostData) (s : State) : Out :=
  done (s.fastBucket t.toNat d)

/-- FAST_READ (R296): A cache-hit read copies its slot to the host and posts the completion, or falls back to the engine path. -/
def execFastRead (t : Tag) (s : State) : Out :=
  done (s.fastRead t.toNat)

/-- COMPLETION_POST (R291): A write of NVQ_CPLp_W3 posts one completion from the thread's port. -/
def execCompletionPost (ag : Agent) (p : Thr) (v : W32) (s : State) : Out :=
  done (if s.mayReg ag (Reg.NVQ_CPL p 3) then s.cplPortWrite ag p v else s)

/-- CHARGE_ADJUST (R304): A write of NVI_GS_ADJp applies or refuses a signed change of the dirty charge. -/
def execChargeAdjust (ag : Agent) (p : Thr) (v : W32) (s : State) : Out :=
  done (if s.mayReg ag (Reg.NVI_GS_ADJ p) && decide (ag = .thread p) then s.chargeAdjust p v.toInt else s)

/-- GS_PREP (R308): A write of PREP erases and measures the spare vault area and tries to arm it. -/
def execGsPrep (v : W32) (s : State) : Out :=
  done (if tb v 0 then s.gsPrepStart else s)

/-- GS_PREP_DONE (R308): PREP ends, arming the area or setting PREP_FAIL. -/
def execGsPrepDone (dies : BitVec 6) (page ppb bad : W32) (rate : W16) (s : State) : Out :=
  done (s.gsPrepDone dies.toNat page.toNat ppb.toNat bad.toNat rate.toNat).nandSync

/-- SW_DUMP (R309): A write of SW_DUMP starts a Groundsheet dump. -/
def execSwDump (v : W32) (s : State) : Out :=
  done (if tb v 2 then s.swDump else s)

/-- DUMP_END (R310): The dump seals its image, or fails when the area fills. -/
def execDumpEnd (lost : W32) (s : State) : Out :=
  done (s.dumpEnd lost.toNat).nandSync

/-- DUMP_ABANDON (R311): A dump reaches the time limit of a reset or trip and ends with DUMP_FAIL. -/
def execDumpAbandon (s : State) : Out :=
  done (if s.mayAbandon then s.dumpAbandon.nandSync else s)

/-- GS_RESTORE (R312): A write of RESTORE starts restoring the newest sealed image. -/
def execGsRestore (v : W32) (s : State) : Out :=
  done (if tb v 1 then s.gsRestoreStart else s)

/-- GS_RESTORE_DONE (R312): The restore ends with RESTORE_DONE, NONE or RESTORE_FAIL. -/
def execGsRestoreDone (bad : Option Nat) (s : State) : Out :=
  done (s.gsRestoreDone bad).nandSync

end Sys2Proof.Machine
end

