-- ==== Sys2Proof/Machine/ObjCmds.lean ====
section
/-! DEFINITION. Commands of the Grenros Object Service, the Key Value command set and the index-assist unit (R241 to R287). -/

namespace Sys2Proof.Machine

/-- PUT (R279): GOS PUT opens a session, carries chunks or metadata, or seals a version. -/
def execGosPut (t : Tag) (x : CmdIn) (s : State) : Out :=
  done (s.gosPut t.toNat x)

/-- GET (R279): GOS GET reads, rebuilds and checks chunks and returns object bytes. -/
def execGosGet (t : Tag) (x : CmdIn) (s : State) : Out :=
  done (s.gosGet t.toNat x)

/-- DELETE (R279): GOS DELETE tombstones one or all live versions unless retained or held. -/
def execGosDelete (t : Tag) (x : CmdIn) (s : State) : Out :=
  done (s.gosDelete t.toNat x)

/-- STAT (R279): GOS STAT returns a version's record header, ODIG and state. -/
def execStat (t : Tag) (x : CmdIn) (s : State) : Out :=
  done (s.gosStat t.toNat x)

/-- LIST (R279): GOS LIST returns keys with live versions after a start key. -/
def execGosList (t : Tag) (x : CmdIn) (s : State) : Out :=
  done (s.gosList t.toNat x)

/-- RETAIN (R272): GOS RETAIN sets or clears legal hold or extends retention. -/
def execRetain (t : Tag) (x : CmdIn) (s : State) : Out :=
  done (s.gosRetain t.toNat x)

/-- VERSIONS (R279): GOS VERSIONS lists every version of a key, newest first. -/
def execVersions (t : Tag) (x : CmdIn) (s : State) : Out :=
  done (s.gosVersions t.toNat x)

/-- FIXITY (R270): GOS FIXITY checks chunk digests and ODIG, optionally parity, and repairs. -/
def execFixity (t : Tag) (x : CmdIn) (s : State) : Out :=
  done (s.gosFixity t.toNat x)

/-- EXPORT_OPEN (R283): EXPORT with FLAGS 0 opens the drive's export session. -/
def execExportOpen (t : Tag) (x : CmdIn) (s : State) : Out :=
  done (s.exportOpen t.toNat x)

/-- EXPORT_READ (R283): EXPORT with FLAGS 1 returns the next bytes of the export stream. -/
def execExportRead (t : Tag) (x : CmdIn) (s : State) : Out :=
  done (s.exportRead t.toNat x)

/-- EXPORT_CLOSE (R283): EXPORT with FLAGS 2 ends the export session. -/
def execExportClose (t : Tag) (x : CmdIn) (s : State) : Out :=
  done (s.exportClose t.toNat x)

/-- EXPORT_TIMEOUT (R283): An export session ends after 10 min without a READ. -/
def execExportTimeout (s : State) : Out :=
  done s.exportTimeout

/-- CAIRN_WALK (R279): GOS CAIRN_WALK returns the cairns of a range of tracks. -/
def execCairnWalk (t : Tag) (x : CmdIn) (s : State) : Out :=
  done (s.gosCairnWalk t.toNat x)

/-- NS_CREATE (R241): Creates an object namespace from its descriptor. -/
def execNsCreate (t : Tag) (x : CmdIn) (s : State) : Out :=
  done (s.nsCreate t.toNat x)

/-- NS_DELETE (R243): Deletes a namespace unless retained, held or exporting. -/
def execNsDelete (t : Tag) (x : CmdIn) (s : State) : Out :=
  done (s.nsDelete t.toNat x)

/-- NS_QUERY (R278): Returns a namespace's descriptor and usage. -/
def execNsQuery (t : Tag) (x : CmdIn) (s : State) : Out :=
  done (s.nsQuery t.toNat x)

/-- NS_SET (R242): Changes namespace policy fields within the lock rules. -/
def execNsSet (t : Tag) (x : CmdIn) (s : State) : Out :=
  done (s.nsSet t.toNat x)

/-- STORE (R282): Key Value Store acts as a one-command PUT. -/
def execStore (t : Tag) (x : CmdIn) (s : State) : Out :=
  done (s.kvStore t.toNat x)

/-- RETRIEVE (R282): Key Value Retrieve acts as GET of the latest live version. -/
def execRetrieve (t : Tag) (x : CmdIn) (s : State) : Out :=
  done (s.kvRetrieve t.toNat x)

/-- KV_DELETE (R282): Key Value Delete acts as DELETE with ALL = 0. -/
def execKvDelete (t : Tag) (x : CmdIn) (s : State) : Out :=
  done (s.kvDelete t.toNat x)

/-- EXIST (R282): Key Value Exist acts as STAT. -/
def execExist (t : Tag) (x : CmdIn) (s : State) : Out :=
  done (s.kvExist t.toNat x)

/-- KV_LIST (R282): Key Value List acts as LIST. -/
def execKvList (t : Tag) (x : CmdIn) (s : State) : Out :=
  done (s.kvList t.toNat x)

/-- CHUNK_COMMIT (R263): Once every written sector of every shard has verified, the chunk commits in the journal and its charge is released. -/
def execChunkCommit (ns : BitVec 6) (h : W64) (k : W32) (l : List (Nat × Nat)) (s : State) : Out :=
  done (s.chunkCommit ns.toNat h.toNat k.toNat l)

/-- COMMIT_TIMEOUT (R267): A unit that has not reported after COMMIT_TMO has its shard placed again. -/
def execCommitTimeout (ns : BitVec 6) (h : W64) (k : W32) (u : Nat) (present : List Nat) (s : State) : Out :=
  done (s.commitTimeout ns.toNat h.toNat k.toNat u present)

/-- GET_SLOW_SHARD (R267): A data shard still incomplete SLOW_MS after the others causes a parity shard to be read. -/
def execGetSlowShard (t : Tag) (k : W32) (j : BitVec 4) (s : State) : Out :=
  done (s.getSlow t.toNat k.toNat j.toNat)

/-- SESSION_TIMEOUT (R266): A PUT session idle for SESSION_TMO is abandoned. -/
def execSessionTimeout (token : W32) (s : State) : Out :=
  done (s.sessionTimeout token.toNat)

/-- INDEX_CHECKPOINT (R275): Every CKPT_MIN minutes the index is checkpointed to two conventional bands. -/
def execIndexCheckpoint (verified : Bool) (s : State) : Out :=
  done (s.indexCheckpoint verified)

/-- IDX_SEARCH (R287): A write of OBJ_IDXc_CTRL.GO starts an index-assist node search. -/
def execIdxSearch (c : Fin 8) (v : W32) (s : State) : Out :=
  done (s.idxGo c v)

/-- IDX_SEARCH_DONE (R287): The node search ends with SLOT and FOUND, or ERR. -/
def execIdxSearchDone (c : Fin 8) (s : State) : Out :=
  done (s.idxDone c)

/-- RCLOCK_WRITE (R271): A write of OBJ_RCLOCK raises the retention clock, and a lower value has no effect. -/
def execRclockWrite (ag : Agent) (v : W32) (s : State) : Out :=
  done (if s.mayReg ag Reg.OBJ_RCLOCK_HI then (s.servedFor ag).rclockWrite ag v else s)

/-- RCLOCK_TICK (R271): The retention clock advances by one each RTC second. -/
def execRclockTick (s : State) : Out :=
  done s.rclockTick

end Sys2Proof.Machine
end

