-- ==== Sys2Proof/Machine/PortCmds.lean ====
section
/-! DEFINITION. Commands of the PCIe ports (R319 to R349). -/

namespace Sys2Proof.Machine

/-- PERST_ASSERT (R342): PERST# of a port is asserted, resetting its configuration space and controller and clearing CFG_READY. -/
def execPerstAssert (n : HPort) (s : State) : Out :=
  done (s.perstAssert n)

/-- PERST_RELEASE (R321): PERST# is released and configuration requests get Request Retry Status until CFG_READY. -/
def execPerstRelease (n : HPort) (s : State) : Out :=
  done (s.perstRelease n)

/-- CFG_READY_TIMEOUT (R321): 1.0 s after release HIF sets CFG_READY itself and CFG_TMO sets. -/
def execCfgReadyTimeout (n : HPort) (s : State) : Out :=
  done (s.cfgReadyTimeout n)

/-- HOT_RESET (R342): A hot reset or DL_Down resets the function except sticky fields. -/
def execHotReset (n : HPort) (s : State) : Out :=
  done (s.hotReset n)

/-- FLR (R342): A function level reset resets the function except sticky and link fields. -/
def execFlr (n : HPort) (s : State) : Out :=
  done (s.flr n)

/-- CONTROLLER_RESET (R342): CC.EN written from 1 to 0 resets the NVMe controller. -/
def execControllerReset (n : HPort) (s : State) : Out :=
  done (if s.portLive n && tb (s.ctl n).cc 0 then s.ccWrite n ((s.ctl n).cc &&& ~~~ bit 0) else s)

/-- CONFIG_READ (R322): A configuration read is answered from the function's configuration space. -/
def execConfigRead (n : HPort) (dw : BitVec 10) (s : State) : Out :=
  done (s.configRead n (4 * dw.toNat))

/-- CONFIG_WRITE (R330): A configuration write changes enables, BARs or sizes for TLPs that arrive after it. -/
def execConfigWrite (n : HPort) (dw : BitVec 10) (be : BitVec 4) (v : W32) (s : State) : Out :=
  done (s.configWrite n (4 * dw.toNat) be v)

/-- BAR_READ (R326): A memory read to BAR0 or BAR2 returns NVMe or MSI-X data, or Unsupported Request. -/
def execBarRead (n : HPort) (b : Bar) (off : BitVec 14) (len : BitVec 13) (s : State) : Out :=
  done (s.barRead n b off.toNat len.toNat)

/-- BAR_WRITE (R326): A memory write to BAR0 or BAR2 reaches NVMe registers or MSI-X entries, or is discarded. -/
def execBarWrite (n : HPort) (b : Bar) (off : BitVec 14) (d : BarData) (s : State) : Out :=
  done (s.barWrite n b off.toNat d.bytes d.ep)

/-- PEER_WINDOW_READ (R328): A BAR4 read is served from DRAM through the committed window. -/
def execPeerWindowRead (n : HPort) (off : BitVec 33) (q : PwAsk) (s : State) : Out :=
  done (s.pwRead n off.toNat q.len.toNat q.atomic)

/-- PEER_WINDOW_WRITE (R328): A BAR4 write reaches DRAM through the committed window, or is discarded. -/
def execPeerWindowWrite (n : HPort) (off : BitVec 33) (d : List (Option W8)) (ep : Bool) (s : State) : Out :=
  done (s.pwWrite n off.toNat d ep)

/-- PW_COMMIT (R331): At the first TLP boundary after GO the peer window shadow becomes active or is refused. -/
def execPwCommit (n : HPort) (s : State) : Out :=
  done (if s.portLive n then s.pwCommit n else s)

/-- COMPLETION_RECEIVED (R336): A PCIe completion arrives for a GX8 request, delivers data or fails it, or is discarded as unexpected. -/
def execCompletionReceived (n : HPort) (tag : W16) (st : CplStatus) (d : List W8) (ep : Bool) (s : State) : Out :=
  done (s.cplReceived n tag.toNat st d ep)

/-- COMPLETION_TIMEOUT (R336): A GX8 request's completion timer expires and the request fails. -/
def execCompletionTimeout (n : HPort) (tag : W16) (s : State) : Out :=
  done (s.cplTimeout n tag.toNat)

/-- TAG_QUARANTINE_END (R337): A timed-out tag leaves quarantine and returns to the free tags. -/
def execTagQuarantineEnd (n : HPort) (tag : W16) (s : State) : Out :=
  done (s.setHp n { s.hp n with quar := (s.hp n).quar.erase tag.toNat })

/-- LINK_UP (R320): A port's link reaches DL_Active. -/
def execLinkUp (n : HPort) (speed : BitVec 3) (x2 flit tags14 : Bool) (s : State) : Out :=
  done (s.linkUp n speed.toNat x2 flit tags14)

/-- LINK_DOWN (R342): A port's link leaves DL_Active. -/
def execLinkDown (n : HPort) (s : State) : Out :=
  done (s.linkDown n)

/-- CREDIT_STALL (R346): No posted credit arrives for HIF_STALL.MS and STALL sets. -/
def execCreditStall (n : HPort) (s : State) : Out :=
  done (if s.portLive n then s.hifEvent n 18 else s)

/-- DOE_REQUEST (R349): A DOE data object arrives in a function's mailbox for Ranger. -/
def execDoeRequest (n : HPort) (o : List W32) (s : State) : Out :=
  done (if s.portLive n && s.cfgReady n then s.doeObject n o else s)

/-- DOE_ABORT (R349): A DOE Abort discards the object in progress and any unread response. -/
def execDoeAbort (n : HPort) (s : State) : Out :=
  done (if s.portLive n then s.doeAbort n else s)

/-- LTR_WRITE (R348): A write that changes HIF_PORTn_LTR sends one LTR message. -/
def execLtrWrite (n : HPort) (v : W32) (s : State) : Out :=
  done (if s.isBase then s.ltrWrite n v else s)

/-- LINK_L1_ENTRY (R348): A PCIe port's link enters L1 or an L1 substate, and HIF_PORTn_LINK.PM changes. -/
def execLinkL1Entry (n : HPort) (sub : Fin 3) (s : State) : Out :=
  done (s.l1Entry n (sub.val + 1))

/-- LINK_L1_EXIT (R348): A PCIe port's link leaves L1 or an L1 substate and returns to L0. -/
def execLinkL1Exit (n : HPort) (s : State) : Out :=
  done (s.l1Exit n)

end Sys2Proof.Machine
end

