-- ==== Sys2Proof/Machine/PowerCmds.lean ====
section
/-! DEFINITION. Commands of power states, clocks, resets and THM (R383, R416 to R447). -/

namespace Sys2Proof.Machine

/-- REFRESH_RATE_CHANGE (R383): A new refresh rate takes effect at the next refresh. -/
def execRefreshRateChange (dev : Fin 3) (s : State) : Out :=
  done (if s.pwr.st < 3 then s.refreshRate dev.val else s)

/-- POWER_REQUEST (R420): A write of SYS_PWR.REQ checks the target state's conditions. -/
def execPowerRequest (v : W32) (s : State) : Out :=
  done (if s.pwr.st < 3 then s.pwrWrite v else s)

/-- POWER_ENTRY (R421): Once threads wait, the part enters Spun, Kindled or Ember, or refuses. -/
def execPowerEntry (wake : Bool) (s : State) : Out :=
  done (s.pwrEntry wake)

/-- A wake source that the part's own state decides holds: the alarm, a thread's WAIT; a trip restart comes only with
TRIP_RESTART (R422, R446). -/
def State.wakeHolds (s : State) (src : Nat) : Bool :=
  if src = 4 then s.reg64 Reg.EMB_ALARM_LO != 0 && s.reg64 Reg.EMB_ALARM_LO == s.rtc
  else if src = 7 then false
  else if src = 9 then (List.range 192).any fun p => s.runBit p &&
    (match (s.thr p).wait with | .event mask _ => s.ipend p &&& mask != 0 | _ => false)
  else true

/-- WAKE (R422): A wake source ends Kindled or Ember. -/
def execWake (src : Fin 11) (s : State) : Out :=
  done (if s.wakeHolds src.val then (s.wakeBy src.val).kindle else s)

/-- KINDLING (R425): POR_N release or a wake in Ember raises PWR_EN and brings the core up. -/
def execKindling (release : Bool) (straps : BitVec 5) (s : State) : Out :=
  done (if release then s.porRelease straps else s.kindle)

/-- KINDLE_TIMEOUT (R426): PWR_GOOD has not risen 10 ms after PWR_EN and Ember drops it. -/
def execKindleTimeout (s : State) : Out :=
  done s.kindleTimeout

/-- KINDLE_RETRY (R426): 1 s after a failed Kindling, Ember tries again. -/
def execKindleRetry (s : State) : Out :=
  done s.kindleRetry

/-- PWR_GOOD_FALL (R427): PWR_GOOD falls while the core is powered and the part enters Ember. -/
def execPwrGoodFall (s : State) : Out :=
  done s.powerGoodFall

/-- PWR_GOOD_RISE (R425): PWR_GOOD rises after PWR_EN, and Kindling continues through REF50 check, PLL lock, SRAM clear and OTP load to release the engine reset. -/
def execPwrGoodRise (identOk : Bool) (s : State) : Out :=
  done (s.kindled identOk)

/-- POR_ASSERT (R429): POR_N asserted resets every block at once. -/
def execPorAssert (s : State) : Out :=
  done s.porAssert

/-- WARM_RESET (R430): A write of SYS_RST_CTRL with key starts the core warm reset sequence. -/
def execWarmReset (v : W32) (s : State) : Out :=
  done (s.rstCtrlWrite v)

/-- RESET_RELEASE (R430): The reset sequence completes and the engine reset is released. -/
def execResetRelease (limit high identOk : Bool) (s : State) : Out :=
  done (s.resetRelease limit high identOk)

/-- WDOG_ENABLE (R432): A write setting SYS_WDOG.EN starts the watchdog count. -/
def execWdogEnable (v : W32) (s : State) : Out :=
  done (s.wdogWrite v)

/-- WDOG_KICK (R432): A write of the kick key restarts the count and clears WARNED. -/
def execWdogKick (v : W32) (s : State) : Out :=
  done (s.wdogKick v)

/-- WDOG_EXPIRY (R432): The watchdog expires, warning first and resetting at the second expiry. -/
def execWdogExpiry (s : State) : Out :=
  done s.wdogExpiry

/-- BOOST_CHANGE (R417): The engine clock changes between 1.40 and 1.60 GHz. -/
def execBoostChange (s : State) : Out :=
  done s.boostChange

/-- XTAL_FAIL (R418): No crystal edge for 4 ms changes Ember to the RC oscillator. -/
def execXtalFail (s : State) : Out :=
  done s.xtalFail

/-- REF_LOST (R418): REF50 stopped for 2 µs changes to the backup oscillator and requests Bivouac. -/
def execRefLost (s : State) : Out :=
  done s.refLost

/-- ADC_CONVERSION (R433): The housekeeping ADC converts the next channel of its round. -/
def execAdcConversion (raw : W16) (s : State) : Out :=
  done (s.adcConvert raw)

/-- DIE_SAMPLE (R434): Each on-die sensor sampler converts once per ms. -/
def execDieSample (l : W128) (s : State) : Out :=
  done (s.dieSample ((List.range 8).map fun i => (l.extractLsb' (16 * i) 16).toInt))

/-- SENSOR_READMIT (R435): A write of 1 to a BROKEN bit readmits the sensor. -/
def execSensorReadmit (ch : Fin 18) (v : W32) (s : State) : Out :=
  done (s.sensorWrite ch.val v)

/-- POWER_MEASURE (R441): Every ms THM measures power and updates the firewood account and PW_LEVEL. -/
def execPowerMeasure (mw : W16) (s : State) : Out :=
  done (s.powerMeasure mw.toNat)

/-- EMBER_DS7_CONVERSION (R433): DS7 converts every 100 ms in Ember. -/
def execEmberDs7Conversion (t : W16) (s : State) : Out :=
  done (s.ds7 t.toInt)

/-- THERMAL_TRIP (R444): Two good die samples of 135 °C or above run the trip sequence into Ember. -/
def execThermalTrip (limit : Bool) (s : State) : Out :=
  done (s.thermalTrip limit)

/-- TRIP_RESTART (R446): Cool readings for 10 s permit restart and release THERM_TRIP_N. -/
def execTripRestart (s : State) : Out :=
  done s.tripRestart

/-- RTC_TICK (R416): The real-time clock advances by one second. -/
def execRtcTick (s : State) : Out :=
  done (s.rtcTick.kindle)

/-- RTC_WRITE (R416): A write of EMB_RTC sets the clock and RTC_VALID. -/
def execRtcWrite (v : W64) (s : State) : Out :=
  done (s.rtcWrite v.toNat)

/-- EMBER_SUPPLY_UP (R416): VDD_EMB comes up: the RTC starts at 0 with RTC_VALID clear, the trip hold and its counts clear, and Ember returns to the crystal. -/
def execEmberSupplyUp (s : State) : Out :=
  done s.emberUp

end Sys2Proof.Machine
end

