-- ==== Sys2Proof/Machine/SecCmds.lean ====
section
/-! DEFINITION. Commands of Ranger: the command interface, locks and attestation (R448 to R475). -/

namespace Sys2Proof.Machine

/-- BOOT_LOAD (R456): Ranger reads, checks and copies a boot image from the strap source. -/
def execBootLoad (x : BootIn) (s : State) : Out :=
  done (s.secDo 0x01 fun _ s => s.bootLoad x)

/-- IMG_VERIFY (R461): Ranger checks an image without copying it. -/
def execImgVerify (sg : Sigs) (s : State) : Out :=
  done (s.secRun 0x02 fun b s => s.imgVerify b sg)

/-- TOKEN (R467): Ranger checks a debug token and grants its rights. -/
def execTokenCmd (sg : Sigs) (s : State) : Out :=
  done (s.secRun 0x03 fun b s => s.secToken b sg)

/-- PROVISION (R461): Programs the customer key hashes in Open. -/
def execProvision (s : State) : Out :=
  done (s.secRun 0x04 fun b s => s.secProvision b)

/-- SEAL (R453): Programs the SEALED fuses after reading back the key hashes. -/
def execSeal (s : State) : Out :=
  done (s.secRun 0x05 fun _ s => s.secSeal)

/-- RETURN (R453): Programs CUST_KILL, clears key slots and programs RETURNED. -/
def execReturnPart (s : State) : Out :=
  done (s.secRun 0x06 fun _ s => s.secReturn)

/-- SVN_ADVANCE (R460): Raises MIN_SVN up to the running SVN. -/
def execSvnAdvance (s : State) : Out :=
  done (s.secRun 0x07 fun b s => s.secSvn b)

/-- MK_GEN (R461): Generates an XTS key into a slot and returns its wrapped blob. -/
def execMkGen (s : State) : Out :=
  done (s.secRun 0x10 fun b s => s.mkGen b)

/-- MK_LOAD (R471): Unwraps a blob into a key slot. -/
def execMkLoad (s : State) : Out :=
  done (s.secRun 0x11 fun b s => s.mkLoad b)

/-- MK_CLEAR (R461): Empties a key slot. -/
def execMkClear (s : State) : Out :=
  done (s.secRun 0x12 fun b s => s.mkClear b)

/-- MK_EPOCH (R472): Programs a new epoch and clears every slot as crypto erase. -/
def execMkEpoch (s : State) : Out :=
  done (s.secDo 0x13 fun _ s => s.mkEpoch)

/-- MK_ESCROW (R461): Re-encrypts a wrapped key under the escrow public key. -/
def execMkEscrow (seed : BitVec 384) (s : State) : Out :=
  done (s.secRun 0x14 fun b s => s.mkEscrow seed b)

/-- EXPORT_SIGN (R461): Signs 128 bytes with both export keys. -/
def execExportSign (s : State) : Out :=
  done (s.secRun 0x20 fun b s => s.exportSign b)

/-- EXPORT_CERT (R461): Returns both export certificates. -/
def execExportCert (c q : List W8) (s : State) : Out :=
  done (s.secRun 0x21 fun b s => s.exportCert b c q)

/-- IDENT_CERT (R461): Returns DIC-C and DIC-Q. -/
def execIdentCert (c q : List W8) (s : State) : Out :=
  done (s.secRun 0x22 fun b s => s.identCert b c q)

/-- SEC_CMD_DONE (R461): A Ranger command ends, setting RESULT and CMD_DONE. -/
def execSecCmdDone (s : State) : Out :=
  done s.secDone

/-- SEC_LOCK_WRITE (R462): Setting a SEC_LOCK bit makes its group's RWL fields unwritable. -/
def execSecLockWrite (v : W32) (s : State) : Out :=
  done (s.secLock v)

/-- DOE_DISCOVERY (R349): DOE Discovery request lists the supported protocols. -/
def execDoeDiscovery (n : HPort) (s : State) : Out :=
  done (s.doeServe n.val 1 0 (fun p => decide (4 ≤ p.length)) fun p s => (some (discoveryAt (leAt p 0 1)), s))

/-- SPDM_GET_VERSION (R469): SPDM GET_VERSION request answered by Ranger. -/
def execSpdmGetVersion (n : HPort) (s : State) : Out :=
  done (s.doeServe n.val 1 1 (isSpdm 0x84) fun _ s => (some spdmVersion, s))

/-- SPDM_GET_CAPABILITIES (R469): SPDM GET_CAPABILITIES request. -/
def execSpdmGetCapabilities (n : HPort) (s : State) : Out :=
  done (s.doeServe n.val 1 1 (isSpdm 0xE1) fun _ s =>
    let (p, s) := s.spdmCaps
    (some p, s))

/-- SPDM_NEGOTIATE_ALGORITHMS (R469): SPDM NEGOTIATE_ALGORITHMS request. -/
def execSpdmNegotiateAlgorithms (n : HPort) (s : State) : Out :=
  done (s.doeServe n.val 1 1 (isSpdm 0xE3) fun _ s => (some spdmAlgs, s))

/-- SPDM_GET_DIGESTS (R469): SPDM GET_DIGESTS request. -/
def execSpdmGetDigests (n : HPort) (chain : List W8) (s : State) : Out :=
  done (s.doeServe n.val 1 1 (isSpdm 0x81) fun _ s => (some (spdmDigests chain), s))

/-- SPDM_GET_CERTIFICATE (R469): SPDM GET_CERTIFICATE request for slot 0. -/
def execSpdmGetCertificate (n : HPort) (chain : List W8) (s : State) : Out :=
  done (s.doeServe n.val 1 1 (isSpdm 0x82) fun p s => (some (spdmCert p chain), s))

/-- SPDM_CHALLENGE (R469): SPDM CHALLENGE signed by DIK-C. -/
def execSpdmChallenge (n : HPort) (chain : List W8) (s : State) : Out :=
  done (s.doeServe n.val 1 1 (isSpdm 0x83) fun p s =>
    let (r, s) := s.spdmChallenge p chain
    (some r, s))

/-- SPDM_GET_MEASUREMENTS (R469): SPDM GET_MEASUREMENTS request. -/
def execSpdmGetMeasurements (n : HPort) (s : State) : Out :=
  done (s.doeServe n.val 1 1 (isSpdm 0xE0) fun p s =>
    let (r, s) := s.spdmMeas p
    (some r, s))

/-- HYBRID_MEASUREMENTS (R469): Wenvor hybrid attestation SEL 0 returns measurements signed by DIK-C and DIK-Q. -/
def execHybridMeasurements (n : HPort) (s : State) : Out :=
  done (s.doeServe n.val 0x1CF7 1 (isHybrid 0) fun p s =>
    let (r, s) := s.hybridMeas p
    (some r, s))

/-- HYBRID_DIC_Q_CHAIN (R469): Wenvor hybrid attestation SEL 1 returns the DIC-Q chain. -/
def execHybridDicQChain (n : HPort) (chain : List W8) (s : State) : Out :=
  done (s.doeServe n.val 0x1CF7 1 (isHybrid 1) fun _ s => (some chain, s))

/-- DOE_RESPONSE_READY (R469): Ranger finishes a DOE response, such as a signed hybrid attestation after about 155 ms, and makes it available in the mailbox. -/
def execDoeResponseReady (n : HPort) (s : State) : Out :=
  done (s.doeReady n.val)

end Sys2Proof.Machine
end

