-- ==== Sys2Proof/Machine/ServoCmds.lean ====
section
/-! DEFINITION. Commands of Guyline (R178 to R210). -/

namespace Sys2Proof.Machine

/-- SERVO_WEDGE (R182): A servo wedge is demodulated into track, wedge number, bursts and runout. -/
def execServoWedge (a : Act) (w : Wedge) (s : State) : Out :=
  done (s.servoWedge a w)

/-- MISSED_WEDGE (R182): The search window closes without a valid mark, and a missed-wedge sample follows. -/
def execMissedWedge (a : Act) (s : State) : Out :=
  done (if s.rbit (Reg.GYL_ACT_CTRL a) 0 then (s.servoGate a).wedgeMissed a else s)

/-- SAMPLE_INSTANT (R179): At the end of the runout field the actuator's contexts latch their inputs and the seek generator and qualifiers update. -/
def execSampleInstant (a : Act) (vm : W32) (s : State) : Out :=
  done (s.sampleInstant a vm)

/-- CTX5_TIMER_TICK (R179): The context 5 timer ticks and triggers a sample instant. -/
def execCtx5TimerTick (s : State) : Out :=
  done s.timer5

/-- CONTEXT_RUN (R180): Guyline starts a pending context's law run no sooner than 30 ns after its sample instant. -/
def execContextRun (c : Ctx) (ue : Bool) (s : State) : Out :=
  done (s.runStart c ue)

/-- LAW_NOP (R192): Law operation that does nothing. -/
def execLawNop (c : Ctx) (s : State) : Out :=
  done (s.lawExec c (lawEnc 0x00 0 0 0))

/-- LAW_ADD (R192): Law operation d = a + b. -/
def execLawAdd (c : Ctx) (d a b : W8) (s : State) : Out :=
  done (s.lawExec c (lawEnc 0x01 d a b))

/-- LAW_SUB (R192): Law operation d = a − b. -/
def execLawSub (c : Ctx) (d a b : W8) (s : State) : Out :=
  done (s.lawExec c (lawEnc 0x02 d a b))

/-- LAW_MUL (R192): Law operation d = a × b. -/
def execLawMul (c : Ctx) (d a b : W8) (s : State) : Out :=
  done (s.lawExec c (lawEnc 0x03 d a b))

/-- LAW_MAC (R192): Law operation d = d + a × b, rounded once. -/
def execLawMac (c : Ctx) (d a b : W8) (s : State) : Out :=
  done (s.lawExec c (lawEnc 0x04 d a b))

/-- LAW_MSC (R192): Law operation d = d − a × b, rounded once. -/
def execLawMsc (c : Ctx) (d a b : W8) (s : State) : Out :=
  done (s.lawExec c (lawEnc 0x05 d a b))

/-- LAW_MIN (R192): Law operation d = the smaller of a and b. -/
def execLawMin (c : Ctx) (d a b : W8) (s : State) : Out :=
  done (s.lawExec c (lawEnc 0x06 d a b))

/-- LAW_MAX (R192): Law operation d = the larger of a and b. -/
def execLawMax (c : Ctx) (d a b : W8) (s : State) : Out :=
  done (s.lawExec c (lawEnc 0x07 d a b))

/-- LAW_CLAMP (R192): Law operation clamping a to ±|b|. -/
def execLawClamp (c : Ctx) (d a b : W8) (s : State) : Out :=
  done (s.lawExec c (lawEnc 0x08 d a b))

/-- LAW_ABS (R192): Law operation d = |a|. -/
def execLawAbs (c : Ctx) (d a : W8) (s : State) : Out :=
  done (s.lawExec c (lawEnc 0x09 d a 0))

/-- LAW_NEG (R192): Law operation d = −a. -/
def execLawNeg (c : Ctx) (d a : W8) (s : State) : Out :=
  done (s.lawExec c (lawEnc 0x0A d a 0))

/-- LAW_MOV (R192): Law operation d = a. -/
def execLawMov (c : Ctx) (d a : W8) (s : State) : Out :=
  done (s.lawExec c (lawEnc 0x0B d a 0))

/-- LAW_RCP (R192): Law operation d = 1/a. -/
def execLawRcp (c : Ctx) (d a : W8) (s : State) : Out :=
  done (s.lawExec c (lawEnc 0x0C d a 0))

/-- LAW_RSQ (R192): Law operation d = 1/√a. -/
def execLawRsq (c : Ctx) (d a : W8) (s : State) : Out :=
  done (s.lawExec c (lawEnc 0x0D d a 0))

/-- LAW_SLT (R192): Law operation F = (a < b). -/
def execLawSlt (c : Ctx) (a b : W8) (s : State) : Out :=
  done (s.lawExec c (lawEnc 0x0E 0 a b))

/-- LAW_SGE (R192): Law operation F = (a ≥ b). -/
def execLawSge (c : Ctx) (a b : W8) (s : State) : Out :=
  done (s.lawExec c (lawEnc 0x0F 0 a b))

/-- LAW_CMOV (R192): Law operation d = a when F = 1. -/
def execLawCmov (c : Ctx) (d a : W8) (s : State) : Out :=
  done (s.lawExec c (lawEnc 0x10 d a 0))

/-- LAW_PRESET (R205): Law operation d = YPREV − a when TRANSFER = 1.0. -/
def execLawPreset (c : Ctx) (d a : W8) (s : State) : Out :=
  done (s.lawExec c (lawEnc 0x12 d a 0))

/-- LAW_OUT (R192): Freezes y0 as this sample's command. -/
def execLawOut (c : Ctx) (s : State) : Out :=
  done (s.lawExec c (lawEnc 0x1E 0 0 0))

/-- LAW_END (R192): Ends the law run, freezing y0 if no OUT has. -/
def execLawEnd (c : Ctx) (s : State) : Out :=
  done (s.lawExec c (lawEnc 0x1F 0 0 0))

/-- OUTPUT_INSTANT (R197): At a context's output instant the frozen y0 is sent, or the previous output is held and counted late. -/
def execOutputInstant (c : Ctx) (met : Bool) (s : State) : Out :=
  done (s.outputInstant c met)

/-- ADI_FRAME (R199): A 32-bit frame is sent on the actuator driver interface. -/
def execAdiFrame (a : Act) (s : State) : Out :=
  done (s.adiSend a)

/-- ADI_RETURN_FRAME (R201): A return frame from the driver is checked and its SENSE, FLT and PARKED are taken. -/
def execAdiReturnFrame (a : Act) (w : W32) (s : State) : Out :=
  done (s.returnFrame a w)

/-- ADI_CONFIG (R199): A write of GYL_ACTa_ADICFG sends one CONFIG frame at the next free gap. -/
def execAdiConfig (a : Act) (v : W32) (s : State) : Out :=
  done (s.adiQueue a 6 (getF v 0 18))

/-- STATE_WRITE (R195): A write to a context state register is applied between runs. -/
def execStateWrite (c : Ctx) (j : BitVec 6) (v : W32) (s : State) : Out :=
  done (s.stateWrite c j.toNat v)

/-- SEEK_GO (R203): A write of SEEK.GO starts or restarts a seek at the next sample instant. -/
def execSeekGo (a : Act) (v : W32) (s : State) : Out :=
  done (if tb v 0 then s.orReg (Reg.GYL_ACT_SEEK a) (bit 0) else s)

/-- CTX_COMMIT (R207): At the commit event the context's shadow bank, LAW and PHASE become active. With EN = 0 it comes at once;
with EN = 1 the next sample instant is the commit event. -/
def execCtxCommit (c : Ctx) (s : State) : Out :=
  done (if s.ctxOn c then s else s.ctxCommit c)

/-- CTX_ENABLE (R194): A write of EN = 1 restarts a context, clears FAULTED and sets TRANSFER for the first run. -/
def execCtxEnable (c : Ctx) (v : W32) (s : State) : Out :=
  done (s.ctxCtrlWrite c v)

/-- LOAD (R208): A write of LOAD installs the load law and starts load-timer triggering and acquisition. -/
def execLoad (a : Act) (v : W32) (s : State) : Out :=
  done (s.loadWrite a v)

/-- LOAD_TIMER_TICK (R208): The load timer triggers both contexts of an actuator during a load or unload. -/
def execLoadTimerTick (x : LoadTick) (s : State) : Out :=
  done (s.loadTick x.a x.vm)

/-- LOAD_TIMEOUT (R208): LOAD_TMO passes without acquisition, setting LOAD_FAIL and starting an unload. -/
def execLoadTimeout (a : Act) (s : State) : Out :=
  done (s.loadTimeout a)

/-- UNLOAD (R209): A write of UNLOAD clears ACQUIRED and installs the unload law. -/
def execUnload (a : Act) (v : W32) (s : State) : Out :=
  done (s.loadWrite a v)

/-- UNLOAD_TIMEOUT (R209): LOAD_TMO passes during an unload and a retract begins. -/
def execUnloadTimeout (a : Act) (s : State) : Out :=
  done (s.unloadTimeout a)

/-- RETRACT (R210): A retract stops the actuator's contexts and sends MA 0 and RETRACT frames. -/
def execRetract (a : Act) (v : W32) (s : State) : Out :=
  done (s.loadWrite a v)

/-- RETRACT_STATUS_TICK (R210): Every 10 µs during a retract a STATUS frame is sent until PARKED is reported. -/
def execRetractStatusTick (a : Act) (s : State) : Out :=
  done (s.retractTick a)

/-- RETRACT_TIMEOUT (R210): RET_TMO passes, a PARK frame is sent and the voice-coil context faults. -/
def execRetractTimeout (a : Act) (s : State) : Out :=
  done (s.retractTimeout a)

end Sys2Proof.Machine
end

