-- ==== Sys2Proof/Machine/SpindleCmds.lean ====
section
/-! DEFINITION. Commands of the spindle commutation unit (R211 to R239), power fail and Bivouac. -/

namespace Sys2Proof.Machine

/-- PWM_PERIOD (R214): A PWM period starts, applying duties, REQ changes, current loops, speed samples and state transitions. -/
def execPwmPeriod (x : PwmIn) (s : State) : Out :=
  done (let g := decide (s.spSt = spGEN)
   let t := s.pwmPeriod x
   if decide (t.spSt = spGEN) && !g then t.dumpTrigger else t)

/-- SPN_DISABLE (R213): A write of EN = 0 drives all gates low within 100 ns and enters OFF. -/
def execSpnDisable (v : W32) (s : State) : Out :=
  done (if s.isBase && !(tb v 0) then s.spnCtrlWrite v else s)

/-- SPN_REQ_WRITE (R212): A write of SPN_CTRL.REQ requests RUN, STOP or COAST from the next PWM period start. -/
def execSpnReqWrite (v : W32) (s : State) : Out :=
  done (if s.isBase && tb v 0 then s.spnCtrlWrite v else s)

/-- OC_CUT (R219): A shunt conversion above OC_LIM turns all gates off for the rest of the period. -/
def execOcCut (code : BitVec 14) (s : State) : Out :=
  done (s.ocCut code)

/-- EXT_FAULT (R216): SPN_FLT_N low for 100 ns drives the gates low and enters FAULT. -/
def execExtFault (s : State) : Out :=
  done s.extFault

/-- CATCH_END (R228): The 20 ms catch-spin window ends and the unit chooses ALIGN, RUN or ZVBRAKE. -/
def execCatchEnd (u v w : Edges) (s : State) : Out :=
  done (s.catchEnd (edgesOf u v w))

/-- ZVBRAKE_SLICE_END (R230): A 50 ms zero-vector slice ends and an observation begins. -/
def execZvbrakeSliceEnd (s : State) : Out :=
  done s.zvSliceEnd

/-- ZVBRAKE_OBSERVE_END (R230): A 20 ms observation ends and braking repeats or moves on. -/
def execZvbrakeObserveEnd (u v w : Edges) (s : State) : Out :=
  done (s.zvObserveEnd (edgesOf u v w))

/-- ALIGN_END (R231): ALIGN_MS passes and the open-loop ramp begins. -/
def execAlignEnd (s : State) : Out :=
  done s.alignEnd

/-- START_TIMEOUT (R232): RUN is not reached within START_TMO, START_FAIL sets and the unit coasts. -/
def execStartTimeout (s : State) : Out :=
  done s.startTimeout

/-- VM_SAMPLE (R233): A VM and BRK_ISNS sample drives the chopper, its fault test and the overvoltage thresholds. -/
def execVmSample (mv ma : W16) (s : State) : Out :=
  done (let r := s.vmSample mv.toNat ma.toNat
   if r.1 then r.2.enterBiv 8 else r.2)

/-- CHOP_CLR (R234): A write of SPN_CHOP.CLR clears CHOP_FAULTY. -/
def execChopClr (v : W32) (faultNow : Bool) (s : State) : Out :=
  done (s.chopClr v faultNow)

/-- UNDERVOLTAGE_TRIGGER (R237): VM stays below UV for 10 µs and triggers generator entry or coasting. -/
def execUndervoltageTrigger (s : State) : Out :=
  done s.spnPowerLoss

/-- POWER_FAIL (R309): PFAIL_N low for 2 µs triggers the dump, stops NVQ, retracts the actuators and triggers GEN. -/
def execPowerFail (s : State) : Out :=
  done ((s.powerFail).wakeBy 8)

/-- SYS_BIV_ENTER (R511): A write of SYS_BIV_ENTER with key enters Bivouac with cause FIRMWARE. -/
def execSysBivEnter (v : W32) (s : State) : Out :=
  done (s.bivEnterWrite v)

/-- BIVOUAC_ENTER (R512): Bivouac is entered, dropping write gates, ending write runs and starting a dump. -/
def execBivouacEnter (c : Fin 5) (s : State) : Out :=
  done (s.enterBiv (8 + c.val))

end Sys2Proof.Machine
end

