-- ==== Sys2Proof/Machine/SvcCmds.lean ====
section
/-! DEFINITION. Commands of the block namespace and the admin commands (R288 to R318). -/

namespace Sys2Proof.Machine

/-- WRITE (R302): NVM Write to NSID 1 completes once charged in DRAM, or written through. -/
def execNvmWrite (t : Tag) (x : CmdIn) (s : State) : Out :=
  done (s.svcWrite t.toNat x)

/-- READ (R297): NVM Read returns data from cache or media in fetch order against overlaps. -/
def execNvmRead (t : Tag) (x : CmdIn) (s : State) : Out :=
  done (s.svcRead t.toNat x)

/-- FLUSH_CMD (R300): NVMe Flush completes once earlier completed writes are verified or committed. -/
def execNvmFlush (t : Tag) (x : CmdIn) (s : State) : Out :=
  done (s.svcFlush t.toNat x)

/-- COMPARE (R297): NVM Compare reads and compares data. -/
def execNvmCompare (t : Tag) (x : CmdIn) (s : State) : Out :=
  done (s.svcCompare t.toNat x)

/-- WRITE_ZEROES (R301): NVM Write Zeroes writes zeros atomically up to 512 LBAs. -/
def execWriteZeroes (t : Tag) (x : CmdIn) (s : State) : Out :=
  done (s.svcWriteZeroes t.toNat x)

/-- DATASET_MANAGEMENT (R288): NVM Dataset Management deallocates LBAs. -/
def execDatasetManagement (t : Tag) (x : CmdIn) (s : State) : Out :=
  done (s.svcDsm t.toNat x)

/-- VERIFY (R297): NVM Verify reads data without transfer. -/
def execNvmVerify (t : Tag) (x : CmdIn) (s : State) : Out :=
  done (s.svcVerify t.toNat x)

/-- IDENTIFY (R288): Admin Identify returns controller or namespace data. -/
def execIdentify (t : Tag) (x : CmdIn) (s : State) : Out :=
  done (s.svcIdentify t.toNat x)

/-- GET_FEATURES (R288): Admin Get Features returns a feature value. -/
def execGetFeatures (t : Tag) (x : CmdIn) (s : State) : Out :=
  done (s.svcGetFeatures t.toNat x)

/-- SET_FEATURES (R288): Admin Set Features changes a feature, including the dirty ceiling and timestamp. -/
def execSetFeatures (t : Tag) (x : CmdIn) (s : State) : Out :=
  done (s.svcSetFeatures t.toNat x)

/-- CREATE_IO_SQ (R288): Creates an I/O submission queue. -/
def execCreateIoSq (t : Tag) (s : State) : Out :=
  done (s.svcCreateSq t.toNat)

/-- CREATE_IO_CQ (R339): Creates an I/O completion queue with an interrupt vector. -/
def execCreateIoCq (t : Tag) (s : State) : Out :=
  done (s.svcCreateCq t.toNat)

/-- DELETE_IO_SQ (R313): Deletes an I/O submission queue, aborting its commands. -/
def execDeleteIoSq (t : Tag) (s : State) : Out :=
  done (s.svcDeleteSq t.toNat)

/-- DELETE_IO_CQ (R288): Deletes an I/O completion queue. -/
def execDeleteIoCq (t : Tag) (s : State) : Out :=
  done (s.svcDeleteCq t.toNat)

/-- ABORT (R314): Admin Abort ends a named command unless it has passed its data point or completed. -/
def execNvmAbort (t : Tag) (s : State) : Out :=
  done (s.svcAbort t.toNat)

/-- ASYNCHRONOUS_EVENT_REQUEST (R288): Admin Asynchronous Event Request waits for an event to report. -/
def execAsynchronousEventRequest (t : Tag) (s : State) : Out :=
  done (s.svcAer t.toNat)

/-- FORMAT_NVM (R318): Format NVM deallocates, overwrites or tombstones by SES. -/
def execFormatNvm (t : Tag) (bands total : Nat) (s : State) : Out :=
  done (s.svcFormat t.toNat bands total State.newMediaKey)

/-- SANITIZE_CRYPTO_ERASE (R316): Sanitize crypto erase replaces every media key and overwrites unencrypted namespaces. -/
def execSanitizeCryptoErase (t : Tag) (bands total : Nat) (s : State) : Out :=
  done (s.svcSanitize t.toNat 4 bands total State.cryptoErase)

/-- SANITIZE_OVERWRITE (R316): Sanitize overwrite writes every data slot with the pattern for OWPASS passes. -/
def execSanitizeOverwrite (t : Tag) (bands total : Nat) (s : State) : Out :=
  done (s.svcSanitize t.toNat 3 bands total id)

/-- SANITIZE_BLOCK_ERASE (R316): Sanitize block erase is refused with Invalid Field. -/
def execSanitizeBlockErase (t : Tag) (s : State) : Out :=
  done (s.svcSanitizeBad t.toNat 2)

end Sys2Proof.Machine
end

