-- ==== Sys2Proof/Machine/TrailCmds.lean ====
section
/-! DEFINITION. Commands of the Trail Log, Patrol, the preamp interface and GPIO (R494 to R510, R529 to R537). -/

namespace Sys2Proof.Machine

/-- EVT_POST (R498): A write of EVT_POSTp_ADDR_HI posts a firmware record to the Trail Log. -/
def execEvtPost (p : Thr) (hi : W32) (s : State) : Out :=
  done (if s.mayReg (.thread p) (Reg.EVT_POST_ADDR_LO p + 4) then s.evtPostWrite p hi else s)

/-- EVT_CHECKPOINT (R502): A write of EVT_CKPT advances the checkpoint to a record start. -/
def execEvtCheckpoint (v : W32) (s : State) : Out :=
  done (s.ckptWrite v)

/-- SUMMARY_CLEAR (R501): A write of EVT_SUMCLR frees every summary entry. -/
def execSummaryClear (v : W32) (s : State) : Out :=
  done (s.sumClear v)

/-- PATROL_SLICE (R508): In an idle cycle Patrol runs a slice of its current test item. -/
def execPatrolSlice (s : State) : Out :=
  done s.ptlSlice

/-- PATROL_ITEM_END (R510): A Patrol item ends, passing, or failing with a repeat and a record. -/
def execPatrolItemEnd (ok again : Bool) (inst : W8) (diff : W32) (s : State) : Out :=
  done (s.ptlEnd ok again inst diff)

/-- PSI_FRAME (R530): A write of MCA_PSI_CTRL.GO requests one firmware preamp frame. -/
def execPsiFrame (m : Act) (v : W32) (s : State) : Out :=
  done (s.psiWrite m v)

/-- PSI_FRAME_SENT (R529): A preamp frame ends at the rise of CS_N and read data is captured. -/
def execPsiFrameSent (m : Act) (rdata : W16) (s : State) : Out :=
  done (s.psiSent m rdata)

/-- GPIO_EDGE (R537): An edge on a GPIO input sets its status bit and may wake the part. -/
def execGpioEdge (n : BitVec 4) (rise : Bool) (s : State) : Out :=
  done (s.gpioEdge n.toNat rise)

end Sys2Proof.Machine
end

