-- ==== Sys2Proof/Machine/Dispatch.lean ====
section
/-! DEFINITION. One arm per command: the meaning it has. -/

namespace Sys2Proof.Machine

/-- The effect of a command on everything but the queue. -/
def exec (i : Instr) (s : State) : Host.Outcome State Fault Refusal :=
  match i with
  | .registerWrite ag off w v hwSet hwClr => Sys2Proof.Machine.execRegisterWrite ag off w v hwSet hwClr s
  | .readClear ag off w inc => Sys2Proof.Machine.execReadClear ag off w inc s
  | .pairLoRead ag off => Sys2Proof.Machine.execPairLoRead ag off s
  | .pairHiRead ag off => Sys2Proof.Machine.execPairHiRead ag off s
  | .pairLoWrite ag off v => Sys2Proof.Machine.execPairLoWrite ag off v s
  | .pairHiWrite ag off v => Sys2Proof.Machine.execPairHiWrite ag off v s
  | .alu p rd ra rb fn => Sys2Proof.Machine.execAlu p rd ra rb fn s
  | .cmp p rd ra rb fn => Sys2Proof.Machine.execCmp p rd ra rb fn s
  | .pred p rd ra rb fn => Sys2Proof.Machine.execPred p rd ra rb fn s
  | .addi p rd ra imm => Sys2Proof.Machine.execAddi p rd ra imm s
  | .andi p rd ra imm => Sys2Proof.Machine.execAndi p rd ra imm s
  | .ori p rd ra imm => Sys2Proof.Machine.execOri p rd ra imm s
  | .xori p rd ra imm => Sys2Proof.Machine.execXori p rd ra imm s
  | .shli p rd ra imm => Sys2Proof.Machine.execShli p rd ra imm s
  | .shri p rd ra imm => Sys2Proof.Machine.execShri p rd ra imm s
  | .sari p rd ra imm => Sys2Proof.Machine.execSari p rd ra imm s
  | .ori16 p rd ra imm => Sys2Proof.Machine.execOri16 p rd ra imm s
  | .ori32 p rd ra imm => Sys2Proof.Machine.execOri32 p rd ra imm s
  | .ori48 p rd ra imm => Sys2Proof.Machine.execOri48 p rd ra imm s
  | .cmpi p rd ra imm => Sys2Proof.Machine.execCmpi p rd ra imm s
  | .extu p rd ra imm => Sys2Proof.Machine.execExtu p rd ra imm s
  | .exts p rd ra imm => Sys2Proof.Machine.execExts p rd ra imm s
  | .ins p rd ra imm => Sys2Proof.Machine.execIns p rd ra imm s
  | .ld8u p rd ra imm => Sys2Proof.Machine.execLd8u p rd ra imm s
  | .ld16u p rd ra imm => Sys2Proof.Machine.execLd16u p rd ra imm s
  | .ld32u p rd ra imm => Sys2Proof.Machine.execLd32u p rd ra imm s
  | .ld64 p rd ra imm upset => Sys2Proof.Machine.execLd64 p rd ra imm upset s
  | .ld8s p rd ra imm => Sys2Proof.Machine.execLd8s p rd ra imm s
  | .ld16s p rd ra imm => Sys2Proof.Machine.execLd16s p rd ra imm s
  | .ld32s p rd ra imm => Sys2Proof.Machine.execLd32s p rd ra imm s
  | .st8 p rd ra imm => Sys2Proof.Machine.execSt8 p rd ra imm s
  | .st16 p rd ra imm => Sys2Proof.Machine.execSt16 p rd ra imm s
  | .st32 p rd ra imm => Sys2Proof.Machine.execSt32 p rd ra imm s
  | .st64 p rd ra imm => Sys2Proof.Machine.execSt64 p rd ra imm s
  | .amo p rd ra rb fn => Sys2Proof.Machine.execAmo p rd ra rb fn s
  | .cas p rd ra rb w32 hi => Sys2Proof.Machine.execCas p rd ra rb w32 hi s
  | .fence p rd ra rb hi => Sys2Proof.Machine.execFence p rd ra rb hi s
  | .fenceLd p rd ra rb hi => Sys2Proof.Machine.execFenceLd p rd ra rb hi s
  | .fenceSt p rd ra rb hi => Sys2Proof.Machine.execFenceSt p rd ra rb hi s
  | .fenceIo p rd ra rb hi => Sys2Proof.Machine.execFenceIo p rd ra rb hi s
  | .isync p rd ra rb hi => Sys2Proof.Machine.execIsync p rd ra rb hi s
  | .clean p rd ra rb hi => Sys2Proof.Machine.execClean p rd ra rb hi s
  | .flush p rd ra rb hi => Sys2Proof.Machine.execFlush p rd ra rb hi s
  | .inval p rd ra rb hi => Sys2Proof.Machine.execInval p rd ra rb hi s
  | .zero p rd ra rb hi => Sys2Proof.Machine.execZero p rd ra rb hi s
  | .prefetch p rd ra rb hi => Sys2Proof.Machine.execPrefetch p rd ra rb hi s
  | .icinv p rd ra rb hi => Sys2Proof.Machine.execIcinv p rd ra rb hi s
  | .icinvall p rd ra rb hi => Sys2Proof.Machine.execIcinvall p rd ra rb hi s
  | .br p pr cond off => Sys2Proof.Machine.execBr p pr cond off s
  | .call p pr cond off => Sys2Proof.Machine.execCall p pr cond off s
  | .jr p rd ra rb fn => Sys2Proof.Machine.execJr p rd ra rb fn s
  | .mfs p rd ra imm => Sys2Proof.Machine.execMfs p rd ra imm s
  | .mts p rd ra imm => Sys2Proof.Machine.execMts p rd ra imm s
  | .trap p rd ra imm => Sys2Proof.Machine.execTrap p rd ra imm s
  | .eret p rd ra rb hi => Sys2Proof.Machine.execEret p rd ra rb hi s
  | .waitT p rd ra rb hi => Sys2Proof.Machine.execWaitT p rd ra rb hi s
  | .mbsend p rd ra rb hi => Sys2Proof.Machine.execMbsend p rd ra rb hi s
  | .mbrecv p rd ra rb hi => Sys2Proof.Machine.execMbrecv p rd ra rb hi s
  | .yieldT p rd ra rb hi => Sys2Proof.Machine.execYieldT p rd ra rb hi s
  | .halt p rd ra rb hi => Sys2Proof.Machine.execHalt p rd ra rb hi s
  | .bkpt p rd ra rb hi => Sys2Proof.Machine.execBkpt p rd ra rb hi s
  | .cust p rd ra rb cx fn upsets => Sys2Proof.Machine.execCust p rd ra rb cx fn upsets s
  | .interrupt p => Sys2Proof.Machine.execInterrupt p s
  | .timerExpiry p => Sys2Proof.Machine.execTimerExpiry p s
  | .waitWake p => Sys2Proof.Machine.execWaitWake p s
  | .blockEventMessage b => Sys2Proof.Machine.execBlockEventMessage b s
  | .eventMessageDeliver k => Sys2Proof.Machine.execEventMessageDeliver k s
  | .threadRunWrite ag c v haltNow => Sys2Proof.Machine.execThreadRunWrite ag c v haltNow s
  | .ucsLoadStart ag v startNow => Sys2Proof.Machine.execUcsLoadStart ag v startNow s
  | .ucsLoadEnd rsa slh gen => Sys2Proof.Machine.execUcsLoadEnd rsa slh gen s
  | .zoneCommit m => Sys2Proof.Machine.execZoneCommit m s
  | .zoneLoadDone m => Sys2Proof.Machine.execZoneLoadDone m s
  | .readGo m v => Sys2Proof.Machine.execReadGo m v s
  | .readRunStart m => Sys2Proof.Machine.execReadRunStart m s
  | .readAbort m v atEnd => Sys2Proof.Machine.execReadAbort m v atEnd s
  | .sectorCapture m cap => Sys2Proof.Machine.execSectorCapture m cap s
  | .otfDecodeStart m => Sys2Proof.Machine.execOtfDecodeStart m s
  | .otfDecodeEnd m full => Sys2Proof.Machine.execOtfDecodeEnd m full s
  | .retryEntryEnd m ups => Sys2Proof.Machine.execRetryEntryEnd m ups s
  | .rereadRevolution m cap => Sys2Proof.Machine.execRereadRevolution m cap s
  | .sectorRecordDeliver m => Sys2Proof.Machine.execSectorRecordDeliver m s
  | .retUnpin m v => Sys2Proof.Machine.execRetUnpin m v s
  | .writeGo m v => Sys2Proof.Machine.execWriteGo m v s
  | .writeRunStart m => Sys2Proof.Machine.execWriteRunStart m s
  | .slotWrite x => Sys2Proof.Machine.execSlotWrite x s
  | .writeUnderrun m => Sys2Proof.Machine.execWriteUnderrun m s
  | .verifyResult m v => Sys2Proof.Machine.execVerifyResult m v s
  | .rewriteRevolution x => Sys2Proof.Machine.execRewriteRevolution x s
  | .cairnWrite x => Sys2Proof.Machine.execCairnWrite x s
  | .writeAbort m v atEnd => Sys2Proof.Machine.execWriteAbort m v atEnd s
  | .writeRecordDeliver m => Sys2Proof.Machine.execWriteRecordDeliver m s
  | .psiFrame m v => Sys2Proof.Machine.execPsiFrame m v s
  | .psiFrameSent m rdata => Sys2Proof.Machine.execPsiFrameSent m rdata s
  | .servoWedge a w => Sys2Proof.Machine.execServoWedge a w s
  | .missedWedge a => Sys2Proof.Machine.execMissedWedge a s
  | .sampleInstant a vm => Sys2Proof.Machine.execSampleInstant a vm s
  | .ctx5TimerTick => Sys2Proof.Machine.execCtx5TimerTick s
  | .contextRun c ue => Sys2Proof.Machine.execContextRun c ue s
  | .lawNop c => Sys2Proof.Machine.execLawNop c s
  | .lawAdd c d a b => Sys2Proof.Machine.execLawAdd c d a b s
  | .lawSub c d a b => Sys2Proof.Machine.execLawSub c d a b s
  | .lawMul c d a b => Sys2Proof.Machine.execLawMul c d a b s
  | .lawMac c d a b => Sys2Proof.Machine.execLawMac c d a b s
  | .lawMsc c d a b => Sys2Proof.Machine.execLawMsc c d a b s
  | .lawMin c d a b => Sys2Proof.Machine.execLawMin c d a b s
  | .lawMax c d a b => Sys2Proof.Machine.execLawMax c d a b s
  | .lawClamp c d a b => Sys2Proof.Machine.execLawClamp c d a b s
  | .lawAbs c d a => Sys2Proof.Machine.execLawAbs c d a s
  | .lawNeg c d a => Sys2Proof.Machine.execLawNeg c d a s
  | .lawMov c d a => Sys2Proof.Machine.execLawMov c d a s
  | .lawRcp c d a => Sys2Proof.Machine.execLawRcp c d a s
  | .lawRsq c d a => Sys2Proof.Machine.execLawRsq c d a s
  | .lawSlt c a b => Sys2Proof.Machine.execLawSlt c a b s
  | .lawSge c a b => Sys2Proof.Machine.execLawSge c a b s
  | .lawCmov c d a => Sys2Proof.Machine.execLawCmov c d a s
  | .lawPreset c d a => Sys2Proof.Machine.execLawPreset c d a s
  | .lawOut c => Sys2Proof.Machine.execLawOut c s
  | .lawEnd c => Sys2Proof.Machine.execLawEnd c s
  | .outputInstant c met => Sys2Proof.Machine.execOutputInstant c met s
  | .adiFrame a => Sys2Proof.Machine.execAdiFrame a s
  | .adiReturnFrame a w => Sys2Proof.Machine.execAdiReturnFrame a w s
  | .adiConfig a v => Sys2Proof.Machine.execAdiConfig a v s
  | .stateWrite c j v => Sys2Proof.Machine.execStateWrite c j v s
  | .seekGo a v => Sys2Proof.Machine.execSeekGo a v s
  | .ctxCommit c => Sys2Proof.Machine.execCtxCommit c s
  | .ctxEnable c v => Sys2Proof.Machine.execCtxEnable c v s
  | .load a v => Sys2Proof.Machine.execLoad a v s
  | .loadTimerTick x => Sys2Proof.Machine.execLoadTimerTick x s
  | .loadTimeout a => Sys2Proof.Machine.execLoadTimeout a s
  | .unload a v => Sys2Proof.Machine.execUnload a v s
  | .unloadTimeout a => Sys2Proof.Machine.execUnloadTimeout a s
  | .retract a v => Sys2Proof.Machine.execRetract a v s
  | .retractStatusTick a => Sys2Proof.Machine.execRetractStatusTick a s
  | .retractTimeout a => Sys2Proof.Machine.execRetractTimeout a s
  | .pwmPeriod x => Sys2Proof.Machine.execPwmPeriod x s
  | .spnDisable v => Sys2Proof.Machine.execSpnDisable v s
  | .spnReqWrite v => Sys2Proof.Machine.execSpnReqWrite v s
  | .ocCut code => Sys2Proof.Machine.execOcCut code s
  | .extFault => Sys2Proof.Machine.execExtFault s
  | .catchEnd u v w => Sys2Proof.Machine.execCatchEnd u v w s
  | .zvbrakeSliceEnd => Sys2Proof.Machine.execZvbrakeSliceEnd s
  | .zvbrakeObserveEnd u v w => Sys2Proof.Machine.execZvbrakeObserveEnd u v w s
  | .alignEnd => Sys2Proof.Machine.execAlignEnd s
  | .startTimeout => Sys2Proof.Machine.execStartTimeout s
  | .vmSample mv ma => Sys2Proof.Machine.execVmSample mv ma s
  | .chopClr v faultNow => Sys2Proof.Machine.execChopClr v faultNow s
  | .undervoltageTrigger => Sys2Proof.Machine.execUndervoltageTrigger s
  | .powerFail => Sys2Proof.Machine.execPowerFail s
  | .gosPut t x => Sys2Proof.Machine.execGosPut t x s
  | .gosGet t x => Sys2Proof.Machine.execGosGet t x s
  | .gosDelete t x => Sys2Proof.Machine.execGosDelete t x s
  | .stat t x => Sys2Proof.Machine.execStat t x s
  | .gosList t x => Sys2Proof.Machine.execGosList t x s
  | .retain t x => Sys2Proof.Machine.execRetain t x s
  | .versions t x => Sys2Proof.Machine.execVersions t x s
  | .fixity t x => Sys2Proof.Machine.execFixity t x s
  | .exportOpen t x => Sys2Proof.Machine.execExportOpen t x s
  | .exportRead t x => Sys2Proof.Machine.execExportRead t x s
  | .exportClose t x => Sys2Proof.Machine.execExportClose t x s
  | .exportTimeout => Sys2Proof.Machine.execExportTimeout s
  | .cairnWalk t x => Sys2Proof.Machine.execCairnWalk t x s
  | .nsCreate t x => Sys2Proof.Machine.execNsCreate t x s
  | .nsDelete t x => Sys2Proof.Machine.execNsDelete t x s
  | .nsQuery t x => Sys2Proof.Machine.execNsQuery t x s
  | .nsSet t x => Sys2Proof.Machine.execNsSet t x s
  | .store t x => Sys2Proof.Machine.execStore t x s
  | .retrieve t x => Sys2Proof.Machine.execRetrieve t x s
  | .kvDelete t x => Sys2Proof.Machine.execKvDelete t x s
  | .exist t x => Sys2Proof.Machine.execExist t x s
  | .kvList t x => Sys2Proof.Machine.execKvList t x s
  | .chunkCommit ns h k l => Sys2Proof.Machine.execChunkCommit ns h k l s
  | .commitTimeout ns h k u present => Sys2Proof.Machine.execCommitTimeout ns h k u present s
  | .getSlowShard t k j => Sys2Proof.Machine.execGetSlowShard t k j s
  | .sessionTimeout token => Sys2Proof.Machine.execSessionTimeout token s
  | .indexCheckpoint verified => Sys2Proof.Machine.execIndexCheckpoint verified s
  | .idxSearch c v => Sys2Proof.Machine.execIdxSearch c v s
  | .idxSearchDone c => Sys2Proof.Machine.execIdxSearchDone c s
  | .rclockWrite ag v => Sys2Proof.Machine.execRclockWrite ag v s
  | .rclockTick => Sys2Proof.Machine.execRclockTick s
  | .sqDoorbell n q v => Sys2Proof.Machine.execSqDoorbell n q v s
  | .cqHeadDoorbell n q v => Sys2Proof.Machine.execCqHeadDoorbell n q v s
  | .commandFetch e => Sys2Proof.Machine.execCommandFetch e s
  | .fastWrite t => Sys2Proof.Machine.execFastWrite t s
  | .fastWriteBucket t d => Sys2Proof.Machine.execFastWriteBucket t d s
  | .fastRead t => Sys2Proof.Machine.execFastRead t s
  | .completionPost ag p v => Sys2Proof.Machine.execCompletionPost ag p v s
  | .chargeAdjust ag p v => Sys2Proof.Machine.execChargeAdjust ag p v s
  | .gsPrep v => Sys2Proof.Machine.execGsPrep v s
  | .gsPrepDone dies page ppb bad rate => Sys2Proof.Machine.execGsPrepDone dies page ppb bad rate s
  | .swDump v => Sys2Proof.Machine.execSwDump v s
  | .dumpEnd lost => Sys2Proof.Machine.execDumpEnd lost s
  | .dumpAbandon => Sys2Proof.Machine.execDumpAbandon s
  | .gsRestore v => Sys2Proof.Machine.execGsRestore v s
  | .gsRestoreDone bad => Sys2Proof.Machine.execGsRestoreDone bad s
  | .nvmWrite t x => Sys2Proof.Machine.execNvmWrite t x s
  | .nvmRead t x => Sys2Proof.Machine.execNvmRead t x s
  | .nvmFlush t x => Sys2Proof.Machine.execNvmFlush t x s
  | .nvmCompare t x => Sys2Proof.Machine.execNvmCompare t x s
  | .writeZeroes t x => Sys2Proof.Machine.execWriteZeroes t x s
  | .datasetManagement t x => Sys2Proof.Machine.execDatasetManagement t x s
  | .nvmVerify t x => Sys2Proof.Machine.execNvmVerify t x s
  | .identify t x => Sys2Proof.Machine.execIdentify t x s
  | .getFeatures t x => Sys2Proof.Machine.execGetFeatures t x s
  | .setFeatures t x => Sys2Proof.Machine.execSetFeatures t x s
  | .getLogPage t x => Sys2Proof.Machine.execGetLogPage t x s
  | .createIoSq t => Sys2Proof.Machine.execCreateIoSq t s
  | .createIoCq t => Sys2Proof.Machine.execCreateIoCq t s
  | .deleteIoSq t => Sys2Proof.Machine.execDeleteIoSq t s
  | .deleteIoCq t => Sys2Proof.Machine.execDeleteIoCq t s
  | .nvmAbort t => Sys2Proof.Machine.execNvmAbort t s
  | .asynchronousEventRequest t => Sys2Proof.Machine.execAsynchronousEventRequest t s
  | .firmwareImageDownload t x => Sys2Proof.Machine.execFirmwareImageDownload t x s
  | .fwCommitCa0 t x => Sys2Proof.Machine.execFwCommitCa0 t x s
  | .fwCommitCa1 t x => Sys2Proof.Machine.execFwCommitCa1 t x s
  | .fwCommitCa2 t => Sys2Proof.Machine.execFwCommitCa2 t s
  | .fwCommitCa3 t x => Sys2Proof.Machine.execFwCommitCa3 t x s
  | .formatNvm t bands total => Sys2Proof.Machine.execFormatNvm t bands total s
  | .sanitizeCryptoErase t bands total => Sys2Proof.Machine.execSanitizeCryptoErase t bands total s
  | .sanitizeOverwrite t bands total => Sys2Proof.Machine.execSanitizeOverwrite t bands total s
  | .sanitizeBlockErase t => Sys2Proof.Machine.execSanitizeBlockErase t s
  | .perstAssert n => Sys2Proof.Machine.execPerstAssert n s
  | .perstRelease n => Sys2Proof.Machine.execPerstRelease n s
  | .cfgReadyTimeout n => Sys2Proof.Machine.execCfgReadyTimeout n s
  | .hotReset n => Sys2Proof.Machine.execHotReset n s
  | .flr n => Sys2Proof.Machine.execFlr n s
  | .controllerReset n => Sys2Proof.Machine.execControllerReset n s
  | .configRead n dw => Sys2Proof.Machine.execConfigRead n dw s
  | .configWrite n dw be v => Sys2Proof.Machine.execConfigWrite n dw be v s
  | .barRead n b off len => Sys2Proof.Machine.execBarRead n b off len s
  | .barWrite n b off d => Sys2Proof.Machine.execBarWrite n b off d s
  | .peerWindowRead n off q => Sys2Proof.Machine.execPeerWindowRead n off q s
  | .peerWindowWrite n off d ep => Sys2Proof.Machine.execPeerWindowWrite n off d ep s
  | .pwCommit n => Sys2Proof.Machine.execPwCommit n s
  | .completionReceived n tag st d ep => Sys2Proof.Machine.execCompletionReceived n tag st d ep s
  | .completionTimeout n tag => Sys2Proof.Machine.execCompletionTimeout n tag s
  | .tagQuarantineEnd n tag => Sys2Proof.Machine.execTagQuarantineEnd n tag s
  | .linkUp n speed x2 flit tags14 => Sys2Proof.Machine.execLinkUp n speed x2 flit tags14 s
  | .linkDown n => Sys2Proof.Machine.execLinkDown n s
  | .creditStall n => Sys2Proof.Machine.execCreditStall n s
  | .doeRequest n o => Sys2Proof.Machine.execDoeRequest n o s
  | .doeAbort n => Sys2Proof.Machine.execDoeAbort n s
  | .ltrWrite n v => Sys2Proof.Machine.execLtrWrite n v s
  | .sbOfferEast us => Sys2Proof.Machine.execSbOfferEast us s
  | .sbOfferWest us => Sys2Proof.Machine.execSbOfferWest us s
  | .offerForward => Sys2Proof.Machine.execOfferForward s
  | .sbWake x => Sys2Proof.Machine.execSbWake x s
  | .wakeForward => Sys2Proof.Machine.execWakeForward s
  | .sbWakeSend ag v => Sys2Proof.Machine.execSbWakeSend ag v s
  | .sidebandReset x => Sys2Proof.Machine.execSidebandReset x s
  | .sidebandResetSend ag v => Sys2Proof.Machine.execSidebandResetSend ag v s
  | .rollCall ag v => Sys2Proof.Machine.execRollCall ag v s
  | .rollCallWest => Sys2Proof.Machine.execRollCallWest s
  | .rollCallEnd stale => Sys2Proof.Machine.execRollCallEnd stale s
  | .flitLock z => Sys2Proof.Machine.execFlitLock z s
  | .trainingTimeout z => Sys2Proof.Machine.execTrainingTimeout z s
  | .authComplete z a => Sys2Proof.Machine.execAuthComplete z a s
  | .flitReceive z f chk => Sys2Proof.Machine.execFlitReceive z f chk s
  | .nakReceived z ack => Sys2Proof.Machine.execNakReceived z ack s
  | .replayTimeout z => Sys2Proof.Machine.execReplayTimeout z s
  | .portDown z => Sys2Proof.Machine.execPortDown z s
  | .portDegrade z stall => Sys2Proof.Machine.execPortDegrade z stall s
  | .rekey z sending => Sys2Proof.Machine.execRekey z sending s
  | .mwr z pk => Sys2Proof.Machine.execMwr z pk s
  | .mrd z pk => Sys2Proof.Machine.execMrd z pk s
  | .cplPkt z pk => Sys2Proof.Machine.execCplPkt z pk s
  | .msgPkt z pk => Sys2Proof.Machine.execMsgPkt z pk s
  | .dbell z pk => Sys2Proof.Machine.execDbell z pk s
  | .relayPkt z pk => Sys2Proof.Machine.execRelayPkt z pk s
  | .resetPkt z pk => Sys2Proof.Machine.execResetPkt z pk s
  | .ping z pk => Sys2Proof.Machine.execPing z pk s
  | .linkstate z pk => Sys2Proof.Machine.execLinkstate z pk s
  | .cscRequestTimeout tag => Sys2Proof.Machine.execCscRequestTimeout tag s
  | .pingTick stale => Sys2Proof.Machine.execPingTick stale s
  | .cscMsgSend ag n v => Sys2Proof.Machine.execCscMsgSend ag n v s
  | .cascadeResetSend ag v => Sys2Proof.Machine.execCascadeResetSend ag v s
  | .portRetry ag z v => Sys2Proof.Machine.execPortRetry ag z v s
  | .portRestore ag z v => Sys2Proof.Machine.execPortRestore ag z v s
  | .dramInit v => Sys2Proof.Machine.execDramInit v s
  | .dramInitDone ok => Sys2Proof.Machine.execDramInitDone ok s
  | .cacheFillDone bank => Sys2Proof.Machine.execCacheFillDone bank s
  | .writebackDrain => Sys2Proof.Machine.execWritebackDrain s
  | .wayPowerDown v => Sys2Proof.Machine.execWayPowerDown v s
  | .wayPairDone => Sys2Proof.Machine.execWayPairDone s
  | .wayPowerUp v => Sys2Proof.Machine.execWayPowerUp v s
  | .sweepStep id ix u u2 lap => Sys2Proof.Machine.execSweepStep id ix u u2 lap s
  | .refreshRateChange dev => Sys2Proof.Machine.execRefreshRateChange dev s
  | .dmaGo c v => Sys2Proof.Machine.execDmaGo c v s
  | .dmaKick c v => Sys2Proof.Machine.execDmaKick c v s
  | .dmaAbort c v atEnd => Sys2Proof.Machine.execDmaAbort c v atEnd s
  | .descriptorFetch c => Sys2Proof.Machine.execDescriptorFetch c s
  | .dmaBeat c => Sys2Proof.Machine.execDmaBeat c s
  | .indexedRequest m n => Sys2Proof.Machine.execIndexedRequest m n s
  | .descriptorEnd c => Sys2Proof.Machine.execDescriptorEnd c s
  | .rdptrWrite c v => Sys2Proof.Machine.execRdptrWrite c v s
  | .powerRequest v => Sys2Proof.Machine.execPowerRequest v s
  | .powerEntry wake => Sys2Proof.Machine.execPowerEntry wake s
  | .wake src => Sys2Proof.Machine.execWake src s
  | .kindling release straps => Sys2Proof.Machine.execKindling release straps s
  | .kindleTimeout => Sys2Proof.Machine.execKindleTimeout s
  | .kindleRetry => Sys2Proof.Machine.execKindleRetry s
  | .pwrGoodFall => Sys2Proof.Machine.execPwrGoodFall s
  | .porAssert => Sys2Proof.Machine.execPorAssert s
  | .warmReset v => Sys2Proof.Machine.execWarmReset v s
  | .resetRelease limit high identOk => Sys2Proof.Machine.execResetRelease limit high identOk s
  | .wdogEnable v => Sys2Proof.Machine.execWdogEnable v s
  | .wdogKick v => Sys2Proof.Machine.execWdogKick v s
  | .wdogExpiry => Sys2Proof.Machine.execWdogExpiry s
  | .boostChange => Sys2Proof.Machine.execBoostChange s
  | .xtalFail => Sys2Proof.Machine.execXtalFail s
  | .refLost => Sys2Proof.Machine.execRefLost s
  | .adcConversion raw => Sys2Proof.Machine.execAdcConversion raw s
  | .dieSample l => Sys2Proof.Machine.execDieSample l s
  | .sensorReadmit ch v => Sys2Proof.Machine.execSensorReadmit ch v s
  | .powerMeasure mw => Sys2Proof.Machine.execPowerMeasure mw s
  | .thermalTrip limit => Sys2Proof.Machine.execThermalTrip limit s
  | .tripRestart => Sys2Proof.Machine.execTripRestart s
  | .emberDs7Conversion t => Sys2Proof.Machine.execEmberDs7Conversion t s
  | .rtcTick => Sys2Proof.Machine.execRtcTick s
  | .rtcWrite v => Sys2Proof.Machine.execRtcWrite v s
  | .bootLoad x => Sys2Proof.Machine.execBootLoad x s
  | .imgVerify sg => Sys2Proof.Machine.execImgVerify sg s
  | .tokenCmd sg => Sys2Proof.Machine.execTokenCmd sg s
  | .provision => Sys2Proof.Machine.execProvision s
  | .seal => Sys2Proof.Machine.execSeal s
  | .returnPart => Sys2Proof.Machine.execReturnPart s
  | .svnAdvance => Sys2Proof.Machine.execSvnAdvance s
  | .mkGen => Sys2Proof.Machine.execMkGen s
  | .mkLoad => Sys2Proof.Machine.execMkLoad s
  | .mkClear => Sys2Proof.Machine.execMkClear s
  | .mkEpoch => Sys2Proof.Machine.execMkEpoch s
  | .mkEscrow seed => Sys2Proof.Machine.execMkEscrow seed s
  | .exportSign => Sys2Proof.Machine.execExportSign s
  | .exportCert c q => Sys2Proof.Machine.execExportCert c q s
  | .identCert c q => Sys2Proof.Machine.execIdentCert c q s
  | .secCmdDone => Sys2Proof.Machine.execSecCmdDone s
  | .secLockWrite v => Sys2Proof.Machine.execSecLockWrite v s
  | .dbgInfo ok => Sys2Proof.Machine.execDbgInfo ok s
  | .dbgToken ok tok sg => Sys2Proof.Machine.execDbgToken ok tok sg s
  | .dbgRd ok a w => Sys2Proof.Machine.execDbgRd ok a w s
  | .dbgWr ok a w v => Sys2Proof.Machine.execDbgWr ok a w v s
  | .dbgHalt ok p => Sys2Proof.Machine.execDbgHalt ok p s
  | .dbgRun ok p => Sys2Proof.Machine.execDbgRun ok p s
  | .dbgStep ok p => Sys2Proof.Machine.execDbgStep ok p s
  | .dbgGetreg ok p r => Sys2Proof.Machine.execDbgGetreg ok p r s
  | .dbgSetreg ok p r v => Sys2Proof.Machine.execDbgSetreg ok p r v s
  | .dbgLog ok => Sys2Proof.Machine.execDbgLog ok s
  | .tapReset => Sys2Proof.Machine.execTapReset s
  | .spdmGetVersion n => Sys2Proof.Machine.execSpdmGetVersion n s
  | .spdmGetCapabilities n => Sys2Proof.Machine.execSpdmGetCapabilities n s
  | .spdmNegotiateAlgorithms n => Sys2Proof.Machine.execSpdmNegotiateAlgorithms n s
  | .spdmGetDigests n chain => Sys2Proof.Machine.execSpdmGetDigests n chain s
  | .spdmGetCertificate n chain => Sys2Proof.Machine.execSpdmGetCertificate n chain s
  | .spdmChallenge n chain => Sys2Proof.Machine.execSpdmChallenge n chain s
  | .spdmGetMeasurements n => Sys2Proof.Machine.execSpdmGetMeasurements n s
  | .hybridMeasurements n => Sys2Proof.Machine.execHybridMeasurements n s
  | .hybridDicQChain n chain => Sys2Proof.Machine.execHybridDicQChain n chain s
  | .doeDiscovery n => Sys2Proof.Machine.execDoeDiscovery n s
  | .relayUnitCheck src u sg order => Sys2Proof.Machine.execRelayUnitCheck src u sg order s
  | .relayAck n ack written => Sys2Proof.Machine.execRelayAck n ack written s
  | .bootRelayRequest => Sys2Proof.Machine.execBootRelayRequest s
  | .bootRelayTimeout => Sys2Proof.Machine.execBootRelayTimeout s
  | .handoverActivate p at_ record => Sys2Proof.Machine.execHandoverActivate p at_ record s
  | .handoverReady n => Sys2Proof.Machine.execHandoverReady n s
  | .handoverTimeout => Sys2Proof.Machine.execHandoverTimeout s
  | .bootConfirm => Sys2Proof.Machine.execBootConfirm s
  | .evtPost p hi => Sys2Proof.Machine.execEvtPost p hi s
  | .evtCheckpoint v => Sys2Proof.Machine.execEvtCheckpoint v s
  | .summaryClear v => Sys2Proof.Machine.execSummaryClear v s
  | .patrolSlice => Sys2Proof.Machine.execPatrolSlice s
  | .patrolItemEnd ok again inst diff => Sys2Proof.Machine.execPatrolItemEnd ok again inst diff s
  | .bivouacEnter c => Sys2Proof.Machine.execBivouacEnter c s
  | .sysBivEnter v => Sys2Proof.Machine.execSysBivEnter v s
  | .gpioEdge n rise => Sys2Proof.Machine.execGpioEdge n rise s
  | .pwrGoodRise identOk => Sys2Proof.Machine.execPwrGoodRise identOk s
  | .emberSupplyUp => Sys2Proof.Machine.execEmberSupplyUp s
  | .cscTagQuarantineEnd tag => Sys2Proof.Machine.execCscTagQuarantineEnd tag s
  | .linkL1Entry n sub => Sys2Proof.Machine.execLinkL1Entry n sub s
  | .linkL1Exit n => Sys2Proof.Machine.execLinkL1Exit n s
  | .doeResponseReady n => Sys2Proof.Machine.execDoeResponseReady n s
  | .tapInstructionUpdate x => Sys2Proof.Machine.execTapInstructionUpdate x s

end Sys2Proof.Machine
end

