-- ==== Sys2Proof/Safety.lean ====
section
/-! DEFINITION. What a good state and a safe step are, and how far two states differ, in the terms the statements use. -/

namespace Sys2Proof.Machine

/-- The events on record are the blocks whose event is raised, so that no later rise can be missed or taken for one already
counted (R60); a message due waits only while its event is raised or its routing byte names a camp (R62). -/
def State.EventInv (s : State) : Prop :=
  s.evSeen.seen = s.risen ∧ ∀ d ∈ s.evSeen.due, d.1 ∈ s.risen ∨ s.routeMask d.1 ≠ 0

/-- A step that neither stops nor refuses. -/
def Goes (o : Out) : Prop := ∃ t, o = .next t

/-! ### Frames -/

/-- Every register of the register space but those at the offsets of `l` holds the same value in `t` as in `s`. -/
def RegsBut (s t : State) (l : List Nat) : Prop := ∀ o, o ∉ l → t.reg o = s.reg o

/-- Nothing differs but registers at the offsets of `l` and the record of the events whose message has been sent. -/
def OnlyRegs (s t : State) (l : List Nat) : Prop :=
  t = { s with regs := t.regs, evSeen := t.evSeen } ∧ RegsBut s t l

/-- Nothing differs but the record of the events whose message has been sent. -/
def Same (s t : State) : Prop := t = { s with evSeen := t.evSeen }

/-- Thread `p` is `th` in `t`; the other threads and everything else are as in `s`. -/
def OnlyThr (s t : State) (p : Nat) (th : Thread) : Prop :=
  t = { s with thrs := t.thrs, evSeen := t.evSeen } ∧ t.thr p = th ∧ ∀ q, q ≠ p → t.thr q = s.thr q

/-! ### Instruction issue -/

/-- Thread `p` fetches the word `w` in `s` (R42, R48, R63): it runs, the fetch raises no exception, and `u` is the state with
the word fetched. -/
def FetchesWord (s : State) (p : Thr) (w : W32) (u : State) : Prop :=
  s.canRun p = true ∧ (s.stepTaken p).fetchExc (s.thr p).pc = none ∧ (s.stepTaken p).fetch p (s.thr p).pc = (some w, u)

/-- Thread `p` fetches the instruction `i` in `s` (R31, R42, R48, R82): the word at its pc is the word of `i`, the first
microword is that of the ROM or a patch's own, and `f` is the state with both fetched. -/
def Fetches (s : State) (p : Thr) (i : Instr) (f : State) : Prop :=
  ∃ w u, instrWord i = some w ∧ FetchesWord s p w u ∧ u.romFetch p w = (.base, f)

/-- Thread `p` fetches the instruction `i` and no enabled interrupt is pending, so that the instruction's own effect is what
happens unless it meets an exception (R66, R67). -/
def Issues (s : State) (p : Thr) (i : Instr) (f : State) : Prop := Fetches s p i f ∧ f.irqNow p = false

/-- General register `r` of thread `p`. -/
def State.g (s : State) (p : Thr) (r : R5) : W64 := (s.thr p).getG r.toNat

/-- The state in which thread `p` has taken an exception in `f` (R65, R68): s.estat holds the old status, the status is PRIV
and EXL, s.epc, s.ecause and s.eaddr are written, the pc is the cause's vector, and nothing else changes. -/
def Enters (f t : State) (p : Thr) (cause trap : Nat) (epc eaddr : W64) : Prop :=
  OnlyThr f t p { f.thr p with
    estat := (f.thr p).status, status := 5, epc := epc, ecause := BitVec.ofNat 64 (cause + trap * 65536), eaddr := eaddr,
    wait := .none, pc := (f.thr p).vbase + BitVec.ofNat 64 ((cause - 1) * 64) }

/-- The immediate instructions of R33 with what they write into rd. -/
def immForms : List ((Thr → R5 → R5 → W16 → Instr) × (W64 → W16 → W64)) :=
  [(.addi, fun a i => a + i.signExtend 64), (.andi, fun a i => a &&& i.setWidth 64), (.ori, fun a i => a ||| i.setWidth 64),
   (.xori, fun a i => a ^^^ i.setWidth 64), (.ori16, fun a i => a ||| (i.setWidth 64 <<< 16)),
   (.ori32, fun a i => a ||| (i.setWidth 64 <<< 32)), (.ori48, fun a i => a ||| (i.setWidth 64 <<< 48))]

/-- The shifts by an immediate of R33 with what they write into rd. -/
def shiftForms : List ((Thr → R5 → R5 → W16 → Instr) × (W64 → Nat → W64)) :=
  [(.shli, fun a k => a <<< k), (.shri, fun a k => a >>> k), (.sari, fun a k => a.sshiftRight k)]

/-- The loads of R33: width in bytes, and whether they sign-extend. -/
def loadForms : List ((Thr → R5 → R5 → W16 → Instr) × Nat × Bool) :=
  [(.ld8u, 1, false), (.ld16u, 2, false), (.ld32u, 4, false), (fun p rd ra imm => .ld64 p rd ra imm 0, 8, false),
   (.ld8s, 1, true), (.ld16s, 2, true), (.ld32s, 4, true)]

/-- The stores of R33: width in bytes. -/
def storeForms : List ((Thr → R5 → R5 → W16 → Instr) × Nat) := [(.st8, 1), (.st16, 2), (.st32, 4), (.st64, 8)]

/-- A loaded value in a general register (R33). -/
def loaded (signed : Bool) (l : List W8) : W64 :=
  if signed then (BitVec.ofNat (8 * l.length) (ofLe l)).signExtend 64 else BitVec.ofNat 64 (ofLe l)

/-! ### Media channels -/

/-- Nothing differs but registers at the offsets of `l`, media channel `m` and the record of the events sent. -/
def MedOnly (s t : State) (m : Act) (l : List Nat) : Prop :=
  t = { s with regs := t.regs, med0 := t.med0, med1 := t.med1, evSeen := t.evSeen } ∧ t.med (1 - m.val) = s.med (1 - m.val) ∧
    RegsBut s t l

/-- Frames of the write path on the preamp interface, of (address, data, whether it carries HTR_W); address 0 suppresses one
(R162, R530). -/
def psiFrames (l : List (Nat × Nat × Bool)) : List PsiFrame :=
  (l.filter fun p => p.1 != 0).map fun p => ⟨false, p.1, p.2.1, true, p.2.2⟩

/-- The pin bits and counters that the end of a sector may touch (R124, R134). -/
def sectRegs (m : Act) : List Nat :=
  [Reg.MCA_STATUS m] ++ (List.range 7).map (Reg.MCA_CNT m) ++ (List.range 16).map (Reg.MCA_RET_SLOT_B m)

/-- A result record of R134 that names sector, status and tag. -/
def RecordOf (l : List W8) (cyl sect st idx : Nat) (tag : List W8) : Prop :=
  l.length = 64 ∧ leAt l 0 4 = cyl % 2 ^ 32 ∧ leAt l 4 2 = sect % 2 ^ 16 ∧ leAt l 7 1 = st ∧ leAt l 8 2 = idx % 2 ^ 16 ∧
    sliceB l 32 32 = tag

/-- Retention slot `k` holds the samples `l` of the three readers, and every SRAM byte outside it is as in `s` (R122). -/
def SlotHolds (s t : State) (m : Act) (k : Nat) (l : List W8) : Prop :=
  (∀ i, i < 110424 → t.sramByte (slotBase m k + i) = l.getD i 0) ∧
    ∀ a, (a < slotBase m k ∨ slotBase m k + 110424 ≤ a) → t.sramByte a = s.sramByte a

/-! ### Law programs of Guyline (R190 to R193) -/

/-- The register a law operand that may be written stands for (R191). -/
def lawReg (c d : Nat) : Nat := if d ≤ 0x3F then Reg.GYL_CTX_S c d else Reg.GYL_CTX_Y c (d - 0x90)

/-- The run goes on with the next word, F being `f`; a later word issues at a later cycle. -/
def LawRan (t : State) (r : GRun) (f : Bool) : Prop :=
  ∃ q, t.gylRun = some q ∧ q.ctx = r.ctx ∧ q.pc = r.pc + 1 ∧ q.words = r.words + 1 ∧ q.f = f ∧ (r.words ≠ 0 → r.cyc < q.cyc)

/-- Nothing differs but the run, register `d` of the context's operands, and its status register, which holds `stat`. -/
def LawWrote (s t : State) (c d : Nat) (stat : W32) : Prop :=
  t = { s with regs := t.regs, gylRun := t.gylRun, fresh := t.fresh, evSeen := t.evSeen } ∧
    t.reg (Reg.GYL_CTX_STAT c) = stat ∧ RegsBut s t [lawReg c d, Reg.GYL_CTX_STAT c]

/-- The law operations of three operands with their op and their exact result from d, a and b (R192). -/
def lawForms3 : List ((Ctx → W8 → W8 → W8 → Instr) × Nat × (Flt → Flt → Flt → Flt)) :=
  [(.lawAdd, 0x01, fun _ a b => a.add b), (.lawSub, 0x02, fun _ a b => a.add b.negate), (.lawMul, 0x03, fun _ a b => a.mul b),
   (.lawMac, 0x04, fun d a b => d.add (a.mul b)), (.lawMsc, 0x05, fun d a b => d.add (a.mul b).negate),
   (.lawMin, 0x06, fun _ a b => if b.lt a then b else a), (.lawMax, 0x07, fun _ a b => if a.lt b then b else a)]

/-- The law operations of two operands with a result without choice (R192). -/
def lawForms2 : List ((Ctx → W8 → W8 → Instr) × Nat × (Flt → Flt)) :=
  [(.lawAbs, 0x09, fun a => { a with neg := false }), (.lawNeg, 0x0A, fun a => a.negate), (.lawMov, 0x0B, fun a => a)]

/-- The comparisons of law programs with what F becomes (R192). -/
def lawCompares : List ((Ctx → W8 → W8 → Instr) × Nat × (W32 → W32 → Bool)) :=
  [(.lawSlt, 0x0E, fun a b => flt a b), (.lawSge, 0x0F, fun a b => fle b a)]

/-- A context has been triggered (R179, R196): it waits for its run with the given inputs i0 to i9 latched. -/
def Triggered (s t : State) (c : Nat) (ins : List W32) : Prop :=
  t.gc c = { s.gc c with frozen := none, due := true, lateNow := (t.gc c).lateNow } ∧
    (∀ j, j < 10 → t.reg (Reg.GYL_CTX_I c j) = ins.getD j 0) ∧ t.reg (Reg.GYL_CTX_I c 10) = (s.gc c).yprev ∧
    (t.reg (Reg.GYL_CTX_I c 11) = if (s.gc c).transfer then f1 else f0) ∧ ∀ j, 12 ≤ j → j < 16 → t.reg (Reg.GYL_CTX_I c j) = 0

/-- The input registers of a context. -/
def inRegs (c : Nat) : List Nat := (List.range 16).map (Reg.GYL_CTX_I c)

/-- A sample instant of actuator `a`, by a wedge or by the load timer, with no seek active or due, neither output due and both
contexts on: the supply is converted, PES and off-track are computed, write-unsafe asserts where R189 says so, and both contexts
wait for their runs, the microactuator's first (R179, R180, R186, R188, R189, R196, R202). -/
def SampleTaken (s t : State) (a : Act) (vm : W32) (timer : Bool) : Prop :=
  let x := s.gact a
  let pes := if x.valid then pesOf x.p1 x.f1 x.tcyl (s.reg (Reg.GYL_ACT_TGT_OFS a)) else x.pes
  let e := if s.rbit (Reg.GYL_ACT_CTRL a) 2 then fsub (fsub pes x.ref) x.rro else fsub pes x.ref
  t.reg Reg.GYL_VM = vm ∧ (t.gact a).pes = pes ∧ (t.gact a).eq = e ∧ (t.gact a).hold = false ∧
    t.rbit (Reg.GYL_ACT_QUAL a) 0 = (flt (s.reg (Reg.GYL_ACT_OTLIM a)) (fabs e) || !x.valid || !(s.acquired a)) ∧
    (flt (s.reg (Reg.GYL_ACT_WULIM a)) (fabs e) = true ∨ x.valid = false ∨ s.acquired a = false ∨ s.moving a = true ∨
      x.hold = true ∨ x.flt = true → t.rbit (Reg.GYL_ACT_QUAL a) 1 = true) ∧
    t.gylQ = [(s.now, mac a), (s.now, vcm a)] ∧
    (t.gylRun = s.gylRun.map fun r => if r.ctx = mac a ∨ r.ctx = vcm a then { r with stale := true } else r) ∧
    (∀ c ∈ [mac a, vcm a], (t.gc c).lateNow = false ∧ Triggered s t c [pes, s.reg (Reg.GYL_ACT_FRAC a), x.ref, x.vref, x.aref,
      t.sup, fdyad (s.gc c).sense.toInt (-17), x.rro, if x.valid && !timer then f1 else f0, f0]) ∧
    (∀ c, c ≠ mac a → c ≠ vcm a → t.gc c = s.gc c) ∧ t.gact (1 - a.val) = s.gact (1 - a.val) ∧
    t.med a = { s.med a with offSeen := (t.med a).offSeen } ∧ t.med (1 - a.val) = s.med (1 - a.val) ∧
    t = { s with
      regs := t.regs, gact0 := t.gact0, gact1 := t.gact1, gctx := t.gctx, gylQ := t.gylQ, gylRun := t.gylRun, med0 := t.med0
      med1 := t.med1, evSeen := t.evSeen } ∧
    RegsBut s t ([Reg.GYL_VM, Reg.GYL_ACT_QUAL a] ++ inRegs (mac a) ++ inRegs (vcm a))

/-- No seek is active or due, no frame of an earlier sample waits, and the contexts of `a` can take a sample. -/
def SampleReady (s : State) (a : Act) : Prop :=
  s.gylOn = true ∧ s.rbit (Reg.GYL_ACT_SEEK a) 0 = false ∧ (s.gact a).seek = false ∧ s.gylQ = [] ∧ (s.med a).gate = false ∧
    ∀ c ∈ [mac a, vcm a], s.ctxOn c = true ∧ (s.gc c).due = false ∧ s.rbit (Reg.GYL_CTX_COMMIT c) 0 = false

/-! ### NVMe commands that drive firmware serves -/

/-- Firmware has the command `c` of tag `g`; it has not been completed, and its controller was not reset (R290, R343). -/
def Served (s : State) (g : Tag) (c : NCmd) : Prop :=
  s.cmd? g.toNat = some c ∧ c.ph = .engine ∧ c.posted = false ∧ c.orphan = false

/-- Command `i` completes: exec answers `u` with the completion of `c` entered in its queue, status 0 (R291, R313). -/
def Ends (i : Instr) (s u : State) (c : NCmd) (dw0 dw1 : Nat) : Prop := exec i s = .next (u.complete c.tag dw0 dw1 0).settle

/-- Command `i` completes with a status (SCT, SC, DNR), which the Error Information log takes too with the byte offset `loc` of
the bad field, and DW0 (R313). -/
def Fails (i : Instr) (s u : State) (c : NCmd) (e : Nat × Nat × Nat) (dw0 lba : Nat) (loc : Nat := 0) : Prop :=
  exec i s = .next ((u.logNvme c (stField e.1 e.2.1 e.2.2) lba loc).complete c.tag dw0 0 (stField e.1 e.2.1 e.2.2)).settle

/-- The byte offset that a status of a gate enters in the Error Information log: FUSE, byte 1, for Invalid Field (R313). -/
def gateLoc (e : Nat × Nat × Nat) : Nat := if e.1 = 0 ∧ e.2.1 = 2 then 1 else 0

/-- The content of an LBA outside the directory. -/
def State.blkOf (s : State) (a : Nat) : List W8 := smGet (fun _ => zeroBlk) s.svc.blk a

/-- LBA `a` is in the range of `c`. -/
def NCmd.covers (c : NCmd) (a : Nat) : Prop := c.slba ≤ a ∧ a < c.slba + c.nlb

/-- The blocks of `c` hold `data`, charged, or on the media when written through (`thr`), and nothing else differs (R301 to
R305). -/
def PutBlocks (s u : State) (c : NCmd) (thr : Bool) (data : Nat → List W8) : Prop :=
  (∀ a, (c.covers a → u.blkOf a = data (a - c.slba)) ∧ (¬ c.covers a → u.blkOf a = s.blkOf a)) ∧
    (∀ a, (c.covers a → u.svc.vol.contains a = !thr) ∧ (¬ c.covers a → u.svc.vol.contains a = s.svc.vol.contains a)) ∧
    u.charge = (if thr then s.charge - (64 * c.nlb - s.putNeed c.slba c.nlb) else s.charge + s.putNeed c.slba c.nlb) ∧
    u = { s with svc := { s.svc with blk := u.svc.blk, vol := u.svc.vol }, regs := u.regs } ∧ RegsBut s u [Reg.NVI_GS_CHARGE]

/-- An admin command with its opcode, not fused (R288). -/
def Asked (s : State) (g : Tag) (c : NCmd) (opc : Nat) : Prop := Served s g c ∧ c.admin = true ∧ c.opc = opc ∧ c.fuse = 0

/-- A GOS command on the object namespace `n`, the index up, no earlier command on its object waiting, past its gate and well
formed, with its arguments (R276, R277, R281). -/
def Gos (s : State) (g : Tag) (x : CmdIn) (opc : Nat) (write : Bool) (c : NCmd) (n : Nat) (o : ObjNs) (a : GosArgs) : Prop :=
  Served s g c ∧ s.svc.index = true ∧ s.mustFollow c = false ∧ c.admin = false ∧ c.opc = opc ∧ s.nsOf c.nsid = some (n, o) ∧
    s.gosGate c x write = none ∧ gosShape c x = true ∧ a = gosArgs c x

/-- A Key Value command on a namespace of that command set, the index up, no earlier command on its object waiting, past its
gate (R281, R282). -/
def Kv (s : State) (g : Tag) (x : CmdIn) (opc : Nat) (write value : Bool) (c : NCmd) (n : Nat) (o : ObjNs) : Prop :=
  Served s g c ∧ s.svc.index = true ∧ s.mustFollow c = false ∧ c.admin = false ∧ c.opc = opc ∧ s.cmdClass c = 2 ∧
    s.nsOf c.nsid = some (n, o) ∧ s.gosGate c x write = none ∧
    dCsi o.desc = 1 ∧ kvRefuse c value = none

/-- An admin command on namespaces, the index up, past its gate and well formed (R243, R276, R277). -/
def NsAsked (s : State) (g : Tag) (x : CmdIn) (opc : Nat) (write : Bool) (c : NCmd) : Prop :=
  Served s g c ∧ s.svc.index = true ∧ c.admin = true ∧ c.opc = opc ∧ s.gosGate c x write = none ∧ gosShape c x = true

/-- Nothing but the service's content and the charge differs. -/
def OnlySvc (s u : State) : Prop := u = { s with svc := u.svc, regs := u.regs } ∧ RegsBut s u [Reg.NVI_GS_CHARGE]

/-- Nothing but the service's content, the charge, and shards sent to their units differs. -/
def SvcSends (s u : State) : Prop :=
  (∃ ev : List (Nat × List (List W8 × List W8)),
    u = { s with svc := u.svc, regs := u.regs, out := s.out ++ ev.map fun p => OutEvent.shardWrite p.1 p.2 }) ∧
    RegsBut s u [Reg.NVI_GS_CHARGE]

/-- `w` is the version `v` with its record changed as `f` says, its metadata chunk on the units `us`: a chunk that is on the
media is written again under the next generation with the new record (R247, R252, R257). -/
def Rerecorded (s : State) (o : ObjNs) (v w : Ver) (us : List Nat × Bool) (f : Ver → Ver) : Prop :=
  w = { f v with
    units := us.1, under := us.2, gen := v.gen + b2n v.metaC.isSome, metaC := w.metaC,
    metaDone := v.metaDone && v.metaC.isNone, put := if v.metaDone then s.nvq.seq else v.put } ∧
    w.metaC.isSome = v.metaC.isSome ∧ ∀ k, w.metaC = some k → k.data = verRecord o w ∧ k.committed = false ∧ k.units = us.1

/-- `w` in place of the version with `v`'s namespace and handle, the others as they are. -/
def swapVer (l : List Ver) (v w : Ver) : List Ver := l.map fun y => if y.ns == v.ns && y.handle == v.handle then w else y

/-! ### PCIe ports -/

/-- The function of port `n` after a reset (R342, R343): no queues, the controller disabled, the double words of configuration
space that `keep` does not name at their defaults, no interrupt pending, an empty DOE mailbox, BAR4 of 64 MiB, no image. -/
def FnReset (t : State) (n : HPort) (keep : Nat → Bool) : Prop :=
  (∀ k, k / 256 = n → t.sq k = none ∧ t.cq k = none) ∧ (t.ctl n).cc = 0 ∧ (t.ctl n).rdy = false ∧
    (∀ o, keep o = false → t.cfg n o = cfgDflt o) ∧ (t.hp n).msix = [] ∧ (t.hp n).pba = [] ∧ (t.hp n).msiPend = [] ∧
    (t.hp n).doe = HifP.reset.doe ∧ t.fld (Reg.HIF_PORT_PW_SIZE n) 0 14 = 64 ∧ t.fw.img = []

/-- The function of port `n` holds no command and no request, and no INTx. -/
def Quiet (s : State) (n : HPort) : Prop := (∀ c ∈ s.nvq.cmds, c.ctrl ≠ n.val) ∧ (s.hp n).reqs = [] ∧ (s.hp n).inta = false

/-- What the reset of the quiet function `n` leaves as it was: everything but its queues, its controller, its port, the image
under way and registers at the offsets of `l`; the double words that `keep` names stay. -/
def FnOnly (s t : State) (n : HPort) (keep : Nat → Bool) (l : List Nat) : Prop :=
  t = { s with
    regs := t.regs, hif0 := t.hif0, hif1 := t.hif1,
    nvq := { s.nvq with sqs := t.nvq.sqs, cqs := t.nvq.cqs, c0 := t.nvq.c0, c1 := t.nvq.c1 },
    fw := { s.fw with img := [], commit := t.fw.commit, relays := [] }, evSeen := t.evSeen } ∧
  t.hp (1 - n.val) = s.hp (1 - n.val) ∧ t.ctl (1 - n.val) = s.ctl (1 - n.val) ∧
  t.nvq.sqs = s.nvq.sqs.filter (fun e => e.1 / 256 != n.val) ∧ t.nvq.cqs = s.nvq.cqs.filter (fun e => e.1 / 256 != n.val) ∧
  (t.hp n).cfg = (s.hp n).cfg.filter (fun e => keep e.1) ∧ (t.ctl n).errlog = (s.ctl n).errlog ∧ RegsBut s t l

/-- Nothing differs but port `n`, registers at the offsets of `l` and the outputs `o` appended. -/
def PortOnly (s t : State) (n : HPort) (o : List OutEvent) (l : List Nat) : Prop :=
  t = { s with regs := t.regs, hif0 := t.hif0, hif1 := t.hif1, out := s.out ++ o, rdata := t.rdata, evSeen := t.evSeen } ∧
    t.hp (1 - n.val) = s.hp (1 - n.val) ∧ RegsBut s t l

/-! ### Resets, power states and temperatures -/

/-- The tables of registers and of memory bytes are in their canonical form: strictly rising keys and, where unlisted keys
have a value of their own, no entry equal to it. -/
def Canon (s : State) : Prop := smWf regResetVal s.regs = true ∧ Memory.wf s.mem = true

/-- Registers that a start of the part sets itself (R12, R429, R451, R453). -/
def startRegs : List Nat :=
  [Reg.SYS_ROLE, Reg.SYS_RST_CAUSE, Reg.SEC_LC, Reg.SEC_SVN, Reg.SEC_STATUS] ++ (List.range 8).map Reg.SEC_NONCE ++
    (List.range 6).map Reg.SYS_CAMP_RUN

/-- What a reset of column `sc` leaves in `t` of the part as it was in `s` (R428, R429): threads, queues, channels and engines at
their reset states; what is stored on media, in the vault and in NOR; registers as R429 says; DRAM lost, or cleaned and kept.
`id` says that the identity check passed. -/
def ResetLeaves (s t : State) (sc : Scope) (id : Bool) : Prop :=
  (t.thr 160).pc = 0x010000280000 ∧ (∀ p, p ≠ 160 → t.thr p = Thread.reset) ∧ (∀ c, t.queue c = []) ∧
    t.evSeen.seen = t.risen ∧ (∀ d ∈ t.evSeen.due, d.1 ∈ t.risen) ∧
    t.nvq = Nvq.reset ∧ t.med0 = Med.reset ∧ t.med1 = Med.reset ∧ t.ucs = Ucs.reset ∧ t.spn = Spn.reset ∧ t.gylRun = none ∧
    t.svc.blk = s.svc.blk ∧ t.svc.vers = s.svc.vers ∧ t.svc.nss = s.svc.nss ∧ t.fw.nor = s.fw.nor ∧ t.gs.img0 = s.gs.img0 ∧
    t.gs.img1 = s.gs.img1 ∧ t.gs.dump = none ∧ t.pending = s.pending ∧
    (∀ o, o ∉ startRegs → (o / 0x10000 = 4 → id = true) →
      (Canon s → t.reg o = regAfter sc o (s.reg o)) ∧
      (sc.cold = true → o / 0x10000 ≠ 1 → o ≠ Reg.SYS_STRAP → t.reg o = regResetVal o)) ∧
    (Canon s → ∀ o, t.sramByte o = if sramKeeps sc o then s.sramByte o else sramDflt o) ∧
    (sc.cold = true → t.mem.dram = [] ∧ t.mem.lines = [] ∧ t.mem.ready = false) ∧
    (sc.cold = false → t.mem.selfRef = true ∧ t.mem.lines = [] ∧
      ∃ u : State, u.mem = s.mem ∧ u.regs = s.regs ∧ t.mem.dram = u.cleanCache.mem.dram)

/-- Nothing differs but registers at the offsets of `l` and the power part, which is `p`. -/
def OnlyPwr (s t : State) (p : Pwr) (l : List Nat) : Prop :=
  t = { s with regs := t.regs, pwr := p, evSeen := t.evSeen } ∧ RegsBut s t l

/-! ### Ranger and the debug ports -/

/-- Ranger's command `c` of this code runs, has no result yet, is the oldest of what waits for Ranger, and its block of 64 bytes
reads as `b`, which leaves `u` (R461). -/
def SecBlock (s : State) (code : Nat) (c : SecCmd) (b : List W8) (u : State) : Prop :=
  s.sec.cmd = some c ∧ c.code = code ∧ c.result = none ∧ s.rangerTurn c.seq = true ∧ s.secRead c.addr 64 = (some b, u)

/-- Command `i` completes: exec answers `u` with Ranger's command `c` at its result `r`. -/
def Gives (i : Instr) (s u : State) (c : SecCmd) (r : Nat) : Prop :=
  exec i s = .next ({ u with sec := { u.sec with cmd := some { c with result := some r } } }).settle

/-- BUF, ARG0 of a command block. -/
def blkBuf (b : List W8) : Nat := leAt b 0 8
def blkArg0 (b : List W8) : Nat := leAt b 12 4

/-- Nothing differs but Ranger's state and registers at the offsets of `l`. -/
def OnlySec (s u : State) (l : List Nat) : Prop := u = { s with regs := u.regs, sec := u.sec } ∧ RegsBut s u l

/-- The bytes `l` stand at BUF and their number in OUTLEN (R461). -/
def OutAt (v u : State) (c : SecCmd) (buf : Nat) (l : List W8) : Prop :=
  u.mem = ((v.memWrite buf l).memWrite (c.addr + 20) (leBytes 4 l.length)).mem

/-- The next object in the mailbox of port `n` is `o`, of this protocol, the oldest of what waits for Ranger, and no response is
under way (R349, R461). -/
def DoeAsks (s : State) (n : HPort) (vendor type : Nat) (o : List W32) (rest : List (Nat × List W32)) : Prop :=
  s.portLive n = true ∧ (∃ k, (s.doe n).wait = (k, o) :: rest ∧ s.rangerTurn k = true) ∧ (s.doe n).prep = [] ∧ (s.doe n).resp = [] ∧ doeProto o = (vendor, type)

/-- Command `i` completes: Ranger works on the response with this payload, and nothing else differs. -/
def DoeAnswers (i : Instr) (s : State) (n : HPort) (vendor type : Nat) (rest : List (Nat × List W32)) (p : List W8) : Prop :=
  ∃ t, exec i s = .next t ∧ t = { s with hif0 := t.hif0, hif1 := t.hif1, fresh := t.fresh, evSeen := t.evSeen } ∧
    t.hp (1 - n.val) = s.hp (1 - n.val) ∧
    t.hp n = { s.hp n with doe := { s.doe n with wait := rest, prep := doeWrap vendor type p } }

/-- Command `i` completes: the debug port answers `u` with a status and data (R464). -/
def DbgAnswers (i : Instr) (s u : State) (status : Nat) (data : List W8) : Prop :=
  exec i s = .next ({ u with out := u.out ++ [OutEvent.dbg status data] }).settle

/-! ### The cascade -/

/-- Nothing differs but the cascade controller, registers at the offsets of `l`, and the outputs `o` appended. -/
def OnlyCsc (s t : State) (o : List OutEvent) (l : List Nat) : Prop :=
  t = { s with regs := t.regs, csc := t.csc, out := s.out ++ o, evSeen := t.evSeen } ∧ RegsBut s t l

/-- An unsequenced flit of port `z` after `u`: it acknowledges the last flit received in order and carries the next SEQ; the
sequence numbers and the replay buffer stand (R358, R359). -/
def SendsUnseq (u t : State) (z : ZPort) (ty : FlitType) : Prop :=
  ∃ f : Flit, t.out = u.out ++ [OutEvent.zFlit (z == 1) f] ∧ f.type = ty ∧ f.seq = BitVec.ofNat 10 (u.link z).txSeq ∧
    f.ack = BitVec.ofNat 10 ((u.link z).rxSeq + 1023) ∧ (t.link z).replay = (u.link z).replay ∧
    (u.keyed z = false → f.check = crc64 (flitBody f)) ∧ (t.link z).txSeq = (u.link z).txSeq ∧ (t.link z).rxSeq = (u.link z).rxSeq

/-- Port `z` has gone DOWN and, while enabled, trains again; a segment that was usable no longer is (R361, R372). -/
def LinkDown (s t : State) (z : ZPort) : Prop :=
  t.zState z = (if s.rbit Reg.CSC_CTRL (1 + z.val) then 1 else 6) ∧ t.link z = ZLink.reset ∧
    (s.zState z = 3 → t.segUsable (s.segOf z) = false)

/-- Command `i` resends what the link `k` of port `z` has not had acknowledged (R359, R361). -/
def Resends (i : Instr) (s : State) (z : ZPort) (k : ZLink) : Prop :=
  (k.replay = [] → ∃ t, exec i s = .next t ∧ OnlyCsc s t [] [] ∧ t.csc = (s.setLink z k).csc) ∧
    (k.replay ≠ [] → k.resends < 4 → ∃ t, exec i s = .next t ∧
      OnlyCsc s t (k.replay.map fun f => OutEvent.zFlit (z == 1) f) [Reg.CSC_PORT_CNT z 1] ∧
      t.csc = (s.setLink z { k with resends := k.resends + 1 }).csc ∧
      t.fld (Reg.CSC_PORT_CNT z 1) 0 32 = min (s.fld (Reg.CSC_PORT_CNT z 1) 0 32 + 1) (2 ^ 32 - 1)) ∧
    (k.replay ≠ [] → 4 ≤ k.resends → s.csc.reqs = [] → ∃ t, exec i s = .next t ∧ LinkDown s t z)

/-- Packet `pk` of KIND `kind` is taken up from the UP port `z`: it is next in its order, and `u` is the state without it
(R366, R368). -/
def Takes (s u : State) (z : ZPort) (kind : Nat) (pk : Packet) : Prop :=
  pk.kind.toNat = kind ∧ s.rbit Reg.CSC_CTRL 0 = true ∧ s.zState z = 3 ∧ s.mayTake z pk = true ∧ u = s.takePkt z pk

/-- As `Takes`, and the packet is well-formed and for this part. -/
def Meets (s u : State) (z : ZPort) (kind : Nat) (pk : Packet) : Prop :=
  Takes s u z kind pk ∧ u.malformed z pk = false ∧ (kind = 9 ∨ pk.dst.toNat = u.pos)

/-- Command `i` completes with `w`; credits owed go back by an IDLE flit (R358). -/
def Acts (i : Instr) (s w : State) (z : ZPort) : Prop := exec i s = .next (w.idleFlit z).settle

end Sys2Proof.Machine
end

