-- ==== Sys2Proof/Certificates/Slice0/Obligations.lean ====
section
/-! DEFINITION. The statements about the model, for the provers. Every state and operand is quantified; hypotheses are on the
state and the operands alone. -/

section
open Sys2Proof Sys2Proof.Machine

/-- A step takes the command at the front of the queue and runs it with the rest of the queue; with none waiting one REF50
period of 20 ns passes (the model's choice, log entry 2): time and the cycle counters of running threads advance (R30, R417,
R419). -/
def Obligations.StepRunsFrontCommand : Prop :=
  (∀ (c : Instr) (s : State) (rest : List Instr), s.pending = c :: rest →
    Sys2Proof.Machine.step s = exec c { s with pending := rest }) ∧
  ∀ s : State, s.pending = [] → ∃ t, Sys2Proof.Machine.step s = .next t ∧
    let c := if 2 ≤ s.pwr.st then 0 else if s.rbit Reg.SYS_CLK 1 then 32 else 28
    t = { s with now := s.now + 1, cyc := s.cyc + c, thrs := t.thrs } ∧
    (∀ p, p < 192 → s.runBit p = true → t.thr p = { s.thr p with cycle := ((s.thr p).cycle + c) % 2 ^ 64 }) ∧
    ∀ p, (192 ≤ p ∨ s.runBit p = false) → t.thr p = s.thr p

/-- No command stops the block: exec answers a next state for every well-formed command in every state, and the fault for
operands that stand for nothing (R122, R146, R148, R228). -/
def Obligations.EveryWellFormedCommandCompletes : Prop :=
  ∀ (i : Instr) (s : State),
    (i.wf = true → ∃ t, exec i s = .next t) ∧
    (i.wf = false → ∃ w, exec i s = .fault (.illFormed w))

/-- The record of raised events is exact through every step, and a message due is one still raised or routed (R24, R60 to R62). -/
def Obligations.SentEventsStayRaised : Prop :=
  ∀ s t : State, s.EventInv → Sys2Proof.Machine.step s = .next t → t.EventInv

/-- Canonical tables through every step (R18, R19, R379, R398, R429). -/
def Obligations.TablesStayCanonical : Prop :=
  ∀ s t : State, Canon s → Sys2Proof.Machine.step s = .next t → Canon t

/-- Reset (R7, R20, R28, R30, R453; strap values: log entry 1). -/
def Obligations.ResetStateIsAsTabled : Prop :=
  State.reset.pending = [] ∧ (∀ o, State.reset.reg o = regResetVal o) ∧ (∀ o, State.reset.act o = regResetVal o) ∧
    (State.reset.thr 160).pc = 0x010000280000 ∧ (∀ p, p ≠ 160 → State.reset.thr p = Thread.reset) ∧
    (∀ c, State.reset.queue c = []) ∧ State.reset.evSeen = ⟨[], []⟩ ∧ State.reset.EventInv ∧ Canon State.reset

/-- The instruction cache (R31, R42, R48, R55): hits leave the state alone, misses read the line and fill the set (a line with an
uncorrectable word is not kept: the model's choice, log entry 77). -/
def Obligations.InstructionFetchUsesTheCache : Prop :=
  ∀ (s : State) (p : Thr) (pc : W64),
    let a := pc.toNat
    let k := p.val / 4 * 128 + a / 64 % 128
    (∀ ws, s.icLine p a = some ws → s.fetch p pc = (some (ws.getD (a % 64 / 4) 0), s)) ∧
    (s.icLine p a = none →
      let r := s.readLine (a / 64 * 64) 8
      (r.2.1.getD (a % 64 / 8) false = true → s.fetch p pc = (none, r.2.2)) ∧
      (r.2.1.getD (a % 64 / 8) false = false →
        ∃ f, s.fetch p pc = (some (r.1.getD (a % 64 / 4) 0), f) ∧
          ((∃ b ∈ r.2.1, b = true) → f = r.2.2) ∧
          ((∀ b ∈ r.2.1, b = false) → f.icLine p a = some r.1 ∧
            ((s.icSet k).length ≤ 2 → (f.icSet k).length ≤ 2) ∧ (∀ j, j ≠ k → f.icSet j = s.icSet j) ∧
            f = { r.2.2 with ic := f.ic, fresh := f.fresh })))

/-- ALU, CMP, CMPI and PRED (R34, R36, R37) with their frame. -/
def Obligations.AluCompareAndPredicateWriteOneRegister : Prop :=
  ∀ (s f : State) (p : Thr) (rd ra rb : R5) (fn : F11) (imm : W16),
    (∀ v, Issues s p (.alu p rd ra rb fn) f → aluResult (f.thr p) fn.toNat (f.g p ra) (f.g p rb) = some v →
      ∃ t, exec (.alu p rd ra rb fn) s = .next t ∧
        OnlyThr { f with divFree := t.divFree } t p ((f.thr p).setG rd.toNat v).adv ∧
        (fn.toNat / 4 ≠ 9 → t.divFree = f.divFree) ∧
        ∀ e, e ≠ p.val / 4 → smFind t.divFree e = smFind f.divFree e) ∧
    (∀ b, Issues s p (.cmp p rd ra rb fn) f → rd.toNat < 8 → cmpFn fn.toNat (f.g p ra) (f.g p rb) = some b →
      ∃ t, exec (.cmp p rd ra rb fn) s = .next t ∧ OnlyThr f t p ((f.thr p).setP rd.toNat b).adv) ∧
    (Issues s p (.cmpi p rd ra imm) f → ∃ t, exec (.cmpi p rd ra imm) s = .next t ∧
      OnlyThr f t p ((f.thr p).setP (rd.toNat % 8) (cmpiTest (rd.toNat / 8) (f.g p ra) (imm.signExtend 64))).adv) ∧
    (∀ b, Issues s p (.pred p rd ra rb fn) f → rd.toNat < 8 → ra.toNat < 8 → rb.toNat < 8 →
      predFn fn.toNat ((f.thr p).getP ra.toNat) ((f.thr p).getP rb.toNat) = some b →
      ∃ t, exec (.pred p rd ra rb fn) s = .next t ∧ OnlyThr f t p ((f.thr p).setP rd.toNat b).adv)

/-- R35 on DIV (0x024), DIVU (0x025), REM (0x026) and REMU (0x027). -/
def Obligations.DivisionNeverRaisesAnException : Prop :=
  ∀ (s f : State) (p : Thr) (rd ra rb : R5) (fn : F11), fn ∈ [(0x024 : F11), 0x025, 0x026, 0x027] →
    Issues s p (.alu p rd ra rb fn) f →
    ∃ v t, exec (.alu p rd ra rb fn) s = .next t ∧
      OnlyThr { f with divFree := t.divFree } t p ((f.thr p).setG rd.toNat v).adv ∧
      smFind t.divFree (p.val / 4) = some (max f.cyc ((smFind f.divFree (p.val / 4)).getD 0) + 34) ∧
      (f.g p rb = 0 → (fn = 0x024 ∨ fn = 0x025 → v = -1) ∧ (fn = 0x026 ∨ fn = 0x027 → v = f.g p ra)) ∧
      (f.g p ra = BitVec.ofInt 64 (-(2 ^ 63)) → f.g p rb = -1 →
        (fn = 0x024 → v = BitVec.ofInt 64 (-(2 ^ 63))) ∧ (fn = 0x026 → v = 0))

/-- The immediate instructions of R33 and the bit-field instructions of R38, bit by bit, with their frame. -/
def Obligations.ImmediateAndFieldInstructionsWriteRd : Prop :=
  ∀ (s f : State) (p : Thr) (rd ra : R5) (imm : W16),
    (∀ e ∈ immForms, Issues s p (e.1 p rd ra imm) f → ∃ t, exec (e.1 p rd ra imm) s = .next t ∧
      OnlyThr f t p ((f.thr p).setG rd.toNat (e.2 (f.g p ra) imm)).adv) ∧
    (imm.toNat < 64 → ∀ e ∈ shiftForms, Issues s p (e.1 p rd ra imm) f → ∃ t, exec (e.1 p rd ra imm) s = .next t ∧
      OnlyThr f t p ((f.thr p).setG rd.toNat (e.2 (f.g p ra) imm.toNat)).adv) ∧
    (imm.toNat < 4096 →
      let lo := imm.toNat % 64
      let w := imm.toNat / 64 + 1
      (Issues s p (.extu p rd ra imm) f → ∃ t v, exec (.extu p rd ra imm) s = .next t ∧
        OnlyThr f t p ((f.thr p).setG rd.toNat v).adv ∧
        ∀ j, j < 64 → v.getLsbD j = (decide (j < w) && (f.g p ra).getLsbD (lo + j))) ∧
      (Issues s p (.exts p rd ra imm) f → ∃ t v, exec (.exts p rd ra imm) s = .next t ∧
        OnlyThr f t p ((f.thr p).setG rd.toNat v).adv ∧
        ∀ j, j < 64 → v.getLsbD j = (f.g p ra).getLsbD (lo + min j (w - 1))) ∧
      (Issues s p (.ins p rd ra imm) f → ∃ t v, exec (.ins p rd ra imm) s = .next t ∧
        OnlyThr f t p ((f.thr p).setG rd.toNat v).adv ∧
        ∀ j, j < 64 → v.getLsbD j =
          if lo ≤ j ∧ j < lo + w then (f.g p ra).getLsbD (j - lo) else (f.g p rd).getLsbD j))

/-- LD8U to LD64 and LD8S to LD32S (R33) on memory and on the register space, with the frame and the memory error. -/
def Obligations.LoadsReadTheirBytes : Prop :=
  ∀ (s f : State) (p : Thr) (rd ra : R5) (imm : W16), ∀ e ∈ loadForms, Issues s p (e.1 p rd ra imm) f →
    let ea := f.g p ra + imm.signExtend 64
    f.accessExc p ea e.2.1 = none →
    (∀ a, (f.resolve ea = .dram a ∨ ∃ o, f.resolve ea = .sram o ∧ a = 0x010000000000 + o) →
      let r := f.memRead a e.2.1
      (r.2.1 = false → ∃ t, exec (e.1 p rd ra imm) s = .next t ∧
        OnlyThr r.2.2 t p ((r.2.2.thr p).setG rd.toNat (loaded e.2.2 r.1)).adv) ∧
      (r.2.1 = true → (r.2.2.thr p).status.getLsbD 2 = false → ∃ t, exec (e.1 p rd ra imm) s = .next t ∧
        Enters r.2.2 t p 5 0 (r.2.2.thr p).pc ea)) ∧
    (∀ o, f.resolve ea = .reg o →
      (e.2.1 = 4 → o % 4 = 0 → ∃ t, exec (e.1 p rd ra imm) s = .next t ∧
        let r := f.regRead (.thread p) o 0
        OnlyThr r.2 t p ((r.2.thr p).setG rd.toNat (loaded e.2.2 (leBytes 4 r.1.toNat))).adv) ∧
      ((e.2.1 ≠ 4 ∨ o % 4 ≠ 0) → ∃ t, exec (e.1 p rd ra imm) s = .next t ∧
        OnlyThr f t p ((f.thr p).setG rd.toNat 0).adv))

/-- ST8 to ST64 (R33) into SRAM and DRAM: which bytes change and which do not. -/
def Obligations.StoresWriteTheirBytes : Prop :=
  ∀ (s f : State) (p : Thr) (rd ra : R5) (imm : W16), ∀ e ∈ storeForms, Issues s p (e.1 p rd ra imm) f →
    let ea := f.g p ra + imm.signExtend 64
    f.accessExc p ea e.2 = none →
    (∀ o, f.resolve ea = .sram o → o < 0x500000 → diagnose (f.sramWord (o / 8)).syn = .good →
      ∃ t, exec (e.1 p rd ra imm) s = .next t ∧ t.thr p = (f.thr p).adv ∧ (∀ q, q ≠ p.val → t.thr q = f.thr q) ∧
        t = { f with thrs := t.thrs, evSeen := t.evSeen,
                     mem := { f.mem with sram := t.mem.sram, sramSyn := t.mem.sramSyn } } ∧
        (∀ i, i < e.2 → t.sramByte (o + i) = (leBytes e.2 (f.g p rd).toNat).getD i 0) ∧
        ∀ b, (b < o ∨ o + e.2 ≤ b) → t.sramByte b = f.sramByte b) ∧
    (∀ o, f.resolve ea = .sram o → 0x500000 ≤ o →
      ∃ t, exec (e.1 p rd ra imm) s = .next t ∧ OnlyThr f t p (f.thr p).adv) ∧
    (∀ a, f.resolve ea = .dram a → f.mem.ready = true →
      ∃ t, exec (e.1 p rd ra imm) s = .next t ∧ t.thr p = (f.thr p).adv ∧
        (∀ i, i < e.2 → t.dramByteAt (a + i) = (leBytes e.2 (f.g p rd).toNat).getD i 0) ∧
        ((f.inSet (a / 64)).isSome = true → smFind f.mem.miss (lineBank (a / 64)) = none → f.inWb (a / 64) = none →
          (smFind f.mem.cw (a / 8)).all (fun c => diagnose c.syn = .good) = true →
          ∀ b, (b < a ∨ a + e.2 ≤ b) → t.dramByteAt b = f.dramByteAt b))

/-- AMO (R49) and CAS (R50): one read and one write with nothing in between, and the wait of R51. -/
def Obligations.AtomicsReadAndWriteAtOnce : Prop :=
  ∀ (s f : State) (p : Thr) (rd ra rb : R5) (fn : F11) (w32 : Bool),
    let n := if w32 then 4 else 8
    let ea := f.g p ra
    let a := (f.resolve ea).localAddr
    let r := f.memRead a n
    let old : W64 := BitVec.ofNat 64 (ofLe r.1)
    f.amoExc p ea n = none →
    (Issues s p (.amo p rd ra rb fn) f → fn.toNat < 32 → fn.toNat % 16 < 9 → w32 = decide (fn.toNat / 16 = 1) →
      (f.fenceBusy p = true → ∃ t, exec (.amo p rd ra rb fn) s = .next t ∧
        OnlyThr f t p { f.thr p with wait := .fence false false }) ∧
      (f.fenceBusy p = false → r.2.1 = false →
        ∃ v t, (if w32 then (amoFn32 (fn.toNat % 16) (old.setWidth 32) ((f.g p rb).setWidth 32)).map (BitVec.setWidth 64)
            else amoFn (fn.toNat % 16) old (f.g p rb)) = some v ∧
          exec (.amo p rd ra rb fn) s = .next t ∧
          let m := r.2.2.memWrite a (leBytes n v.toNat)
          OnlyThr m t p ((m.thr p).setG rd.toNat old).adv)) ∧
    (Issues s p (.cas p rd ra rb w32 0) f →
      (f.fenceBusy p = true → ∃ t, exec (.cas p rd ra rb w32 0) s = .next t ∧
        OnlyThr f t p { f.thr p with wait := .fence false false }) ∧
      (f.fenceBusy p = false → r.2.1 = false →
        ∃ t, exec (.cas p rd ra rb w32 0) s = .next t ∧
          let hit := if w32 then (old.setWidth 32 : W32) = (f.g p rd).setWidth 32 else old = f.g p rd
          let v : W64 := if hit then (if w32 then ((f.g p rb).setWidth 32 : W32).setWidth 64 else f.g p rb) else old
          let m := r.2.2.memWrite a (leBytes n v.toNat)
          OnlyThr m t p ((m.thr p).setG rd.toNat old).adv))

/-- The fences of R52 and the CACHE functions of R53 to R55. -/
def Obligations.FencesAndCacheInstructionsComplete : Prop :=
  ∀ (s f : State) (p : Thr) (rd ra rb : R5),
    let ea := f.g p ra
    let on := fun (t m : State) => OnlyThr m t p (m.thr p).adv
    (Issues s p (.fence p rd ra rb 0) f → ∃ t, exec (.fence p rd ra rb 0) s = .next t ∧
      if f.fenceBusy p then OnlyThr f t p { f.thr p with wait := .fence true false } else on t f) ∧
    (Issues s p (.fenceSt p rd ra rb 0) f → ∃ t, exec (.fenceSt p rd ra rb 0) s = .next t ∧
      if f.fenceBusy p then OnlyThr f t p { f.thr p with wait := .fence true false } else on t f) ∧
    (Issues s p (.isync p rd ra rb 0) f → ∃ t, exec (.isync p rd ra rb 0) s = .next t ∧
      if f.fenceBusy p then OnlyThr f t p { f.thr p with wait := .fence true false } else on t f) ∧
    (Issues s p (.fenceIo p rd ra rb 0) f → ∃ t, exec (.fenceIo p rd ra rb 0) s = .next t ∧
      if f.maintBusy p then OnlyThr f t p { f.thr p with wait := .fence true true } else on t f) ∧
    (Issues s p (.fenceLd p rd ra rb 0) f → ∃ t, exec (.fenceLd p rd ra rb 0) s = .next t ∧ on t f) ∧
    (ea.toNat < 2 ^ 48 →
      (Issues s p (.clean p rd ra rb 0) f → ∃ t, exec (.clean p rd ra rb 0) s = .next t ∧
        (f.dramLine ea = none ∨ f.mem.ready = false → on t f) ∧
        ∀ l, f.dramLine ea = some l → f.mem.ready = true → on t (f.maintReq .clean l p)) ∧
      (Issues s p (.flush p rd ra rb 0) f → ∃ t, exec (.flush p rd ra rb 0) s = .next t ∧
        (f.dramLine ea = none ∨ f.mem.ready = false → on t f) ∧
        ∀ l, f.dramLine ea = some l → f.mem.ready = true → on t (f.maintReq .flush l p)) ∧
      (Issues s p (.inval p rd ra rb 0) f → (f.thr p).priv = true → ∃ t, exec (.inval p rd ra rb 0) s = .next t ∧
        (f.dramLine ea = none ∨ f.mem.ready = false → on t f) ∧
        ∀ l, f.dramLine ea = some l → f.mem.ready = true → on t (f.maintReq .inval l p)) ∧
      (∀ l, Issues s p (.zero p rd ra rb 0) f → f.dramLine ea = some l → ∃ t, exec (.zero p rd ra rb 0) s = .next t ∧
        on t (if f.mem.ready then f.maintReq .zero l p else f)) ∧
      (Issues s p (.icinv p rd ra rb 0) f → ∃ t, exec (.icinv p rd ra rb 0) s = .next t ∧ t.thr p = (f.thr p).adv ∧
        (∀ q, q ≠ p.val → t.thr q = f.thr q) ∧ t = { f with thrs := t.thrs, ic := t.ic, evSeen := t.evSeen } ∧
        t.icLine p ea.toNat = none ∧ ∀ k, k ≠ icKey p ea.toNat → t.icSet k = f.icSet k)) ∧
    (Issues s p (.icinvall p rd ra rb 0) f → ∃ t, exec (.icinvall p rd ra rb 0) s = .next t ∧ t.thr p = (f.thr p).adv ∧
      (∀ q, q ≠ p.val → t.thr q = f.thr q) ∧ t = { f with thrs := t.thrs, ic := t.ic, evSeen := t.evSeen } ∧
      (∀ a, t.icLine p a = none) ∧ (smRising f.ic = true → ∀ k, k / 128 ≠ p.val / 4 → t.icSet k = f.icSet k)) ∧
    (Issues s p (.prefetch p rd ra rb 0) f →
      (∀ l, f.dramLine ea = some l → f.mem.ready = true → (f.inSet l).isSome = false → smFind f.mem.miss (lineBank l) = none →
        ∃ t, exec (.prefetch p rd ra rb 0) s = .next t ∧ smFind t.mem.miss (lineBank l) = some l ∧
          on t { f with mem := { f.mem with miss := t.mem.miss } }) ∧
      (f.dramLine ea = none ∨ f.mem.ready = false → ∃ t, exec (.prefetch p rd ra rb 0) s = .next t ∧ on t f))

/-- R39: branches, their targets and links, and the faults of cond 3 and of misaligned targets. -/
def Obligations.BranchesGoWhereTheySay : Prop :=
  ∀ (s f : State) (p : Thr) (pr : BitVec 3) (cond : BitVec 2) (off : BitVec 21) (rd ra rb : R5),
    let th := f.thr p
    let taken := cond = 0 ∨ (cond = 1 ∧ th.getP pr.toNat = true) ∨ (cond = 2 ∧ th.getP pr.toNat = false)
    (Issues s p (.br p pr cond off) f → cond ≠ 3 → ∃ t, exec (.br p pr cond off) s = .next t ∧
      (taken → OnlyThr f t p { th with pc := th.pc + off.signExtend 64 * 4, retired := th.retired + 1 }) ∧
      (¬ taken → OnlyThr f t p th.adv)) ∧
    (Issues s p (.call p pr cond off) f → cond ≠ 3 → ∃ t, exec (.call p pr cond off) s = .next t ∧
      (taken → OnlyThr f t p { th.setG 31 (th.pc + 4) with pc := th.pc + off.signExtend 64 * 4, retired := th.retired + 1 }) ∧
      (¬ taken → OnlyThr f t p th.adv)) ∧
    (Issues s p (.jr p rd ra rb 0) f → (f.g p ra).toNat % 4 = 0 → ∃ t, exec (.jr p rd ra rb 0) s = .next t ∧
      OnlyThr f t p { th.setG rd.toNat (th.pc + 4) with pc := f.g p ra, retired := th.retired + 1 }) ∧
    (th.status.getLsbD 2 = false →
      (Fetches s p (.br p pr 3 off) f → ∃ t, exec (.br p pr 3 off) s = .next t ∧
        Enters f t p 1 0 th.pc ((wordB 0x30 pr 3 off).setWidth 64)) ∧
      (Fetches s p (.call p pr 3 off) f → ∃ t, exec (.call p pr 3 off) s = .next t ∧
        Enters f t p 1 0 th.pc ((wordB 0x31 pr 3 off).setWidth 64)) ∧
      (Fetches s p (.jr p rd ra rb 0) f → (f.g p ra).toNat % 4 ≠ 0 → ∃ t, exec (.jr p rd ra rb 0) s = .next t ∧
        Enters f t p 4 0 th.pc (f.g p ra)) ∧
      (Fetches s p (.eret p rd ra rb 0) f → th.priv = true → th.epc.toNat % 4 ≠ 0 →
        ∃ t, exec (.eret p rd ra rb 0) s = .next t ∧ Enters f t p 4 0 th.pc th.epc))

/-- MFS and MTS over the special registers of R30. -/
def Obligations.SpecialRegistersReadAndWrite : Prop :=
  ∀ (s f : State) (p : Thr) (rd ra : R5),
    let th := f.thr p
    (∀ e ∈ [((0x000 : W16), (BitVec.ofNat 64 (f.tid p) : W64)), (0x001, th.status), (0x002, th.epc), (0x003, th.ecause),
        (0x004, th.eaddr), (0x005, th.estat), (0x006, th.vbase), (0x007, th.scratch), (0x008, BitVec.ofNat 64 th.cycle),
        (0x009, BitVec.ofNat 64 (f.now - f.timeBase)), (0x00A, th.tmr), (0x00B, BitVec.ofNat 64 (f.ipend p)),
        (0x00C, th.imask), (0x00D, (th.pred ||| 1).setWidth 64), (0x00E, th.mbsrc), (0x00F, th.tlo), (0x010, th.thi),
        (0x011, BitVec.ofNat 64 th.retired)],
      Issues s p (.mfs p rd ra e.1) f → (th.priv = true ∨ e.1 ∈ [(0x000 : W16), 0x008, 0x009, 0x00D, 0x00E, 0x011]) →
      ∃ t, exec (.mfs p rd ra e.1) s = .next t ∧ OnlyThr f t p (th.setG rd.toNat e.2).adv) ∧
    (let v := f.g p ra
     ∀ e ∈ [((0x001 : W16), ({ th with status := v &&& 7 } : Thread)), (0x002, { th with epc := v }),
        (0x003, { th with ecause := v &&& 0xFFFF00FF }), (0x004, { th with eaddr := v }), (0x005, { th with estat := v &&& 7 }),
        (0x006, { th with vbase := v &&& ~~~ 0xFFF }), (0x007, { th with scratch := v }), (0x00A, { th with tmr := v }),
        (0x00C, { th with imask := v &&& 7 }), (0x00D, { th with pred := v.setWidth 8 ||| 1 }), (0x00F, { th with tlo := v }),
        (0x010, { th with thi := v })],
      Issues s p (.mts p rd ra e.1) f → (th.priv = true ∨ e.1 = 0x00D) →
      ∃ t, exec (.mts p rd ra e.1) s = .next t ∧ OnlyThr f t p e.2.adv) ∧
    (th.status.getLsbD 2 = false →
      (th.priv = false → ∀ i ∈ [(0x001 : W16), 0x002, 0x003, 0x004, 0x005, 0x006, 0x007, 0x00A, 0x00B, 0x00C, 0x00F, 0x010],
        Fetches s p (.mfs p rd ra i) f → ∃ t, exec (.mfs p rd ra i) s = .next t ∧ Enters f t p 2 0 th.pc th.pc) ∧
      (th.priv = true → ∀ i ∈ [(0x000 : W16), 0x008, 0x009, 0x00B, 0x00E, 0x011],
        Fetches s p (.mts p rd ra i) f →
        ∃ t, exec (.mts p rd ra i) s = .next t ∧ Enters f t p 1 0 th.pc ((wordI 0x3A rd ra i).setWidth 64)) ∧
      ∀ i : W16, 0x011 < i.toNat →
        (Fetches s p (.mfs p rd ra i) f →
          ∃ t, exec (.mfs p rd ra i) s = .next t ∧ Enters f t p 1 0 th.pc ((wordI 0x39 rd ra i).setWidth 64)) ∧
        (Fetches s p (.mts p rd ra i) f →
          ∃ t, exec (.mts p rd ra i) s = .next t ∧ Enters f t p 1 0 th.pc ((wordI 0x3A rd ra i).setWidth 64)))

/-- Entry by TRAP, BKPT and interrupt, and the return (R59, R65 to R68). -/
def Obligations.TrapsInterruptsAndReturns : Prop :=
  ∀ (s f : State) (p : Thr) (rd ra rb : R5) (imm : W16),
    (Fetches s p (.trap p rd ra imm) f → (f.thr p).status.getLsbD 2 = false →
      ∃ t, exec (.trap p rd ra imm) s = .next t ∧ Enters f t p 6 imm.toNat ((f.thr p).pc + 4) 0) ∧
    (Fetches s p (.bkpt p rd ra rb 0) f → (f.thr p).status.getLsbD 2 = false →
      ∃ t, exec (.bkpt p rd ra rb 0) s = .next t ∧ Enters f t p 7 0 (f.thr p).pc 0) ∧
    (Issues s p (.eret p rd ra rb 0) f → (f.thr p).priv = true → (f.thr p).epc.toNat % 4 = 0 →
      ∃ t, exec (.eret p rd ra rb 0) s = .next t ∧ OnlyThr f t p { f.thr p with
        status := (f.thr p).estat, pc := (f.thr p).epc, retired := (f.thr p).retired + 1 }) ∧
    (let bits := s.ipend p &&& (s.thr p).imask.toNat % 8
     (s.thr p).status.getLsbD 1 = true → (s.thr p).status.getLsbD 2 = false → bits ≠ 0 →
      (s.runBit p = true → (s.thr p).dbg = false → (s.thr p).step = false → s.pwr.st < 2 →
        (∃ m r, (s.thr p).wait = .event m r) →
        ∃ t, exec (.interrupt p) s = .next t ∧ Enters s t p 8 0 (s.thr p).pc (BitVec.ofNat 64 bits)) ∧
      (Fetches s p (.addi p rd ra imm) f → f.irqNow p = true →
        ∃ t, exec (.interrupt p) s = .next t ∧ Enters f t p 8 0 (f.thr p).pc (BitVec.ofNat 64 (f.irqBits p))) ∧
      ∀ x, FetchesWord s p x f → decodeWord p x = none → (f.thr p).status.getLsbD 2 = false →
        ∃ t, exec (.interrupt p) s = .next t ∧ Enters f t p 1 0 (f.thr p).pc (x.setWidth 64))

/-- The mailbox and waiting instructions (R56 to R59, R63, R64). -/
def Obligations.MessagesAndWaits : Prop :=
  ∀ (s f : State) (p : Thr) (rd ra rb : R5) (pn : BitVec 3),
    let th := f.thr p
    let dst := msgDest (f.g p ra).toNat
    let msg : Msg := ⟨th.getG rb.toNat, th.getG (rb.toNat + 1), p⟩
    (Issues s p (.mbsend p rd ra rb 0) f → rb.toNat % 2 = 0 →
      (∀ q, dst = some (.inl q) → (f.thr q).inbox.length < 8 → ∃ t, exec (.mbsend p rd ra rb 0) s = .next t ∧
        let f1 := f.setThr q { f.thr q with inbox := (f.thr q).inbox ++ [msg] }
        OnlyThr f1 t p ((f1.thr p).setG rd.toNat 0).adv) ∧
      (∀ q, dst = some (.inl q) → 8 ≤ (f.thr q).inbox.length → ∃ t, exec (.mbsend p rd ra rb 0) s = .next t ∧
        OnlyThr f t p (th.setG rd.toNat 1).adv) ∧
      (∀ c, dst = some (.inr c) → th.priv = true → (f.queue c).length < 64 → ∃ t, exec (.mbsend p rd ra rb 0) s = .next t ∧
        t.thr p = (th.setG rd.toNat 0).adv ∧ t.queue c = f.queue c ++ [msg] ∧ (∀ d, d ≠ c → t.queue d = f.queue d) ∧
        (∀ q, q ≠ p.val → t.thr q = f.thr q) ∧ t = { f with thrs := t.thrs, campQ := t.campQ, evSeen := t.evSeen }) ∧
      (∀ c, dst = some (.inr c) → th.priv = true → 64 ≤ (f.queue c).length → ∃ t, exec (.mbsend p rd ra rb 0) s = .next t ∧
        OnlyThr f t p (th.setG rd.toNat 1).adv) ∧
      (dst = none → (natF (f.g p ra).toNat 8 3 = 1 → th.priv = true) → ∃ t, exec (.mbsend p rd ra rb 0) s = .next t ∧
        OnlyThr f t p (th.setG rd.toNat 2).adv)) ∧
    (Issues s p (.mbrecv p rd ra rb pn) f → rd.toNat % 2 = 0 →
      (∀ m rest, f.g p ra = 0 → th.inbox = m :: rest → ∃ t, exec (.mbrecv p rd ra rb pn) s = .next t ∧
        OnlyThr f t p (({ ({ th with inbox := rest } : Thread).setG rd.toNat m.w0 |>.setG (rd.toNat + 1) m.w1 with
          mbsrc := BitVec.ofNat 64 m.src } : Thread).setP pn.toNat true).adv) ∧
      (f.g p ra = 0 → th.inbox = [] → ∃ t, exec (.mbrecv p rd ra rb pn) s = .next t ∧
        OnlyThr f t p (th.setP pn.toNat false).adv) ∧
      (∀ m rest, f.g p ra = 1 → th.priv = true → f.queue (p / 32) = m :: rest → ∃ t, exec (.mbrecv p rd ra rb pn) s = .next t ∧
        t.queue (p / 32) = rest ∧ (∀ d, d ≠ p.val / 32 → t.queue d = f.queue d) ∧ (∀ q, q ≠ p.val → t.thr q = f.thr q) ∧
        t.thr p = (({ (th.setG rd.toNat m.w0).setG (rd.toNat + 1) m.w1 with
          mbsrc := BitVec.ofNat 64 m.src } : Thread).setP pn.toNat true).adv ∧
        t = { f with thrs := t.thrs, campQ := t.campQ, evSeen := t.evSeen }) ∧
      (f.g p ra = 1 → th.priv = true → f.queue (p / 32) = [] → ∃ t, exec (.mbrecv p rd ra rb pn) s = .next t ∧
        OnlyThr f t p (th.setP pn.toNat false).adv)) ∧
    (Issues s p (.waitT p rd ra rb 0) f → ∃ t, exec (.waitT p rd ra rb 0) s = .next t ∧
      let mask := (f.g p ra).toNat % 8
      (mask = 0 → OnlyThr f t p (th.setG rd.toNat 0).adv) ∧
      (f.ipend p &&& mask ≠ 0 → OnlyThr f t p (th.setG rd.toNat (BitVec.ofNat 64 (f.ipend p &&& mask))).adv) ∧
      (mask ≠ 0 → f.ipend p &&& mask = 0 → OnlyThr f t p { th with wait := .event mask rd.toNat })) ∧
    (Issues s p (.yieldT p rd ra rb 0) f → ∃ t, exec (.yieldT p rd ra rb 0) s = .next t ∧ OnlyThr f t p th.adv) ∧
    (Issues s p (.halt p rd ra rb 0) f → th.priv = true →
      ∃ t, exec (.halt p rd ra rb 0) s = .next t ∧ t.runBit p = false ∧ t.thr p = th.adv ∧
      (∀ q, q < 192 → q ≠ p.val → t.runBit q = f.runBit q ∧ t.thr q = f.thr q) ∧
      t = { f with thrs := t.thrs, regs := t.regs, evSeen := t.evSeen } ∧ RegsBut f t [Reg.SYS_CAMP_RUN (p / 32)])

/-- R27, R64 and R66: the task level cannot touch the register space; R32 and R48: words that are no instruction (a command for
another instruction than the one at the pc changes nothing: the model's choice, log entry 75). -/
def Obligations.TaskLevelNeverReachesRegisterSpace : Prop :=
  ∀ (s f : State) (p : Thr) (rd ra rb : R5) (imm : W16) (fn : F11), (f.thr p).status.getLsbD 2 = false →
    let ea := f.g p ra + imm.signExtend 64
    let pc := (f.thr p).pc
    ((f.thr p).priv = false →
      ((f.resolve ea).isReg = true →
        (∀ e ∈ loadForms, Fetches s p (e.1 p rd ra imm) f →
          ∃ t, exec (e.1 p rd ra imm) s = .next t ∧ Enters f t p 2 0 pc ea) ∧
        ∀ e ∈ storeForms, Fetches s p (e.1 p rd ra imm) f →
          ∃ t, exec (e.1 p rd ra imm) s = .next t ∧ Enters f t p 2 0 pc ea) ∧
      (∀ i ∈ [Instr.halt p rd ra rb 0, .eret p rd ra rb 0, .inval p rd ra rb 0], Fetches s p i f →
        ∃ t, exec i s = .next t ∧ Enters f t p 2 0 pc pc) ∧
      (Fetches s p (.mbrecv p rd ra rb 0) f → rd.toNat % 2 = 0 → f.g p ra = 1 →
        ∃ t, exec (.mbrecv p rd ra rb 0) s = .next t ∧ Enters f t p 2 0 pc pc)) ∧
    ((f.thr p).priv = true →
      (∀ e ∈ loadForms, Fetches s p (e.1 p rd ra imm) f →
        ((inRegRegion ea = false ∧ ea.toNat % e.2.1 ≠ 0) → ∃ t, exec (e.1 p rd ra imm) s = .next t ∧ Enters f t p 4 0 pc ea) ∧
        (f.resolve ea = .hole → ea.toNat % 8 = 0 → ∃ t, exec (e.1 p rd ra imm) s = .next t ∧ Enters f t p 3 0 pc ea)) ∧
      ∀ e ∈ storeForms, Fetches s p (e.1 p rd ra imm) f →
        ((inRegRegion ea = false ∧ ea.toNat % e.2 ≠ 0) → ∃ t, exec (e.1 p rd ra imm) s = .next t ∧ Enters f t p 4 0 pc ea) ∧
        (f.resolve ea = .hole → ea.toNat % 8 = 0 → ∃ t, exec (e.1 p rd ra imm) s = .next t ∧ Enters f t p 3 0 pc ea)) ∧
    (Fetches s p (.alu p rd ra rb fn) f → aluResult (f.thr p) fn.toNat (f.g p ra) (f.g p rb) = none →
      ∃ t, exec (.alu p rd ra rb fn) s = .next t ∧ Enters f t p 1 0 pc ((wordA 0x00 rd ra rb fn.toNat).setWidth 64)) ∧
    (∀ x, FetchesWord s p x f →
      (decodeWord p x = none → ∃ t, exec (.addi p rd ra imm) s = .next t ∧ Enters f t p 1 0 pc (x.setWidth 64)) ∧
      (∀ i, decodeWord p x = some i → x ≠ wordI 0x04 rd ra imm → ∃ t, exec (.addi p rd ra imm) s = .next t ∧ Same s t)) ∧
    (s.canRun p = true → (s.stepTaken p).fetchExc (s.thr p).pc = none →
      (s.stepTaken p).fetch p (s.thr p).pc = (none, f) → (s.stepTaken p).irqNow p = false →
      ∃ t, exec (.addi p rd ra imm) s = .next t ∧ Enters f t p 5 0 pc (s.thr p).pc)

/-- One-word custom instructions (R77, R79, R82, R90) and the end of waits (R47, R52, R59). -/
def Obligations.CustomInstructionsAndWakesComplete : Prop :=
  (∀ (s f : State) (p : Thr) (rd ra rb : R5) (cx : BitVec 4) (fn : BitVec 7) (off : Nat) (task : Bool) (w : W128) (x : W64),
    Issues s p (.cust p rd ra rb cx fn []) f → smFind f.ucs.entries cx.toNat = some (off, task) →
    (task = true ∨ (f.thr p).priv = true) → (f.thr p).wait = .none → (f.thr p).halting = false → f.ucs.rep = [] →
    custBase + off < custEnd → f.storeWord (custBase + off) = some w → microOpen w = true →
    mwSeq w = 0x0A → mwMem w = 0 → mwUnit w = 0 → mwPwr w = 0 → mwFlg w = false → mwAsel w = 1 → mwBsel w = 2 →
    mwDsel w = 1 → aluFn (mwAlu w) (f.g p ra) (f.g p rb) = some x → mwAlu w < 0x38 →
    ∃ t, exec (.cust p rd ra rb cx fn []) s = .next t ∧
      OnlyThr { f with fresh := f.fresh + 1 } t p ((f.thr p).setG rd.toNat x).adv) ∧
  ∀ (s : State) (p : Thr), s.runBit p = true → s.pwr.st < 2 →
    (∀ mask rd, (s.thr p).wait = .event mask rd → s.ipend p &&& mask ≠ 0 → (s.thr p).dbg = false → (s.thr p).step = false →
      ∃ t, exec (.waitWake p) s = .next t ∧
        OnlyThr s t p (({ s.thr p with wait := .none } : Thread).setG rd (BitVec.ofNat 64 (s.ipend p &&& mask))).adv) ∧
    (∀ io, (s.thr p).wait = .fence true io → s.fenceHeld p io = false →
      ∃ t, exec (.waitWake p) s = .next t ∧ OnlyThr s t p ({ s.thr p with wait := .none } : Thread).adv) ∧
    ((s.thr p).wait = .fence false false → s.fenceBusy p = false →
      ∃ t, exec (.waitWake p) s = .next t ∧ OnlyThr s t p { s.thr p with wait := .none })

/-- R3 to R6 and R21, bit by bit: `r` is the register's row in the register table; bits of no mask are RO, WO or reserved. -/
def Obligations.RegisterWritesFollowTheAccessTypes : Prop :=
  ∀ (ag : Agent) (off v hwSet hwClr : W32) (s : State),
    let u := s.servedFor ag
    (s.mayReg ag off.toNat = true → off.toNat % 4 = 0 → u.heldInReset off.toNat = false → isPairLo off.toNat = false →
      isPairHi off.toNat = false → u.wrSpecial ag off.toNat v = none →
      (∀ r, regRow? off.toNat = some r → ∃ t, exec (.registerWrite ag off .b4 v hwSet hwClr) s = .next t ∧
        OnlyRegs u t [off.toNat] ∧
        ∀ i, i < 32 →
          let new := (t.reg off.toNat).getLsbD i
          let old := (u.reg off.toNat).getLsbD i
          let locked := (u.lockedBits off.toNat r).getLsbD i
          let w1c := r.w1c.testBit i
          let w1s := r.w1s.testBit i
          let cmd := r.cmd.testBit i
          let hwc := r.hwc.testBit i
          (r.rw.testBit i = true → w1c = false → w1s = false → cmd = false → locked = false →
            new = (v.getLsbD i && !(hwc && hwClr.getLsbD i))) ∧
          (r.rw.testBit i = true → w1c = false → w1s = false → cmd = false → hwc = false → locked = true → new = old) ∧
          (r.rw.testBit i = false → w1c = true → w1s = false → cmd = false → hwc = false →
            new = ((old && !v.getLsbD i) || hwSet.getLsbD i)) ∧
          (w1c = false → (w1s = true ∨ cmd = true) → hwc = false → (cmd = true ∨ r.rw.testBit i = false) →
            new = (v.getLsbD i || (old && !hwClr.getLsbD i))) ∧
          (r.rw.testBit i = false → w1c = false → w1s = false → cmd = false → hwc = false → new = old)) ∧
      (regRow? off.toNat = none → ∃ t, exec (.registerWrite ag off .b4 v hwSet hwClr) s = .next t ∧ Same u t)) ∧
    (∀ w, (w ≠ .b4 ∨ off.toNat % 4 ≠ 0 ∨ s.mayReg ag off.toNat = false) →
      ∃ t, exec (.registerWrite ag off w v hwSet hwClr) s = .next t ∧ Same s t)

/-- READ_CLEAR (R22; R3 and R4 for what does not reach a register). -/
def Obligations.ReadsClearOnlyWhatTheyReturn : Prop :=
  ∀ (ag : Agent) (off inc : W32) (s : State),
    let u := s.servedFor ag
    (s.mayReg ag off.toNat = true → off.toNat % 4 = 0 → u.heldInReset off.toNat = false → isPairLo off.toNat = false →
      isPairHi off.toNat = false → isElogReg off.toNat = false → ¬ (0x034000 ≤ off.toNat ∧ off.toNat < 0x034C00) →
      (∀ r, regRow? off.toNat = some r → ∃ t, exec (.readClear ag off .b4 inc) s = .next t ∧
        t.rdata = (u.reg off.toNat).setWidth 64 ∧
        t = { u with rdata := t.rdata, regs := t.regs, evSeen := t.evSeen } ∧ RegsBut u t [off.toNat] ∧
        ∀ i, i < 32 → (t.reg off.toNat).getLsbD i =
          if r.rc.testBit i then (BitVec.ofNat 32 r.rst + inc).getLsbD i else (u.reg off.toNat).getLsbD i) ∧
      (regRow? off.toNat = none → ∃ t, exec (.readClear ag off .b4 inc) s = .next t ∧ t.rdata = 0 ∧
        t = { u with rdata := t.rdata, evSeen := t.evSeen })) ∧
    (s.mayReg ag off.toNat = true → off.toNat = Reg.MEM_ELOG_CNT → elogIdOk (s.fld Reg.MEM_ELOG_SEL 0 7) = true →
      let id := s.fld Reg.MEM_ELOG_SEL 0 7
      ∃ t, exec (.readClear ag off .b4 inc) s = .next t ∧
        t.rdata = (BitVec.ofNat 32 ((s.elogCntAt id).ue * 2 ^ 16 + (s.elogCntAt id).ce)).setWidth 64 ∧
        t.elogCntAt id = ⟨getF inc 16 16, getF inc 0 16⟩ ∧ (∀ j, j ≠ id → t.elogCntAt j = s.elogCntAt j) ∧
        t = { u with rdata := t.rdata, evSeen := t.evSeen, mem := { s.mem with elogCnt := t.mem.elogCnt } }) ∧
    (∀ w, (w ≠ .b4 ∨ off.toNat % 4 ≠ 0 ∨ s.mayReg ag off.toNat = false) →
      ∃ t, exec (.readClear ag off w inc) s = .next t ∧ t.rdata = 0 ∧ t = { s with rdata := t.rdata, evSeen := t.evSeen })

/-- The four accesses of a 64-bit pair (R25). -/
def Obligations.PairHalvesStayTogether : Prop :=
  ∀ (ag : Agent) (off v : W32) (s : State), s.mayReg ag off.toNat = true → off.toNat % 4 = 0 →
    s.heldInReset off.toNat = false →
    let u := s.servedFor ag
    (isPairLo off.toNat = true →
      (∃ t, exec (.pairLoRead ag off) s = .next t ∧ t.rdata = (u.regNow off.toNat).setWidth 64 ∧
        smFind t.pairHold (agentIx ag) = some (off.toNat, u.regNow (off.toNat + 4)) ∧
        (∀ k, k ≠ agentIx ag → smFind t.pairHold k = smFind s.pairHold k) ∧
        t = { u with rdata := t.rdata, pairHold := t.pairHold, evSeen := t.evSeen }) ∧
      (isPairHi off.toNat = false → ¬ (0x044000 ≤ off.toNat ∧ off.toNat < 0x045800) →
        ¬ (0x0D4000 ≤ off.toNat ∧ off.toNat < 0x0D4C00) →
        ∃ t, exec (.pairLoWrite ag off v) s = .next t ∧ smFind t.pairPend (agentIx ag) = some (off.toNat, v) ∧
          (∀ k, k ≠ agentIx ag → smFind t.pairPend k = smFind s.pairPend k) ∧
          t = { u with pairPend := t.pairPend, evSeen := t.evSeen })) ∧
    (isPairHi off.toNat = true → isPairLo off.toNat = false →
      (∀ c, smFind s.pairHold (agentIx ag) = some (off.toNat - 4, c) →
        ∃ t, exec (.pairHiRead ag off) s = .next t ∧ t.rdata = c.setWidth 64 ∧ smFind t.pairHold (agentIx ag) = none ∧
          (∀ k, k ≠ agentIx ag → smFind t.pairHold k = smFind s.pairHold k) ∧
          t = { u with rdata := t.rdata, pairHold := t.pairHold, evSeen := t.evSeen }) ∧
      ((∀ c, smFind s.pairHold (agentIx ag) ≠ some (off.toNat - 4, c)) →
        ∃ t, exec (.pairHiRead ag off) s = .next t ∧ t.rdata = (u.regNow off.toNat).setWidth 64 ∧
          t = { u with rdata := t.rdata, evSeen := t.evSeen }) ∧
      (∀ rl rh, regRow? (off.toNat - 4) = some rl → regRow? off.toNat = some rh → s.heldInReset (off.toNat - 4) = false →
        off.toNat - 4 ≠ Reg.EMB_RTC_LO → off.toNat - 4 ≠ Reg.OBJ_RCLOCK_LO → off.toNat / 0x10000 ≠ 3 →
        ¬ (0x044000 ≤ off.toNat ∧ off.toNat < 0x045800) → ¬ (0x0D4000 ≤ off.toNat ∧ off.toNat < 0x0D4C00) →
        ∃ t, exec (.pairHiWrite ag off v) s = .next t ∧
          let lo := match smFind s.pairPend (agentIx ag) with
            | some (o, x) => if o = off.toNat - 4 then x else u.reg (off.toNat - 4)
            | none => u.reg (off.toNat - 4)
          t.reg (off.toNat - 4) =
            writtenVal (u.reg (off.toNat - 4)) lo 0 0 (u.lockedBits (off.toNat - 4) rl) rl ∧
          t.reg off.toNat = writtenVal (u.reg off.toNat) v 0 0 (u.lockedBits off.toNat rh) rh ∧
          (∀ x, smFind t.pairPend (agentIx ag) ≠ some (off.toNat - 4, x)) ∧
          (∀ k, k ≠ agentIx ag → smFind t.pairPend k = smFind s.pairPend k) ∧
          t = { u with regs := t.regs, pairPend := t.pairPend, evSeen := t.evSeen } ∧
          RegsBut u t [off.toNat - 4, off.toNat]))

/-- SYS_CAMPn_RUN (R63) and the timer (R30). -/
def Obligations.ThreadsStartAndHaltByTheirRunBits : Prop :=
  (∀ (ag : Agent) (c : Camp) (v : W32) (s : State), s.mayReg ag (Reg.SYS_CAMP_RUN c) = true → s.ucs.load = none →
    s.pwr.rst = none → s.pwr.trip = false → ∃ t, exec (.threadRunWrite ag c v 0) s = .next t ∧
      (∀ i, i < 32 →
        let p := 32 * c.val + i
        let th := s.thr p
        (v.getLsbD i = true → s.runBit p = false → t.runBit p = true ∧ t.thr p = { Thread.reset with
          pc := BitVec.ofNat 64 (s.reg64 Reg.SYS_THR_ENTRY_LO / 4 * 4), inbox := th.inbox }) ∧
        (v.getLsbD i = false → s.runBit p = true →
          ((∃ k rd n sg, th.wait = .casc k rd n sg) ∨ (∃ cx rd ra rb w m, th.wait = .micro cx rd ra rb w m) →
            t.runBit p = true ∧ t.thr p = { th with halting := true }) ∧
          ((th.wait = .none ∨ (∃ m rd, th.wait = .event m rd) ∨ ∃ a io, th.wait = .fence a io) →
            t.runBit p = false ∧ t.thr p = { th with wait := .none })) ∧
        (v.getLsbD i = s.runBit p → t.runBit p = s.runBit p ∧ t.thr p = th)) ∧
      (∀ q, q < 192 → q / 32 ≠ c.val → t.runBit q = s.runBit q ∧ t.thr q = s.thr q) ∧
      t.mem = s.mem ∧ t.campQ = s.campQ ∧ t.ucs = s.ucs) ∧
  ∀ (p : Thr) (s : State), (s.thr p).tmr ≠ 0 → s.timeBase ≤ s.now → s.now - s.timeBase < (s.thr p).tmr.toNat →
    ∃ t, exec (.timerExpiry p) s = .next t ∧ t.now - t.timeBase = (s.thr p).tmr.toNat ∧ (t.ipend p).testBit 2 = true ∧
      t = { s with now := t.now, cyc := t.cyc, thrs := t.thrs, evSeen := t.evSeen } ∧
      ∀ q, t.thr q = { s.thr q with cycle := (t.thr q).cycle }

/-- Block events (R24, R60, R62) and the delivery of held messages (R62). -/
def Obligations.BlockEventsSendOneMessage : Prop :=
  (∀ (b : Block) (s : State), s.EventInv → s.routeMask b ≠ 0 → s.evSeen.dueOf b ≠ 0 → (∀ h ∈ s.heldMsgs, h.block ≠ b.val) →
    let last := smGet (fun _ => 5) s.rot b
    let msg : Msg := ⟨0, 0, 0x100 + b⟩
    let sent := fun (t : State) => t.evSeen.dueOf b = s.evSeen.dueOf b - 1 ∧ t.evSeen.seen = s.evSeen.seen ∧
      ∀ d, d ≠ b.val → t.evSeen.dueOf d = s.evSeen.dueOf d
    (∀ k, k < 6 → let c := (last + 1 + k) % 6
      (s.routeMask b).testBit c = true → (s.queue c).length < 64 →
      (∀ j, j < k → (s.routeMask b).testBit ((last + 1 + j) % 6) = true → 64 ≤ (s.queue ((last + 1 + j) % 6)).length) →
      ∃ t, exec (.blockEventMessage b) s = .next t ∧ t.queue c = s.queue c ++ [msg] ∧
        (∀ d, d ≠ c → t.queue d = s.queue d) ∧ smFind t.rot b = some c ∧ sent t ∧
        t = { s with campQ := t.campQ, rot := t.rot, evSeen := t.evSeen }) ∧
    ((∀ c, c < 6 → (s.routeMask b).testBit c = true → 64 ≤ (s.queue c).length) →
      ∃ t, exec (.blockEventMessage b) s = .next t ∧ t.heldMsgs = s.heldMsgs ++ [⟨s.routeMask b, b, msg⟩] ∧
        sent t ∧ t = { s with heldMsgs := t.heldMsgs, evSeen := t.evSeen })) ∧
  (∀ (b : Block) (s : State), (s.routeMask b = 0 ∨ s.evSeen.dueOf b = 0) →
    ∃ t, exec (.blockEventMessage b) s = .next t ∧ Same s t ∧ t.evSeen.seen = s.risen ∧
      ∀ d, d < 19 → s.raised d = true → d ∉ s.evSeen.seen → t.evSeen.dueOf d = s.evSeen.dueOf d + 1) ∧
  ∀ (k : Nat) (h : HeldMsg) (s : State), s.heldMsgs[k]? = some h → (∀ x ∈ s.heldMsgs.take k, x.block ≠ h.block) →
    (∀ s', s.tryPost h = some s' → ∃ t, exec (.eventMessageDeliver k) s = .next t ∧
      t = { s' with heldMsgs := s.heldMsgs.eraseIdx k, evSeen := t.evSeen } ∧
      ∃ c, c < 6 ∧ h.mask.testBit c = true ∧ (s.queue c).length < 64 ∧ t.queue c = s.queue c ++ [h.msg]) ∧
    ((∀ c, c < 6 → h.mask.testBit c = true → 64 ≤ (s.queue c).length) →
      ∃ t, exec (.eventMessageDeliver k) s = .next t ∧ Same s t)

/-- UCS_LOAD_START and UCS_LOAD_END (R91 to R94). -/
def Obligations.ControlStoreLoadsStartAndEnd : Prop :=
  (∀ (ag : Agent) (v : W32) (s : State), s.mayReg ag Reg.UCS_LOAD_CTRL = true → s.ucs.load = none → v.getLsbD 0 = true →
    let u := s.servedFor ag
    let region := getF v 1 2
    (s.othersRun ag = false → (region = 1 ∨ region = 2) → ∃ t, exec (.ucsLoadStart ag v false) s = .next t ∧
      t.ucs.load = some (region, s.reg64 Reg.UCS_LOAD_ADDR_LO) ∧ (t.reg Reg.UCS_LOAD_CTRL).getLsbD 0 = true ∧
      getF (t.reg Reg.UCS_LOAD_CTRL) 1 2 = region ∧ t.reg Reg.UCS_LOAD_STATUS = BitVec.ofNat 32 (0xFFFF0010 + region) ∧
      (region = 1 → t.ucs.traps = [] ∧ t.ucs.entries = s.ucs.entries) ∧
      (region = 2 → t.ucs.entries = [] ∧ t.ucs.traps = s.ucs.traps) ∧
      t = { u with regs := t.regs, ucs := t.ucs, evSeen := t.evSeen } ∧
      RegsBut u t [Reg.UCS_LOAD_CTRL, Reg.UCS_LOAD_STATUS]) ∧
    (∀ now, (s.othersRun ag = true ∨ now = true) → ∃ t, exec (.ucsLoadStart ag v now) s = .next t ∧
      getF (t.reg Reg.UCS_LOAD_STATUS) 4 4 = 3 ∧
      OnlyRegs u t [Reg.UCS_LOAD_CTRL, Reg.UCS_LOAD_STATUS, Reg.UCS_STATUS]) ∧
    (s.othersRun ag = false → (region = 0 ∨ region = 3) → ∃ t, exec (.ucsLoadStart ag v false) s = .next t ∧
      getF (t.reg Reg.UCS_LOAD_STATUS) 4 4 = 4 ∧
      OnlyRegs u t [Reg.UCS_LOAD_CTRL, Reg.UCS_LOAD_STATUS, Reg.UCS_STATUS])) ∧
  ∀ (gen : BitVec 2) (a : Nat) (s : State), s.ucs.load = some (2, a) →
    let r1 := s.memRead a 336
    let n := leAt r1.1 8 2
    let r2 := r1.2.2.memRead a (748 + 16 * n + 16224)
    let img := r2.1
    r1.2.1 = false → ucsHeadOk 2 r1.1 = true → r2.2.1 = false → ucsTailOk 2 img n = true → r2.2.2.ucsKeyOk 2 = true →
    ucsBadWord 2 img n = none → ucsBadEntry 2 img n = none →
    ∃ t, exec (.ucsLoadEnd true true gen) s = .next t ∧ t.ucs.load = none ∧
      getF (t.reg Reg.UCS_LOAD_STATUS) 4 4 = 2 ∧ (t.reg Reg.UCS_LOAD_CTRL).getLsbD 0 = false ∧
      (t.reg Reg.UCS_STATUS).getLsbD 0 = true ∧
      t.reg Reg.UCS_CUST_HASH = BitVec.ofNat 32 (leAt (sha384 (img.take (364 + 16 * leAt img 8 2))) 0 4) ∧
      (∀ k c, k < 1024 → c < 6 → t.storeWord (custBase + k) = some (if k < n then ucsWord img k else 0) ∧
        t.repWord c (custBase + k) = if k < n then ucsWord img k else 0) ∧
      t.ucs.entries = ((List.range 16).filterMap fun k =>
        if tb (ucsEntry img k) 15 then some (k, getF (ucsEntry img k) 0 10, tb (ucsEntry img k) 14) else none) ∧
      t.ucs.traps = s.ucs.traps ∧ t.ucs.patch = s.ucs.patch

/-- DRAM_INIT, DRAM_INIT_DONE, CACHE_FILL_DONE and WRITEBACK_DRAIN (R379 to R381, R385, R386). -/
def Obligations.DramStartsAndCachesFill : Prop :=
  (∀ (v : W32) (s : State),
    (v.getLsbD 0 = true → ∃ t, exec (.dramInit v) s = .next t ∧
      t.reg Reg.MEM_CTRL = ((v &&& 0xE2) ||| (s.reg Reg.MEM_CTRL &&& 1)) ||| 1 ∧ t.reg Reg.MEM_CAP = 0 ∧
      t.mem.ready = false ∧ t.mem.prot = v.getLsbD 5 ∧ t.mem.capMib = usableMib (getF v 6 2) (v.getLsbD 5) ∧
      (v.getLsbD 1 = true → v.getLsbD 5 = s.mem.prot → t.mem.dram = s.mem.dram ∧ t.mem.dramSyn = s.mem.dramSyn) ∧
      (v.getLsbD 1 = false → t.mem.dram = [] ∧ t.mem.lines = [] ∧ t.mem.cw = [] ∧ t.mem.vict = [] ∧ t.mem.wb = []) ∧
      t = { s with regs := t.regs, mem := t.mem, evSeen := t.evSeen } ∧ t.mem.sram = s.mem.sram ∧
      RegsBut s t [Reg.MEM_CTRL, Reg.MEM_CAP]) ∧
    (v.getLsbD 0 = false → ∃ t, exec (.dramInit v) s = .next t ∧ OnlyRegs s t [Reg.MEM_CTRL])) ∧
  (∀ s : State, s.rbit Reg.MEM_CTRL 0 = true →
    (∃ t, exec (.dramInitDone true) s = .next t ∧ t.reg Reg.MEM_CTRL = s.reg Reg.MEM_CTRL &&& ~~~ 1 ∧
      t.mem = { s.mem with ready := true, selfRef := false } ∧ t.reg Reg.MEM_CAP = BitVec.ofNat 32 s.mem.capMib ∧
      t.reg Reg.MEM_STATUS = s.reg Reg.MEM_STATUS ||| 1 ∧ t = { s with regs := t.regs, mem := t.mem, evSeen := t.evSeen } ∧
      RegsBut s t [Reg.MEM_CTRL, Reg.MEM_CAP, Reg.MEM_STATUS]) ∧
    ∃ t, exec (.dramInitDone false) s = .next t ∧ t.reg Reg.MEM_CTRL = s.reg Reg.MEM_CTRL &&& ~~~ 1 ∧
      t.reg Reg.MEM_STATUS = s.reg Reg.MEM_STATUS ||| 2 ∧ OnlyRegs s t [Reg.MEM_CTRL, Reg.MEM_STATUS]) ∧
  (∀ (bank : Fin 8) (l : Nat) (s : State), smFind s.mem.miss bank = some l →
    (∀ h ∈ s.mem.hold, lineBank h.line ≠ bank.val) →
    ∃ t, exec (.cacheFillDone bank) s = .next t ∧ smFind t.mem.miss bank = none ∧ (t.inSet l).isSome = true ∧
      (∀ b, b ≠ bank.val → smFind t.mem.miss b = smFind s.mem.miss b) ∧ t.mem.hold = s.mem.hold ∧ t.thrs = s.thrs ∧
      t.mem.sram = s.mem.sram) ∧
  ∀ (e : WbLine) (rest : List WbLine) (s : State), s.mem.wb = e :: rest → (e.words.map (·.1)).Nodup →
    (∀ x ∈ e.words, x.2.syn = 0) →
    ∃ t, exec .writebackDrain s = .next t ∧ t.mem.wb = rest ∧
      (∀ x ∈ e.words, t.dramWord x.1 = ⟨x.2.data, 0⟩) ∧
      (∀ w, (∀ x ∈ e.words, x.1 ≠ w) → t.dramWord w = s.dramWord w) ∧
      t = { s with evSeen := t.evSeen,
                   mem := { s.mem with wb := rest, dram := t.mem.dram, dramSyn := t.mem.dramSyn } }

/-- WAY_POWER_DOWN, WAY_POWER_UP and WAY_PAIR_DONE (R392). -/
def Obligations.WayPairsPowerDownAndUp : Prop :=
  (∀ (v : W32) (s : State), ∀ i ∈ [Instr.wayPowerDown v, .wayPowerUp v],
    ((s.mem.wayJob.isSome = true ∨ ∀ q, 1 ≤ q → q < 8 → v.getLsbD q = s.rbit Reg.CCH_WAYPWR (8 + q)) →
      ∃ t, exec i s = .next t ∧ getF (t.reg Reg.CCH_WAYPWR) 1 7 = getF v 1 7 ∧
      (t.reg Reg.CCH_WAYPWR).getLsbD 0 = (s.reg Reg.CCH_WAYPWR).getLsbD 0 ∧ OnlyRegs s t [Reg.CCH_WAYPWR]) ∧
    (s.mem.wayJob = none → ∀ p, 1 ≤ p → p < 8 → v.getLsbD p ≠ s.rbit Reg.CCH_WAYPWR (8 + p) →
      (∀ q, 1 ≤ q → q < p → v.getLsbD q = s.rbit Reg.CCH_WAYPWR (8 + q)) →
      ∃ t, exec i s = .next t ∧ t.mem.wayJob = some (p, v.getLsbD p) ∧ t.rbit Reg.CCH_WAYPWR 16 = true ∧
        getF (t.reg Reg.CCH_WAYPWR) 1 7 = getF v 1 7 ∧
        (t.reg Reg.CCH_WAYPWR).getLsbD 0 = (s.reg Reg.CCH_WAYPWR).getLsbD 0 ∧
        t = { s with regs := t.regs, evSeen := t.evSeen, mem := { s.mem with wayJob := t.mem.wayJob } } ∧
        RegsBut s t [Reg.CCH_WAYPWR])) ∧
  ∀ (p : Nat) (s : State), 1 ≤ p → p < 8 →
    (∀ q, 1 ≤ q → q < 8 → q ≠ p → s.rbit Reg.CCH_WAYPWR q = s.rbit Reg.CCH_WAYPWR (8 + q)) →
    (s.mem.wayJob = some (p, true) → s.rbit Reg.CCH_WAYPWR p = true → smRising s.mem.lines = true →
      ∃ t, exec .wayPairDone s = .next t ∧ t.mem.wayJob = none ∧ t.rbit Reg.CCH_WAYPWR (8 + p) = true ∧
        t.rbit Reg.CCH_WAYPWR 16 = false ∧ t.rbit Reg.CCH_STATUS 0 = true ∧ t.mem.vict = s.mem.vict ∧
        (∀ e, e ∈ t.mem.lines ↔ e ∈ s.mem.lines ∧ e.2.way / 2 ≠ p) ∧
        RegsBut s t [Reg.CCH_WAYPWR, Reg.CCH_STATUS] ∧ t.thrs = s.thrs ∧ t.mem.sram = s.mem.sram) ∧
    (s.mem.wayJob = some (p, false) → s.rbit Reg.CCH_WAYPWR p = false →
      ∃ t, exec .wayPairDone s = .next t ∧ t.mem.wayJob = none ∧ t.rbit Reg.CCH_WAYPWR (8 + p) = false ∧
        t.rbit Reg.CCH_WAYPWR 16 = false ∧
        t = { s with regs := t.regs, evSeen := t.evSeen, mem := { s.mem with wayJob := none } } ∧
        RegsBut s t [Reg.CCH_WAYPWR])

/-- SWEEP_STEP (R394, R400, R402, R403). -/
def Obligations.SweepRewritesWhatItCorrects : Prop :=
  ∀ (id : BitVec 7) (ix : W32) (u u2 : BitVec 80) (s : State),
    (s.rbit Reg.MEM_SWP_CTRL 0 = false → ∀ lap, ∃ t, exec (.sweepStep id ix u u2 lap) s = .next t ∧ Same s t) ∧
    (s.rbit Reg.MEM_SWP_CTRL 0 = true → s.pwr.st < 3 → id.toNat < 0x30 → ix.toNat < 0x1000 →
      let w := id.toNat * 0x2000 + ix.toNat
      let c := (s.sramWord w).upset u
      ∃ t, exec (.sweepStep id ix u u2 none) s = .next t ∧
        (diagnose c.syn = .good → t.sramWord w = c ∧ t.regs = s.regs) ∧
        (∀ b, diagnose c.syn = .corrected b → t.sramWord w = ⟨correctedData c, 0⟩ ∧
          ∃ n, n < 16 ∧ (t.elogAt id.toNat n).valid = true ∧ (t.elogAt id.toNat n).addr = 8 * ix.toNat ∧
            (t.elogAt id.toNat n).sweep = true ∧ t.rbit Reg.MEM_STATUS 2 = true ∨ t.rbit Reg.MEM_STATUS 4 = true) ∧
        (diagnose c.syn = .multiple → t.sramWord w = ⟨c.data, 0xFFFF⟩) ∧
        (∀ x, x ≠ w → t.sramWord x = s.sramWord x) ∧ t.mem.dram = s.mem.dram ∧ t.mem.cw = s.mem.cw ∧ t.thrs = s.thrs ∧
        RegsBut s t [Reg.MEM_STATUS]) ∧
    (s.rbit Reg.MEM_SWP_CTRL 0 = true → s.pwr.st < 3 → s.mem.ready = false → ∀ lap,
      (id = 0x38 → ∃ t, exec (.sweepStep id ix u u2 (some lap)) s = .next t ∧ t.reg Reg.MEM_SWP_LAP = lap ∧
        t.rbit Reg.MEM_STATUS 5 = true ∧ OnlyRegs s t [Reg.MEM_SWP_LAP, Reg.MEM_STATUS]) ∧
      (id = 0x37 → u = 0 → ∃ t, exec (.sweepStep id ix u u2 (some lap)) s = .next t ∧
        t.reg Reg.MEM_SWP_SLAP = (if s.reg Reg.MEM_SWP_SLAP < lap then lap else s.reg Reg.MEM_SWP_SLAP) ∧
        OnlyRegs s t [Reg.MEM_SWP_SLAP]))

/-- EVT_POST, EVT_CHECKPOINT, SUMMARY_CLEAR, PATROL_SLICE, PATROL_ITEM_END, PSI_FRAME, PSI_FRAME_SENT, GPIO_EDGE. -/
def Obligations.TrailLogPostsAndPatrol : Prop :=
  (∀ (p : Thr) (hi : W32) (s : State), s.mayReg (.thread p) (Reg.EVT_POST_ADDR_LO p + 4) = true →
    smFind s.pairPend p.val = none →
    let port := Reg.EVT_POST_ADDR_LO p
    let s1 := (s.setReg port (s.reg port &&& 0xFFFFFFF8)).setReg (port + 4) (hi &&& 0xFFFF)
    (s.rbit Reg.EVT_CTRL 0 = false → ∃ t, exec (.evtPost p hi) s = .next t ∧ t.reg (Reg.EVT_POST_STAT p) = 4 ∧
      OnlyRegs s t [port, port + 4, Reg.EVT_POST_STAT p]) ∧
    (s.rbit Reg.EVT_CTRL 0 = true →
      let r1 := s1.memRead (s1.postAddr p) 8
      let len := leAt r1.1 0 1 % 32
      let r2 := r1.2.2.memRead (s1.postAddr p + 8) (8 * len - 8)
      r1.2.1 = false → len ≠ 0 → 0x20 ≤ leAt r1.1 1 1 → r2.2.1 = false →
      ∃ t, exec (.evtPost p hi) s = .next t ∧
        let res := r2.2.2.record (leAt r1.1 0 1 / 32) (leAt r1.1 1 1) (leAt r1.1 2 2) r2.1
        t.reg (Reg.EVT_POST_STAT p) = BitVec.ofNat 32 res.1.code ∧ t.mem = res.2.mem ∧ t.evt = res.2.evt)) ∧
  (∀ (v : W32) (s : State), let o := getF v 3 16 * 8
    (o = (s.reg Reg.EVT_WR).toNat → ∃ t, exec (.evtCheckpoint v) s = .next t ∧ t.evt = { s.evt with used := 0 } ∧
      t.reg Reg.EVT_CKPT = BitVec.ofNat 32 o ∧ t = { s with evt := t.evt, regs := t.regs, evSeen := t.evSeen } ∧
      RegsBut s t [Reg.EVT_CKPT]) ∧
    (o ≠ (s.reg Reg.EVT_WR).toNat → o ∉ s.records → ∃ t, exec (.evtCheckpoint v) s = .next t ∧ Same s t)) ∧
  (∀ (v : W32) (s : State),
    (v.getLsbD 0 = true → ∃ t, exec (.summaryClear v) s = .next t ∧
      (∀ n, n < 64 → t.reg (Reg.EVT_SUM_KEY n) = 0 ∧ ∀ j, j < 5 → t.reg (Reg.EVT_SUM_VAL n j) = 0) ∧
      t = { s with regs := t.regs, evSeen := t.evSeen }) ∧
    (v.getLsbD 0 = false → ∃ t, exec (.summaryClear v) s = .next t ∧ Same s t)) ∧
  (∀ (i : Nat) (s : State), s.rbit Reg.PTL_CTRL 0 = true → s.ptl.item = none → s.pwr.st < 2 → i < 10 → s.ptl.next ≤ i →
    s.rbit Reg.PTL_MASK i = true → (∀ k, s.ptl.next ≤ k → k < i → s.rbit Reg.PTL_MASK k = false) → s.ptlIdle i = true →
    ∃ t, exec .patrolSlice s = .next t ∧
      t.ptl = { s.ptl with item := some i, start := if s.ptl.next = 0 then s.now else s.ptl.start } ∧
      t = { s with ptl := t.ptl, evSeen := t.evSeen }) ∧
  (∀ (i : Nat) (ok again : Bool) (inst : W8) (diff : W32) (s : State), s.ptl.item = some i → i < 9 →
    (if i = 6 then s.ucs.rep = [] else ok = true) → (∃ k, i < k ∧ k < 10 ∧ s.rbit Reg.PTL_MASK k = true) →
    ∃ t, exec (.patrolItemEnd ok again inst diff) s = .next t ∧
      t.reg (Reg.PTL_ITEM i) = setF (setF (s.reg (Reg.PTL_ITEM i)) 30 1 0) 0 16 (satAdd (getF (s.reg (Reg.PTL_ITEM i)) 0 16) 1 16) ∧
      t.ptl = { s.ptl with item := none, next := i + 1 } ∧ t = { s with regs := t.regs, ptl := t.ptl, evSeen := t.evSeen } ∧
      RegsBut s t [Reg.PTL_ITEM i]) ∧
  (∀ (m : Act) (v : W32) (s : State), v.getLsbD 31 = true →
    (s.rbit (Reg.MCA_PSI_CTRL m) 31 = false → ∃ t, exec (.psiFrame m v) s = .next t ∧
      t.rbit (Reg.MCA_PSI_CTRL m) 31 = true ∧
      (t.med m).psi = (s.med m).psi ++ [⟨v.getLsbD 30, getF v 0 16, s.fld (Reg.MCA_PSI_DATA m) 0 16, false, false⟩] ∧
      RegsBut s t [Reg.MCA_PSI_CTRL m] ∧ t = { s with regs := t.regs, med0 := t.med0, med1 := t.med1, evSeen := t.evSeen } ∧
      t.med (1 - m.val) = s.med (1 - m.val)) ∧
    (s.rbit (Reg.MCA_PSI_CTRL m) 31 = true → ∃ t, exec (.psiFrame m v) s = .next t ∧ Same s t)) ∧
  (∀ (m : Act) (x : W16) (f : PsiFrame) (rest : List PsiFrame) (s : State), (s.med m).psi = f :: rest → f.auto = false →
    f.heat = false →
    ∃ t, exec (.psiFrameSent m x) s = .next t ∧ t.out = s.out ++ [.psiFrame m f.read f.addr f.data] ∧
      t.rbit (Reg.MCA_PSI_CTRL m) 31 = false ∧
      (f.read = true → getF (t.reg (Reg.MCA_PSI_DATA m)) 16 16 = x.toNat) ∧
      (f.read = false → t.reg (Reg.MCA_PSI_DATA m) = s.reg (Reg.MCA_PSI_DATA m)) ∧
      (t.med m).psi = rest.filter (·.auto) ++ rest.filter (fun x => !x.auto) ∧
      RegsBut s t [Reg.MCA_PSI_CTRL m, Reg.MCA_PSI_DATA m] ∧ t.mem = s.mem) ∧
  ∀ (n : BitVec 4) (rise : Bool) (s : State), s.pwr.st < 3 → (rise = false ∨ 2 ≤ n.toNat) →
    ∃ t, exec (.gpioEdge n rise) s = .next t ∧ t.rbit Reg.NVI_GPIO_IN n.toNat = rise ∧
      t.rbit Reg.NVI_GPIO_STATUS (if rise then n.toNat else 16 + n.toNat) = true ∧
      OnlyRegs s t [Reg.NVI_GPIO_IN, Reg.NVI_GPIO_STATUS]

/-- DMA_GO, DMA_KICK, DMA_ABORT and RDPTR_WRITE (R408, R413 to R415). -/
def Obligations.DmaChannelsStartParkAndStop : Prop :=
  (∀ (c : DCh) (v : W32) (s : State), v.getLsbD 0 = true → v.getLsbD 1 = false → v.getLsbD 2 = false →
    (s.dmaRuns c = false → ∃ t, exec (.dmaGo c v) s = .next t ∧ t.dmaSt c = 1 ∧
      t.reg64 (Reg.DMA_CH_CUR_LO c) = s.reg64 (Reg.DMA_CH_HEAD_LO c) ∧ t.reg (Reg.DMA_CH_WRPTR c) = 0 ∧
      t.reg (Reg.DMA_CH_RDPTR c) = 0 ∧ t.rbit (Reg.DMA_CH_CTRL c) 8 = v.getLsbD 8 ∧ t.dmaCh c = DmaCh.reset ∧
      (∀ d, d ≠ c.val → t.dmaCh d = s.dmaCh d) ∧ t = { s with regs := t.regs, dch := t.dch, evSeen := t.evSeen } ∧
      RegsBut s t [Reg.DMA_CH_CTRL c, Reg.DMA_CH_STATE c, Reg.DMA_CH_CUR_LO c, Reg.DMA_CH_CUR_LO c + 4, Reg.DMA_CH_WRPTR c,
        Reg.DMA_CH_RDPTR c]) ∧
    (s.dmaRuns c = true → ∃ t, exec (.dmaGo c v) s = .next t ∧ OnlyRegs s t [Reg.DMA_CH_CTRL c])) ∧
  (∀ (c : DCh) (v : W32) (s : State), v.getLsbD 0 = false → v.getLsbD 1 = true → v.getLsbD 2 = false →
    (s.dmaRuns c = true → ∃ t, exec (.dmaKick c v) s = .next t ∧ t.dmaCh c = { s.dmaCh c with kick := true } ∧
      (∀ d, d ≠ c.val → t.dmaCh d = s.dmaCh d) ∧ t = { s with regs := t.regs, dch := t.dch, evSeen := t.evSeen } ∧
      RegsBut s t [Reg.DMA_CH_CTRL c]) ∧
    (s.dmaSt c = 3 →
      let s1 := s.setFld (Reg.DMA_CH_CTRL c) 8 1 (getF v 8 1)
      let r := s1.memRead (s.reg64 (Reg.DMA_CH_CUR_LO c) / 64 * 64 + 24) 8
      r.2.1 = false →
      (ofLe r.1 ≠ 0 → ∃ t, exec (.dmaKick c v) s = .next t ∧ t.dmaSt c = 1 ∧
        t.reg64 (Reg.DMA_CH_CUR_LO c) = ofLe r.1 ∧ (t.dmaCh c).desc = none ∧ t.mem = r.2.2.mem) ∧
      (ofLe r.1 = 0 → ∃ t, exec (.dmaKick c v) s = .next t ∧ t.dmaSt c = 3 ∧
        t.reg64 (Reg.DMA_CH_CUR_LO c) = s.reg64 (Reg.DMA_CH_CUR_LO c) ∧ t.mem = r.2.2.mem))) ∧
  (∀ (c : DCh) (v : W32) (atEnd : Bool) (s : State), v.getLsbD 0 = false → v.getLsbD 1 = false → v.getLsbD 2 = true →
    (s.dmaRuns c = false → ∃ t, exec (.dmaAbort c v atEnd) s = .next t ∧ t.dmaSt c = 0 ∧
      t.rbit (Reg.DMA_CH_CTRL c) 2 = false ∧ (t.dmaCh c).desc = none ∧ (∀ d, d ≠ c.val → t.dmaCh d = s.dmaCh d) ∧
      (∀ e, e < 4 → (t.shaEng e).owner ≠ some c.val) ∧ t.mem = s.mem ∧
      RegsBut s t [Reg.DMA_CH_CTRL c, Reg.DMA_CH_STATE c]) ∧
    (s.dmaRuns c = true → (s.dmaCh c).desc.isSome = true → (s.dmaCh c).wbDone = false →
      ((s.dmaCh c).finished = false ∨ atEnd = false) → ∃ t, exec (.dmaAbort c v atEnd) s = .next t ∧
      t.rbit (Reg.DMA_CH_CTRL c) 2 = true ∧ (t.dmaCh c).aborted = true ∧ (∀ d, d ≠ c.val → t.dmaCh d = s.dmaCh d) ∧
      t = { s with regs := t.regs, dch := t.dch, evSeen := t.evSeen } ∧ RegsBut s t [Reg.DMA_CH_CTRL c])) ∧
  ∀ (c : DCh) (v : W32) (s : State),
    let size := match (s.dmaCh c).desc with
      | some d => if dRing d = 0 then (s.dmaCh c).ring else dRing d
      | none => (s.dmaCh c).ring
    ((s.reg (Reg.DMA_CH_WRPTR c) - v).toNat ≤ size → ∃ t, exec (.rdptrWrite c v) s = .next t ∧
      t.reg (Reg.DMA_CH_RDPTR c) = v ∧ OnlyRegs s t [Reg.DMA_CH_RDPTR c]) ∧
    (size < (s.reg (Reg.DMA_CH_WRPTR c) - v).toNat → ∃ t, exec (.rdptrWrite c v) s = .next t ∧ Same s t)

/-- DESCRIPTOR_FETCH, DMA_BEAT, DESCRIPTOR_END and INDEXED_REQUEST (R404 to R413). -/
def Obligations.DmaDescriptorsMoveAndEnd : Prop :=
  (∀ (c : DCh) (s : State), s.dmaRuns c = true → (s.dmaCh c).desc = none →
    let r := s.memRead (s.reg64 (Reg.DMA_CH_CUR_LO c) / 64 * 64) 64
    (r.2.1 = false → dAcc r.1 = 0 → ∃ t, exec (.descriptorFetch c) s = .next t ∧
      (t.dmaCh c).desc = some r.1 ∧ (t.dmaCh c).acc = [] ∧ (t.dmaCh c).bad = r.2.2.descBad r.1 ∧
      (t.dmaCh c).wrPos = (s.dmaCh c).wrPos ∧ (∀ d, d ≠ c.val → t.dmaCh d = s.dmaCh d) ∧
      t = { r.2.2 with regs := t.regs, dch := t.dch, evSeen := t.evSeen } ∧
      RegsBut r.2.2 t (if dStream r.1 || dIndexed r.1 then [Reg.DMA_CH_STATE c] else []) ∧
      ((dStream r.1 || dIndexed r.1) = true → r.2.2.descBad r.1 = false → t.dmaSt c = 2)) ∧
    (r.2.1 = true → ∃ t, exec (.descriptorFetch c) s = .next t ∧ t.dmaSt c = 4 ∧ t.rbit Reg.DMA_ERRSTATUS c = true ∧
      (t.dmaCh c).desc = none ∧ t.mem = r.2.2.mem)) ∧
  (∀ (c : DCh) (d : List W8) (a : Nat) (s : State), s.dmaRuns c = true → (s.dmaCh c).desc = some d →
    (s.dmaCh c).phase = .idle → (s.dmaCh c).outW = 0 → s.dmaTurn = some c.val →
    (s.dmaCh c).finished = false → dStream d = false → dIndexed d = false → dRing d = 0 →
    ((s.dmaCh c).obuf ≠ [] → s.dmaPlace (dDst d + (s.dmaCh c).wrPos) = .dram a →
      let x := s.dmaCh c
      let l := x.obuf.take (64 - (dDst d + x.wrPos) % 64)
      ∃ t, exec (.dmaBeat c) s = .next t ∧ t.mem = (s.memWriteMarked a l).mem ∧
        t.dmaCh c = { x with
          wrPos := x.wrPos + l.length, obuf := x.obuf.drop l.length, phase := .idle,
          finished := x.aborted || decide (dLen d ≤ x.wrPos + l.length) } ∧
        (∀ e, e ≠ c.val → t.dmaCh e = s.dmaCh e) ∧ t.thrs = s.thrs) ∧
    ((s.dmaCh c).obuf = [] → (s.dmaCh c).acc = [] → (s.dmaCh c).buf = [] → (s.dmaCh c).rdPos = (s.dmaCh c).wrPos →
      s.dmaPlace (dSrc d + (s.dmaCh c).rdPos) = .dram a →
      let x := s.dmaCh c
      let n := min (dLen d - x.wrPos) (64 - (dDst d + x.wrPos) % 64)
      let r := s.memReadMarked a n (n + 1)
      ∃ t, exec (.dmaBeat c) s = .next t ∧ t.mem = r.2.mem ∧ (t.dmaCh c).obuf = r.1 ∧ (t.dmaCh c).buf = [] ∧
        (t.dmaCh c).rdPos = x.rdPos + r.1.length ∧ (t.dmaCh c).ue = (x.ue || anyMark r.1) ∧
        (∀ e, e ≠ c.val → t.dmaCh e = s.dmaCh e) ∧ t.thrs = s.thrs)) ∧
  (∀ (c : DCh) (d : List W8) (s : State), s.dmaRuns c = true → (s.dmaCh c).desc = some d → (s.dmaCh c).finished = true →
    (s.dmaCh c).phase = .idle → (s.dmaCh c).outW = 0 → (s.dmaCh c).wbDone = false → (s.dmaCh c).acc = [] → dMsg d = false →
    (s.dmaCh c).aborted = false → (s.dmaCh c).stopIdle = false → (s.dmaCh c).kick = false → dStop d = false →
    dIndexed d = false →
    let x := s.dmaCh c
    let cur := s.reg64 (Reg.DMA_CH_CUR_LO c)
    let wb := leBytes 4 x.wrPos ++ leBytes 1 x.stat ++
      leBytes 1 (b2n x.idxErr + 2 * b2n x.ue + 4 * b2n x.noDigest + 128) ++ [0, 0]
    ∃ t, exec (.descriptorEnd c) s = .next t ∧ t.mem = (s.memWrite (cur / 64 * 64 + 56) wb).mem ∧
      getF (t.reg (Reg.DMA_CH_STATE c)) 8 8 = x.stat ∧
      (x.stat ≠ 0 → t.rbit Reg.DMA_ERRSTATUS c = true) ∧ (dIrq d = true → t.rbit Reg.DMA_STATUS c = true) ∧
      (dNext d = 0 → t.dmaSt c = 3 ∧ t.reg64 (Reg.DMA_CH_CUR_LO c) = cur) ∧
      (dNext d ≠ 0 → t.dmaSt c = 1 ∧ t.reg64 (Reg.DMA_CH_CUR_LO c) = dNext d) ∧ (t.dmaCh c).desc = none ∧
      (∀ e, e ≠ c.val → t.dmaCh e = s.dmaCh e) ∧ t.thrs = s.thrs) ∧
  ∀ (m : Act) (i : W16) (a : ActWr) (s : State), (s.med m).wr = some a →
    let c := a.run.dataCh
    a.run.start ≠ 0 → s.portCurrent c (2 + 4 * m) false = true →
    smFind (s.med m).staged i.toNat = none → (s.dmaCh c).idxReq = none →
    i.toNat < a.run.count → dLen ((s.dmaCh c).desc.getD []) ≤ 4096 * i.toNat →
    ∃ t, exec (.indexedRequest m i) s = .next t ∧ (t.dmaCh c).idxErr = true ∧
      smFind (t.med m).staged i.toNat = some none ∧ t.mem = s.mem ∧ 
      t = { s with dch := t.dch, med0 := t.med0, med1 := t.med1, evSeen := t.evSeen }

/-- ZONE_COMMIT, ZONE_LOAD_DONE, READ_GO, READ_RUN_START, READ_ABORT and RET_UNPIN. -/
def Obligations.MediaZonesAndReadRunsStart : Prop :=
  (∀ (m : Act) (s : State), (s.med m).zonePend = true → (s.med m).idle = true →
    let v := s.reg (Reg.MCA_ZONE_SEL m)
    let h := getF v 8 5
    let r := s.memRead (s.reg64 (Reg.MCA_ZTAB_LO m) / 512 * 512 + (h * 64 + getF v 0 6) * 512) 512
    ∃ t, exec (.zoneCommit m) s = .next t ∧
      t.med m = { s.med m with
        zonePend := false, zone := [], zoneNew := r.1, zoneBad := r.2.1, fe := (s.med m).fe &&& r.2.2.headReaders m h } ∧
      t.reg (Reg.MCA_ZONE_STAT m) = 0x40000000 ||| BitVec.ofNat 32 (h * 256 + getF v 0 6) ∧
      t.act (Reg.MCA_ZONE_SEL m) = v ∧ t.reg (Reg.MCA_WR_BAND m) = BitVec.ofNat 32 s.packBand ∧
      (h ≠ s.zHead m → (t.gact m).resolve = true ∧ (t.gact m).hold = true) ∧ (h = s.zHead m → t.gact0 = s.gact0 ∧ t.gact1 = s.gact1) ∧
      t.med (1 - m.val) = s.med (1 - m.val) ∧ t.gact (1 - m.val) = s.gact (1 - m.val) ∧ t.mem = r.2.2.mem ∧
      t.thrs = s.thrs ∧ RegsBut r.2.2 t [Reg.MCA_ZONE_STAT m, Reg.MCA_WR_BAND m]) ∧
  (∀ (m : Act) (s : State), s.rbit (Reg.MCA_ZONE_STAT m) 30 = true →
    let x := s.med m
    let f := zoneFault (s.zHead m) x.zoneNew x.zoneBad
    (f ≠ 0 → ∃ t, exec (.zoneLoadDone m) s = .next t ∧ t.med m = { x with zoneNew := [], fe := 0 } ∧
      t.reg (Reg.MCA_ZONE_STAT m) = setF (s.reg (Reg.MCA_ZONE_STAT m) &&& ~~~ 0x40000000) 24 4 f ∧
      t.reg (Reg.MCA_STATUS m) = s.reg (Reg.MCA_STATUS m) ||| 2 ∧ MedOnly s t m [Reg.MCA_ZONE_STAT m, Reg.MCA_STATUS m]) ∧
    (f = 0 → ∃ t, exec (.zoneLoadDone m) s = .next t ∧
      t.med m = { x with
        zone := x.zoneNew, zoneNew := [], lms := (List.range 39).map fun i => 256 * sgn16 (leAt x.zoneNew (32 + 2 * i) 2)
        fe := if s.rbit (Reg.MCA_CTRL m) 0 then s.headReaders m (s.zHead m) else 0
        psi := x.psi ++ psiFrames [(s.fld (Reg.MCA_WR_PSIA0 m) 16 16,
          leAt x.zoneNew (424 + 12 * (s.reg (Reg.MCA_WR_BAND m)).toNat) 2, false)] } ∧
      t.reg (Reg.MCA_ZONE_STAT m) = (s.reg (Reg.MCA_ZONE_STAT m) &&& ~~~ 0x40000000) ||| 0x80000000 ∧
      t.reg (Reg.MCA_STATUS m) = s.reg (Reg.MCA_STATUS m) ||| 1 ∧
      (∀ i, i < 39 → t.reg (Reg.MCA_LIVE_TAP m i) = BitVec.ofNat 32 (leAt x.zoneNew (32 + 2 * i) 2)) ∧
      MedOnly s t m ([Reg.MCA_ZONE_STAT m, Reg.MCA_STATUS m] ++ (List.range 39).map (Reg.MCA_LIVE_TAP m)))) ∧
  (∀ (m : Act) (v : W32) (s : State), v.getLsbD 0 = true → v.getLsbD 2 = false →
    ((s.med m).rdPend = none → ∃ t, exec (.readGo m v) s = .next t ∧
      t.med m = { s.med m with
        wrFirst := (s.med m).wrPend.isSome
        rdPend := some {
          cyl := (s.reg (Reg.MCA_RD_CYL m)).toNat, start := s.fld (Reg.MCA_RD_SECT m) 0 16,
          count := max 1 (s.fld (Reg.MCA_RD_SECT m) 16 16), recCh := s.fld (Reg.MCA_RD_DMA m) 8 5,
          dataCh := s.fld (Reg.MCA_RD_DMA m) 0 5, lstart := getF v 17 3, keep := v.getLsbD 16 } } ∧
      t.rbit (Reg.MCA_RD_CTRL m) 0 = false ∧ t.reg (Reg.MCA_RD_STAT m) = s.reg (Reg.MCA_RD_STAT m) ||| 0x40000000 ∧
      MedOnly s t m [Reg.MCA_RD_CTRL m, Reg.MCA_RD_STAT m]) ∧
    ((s.med m).rdPend ≠ none → ∃ t, exec (.readGo m v) s = .next t ∧ t.rbit (Reg.MCA_RD_CTRL m) 0 = true ∧
      OnlyRegs s t [Reg.MCA_RD_CTRL m])) ∧
  (∀ (m : Act) (r : RdRun) (s : State), (s.med m).rdPend = some r → (s.med m).idle = true → s.medReady m = true →
    (s.med m).zonePend = false → ((s.med m).wrPend = none ∨ (s.med m).wrFirst = false) → s.rbit (Reg.MCA_RD_CTRL m) 0 = false →
    (s.med m).readAt ≤ s.now → ∃ t, exec (.readRunStart m) s = .next t ∧
      t.med m = { s.med m with
        rdPend := none, rd := some ⟨r, 0, false, false, [], [], [], 0⟩, offSeen := false
        psi := (s.med m).psi ++ psiFrames [(s.fld (Reg.MCA_WR_PSIA0 m) 16 16, s.zoneF m (424 + 12 * s.packBand) 2, false)] } ∧
      t.reg (Reg.MCA_RD_STAT m) = 0x80000000 ||| (s.reg (Reg.MCA_RD_STAT m) &&& 0x30000000) ∧ t.reg (Reg.MCA_WR_BAND m) = BitVec.ofNat 32 s.packBand ∧
      MedOnly s t m [Reg.MCA_RD_STAT m, Reg.MCA_WR_BAND m]) ∧
  (∀ (m : Act) (v : W32) (atEnd : Bool) (s : State), v.getLsbD 0 = false → v.getLsbD 2 = true →
    ((s.med m).rd = none → s.rbit (Reg.MCA_RD_CTRL m) 0 = false →
      ∃ t, exec (.readAbort m v atEnd) s = .next t ∧ t.med m = { s.med m with rdPend := none } ∧
        t.rbit (Reg.MCA_RD_CTRL m) 2 = false ∧ t.rbit (Reg.MCA_RD_STAT m) 30 = false ∧
        MedOnly s t m [Reg.MCA_RD_CTRL m, Reg.MCA_RD_STAT m]) ∧
    ((s.med m).rd = none → s.rbit (Reg.MCA_RD_CTRL m) 0 = true →
      ∃ t r, exec (.readAbort m v atEnd) s = .next t ∧ (t.med m).rdPend = some r ∧
        r.cyl = (s.reg (Reg.MCA_RD_CYL m)).toNat ∧ r.start = s.fld (Reg.MCA_RD_SECT m) 0 16 ∧
        t.rbit (Reg.MCA_RD_CTRL m) 0 = false ∧ t.rbit (Reg.MCA_RD_CTRL m) 2 = false ∧ t.rbit (Reg.MCA_RD_STAT m) 30 = true ∧
        MedOnly s t m [Reg.MCA_RD_CTRL m, Reg.MCA_RD_STAT m]) ∧
    (∀ a, (s.med m).rd = some a → a.fly ≠ [] → (∀ x ∈ a.lad, x.slot < 16) → a.out.length + a.lad.length ≤ 4 → atEnd = false →
      s.rbit (Reg.MCA_RD_CTRL m) 0 = false →
      ∃ t b, exec (.readAbort m v atEnd) s = .next t ∧ (t.med m).rd = some b ∧ b.abort = true ∧ b.lad = [] ∧
        b.fly = a.fly ∧ b.next = a.next ∧ b.run = a.run ∧
        b.out.map (fun e => (e.idx, e.status)) = a.out.map (fun e => (e.idx, e.status)) ++ a.lad.map (fun x => (x.idx, 0x14)) ∧
        (t.med m).rdPend = none ∧ t.rbit (Reg.MCA_RD_CTRL m) 2 = true ∧ t.rbit (Reg.MCA_RD_STAT m) 30 = false ∧
        MedOnly s t m ([Reg.MCA_RD_CTRL m, Reg.MCA_RD_STAT m] ++ sectRegs m))) ∧
  ∀ (m : Act) (v : W32) (s : State),
    let held := fun k => ((s.med m).rd.map (fun a => a.lad.any fun x => x.pinned && x.slot == k)).getD false
    ∃ t, exec (.retUnpin m v) s = .next t ∧
      t.med m = { s.med m with
        unpinLater := (s.med m).unpinLater ++ (List.range 16).filter (fun k => v.getLsbD k && held k) } ∧
      (∀ k, k < 16 → t.reg (Reg.MCA_RET_SLOT_B m k) = if v.getLsbD k && !held k then
        setF (s.reg (Reg.MCA_RET_SLOT_B m k)) 30 1 0 else s.reg (Reg.MCA_RET_SLOT_B m k)) ∧
      MedOnly s t m ((List.range 16).map (Reg.MCA_RET_SLOT_B m))

/-- SECTOR_CAPTURE, OTF_DECODE_START, OTF_DECODE_END, RETRY_ENTRY_END, REREAD_REVOLUTION and SECTOR_RECORD_DELIVER. -/
def Obligations.SectorsAreCapturedDecodedAndDelivered : Prop :=
  (∀ (m : Act) (cap : Capture) (a : ActRd) (s : State), captureWf cap = true → (s.med m).rd = some a → a.abort = false →
    a.overrun = false → a.next < a.run.count → s.rbit (Reg.MCA_CTRL m) 0 = true →
    (4 ≤ a.out.length → ∃ t, exec (.sectorCapture m cap) s = .next t ∧
      t.med m = { s.med m with rd := some { a with overrun := true } } ∧ MedOnly s t m []) ∧
    (a.out.length < 4 → s.noReaders m = true → ∃ t rc, exec (.sectorCapture m cap) s = .next t ∧
      RecordOf rc a.run.cyl (a.run.start + a.next) 0x15 a.next (List.replicate 32 0) ∧
      (t.med m).rd = some { a with next := a.next + 1, out := a.out ++ [⟨a.next, 0x15, rc, none⟩] } ∧
      t.mem = s.mem ∧ MedOnly s t m (sectRegs m)) ∧
    (a.out.length < 4 → s.noReaders m = false → s.rbit (Reg.MCA_CTRL m) 7 = false →
      let smp := (s.sample m cap).2
      let arb := s.arbOf m .live smp
      let k := s.nextSlot m
      arb.neither = false → s.slotOf m a.run.cyl (s.zHead m) (a.run.start + a.next) = none →
      ∃ t x, exec (.sectorCapture m cap) s = .next t ∧
        (t.med m).rd = some { a with next := a.next + 1, fly := a.fly ++ [x] } ∧ x.idx = a.next ∧ x.slot = k ∧
        x.start = arb.start ∧ x.smp = smp ∧ x.pinned = false ∧ x.inBuf = false ∧ (t.med m).loops = (s.sample m cap).1 ∧
        SlotHolds s t m k ((List.range 3).flatMap fun r => s.readerBytes m r (smp.getD r [])) ∧
        t.reg (Reg.MCA_RET_SLOT_A m k) = BitVec.ofNat 32 a.run.cyl ∧
        t.reg (Reg.MCA_RET_SLOT_B m k) = 0x80000000 ||| BitVec.ofNat 32 (s.zHead m * 2 ^ 16 + (a.run.start + a.next)) ∧
        t.fld (Reg.MCA_RET_NEXT m) 0 4 = k ∧ t.mem.dram = s.mem.dram ∧ t.thrs = s.thrs ∧
        t.med (1 - m.val) = s.med (1 - m.val) ∧
        RegsBut s t [Reg.MCA_RET_SLOT_A m k, Reg.MCA_RET_SLOT_B m k, Reg.MCA_RET_NEXT m, Reg.MCA_STATUS m])) ∧
  (∀ (m : Act) (a : ActRd) (x : Sect) (s : State), (s.med m).rd = some a → (a.fly.filter (·.inBuf)).length < 4 →
    a.fly.find? (fun y => !y.inBuf) = some x → ∃ t, exec (.otfDecodeStart m) s = .next t ∧
      t.med m = { s.med m with rd := some { a with fly := a.fly.map fun y => if y.idx = x.idx then { y with inBuf := true } else y } } ∧
      MedOnly s t m []) ∧
  (∀ (m : Act) (full : Nat) (a : ActRd) (x : Sect) (rest : List Sect) (s : State), (s.med m).rd = some a →
    a.fly = x :: rest → x.inBuf = true → a.out.length < 4 → x.slot < 16 →
    let d := (s.flyDecode m x (if 4 ≤ (a.fly.filter (·.inBuf)).length then max 1 (min 12 full) else 12)).1
    let p := decodedPayload a.run.cyl (a.run.start + x.idx) d
    (d.conv = true → payloadCheck p = 0 → ∃ t rc, exec (.otfDecodeEnd m full) s = .next t ∧
      RecordOf rc a.run.cyl (a.run.start + x.idx) 0 x.idx (sliceB p 4096 32) ∧
      (t.med m).rd = some { a with fly := rest, out := a.out ++ [⟨x.idx, 0, rc, some (sliceB p 0 4096)⟩] } ∧
      t.reg (Reg.MCA_CNT m 0) = BitVec.ofNat 32 (satAdd (s.reg (Reg.MCA_CNT m 0)).toNat 1 32) ∧ t.mem = s.mem ∧
      MedOnly s t m (sectRegs m ++ (List.range 39).map (Reg.MCA_LIVE_TAP m))) ∧
    (d.conv = false → a.abort = false → a.lad ≠ [] → ∃ t y, exec (.otfDecodeEnd m full) s = .next t ∧
      (t.med m).rd = some { a with fly := rest, lad := a.lad ++ [y] } ∧ y.idx = x.idx ∧ y.reason = 2 ∧
      y.entry = a.run.lstart ∧ y.revs = 0 ∧
      (y.pinned = true ∨ y.noPin = true ∧ t.rbit (Reg.MCA_STATUS m) 7 = true) ∧ t.mem = s.mem ∧
      MedOnly s t m (sectRegs m ++ (List.range 39).map (Reg.MCA_LIVE_TAP m)))) ∧
  (∀ (m : Act) (ups : List SlotUpset) (a : ActRd) (x : Sect) (s0 : State), (s0.med m).rd = some a → a.lad = [x] → a.out.length < 4 →
    x.slot < 16 → let s := if x.pinned then s0.slotHit m x.slot ups else s0
    ((s.ladMode m x.entry ≠ 4 ∧ s.ladMode m x.entry ≠ 5) ∨ x.revsLeft = 0) →
    let alt := s.ladMode m x.entry == 3
    let smp := s.ladSamples m x
    let x0 := x.withArb (s.arbOf m (if alt then .alt else .entry) smp)
    let x1 := if x.pinned then (s.sectDefects m x0 smp alt).1 else x0
    let d := (s.ladDecode m a x1 smp).2.1
    (∀ p, goodPayload a.run.cyl (a.run.start + x.idx) d = some p →
      let st := if x.reread then 2 else 1
      ∃ t rc, exec (.retryEntryEnd m ups) s0 = .next t ∧
        RecordOf rc a.run.cyl (a.run.start + x.idx) st x.idx (sliceB p 4096 32) ∧
        (t.med m).rd = some { a with lad := [], out := a.out ++ [⟨x.idx, st, rc, some (sliceB p 0 4096)⟩] } ∧
        t.reg (Reg.MCA_CNT m st) = BitVec.ofNat 32 (satAdd (s.reg (Reg.MCA_CNT m st)).toNat 1 32) ∧ t.mem = s.mem ∧
        MedOnly s t m (sectRegs m)) ∧
    (goodPayload a.run.cyl (a.run.start + x.idx) d = none → a.abort = false → x.entry < 7 → x.pinned = true →
      (s.ladMode m (x.entry + 1) = 1 ∨ s.ladMode m (x.entry + 1) = 2 ∨ s.ladMode m (x.entry + 1) = 3) →
      ∃ t y, exec (.retryEntryEnd m ups) s0 = .next t ∧ (t.med m).rd = some { a with lad := [y] } ∧ y.idx = x.idx ∧
        y.slot = x.slot ∧ y.entry = x.entry + 1 ∧ t.mem = s.mem ∧ MedOnly s t m [Reg.MCA_STATUS m])) ∧
  (∀ (m : Act) (cap : Capture) (a : ActRd) (x : Sect) (rest : List Sect) (s : State), captureWf cap = true →
    (s.med m).rd = some a → a.lad = x :: rest → x.revsLeft ≠ 0 → x.pinned = true → x.slot < 16 →
    (s.ladMode m x.entry = 4 ∨ s.ladMode m x.entry = 5) → s.rbit (Reg.MCA_CTRL m) 7 = false →
    let smp := (s.sample m cap).2
    (s.arbOf m .live smp).neither = false →
    ∃ t y, exec (.rereadRevolution m cap) s = .next t ∧ (t.med m).rd = some { a with lad := y :: rest } ∧ y.idx = x.idx ∧
      y.slot = x.slot ∧ y.pinned = true ∧ y.revs = x.revs + 1 ∧ y.revsLeft = x.revsLeft - 1 ∧ y.reread = true ∧
      (s.ladMode m x.entry = 4 → SlotHolds s t m x.slot ((List.range 3).flatMap fun r => s.readerBytes m r (smp.getD r []))) ∧
      (s.ladMode m x.entry = 5 →
        t.fld (Reg.MCA_RET_SLOT_B m x.slot) 26 4 = min 16 (s.fld (Reg.MCA_RET_SLOT_B m x.slot) 26 4 + 2) - 1) ∧
      t.mem.dram = s.mem.dram ∧ t.thrs = s.thrs ∧ t.med (1 - m.val) = s.med (1 - m.val) ∧
      RegsBut s t [Reg.MCA_STATUS m, Reg.MCA_RET_SLOT_A m x.slot, Reg.MCA_RET_SLOT_B m x.slot, Reg.MCA_RET_NEXT m]) ∧
  ∀ (m : Act) (a : ActRd) (e e2 : EndedSect) (rest : List EndedSect) (s : State), (s.med m).rd = some a →
    a.out = e :: e2 :: rest → e.data = none → a.lad = [] →
    let r := s.streamPut a.run.recCh (1 + 4 * m) e.record
    r.1 = true → r.2.med m = s.med m → ∃ t, exec (.sectorRecordDeliver m) s = .next t ∧
      t.med m = { s.med m with rd := some { a with out := e2 :: rest, done := a.done + 1 } } ∧
      t.fld (Reg.MCA_RD_STAT m) 0 16 = (a.done + 1) % 2 ^ 16 ∧ t.mem = r.2.mem ∧ t.thrs = r.2.thrs ∧
      MedOnly r.2 t m [Reg.MCA_RD_STAT m]

/-- WRITE_GO, WRITE_RUN_START, SLOT_WRITE, WRITE_UNDERRUN, VERIFY_RESULT, REWRITE_REVOLUTION, CAIRN_WRITE, WRITE_ABORT and
WRITE_RECORD_DELIVER. -/
def Obligations.WriteRunsWriteVerifyAndRewrite : Prop :=
  (∀ (m : Act) (v : W32) (s : State), v.getLsbD 0 = true → v.getLsbD 2 = false → (s.med m).wrPend = none →
    ∃ t, exec (.writeGo m v) s = .next t ∧
      t.med m = { s.med m with
        wrFirst := (s.med m).rdPend.isNone
        wrPend := some {
          cyl := (s.reg (Reg.MCA_WR_CYL m)).toNat, start := s.fld (Reg.MCA_WR_SECT m) 0 16,
          count := max 1 (s.fld (Reg.MCA_WR_SECT m) 16 16), recCh := s.fld (Reg.MCA_WR_DMA m) 8 5,
          dataCh := s.fld (Reg.MCA_WR_DMA m) 0 5, desc := s.reg64 (Reg.MCA_WR_DESC_LO m),
          cairn := s.reg64 (Reg.MCA_WR_CAIRN_LO m), close := v.getLsbD 16 } } ∧
      t.rbit (Reg.MCA_WR_CTRL m) 0 = false ∧ t.reg (Reg.MCA_WR_STAT m) = s.reg (Reg.MCA_WR_STAT m) ||| 0x40000000 ∧
      MedOnly s t m [Reg.MCA_WR_CTRL m, Reg.MCA_WR_STAT m]) ∧
  (∀ (m : Act) (r : WrRun) (s : State), (s.med m).wrPend = some r → (s.med m).idle = true → s.medReady m = true →
    (s.med m).zonePend = false → ((s.med m).rdPend = none ∨ (s.med m).wrFirst = true) → s.rbit (Reg.MCA_WR_CTRL m) 0 = false →
    let b := 416 + 12 * s.packBand
    ∃ t, exec (.writeRunStart m) s = .next t ∧
      t.med m = { s.med m with
        wrPend := none, staged := [], gateAt := 0
        fe := if s.fld (Reg.MCA_VFY_CFG m) 0 2 ≠ 0 ∧ s.reader m 3 = true then 8 else 0
        wr := some {
          run := r, mode := min 2 (s.fld (Reg.MCA_VFY_CFG m) 0 2), band := s.packBand, next := 0, cur := none,
          htrWait := s.fld (Reg.MCA_WR_PSIA0 m) 16 16 != 0, vfy := [], rew := [],
          revs := 0, abort := false, under := false, cairn := if r.start = 0 ∨ r.close then 1 else 0, out := [], done := 0 }
        psi := (s.med m).psi ++ psiFrames [(s.fld (Reg.MCA_WR_PSIA0 m) 0 16, s.zoneF m (b + 4) 2, false),
          (s.fld (Reg.MCA_WR_PSIA0 m) 16 16, s.zoneF m (b + 6) 2, true),
          (s.fld (Reg.MCA_WR_PSIA1 m) 0 16, s.zoneF m (b + 10) 2, false)] } ∧
      t.reg (Reg.MCA_WR_STAT m) = 0x80000000 ||| (s.reg (Reg.MCA_WR_STAT m) &&& 0x30000000) ∧ t.reg (Reg.MCA_WR_BAND m) = BitVec.ofNat 32 s.packBand ∧
      MedOnly s t m [Reg.MCA_WR_STAT m, Reg.MCA_WR_BAND m]) ∧
  (∀ (m : Act) (gates : List Nat) (a : ActWr) (data : List W8) (s : State), risingWf gates = true → (s.med m).wr = some a →
    a.cur = none → a.passed = false → s.gateFree m a = true → smFind (s.med m).staged a.next = some (some data) →
    let r := s.memRead (a.run.desc / 64 * 64 + 64 * a.next) 64
    let tag := tagOf (sliceB r.1 0 28)
    r.2.1 = false → (leAt r.1 40 1).testBit 0 = false → r.2.2.wUnsafe m = false → r.2.2.rbit (Reg.MCA_CTRL m) 0 = true →
    r.2.2.rbit Reg.SYS_ROLE 4 = false →
    ∃ t w, exec (.slotWrite ⟨m, gates⟩) s = .next t ∧
      t.out = r.2.2.out ++ (if (s.med m).gate then [] else gateEvents m (s.eaLead m) true) ++
        r.2.2.sectorEvents m a.run (wSector a.run a.next) (payloadOf data tag) gates ∧
      (t.med m).wr = some { a with next := a.next + 1, cur := some w } ∧ (t.med m).gate = true ∧
      w.idx = a.next ∧ w.tag = tag ∧ w.crc = sectorCrc data tag ∧ w.writes = 1 ∧ w.unsafeSeen = false ∧
      w.digest = sliceB r.1 32 8 ∧ w.noCairn = (leAt r.1 40 1).testBit 1 ∧
      smFind (t.med m).staged a.next = none ∧ t.mem = r.2.2.mem ∧ t.regs = r.2.2.regs ∧ t.thrs = s.thrs ∧
      t.med (1 - m.val) = s.med (1 - m.val)) ∧
  (∀ (m : Act) (gates : List Nat) (a : ActWr) (w : WSlot) (s : State), risingWf gates = true → (s.med m).wr = some a →
    a.cur = some w → a.passed = false → a.mode ≠ 0 → s.zoneF m 386 2 ≠ 0 → s.gateFree m a = false →
    s.rbit Reg.SYS_ROLE 4 = false → ∃ t, exec (.slotWrite ⟨m, gates⟩) s = .next t ∧
      (t.med m).wr = some { a with cur := none, vfy := a.vfy ++ [w] } ∧ (t.med m).gate = false ∧
      t.out = s.out ++ (if (s.med m).gate then gateEvents m (s.eaLead m) false else []) ∧ t.regs = s.regs ∧ t.mem = s.mem ∧
      t.thrs = s.thrs ∧ t.med (1 - m.val) = s.med (1 - m.val)) ∧
  (∀ (m : Act) (a : ActWr) (s : State), (s.med m).wr = some a → a.passed = false →
    smFind (s.med m).staged a.next = none → a.vfy ≠ [] → ∃ t, exec (.writeUnderrun m) s = .next t ∧
      t.med m = { s.med m with wr := some { a with under := true } } ∧ MedOnly s t m []) ∧
  (∀ (m : Act) (v : List Int) (a : ActWr) (w : WSlot) (rest : List WSlot) (s : State), signalWf v = true →
    (s.med m).wr = some a → a.vfy = w :: rest → w.idx ≠ 0xFFFF →
    let (_, arb, d, mse) := s.vfyDecode m v (max 1 (min 12 (s.zoneF m 396 1)))
    let p := decodedPayload a.run.cyl (a.run.start + w.idx) d
    (d.conv = true → arb.neither = false → payloadCheck p = 0 →
      leAt p 4128 8 = w.crc.toNat → mse ≤ s.zoneF m 398 2 → w.unsafeSeen = false → w.noCairn = true →
      ∃ t rc, exec (.verifyResult m v) s = .next t ∧ (t.med m).wr = some { a with vfy := rest, out := a.out ++ [rc] } ∧
        rc.length = 32 ∧ leAt rc 7 1 = (if w.writes = 1 then 0 else 1) ∧ leAt rc 8 2 = w.idx % 2 ^ 16 ∧ t.mem = s.mem ∧
        (w.writes = 1 → t.reg (Reg.MCA_WCNT m 0) = BitVec.ofNat 32 (satAdd (s.reg (Reg.MCA_WCNT m 0)).toNat 1 32)) ∧
        MedOnly s t m [Reg.MCA_WCNT m 0]) ∧
    (d.conv = false ∨ arb.neither = true → 2 ≤ a.mode → a.abort = false → w.writes < 3 → a.rew.length < 64 →
      ∃ t y, exec (.verifyResult m v) s = .next t ∧ (t.med m).wr = some { a with vfy := rest, rew := a.rew ++ [y] } ∧
        y.idx = w.idx ∧ y.tag = w.tag ∧ y.crc = w.crc ∧ y.writes = w.writes ∧ y.flags = 2 ∧ MedOnly s t m []) ∧
    (d.conv = false ∨ arb.neither = true → 2 ≤ a.mode → 3 ≤ w.writes →
      ∃ t rc, exec (.verifyResult m v) s = .next t ∧ (t.med m).wr = some { a with vfy := rest, out := a.out ++ [rc] } ∧
        leAt rc 7 1 = 0x11 ∧ t.out = s.out ++ [.relocate m (relocTag w.tag)] ∧ t.mem = s.mem ∧ t.thrs = s.thrs ∧
        t.reg (Reg.MCA_WR_STATUS m) = s.reg (Reg.MCA_WR_STATUS m) ||| 2 ∧
        t.reg (Reg.MCA_WCNT m 2) = BitVec.ofNat 32 (satAdd (s.reg (Reg.MCA_WCNT m 2)).toNat 1 32) ∧
        t.med (1 - m.val) = s.med (1 - m.val) ∧ RegsBut s t [Reg.MCA_WR_STATUS m, Reg.MCA_WCNT m 2])) ∧
  (∀ (m : Act) (gates : List (List Nat)) (a : ActWr) (w : WSlot) (data : List W8) (s : State),
    gates.all risingWf = true → (s.med m).wr = some a → a.passed = true → a.cur = none → a.vfy = [] → a.rew = [w] →
    w.idx ≠ 0xFFFF → a.abort = false → a.revs < 2 → s.gateFree m a = true →
    smFind (s.med m).staged w.idx = some (some data) → s.wUnsafe m = false → s.rbit (Reg.MCA_CTRL m) 0 = true →
    s.rbit Reg.SYS_ROLE 4 = false → ∃ t, exec (.rewriteRevolution ⟨m, gates⟩) s = .next t ∧
      (t.med m).wr = some { a with
        rew := [], revs := a.revs + 1
        cur := some { w with crc := sectorCrc data w.tag, writes := w.writes + 1, unsafeSeen := false } } ∧
      t.out = s.out ++ (if (s.med m).gate then [] else gateEvents m (s.eaLead m) true) ++
        s.sectorEvents m a.run (a.run.start + w.idx) (payloadOf data w.tag) (gates.getD 0 []) ∧
      (t.med m).gate = true ∧ t.fld (Reg.MCA_WR_STAT m) 24 2 = a.revs + 1 ∧
      t.reg (Reg.MCA_WCNT m 1) = BitVec.ofNat 32 (satAdd (s.reg (Reg.MCA_WCNT m 1)).toNat 1 32) ∧
      smFind (t.med m).staged w.idx = none ∧ t.mem = s.mem ∧ t.thrs = s.thrs ∧ t.med (1 - m.val) = s.med (1 - m.val) ∧
      RegsBut s t [Reg.MCA_WR_STAT m, Reg.MCA_WCNT m 1]) ∧
  (∀ (m : Act) (gates : List Nat) (a : ActWr) (s : State), risingWf gates = true → (s.med m).wr = some a → a.passed = true →
    a.cur = none → a.vfy = [] → a.rew = [] → a.abort = false → a.cairn = 1 → s.gateFree m a = true →
    let r := s.memRead (a.run.cairn / 4096 * 4096) 4096
    let tag := r.2.2.cairnTag r.1
    r.2.1 = false → r.2.2.wUnsafe m = false → r.2.2.rbit (Reg.MCA_CTRL m) 0 = true → r.2.2.rbit Reg.SYS_ROLE 4 = false →
    ∃ t w, exec (.cairnWrite ⟨m, gates⟩) s = .next t ∧
      t.out = r.2.2.out ++ (if (s.med m).gate then [] else gateEvents m (s.eaLead m) true) ++
        r.2.2.sectorEvents m a.run 0 (payloadOf r.1 tag) gates ∧
      (t.med m).wr = some { a with cairn := 2, cur := some w } ∧ (t.med m).gate = true ∧ w.idx = 0xFFFF ∧ w.tag = tag ∧
      w.crc = sectorCrc r.1 tag ∧ w.writes = 1 ∧ t.mem = r.2.2.mem ∧ t.regs = r.2.2.regs ∧ t.thrs = s.thrs ∧
      t.med (1 - m.val) = s.med (1 - m.val)) ∧
  (∀ (m : Act) (v : W32) (atEnd : Bool) (s : State), v.getLsbD 0 = false → v.getLsbD 2 = true →
    ((s.med m).wr = none → s.rbit (Reg.MCA_WR_CTRL m) 0 = false → ∃ t, exec (.writeAbort m v atEnd) s = .next t ∧ t.med m = { s.med m with wrPend := none } ∧
      t.rbit (Reg.MCA_WR_CTRL m) 2 = false ∧ t.rbit (Reg.MCA_WR_STAT m) 30 = false ∧
      MedOnly s t m [Reg.MCA_WR_CTRL m, Reg.MCA_WR_STAT m]) ∧
    (∀ a, (s.med m).wr = some a → a.cur = none → a.vfy ≠ [] → atEnd = false → s.rbit (Reg.MCA_WR_CTRL m) 0 = false →
      ∃ t b, exec (.writeAbort m v atEnd) s = .next t ∧ (t.med m).wr = some b ∧ b.abort = true ∧ b.rew = [] ∧
        b.vfy = a.vfy ∧ b.out.take a.out.length = a.out ∧
        b.out.length = a.out.length + (if a.passed then 0 else a.run.count - a.next) +
          (a.rew.filter fun w => w.idx != 0xFFFF || a.cairn == 1).length ∧
        (∀ rc ∈ b.out.drop a.out.length, leAt rc 7 1 = 0x13) ∧ (t.med m).gate = false ∧ (t.med m).wrPend = none ∧
        t.rbit (Reg.MCA_WR_CTRL m) 2 = true ∧ t.mem = s.mem ∧ t.thrs = s.thrs ∧
        RegsBut s t [Reg.MCA_WR_CTRL m, Reg.MCA_WR_STAT m])) ∧
  ∀ (m : Act) (a : ActWr) (x x2 : List W8) (rest : List (List W8)) (s : State), (s.med m).wr = some a → a.out = x :: x2 :: rest →
    let r := s.streamPut a.run.recCh (1 + 4 * m) x
    r.1 = true → r.2.med m = s.med m → ∃ t, exec (.writeRecordDeliver m) s = .next t ∧
      t.med m = { s.med m with wr := some { a with out := x2 :: rest, done := a.done + 1 } } ∧
      t.fld (Reg.MCA_WR_STAT m) 0 16 = (a.done + 1) % 2 ^ 16 ∧ t.mem = r.2.mem ∧ t.thrs = r.2.thrs ∧
      MedOnly r.2 t m [Reg.MCA_WR_STAT m]

/-- R190 to R193. -/
def Obligations.LawWordsComputeAndGoOn : Prop :=
  ∀ (c : Ctx) (d a b : W8) (r : GRun) (s : State), s.gylRun = some r → r.ctx = c.val → r.pc + 1 ≤ 2047 → r.words + 1 < 512 →
    lawFault (s.lawWord (r.pc + 1)) = 0 →
    let st := s.reg (Reg.GYL_CTX_STAT c)
    let vd := s.lawRaw c d.toNat
    let va := s.lawRaw c a.toNat
    let vb := s.lawRaw c b.toNat
    (s.lawWord r.pc = 0 → ∃ t, exec (.lawNop c) s = .next t ∧ LawRan t r r.f ∧
      t = { s with gylRun := t.gylRun, evSeen := t.evSeen }) ∧
    (lawReadable a.toNat = true →
      (lawReadable b.toNat = true → ∀ e ∈ lawCompares, s.lawWord r.pc = lawEnc e.2.1 0 a b →
        ∃ t, exec (e.1 c a b) s = .next t ∧ LawRan t r (e.2.2 va vb) ∧
          t = { s with regs := t.regs, gylRun := t.gylRun, evSeen := t.evSeen } ∧ RegsBut s t [Reg.GYL_CTX_STAT c] ∧
          t.reg (Reg.GYL_CTX_STAT c) = if fbad va || fbad vb then st ||| 0x4000 else st) ∧
      (lawWritable d.toNat = true →
        (lawReadable b.toNat = true → ∀ e ∈ lawForms3 ++ [(.lawClamp, 0x08, fun _ x y =>
            let l := { y with neg := false }
            let m := if x.lt l.negate then l.negate else x
            if l.lt m then l else m)], s.lawWord r.pc = lawEnc e.2.1 d a b →
          let y := fround (e.2.2 (fval vd) (fval va) (fval vb))
          let bad := fbad va || fbad vb || ((e.2.1 == 4 || e.2.1 == 5) && fbad vd)
          ∃ t, exec (e.1 c d a b) s = .next t ∧ LawRan t r r.f ∧ t.lawRaw c d.toNat = y.1 ∧
            LawWrote s t c d.toNat ((st ||| if bad then 0x4000 else 0) ||| if y.2 then 0x1000 else 0)) ∧
        (∀ e ∈ lawForms2, s.lawWord r.pc = lawEnc e.2.1 d a 0 →
          let y := fround (e.2.2 (fval va))
          ∃ t, exec (e.1 c d a) s = .next t ∧ LawRan t r r.f ∧ t.lawRaw c d.toNat = y.1 ∧
            LawWrote s t c d.toNat ((st ||| if fbad va then 0x4000 else 0) ||| if y.2 then 0x1000 else 0)) ∧
        (s.lawWord r.pc = lawEnc 0x0C d a 0 → ∃ t k, exec (.lawRcp c d a) s = .next t ∧ LawRan t r r.f ∧
          t.lawRaw c d.toNat = (frcp va k).1 ∧
          LawWrote s t c d.toNat ((st ||| if fbad va then 0x4000 else 0) ||| if (frcp va k).2 then 0x1000 else 0)) ∧
        (s.lawWord r.pc = lawEnc 0x0D d a 0 → ∃ t k, exec (.lawRsq c d a) s = .next t ∧ LawRan t r r.f ∧
          t.lawRaw c d.toNat = (frsq va k).1 ∧
          LawWrote s t c d.toNat (((st ||| if fbad va then 0x4000 else 0) ||| if (frsq va k).2.1 then 0x1000 else 0) |||
            if (frsq va k).2.2 then 0x2000 else 0)) ∧
        (s.lawWord r.pc = lawEnc 0x10 d a 0 → ∃ t, exec (.lawCmov c d a) s = .next t ∧ LawRan t r r.f ∧
          t.lawRaw c d.toNat = (if r.f then (fround (fval va)).1 else vd) ∧
          LawWrote s t c d.toNat ((st ||| if fbad va then 0x4000 else 0) |||
            if r.f && (fround (fval va)).2 then 0x1000 else 0)) ∧
        (s.lawWord r.pc = lawEnc 0x12 d a 0 →
          let on := s.reg (Reg.GYL_CTX_I c 11) == f1
          let y := fround ((fval (s.reg (Reg.GYL_CTX_I c 10))).add (fval va).negate)
          ∃ t, exec (.lawPreset c d a) s = .next t ∧ LawRan t r r.f ∧ t.lawRaw c d.toNat = (if on then y.1 else vd) ∧
            LawWrote s t c d.toNat ((st ||| if fbad va then 0x4000 else 0) ||| if on && y.2 then 0x1000 else 0))))

/-- CONTEXT_RUN, LAW_OUT, LAW_END, OUTPUT_INSTANT, STATE_WRITE, CTX_COMMIT, CTX_ENABLE and CTX5_TIMER_TICK. -/
def Obligations.ContextsRunOutputAndCommit : Prop :=
  (∀ (c : Ctx) (n : Nat) (rest : List (Nat × Nat)) (s : State), s.gylRun = none → s.gylQ = (n, c.val) :: rest → s.gylOn = true → s.ctxOn c = true →
    ((s.gc c).law ≤ 2047 → lawFault (s.lawWord (s.gc c).law) = 0 → ∃ t, exec (.contextRun c false) s = .next t ∧
      t.gylRun = some ⟨c, false, (s.gc c).law, 0, false, 0, [], 0, 0⟩ ∧ t.gylQ = rest ∧
      t.gc c = { s.gc c with transfer := false } ∧ (∀ e, e ≠ c.val → t.gc e = s.gc e) ∧
      t.reg (Reg.GYL_CTX_STAT c) = s.reg (Reg.GYL_CTX_STAT c) ||| 0x80000000 ∧
      t = { s with regs := t.regs, gylRun := t.gylRun, gylQ := t.gylQ, gctx := t.gctx, evSeen := t.evSeen } ∧
      RegsBut s t [Reg.GYL_CTX_STAT c]) ∧
    (4 ≤ c.val → (s.gc c).held = [] → s.fld (Reg.GYL_CTX_CTRL c) 10 2 = 0 → ∃ t, exec (.contextRun c true) s = .next t ∧
      t.gylRun = none ∧ t.rbit (Reg.GYL_CTX_STAT c) 30 = true ∧ t.fld (Reg.GYL_CTX_STAT c) 20 4 = 8 ∧
      t.ctxOn c = false ∧ t.rbit Reg.GYL_STATUS c = true ∧ t.mem = s.mem ∧ t.thrs = s.thrs ∧
      RegsBut s t [Reg.GYL_CTX_STAT c, Reg.GYL_CTX_CTRL c, Reg.GYL_STATUS])) ∧
  (∀ (c : Ctx) (r : GRun) (s : State), s.gylRun = some r → r.ctx = c.val →
    let y := if r.stale then (s.gc c).frozen else some ((s.gc c).frozen.getD (s.reg (Reg.GYL_CTX_Y c 0)))
    (s.lawWord r.pc = lawEnc 0x1E 0 0 0 → r.pc + 1 ≤ 2047 → r.words + 1 < 512 → lawFault (s.lawWord (r.pc + 1)) = 0 →
      ∃ t, exec (.lawOut c) s = .next t ∧ LawRan t r r.f ∧ t.gc c = { s.gc c with frozen := y } ∧
        (∀ e, e ≠ c.val → t.gc e = s.gc e) ∧ t = { s with gctx := t.gctx, gylRun := t.gylRun, evSeen := t.evSeen }) ∧
    (s.lawWord r.pc = lawEnc 0x1F 0 0 0 → (∀ w ∈ (s.gc c).held, w.1 < 64) → ∃ t, exec (.lawEnd c) s = .next t ∧
      t.gylRun = none ∧ t.gc c = { s.gc c with frozen := y, held := [] } ∧ (∀ e, e ≠ c.val → t.gc e = s.gc e) ∧
      t.rbit (Reg.GYL_CTX_STAT c) 31 = false ∧
      (∀ j, j < 64 → t.reg (Reg.GYL_CTX_S c j) =
        ((((s.gc c).held.filter fun w => w.1 == j).getLast?).map (·.2)).getD (s.reg (Reg.GYL_CTX_S c j))) ∧
      t = { s with gctx := t.gctx, gylRun := none, regs := t.regs, evSeen := t.evSeen } ∧
      RegsBut s t (Reg.GYL_CTX_STAT c :: (List.range 64).map (Reg.GYL_CTX_S c)))) ∧
  (∀ (c : Ctx) (met : Bool) (s : State), (s.gc c).due = true → s.gylOn = true →
    let a := ctxAct c
    let out := fun (y : W32) => if c.val = 1 ∨ c.val = 3 then (if s.loading a || s.unloading a then f0 else y) else y
    (∀ y, (s.gc c).frozen = some y → met = true → ∃ t, exec (.outputInstant c met) s = .next t ∧
      t.gc c = { s.gc c with due := false, frozen := none, late := 0, yprev := out y } ∧ (∀ e, e ≠ c.val → t.gc e = s.gc e) ∧
      (c.val < 4 → t.spn = s.spn ∧ t.gact (1 - a) = s.gact (1 - a) ∧
        t.gact a = { s.gact a with adi := (s.gact a).adi ++ [if c.val % 2 = 0 then (1, natOfInt (s.cmdOf c (out y)) 18)
          else (2, natOfInt (s.cmdOf c (out y)) 16 * 4)] }) ∧
      (c.val = 4 → t.spn = { s.spn with iref := y }) ∧ (c.val = 5 → t.spn = s.spn) ∧
      (4 ≤ c.val → t.gact0 = s.gact0 ∧ t.gact1 = s.gact1) ∧
      t = { s with gctx := t.gctx, gact0 := t.gact0, gact1 := t.gact1, spn := t.spn, evSeen := t.evSeen }) ∧
    (4 ≤ c.val → ((s.gc c).frozen = none ∨ met = false) →
      (s.gc c).late + 1 < max 1 (s.fld (Reg.GYL_CTX_CTRL c) 16 4) → ∃ t, exec (.outputInstant c met) s = .next t ∧
      t.gc c = { s.gc c with due := false, frozen := none, lateNow := true, late := (s.gc c).late + 1 } ∧
      t.rbit Reg.GYL_STATUS (8 + c) = true ∧
      t.fld (Reg.GYL_CTX_LATE c) 0 16 = satAdd (s.fld (Reg.GYL_CTX_LATE c) 0 16) 1 16 ∧
      (c.val = 4 → t.spn.iref = (s.gc c).yprev) ∧ RegsBut s t [Reg.GYL_STATUS, Reg.GYL_CTX_LATE c] ∧ t.mem = s.mem)) ∧
  (∀ (c : Ctx) (j : BitVec 6) (v : W32) (s : State),
    (s.gylRun.map (·.ctx) = some c.val → ∃ t, exec (.stateWrite c j v) s = .next t ∧
      t.gc c = { s.gc c with held := (s.gc c).held ++ [(j.toNat, v)] } ∧ (∀ e, e ≠ c.val → t.gc e = s.gc e) ∧
      t = { s with gctx := t.gctx, evSeen := t.evSeen }) ∧
    (s.gylRun.map (·.ctx) ≠ some c.val → ∃ t, exec (.stateWrite c j v) s = .next t ∧
      t.reg (Reg.GYL_CTX_S c j.toNat) = v ∧ OnlyRegs s t [Reg.GYL_CTX_S c j.toNat])) ∧
  (∀ (c : Ctx) (s : State), s.ctxOn c = true → ∃ t, exec (.ctxCommit c) s = .next t ∧ Same s t) ∧
  (∀ (c : Ctx) (s : State), s.ctxOn c = false → s.rbit (Reg.GYL_CTX_COMMIT c) 0 = true →
    let law := s.reg (Reg.GYL_CTX_LAW c)
    let start := getF law 0 11
    ∃ t, exec (.ctxCommit c) s = .next t ∧
      t.gc c = { s.gc c with
        law := start, transfer := (s.gc c).transfer || law.getLsbD 16 || decide (start ≠ getF (s.act (Reg.GYL_CTX_LAW c)) 0 11) } ∧
      (∀ e, e ≠ c.val → t.gc e = s.gc e) ∧ t.act (Reg.GYL_CTX_LAW c) = law ∧
      t.act (Reg.GYL_CTX_PHASE c) = s.reg (Reg.GYL_CTX_PHASE c) ∧
      (∀ j, j < 64 → t.act (Reg.GYL_CTX_K c j) = s.reg (Reg.GYL_CTX_K c j)) ∧
      t.rbit (Reg.GYL_CTX_COMMIT c) 0 = false ∧ t.rbit (Reg.GYL_CTX_LAW c) 16 = false ∧
      t = { s with gctx := t.gctx, regs := t.regs, active := t.active, evSeen := t.evSeen } ∧
      RegsBut s t [Reg.GYL_CTX_COMMIT c, Reg.GYL_CTX_LAW c]) ∧
  (∀ (c : Ctx) (v : W32) (s : State), (c.val ≠ 4 ∨ s.isBase = true) →
    (v.getLsbD 0 = false → s.gylRun = none → ∃ t, exec (.ctxEnable c v) s = .next t ∧ t.ctxOn c = false ∧
      t.gylQ = s.gylQ.filter (·.2 != c.val) ∧ t.gc c = { s.gc c with frozen := none, due := false } ∧
      (∀ e, e ≠ c.val → t.gc e = s.gc e) ∧ t = { s with gctx := t.gctx, gylQ := t.gylQ, regs := t.regs, evSeen := t.evSeen } ∧
      RegsBut s t [Reg.GYL_CTX_CTRL c]) ∧
    (v.getLsbD 0 = true → s.rbit (Reg.GYL_CTX_STAT c) 30 = false → ∃ t, exec (.ctxEnable c v) s = .next t ∧
      t.ctxOn c = true ∧ OnlyRegs s t [Reg.GYL_CTX_CTRL c]) ∧
    (v.getLsbD 0 = true → s.rbit (Reg.GYL_CTX_STAT c) 30 = true → ∃ t, exec (.ctxEnable c v) s = .next t ∧
      t.ctxOn c = true ∧ t.rbit (Reg.GYL_CTX_STAT c) 30 = false ∧ t.fld (Reg.GYL_CTX_STAT c) 20 4 = 0 ∧
      t.gc c = { s.gc c with transfer := true, late := 0 } ∧ (∀ e, e ≠ c.val → t.gc e = s.gc e) ∧
      RegsBut s t [Reg.GYL_CTX_CTRL c, Reg.GYL_CTX_STAT c] ∧
      t = { s with gctx := t.gctx, regs := t.regs, evSeen := t.evSeen })) ∧
  ∀ s : State, s.fld (Reg.GYL_CTX_CTRL 5) 8 2 = 2 → s.gylOn = true → s.ctxOn 5 = true → (s.gc 5).due = false →
    s.rbit (Reg.GYL_CTX_COMMIT 5) 0 = false → s.gylQ = [] → (∀ r, s.gylRun = some r → r.ctx ≠ 5) → ∃ t, exec .ctx5TimerTick s = .next t ∧
    Triggered s t 5 [0, 0, 0, 0, 0, s.sup] ∧ t.gylQ = [(s.now, 5)] ∧ (∀ c, c ≠ 5 → t.gc c = s.gc c) ∧
    t = { s with gctx := t.gctx, gylQ := t.gylQ, regs := t.regs, evSeen := t.evSeen } ∧ RegsBut s t (inRegs 5)

/-- SERVO_WEDGE, MISSED_WEDGE, SAMPLE_INSTANT and SEEK_GO. -/
def Obligations.WedgesAndSampleInstants : Prop :=
  (∀ (a : Act) (w : Wedge) (s : State), s.rbit (Reg.GYL_ACT_CTRL a) 0 = true → s.loading a = false →
    let x := s.gact a
    let inSeq := x.wedge = none ∨ x.wedge.map (fun k => (k + 1) % s.wedges a) = some w.number.toNat
    ((s.acquired a = false ∨ inSeq) →
      fzero (fadd (fabs (fmul (fsub w.a1 w.a3) fhalf)) (fabs (fmul (fsub w.a2 w.a4) fhalf))) = false →
      let f := (s.demodF w).1
      let n := pickTrack x (ungray w.gray) f
      ∃ t y, exec (.servoWedge a w) s = .next t ∧ t.gact a = y ∧
        y = { x with
          p1 := n, f1 := f, p2 := x.p1, f2 := x.f1, resolve := false, wedge := some w.number.toNat, missed := 0,
          found := y.found, valid := true, rro := fdyad w.runout.toInt (-10) } ∧
        (inSeq → y.found = x.found + 1) ∧ (¬ inSeq → y.found = 1) ∧ (x.resolve = true → n = ungray w.gray) ∧
        t.reg (Reg.GYL_ACT_POS a) = BitVec.ofInt 32 n ∧ t.reg (Reg.GYL_ACT_FRAC a) = f ∧
        t.gact (1 - a.val) = s.gact (1 - a.val) ∧
        t = { s with regs := t.regs, gact0 := t.gact0, gact1 := t.gact1, out := (s.servoGate a).out, evSeen := t.evSeen } ∧
        RegsBut s t [Reg.GYL_ACT_POS a, Reg.GYL_ACT_FRAC a]) ∧
    (s.acquired a = true → ¬ inSeq → x.missed + 1 < max 1 (s.fld (Reg.GYL_ACT_CTRL a) 28 4) → (s.med a).gate = false →
      ∃ t, exec (.servoWedge a w) s = .next t ∧
        t.gact a = { x with
          valid := false, resolve := true, missed := x.missed + 1, found := 0, clean := 0, wedge := some w.number.toNat } ∧
        t.rbit (Reg.GYL_ACT_QUAL a) 1 = true ∧ t.gact (1 - a.val) = s.gact (1 - a.val) ∧
        t = { s with regs := t.regs, gact0 := t.gact0, gact1 := t.gact1, out := (s.servoGate a).out, evSeen := t.evSeen } ∧
        RegsBut s t [Reg.GYL_ACT_QUAL a])) ∧
  (∀ (a : Act) (s : State), s.rbit (Reg.GYL_ACT_CTRL a) 0 = true →
    let x := s.gact a
    (s.acquired a = false ∨ x.missed + 1 < max 1 (s.fld (Reg.GYL_ACT_CTRL a) 28 4)) →
    ∃ t, exec (.missedWedge a) s = .next t ∧
      t.gact a = { x with
        valid := false, resolve := true, missed := x.missed + 1, found := 0, clean := 0,
        wedge := x.wedge.map fun k => (k + 1) % s.wedges a } ∧
      t.rbit (Reg.GYL_ACT_QUAL a) 1 = true ∧ (t.med a).gate = false ∧
      t.out = (s.servoGate a).out ++ (if (s.med a).gate then gateEvents a (s.eaLead a) false else []) ∧
      ((s.med a).gate = true → t.rbit (Reg.MCA_WR_STATUS a) 2 = true) ∧ t.gact (1 - a.val) = s.gact (1 - a.val) ∧
      t.med (1 - a.val) = s.med (1 - a.val) ∧ t.mem = s.mem ∧ t.thrs = s.thrs ∧
      RegsBut s t [Reg.GYL_ACT_QUAL a, Reg.MCA_WR_STATUS a, Reg.MCA_WCNT a 3]) ∧
  (∀ (a : Act) (vm : W32) (s : State), (s.med a).gate = false →
    (s.gylOn = false → ∃ t, exec (.sampleInstant a vm) s = .next t ∧ t.rbit (Reg.GYL_ACT_QUAL a) 0 = true ∧
      t.rbit (Reg.GYL_ACT_QUAL a) 1 = true ∧ t.gact a = { s.gact a with clean := 0 } ∧
      t.gact (1 - a.val) = s.gact (1 - a.val) ∧ t.med a = { s.med a with offSeen := true } ∧
      t.med (1 - a.val) = s.med (1 - a.val) ∧ RegsBut s t [Reg.GYL_ACT_QUAL a] ∧ t = { s with
        regs := t.regs, gact0 := t.gact0, gact1 := t.gact1, med0 := t.med0, med1 := t.med1, evSeen := t.evSeen }) ∧
    (s.gylOn = true → s.moving a = false → (s.gact a).acqNow = false → s.rbit (Reg.GYL_ACT_SEEK a) 0 = true →
      s.gylRun = none → ∃ t, exec (.sampleInstant a vm) s = .next t ∧
      (t.gact a).tcyl = (s.reg (Reg.GYL_ACT_TGT_CYL a)).toNat ∧ t.rbit (Reg.GYL_ACT_SEEK a) 0 = false ∧
      t.reg Reg.GYL_VM = vm ∧ t.mem = s.mem) ∧
    (SampleReady s a → s.moving a = false → (s.gact a).acqNow = false → s.fld (Reg.GYL_CTX_CTRL 5) 8 2 ≠ a →
      ∃ t, exec (.sampleInstant a vm) s = .next t ∧ SampleTaken s t a vm false)) ∧
  ∀ (a : Act) (v : W32) (s : State),
    (v.getLsbD 0 = true → ∃ t, exec (.seekGo a v) s = .next t ∧ t.reg (Reg.GYL_ACT_SEEK a) = s.reg (Reg.GYL_ACT_SEEK a) ||| 1 ∧
      OnlyRegs s t [Reg.GYL_ACT_SEEK a]) ∧
    (v.getLsbD 0 = false → ∃ t, exec (.seekGo a v) s = .next t ∧ Same s t)

/-- ADI_FRAME, ADI_RETURN_FRAME, ADI_CONFIG, LOAD, LOAD_TIMER_TICK, LOAD_TIMEOUT, UNLOAD, UNLOAD_TIMEOUT, RETRACT,
RETRACT_STATUS_TICK and RETRACT_TIMEOUT. -/
def Obligations.FramesLoadUnloadAndRetract : Prop :=
  (∀ (a : Act) (ty pl : Nat) (rest : List (Nat × Nat)) (s : State), (s.gact a).adi = (ty, pl) :: rest → s.gylOn = true →
    let x := s.gact a
    let w := ty * 2 ^ 28 + x.seq * 2 ^ 24 + pl % 2 ^ 18 * 2 ^ 6
    ∃ t, exec (.adiFrame a) s = .next t ∧ t.out = s.out ++ [.adiFrame a (BitVec.ofNat 32 (w + crc6 w))] ∧
      t.gact a = { x with adi := rest, seq := (x.seq + 1) % 16, sent := x.sent + 1, lastType := ty } ∧
      t.gact (1 - a.val) = s.gact (1 - a.val) ∧
      t = { s with gact0 := t.gact0, gact1 := t.gact1, out := t.out, evSeen := t.evSeen }) ∧
  (∀ (a : Act) (w : W32) (s : State), (s.gact a).sent ≠ 0 → s.gylOn = true →
    let x := s.gact a
    (crc6 (w.toNat / 64 * 64) = getF w 0 6 → w.getLsbD 31 = false → (w.getLsbD 30 = false ∨ s.moving a = false) →
      (x.sent < 2 ∨ getF w 24 4 = (x.seq + 14) % 16) → ∃ t, exec (.adiReturnFrame a w) s = .next t ∧
      t.gact a = { x with bad := 0, flt := false } ∧ t.gact (1 - a.val) = s.gact (1 - a.val) ∧
      (∀ c, t.gc c = if (c = vcm a ∧ x.lastType = 1) ∨ (c = mac a ∧ x.lastType = 2) then
        { s.gc c with sense := BitVec.ofNat 18 (getF w 6 18) } else s.gc c) ∧
      t.rbit (Reg.GYL_ACT_QUAL a) 7 = w.getLsbD 30 ∧
      t = { s with regs := t.regs, gact0 := t.gact0, gact1 := t.gact1, gctx := t.gctx, evSeen := t.evSeen } ∧
      RegsBut s t [Reg.GYL_ACT_QUAL a]) ∧
    (crc6 (w.toNat / 64 * 64) = getF w 0 6 → w.getLsbD 31 = false → w.getLsbD 30 = true → s.retracting a = false →
      s.unloading a = true → s.gylRun = none → ∃ t, exec (.adiReturnFrame a w) s = .next t ∧ t.unloading a = false ∧
      t.rbit (Reg.GYL_ACT_QUAL a) 7 = true ∧ t.ctxOn (vcm a) = false ∧ t.ctxOn (mac a) = false ∧
      t.rbit (Reg.GYL_ACT_LOAD a) 12 = false ∧ t.rbit Reg.GYL_STATUS (22 + a) = true ∧
      (t.gact a).adi = x.adi ++ [(4, 0)] ∧ t.mem = s.mem ∧ t.thrs = s.thrs) ∧
    (crc6 (w.toNat / 64 * 64) ≠ getF w 0 6 → x.bad + 1 < 8 → ∃ t, exec (.adiReturnFrame a w) s = .next t ∧
      t.gact a = { x with bad := x.bad + 1 } ∧ t.gact (1 - a.val) = s.gact (1 - a.val) ∧
      t.fld (Reg.GYL_ACT_ADIERR a) 0 16 = satAdd (s.fld (Reg.GYL_ACT_ADIERR a) 0 16) 1 16 ∧
      t = { s with regs := t.regs, gact0 := t.gact0, gact1 := t.gact1, evSeen := t.evSeen } ∧
      RegsBut s t [Reg.GYL_ACT_ADIERR a])) ∧
  (∀ (a : Act) (v : W32) (s : State), s.gylOn = true → ∃ t, exec (.adiConfig a v) s = .next t ∧
    t.gact a = { s.gact a with adi := (s.gact a).adi ++ [(6, getF v 0 18)] } ∧ t.gact (1 - a.val) = s.gact (1 - a.val) ∧
    t = { s with gact0 := t.gact0, gact1 := t.gact1, evSeen := t.evSeen }) ∧
  (∀ (a : Act) (v : W32) (s : State), s.moving a = false →
    (v.getLsbD 11 = true → v.getLsbD 12 = false → v.getLsbD 13 = false → ∃ t, exec (.load a v) s = .next t ∧
      t.gc (vcm a) = { s.gc (vcm a) with law := getF v 0 11, transfer := true } ∧ (∀ c, c ≠ vcm a → t.gc c = s.gc c) ∧
      t.loading a = true ∧ t.rbit (Reg.GYL_ACT_LOAD a) 11 = true ∧
      t.gact a = { s.gact a with found := 0, wedge := none, resolve := true } ∧
      t.gact (1 - a.val) = s.gact (1 - a.val) ∧
      t = { s with regs := t.regs, gact0 := t.gact0, gact1 := t.gact1, gctx := t.gctx, evSeen := t.evSeen } ∧
      RegsBut s t [Reg.GYL_ACT_QUAL a, Reg.GYL_ACT_LOAD a]) ∧
    (v.getLsbD 11 = false → v.getLsbD 12 = true → v.getLsbD 13 = false → ∃ t, exec (.unload a v) s = .next t ∧
      t.gc (vcm a) = { s.gc (vcm a) with law := getF v 16 11, transfer := true } ∧ (∀ c, c ≠ vcm a → t.gc c = s.gc c) ∧
      t.unloading a = true ∧ t.acquired a = false ∧ t.rbit (Reg.GYL_ACT_LOAD a) 12 = true ∧
      t = { s with regs := t.regs, gctx := t.gctx, evSeen := t.evSeen } ∧
      RegsBut s t [Reg.GYL_ACT_QUAL a, Reg.GYL_ACT_LOAD a])) ∧
  (∀ (a : Act) (vm : W32) (s : State), (s.loading a = true ∨ s.unloading a = true) → s.retracting a = false →
    SampleReady s a → ∃ t, exec (.loadTimerTick ⟨a, vm⟩) s = .next t ∧ SampleTaken s t a vm true) ∧
  (∀ (a : Act) (s : State), s.loading a = true → ∃ t, exec (.loadTimeout a) s = .next t ∧
    t.loading a = false ∧ t.unloading a = true ∧ t.rbit Reg.GYL_STATUS (20 + a) = true ∧
    t.rbit (Reg.GYL_ACT_LOAD a) 11 = false ∧ t.rbit (Reg.GYL_ACT_LOAD a) 12 = true ∧
    t.gc (vcm a) = { s.gc (vcm a) with law := s.fld (Reg.GYL_ACT_LOAD a) 16 11, transfer := true } ∧
    t = { s with regs := t.regs, gctx := t.gctx, evSeen := t.evSeen } ∧
    RegsBut s t [Reg.GYL_ACT_QUAL a, Reg.GYL_ACT_LOAD a, Reg.GYL_STATUS]) ∧
  (∀ (a : Act) (v : W32) (s : State), s.gylRun = none → s.gylOn = true →
    let retracted := fun (t : State) => t.retracting a = true ∧ t.loading a = false ∧ t.unloading a = false ∧
      t.ctxOn (vcm a) = false ∧ t.ctxOn (mac a) = false ∧ t.rbit (Reg.GYL_ACT_LOAD a) 13 = true ∧
      t.rbit (Reg.GYL_ACT_LOAD a) 11 = false ∧ t.rbit (Reg.GYL_ACT_LOAD a) 12 = false ∧
      (t.gact a).adi = (s.gact a).adi ++ [(2, 0), (3, s.fld (Reg.GYL_ACT_RETRACT a) 0 16 * 4)] ∧
      t.gylQ = (s.gylQ.filter (·.2 != vcm a)).filter (·.2 != mac a) ∧
      t = { s with regs := t.regs, gctx := t.gctx, gylQ := t.gylQ, gact0 := t.gact0, gact1 := t.gact1, evSeen := t.evSeen } ∧
      RegsBut s t [Reg.GYL_CTX_CTRL (vcm a), Reg.GYL_CTX_CTRL (mac a), Reg.GYL_ACT_QUAL a, Reg.GYL_ACT_LOAD a]
    (s.unloading a = true → ∃ t, exec (.unloadTimeout a) s = .next t ∧ retracted t) ∧
    (v.getLsbD 11 = false → v.getLsbD 12 = false → v.getLsbD 13 = true → s.retracting a = false →
      ∃ t, exec (.retract a v) s = .next t ∧ retracted t)) ∧
  ∀ (a : Act) (s : State), s.retracting a = true → s.gylOn = true →
    (∃ t, exec (.retractStatusTick a) s = .next t ∧ t.gact a = { s.gact a with adi := (s.gact a).adi ++ [(5, 0)] } ∧
      t.gact (1 - a.val) = s.gact (1 - a.val) ∧ t = { s with gact0 := t.gact0, gact1 := t.gact1, evSeen := t.evSeen }) ∧
    (s.gylRun = none → s.fld (Reg.GYL_CTX_CTRL (vcm a)) 10 2 = 0 →
      ∃ t, exec (.retractTimeout a) s = .next t ∧ t.retracting a = false ∧ t.rbit (Reg.GYL_ACT_LOAD a) 13 = false ∧
        (t.gact a).adi = (s.gact a).adi ++ [(4, 0)] ∧ t.rbit (Reg.GYL_CTX_STAT (vcm a)) 30 = true ∧
        t.fld (Reg.GYL_CTX_STAT (vcm a)) 20 4 = 9 ∧ t.ctxOn (vcm a) = false ∧ t.rbit Reg.GYL_STATUS (vcm a) = true ∧
        t.mem = s.mem ∧ t.thrs = s.thrs ∧ RegsBut s t [Reg.GYL_ACT_QUAL a, Reg.GYL_ACT_LOAD a, Reg.GYL_STATUS,
          Reg.GYL_CTX_STAT (vcm a), Reg.GYL_CTX_CTRL (vcm a)])

/-- PWM_PERIOD, SPN_DISABLE, SPN_REQ_WRITE, OC_CUT, EXT_FAULT, CATCH_END, ZVBRAKE_SLICE_END, ZVBRAKE_OBSERVE_END, ALIGN_END,
START_TIMEOUT, VM_SAMPLE, CHOP_CLR and UNDERVOLTAGE_TRIGGER. -/
def Obligations.SpindleStatesAndCurrentLoops : Prop :=
  ∀ s : State, s.isBase = true →
  (∀ i : PwmIn, s.rbit Reg.SPN_CTRL 0 = true → s.spn.cut = false → s.spn.genTrig = false → s.pwr.trip = false →
    let req := s.fld Reg.SPN_CTRL 1 2 % 3
    (s.spSt = 0 → s.spn.req ≠ some req → s.spn.sync = none → ∃ t, exec (.pwmPeriod i) s = .next t ∧
      t.spSt = (if req = 1 then 1 else 0) ∧
      t.spn.req = some req ∧ t.spn.kp = s.reg Reg.SPN_CUR_KP ∧ t.spn.imax = s.reg Reg.SPN_IMAX ∧ t.spn.gates = .low ∧
      t = { s with regs := t.regs, spn := t.spn, evSeen := t.evSeen } ∧ RegsBut s t [Reg.SPN_STATE]) ∧
    (∀ w, s.spSt = 1 → s.spn.req = some req → s.spn.sync = some w → ∃ t, exec (.pwmPeriod i) s = .next t ∧ t.spSt = 5 ∧
      t.rbit Reg.SPN_STATE 24 = true ∧ t.mem = s.mem ∧ t.thrs = s.thrs) ∧
    (∀ d, s.spSt = 5 → s.spn.req = some req → s.spn.sync = none → s.chopFaulty = false → s.ctxOn 4 = true →
      s.spn.lostRun < 63 → s.spn.duty = some d → s.spn.periods + 1 < s.spdDiv →
      let u := s.setSpn { s.spn with dutyNow := some d }
      u.measured = true → (∀ c ∈ i.c1 ++ i.c2, s.overCur c = false) →
      let kp := s.reg Reg.SPN_CUR_KP
      let cur := u.phaseCur i
      let v := clarke (cur.getD 0 0) (cur.getD 1 0)
      let id := (seenFrom s.spn.obs.angle v.1 v.2).1
      let iq := (seenFrom s.spn.obs.angle v.1 v.2).2
      let vd := (flim (fadd (fmul kp (fneg id)) s.spn.xd) s.vmax).1
      let r := (flim s.spn.iref (s.reg Reg.SPN_IMAX)).1
      ∃ t, exec (.pwmPeriod i) s = .next t ∧ t.spSt = 5 ∧ t.spn.gates = s.spn.gatesOf d ∧ t.spn.cur = cur ∧ t.spn.id = id ∧
        t.spn.iq = iq ∧ t.spn.vd = vd ∧
        t.spn.vq = (flim (fadd (fmul kp (fsub r iq)) s.spn.xq) (fsqrt (fsub (fmul s.vmax s.vmax) (fmul vd vd)))).1 ∧
        t.spn.volts = turned s.spn.obs.angle vd t.spn.vq ∧ t.spn.duty = some (t.dutiesOf t.spn.volts.1 t.spn.volts.2) ∧
        t.spn.periods = s.spn.periods + 1 ∧ t.spn.iqSum = fadd s.spn.iqSum iq ∧ t.fld Reg.SPN_STATE 0 8 = 0 ∧
        t = { s with regs := t.regs, spn := t.spn, evSeen := t.evSeen } ∧ RegsBut s t [Reg.SPN_STATE, Reg.SPN_STATUS])) ∧
  (∀ v : W32,
    (v.getLsbD 0 = false → ∃ t, exec (.spnDisable v) s = .next t ∧ t.spSt = 0 ∧ t.rbit Reg.SPN_CTRL 0 = false ∧
      t.spn = { s.spn with
        gates := .low, duty := none, dutyNow := none, lockRun := 0, atRun := 0, sync := none, observe := false, req := none
        stopping := false, cut := false, cutRun := 0, genTrig := false } ∧
      t = { s with regs := t.regs, spn := t.spn, evSeen := t.evSeen } ∧ RegsBut s t [Reg.SPN_CTRL, Reg.SPN_STATE]) ∧
    (v.getLsbD 0 = true → ∃ t, exec (.spnReqWrite v) s = .next t ∧ t.rbit Reg.SPN_CTRL 0 = true ∧
      t.fld Reg.SPN_CTRL 1 2 = getF v 1 2 ∧
      t.spn = (if s.rbit Reg.SPN_CTRL 0 then s.spn else { s.spn with
        req := none, freq := max 20 (min 80 (s.fld Reg.SPN_PWM 16 8)), dead := max 4 (min 100 (s.fld Reg.SPN_PWM 0 7)) }) ∧
      t = { s with regs := t.regs, spn := t.spn, evSeen := t.evSeen } ∧ RegsBut s t [Reg.SPN_CTRL]) ∧
    (v.getLsbD 0 = true → ∃ t, exec (.chopClr v false) s = .next t ∧ t.chopFaulty = false ∧ OnlyRegs s t [Reg.SPN_STATE]) ∧
    ∃ t, exec (.chopClr v true) s = .next t ∧ Same s t) ∧
  (∀ code : BitVec 14, s.fld Reg.SPN_SHUNT 16 14 < code.toInt.natAbs →
    (s.spSt = 3 ∨ s.spSt = 4 ∨ s.spSt = 5 ∨ s.spSt = 6 ∨ s.spSt = 7) → s.spn.cut = false →
    ∃ t, exec (.ocCut code) s = .next t ∧ t.spn = { s.spn with cut := true, gates := .low } ∧ t.rbit Reg.SPN_STATUS 6 = true ∧
      t.reg Reg.SPN_CNT_OC = BitVec.ofNat 32 (satAdd (s.reg Reg.SPN_CNT_OC).toNat 1 32) ∧
      t = { s with regs := t.regs, spn := t.spn, evSeen := t.evSeen } ∧ RegsBut s t [Reg.SPN_STATUS, Reg.SPN_CNT_OC]) ∧
  (∃ t, exec .extFault s = .next t ∧ t.spSt = 9 ∧ t.spn.gates = .low ∧ t.rbit Reg.SPN_STATUS 7 = true ∧
    t.rbit Reg.SPN_STATE 26 = s.rbit Reg.SPN_STATE 26 ∧ t = { s with regs := t.regs, spn := t.spn, evSeen := t.evSeen } ∧
    RegsBut s t [Reg.SPN_STATUS, Reg.SPN_STATE]) ∧
  (∀ u v w : Edges,
    let l := edgesOf u v w
    let r := s.edgeRead l
    (s.spSt = 1 → ∃ t, exec (.catchEnd u v w) s = .next t ∧ t.rbit Reg.SPN_STATUS 3 = true ∧ t.spSpeed = r.2.1 % 2 ^ 18 ∧
      (l.length < 3 → t.spSt = 3) ∧
      (3 ≤ l.length → r.1 = true → 160 * s.spTarget < 100 * r.2.1 → t.spSt = 1 ∧ t.spn.sync.isSome = true) ∧
      (3 ≤ l.length → r.1 = false ∨ 100 * r.2.1 ≤ 160 * s.spTarget → t.spSt = 2 ∧ t.spn.gates = .zero) ∧
      t = { s with regs := t.regs, spn := t.spn, fresh := t.fresh, evSeen := t.evSeen } ∧
      RegsBut s t [Reg.SPN_STATUS, Reg.SPN_STATE, Reg.SPN_SPEED]) ∧
    (s.spSt = 2 → s.spn.observe = true → ∃ t, exec (.zvbrakeObserveEnd u v w) s = .next t ∧ t.spn.observe = false ∧
      t.spSpeed = r.2.1 % 2 ^ 18 ∧ (l.length < 3 → t.spSt = (if s.spn.stopping then 8 else 3)) ∧
      (3 ≤ l.length → r.1 = false → t.spSt = 2 ∧ t.spn.gates = .zero) ∧
      t = { s with regs := t.regs, spn := t.spn, fresh := t.fresh, evSeen := t.evSeen } ∧
      RegsBut s t [Reg.SPN_STATUS, Reg.SPN_STATE, Reg.SPN_SPEED])) ∧
  (s.spSt = 2 → s.spn.observe = false → ∃ t, exec .zvbrakeSliceEnd s = .next t ∧
    t = { s with spn := { s.spn with observe := true, gates := .low }, evSeen := t.evSeen }) ∧
  (s.spSt = 3 → ∃ t, exec .alignEnd s = .next t ∧ t.spSt = 4 ∧ t.spn = { s.spn with
      ramp := 0, rampAngle := 0, obs := ⟨0, 0, 0, []⟩, lockRun := 0, lostRun := 0, atRun := 0, sync := none, observe := false } ∧
    t = { s with regs := t.regs, spn := t.spn, evSeen := t.evSeen } ∧ RegsBut s t [Reg.SPN_STATE]) ∧
  ((s.spSt = 1 ∨ (s.spSt = 2 ∧ s.spn.stopping = false) ∨ s.spSt = 3 ∨ s.spSt = 4) →
    ∃ t, exec .startTimeout s = .next t ∧ t.spSt = 8 ∧ t.rbit Reg.SPN_STATUS 2 = true ∧
      t = { s with regs := t.regs, spn := t.spn, evSeen := t.evSeen } ∧ RegsBut s t [Reg.SPN_STATE, Reg.SPN_STATUS]) ∧
  (∀ mv ma : W16, mv.toNat ≤ 15000 → s.pwr.st < 3 →
    ∃ t, exec (.vmSample mv ma) s = .next t ∧ t.fld Reg.SPN_VM 0 16 = mv.toNat ∧ t.fld Reg.SPN_CHOP 16 16 = ma.toNat ∧
      (s.rbit Reg.SPN_STATE 26 = false → 13800 < mv.toNat → s.chopFaulty = false →
        t.rbit Reg.SPN_STATE 26 = true ∧ t.rbit Reg.SPN_STATUS 8 = true ∧ t.spn.chopN = 0) ∧
      (s.rbit Reg.SPN_STATE 26 = true → 50 ≤ ma.toNat → mv.toNat < 13400 → t.rbit Reg.SPN_STATE 26 = false ∧
        t.chopFaulty = s.chopFaulty) ∧
      (s.rbit Reg.SPN_STATE 26 = true → ma.toNat < 50 → 9 ≤ s.spn.chopN → t.rbit Reg.SPN_STATE 26 = false ∧
        t.chopFaulty = true ∧ t.rbit Reg.SPN_STATUS 9 = true) ∧
      t = { s with regs := t.regs, spn := t.spn, evSeen := t.evSeen } ∧
      RegsBut s t [Reg.SPN_VM, Reg.SPN_CHOP, Reg.SPN_STATE, Reg.SPN_STATUS]) ∧
  (∀ mv ma : W16, 15000 < mv.toNat → s.pwr.st < 3 → ∃ t, exec (.vmSample mv ma) s = .next t ∧ t.rbit Reg.SYS_BIV 31 = true ∧
    t.rbit Reg.SYS_BIV 8 = true ∧ t.rbit Reg.SPN_STATUS 10 = true ∧ t.spSt = 9 ∧ t.spn.gates = .low) ∧
  ((s.spSt = 5 ∨ s.spSt = 6) → s.rbit Reg.SPN_CTRL 6 = true → ∃ t, exec .undervoltageTrigger s = .next t ∧
    t = { s with spn := { s.spn with genTrig := true }, evSeen := t.evSeen }) ∧
  (s.spSt ≠ 0 → s.spSt ≠ 9 → s.spSt ≠ 7 → (s.rbit Reg.SPN_CTRL 6 = false ∨ (s.spSt ≠ 5 ∧ s.spSt ≠ 6)) →
    ∃ t, exec .undervoltageTrigger s = .next t ∧ t.spSt = 8 ∧
      t = { s with regs := t.regs, spn := t.spn, evSeen := t.evSeen } ∧ RegsBut s t [Reg.SPN_STATE])

/-- POWER_FAIL, SYS_BIV_ENTER and BIVOUAC_ENTER. -/
def Obligations.PowerFailAndBivouac : Prop :=
  (∀ s : State, s.gs.dump = none → s.pwr.st < 2 → s.pwr.trip = false → s.gylRun = none → ∃ t, exec .powerFail s = .next t ∧
    t.retracting 0 = true ∧ t.retracting 1 = true ∧ (s.isBase = true → t.nvq.stopped = true) ∧
    (s.rbit Reg.NVI_GS_STATE 0 = true → ∃ im, t.gs.dump = some im ∧ im.seq = s.gs.seqNew + 1 ∧ im.charge = s.charge ∧
      im.area = s.fld Reg.NVI_GS_STATE 4 1 ∧ t.rbit Reg.NVI_GS_STATE 5 = true ∧ t.rbit Reg.NVI_GS_STATE 0 = false) ∧
    (s.rbit Reg.NVI_GS_STATE 0 = false → t.gs = s.gs ∧ t.rbit Reg.NVI_GS_STATUS 3 = true) ∧
    (s.isBase = true → (s.spSt = 5 ∨ s.spSt = 6) → s.rbit Reg.SPN_CTRL 6 = true → t.spn.genTrig = true ∧ t.spSt = s.spSt) ∧
    t.thrs = s.thrs ∧ t.svc = s.svc ∧ t.pwr = s.pwr ∧ t.sec = s.sec ∧ t.fw = s.fw ∧ t.csc = s.csc) ∧
  (∀ (v : W32) (s : State), (getF v 16 16 ≠ 0xB1C0 ∨ v.getLsbD 0 = false) →
    ∃ t, exec (.sysBivEnter v) s = .next t ∧ Same s t) ∧
  ∀ (i : Instr) (c : Nat) (s : State),
    ((∃ v : W32, i = .sysBivEnter v ∧ getF v 16 16 = 0xB1C0 ∧ v.getLsbD 0 = true ∧ c = 12) ∨
      ∃ k : Fin 5, i = .bivouacEnter k ∧ c = 8 + k.val) →
    (s.rbit Reg.SYS_BIV 31 = true → ∃ t, exec i s = .next t ∧ t.reg Reg.SYS_BIV = s.reg Reg.SYS_BIV ||| bit c ∧
      OnlyRegs s t [Reg.SYS_BIV]) ∧
    (s.rbit Reg.SYS_BIV 31 = false → (∀ m : Act, s.rbit (Reg.MCA_WR_CTRL m) 0 = false) → ∃ t, exec i s = .next t ∧
      t.reg Reg.SYS_BIV = s.reg Reg.SYS_BIV ||| (bit c ||| 0x80000000) ∧ t.rbit Reg.SYS_ROLE 4 = true ∧
      t.med0.gate = false ∧ t.med1.gate = false ∧ t.med0.wrPend = none ∧ t.med1.wrPend = none ∧
      t.rbit Reg.EVT_STATUS 4 = true ∧
      (s.rbit Reg.NVI_GS_STATE 0 = true → s.charge ≠ 0 → s.gs.dump = none →
        t.gs.dump.isSome = true ∧ t.gs.bivDump = true ∧ t.rbit Reg.NVI_GS_STATE 0 = false) ∧
      ((s.rbit Reg.NVI_GS_STATE 0 = false ∨ s.charge = 0) → t.gs = s.gs) ∧
      t.thrs = s.thrs ∧ t.svc = s.svc ∧ t.pwr = s.pwr ∧ t.sec = s.sec ∧ t.fw = s.fw ∧ t.csc = s.csc)

/-- SQ_DOORBELL, CQ_HEAD_DOORBELL, COMMAND_FETCH, COMPLETION_POST and CHARGE_ADJUST. -/
def Obligations.QueuesFetchAndComplete : Prop :=
  (∀ (n : HPort) (q : BitVec 8) (v : W16) (s : State), s.portLive n = true → s.takesMem n = true →
    (∀ x, s.sq (qKey n q.toNat) = some x → v.toNat < x.size → (v.toNat + x.size - x.tail) % x.size ≠ 0 →
      (v.toNat + x.size - x.tail) % x.size ≤ (x.head + x.size - 1 - x.tail) % x.size →
      ∃ t, exec (.sqDoorbell n q v) s = .next t ∧ t.sq (qKey n q.toNat) = some { x with tail := v.toNat, stopped := false } ∧
        (∀ k, k ≠ qKey n q.toNat → t.sq k = s.sq k) ∧
        t = { s with nvq := { s.nvq with sqs := t.nvq.sqs }, evSeen := t.evSeen }) ∧
    (∀ x, s.cq (qKey n q.toNat) = some x → x.held = [] → (s.hp n).inta = false → v.toNat < x.size →
      (v.toNat + x.size - x.head) % x.size ≠ 0 →
      (v.toNat + x.size - x.head) % x.size ≤ (x.tail + x.size - x.head) % x.size →
      ∃ t, exec (.cqHeadDoorbell n q v) s = .next t ∧
        t.cq (qKey n q.toNat) = some { x with head := v.toNat, owed := x.owed && decide (v.toNat ≠ x.tail) } ∧
        (∀ k, k ≠ qKey n q.toNat → t.cq k = s.cq k) ∧
        t = { s with nvq := { s.nvq with cqs := t.nvq.cqs }, evSeen := t.evSeen })) ∧
  (∀ (e : HostData) (k : Nat) (q : NSq) (s : State), s.isBase = true → s.rbit Reg.NVQ_CTRL 0 = true →
    s.nvq.stopped = false → s.nextSq = some (k, q) →
    (s.freeCmdTag = none → ∃ t, exec (.commandFetch e) s = .next t ∧ t.rbit Reg.NVQ_STATUS 4 = true ∧
      OnlyRegs s t [Reg.NVQ_STATUS]) ∧
    (∀ g, s.freeCmdTag = some g → s.inBar4 (k / 256) (q.base + 64 * q.head) = false →
      (hostBytes e = none → ∃ t, exec (.commandFetch e) s = .next t ∧ t.sq k = some { q with stopped := true } ∧
        t.rbit Reg.NVQ_STATUS 5 = true ∧ t.nvq.cmds = s.nvq.cmds ∧ t.nvq.last = k ∧ t.mem = s.mem ∧ t.thrs = s.thrs ∧
        RegsBut s t [Reg.NVQ_STATUS, Reg.NVQ_FETCH_ERR, Reg.HIF_STATUS, Reg.HIF_PORT_CTO_CNT (k / 256)]) ∧
      (∀ d, e = .data d →
        let c : NCmd := ⟨g, s.nvq.seq, k / 256, k % 256, padTo 64 d, .engine, false, false, false⟩
        let taken := fun (t : State) (c : NCmd) => t.sq k = some { q with head := (q.head + 1) % max 1 q.size } ∧
          t.cmd? g = some c ∧ t.nvq.seq = s.nvq.seq + 1 ∧ t.nvq.last = k ∧
          (∃ u : State, u.mem = s.mem ∧ u.now = s.now ∧ t.mem = (u.memWrite (s.entryAt g) c.entry).mem) ∧ t.thrs = s.thrs
        (s.fastShape c = false → s.classMask (s.cmdClass c) = 0 → ∃ t, exec (.commandFetch e) s = .next t ∧ taken t c ∧
          t.nvq.unposted = s.nvq.unposted ++ [(s.cmdClass c, s.workMsg c false)]) ∧
        (s.fastShape c = true → c.opc = 1 → s.rbit Reg.NVQ_CTRL 1 = true → ∃ t, exec (.commandFetch e) s = .next t ∧
          taken t { c with ph := .candidate } ∧ t.nvq.unposted = s.nvq.unposted)))) ∧
  (∀ (p : Thr) (v : W32) (s : State), s.isBase = true → s.mayReg (.thread p) (Reg.NVQ_CPL p 3) = true →
    let g := s.fld (Reg.NVQ_CPL p 2) 0 11
    (s.cmd? g = none → ∃ t, exec (.completionPost (.thread p) p v) s = .next t ∧ t.rbit Reg.NVQ_STATUS 0 = true ∧
      t.reg (Reg.NVQ_CPL p 3) = v ∧ OnlyRegs s t [Reg.NVQ_CPL p 3, Reg.NVQ_STATUS]) ∧
    (∀ c x q, s.cmd? g = some c → c.ph = .engine → c.posted = false → c.orphan = false →
      s.sq (qKey c.ctrl c.qid) = some x → x.cq < 256 → s.cq (qKey c.ctrl x.cq) = some q → q.held = [] → q.full = false →
      q.ien = false → s.nvq.stopped = false → s.busMaster c.ctrl = true →
      s.inBar4 c.ctrl (q.base + 16 * q.tail) = false → (q.base + 16 * q.tail) % 4096 ≤ 4080 →
      let ent := leBytes 4 (s.reg (Reg.NVQ_CPL p 0)).toNat ++ leBytes 4 (s.reg (Reg.NVQ_CPL p 1)).toNat ++ leBytes 2 x.head ++
        leBytes 2 c.qid ++ leBytes 2 c.cid ++ leBytes 2 (getF v 1 15 * 2 + b2n q.phase)
      ∃ t, exec (.completionPost (.thread p) p v) s = .next t ∧
        t.out = s.out ++ [.pcieWrite c.ctrl (q.base + 16 * q.tail) ent false] ∧ t.cmd? g = none ∧
        t.nvq.cmds = s.nvq.cmds.filter (fun y => y.tag != g) ∧
        t.cq (qKey c.ctrl x.cq) = some { q with
          tail := (q.tail + 1) % max 1 q.size, phase := if (q.tail + 1) % max 1 q.size = 0 then !q.phase else q.phase,
          owed := true } ∧
        t.mem = s.mem ∧ t.thrs = s.thrs ∧ RegsBut s t [Reg.NVQ_CPL p 3, Reg.NVQ_INFLIGHT])) ∧
  ∀ (p : Thr) (v : W32) (s : State), s.mayReg (.thread p) (Reg.NVI_GS_ADJ p) = true → let x := (s.charge : Int) + v.toInt
    (0 ≤ x → x ≤ s.ceil → ∃ t, exec (.chargeAdjust (.thread p) p v) s = .next t ∧ (t.charge : Int) = x ∧
      t.reg (Reg.NVI_GS_ADJ p) = 1 ∧ OnlyRegs s t [Reg.NVI_GS_CHARGE, Reg.NVI_GS_ADJ p]) ∧
    ((x < 0 ∨ (s.ceil : Int) < x) → ∃ t, exec (.chargeAdjust (.thread p) p v) s = .next t ∧ t.charge = s.charge ∧
      t.reg (Reg.NVI_GS_ADJ p) = 0 ∧ t.rbit Reg.NVI_GS_STATUS 6 = true ∧
      OnlyRegs s t [Reg.NVI_GS_ADJ p, Reg.NVI_GS_STATUS])

/-- FAST_WRITE, FAST_WRITE_BUCKET and FAST_READ. -/
def Obligations.FastPathWritesAndReads : Prop :=
  (∀ (g : Tag) (c : NCmd) (s : State), s.cmd? g.toNat = some c → c.ph = .candidate → s.nvq.stopped = false →
    s.rbit Reg.NVQ_CTRL 1 = true → s.engineCovers c = false → s.rbit Reg.NVI_GS_STATE 0 = true →
    s.rbit Reg.NVI_GS_STATE 5 = false → s.inBiv = false →
    s.fld Reg.NVQ_FREE_HEAD 0 20 % s.freeSize ≠ s.fld Reg.NVQ_FREE_TAIL 0 20 % s.freeSize → s.flogRoom = true →
    let r := s.bucket c.slba
    let h := s.fld Reg.NVQ_FREE_HEAD 0 20
    let f := r.2.2.memNat (s.nvq.free + 4 * h) 4
    r.2.1 = false → (chooseWay r.1 c.slba).isSome = true → s.charge + 65 ≤ s.ceil →
    ∃ t, exec (.fastWrite g) s = .next t ∧ t.charge = s.charge + 65 ∧
      t.fld Reg.NVQ_FREE_HEAD 0 20 = (h + 1) % s.freeSize ∧ t.cmd? g.toNat = some { c with ph := .write f.1 } ∧
      t.mem = f.2.2.mem ∧ t.nvq.unposted = s.nvq.unposted ∧ t.thrs = s.thrs ∧ t.out = s.out) ∧
  (∀ (g : Tag) (d : HostData) (c : NCmd) (slot : Nat) (x : NSq) (q : NCq) (data : List W8) (i : Nat) (s : State),
    s.cmd? g.toNat = some c → c.ph = .write slot → s.nvq.stopped = false → s.mustWait c = false → c.posted = false →
    c.orphan = false → s.sq (qKey c.ctrl c.qid) = some x → s.cq (qKey c.ctrl x.cq) = some q → q.full = true → q.held ≠ [] →
    s.nvq.owed = [] →
    let f := s.fastData c d
    let b := f.2.bucket c.slba
    f.1 = some data → chooseWay b.1 c.slba = some i →
    let w := wayOf b.1 i
    let old := if w.valid then w.slot else 2 ^ 32 - 1
    old ≠ slot → (∀ y ∈ s.nvq.cmds, y.ph ≠ .read old) →
    let m := (b.2.2.memWrite (s.slotAt slot) data).memWrite (s.bucketAt c.slba)
      (patchB b.1 (16 * i) (Way.bytes ⟨c.slba, slot, 3⟩))
    let tail := s.fld Reg.NVQ_FLOG_TAIL 0 20
    ∃ t u : State, exec (.fastWriteBucket g d) s = .next t ∧ u.mem = m.mem ∧ u.now = s.now ∧
      t.mem = (u.memWrite (s.nvq.flog + 16 * tail) (leBytes 8 c.slba ++ leBytes 4 slot ++ leBytes 4 old)).mem ∧
      t.charge = (if w.valid && w.lba == c.slba && w.dirty then s.charge - 65 else s.charge) ∧
      t.fld Reg.NVQ_FLOG_TAIL 0 20 = (tail + 1) % s.flogSize ∧ t.rbit Reg.NVQ_STATUS 1 = true ∧
      t.reg (Reg.NVQ_CNT 0) = BitVec.ofNat 32 (satAdd (s.reg (Reg.NVQ_CNT 0)).toNat 1 32) ∧
      t.cmd? g.toNat = some { c with dp := true, posted := true } ∧
      t.cq (qKey c.ctrl x.cq) = some { q with held := q.held ++ [⟨g.toNat, 0, 0, 0⟩] } ∧ t.thrs = s.thrs) ∧
  ∀ (g : Tag) (c : NCmd) (slot : Nat) (x : NSq) (q : NCq) (s : State),
    s.cmd? g.toNat = some c → c.ph = .read slot → s.nvq.stopped = false → s.mustWait c = false → c.posted = false →
    c.orphan = false → s.sq (qKey c.ctrl c.qid) = some x → s.cq (qKey c.ctrl x.cq) = some q → q.full = true → q.held ≠ [] →
    s.nvq.owed = [] → s.busMaster c.ctrl = true → c.prp1 % 4096 = 0 →
    let r := s.memReadMarked (s.slotAt slot) 4096 513
    let d := (goodPrefix r.1).take 4096
    anyMark r.1 = false → s.inBar4 c.ctrl c.prp1 = false →
    ∃ t, exec (.fastRead g) s = .next t ∧
      t.out = s.out ++ (cutWrites c.prp1 d (s.maxPayload c.ctrl) (d.length + 1)).map (fun w => .pcieWrite c.ctrl w.1 w.2 false) ∧
      t.reg (Reg.NVQ_CNT 1) = BitVec.ofNat 32 (satAdd (s.reg (Reg.NVQ_CNT 1)).toNat 1 32) ∧
      t.cmd? g.toNat = some { c with dp := true, posted := true, ph := .read (2 ^ 32) } ∧
      t.cq (qKey c.ctrl x.cq) = some { q with held := q.held ++ [⟨g.toNat, 0, 0, 0⟩] } ∧
      t.mem = r.2.mem ∧ t.charge = s.charge ∧ t.thrs = s.thrs

/-- GS_PREP, GS_PREP_DONE, SW_DUMP, DUMP_END, DUMP_ABANDON, GS_RESTORE and GS_RESTORE_DONE. -/
def Obligations.GroundsheetIsPreparedDumpedAndRestored : Prop :=
  (∀ (v : W32) (s : State), v.getLsbD 0 = true → s.gs.prep = none →
    (s.gs.dump = none → s.gs.restore = false →
      let a := s.prepArea
      ∃ t, exec (.gsPrep v) s = .next t ∧ t.gs = { s.gs with
          prep := some a, seqNew := (s.gsNewest.map (·.seq)).getD 0, img0 := if a = 0 then none else s.gs.img0,
          img1 := if a = 1 then none else s.gs.img1 } ∧
        t.rbit Reg.NVI_GS_CTRL 0 = true ∧ (s.fld Reg.NVI_GS_STATE 4 1 = a → t.rbit Reg.NVI_GS_STATE 0 = false) ∧
        t = { s with regs := t.regs, gs := t.gs, evSeen := t.evSeen } ∧ RegsBut s t [Reg.NVI_GS_CTRL, Reg.NVI_GS_STATE]) ∧
    ((s.gs.dump ≠ none ∨ s.gs.restore = true) → ∃ t, exec (.gsPrep v) s = .next t ∧ t.rbit Reg.NVI_GS_CTRL 0 = false ∧
      OnlyRegs s t [Reg.NVI_GS_CTRL])) ∧
  (∀ (dies : BitVec 6) (page ppb bad : W32) (rate : W16) (a : Nat) (s : State), s.gs.prep = some a →
    let r := s.saveList
    let total := (r.1.map (·.2)).foldl (· + ·) 0
    let b := page.toNat * dies.toNat
    let nblk := r.2.fld (Reg.NVI_GS_AREA a) 16 16
    let stripes := (nblk - bad.toNat - ceilDiv (2 * nblk) 100) * ppb.toNat
    let fits := b ≠ 0 ∧ 2 + ceilDiv (64 * r.2.ceil) b + ceilDiv total b ≤ stripes
    ∃ t, exec (.gsPrepDone dies page ppb bad rate) s = .next t ∧ t.gs.prep = none ∧ t.mem = r.2.mem ∧
      (r.2.gs.dump = none → r.2.gs.restore = false → t.gs.nandExt = r.2.nandWant) ∧
      t.fld Reg.NVI_GS_STATE 16 16 = rate.toNat ∧ t.fld Reg.NVI_GS_STATE 10 6 = dies.toNat ∧
      t.rbit Reg.NVI_GS_CTRL 0 = false ∧ t.gs.img0 = r.2.gs.img0 ∧ t.gs.img1 = r.2.gs.img1 ∧
      (fits → t.gs.stripe = b ∧ t.gs.stripes = stripes ∧ t.rbit Reg.NVI_GS_STATE 0 = true ∧
        t.fld Reg.NVI_GS_STATE 4 1 = a % 2 ∧ t.rbit Reg.NVI_GS_STATUS 0 = true) ∧
      (¬ fits → t.rbit Reg.NVI_GS_STATUS 1 = true ∧ t.rbit Reg.NVI_GS_STATE 0 = r.2.rbit Reg.NVI_GS_STATE 0) ∧
      RegsBut r.2 t [Reg.NVI_GS_STATE, Reg.NVI_GS_CTRL, Reg.NVI_GS_STATUS] ∧ t.thrs = r.2.thrs) ∧
  (∀ (v : W32) (s : State), v.getLsbD 2 = true → s.gs.dump = none → s.pwr.trip = false → s.gylRun = none →
    ∃ t, exec (.swDump v) s = .next t ∧ t.retracting 0 = true ∧ t.retracting 1 = true ∧
      (s.isBase = true → t.nvq.stopped = true) ∧ t.thrs = s.thrs ∧ t.svc = s.svc ∧
      (s.rbit Reg.NVI_GS_STATE 0 = true → (∃ im, t.gs.dump = some im ∧ im.seq = s.gs.seqNew + 1 ∧
          im.area = s.fld Reg.NVI_GS_STATE 4 1 ∧ im.charge = s.charge) ∧
        t.rbit Reg.NVI_GS_STATE 5 = true ∧ t.rbit Reg.NVI_GS_STATE 0 = false ∧ t.rbit Reg.NVI_GS_CTRL 2 = true) ∧
      (s.rbit Reg.NVI_GS_STATE 0 = false → t.gs = s.gs ∧ t.rbit Reg.NVI_GS_STATUS 3 = true ∧
        t.rbit Reg.NVI_GS_CTRL 2 = false)) ∧
  (∀ (lost : W32) (im : GsImage) (s : State), s.gs.dump = some im →
    (∃ t, exec (.dumpEnd lost) s = .next t ∧ t.gs.dump = none ∧ t.rbit Reg.NVI_GS_STATE 5 = false ∧
      t.rbit Reg.NVI_GS_CTRL 2 = false ∧
      (im.pages + lost.toNat ≤ s.gs.stripes → t.rbit Reg.NVI_GS_STATUS 2 = true ∧
        t.gs.img0 = (if im.area = 0 then some im else s.gs.img0) ∧ t.gs.img1 = (if im.area = 1 then some im else s.gs.img1)) ∧
      (s.gs.stripes < im.pages + lost.toNat → t.rbit Reg.NVI_GS_STATUS 3 = true ∧ t.gs.img0 = s.gs.img0 ∧
        t.gs.img1 = s.gs.img1) ∧ (s.gs.prep = none → s.gs.restore = false → t.gs.nandExt = s.nandWant) ∧
      t = { s with regs := t.regs, gs := t.gs, out := t.out, evSeen := t.evSeen } ∧
      (t.out = s.out ∨ t.out = s.out ++ [.nandTiming s.nandWant]) ∧
      RegsBut s t [Reg.NVI_GS_STATE, Reg.NVI_GS_CTRL, Reg.NVI_GS_STATUS]) ∧
    (s.mayAbandon = true → ∃ t, exec .dumpAbandon s = .next t ∧
      t.gs = { s.gs with dump := none, bivDump := false, nandExt := t.gs.nandExt } ∧
      t.rbit Reg.NVI_GS_STATE 5 = false ∧ t.rbit Reg.NVI_GS_CTRL 2 = false ∧ t.rbit Reg.NVI_GS_STATUS 3 = true ∧
      t = { s with regs := t.regs, gs := t.gs, out := t.out, evSeen := t.evSeen } ∧
      RegsBut s t [Reg.NVI_GS_STATE, Reg.NVI_GS_CTRL, Reg.NVI_GS_STATUS])) ∧
  (∀ (v : W32) (s : State), v.getLsbD 1 = true →
    (s.gs.dump = none → s.gs.prep = none → s.gs.restore = false → ∃ t, exec (.gsRestore v) s = .next t ∧
      t.gs = { s.gs with restore := true } ∧ t.rbit Reg.NVI_GS_CTRL 1 = true ∧
      t = { s with regs := t.regs, gs := t.gs, evSeen := t.evSeen } ∧ RegsBut s t [Reg.NVI_GS_CTRL]) ∧
    ((s.gs.dump ≠ none ∨ s.gs.prep ≠ none) → ∃ t, exec (.gsRestore v) s = .next t ∧ t.rbit Reg.NVI_GS_CTRL 1 = false ∧
      OnlyRegs s t [Reg.NVI_GS_CTRL])) ∧
  ∀ s : State, s.gs.restore = true →
    (s.gsNewest = none → ∃ t, exec (.gsRestoreDone none) s = .next t ∧ t.gs = { s.gs with restore := false, nandExt := t.gs.nandExt } ∧
      t.rbit Reg.NVI_GS_CTRL 1 = false ∧ t.rbit Reg.NVI_GS_STATE 7 = true ∧ t.rbit Reg.NVI_GS_STATUS 4 = true ∧
      t.svc = { s.svc with ready := true } ∧ t = { s with regs := t.regs, gs := t.gs, svc := t.svc, out := t.out, evSeen := t.evSeen } ∧
      RegsBut s t [Reg.NVI_GS_CTRL, Reg.NVI_GS_STATE, Reg.NVI_GS_STATUS]) ∧
    (∀ im, s.gsNewest = some im → ∃ t u : State, exec (.gsRestoreDone none) s = .next t ∧
      u = { s with regs := u.regs, gs := { s.gs with restore := false } } ∧
      t.mem = ((im.ways.zip im.slots).foldl (fun s p => s.restoreWay p.1 p.2)
        (im.extents.foldl (fun s e => s.memWrite e.1 e.2) u)).mem ∧
      t.gs = { u.gs with nandExt := t.gs.nandExt } ∧ t.rbit Reg.NVI_GS_STATE 7 = false ∧ t.fld Reg.NVI_GS_STATE 6 1 = im.area % 2 ∧
      t.rbit Reg.NVI_GS_STATUS 4 = true ∧ t.svc = { s.svc with ready := true, dir := true } ∧ t.thrs = s.thrs)

/-- NVM_WRITE, NVM_READ, NVM_FLUSH, NVM_COMPARE, WRITE_ZEROES, DATASET_MANAGEMENT and NVM_VERIFY. -/
def Obligations.BlocksAreWrittenReadAndDeallocated : Prop :=
  ∀ (g : Tag) (x : CmdIn) (c : NCmd) (s : State), Served s g c → c.admin = false → s.cmdClass c = 1 → s.svc.dir = false →
    let moves := c.nlb ≤ 8192 ∧ x.err = 0 ∧ s.busMaster c.ctrl = true
    let room := s.mustWait c = false ∧ s.svc.readOnly = false ∧ x.fault = false ∧
      (s.writeThrough c x = true ∨ s.charge + s.putNeed c.slba c.nlb ≤ s.ceil)
    let data := (List.range c.nlb).flatMap fun i => s.blkOf (c.slba + i)
    let good := s.mustWait c = false ∧ ∀ a, c.covers a → s.svc.vol.contains a = true ∨
      (s.bivNoMedia = false ∧ x.badLbas.contains a = false)
    (c.opc = 0x01 →
      (∀ e, s.blkGate c true = some e → Fails (.nvmWrite g x) s s c e 0 0 (gateLoc e)) ∧
      (s.blkGate c true = none → moves → room → ∃ u, Ends (.nvmWrite g x) s u c 0 0 ∧
        PutBlocks s u c (s.writeThrough c x) fun i => sliceB x.data (4096 * i) 4096)) ∧
    (c.opc = 0x08 →
      (∀ e, s.blkGate c true = some e → Fails (.writeZeroes g x) s s c e 0 0 (gateLoc e)) ∧
      (s.blkGate c true = none → room → ∃ u, Ends (.writeZeroes g x) s u c 0 0 ∧
        PutBlocks s u c (s.writeThrough c x) fun _ => zeroBlk)) ∧
    (∀ f ∈ [(0x02, Instr.nvmRead), (0x05, .nvmCompare), (0x0C, .nvmVerify)], c.opc = f.1 →
      ∀ e, s.blkGate c false = some e → Fails (f.2 g x) s s c e 0 0 (gateLoc e)) ∧
    (c.opc = 0x02 → s.blkGate c false = none → moves → good →
      Ends (.nvmRead g x) s { s with out := s.out ++ [.cmdData c.ctrl c.tag data] } c 0 0) ∧
    (c.opc = 0x05 → s.blkGate c false = none → moves → good →
      (data = padTo data.length x.data → Ends (.nvmCompare g x) s s c 0 0) ∧
      (data ≠ padTo data.length x.data → Fails (.nvmCompare g x) s s c (2, 0x85, 1) 0 0)) ∧
    (c.opc = 0x0C → s.blkGate c false = none → x.err = 0 → good → Ends (.nvmVerify g x) s s c 0 0) ∧
    (c.opc = 0x00 → s.ioGate c false = none → c.nsid = 1 → s.svc.ready = true → x.fault = false →
      ∃ u, Ends (.nvmFlush g x) s u c 0 0 ∧ u = { s with svc := { s.svc with vol := [] }, regs := u.regs } ∧
        u.charge = s.charge - 64 * s.svc.vol.length ∧ RegsBut s u [Reg.NVI_GS_CHARGE]) ∧
    (c.opc = 0x09 → s.ioGate c true = none → c.nsid = 1 → s.svc.ready = true → x.err = 0 → s.svc.vol.Nodup →
      let inR := fun a => ∃ i, i ≤ c.dw 10 % 256 ∧ leAt x.data (16 * i + 8) 8 ≤ a ∧
        a < leAt x.data (16 * i + 8) 8 + leAt x.data (16 * i + 4) 4
      (∀ a, inR a → a < s.svc.nsze) → (∀ i, i ≤ c.dw 10 % 256 → leAt x.data (16 * i + 8) 8 ≤ s.svc.nsze) →
      ((c.dw 11).testBit 2 = true → ∃ u, Ends (.datasetManagement g x) s u c 0 0 ∧
        (∀ a, (inR a → u.blkOf a = zeroBlk ∧ u.svc.vol.contains a = false) ∧
          (¬ inR a → u.blkOf a = s.blkOf a ∧ u.svc.vol.contains a = s.svc.vol.contains a)) ∧
        u.charge = s.charge - 64 * (s.svc.vol.length - u.svc.vol.length) ∧
        u = { s with svc := { s.svc with blk := u.svc.blk, vol := u.svc.vol }, regs := u.regs } ∧
        RegsBut s u [Reg.NVI_GS_CHARGE]) ∧
      ((c.dw 11).testBit 2 = false → Ends (.datasetManagement g x) s s c 0 0))

/-- IDENTIFY, GET_FEATURES, SET_FEATURES, CREATE_IO_CQ, CREATE_IO_SQ, DELETE_IO_SQ, DELETE_IO_CQ, NVM_ABORT and
ASYNCHRONOUS_EVENT_REQUEST. -/
def Obligations.AdminCommandsAnswer : Prop :=
  ∀ (g : Tag) (x : CmdIn) (c : NCmd) (s : State),
    let fid := c.dw 10 % 256
    let id := c.dw 10 % 65536
    let size := c.dw 10 / 65536
    let k := qKey c.ctrl id
    (Asked s g c 0x06 → x.err = 0 → s.busMaster c.ctrl = true →
      (fid = 1 → Ends (.identify g x) s { s with out := s.out ++ [.cmdFields c.ctrl c.tag (s.idController c.ctrl)] } c 0 0) ∧
      (fid = 2 → Ends (.identify g x) s { s with out := s.out ++
        [.cmdData c.ctrl c.tag (padTo 4096 ((s.nsList c.nsid).flatMap fun n => leBytes 4 n))] } c 0 0) ∧
      (fid = 0 → c.nsid = 1 → Ends (.identify g x) s { s with out := s.out ++ [.cmdFields c.ctrl c.tag s.idNamespace] } c 0 0)) ∧
    (Asked s g c 0x0A →
      (fid = 0xC0 → Ends (.getFeatures g x) s s c s.svc.ckptMin 0) ∧
      (fid = 0xC1 → Ends (.getFeatures g x) s s c (s.fld Reg.NVI_GS_CEIL 0 25) 0) ∧
      (fid = 0x06 → Ends (.getFeatures g x) s s c (s.feat c.ctrl 6 1) 0) ∧
      (featKnown fid = false → Fails (.getFeatures g x) s s c (0, 2, 1) 0 0 40)) ∧
    (Asked s g c 0x09 →
      (fid = 0xC0 → 1 ≤ c.dw 11 → c.dw 11 ≤ 1440 →
        Ends (.setFeatures g x) s { s with svc := { s.svc with ckptMin := c.dw 11 } } c 0 0) ∧
      (fid = 0xC0 → (c.dw 11 = 0 ∨ 1440 < c.dw 11) → Fails (.setFeatures g x) s s c (0, 2, 1) 0 0 44) ∧
      (fid = 0xC1 → c.dw 11 ≤ s.ceilLimit x.holdUp → ∃ u, Ends (.setFeatures g x) s u c 0 0 ∧
        u.fld Reg.NVI_GS_CEIL 0 25 = c.dw 11 ∧ u = { s with regs := u.regs } ∧ RegsBut s u [Reg.NVI_GS_CEIL]) ∧
      (fid = 0xC1 → s.ceilLimit x.holdUp < c.dw 11 → Fails (.setFeatures g x) s s c (0, 2, 1) 0 0 44) ∧
      (featKnown fid = false → Fails (.setFeatures g x) s s c (0, 2, 1) 0 0 40)) ∧
    (Asked s g c 0x05 → 1 ≤ id → id ≤ 128 → 1 ≤ size → size ≤ 4095 → s.cq k = none → c.dw 11 / 65536 ≤ 128 →
      (c.dw 11).testBit 0 = true → c.prp1 % 4096 = 0 → s.ownBar4 c.ctrl c.prp1 1 = none →
      ∃ u, Ends (.createIoCq g) s u c 0 0 ∧
        u.cq k = some ⟨c.prp1, size + 1, 0, 0, true, c.dw 11 / 65536, (c.dw 11).testBit 1, [], false⟩ ∧
        (∀ j, j ≠ k → u.cq j = s.cq j) ∧ u = { s with nvq := { s.nvq with cqs := u.nvq.cqs } }) ∧
    (Asked s g c 0x01 → 1 ≤ id → id ≤ 128 → 1 ≤ size → size ≤ 4095 → s.sq k = none → 1 ≤ c.dw 11 / 65536 →
      c.dw 11 / 65536 ≤ 128 → (s.cq (qKey c.ctrl (c.dw 11 / 65536))).isSome = true → (c.dw 11).testBit 0 = true →
      c.prp1 % 4096 = 0 →
      ∃ u, Ends (.createIoSq g) s u c 0 0 ∧ u.sq k = some ⟨c.prp1, size + 1, 0, 0, c.dw 11 / 65536, false⟩ ∧
        (∀ j, j ≠ k → u.sq j = s.sq j) ∧ u = { s with nvq := { s.nvq with sqs := u.nvq.sqs } }) ∧
    (Asked s g c 0x00 → 1 ≤ id → id ≤ 128 → (s.sq k).isSome = true → (∀ y ∈ s.nvq.cmds, ¬ (y.ctrl = c.ctrl ∧ y.qid = id)) →
      ∃ u, Ends (.deleteIoSq g) s u c 0 0 ∧ u.sq k = none ∧ (∀ j, j ≠ k → u.sq j = s.sq j) ∧
        u = { s with nvq := { s.nvq with sqs := u.nvq.sqs } }) ∧
    (Asked s g c 0x04 → 1 ≤ id → id ≤ 128 → (s.cq k).isSome = true →
      ((∃ e ∈ s.nvq.sqs, e.1 / 256 = c.ctrl ∧ e.2.cq = id) → Fails (.deleteIoCq g) s s c (1, 0x0C, 1) 0 0) ∧
      ((∀ e ∈ s.nvq.sqs, ¬ (e.1 / 256 = c.ctrl ∧ e.2.cq = id)) → (s.hp c.ctrl).inta = false →
        ∃ u, Ends (.deleteIoCq g) s u c 0 0 ∧ u.cq k = none ∧ (∀ j, j ≠ k → u.cq j = s.cq j) ∧
          u = { s with nvq := { s.nvq with cqs := u.nvq.cqs } })) ∧
    (Asked s g c 0x08 → (s.nvq.cmds.filter fun y =>
        y.ctrl == c.ctrl && y.admin && y.opc == 0x08 && !y.posted && decide (y.seq < c.seq)).length < 8 →
      let hit := fun (y : NCmd) => y.ctrl == c.ctrl && y.qid == id && y.cid == size && y.tag != c.tag
      (s.nvq.cmds.find? hit = none → Ends (.nvmAbort g) s s c 1 0) ∧
      (∀ y, s.nvq.cmds.find? hit = some y → (y.posted = true ∨ y.dp = true ∨ y.ph ≠ .engine) → Ends (.nvmAbort g) s s c 1 0) ∧
      (∀ y, s.nvq.cmds.find? hit = some y → y.posted = false → y.dp = false → y.ph = .engine →
        ∃ v : State, v = { s with nvq := { s.nvq with c0 := v.nvq.c0, c1 := v.nvq.c1 } } ∧
          (v.ctl c.ctrl).aer = (s.ctl c.ctrl).aer.filter (· != y.tag) ∧
          Ends (.nvmAbort g) s ((v.logNvme y (stField 0 7 0) 0).complete y.tag 0 0 (stField 0 7 0)) c 0 0)) ∧
    (Asked s g c 0x0C → (s.ctl c.ctrl).aer.contains c.tag = false →
      (8 ≤ (s.ctl c.ctrl).aer.length → Fails (.asynchronousEventRequest g) s s c (1, 5, 1) 0 0) ∧
      ((s.ctl c.ctrl).aer.length < 8 → (s.ctl c.ctrl).events = [] → ∃ t, exec (.asynchronousEventRequest g) s = .next t ∧
        (t.ctl c.ctrl).aer = (s.ctl c.ctrl).aer ++ [c.tag] ∧ t.nvq.cmds = s.nvq.cmds ∧ t.out = s.out ∧ t.regs = s.regs ∧
        t.mem = s.mem ∧ t.thrs = s.thrs))

/-- FORMAT_NVM, SANITIZE_CRYPTO_ERASE, SANITIZE_OVERWRITE and SANITIZE_BLOCK_ERASE. -/
def Obligations.FormatAndSanitizeStartAndEnd : Prop :=
  (∀ (g : Tag) (d n : Nat) (c : NCmd) (s : State), Asked s g c 0x80 → s.svc.format = none → c.nsid = 1 → s.inBiv = false →
    s.svc.sanitize = none → c.dw 10 % 16 = 0 → c.dw 10 / 512 % 8 ≤ 1 →
    ∃ u, Ends (.formatNvm g d n) s u c 0 0 ∧ u.svc = { s.svc with format := some ⟨c.dw 10 / 512 % 8, 1, 0, n, 0, 0⟩ } ∧
      u.fld Reg.NVQ_CTRL 1 2 = 0 ∧ u = { s with regs := u.regs, svc := u.svc } ∧ RegsBut s u [Reg.NVQ_CTRL]) ∧
  (∀ (g : Tag) (d n : Nat) (w : Wipe) (s : State), s.svc.format = some w →
    (d < n → ∃ t, exec (.formatNvm g d n) s = .next t ∧
      t = { s with svc := { s.svc with format := some { w with done := d, total := n } }, evSeen := t.evSeen }) ∧
    (n ≤ d → w.nsid = 1 → s.svc.dir = false → ∃ t, exec (.formatNvm g d n) s = .next t ∧
      t.svc = { s.svc with format := none, blk := [], vol := [] } ∧ t.charge = 0 ∧
      t = { s with regs := t.regs, svc := t.svc, evSeen := t.evSeen } ∧ RegsBut s t [Reg.NVI_GS_CHARGE])) ∧
  (∀ (g : Tag) (d n : Nat) (c : NCmd) (s : State), Asked s g c 0x84 → s.svc.sanitize = none →
    let started := fun (s u : State) (act : Nat) =>
      u.svc = { s.svc with
          sanitize := some ⟨act, b2n ((c.dw 10).testBit 3), 0, n, c.dw 11, owPasses (c.dw 10)⟩, sanDone := false, sess := []
          export_ := none } ∧
        u.fld Reg.NVQ_CTRL 1 2 = 0 ∧ u = { s with regs := u.regs, svc := u.svc } ∧ RegsBut s u [Reg.NVQ_CTRL]
    (c.dw 10 % 8 = 4 → s.sanGate c = none → ∃ u, Ends (.sanitizeCryptoErase g d n) s u c 0 0 ∧ started s.cryptoErase u 4) ∧
    (c.dw 10 % 8 = 3 → s.sanGate c = none → ∃ u, Ends (.sanitizeOverwrite g d n) s u c 0 0 ∧ started s u 3) ∧
    (c.dw 10 % 8 = 4 → ∀ e, s.sanGate c = some e → Fails (.sanitizeCryptoErase g d n) s s c e 0 0 (40 * gateLoc e)) ∧
    (c.dw 10 % 8 = 3 → ∀ e, s.sanGate c = some e → Fails (.sanitizeOverwrite g d n) s s c e 0 0 (41 * gateLoc e)) ∧
    (c.dw 10 % 8 = 2 → Fails (.sanitizeBlockErase g) s s c (0, 2, 1) 0 0 40)) ∧
  ∀ f ∈ [(4, Instr.sanitizeCryptoErase), (3, .sanitizeOverwrite)], ∀ (g : Tag) (d n : Nat) (w : Wipe) (s : State),
    s.svc.sanitize = some w → w.action = f.1 →
    (∀ p, 1 ≤ p → p ≤ 3 → s.fld (Reg.CSC_PART_STATE p) 0 2 ≤ 1) →
    (d < n → ∃ t, exec (f.2 g d n) s = .next t ∧
      t = { s with
        svc := { s.svc with sanitize := some { w with done := max w.done d, total := n } }, out := (s.overwrite w d).out
        evSeen := t.evSeen }) ∧
    (n ≤ d → s.svc.dir = false → s.svc.nss = [] → ∃ t, exec (f.2 g d n) s = .next t ∧
      t.svc = { s.svc with
        sanitize := none, sanFailed := false, sanDone := true, blk := [], vol := [], vers := [], sess := [], ckpts := 0,
        journal := 0 } ∧
      t.gs = { s.gs with img0 := none, img1 := none } ∧ t.charge = 0 ∧ t.rbit Reg.NVI_GS_STATE 0 = false ∧
      t = { s with regs := t.regs, svc := t.svc, gs := t.gs, out := (s.overwrite w n).out, evSeen := t.evSeen } ∧
      RegsBut s t [Reg.NVI_GS_CHARGE, Reg.NVI_GS_STATE])

/-- GOS_PUT, STORE, GOS_GET, RETRIEVE and GET_SLOW_SHARD. -/
def Obligations.ObjectsArePutAndGot : Prop :=
  (∀ f ∈ [(0x81, true, Instr.gosPut), (0x82, false, .gosGet), (0x84, true, .gosDelete), (0x86, false, .stat),
      (0x8A, false, .gosList), (0x8C, true, .retain), (0x8E, false, .versions), (0x92, false, .fixity),
      (0x96, false, .exportOpen), (0x96, false, .exportRead), (0x96, false, .exportClose), (0x9A, false, .cairnWalk)],
    ∀ (g : Tag) (x : CmdIn) (c : NCmd) (n : Nat × ObjNs) (e : Nat × Nat × Nat) (s : State), Served s g c → s.svc.index = true →
      s.mustFollow c = false → c.admin = false → c.opc = f.1 → s.nsOf c.nsid = some n → s.gosGate c x f.2.1 = some e →
      Fails (f.2.2 g x) s s c e 0 0 (gateLoc e)) ∧
  (∀ (g : Tag) (x : CmdIn) (c : NCmd) (n : Nat) (o : ObjNs) (a : GosArgs) (us : List Nat) (under : Bool) (s : State),
    Gos s g x 0x81 true c n o a → a.flags.testBit 0 = true → a.flags.testBit 1 = false → a.flags.testBit 2 = false →
    1 ≤ a.klen → a.klen ≤ 64 →
    let live := (s.keyVers n a.key).filter Ver.live
    ¬ (dPol o.desc pWriteOnce = true ∧ ∃ p ∈ o.lastVer, p.1 = a.key) → ¬ (a.flags.testBit 3 = true ∧ live ≠ []) →
    (dPol o.desc pVersioned = true ∨ s.guarded live = none) →
    (dQuota o.desc = 0 ∨ s.nsUsage n + a.dlen ≤ dQuota o.desc) → a.offset % chunkSize = 0 → a.dlen % chunkSize = 0 →
    s.pickUnits o x.units = some (us, under) → x.fault = false →
    let thr := s.writeThrough { c with entry := patchB c.entry 48 [0, 0, 0, 0] } x
    let need := a.dlen / chunkSize * chunkCharge o chunkSize
    (thr = true ∨ s.charge + need ≤ s.ceil) →
    ∃ (u : State) (cs : List Chunk), Ends (.gosPut g x) s u c s.svc.nextToken 0 ∧ SvcSends s u ∧
      (cs.flatMap (·.data)) = padTo a.dlen x.data ∧ cs.map (·.idx) = List.range' (a.offset / chunkSize) (a.dlen / chunkSize) ∧
      (∀ k ∈ cs, k.units = us ∧ k.under = under ∧ k.committed = thr ∧ k.lost = none ∧ k.put = s.nvq.seq ∧
        k.pend = (if thr then [] else shardsOf (dGeom o.desc) k.data.length) ∧
        (k.placed = some false ↔ thr = true ∨ k.idx + 1 < a.offset / chunkSize + a.dlen / chunkSize) ∧
        (k.placed = some false → ∀ i ∈ shardsOf (dGeom o.desc) k.data.length,
          ∃ w, OutEvent.shardWrite (us.getD i 0) w ∈ u.out)) ∧
      u.charge = (if thr then s.charge else s.charge + need) ∧
      u.svc = { s.svc with
        nss := smSet s.svc.nss n { o with nextHandle := o.nextHandle + 1 }, nextToken := s.svc.nextToken + 1,
        journal := s.svc.journal + 1, clk := s.rclock,
        sess := (s.svc.sess.filter fun y => y.token != s.svc.nextToken) ++
          [⟨s.svc.nextToken, n, a.key, o.nextHandle, 0, none, cs, s.now⟩] }) ∧
  (∀ (g : Tag) (x : CmdIn) (c : NCmd) (n : Nat) (o : ObjNs) (a : GosArgs) (e : Sess) (s : State),
    Gos s g x 0x81 true c n o a → a.flags.testBit 0 = false → a.flags.testBit 1 = true → a.flags.testBit 2 = false →
    1 ≤ a.klen → a.klen ≤ 64 → a.dlen = 0 → a.length ≤ 2 ^ 43 →
    s.svc.sess.find? (fun y => y.token == a.session && y.ns == n && y.key == a.key) = some e →
    let live := (s.keyVers n a.key).filter Ver.live
    let rest := s.svc.sess.filter fun y => y.token != e.token
    let num := o.last a.key + 1
    let stays := { s with svc := { s.svc with sess := rest ++ [{ e with last := s.now }] } }
    (s.pickUnits o x.units = none → Fails (.gosPut g x) s stays c (7, 0x09, 1) 0 0) ∧
    ∀ us, s.pickUnits o x.units = some us →
      (sealChunks e.chunks a.length = none → Fails (.gosPut g x) s stays c (7, 0x0F, 1) 0 0) ∧
      ∀ cs, sealChunks e.chunks a.length = some cs →
        (sealMisfit e.chunks a.length = true → Fails (.gosPut g x) s stays c (7, 0x0E, 1) 0 0) ∧
        (sealMisfit e.chunks a.length = false → (dPol o.desc pVersioned = true ∨ live = []) →
          (dKeep o.desc = 0 ∨ live.length < dKeep o.desc) → s.verAt n e.handle = none →
          ∃ u, Ends (.gosPut g x) s u c num (e.handle % 2 ^ 32) ∧ SvcSends s u ∧ u.charge = s.charge ∧ u.svc.sess = rest ∧
            u.svc.nss = smSet s.svc.nss n { o with lastVer := (o.lastVer.filter fun p => p.1 != a.key) ++ [(a.key, num)] } ∧
            ∃ v, u.svc.vers = s.svc.vers ++ [v] ∧ v.ns = n ∧ v.key = a.key ∧ v.version = num ∧ v.handle = e.handle ∧
              v.length = a.length ∧ v.created = s.rclock ∧ v.retain = max a.retain (s.rclock + dMinRetain o.desc) ∧
              v.hold = false ∧ v.tomb = false ∧ v.gen = 1 ∧ v.chunks = cs.map (Chunk.sealed (nchunk a.length)) ∧
              v.digs.length = (nchunk a.length - 1) / 40960 ∧ v.user = e.user.getD [] ∧ v.units = us.1 ∧ v.under = us.2 ∧
              v.metaDone = false ∧ (v.metaC.isSome = true ↔ v.digs = [] ∧ ∀ k ∈ cs, k.committed = true) ∧
              ∀ k, v.metaC = some k → k.data = verRecord o v)) ∧
  (∀ (g : Tag) (x : CmdIn) (c : NCmd) (n : Nat) (o : ObjNs) (us : List Nat) (under : Bool) (s : State),
    Kv s g x 0x01 true true c n o →
    let a := kvArgs c 3 0
    let live := (s.keyVers n a.key).filter Ver.live
    let num := o.last a.key + 1
    let need := ((List.range ((a.dlen + chunkSize - 1) / chunkSize)).map fun i =>
      chunkCharge o (min chunkSize (a.dlen - i * chunkSize))).foldl (· + ·) 0
    let thr := s.writeThrough { c with entry := patchB c.entry 48 [0, 0, 0, 0] } x
    ¬ (dPol o.desc pWriteOnce = true ∧ ∃ p ∈ o.lastVer, p.1 = a.key) → (dPol o.desc pVersioned = true ∨ live = []) →
    (dKeep o.desc = 0 ∨ live.length < dKeep o.desc) → (dQuota o.desc = 0 ∨ s.nsUsage n + a.dlen ≤ dQuota o.desc) →
    s.pickUnits o x.units = some (us, under) → x.fault = false → (thr = true ∨ s.charge + need ≤ s.ceil) →
    s.verAt n o.nextHandle = none →
    ∃ u, Ends (.store g x) s u c num (o.nextHandle % 2 ^ 32) ∧ SvcSends s u ∧
      u.charge = (if thr then s.charge else s.charge + need) ∧
      smFind u.svc.nss n = some { o with
        nextHandle := o.nextHandle + 1, lastVer := (o.lastVer.filter fun p => p.1 != a.key) ++ [(a.key, num)] } ∧
      ∃ v, u.svc.vers = s.svc.vers ++ [v] ∧ v.ns = n ∧ v.key = a.key ∧ v.version = num ∧ v.handle = o.nextHandle ∧
        v.length = a.dlen ∧ v.tomb = false ∧ v.chunks.flatMap (·.data) = padTo a.dlen x.data ∧
        (v.metaC.isSome = true ↔ thr = true ∨ a.dlen = 0)) ∧
  (∀ (i : Instr) (g : Tag) (x : CmdIn) (c : NCmd) (n : Nat) (o : ObjNs) (a : GosArgs) (s : State),
    (i = .gosGet g x ∧ Gos s g x 0x82 false c n o a ∨
      i = .retrieve g x ∧ Kv s g x 0x02 false false c n o ∧ a = { kvArgs c 0 0 with length := 0 }) →
    (∀ e, s.findVer n a = .inr e → Fails i s s c (7, e, 1) 0 0) ∧
    (∀ v, s.findVer n a = .inl v → s.bivNoMedia = false → (∀ e ∈ s.svc.slow, e.1 ≠ c.tag) →
      v.chunks.map (·.idx) = List.range ((v.length + chunkSize - 1) / chunkSize) →
      (∀ k ∈ v.chunks, k.data.length = min chunkSize (v.length - k.idx * chunkSize)) →
      (∀ k ∈ v.chunks, s.chunkFor o v k (x.reads.getD (k.idx - a.offset / chunkSize) []) [] = .good k.data false none) →
      let left := v.length - a.offset
      let want := min (if a.length = 0 then left else a.length) (min left a.dlen)
      ∃ under : Bool, Ends i s { s with out := s.out ++ [.cmdData c.ctrl c.tag (sliceB (v.chunks.flatMap (·.data)) a.offset want)] }
        c want (2 * b2n under) ∧ ((∀ k ∈ v.chunks, k.under = false) → under = false))) ∧
  ∀ (g : Tag) (i : W32) (j : BitVec 4) (c : NCmd) (s : State), s.cmd? g.toNat = some c → c.posted = false → c.admin = false →
    c.opc = 0x82 → (g.toNat, i.toNat, j.toNat) ∉ s.svc.slow →
    ∃ t, exec (.getSlowShard g i j) s = .next t ∧
      t = { s with svc := { s.svc with slow := s.svc.slow ++ [(g.toNat, i.toNat, j.toNat)] }, evSeen := t.evSeen }

/-- GOS_DELETE, KV_DELETE, RETAIN, STAT, EXIST, GOS_LIST, KV_LIST, VERSIONS, FIXITY and CAIRN_WALK. -/
def Obligations.VersionsAreDeletedHeldAndListed : Prop :=
  ∀ (i : Instr) (g : Tag) (x : CmdIn) (c : NCmd) (n : Nat) (o : ObjNs) (a : GosArgs) (s : State),
    let sends := fun (d : List W8) => { s with out := s.out ++ [.cmdData c.ctrl c.tag d] }
    ((i = .gosDelete g x ∧ Gos s g x 0x84 true c n o a ∨ i = .kvDelete g x ∧ Kv s g x 0x10 true false c n o ∧ a = kvArgs c 0 0) →
      a.flags.testBit 0 = false →
      (∀ e, s.findVer n a = .inr e → Fails i s s c (7, e, 1) 0 0) ∧
      (∀ v, s.findVer n a = .inl v → v.tomb = false →
        (s.rclock < v.retain → Fails i s s c (7, 5, 1) 0 0) ∧
        (v.retain ≤ s.rclock → v.hold = true → Fails i s s c (7, 6, 1) 0 0) ∧
        (v.retain ≤ s.rclock → v.hold = false →
          (s.pickUnits o x.units = none → Fails i s s c (7, 9, 1) 0 0) ∧
          ∀ us, s.pickUnits o x.units = some us → ∃ (u : State) (w : Ver), Ends i s u c 1 0 ∧ SvcSends s u ∧
            u.charge = s.charge ∧ u.svc = { s.svc with
              vers := swapVer s.svc.vers v w, journal := s.svc.journal + 1, clk := s.rclock } ∧
            Rerecorded s o v w us fun y => { y with tomb := true, deleted := s.rclock, updated := s.rclock }))) ∧
    (i = .retain g x → Gos s g x 0x8C true c n o a →
      (a.flags.testBit 0 = true → a.flags.testBit 1 = true → Fails i s s c (0, 2, 1) 0 0 40) ∧
      ∀ v, ¬ (a.flags.testBit 0 = true ∧ a.flags.testBit 1 = true) → s.findVer n a = .inl v →
        (a.flags.testBit 2 = true → a.retain < v.retain → Fails i s s c (7, 8, 1) 0 0) ∧
        ((a.flags.testBit 2 = true → v.retain ≤ a.retain) →
          (s.pickUnits o x.units = none → Fails i s s c (7, 9, 1) 0 0) ∧
          ∀ us, s.pickUnits o x.units = some us → ∃ (u : State) (w : Ver), Ends i s u c 0 0 ∧ SvcSends s u ∧
            u.charge = s.charge ∧ u.svc = { s.svc with
              vers := swapVer s.svc.vers v w, journal := s.svc.journal + 1, clk := s.rclock } ∧
            Rerecorded s o v w us fun y => { y with
              updated := s.rclock, retain := if a.flags.testBit 2 then a.retain else v.retain,
              hold := if a.flags.testBit 0 then true else if a.flags.testBit 1 then false else v.hold })) ∧
    ((i = .stat g x ∧ Gos s g x 0x86 false c n o a ∨ i = .exist g x ∧ Kv s g x 0x14 false false c n o ∧ a = kvArgs c 0 0) →
      (∀ e, s.findVer n a = .inr e → Fails i s s c (7, e, 1) 0 0) ∧
      ∀ v, s.findVer n a = .inl v → ∃ st, Ends i s (sends (verFixed o v ++ sliceB (verState v) 0 64 ++ verOdig o v ++
          leBytes 8 st ++ List.replicate 72 0)) c (v.length % 2 ^ 32) (v.length / 2 ^ 32) ∧
        (st % 2 = 1 ↔ ∀ k ∈ v.chunks, k.committed = true)) ∧
    ((i = .gosList g x ∧ Gos s g x 0x8A false c n o a ∨ i = .kvList g x ∧ Served s g c ∧ s.svc.index = true ∧ s.mustFollow c = false ∧
        c.admin = false ∧ c.opc = 0x06 ∧ s.cmdClass c = 2 ∧ s.nsOf c.nsid = some (n, o) ∧ s.gosGate c x false = none ∧ dCsi o.desc = 1 ∧ c.dw 11 % 256 ≤ 16 ∧ a = kvArgs c 0 0) →
      a.klen ≤ 64 → ∃ ks : List (List W8), ks.Pairwise (fun k l => keyLt k l = true) ∧
        (∀ k, k ∈ ks ↔ (a.klen = 0 ∨ keyLt a.key k = true) ∧ ∃ v ∈ s.svc.vers, v.ns = n ∧ v.key = k ∧ v.tomb = false) ∧
        let f := fitEntries a.dlen (ks.map fun k => padTo ((8 + k.length + 7) / 8 * 8) (leBytes 1 k.length ++ [0, 0, 0] ++
          leBytes 4 ((s.keyVers n k).filter Ver.live).length ++ k))
        Ends i s (sends f.1) c f.2.1 (b2n f.2.2)) ∧
    (i = .versions g x → Gos s g x 0x8E false c n o a → 1 ≤ a.klen → a.klen ≤ 64 →
      (s.keyVers n a.key = [] → Fails i s s c (7, 1, 1) 0 0) ∧
      (s.keyVers n a.key ≠ [] → ∃ l : List Ver, l.Perm (s.keyVers n a.key) ∧ l.Pairwise (fun v w => w.version ≤ v.version) ∧
        let f := fitEntries a.dlen (l.map fun v => leBytes 4 v.version ++ leBytes 1 (b2n v.tomb + 2 * b2n v.hold) ++ [0, 0, 0] ++
          leBytes 8 v.handle ++ leBytes 8 v.length ++ leBytes 8 v.created ++ leBytes 8 v.retain ++ leBytes 8 v.deleted ++
          sliceB (verOdig o v) 0 8 ++ List.replicate 8 0)
        Ends i s (sends f.1) c f.2.1 (b2n f.2.2))) ∧
    (i = .fixity g x → Gos s g x 0x92 false c n o a → ∀ v, s.findVer n a = .inl v → s.bivNoMedia = false → a.offset = 0 →
      a.length = 0 → a.flags.testBit 0 = false → (∀ k ∈ v.chunks, k.idx * chunkSize < v.length) →
      (∀ k ∈ v.chunks, s.chunkFor o v k (x.reads.getD k.idx []) [] = .good k.data false none) →
      Ends i s (sends ((leBytes 4 0).take a.dlen)) c v.chunks.length 0) ∧
    (i = .cairnWalk g x → Gos s g x 0x9A false c n o a →
      (256 < a.length → Fails i s s c (0, 2, 1) 0 0 16) ∧
      (a.length ≤ 256 → s.bivNoMedia = false →
        let entry := fun (k : Nat) =>
          let h := fun (st : Nat) => leBytes 4 (a.offset + k) ++ leBytes 1 a.version ++ leBytes 1 st ++ List.replicate 26 0
          match (x.reads.getD 0 []).getD k .unreadable with
          | .other d => h 0 ++ padTo 4096 d
          | .absent => h 1
          | _ => h 2
        let f := fitEntries a.dlen ((List.range a.length).map entry)
        Ends i s (sends f.1) c f.2.1 0))

/-- CHUNK_COMMIT, COMMIT_TIMEOUT, SESSION_TIMEOUT, INDEX_CHECKPOINT, EXPORT_OPEN, EXPORT_READ, EXPORT_CLOSE and
EXPORT_TIMEOUT. -/
def Obligations.ChunksCommitSessionsAndExportsEnd : Prop :=
  (∀ (b : BitVec 6) (h : W64) (i : W32) (l : List (Nat × Nat)) (o : ObjNs) (v : Ver) (s : State), h ≠ 1 →
    s.verAt b.toNat h.toNat = some v → smFind s.svc.nss b.toNat = some o →
    let of := fun (k k' : Chunk) =>
      let seen := fun j => ∃ p ∈ l, p.1 = j ∧ p.2 = k.units.getD j 0
      k' = { k with pend := k'.pend, committed := k'.committed } ∧ (∀ j, j ∈ k'.pend ↔ j ∈ k.pend ∧ ¬ seen j) ∧
        (k'.committed = true ↔ ∀ j ∈ k.pend, seen j)
    let goes := fun (u : State) (w : Ver) => exec (.chunkCommit b h i l) s = .next u.settle ∧ SvcSends s u ∧
      u.svc = { s.svc with vers := swapVer s.svc.vers v w, journal := s.svc.journal + 1, clk := s.rclock }
    (i = 0xFFFFFFFF →
      (v.metaC = none → ∃ t, exec (.chunkCommit b h i l) s = .next t ∧ Same s t) ∧
      ∀ k, v.metaC = some k → k.idx = i.toNat → k.committed = false → ∃ (u : State) (k' : Chunk),
        goes u { v with metaC := some k', metaDone := k'.committed } ∧ of k k' ∧ u.charge = s.charge) ∧
    (∀ k, i.toNat < digIdx 0 → v.chunks.find? (fun c => c.idx == i.toNat) = some k → k.committed = false →
      ∃ (u : State) (k' : Chunk) (w : Ver), goes u w ∧ of k k' ∧
        w = { v with chunks := w.chunks, digs := w.digs, metaC := w.metaC, metaDone := w.metaDone } ∧
        w.chunks = v.chunks.map (fun c => if c.idx == i.toNat then k' else c) ∧
        w.digs = v.digs.map (fun c => if c.idx == i.toNat then k' else c) ∧
        (v.metaC = none → (w.metaC.isSome = true ↔ w.ready = true)) ∧ (v.metaC ≠ none → w.metaC = v.metaC) ∧
        u.charge = if k'.committed then s.charge - chunkCharge o k.data.length else s.charge)) ∧
  (∀ (b : BitVec 6) (h : W64) (i : W32) (u : Nat) (present : List Nat) (o : ObjNs) (v : Ver) (k : Chunk) (j p : Nat) (s : State),
    h ≠ 1 → s.verAt b.toNat h.toNat = some v → smFind s.svc.nss b.toNat = some o → i.toNat < digIdx 0 →
    v.chunks.find? (fun c => c.idx == i.toNat) = some k → k.committed = false → k.pend = [j] → j < k.units.length →
    k.units.getD j 0 = u → present.find? (fun q => !(k.units.contains q)) = some p →
    ∃ (t : State) (w : Ver) (ev : List OutEvent), exec (.commitTimeout b h i u present) s = .next t ∧
      t = { s with svc := { s.svc with vers := swapVer s.svc.vers v w }, out := s.out ++ ev, evSeen := t.evSeen } ∧
      (k.placed = none → ev = []) ∧ (k.placed ≠ none → ∃ d, ev = [.shardWrite p d]) ∧
      w = { v with chunks := w.chunks, digs := w.digs } ∧
      w.chunks = v.chunks.map fun c => if c.idx == i.toNat then { k with units := k.units.set j p } else c) ∧
  (∀ (tok : W32) (e : Sess) (o : ObjNs) (s : State), s.svc.sess.find? (fun y => y.token == tok.toNat) = some e →
    smFind s.svc.nss e.ns = some o → ∃ t, exec (.sessionTimeout tok) s = .next t ∧
      t.svc = { s.svc with
        sess := s.svc.sess.filter fun y => y.token != tok.toNat, journal := s.svc.journal + 1, clk := s.rclock } ∧
      t.charge = s.charge - chunksCharge o e.chunks ∧ t = { s with svc := t.svc, regs := t.regs, evSeen := t.evSeen } ∧
      RegsBut s t [Reg.NVI_GS_CHARGE]) ∧
  (∀ (ok : Bool) (s : State), ∃ t, exec (.indexCheckpoint ok) s = .next t ∧
    t = { s with svc := { s.svc with ckpts := s.svc.ckpts + 1, journal := if ok then 0 else s.svc.journal }, evSeen := t.evSeen }) ∧
  (∀ s : State, ∃ t, exec .exportTimeout s = .next t ∧ t = { s with svc := { s.svc with export_ := none }, evSeen := t.evSeen }) ∧
  ∀ (g : Tag) (x : CmdIn) (c : NCmd) (n : Nat) (o : ObjNs) (a : GosArgs) (s : State), Gos s g x 0x96 false c n o a →
    (a.flags % 4 = 0 →
      (s.svc.export_ ≠ none → Fails (.exportOpen g x) s s c (7, 0x12, 1) 0 0) ∧
      (s.svc.export_ = none → ∃ l : List Nat, l.Perm (((s.nsVers n).filter Ver.live).map (·.handle)) ∧
        Ends (.exportOpen g x) s { s with svc := { s.svc with
          export_ := some ⟨s.svc.nextToken, n, s.rclock, l, 0, [], s.now⟩, nextToken := s.svc.nextToken + 1 } }
          c s.svc.nextToken 0)) ∧
    (∀ e, s.svc.export_ = some e →
      (a.flags % 4 = 1 → a.dlen % 8 ≠ 0 → Fails (.exportRead g x) s s c (0, 2, 1) 0 0 48) ∧
      (a.flags % 4 = 1 → a.dlen % 8 = 0 →
        ((e.token ≠ a.session ∨ e.ns ≠ n) → Fails (.exportRead g x) s s c (7, 0x0D, 1) 0 0) ∧
        (e.token = a.session → e.ns = n → e.trailer = [] →
          let body := s.expBody e o
          let tr := if body.1.length < e.sent + a.dlen then frame 5 body.2 (s.expTrailer e o x.data) else []
          let d := ((body.1 ++ tr).drop e.sent).take a.dlen
          ∃ last : Bool, Ends (.exportRead g x) s { s with
              svc := { s.svc with export_ := some { e with sent := e.sent + d.length, trailer := tr, last := s.now } },
              out := s.out ++ [.cmdData c.ctrl c.tag d] } c d.length (b2n last) ∧
            (last = true ↔ tr ≠ [] ∧ (body.1 ++ tr).length ≤ e.sent + d.length))) ∧
      (a.flags % 4 = 2 → e.token = a.session → e.ns = n →
        Ends (.exportClose g x) s { s with svc := { s.svc with export_ := none } } c 0 0))

/-- NS_CREATE, NS_QUERY, NS_SET, NS_DELETE, IDX_SEARCH, IDX_SEARCH_DONE, RCLOCK_WRITE and RCLOCK_TICK. -/
def Obligations.NamespacesIndexAndRetentionClock : Prop :=
  (∀ (g : Tag) (x : CmdIn) (c : NCmd) (n : Nat) (s : State), NsAsked s g x 0xC1 true c → c.nsid = 0 →
    let d := padTo 256 x.data
    (leAt d 0 1 = 0xFF ∧ n < 64 ∧ (∀ m, m < n → (smFind s.svc.nss m).isSome = true) ∨ leAt d 0 1 = n ∧ n < 64) →
    smFind s.svc.nss n = none → descOk d = true →
    ((geomKM (dGeom d)).1 + (geomKM (dGeom d)).2 ≤ s.spreadUnits x.units →
      (s.pickFor d x.units = none → Fails (.nsCreate g x) s s c (7, 0x09, 1) 0 0) ∧
      ∀ us, s.pickFor d x.units = some us → ∃ (u : State) (ev : List OutEvent) (k : Chunk) (d0 d1 : Nat),
        Ends (.nsCreate g x) s u c d0 d1 ∧
        let old := (smFind s.svc.gone n).getD (0x100, 0)
        u.svc = { s.svc with
          nss := smSet s.svc.nss n ⟨patchB d 0 (leBytes 1 n), old.1, n, [], s.rclock, old.2 + 1, some k⟩,
          journal := s.svc.journal + 1, clk := s.rclock } ∧ k.units = us.1 ∧ u.out = s.out ++ ev ∧
        (dPol d pEncrypt = false → u = { s with svc := u.svc, fresh := u.fresh, out := s.out ++ ev }) ∧
        RegsBut s u [Reg.SEC_KSLOT_LO, Reg.SEC_KSLOT_HI] ∧ u.mem = s.mem ∧ u.thrs = s.thrs ∧ u.nvq = s.nvq) ∧
    (s.spreadUnits x.units < (geomKM (dGeom d)).1 + (geomKM (dGeom d)).2 →
      Fails (.nsCreate g x) s s c (7, 0x15, 1) 0 0)) ∧
  (∀ (g : Tag) (x : CmdIn) (c : NCmd) (n : Nat) (o : ObjNs) (s : State), s.nsOf c.nsid = some (n, o) →
    (NsAsked s g x 0xC6 false c → ∃ d0 d1 f : Nat, Ends (.nsQuery g x) s { s with
      out := s.out ++ [.cmdFields c.ctrl c.tag [(0, o.desc)]], fresh := f } c d0 d1) ∧
    (NsAsked s g x 0xC9 true c →
      let d := patchB (padTo 256 x.data) 0 (leBytes 1 n)
      descOk d = true → dCsi d = dCsi o.desc → leAt d 2 1 = leAt o.desc 2 1 → dPol d pEncrypt = dPol o.desc pEncrypt →
      (dPol o.desc pLocked = true → lockedChange o.desc d = false → Fails (.nsSet g x) s s c (7, 0x14, 1) 0 0) ∧
      ((dPol o.desc pLocked = false ∨ lockedChange o.desc d = true) →
        (s.pickFor d x.units = none → Fails (.nsSet g x) s s c (7, 0x09, 1) 0 0) ∧
        ∀ us, s.pickFor d x.units = some us → ∃ (d0 d1 f : Nat) (ev : List OutEvent) (k : Chunk), k.units = us.1 ∧
          Ends (.nsSet g x) s { s with
            svc := { s.svc with
              nss := smSet s.svc.nss n { o with desc := d, gen := o.gen + 1, descC := some k }, journal := s.svc.journal + 1
              clk := s.rclock }
            out := s.out ++ ev, fresh := f } c d0 d1)) ∧
    (NsAsked s g x 0xC4 true c →
      (∀ e, s.guarded (s.nsVers n) = some e → Fails (.nsDelete g x) s s c (7, e, 1) 0 0) ∧
      (s.guarded (s.nsVers n) = none → s.exporting n = true → Fails (.nsDelete g x) s s c (7, 0x12, 1) 0 0) ∧
      (s.guarded (s.nsVers n) = none → s.exporting n = false →
        (s.pickFor o.desc x.units = none → Fails (.nsDelete g x) s s c (7, 0x09, 1) 0 0) ∧
        ∀ us, s.pickFor o.desc x.units = some us → ∃ (u : State) (d0 d1 : Nat), Ends (.nsDelete g x) s u c d0 d1 ∧
          (∃ v, SvcSends s v ∧ u = { v with fresh := u.fresh }) ∧ u.svc = { s.svc with
            nss := smDel s.svc.nss n, gone := smSet s.svc.gone n (o.nextHandle, o.gen + 1),
            vers := s.svc.vers.filter (fun v => v.ns != n), sess := s.svc.sess.filter (fun v => v.ns != n),
            journal := s.svc.journal + 1, clk := s.rclock } ∧
          ((s.nsVers n).Pairwise (fun v w => v.handle ≠ w.handle) → u.charge = s.charge - s.nsCharge n o)))) ∧
  (∀ (k : Fin 8) (v : W32) (s : State), v.getLsbD 0 = true → ∃ t, exec (.idxSearch k v) s = .next t ∧
    t.rbit (Reg.OBJ_IDX_CTRL k) 0 = true ∧ t.rbit (Reg.OBJ_IDX_RESULT k) 31 = false ∧
    OnlyRegs s t [Reg.OBJ_IDX_CTRL k, Reg.OBJ_IDX_RESULT k]) ∧
  (∀ (k : Fin 8) (s : State), s.rbit (Reg.OBJ_IDX_CTRL k) 0 = true →
    let node := s.reg64 (Reg.OBJ_IDX_NODE_LO k) / 4096 * 4096
    let kr := s.memRead (s.reg64 (Reg.OBJ_IDX_KEY_LO k) / 8 * 8) 72
    let cn := kr.2.2.memNat node 2
    ∃ t, exec (.idxSearchDone k) s = .next t ∧ t.rbit (Reg.OBJ_IDX_CTRL k) 0 = false ∧
      t.rbit (Reg.OBJ_IDX_RESULT k) 31 = true ∧ t.rbit Reg.OBJ_STATUS 4 = true ∧ t.thrs = s.thrs ∧ t.svc = s.svc ∧
      (42 < cn.1 → t.reg (Reg.OBJ_IDX_RESULT k) = 0xA0000000 ∧ t.rbit Reg.OBJ_STATUS 5 = true) ∧
      ∀ key, kr.2.1 = false → cn.2.1 = false → cn.1 ≤ 42 → idxKey kr.1 = some key →
        ∀ lo s', cn.2.2.idxLoop node key 0 cn.1 7 = (some lo, s') →
          (lo = 0 → t.reg (Reg.OBJ_IDX_RESULT k) = 0x8000003F) ∧
          (0 < lo → lo ≤ cn.1 ∧ t.fld (Reg.OBJ_IDX_RESULT k) 0 6 = lo - 1 ∧ t.rbit (Reg.OBJ_IDX_RESULT k) 29 = false ∧
            (t.rbit (Reg.OBJ_IDX_RESULT k) 30 = true ↔ idxKey (s'.memRead (node + 64 + 96 * (lo - 1)) 72).1 = some key))) ∧
  (∀ (ag : Agent) (v : W32) (s : State), s.mayReg ag Reg.OBJ_RCLOCK_HI = true → let u := s.servedFor ag
    let p := u.takeLo ag Reg.OBJ_RCLOCK_LO
    let x := p.1.toNat + 2 ^ 32 * v.toNat
    ∃ t, exec (.rclockWrite ag v) s = .next t ∧ t.rclock = max u.rclock x ∧
      (u.rclock < x → t.rbit Reg.OBJ_STATUS 0 = true) ∧ (x ≤ u.rclock → t.regs = u.regs) ∧
      t = { u with regs := t.regs, pairPend := p.2.pairPend, evSeen := t.evSeen } ∧
      RegsBut u t [Reg.OBJ_RCLOCK_LO, Reg.OBJ_RCLOCK_HI, Reg.OBJ_STATUS]) ∧
  ∀ s : State, s.rclock < 2 ^ 64 - 1 → ∃ t, exec .rclockTick s = .next t ∧ t.rclock = s.rclock + 1 ∧
    OnlyRegs s t [Reg.OBJ_RCLOCK_LO, Reg.OBJ_RCLOCK_HI]

/-- PERST_ASSERT, PERST_RELEASE, CFG_READY_TIMEOUT, HOT_RESET, FLR, CONTROLLER_RESET, LINK_UP, LINK_DOWN, LINK_L1_ENTRY,
LINK_L1_EXIT and CREDIT_STALL. -/
def Obligations.PortsAreResetAndLinksChange : Prop :=
  ∀ (n : HPort) (s : State), s.portLive n = true →
    let base := [Reg.HIF_STATUS, Reg.HIF_PORT_LINK n, Reg.HIF_PORT_PW_SIZE n]
    ((s.hp n).perst = false → (n = 0 → s.fw.resetDue = false) → ∃ t, exec (.perstAssert n) s = .next t ∧
      FnReset t n (fun _ => false) ∧ (t.hp n).perst = true ∧ t.rbit Reg.HIF_CTRL n = false ∧ t.rbit Reg.HIF_STATUS n = true ∧
      t.reg (Reg.HIF_PORT_LINK n) = 0 ∧ (Quiet s n → FnOnly s t n (fun _ => false) (Reg.HIF_CTRL :: base))) ∧
    ((s.hp n).perst = true → ∃ t, exec (.perstRelease n) s = .next t ∧ (t.hp n).perst = false ∧
      (s.pwr.st ≤ 1 → PortOnly s t n [] [] ∧ t.hp n = { s.hp n with perst := false })) ∧
    ((s.hp n).perst = false → s.rbit Reg.HIF_CTRL n = false → ∃ t, exec (.cfgReadyTimeout n) s = .next t ∧
      t.rbit Reg.HIF_CTRL n = true ∧ t.rbit Reg.HIF_STATUS (22 + n) = true ∧ OnlyRegs s t [Reg.HIF_CTRL, Reg.HIF_STATUS]) ∧
    (∃ t, exec (.hotReset n) s = .next t ∧ FnReset t n cfgSticky ∧ t.rbit Reg.HIF_STATUS (2 + n) = true ∧
      t.reg (Reg.HIF_PORT_LINK n) = 0 ∧ (Quiet s n → FnOnly s t n cfgSticky base)) ∧
    (let keep := fun o => cfgSticky o || cfgLink o
      ∃ t, exec (.flr n) s = .next t ∧ FnReset t n keep ∧ t.rbit Reg.HIF_STATUS (4 + n) = true ∧
        (Quiet s n → FnOnly s t n keep [Reg.HIF_STATUS, Reg.HIF_PORT_PW_SIZE n])) ∧
    (s.rbit (Reg.HIF_PORT_LINK n) 31 = true → ∃ t, exec (.linkDown n) s = .next t ∧ FnReset t n cfgSticky ∧
      t.rbit Reg.HIF_STATUS (2 + n) = true ∧ t.reg (Reg.HIF_PORT_LINK n) = 0 ∧ (Quiet s n → FnOnly s t n cfgSticky base)) ∧
    ((s.ctl n).cc.getLsbD 0 = true → ∃ t, exec (.controllerReset n) s = .next t ∧
      (∀ k, k / 256 = n → t.sq k = none ∧ t.cq k = none) ∧ (t.ctl n).cc = (s.ctl n).cc &&& 0xFFFFFFFE ∧ (t.ctl n).rdy = false ∧
      (t.ctl n).aqa = (s.ctl n).aqa ∧ (t.ctl n).asq = (s.ctl n).asq ∧ (t.ctl n).acq = (s.ctl n).acq ∧
      (Quiet s n → FnOnly s t n (fun _ => true) [] ∧ t.hp n = s.hp n)) ∧
    (∀ (sp : BitVec 3) (x2 flit tags : Bool), (s.hp n).perst = false → sp ≠ 0 → ∃ t, exec (.linkUp n sp x2 flit tags) s = .next t ∧
      let cap := s.fld Reg.HIF_CTRL 4 3
      let g := min sp.toNat (if cap = 0 then 7 else cap)
      t.rbit (Reg.HIF_PORT_LINK n) 31 = true ∧ t.fld (Reg.HIF_PORT_LINK n) 27 3 = g ∧
      t.rbit (Reg.HIF_PORT_LINK n) 30 = (flit || decide (6 ≤ g)) ∧
      t.fld (Reg.HIF_PORT_LINK n) 20 3 = s.tagBits n (flit || decide (6 ≤ g)) tags ∧
      t.fld (Reg.HIF_PORT_LINK n) 25 2 = (if x2 && !s.dualPort then 2 else 1) ∧ t.fld (Reg.HIF_PORT_LINK n) 23 2 = 0 ∧
      t.rbit Reg.HIF_STATUS (6 + n) = true ∧ OnlyRegs s t [Reg.HIF_PORT_LINK n, Reg.HIF_STATUS]) ∧
    (∀ sub : Fin 3, s.rbit (Reg.HIF_PORT_LINK n) 31 = true →
      let may := (∀ c ∈ s.nvq.cmds, c.ctrl ≠ n.val) ∧ (s.hp n).reqs = [] ∧ s.l1Enabled n (sub.val + 1) = true ∧
        s.pwr.st < 2 ∧ (sub ≠ 2 ∨ s.pwr.st = 1)
      (may → ∃ t, exec (.linkL1Entry n sub) s = .next t ∧ t.fld (Reg.HIF_PORT_LINK n) 23 2 = sub.val + 1 ∧
        OnlyRegs s t [Reg.HIF_PORT_LINK n]) ∧
      (¬ may → ∃ t, exec (.linkL1Entry n sub) s = .next t ∧ Same s t)) ∧
    (s.fld (Reg.HIF_PORT_LINK n) 23 2 ≠ 0 → ∃ t, exec (.linkL1Exit n) s = .next t ∧ t.fld (Reg.HIF_PORT_LINK n) 23 2 = 0 ∧
      ((s.fld (Reg.HIF_PORT_LINK n) 23 2 ≠ 3 ∨ s.pwr.st ≠ 2) → OnlyRegs s t [Reg.HIF_PORT_LINK n])) ∧
    ∃ t, exec (.creditStall n) s = .next t ∧ t.rbit Reg.HIF_STATUS (18 + n) = true ∧ OnlyRegs s t [Reg.HIF_STATUS]

/-- CONFIG_READ, CONFIG_WRITE, BAR_READ, BAR_WRITE, PEER_WINDOW_READ, PEER_WINDOW_WRITE, PW_COMMIT and LTR_WRITE. -/
def Obligations.HostRequestsAreAnswered : Prop :=
  ∀ (n : HPort) (s : State), s.portLive n = true →
    (∀ (d : BitVec 10) (be : BitVec 4) (v : W32), (s.hp n).perst = false → let o := 4 * d.toNat
      (s.cfgReady n = false → ∀ i ∈ [Instr.configRead n d, .configWrite n d be v], ∃ t, exec i s = .next t ∧
        PortOnly s t n [.pcieCpl n 2 [] false] [] ∧ t.hp n = s.hp n ∧ t.rdata = s.rdata) ∧
      (s.cfgReady n = true →
        (∃ t, exec (.configRead n d) s = .next t ∧ PortOnly s t n [.pcieCpl n 0 (leBytes 4 (s.cfgRead n o).toNat) false] [] ∧
          t.hp n = s.hp n ∧ t.rdata = (s.cfgRead n o).setWidth 64) ∧
        (o ∈ [0x020, 0x024] → ∃ t, exec (.configWrite n d be v) s = .next t ∧ t.bar4Base n % s.bar4Size n = 0 ∧
          (∀ x, x ≠ 0x020 → x ≠ 0x024 → t.cfg n x = s.cfg n x) ∧ PortOnly s t n [.pcieCpl n 0 [] false] [Reg.HIF_STATUS] ∧
          (t.bar4Base n ≠ s.bar4Base n → t.rbit Reg.HIF_STATUS (16 + n) = true)) ∧
        (o ∉ [0x308, 0x310, 0x314, 0x2C8, 0x020, 0x024] → ¬ (o = 0x044 ∧ (getF v 0 2 = 1 ∨ getF v 0 2 = 2)) → ¬ (o = 0x078 ∧ v.getLsbD 15 = true) →
          ∃ t, exec (.configWrite n d be v) s = .next t ∧ (∀ x, x ≠ o → t.cfg n x = s.cfg n x) ∧
            (∀ b, b < 32 → (t.cfg n o).getLsbD b =
              if be.getLsbD (b / 8) && (cfgRw o).testBit b then v.getLsbD b
              else (s.cfg n o).getLsbD b && !(be.getLsbD (b / 8) && (cfgW1c o).testBit b && v.getLsbD b)) ∧
            (o ∉ [0x004, 0x050, 0x060, 0x098, 0x0B0] → PortOnly s t n [.pcieCpl n 0 [] false] [])))) ∧
    (∀ (b : Bar) (o : BitVec 14) (len : BitVec 13),
      (s.takesMem n = false → ∃ t, exec (.barRead n b o len) s = .next t ∧ PortOnly s t n [.pcieCpl n 1 [] false] [] ∧
        (t.cfg n 0x104).getLsbD 20 = true) ∧
      (s.takesMem n = true → (barAccess o.toNat len.toNat = false ∨ barDefined b o.toNat len.toNat = false) →
        ∃ t, exec (.barRead n b o len) s = .next t ∧ PortOnly s t n [.pcieCpl n 1 [] false] [Reg.HIF_STATUS] ∧
          t.rbit Reg.HIF_STATUS (20 + n) = true) ∧
      (s.takesMem n = true → barAccess o.toNat len.toNat = true → barDefined b o.toNat len.toNat = true →
        (b = .bar0 → 0x1000 ≤ o.toNat → ∃ t l, exec (.barRead n b o len) s = .next t ∧ l.length = len.toNat ∧
          t = { s with out := s.out ++ [.pcieCpl n 0 l false], rdata := t.rdata, fresh := t.fresh, evSeen := t.evSeen }) ∧
        ((b = .bar0 → o.toNat < 0x1000) →
          let w := fun x => leBytes 4 (match b with | .bar0 => s.nvmeReg n x | .bar2 => (s.barDw n .bar2 x).1).toNat
          ∃ t, exec (.barRead n b o len) s = .next t ∧ t.hp n = s.hp n ∧
            PortOnly s t n [.pcieCpl n 0 (w o.toNat ++ if len.toNat = 8 then w (o.toNat + 4) else []) false] []))) ∧
    (∀ (b : Bar) (o : BitVec 14) (d : List W8) (ep : Bool),
      (s.takesMem n = false → ∃ t, exec (.barWrite n b o ⟨d, ep⟩) s = .next t ∧ PortOnly s t n [] [] ∧
        (t.cfg n 0x104).getLsbD 20 = true) ∧
      (s.takesMem n = true → ep = true → ∃ t, exec (.barWrite n b o ⟨d, ep⟩) s = .next t ∧ PortOnly s t n [] [] ∧
        (t.cfg n 0x104).getLsbD 12 = true) ∧
      (s.takesMem n = true → ep = false → (barAccess o.toNat d.length = false ∨ barDefined b o.toNat d.length = false) →
        ∃ t, exec (.barWrite n b o ⟨d, ep⟩) s = .next t ∧ t.rbit Reg.HIF_STATUS (20 + n) = true ∧ PortOnly s t n [] [Reg.HIF_STATUS]) ∧
      (s.takesMem n = true → ep = false → d.length = 4 →
        (∀ q : BitVec 8, o.toNat = 0x1000 + 8 * q.toNat → exec (.barWrite n .bar0 o ⟨d, ep⟩) s =
          exec (.sqDoorbell n q (BitVec.ofNat 16 (leAt d 0 2))) s) ∧
        (∀ q : BitVec 8, o.toNat = 0x1004 + 8 * q.toNat → exec (.barWrite n .bar0 o ⟨d, ep⟩) s =
          exec (.cqHeadDoorbell n q (BitVec.ofNat 16 (leAt d 0 2))) s) ∧
        (o = 0x24 → ∃ t, exec (.barWrite n .bar0 o ⟨d, ep⟩) s = .next t ∧
          t.ctl n = { s.ctl n with aqa := BitVec.ofNat 32 (leAt d 0 4) &&& 0x0FFF0FFF } ∧ t.ctl (1 - n.val) = s.ctl (1 - n.val) ∧
          t = { s with nvq := { s.nvq with c0 := t.nvq.c0, c1 := t.nvq.c1 }, evSeen := t.evSeen }) ∧
        (o.toNat ≤ 0x80C → o.toNat % 4 = 0 → (s.cfg n 0x0B0).getLsbD 31 = false → (s.cfg n 0x050).getLsbD 16 = false →
          ∃ t, exec (.barWrite n .bar2 o ⟨d, ep⟩) s = .next t ∧ t.msixDw n (o.toNat / 4) = BitVec.ofNat 32 (leAt d 0 4) &&&
            (if o.toNat / 4 % 4 = 3 then 1 else if o.toNat / 4 % 4 = 0 then 0xFFFFFFFC else 0xFFFFFFFF) ∧
          (∀ i, i ≠ o.toNat / 4 → t.msixDw n i = s.msixDw n i) ∧ PortOnly s t n [] []))) ∧
    (∀ (o : BitVec 33) (len : BitVec 13) (atomic : Bool), s.takesMem n = true → o.toNat < s.bar4Size n →
      (atomic = false → o.toNat < s.pwLimit n → len ≠ 0 → let r := s.memRead (s.pwBase n + o.toNat) len.toNat
        ∃ (t : State) (l : List (List W8)), exec (.peerWindowRead n o ⟨len, atomic⟩) s = .next t ∧ l.flatten = r.1 ∧
          (∀ x ∈ l, x.length ≤ s.maxPayload n) ∧ t.out = s.out ++ l.map (fun x => .pcieCpl n 0 x r.2.1) ∧ t.mem = r.2.2.mem ∧
          t.thrs = s.thrs ∧ t.hp n = s.hp n ∧ t.nvq = s.nvq) ∧
      ((atomic = true ∨ s.pwLimit n ≤ o.toNat) → ∃ t, exec (.peerWindowRead n o ⟨len, atomic⟩) s = .next t ∧
        PortOnly s t n [.pcieCpl n 1 [] false] [Reg.HIF_STATUS] ∧ t.rbit Reg.HIF_STATUS (20 + n) = true)) ∧
    (∀ (o : BitVec 33) (d : List (Option W8)) (ep : Bool),
      ((s.takesMem n = false ∨ s.bar4Size n ≤ o.toNat) → ∃ t, exec (.peerWindowWrite n o d ep) s = .next t ∧
        (t.cfg n 0x104).getLsbD 20 = true ∧ PortOnly s t n [] []) ∧
      (s.takesMem n = true → o.toNat < s.bar4Size n →
        (ep = true → ∃ t, exec (.peerWindowWrite n o d ep) s = .next t ∧ (t.cfg n 0x104).getLsbD 12 = true ∧ PortOnly s t n [] []) ∧
        (ep = false → s.pwLimit n ≤ o.toNat → ∃ t, exec (.peerWindowWrite n o d ep) s = .next t ∧
          t.rbit Reg.HIF_STATUS (20 + n) = true ∧ (t.cfg n 0x104).getLsbD 20 = true ∧ PortOnly s t n [] [Reg.HIF_STATUS]) ∧
        (ep = false → o.toNat < s.pwLimit n → ∀ l : List W8, d = l.map some → ∃ t, exec (.peerWindowWrite n o d ep) s = .next t ∧
          t.mem = (s.memWrite (s.pwBase n + o.toNat) l).mem ∧ t.thrs = s.thrs ∧ t.hp n = s.hp n ∧ t.out = s.out))) ∧
    (s.rbit (Reg.HIF_PORT_PW_COMMIT n) 0 = true →
      let base := s.reg64 (Reg.HIF_PORT_PW_BASE_LO n)
      let lim := min 8192 (s.fld (Reg.HIF_PORT_PW_LIMIT n) 0 14)
      ∃ t, exec (.pwCommit n) s = .next t ∧ t.rbit (Reg.HIF_PORT_PW_COMMIT n) 0 = false ∧ RegsBut s t [Reg.HIF_PORT_PW_COMMIT n] ∧
        t = { s with regs := t.regs, active := t.active, evSeen := t.evSeen } ∧
        (s.dramSize < base + lim * 2 ^ 20 → t.rbit (Reg.HIF_PORT_PW_COMMIT n) 1 = true ∧ t.active = s.active) ∧
        (base + lim * 2 ^ 20 ≤ s.dramSize → t.rbit (Reg.HIF_PORT_PW_COMMIT n) 1 = false ∧ t.pwBase n = base ∧
          t.pwLimit n = lim * 2 ^ 20)) ∧
    ∀ v : W32, s.isBase = true → ∃ t, exec (.ltrWrite n v) s = .next t ∧ t.reg (Reg.HIF_PORT_LTR n) = v ∧
      PortOnly s t n (if s.reg (Reg.HIF_PORT_LTR n) ≠ v ∧ (s.cfg n 0x098).getLsbD 10 = true then [.ltr n v] else [])
        [Reg.HIF_PORT_LTR n]

/-- COMPLETION_RECEIVED, COMPLETION_TIMEOUT, TAG_QUARANTINE_END, DOE_REQUEST and DOE_ABORT. -/
def Obligations.CompletionsAndDataObjects : Prop :=
  ∀ (n : HPort) (s : State), s.portLive n = true →
    (∀ (tag : W16) (st : CplStatus) (d : List W8) (ep : Bool),
      (st = .malformed → ∃ t, exec (.completionReceived n tag st d ep) s = .next t ∧ t.rbit Reg.HIF_STATUS (14 + n) = true ∧
        (t.cfg n 0x104).getLsbD 18 = true ∧ (t.hp n).reqs = (s.hp n).reqs ∧ PortOnly s t n [] [Reg.HIF_STATUS]) ∧
      ((s.hp n).reqs.find? (fun r => r.tag == tag.toNat) = none →
        st ∉ [.malformed, .bufferError] →
        ((s.hp n).silent.contains tag.toNat = true → ∃ t, exec (.completionReceived n tag st d ep) s = .next t ∧ Same s t) ∧
        ((s.hp n).silent.contains tag.toNat = false → ∃ t, exec (.completionReceived n tag st d ep) s = .next t ∧
          t.rbit Reg.HIF_STATUS (12 + n) = true ∧ (t.cfg n 0x110).getLsbD 13 = true ∧
          t.reg (Reg.HIF_PORT_UNEXP_CNT n) = BitVec.ofNat 32 (min (2 ^ 32 - 1) ((s.reg (Reg.HIF_PORT_UNEXP_CNT n)).toNat + 1)) ∧
          (t.hp n).reqs = (s.hp n).reqs ∧ PortOnly s t n [] [Reg.HIF_STATUS, Reg.HIF_PORT_UNEXP_CNT n])) ∧
      ∀ r, (s.hp n).reqs.find? (fun r => r.tag == tag.toNat) = some r →
        let u := s.setHp n { s.hp n with reqs := (s.hp n).reqs.filter fun x => x.tag != tag.toNat }
        (st = .ok → ep = false → (r.got ++ d).length < r.len → ∃ t, exec (.completionReceived n tag st d ep) s = .next t ∧
          (t.hp n).reqs.find? (fun x => x.tag == tag.toNat) = some { r with got := r.got ++ d } ∧
          (t.hp n).reqs.map (·.tag) = (s.hp n).reqs.map (·.tag) ∧ PortOnly s t n [] []) ∧
        (st = .ok → ep = false → r.len ≤ (r.got ++ d).length → exec (.completionReceived n tag st d ep) s =
          .next (u.dmaRemoteEnd r.chan r.arg (some ((r.got ++ d).take r.len, false))).settle) ∧
        (st ∉ [.ok, .malformed, .bufferError] →
          exec (.completionReceived n tag st d ep) s = .next (u.dmaRemoteEnd r.chan r.arg none).settle) ∧
        (st = .bufferError ∨ st = .ok ∧ ep = true → ∃ v : State, v = { u with regs := v.regs, hif0 := v.hif0, hif1 := v.hif1 } ∧
          (v.cfg n 0x104).getLsbD (if st = .ok then 12 else 22) = true ∧ (v.hp n).reqs = (u.hp n).reqs ∧
          RegsBut s v [Reg.HIF_STATUS] ∧ (st = .bufferError → v.rbit Reg.HIF_STATUS (14 + n) = true) ∧
          exec (.completionReceived n tag st d ep) s = .next (v.dmaRemoteEnd r.chan r.arg none).settle) ∧
        (∃ v : State, v = { u with regs := v.regs, hif0 := v.hif0, hif1 := v.hif1 } ∧ v.rbit Reg.HIF_STATUS (10 + n) = true ∧
          (v.hp n).quar = (s.hp n).quar ++ [tag.toNat] ∧
          (v.cfg n 0x104).getLsbD 14 = true ∧ (v.hp n).reqs = (u.hp n).reqs ∧
          RegsBut s v [Reg.HIF_STATUS, Reg.HIF_PORT_CTO_CNT n] ∧
          exec (.completionTimeout n tag) s = .next (v.dmaRemoteEnd r.chan r.arg none).settle)) ∧
    (∀ tag : W16, ∃ t, exec (.tagQuarantineEnd n tag) s = .next t ∧ PortOnly s t n [] [] ∧
      t.hp n = { s.hp n with quar := (s.hp n).quar.erase tag.toNat }) ∧
    (∀ o : List W32, s.cfgReady n = true →
      let gets := fun (d : Doe) => ∃ t, exec (.doeRequest n o) s = .next t ∧ PortOnly s t n [] [] ∧ t.hp n = { s.hp n with doe := d }
      let d := s.doe n
      (doeWellFormed o = false → gets { d with inObj := [], err := true }) ∧
      (doeWellFormed o = true → doeKnown o = true → ∃ t, exec (.doeRequest n o) s = .next t ∧
        t.hp n = { s.hp n with doe := { d with inObj := [], wait := d.wait ++ [(s.sec.arrived, o)] } } ∧
        t.sec = { s.sec with arrived := s.sec.arrived + 1 } ∧ t = { s with sec := t.sec, hif0 := t.hif0, hif1 := t.hif1, evSeen := t.evSeen } ∧
        t.hp (1 - n.val) = s.hp (1 - n.val)) ∧
      (doeWellFormed o = true → doeKnown o = false → gets { d with
        inObj := [], err := d.err || [(1, 0), (1, 1), (0x1CF7, 1)].contains (doeProto o) })) ∧
    ∃ t, exec (.doeAbort n) s = .next t ∧ PortOnly s t n [] [] ∧ t.hp n = { s.hp n with doe := ⟨[], [], [], [], false⟩ }

/-- POWER_REQUEST, POWER_ENTRY, WAKE, KINDLING, KINDLE_TIMEOUT, KINDLE_RETRY, PWR_GOOD_FALL, PWR_GOOD_RISE, POR_ASSERT,
WARM_RESET, RESET_RELEASE, WDOG_ENABLE, WDOG_KICK, WDOG_EXPIRY, EMBER_SUPPLY_UP, THERMAL_TRIP and TRIP_RESTART. -/
def Obligations.PowerStatesKindlingAndResets : Prop :=
  ∀ s : State,
  (∀ v : W32, s.pwr.st < 3 → let r := getF v 0 2
    (∀ x, s.pwr.target = some x → ∃ t, exec (.powerRequest v) s = .next t ∧ t.fld Reg.SYS_PWR 0 2 = r ∧
      OnlyPwr s t { s.pwr with next := some r } [Reg.SYS_PWR]) ∧
    (s.pwr.target = none → (r = s.pwr.st ∨ s.pwr.st = 2 ∧ r < 2) → ∃ t, exec (.powerRequest v) s = .next t ∧ t.fld Reg.SYS_PWR 0 2 = r ∧
      OnlyPwr s t s.pwr [Reg.SYS_PWR]) ∧
    (s.pwr.target = none → s.pwr.st = 1 → r = 0 → ∃ t, exec (.powerRequest v) s = .next t ∧ t.fld Reg.SYS_PWR 8 2 = 0 ∧
      t.rbit Reg.SYS_STATUS 0 = true ∧ OnlyPwr s t { s.pwr with st := 0 } [Reg.SYS_PWR, Reg.SYS_STATUS]) ∧
    (s.pwr.target = none → r ≠ s.pwr.st → r ≠ 0 → (s.pwr.st = 2 → r = 3) →
      (s.pwrFail r = none → ∃ t, exec (.powerRequest v) s = .next t ∧ t.fld Reg.SYS_PWR 0 2 = r ∧
        OnlyPwr s t { s.pwr with target := some r } [Reg.SYS_PWR]) ∧
      (∀ c, s.pwrFail r = some c → ∃ t, exec (.powerRequest v) s = .next t ∧ t.fld Reg.SYS_PWR 0 2 = s.pwr.st ∧
        t.fld Reg.SYS_PWR 12 4 = c ∧ t.rbit Reg.SYS_STATUS 1 = true ∧ OnlyPwr s t s.pwr [Reg.SYS_PWR, Reg.SYS_STATUS]))) ∧
  (∀ (wake : Bool) (g : Nat), s.pwr.target = some g → s.pwr.next = none →
    (2 ≤ g → s.allWait = false → ∃ t, exec (.powerEntry wake) s = .next t ∧ Same s t) ∧
    (2 ≤ g → s.allWait = true → ∃ t, exec (.powerEntry true) s = .next t ∧ t.fld Reg.SYS_PWR 12 4 = 15 ∧
      t.fld Reg.SYS_PWR 8 2 = 0 ∧ t.rbit Reg.SYS_STATUS 1 = true ∧
      OnlyPwr s t { s.pwr with st := 0, target := none } [Reg.SYS_PWR, Reg.SYS_STATUS]) ∧
    (∀ c, s.pwr.st ≤ 3 → (g < 2 ∨ s.allWait = true ∧ wake = false) → s.pwrFail g = some c →
      ∃ t, exec (.powerEntry wake) s = .next t ∧ t.fld Reg.SYS_PWR 12 4 = c ∧ t.fld Reg.SYS_PWR 0 2 = s.pwr.st ∧
        t.rbit Reg.SYS_STATUS 1 = true ∧ OnlyPwr s t { s.pwr with target := none } [Reg.SYS_PWR, Reg.SYS_STATUS]) ∧
    (s.pwrFail g = none →
      (g = 1 → ∃ t, exec (.powerEntry wake) s = .next t ∧ t.fld Reg.SYS_PWR 8 2 = 1 ∧ t.fld Reg.SYS_PWR 0 2 = 1 ∧
        t.rbit Reg.SYS_STATUS 0 = true ∧ t.rbit Reg.SYS_CLK 1 = false ∧
        OnlyPwr s t { s.pwr with st := 1, target := none } [Reg.SYS_PWR, Reg.SYS_STATUS, Reg.SYS_CLK]) ∧
      (g = 2 → s.allWait = true → ∃ t, exec (.powerEntry false) s = .next t ∧ t.pwr = { s.pwr with st := 2, target := none } ∧
        t.fld Reg.SYS_PWR 8 2 = 2 ∧ t.rbit Reg.SYS_STATUS 0 = true ∧ t.mem.selfRef = true ∧ t.mem.lines = [] ∧ t.mem.wb = [] ∧
        t.rbit Reg.SYS_CLK 1 = false ∧ t.thrs = s.thrs ∧ t.nvq = s.nvq ∧ t.svc = s.svc) ∧
      (g = 3 → s.allWait = true → s.pwr.pwrEn = true → ∃ t, exec (.powerEntry false) s = .next t ∧ t.pwr.st = 3 ∧
        t.pwr.pwrEn = false ∧ t.pwr.viaTrip = false ∧ t.out = s.out ++ [.pwrEn false] ∧ (∀ p, t.runBit p = true → 192 ≤ p) ∧
        t.mem.dram = [] ∧ (∀ p, p ≠ 160 → t.thr p = Thread.reset)))) ∧
  (∀ w : Fin 11, s.wakeOn w = true → s.wakeHolds w = true →
    (s.pwr.st = 2 → w ≠ 7 → ∃ t, exec (.wake w) s = .next t ∧ t.reg Reg.EMB_WAKE_SRC = BitVec.ofNat 32 (2 ^ w.val) ∧
      t.rbit Reg.EMB_STATUS 2 = true ∧ t.fld Reg.SYS_PWR 8 2 = 0 ∧ t.rbit Reg.SYS_STATUS 0 = true ∧
      t = { s with regs := t.regs, pwr := { s.pwr with st := 0, target := none, next := none },
                   mem := { s.mem with selfRef := false }, evSeen := t.evSeen } ∧
      RegsBut s t [Reg.SYS_PWR, Reg.SYS_STATUS, Reg.EMB_WAKE_SRC, Reg.EMB_STATUS]) ∧
    (s.pwr.st = 3 → w.val < 8 → s.tripHeld = false → s.pwr.por = false → s.pwr.pwrEn = false →
      ∃ t, exec (.wake w) s = .next t ∧ t.reg Reg.EMB_WAKE_SRC = BitVec.ofNat 32 (2 ^ w.val) ∧ t.rbit Reg.EMB_STATUS 2 = true ∧
        t = { s with regs := t.regs, pwr := { s.pwr with due := false, retry := false, tries := 0, pwrEn := true },
                     out := s.out ++ [.pwrEn true], evSeen := t.evSeen } ∧
        RegsBut s t [Reg.EMB_WAKE_SRC, Reg.EMB_STATUS])) ∧
  (s.pwr.st = 3 → s.tripHeld = false → s.pwr.pwrEn = false →
    (∀ b : BitVec 5, s.pwr.por = true → ∃ t, exec (.kindling true b) s = .next t ∧ t.reg Reg.SYS_STRAP = b.setWidth 32 ∧
      t.rbit Reg.SYS_ROLE 2 = b.getLsbD 4 ∧ t.pwr.por = false ∧ t.pwr.pwrEn = true ∧ t.out = s.out ++ [.pwrEn true] ∧
      t = { s with regs := t.regs, pwr := t.pwr, out := t.out, evSeen := t.evSeen } ∧
      RegsBut s t [Reg.SYS_STRAP, Reg.SYS_ROLE]) ∧
    (∀ b : BitVec 5, s.pwr.por = false → s.pwr.due = true → ∃ t, exec (.kindling false b) s = .next t ∧ t.pwr.due = false ∧
      t.pwr.pwrEn = true ∧ t = { s with pwr := t.pwr, out := s.out ++ [.pwrEn true], evSeen := t.evSeen }) ∧
    (s.pwr.por = false → s.pwr.retry = true → ∃ t, exec .kindleRetry s = .next t ∧
      t = { s with pwr := { s.pwr with due := false, retry := false, pwrEn := true }, out := s.out ++ [.pwrEn true],
                   evSeen := t.evSeen })) ∧
  (s.pwr.st = 3 → s.pwr.pwrEn = true →
    (∃ t, exec .kindleTimeout s = .next t ∧ t.out = s.out ++ [.pwrEn false] ∧ t.pwr.pwrEn = false ∧
      t.fld Reg.EMB_LW 0 5 = (s.fld Reg.EMB_LW 0 5 + 1) % 32 ∧ t.thrs = s.thrs ∧
      (s.pwr.tries < 2 → t.pwr = { s.pwr with pwrEn := false, tries := s.pwr.tries + 1, retry := true }) ∧
      (2 ≤ s.pwr.tries → t.rbit Reg.EMB_STATUS 4 = true ∧
        t.pwr = { s.pwr with pwrEn := false, tries := 0, due := false, retry := false })) ∧
    ∀ id : Bool, ∃ t, exec (.pwrGoodRise id) s = .next t ∧ ResetLeaves s t .kindling id ∧ t.pwr.st = 0 ∧
      (t.reg Reg.SYS_RST_CAUSE) = (if s.pwr.fromPor then 1 else 2) ||| (if s.pwr.viaTrip then 0x80 else 0) ∧
      (id = false → t.rbit Reg.SEC_STATUS 3 = true)) ∧
  (s.pwr.st < 3 → s.pwr.pwrEn = true → ∃ t, exec .pwrGoodFall s = .next t ∧ t.pwr.st = 3 ∧ t.pwr.pwrEn = false ∧
    t.out = s.out ++ [.pwrEn false] ∧ (∀ p, t.runBit p = true → 192 ≤ p) ∧ (∀ p, p ≠ 160 → t.thr p = Thread.reset) ∧
    t.mem.dram = [] ∧ (Canon s → t.fld Reg.EMB_LW 0 5 = (s.fld Reg.EMB_LW 0 5 + 1) % 32)) ∧
  (∀ i ∈ [Instr.porAssert, .emberSupplyUp], ∃ t, exec i s = .next t ∧ t.pwr.st = 3 ∧ t.pwr.por = true ∧ t.pwr.fromPor = true ∧
    t.pwr.pwrEn = false ∧ t.pwr.due = false ∧ t.mem = Mem.reset ∧ (i = .porAssert → ResetLeaves s t .por true) ∧
    (i = .emberSupplyUp → ∀ o, o / 0x10000 = 1 → t.reg o = regResetVal o)) ∧
  (∀ v : W32, (¬ (getF v 16 16 = 0xA5C3 ∧ v.getLsbD 0 = true) → ∃ t, exec (.warmReset v) s = .next t ∧ Same s t) ∧
    (getF v 16 16 = 0xA5C3 → v.getLsbD 0 = true → s.pwr.st ≠ 3 → s.pwr.trip = false →
      (∀ r, s.pwr.rst = some r → ∃ t, exec (.warmReset v) s = .next t ∧ t = { s with
        pwr := { s.pwr with rst := some { r with full := true, causes := r.causes ||| 4 } }, evSeen := t.evSeen }) ∧
      (s.pwr.rst = none → ∃ t r, exec (.warmReset v) s = .next t ∧ t.pwr = { s.pwr with rst := some r, target := none, next := none } ∧
        r.full = true ∧ r.causes = 4 ∧ r.sb = false ∧ r.oldDump = s.gs.dump.isSome ∧ (∀ p, t.runBit p = true → 192 ≤ p) ∧
        (s.isBase = true → t.nvq.stopped = true) ∧ t.thrs = s.thrs ∧ t.svc = s.svc))) ∧
  (∀ (limit high id : Bool) (r : RstSeq), s.pwr.rst = some r →
    (limit = false → (s.gs.dump ≠ none ∨ s.retracting 0 = true ∨ s.retracting 1 = true) →
      ∃ t, exec (.resetRelease limit high id) s = .next t ∧ Same s t) ∧
    (s.gs.dump = none → (limit = true ∨ (s.retracting 0 = false ∧ s.retracting 1 = false)) → (r.sb = true → high = true) →
      ∃ t, exec (.resetRelease limit high id) s = .next t ∧ ResetLeaves s t (if r.full then .full else .core) id ∧ t.pwr.st = 0 ∧
        t.pwr.rst = none ∧ t.reg Reg.SYS_RST_CAUSE = r.causes)) ∧
  (∀ v : W32, ∃ t, exec (.wdogEnable v) s = .next t ∧ OnlyRegs s t [Reg.SYS_WDOG] ∧
    t.reg Reg.SYS_WDOG = (if s.rbit Reg.SYS_WDOG 31 then s.reg Reg.SYS_WDOG else v &&& 0x8000FFFF)) ∧
  (∀ v : W32, ∃ t, exec (.wdogKick v) s = .next t ∧ OnlyRegs s t [Reg.SYS_WDOG] ∧
    t.reg Reg.SYS_WDOG = (if getF v 0 16 = 0x4B43 then s.reg Reg.SYS_WDOG &&& 0xBFFFFFFF else s.reg Reg.SYS_WDOG)) ∧
  (s.rbit Reg.SYS_WDOG 31 = false → ∃ t, exec .wdogExpiry s = .next t ∧ Same s t) ∧
  (s.rbit Reg.SYS_WDOG 31 = true → (∀ e ∈ s.thrs, e.2.dbg = false) →
    (s.rbit Reg.SYS_WDOG 30 = false → ∃ t, exec .wdogExpiry s = .next t ∧ t.rbit Reg.SYS_WDOG 30 = true ∧
      t.rbit Reg.SYS_STATUS 2 = true ∧ OnlyRegs s t [Reg.SYS_WDOG, Reg.SYS_STATUS]) ∧
    (s.rbit Reg.SYS_WDOG 30 = true → s.pwr.st ≠ 3 → s.pwr.trip = false → s.pwr.rst = none →
      ∃ t r, exec .wdogExpiry s = .next t ∧ t.pwr.rst = some r ∧ r.full = true ∧ r.causes = 8 ∧
        (∀ p, t.runBit p = true → 192 ≤ p) ∧ t.fld Reg.EMB_LW 0 5 = (s.fld Reg.EMB_LW 0 5 + 1) % 32)) ∧
  (s.pwr.st ≠ 3 → s.pwr.trip = false →
    (s.pwr.tripDue = false → ∀ limit, ∃ t, exec (.thermalTrip limit) s = .next t ∧ Same s t) ∧
    (s.pwr.tripDue = true → s.pwr.pwrEn = true → Canon s → ∃ t, exec (.thermalTrip true) s = .next t ∧ t.pwr.st = 3 ∧
      t.pwr.viaTrip = true ∧ t.pwr.pwrEn = false ∧ t.rbit Reg.EMB_TRIP 31 = true ∧
      t.fld Reg.EMB_TRIP 0 8 = satAdd (s.fld Reg.EMB_TRIP 0 8) 1 8 ∧ (∀ p, t.runBit p = true → 192 ≤ p) ∧
      .thermTrip true ∈ t.out ∧ .pwrEn false ∈ t.out)) ∧
  (∀ limit : Bool, s.pwr.st ≠ 3 → s.pwr.trip = true → limit = false → (s.retracting 0 = true ∨ s.gs.dump ≠ none) →
    ∃ t, exec (.thermalTrip limit) s = .next t ∧ Same s t) ∧
  (s.pwr.st = 3 → s.tripHeld = true →
    let cold := if s.pwr.ds7Broken then 300 ≤ s.pwr.heldS else s.coolNeed ≤ s.pwr.cool
    (¬ cold → ∃ t, exec .tripRestart s = .next t ∧ Same s t) ∧
    (cold → s.pwr.por = false → s.pwr.pwrEn = false → s.pwr.due = false →
      ∃ t, exec .tripRestart s = .next t ∧ t.tripHeld = false ∧ t.rbit Reg.EMB_STATUS 3 = true ∧
        t.out = s.out ++ [.thermTrip false] ++ (if s.rbit Reg.EMB_TRIP 30 then [.pwrEn true] else []) ∧
        t.pwr.pwrEn = s.rbit Reg.EMB_TRIP 30 ∧ t = { s with regs := t.regs, pwr := t.pwr, out := t.out, evSeen := t.evSeen } ∧
        RegsBut s t [Reg.EMB_TRIP, Reg.EMB_STATUS, Reg.EMB_WAKE_SRC]))

/-- REFRESH_RATE_CHANGE, BOOST_CHANGE, XTAL_FAIL, REF_LOST, ADC_CONVERSION, DIE_SAMPLE, SENSOR_READMIT, POWER_MEASURE,
EMBER_DS7_CONVERSION, RTC_TICK and RTC_WRITE. -/
def Obligations.ClocksSensorsAndFirewood : Prop :=
  ∀ s : State,
  (∀ d : Fin 3, s.pwr.st < 3 → let band := (s.mem.refNext.map (·.2)).getD (s.fld Reg.MEM_REF 0 3)
    band < 8 → ∃ t, exec (.refreshRateChange d) s = .next t ∧ t.fld Reg.MEM_REF 0 3 = band ∧
      t.fld Reg.MEM_REF 3 2 = max (if band ≤ 4 then 0 else if band = 5 then 1 else 2) d.val ∧
      (t.fld Reg.MEM_REF 3 2 ≠ s.fld Reg.MEM_REF 3 2 → t.rbit Reg.MEM_STATUS 6 = true) ∧
      t = { s with regs := t.regs, mem := { s.mem with refNext := none }, evSeen := t.evSeen } ∧
      RegsBut s t [Reg.MEM_REF, Reg.MEM_STATUS]) ∧
  (s.pwr.st < 2 → s.boostOk ≠ s.rbit Reg.SYS_CLK 1 → ∃ t, exec .boostChange s = .next t ∧ t.rbit Reg.SYS_CLK 1 = s.boostOk ∧
    t.rbit Reg.SYS_STATUS 3 = true ∧ OnlyRegs s t [Reg.SYS_CLK, Reg.SYS_STATUS]) ∧
  (s.boostOk = s.rbit Reg.SYS_CLK 1 → ∃ t, exec .boostChange s = .next t ∧ Same s t) ∧
  (s.rbit Reg.EMB_CLK 0 = false → ∃ t, exec .xtalFail s = .next t ∧ t.rbit Reg.EMB_CLK 0 = true ∧
    t.rbit Reg.EMB_STATUS 1 = true ∧ OnlyRegs s t [Reg.EMB_CLK, Reg.EMB_STATUS]) ∧
  (s.pwr.st < 3 → ∃ t, exec .refLost s = .next t ∧ t.rbit Reg.SYS_STATUS 4 = true ∧ t.rbit Reg.SYS_BIV 10 = true ∧
    t.rbit Reg.SYS_BIV 31 = true ∧ (s.rbit Reg.SYS_BIV 31 = true → OnlyRegs s t [Reg.SYS_STATUS, Reg.SYS_BIV])) ∧
  (∀ raw : W16, s.pwr.st < 3 → let ch := s.pwr.adc
    let x := if ch < 8 then raw.toInt else raw.toInt + sgnF (s.reg (Reg.THM_EXT_CFG (extIx ch))) 0 16
    (ch < 18 → (ch < 8 ∨ s.rbit (Reg.THM_EXT_CFG (extIx ch)) 29 = true) →
      ∃ t, exec (.adcConversion raw) s = .next t ∧ t.fld (Reg.THM_CH ch) 0 16 = natOfInt x 16 ∧ t.pwr.adc = ch + 1 ∧
        (s.rbit (Reg.THM_CH ch) 30 = false → s.roundBad ch x = false →
          t.fld (Reg.THM_CH ch) 28 2 = 0 ∧ t.rbit (Reg.THM_CH ch) 31 = decide (s.chGroup ch ≠ 0) ∧
          OnlyPwr s t { s.pwr with adc := ch + 1 } [Reg.THM_CH ch]) ∧
        (s.rbit (Reg.THM_CH ch) 30 = false → s.roundBad ch x = true →
          (s.fld (Reg.THM_CH ch) 28 2 < 2 → t.fld (Reg.THM_CH ch) 28 2 = s.fld (Reg.THM_CH ch) 28 2 + 1 ∧
            OnlyPwr s t { s.pwr with adc := ch + 1, badDie := s.pwr.badDie.filter (· != ch) } [Reg.THM_CH ch]) ∧
          (2 ≤ s.fld (Reg.THM_CH ch) 28 2 → t.rbit (Reg.THM_CH ch) 30 = true ∧ t.rbit (Reg.THM_CH ch) 31 = false ∧
            t.rbit Reg.THM_STATUS 2 = true))) ∧
    (8 ≤ ch → ch < 18 → s.rbit (Reg.THM_EXT_CFG (extIx ch)) 29 = false → ∃ t, exec (.adcConversion raw) s = .next t ∧
      t.rbit (Reg.THM_CH ch) 31 = false ∧ OnlyPwr s t { s.pwr with adc := ch + 1 } [Reg.THM_CH ch]) ∧
    (18 ≤ ch → ch ≤ 23 → let mv := raw.toNat
      let bad := 100 * mv < 95 * nominal ch ∨ 105 * nominal ch < 100 * mv
      ∃ t, exec (.adcConversion raw) s = .next t ∧ t.fld (Reg.THM_CH ch) 0 16 = mv ∧ t.pwr.adc = (ch + 1) % 24 ∧
        (bad → 1 ≤ smGet (fun _ => 0) s.pwr.supply ch → t.rbit Reg.THM_STATUS 5 = true) ∧
        (ch < 23 → ¬ bad → smGet (fun _ => 0) t.pwr.supply ch = 0 ∧ OnlyPwr s t { s.pwr with adc := ch + 1, supply := t.pwr.supply }
          [Reg.THM_CH ch]) ∧
        (ch = 23 → t.rbit Reg.THM_STATUS 0 = true ∧ t.pwr.round = true))) ∧
  (∀ l : W128, s.pwr.st < 3 → let x := fun (i : Nat) => (l.extractLsb' (16 * i) 16).toInt;
    (∀ i, i < 8 → s.chValid i = true ∧ outOfRange (x i) = false ∧ ∀ y, smFind s.pwr.last i = some y → (x i - y).natAbs ≤ 80) →
    ∃ t, exec (.dieSample l) s = .next t ∧ (∀ i, i < 8 → x i ≤ t.pwr.die) ∧ (∃ i, i < 8 ∧ t.pwr.die = x i) ∧
      t.fld Reg.THM_THROT 24 4 = (if s.fld Reg.THM_THROT 24 4 < thLevel t.pwr.die then thLevel t.pwr.die
        else if thLevel (t.pwr.die + 32) < s.fld Reg.THM_THROT 24 4 then thLevel (t.pwr.die + 32)
        else s.fld Reg.THM_THROT 24 4) ∧
      t.fld Reg.THM_THROT 24 4 ≤ t.fld Reg.THM_THROT 28 4 ∧
      (∀ i, i < 8 → smFind t.pwr.last i = some (x i)) ∧
      (s.pwr.trip = false → (∃ i, i < 8 ∧ 2160 ≤ x i ∧ 1 ≤ smGet (fun _ => 0) s.pwr.hotRun i) → t.pwr.tripDue = true) ∧
      ((∀ i, i < 8 → x i < 2160) → t.pwr.tripDue = s.pwr.tripDue) ∧
      t = { s with regs := t.regs, pwr := t.pwr, out := t.out, evSeen := t.evSeen } ∧
      t.out = s.out ++ (if t.fld Reg.THM_BANDS 24 3 = s.fld Reg.THM_BANDS 24 3 then [] else [.dramRetrain]) ∧
      RegsBut s t [Reg.THM_BANDS, Reg.THM_STATUS, Reg.THM_THROT]) ∧
  (∀ (ch : Fin 18) (v : W32), ∃ t, exec (.sensorReadmit ch v) s = .next t ∧ OnlyRegs s t [Reg.THM_CH ch] ∧
    (v.getLsbD 30 = true → t.rbit (Reg.THM_CH ch) 30 = false ∧ t.fld (Reg.THM_CH ch) 28 2 = 0) ∧
    (v.getLsbD 30 = false → t.regs = s.regs)) ∧
  (∀ mw : W16, s.pwr.st < 3 → let p := mw.toNat
    let sus := 10 * min 0x3B6 (s.fld Reg.THM_FW_CFG 10 11)
    let peak := 10 * min 0x47E (s.fld Reg.THM_FW_CFG 21 11)
    let lv := s.fld Reg.THM_THROT 20 4
    ∃ t, exec (.powerMeasure mw) s = .next t ∧
      t.pwr = { s.pwr with acct := (if sus < p then s.pwr.acct - (p - sus)
        else min 60000000 (s.pwr.acct + min (sus - p) (10 * s.fld Reg.THM_FW_CFG 0 10))) } ∧
      t.reg Reg.THM_PWR = BitVec.ofNat 32 p ∧ t.reg Reg.THM_FW_ACCT = BitVec.ofNat 32 (t.pwr.acct / 1000) ∧
      (t.pwr.acct = 0 → s.pwr.acct ≠ 0 → t.rbit Reg.THM_STATUS 4 = true) ∧
      ((peak < p ∨ (t.pwr.acct = 0 ∧ sus < p)) → t.fld Reg.THM_THROT 20 4 = min 15 (lv + 1)) ∧
      (¬ (peak < p ∨ (t.pwr.acct = 0 ∧ sus < p)) → (p + 250 < sus ∨ (p + 250 < peak ∧ 1000000 ≤ t.pwr.acct)) →
        t.fld Reg.THM_THROT 20 4 = lv - 1) ∧
      OnlyPwr s t t.pwr [Reg.THM_PWR, Reg.THM_FW_ACCT, Reg.THM_STATUS, Reg.THM_THROT]) ∧
  (∀ v : W16, s.pwr.st = 3 → s.tripHeld = true → ∃ t, exec (.emberDs7Conversion v) s = .next t ∧
    OnlyPwr s t { s.pwr with cool := if v.toInt < 1760 then s.pwr.cool + 1 else 0 } []) ∧
  (s.rtc + 1 < 2 ^ 64 →
    (s.pwr.due = false → (s.reg64 Reg.EMB_ALARM_LO = 0 ∨ s.reg64 Reg.EMB_ALARM_LO ≠ s.rtc + 1) → ∃ t, exec .rtcTick s = .next t ∧
      t.rtc = s.rtc + 1 ∧ OnlyPwr s t { s.pwr with heldS := s.pwr.heldS + b2n (decide (s.pwr.st = 3) && s.tripHeld) }
        [Reg.EMB_RTC_LO, Reg.EMB_RTC_HI]) ∧
    (s.reg64 Reg.EMB_ALARM_LO = s.rtc + 1 → ∃ t, exec .rtcTick s = .next t ∧ t.rtc = s.rtc + 1 ∧ t.rbit Reg.EMB_STATUS 0 = true)) ∧
  ∀ v : W64, ∃ t, exec (.rtcWrite v) s = .next t ∧ t.rtc = v.toNat ∧ t.rbit Reg.EMB_CLK 1 = true ∧
    t = { s with regs := t.regs, evt := { s.evt with anchorDue := true }, evSeen := t.evSeen } ∧
    RegsBut s t [Reg.EMB_RTC_LO, Reg.EMB_RTC_HI, Reg.EMB_CLK]

/-- BOOT_LOAD, IMG_VERIFY, TOKEN_CMD, PROVISION, SEAL, RETURN_PART, SVN_ADVANCE, MK_GEN, MK_LOAD, MK_CLEAR, MK_EPOCH, MK_ESCROW,
EXPORT_SIGN, EXPORT_CERT, IDENT_CERT, SEC_CMD_DONE, SEC_LOCK_WRITE, DOE_DISCOVERY, SPDM_GET_VERSION, SPDM_GET_CAPABILITIES,
SPDM_NEGOTIATE_ALGORITHMS, SPDM_GET_DIGESTS, SPDM_GET_CERTIFICATE, SPDM_CHALLENGE, SPDM_GET_MEASUREMENTS, HYBRID_MEASUREMENTS,
HYBRID_DIC_Q_CHAIN and DOE_RESPONSE_READY. -/
def Obligations.RangerPerformsItsCommands : Prop :=
  (∀ (f : Nat × Instr) (c : SecCmd) (s u : State), f ∈ [(0x04, Instr.provision), (0x05, .seal), (0x06, .returnPart), (0x07, .svnAdvance),
      (0x10, .mkGen), (0x11, .mkLoad), (0x12, .mkClear), (0x13, .mkEpoch), (0x20, .exportSign)] → s.sec.cmd = some c → c.code = f.1 →
      c.result = none → s.rangerTurn c.seq = true → s.secRead c.addr 64 = (none, u) → Gives f.2 s u c 9) ∧
  (∀ (c : SecCmd) (b l : List W8) (s u v : State), SecBlock s 0x04 c b u →
    (u.lcNow ≠ 0 → Gives .provision s u c 2) ∧
    (u.lcNow = 0 → u.secRead (blkBuf b) 240 = (some l, v) → v.sec.ckeyImg = none → v.sec.ckeyTok = none → ∃ w, Gives .provision s w c 0 ∧
      OnlySec v w [Reg.SEC_LC] ∧ w.rbit Reg.SEC_LC 6 = true ∧ w.sec.ckeyImg = some (sliceB l 0 96) ∧
      w.sec.ckeyTok = some (sliceB l 96 96) ∧ w.sec = { v.sec with ckeyImg := w.sec.ckeyImg, ckeyTok := w.sec.ckeyTok, ckeyEsc := w.sec.ckeyEsc })) ∧
  (∀ (c : SecCmd) (b : List W8) (s u : State), SecBlock s 0x05 c b u →
    ((u.lcNow ≠ 0 ∨ u.sec.prov = false) → Gives .seal s u c 2) ∧
    (u.lcNow = 0 → u.sec.prov = true → ∃ w, Gives .seal s w c 0 ∧ OnlySec u w [Reg.SEC_LC] ∧ w.sec = { u.sec with lc := 1 } ∧
      w.lcNow = 1 ∧ w.fld Reg.SEC_LC 7 9 = 0)) ∧
  (∀ (c : SecCmd) (b : List W8) (s u : State), SecBlock s 0x06 c b u →
    ((u.lcNow = 3 ∨ (u.lcNow ≠ 0 ∧ u.sec.returnOk = false)) → Gives .returnPart s u c 2) ∧
    ((u.lcNow = 0 ∨ (u.lcNow ≠ 3 ∧ u.sec.returnOk = true)) → ∃ w, Gives .returnPart s w c 0 ∧
      OnlySec u w [Reg.SEC_LC, Reg.SEC_KSLOT_LO, Reg.SEC_KSLOT_HI] ∧
      w.sec = { u.sec with custKill := true, lc := 3, exportPair := 0, slots := [] } ∧ w.lcNow = 3 ∧ w.fld Reg.SEC_LC 7 9 = 0 ∧
      w.reg64 Reg.SEC_KSLOT_LO = 0)) ∧
  (∀ (c : SecCmd) (b : List W8) (s u : State), SecBlock s 0x07 c b u →
    (((u.lcNow ≠ 1 ∧ u.lcNow ≠ 2) ∨ u.fld Reg.SEC_SVN 8 8 < blkArg0 b) → Gives .svnAdvance s u c 2) ∧
    ((u.lcNow = 1 ∨ u.lcNow = 2) → blkArg0 b ≤ u.fld Reg.SEC_SVN 8 8 → u.sec.minSvn < 256 → ∃ w, Gives .svnAdvance s w c 0 ∧
      OnlySec u w [Reg.SEC_SVN] ∧ w.sec = { u.sec with minSvn := max u.sec.minSvn (blkArg0 b) } ∧
      w.fld Reg.SEC_SVN 0 8 = max u.sec.minSvn (blkArg0 b))) ∧
  (∀ (c : SecCmd) (b : List W8) (s u : State), SecBlock s 0x10 c b u →
    (u.keysDenied = true → Gives .mkGen s u c 2) ∧
    (u.keysDenied = false → 63 < blkArg0 b → Gives .mkGen s u c 6) ∧
    (u.keysDenied = false → blkArg0 b ≤ 63 → u.inDram (blkBuf b) 80 = true → ∃ (w v : State) (k : BitVec 512), Gives .mkGen s w c 0 ∧
      OutAt v w c (blkBuf b) (u.wrapBlob k) ∧ v.mem = u.mem ∧ smFind w.sec.slots (blkArg0 b) = some k ∧
      (∀ j, j ≠ blkArg0 b → smFind w.sec.slots j = smFind u.sec.slots j) ∧ w.sec = { u.sec with slots := w.sec.slots })) ∧
  (∀ (c : SecCmd) (b l : List W8) (s u v : State), SecBlock s 0x11 c b u → u.keysDenied = false → blkArg0 b ≤ 63 →
    u.secRead (blkBuf b) 80 = (some l, v) →
    (v.unwrapBlob l = .format → Gives .mkLoad s v c 4) ∧ (v.unwrapBlob l = .badKey → Gives .mkLoad s v c 0xB) ∧
    (∀ k, v.unwrapBlob l = .key k → ∃ w, Gives .mkLoad s w c 0 ∧ OnlySec v w [Reg.SEC_KSLOT_LO, Reg.SEC_KSLOT_HI] ∧
      w.sec = { v.sec with slots := smSet v.sec.slots (blkArg0 b) k })) ∧
  (∀ (c : SecCmd) (b : List W8) (s u : State), SecBlock s 0x12 c b u →
    (63 < blkArg0 b → Gives .mkClear s u c 6) ∧
    (blkArg0 b ≤ 63 → ∃ w, Gives .mkClear s w c 0 ∧ OnlySec u w [Reg.SEC_KSLOT_LO, Reg.SEC_KSLOT_HI] ∧
      w.sec = { u.sec with slots := smDel u.sec.slots (blkArg0 b) })) ∧
  (∀ (c : SecCmd) (b : List W8) (s u : State), SecBlock s 0x13 c b u → u.lcNow ≠ 3 → u.sec.custKill = false →
    (c.stage = false → 15 ≤ u.sec.epochs.length → Gives .mkEpoch s u c 7) ∧
    (c.stage = true ∨ u.sec.epochs.length < 15 →
      let salted := fun (w : State) => if c.stage then w.sec.epochs = u.sec.epochs else ∃ x, w.sec.epochs = u.sec.epochs ++ [x]
      ((∃ e ∈ u.dch, e.2.key ≠ none) → ∃ w : State, exec .mkEpoch s = .next w.settle ∧ salted w ∧
        w.sec = { u.sec with epochs := w.sec.epochs, cmd := some { c with stage := true } } ∧ w.mem = u.mem ∧ w.regs = u.regs) ∧
      ((∀ e ∈ u.dch, e.2.key = none) → ∃ w : State, Gives .mkEpoch s w c 0 ∧ salted w ∧
        w.sec = { u.sec with epochs := w.sec.epochs, slots := [] } ∧ w.reg64 Reg.SEC_KSLOT_LO = 0 ∧ w.mem = u.mem))) ∧
  (∀ (seed : BitVec 384) (c : SecCmd) (b l : List W8) (k : BitVec 512) (s u v : State), SecBlock s 0x14 c b u →
    ((u.keysDenied = true ∨ u.sec.ckeyEsc = none) → Gives (.mkEscrow seed) s u c 2) ∧
    (u.keysDenied = false → u.sec.ckeyEsc ≠ none → u.secRead (blkBuf b) (max 80 (leAt b 8 4)) = (some l, v) →
      v.unwrapBlob (l.take 80) = .key k →
      (v.sec.ckeyEsc ≠ some (sha384 (l.drop 80)) → Gives (.mkEscrow seed) s v c 0xB) ∧
      (v.sec.ckeyEsc = some (sha384 (l.drop 80)) → v.inDram (blkBuf b) 384 = true → ∃ w : State,
        Gives (.mkEscrow seed) s w c 0 ∧ OutAt v w c (blkBuf b) (beBytes 384 (Config.rsaOaep k (l.drop 80) seed).toNat) ∧ w.sec = v.sec))) ∧
  (∀ (c : SecCmd) (b : List W8) (s u : State), SecBlock s 0x20 c b u →
    (u.exportOk = false → Gives .exportSign s u c 2) ∧
    (∀ l v, u.exportOk = true → u.secRead (blkBuf b) 128 = (some l, v) → v.inDram (blkBuf b) 16608 = true →
      ∃ (w v' : State) (o : List W8), Gives .exportSign s w c 0 ∧ o.length = 16608 ∧ v'.mem = v.mem ∧ OutAt v' w c (blkBuf b) o ∧ w.sec = v.sec)) ∧
  (∀ (c : SecCmd) (b x y : List W8) (s u : State) (f : Nat × Instr), f ∈ [(0x21, Instr.exportCert x y), (0x22, .identCert x y)] →
    SecBlock s f.1 c b u → (f.1 = 0x21 → u.exportOk = true) →
    (u.inDram (blkBuf b) (8 + x.length + y.length) = false → Gives f.2 s u c 9) ∧
    (u.inDram (blkBuf b) (8 + x.length + y.length) = true → ∃ w, Gives f.2 s w c 0 ∧ w.sec = u.sec ∧
      OutAt u w c (blkBuf b) (leBytes 4 x.length ++ x ++ leBytes 4 y.length ++ y))) ∧
  (∀ (c : SecCmd) (b a : List W8) (sg : Sigs) (s u v : State), SecBlock s 0x02 c b u → u.secRead (blkBuf b) 65536 = (some a, v) →
    let h := sliceB a 0 800
    let check := v.headCheck h (sliceB a 17408 (48 * min (hdrNblk h) 256)) sg
    (∀ e, check = some e → Gives (.imgVerify sg) s v c e) ∧
    (check = none → blkArg0 b = 1 → Gives (.imgVerify sg) s v c 0) ∧
    (check = none → blkArg0 b ≠ 1 → leAt b 8 4 ≠ 65536 * (hdrNblk h + 1) → Gives (.imgVerify sg) s v c 4)) ∧
  (∀ (c : SecCmd) (b k : List W8) (sg : Sigs) (s u v : State), SecBlock s 0x03 c b u → u.secRead (blkBuf b) 16672 = (some k, v) →
    let refused := fun (r : Nat) => ∃ w, Gives (.tokenCmd sg) s w c r ∧ w.sec = { v.sec with refused := v.sec.refused + 1 } ∧
      w.rbit Reg.SEC_STATUS 2 = true ∧ RegsBut v w (Reg.SEC_STATUS :: (List.range 8).map Reg.SEC_NONCE) ∧ w.mem = v.mem
    let perm := leAt k 48 4
    let cust := leAt k 6 1 = 1
    (3 ≤ v.sec.refused → refused 0xA) ∧
    (v.sec.refused < 3 → tokenLayout k = false → refused 4) ∧
    (v.sec.refused < 3 → tokenLayout k = true → v.tokenIssuerOk (leAt k 6 1 == 1) = true →
      ((sg.rsa = false ∨ sg.slh = false ∨ v.tokenKeys k = false ∨ v.tokenFits k = false) → refused 3) ∧
      (sg.rsa = true → sg.slh = true → v.tokenKeys k = true → v.tokenFits k = true →
        (perm &&& v.tokenMax (leAt k 6 1 == 1) ≠ perm → refused 2) ∧
        (perm &&& v.tokenMax (leAt k 6 1 == 1) = perm → ∃ w, Gives (.tokenCmd sg) s w c 0 ∧
          w.fld Reg.SEC_LC 8 8 = (if v.lcNow = 0 then perm ||| 0x0F else perm) ∧ (w.rbit Reg.SEC_LC 7 = true ↔ cust) ∧
          w.lcNow = (if v.lcNow = 1 then 2 else v.lcNow) ∧ w.rbit Reg.SEC_STATUS 1 = true ∧
          ((¬ cust → v.lcNow ≠ 0 → v.lcNow ≠ 3 → perm &&& 6 ≠ 0 → w.sec.noCust = true ∧ w.sec.slots = []) ∧
            ((cust ∨ perm &&& 6 = 0) → w.sec.slots = v.sec.slots ∧ w.sec.noCust = v.sec.noCust)) ∧
          RegsBut v w [Reg.SEC_LC, Reg.SEC_STATUS, Reg.SEC_KSLOT_LO, Reg.SEC_KSLOT_HI] ∧ w.mem = v.mem)))) ∧
  (∀ (c : SecCmd) (b : List W8) (x : BootIn) (sg : Sigs) (more : List Sigs) (s u : State), SecBlock s 0x01 c b u → u.sec.uartBoot = false →
    u.fld Reg.SYS_STRAP 0 2 = 1 → x.sigs = sg :: more →
    let h := sliceB x.nand 0 800
    let tb := sliceB x.nand 17408 (48 * min (hdrNblk h) 256)
    (∀ e, u.headCheck h tb sg = some e → e ≠ 0 → x.uart = [] → Gives (.bootLoad x) s { u with sec := { u.sec with uartBoot := true } } c e) ∧
    (u.headCheck h tb sg = none → (∀ j, j < hdrNblk h → sha384 (sliceB x.nand (65536 * (j + 1)) 65536) = tableDigest tb j) →
      ∃ w, Gives (.bootLoad x) s w c 0 ∧ w.fld Reg.SEC_SVN 8 8 = hdrSvn h ∧ w.sec.hdrHash = sha384 h ∧ w.sec.entry = hdrEntry h ∧
        w.fw.load = hdrLoad h ∧ w.fw.nblk = hdrNblk h ∧ w.fw.imgVer = hdrVer h ∧ w.fw.confirmed = false ∧ w.fw.nor = u.fw.nor)) ∧
  (∀ (c : SecCmd) (s : State), s.sec.cmd = some c →
    (c.result = none → ∃ t, exec .secCmdDone s = .next t ∧ Same s t) ∧
    (∀ r, c.result = some r → r < 256 → ∃ t, exec .secCmdDone s = .next t ∧ t.fld Reg.SEC_CMD 24 8 = r ∧ t.rbit Reg.SEC_CMD 8 = false ∧
      t.rbit Reg.SEC_STATUS 0 = true ∧ t = { s with regs := t.regs, sec := { s.sec with cmd := none }, evSeen := t.evSeen } ∧
      RegsBut s t [Reg.SEC_CMD, Reg.SEC_STATUS])) ∧
  (∀ (v : W32) (s : State), ∃ t, exec (.secLockWrite v) s = .next t ∧ t.reg Reg.SEC_LOCK = s.reg Reg.SEC_LOCK ||| (v &&& 0xF) ∧
    OnlyRegs s t [Reg.SEC_LOCK]) ∧
  (∀ (n : HPort) (o : List W32) (rest : List (Nat × List W32)) (chain : List W8) (s : State), let p := doePayload o
    (DoeAsks s n 1 0 o rest → 4 ≤ p.length → DoeAnswers (.doeDiscovery n) s n 1 0 rest
      (if leAt p 0 1 = 0 then [1, 0, 0, 1] else if leAt p 0 1 = 1 then [1, 0, 1, 2] else if leAt p 0 1 = 2 then [0xF7, 0x1C, 1, 0]
        else [0xFF, 0xFF, 0, 0])) ∧
    (DoeAsks s n 1 1 o rest →
      (isSpdm 0x84 p = true → DoeAnswers (.spdmGetVersion n) s n 1 1 rest [0x10, 0x04, 0, 0, 0, 1, 0, 0x12]) ∧
      (isSpdm 0xE1 p = true → ∃ q, DoeAnswers (.spdmGetCapabilities n) s n 1 1 rest q ∧ q.take 2 = [0x12, 0x61] ∧ leAt q 8 4 = 0x16) ∧
      (isSpdm 0xE3 p = true → DoeAnswers (.spdmNegotiateAlgorithms n) s n 1 1 rest spdmAlgs) ∧
      (isSpdm 0x81 p = true → DoeAnswers (.spdmGetDigests n chain) s n 1 1 rest ([0x12, 0x01, 0, 1] ++ sha384 chain)) ∧
      (isSpdm 0x82 p = true → DoeAnswers (.spdmGetCertificate n chain) s n 1 1 rest (spdmCert p chain)) ∧
      (isSpdm 0x83 p = true → ∃ q, DoeAnswers (.spdmChallenge n chain) s n 1 1 rest q ∧
        (leAt p 2 1 = 0 → ∃ r, q = [0x12, 0x03, 0, 1] ++ sha384 chain ++ r)) ∧
      (isSpdm 0xE0 p = true → ∃ q, DoeAnswers (.spdmGetMeasurements n) s n 1 1 rest q ∧
        (leAt p 3 1 = 0xFF → q.take 2 = [0x12, 0x60] ∧ leAt q 4 1 = 6))) ∧
    (DoeAsks s n 0x1CF7 1 o rest →
      (isHybrid 0 p = true → ∃ q, DoeAnswers (.hybridMeasurements n) s n 0x1CF7 1 rest q ∧ q.take 4 = [0x47, 0x58, 0x48, 0x53] ∧
        leAt q 8 8 = Config.serial.toNat ∧ sliceB q 16 32 = sliceB p 8 32 ∧ (s.rbit Reg.SEC_STATUS 3 = true → q.length = 48 ∧ leAt q 7 1 = 0xFF)) ∧
      (isHybrid 1 p = true → DoeAnswers (.hybridDicQChain n chain) s n 0x1CF7 1 rest chain)) ∧
    (s.portLive n = true → (s.doe n).prep ≠ [] → (s.doe n).resp = [] → ∃ t, exec (.doeResponseReady n) s = .next t ∧
      PortOnly s t n [] [] ∧ t.hp n = { s.hp n with doe := { s.doe n with prep := [], resp := (s.doe n).prep } }))

/-- DBG_INFO, DBG_TOKEN, DBG_RD, DBG_WR, DBG_HALT, DBG_RUN, DBG_STEP, DBG_GETREG, DBG_SETREG, DBG_LOG, TAP_RESET and
TAP_INSTRUCTION_UPDATE. -/
def Obligations.DebugFramesNeedTheirRights : Prop :=
  (∀ (tok : List W8) (sg : Sigs) (a : BitVec 48) (w : Width) (v : W64) (p : Thr) (r : DbgReg) (s : State) (f : Option Nat × (Bool → Instr)),
    f ∈ [(none, Instr.dbgInfo), (none, fun ok => .dbgToken ok tok sg), (some 1, fun ok => .dbgRd ok a w), (some 1, fun ok => .dbgWr ok a w v),
      (some 2, fun ok => .dbgHalt ok p), (some 2, fun ok => .dbgRun ok p), (some 2, fun ok => .dbgStep ok p),
      (some 2, fun ok => .dbgGetreg ok p r), (some 2, fun ok => .dbgSetreg ok p r v), (some 0, .dbgLog)] →
    (3 ≤ s.pwr.st → ∀ ok, ∃ t, exec (f.2 ok) s = .next t ∧ Same s t) ∧
    (s.pwr.st < 3 → DbgAnswers (f.2 false) s s 4 []) ∧
    (∀ k, f.1 = some k → s.pwr.st < 3 → s.rightsNow.testBit k = false → DbgAnswers (f.2 true) s s 1 [])) ∧
  (∀ s : State, s.pwr.st < 3 →
    let act := { s with regs := (s.orReg Reg.SEC_STATUS 0x10).regs }
    DbgAnswers (.dbgInfo true) s s 0 (leBytes 1 s.lcNow ++ leBytes 1 s.rightsNow ++ leBytes 8 Config.serial.toNat ++
      ((List.range 8).map fun i => leBytes 4 (s.reg (Reg.SEC_NONCE i)).toNat).flatten) ∧
    (∀ (tok : List W8) (sg : Sigs), let r := act.tokenTry (padTo 16672 tok) sg
      DbgAnswers (.dbgToken true tok sg) s r.2 (if r.1 = 0 then 0 else 1) [] ∧
        (3 ≤ s.sec.refused → r.1 = 0xA ∧ r.2.sec = { s.sec with refused := s.sec.refused + 1 })) ∧
    (s.rightsNow.testBit 0 = true → DbgAnswers (.dbgLog true) s act 0 (s.sramBytes ringBase ringSize ++ s.sramBytes lwBase 0x800)) ∧
    (s.rightsNow.testBit 1 = true → ∀ (a : BitVec 48) (w : Width) (v : W64), let n := widthBytes w
      (∀ st, s.dbgCheck a n = some st → DbgAnswers (.dbgRd true a w) s s st [] ∧ DbgAnswers (.dbgWr true a w v) s s st []) ∧
      (s.dbgCheck a n = none →
        (∀ d, (s.resolve (a.setWidth 64) = .dram d ∨ s.resolve (a.setWidth 64) = .sram d) →
          let at' := (s.resolve (a.setWidth 64)).localAddr
          let m := act.memRead at' n
          (m.2.1 = false → DbgAnswers (.dbgRd true a w) s m.2.2 0 m.1) ∧ (m.2.1 = true → DbgAnswers (.dbgRd true a w) s m.2.2 3 []) ∧
          ((∀ x, s.resolve (a.setWidth 64) = .sram x → sramStoreIgnored x = false) →
            DbgAnswers (.dbgWr true a w v) s (act.memWrite at' (leBytes n v.toNat)) 0 [])) ∧
        (∀ q o, s.resolve (a.setWidth 64) = .casc q o →
          let r := act.cscIssue q 2 o n [] (.dbg true)
          let x := act.cscIssue q 1 o n (leBytes n v.toNat) (.dbg false)
          (r.1 ≠ none → exec (.dbgRd true a w) s = .next r.2.settle) ∧ (r.1 = none → DbgAnswers (.dbgRd true a w) s r.2 3 []) ∧
          DbgAnswers (.dbgWr true a w v) s x.2 (if x.1 = none then 3 else 0) []) ∧
        (∀ o, s.resolve (a.setWidth 64) = .reg o →
          DbgAnswers (.dbgRd true a w) s (act.regLoad .debug o n).2 0 (leBytes n (act.regLoad .debug o n).1) ∧
          DbgAnswers (.dbgWr true a w v) s (act.regStore .debug o (leBytes n v.toNat)) 0 []))) ∧
    (s.rightsNow.testBit 2 = true → ∀ p : Thr,
      let th := fun (x : Thread) => act.setThr p x
      DbgAnswers (.dbgHalt true p) s (th { s.thr p with dbg := true }) 0 [] ∧
      DbgAnswers (.dbgRun true p) s (th { s.thr p with dbg := false, step := false }) 0 [] ∧
      (s.pwr.st = 2 → ∀ (r : DbgReg) (v : W64), ∀ i ∈ [Instr.dbgStep true p, .dbgGetreg true p r, .dbgSetreg true p r v], DbgAnswers i s s 2 []) ∧
      (s.pwr.st ≠ 2 → (s.thr p).dbg = false → ∀ (r : DbgReg) (v : W64),
        ∀ i ∈ [Instr.dbgStep true p, .dbgGetreg true p r, .dbgSetreg true p r v], DbgAnswers i s s 3 []) ∧
      (s.pwr.st ≠ 2 → (s.thr p).dbg = true → ∀ v : W64,
        DbgAnswers (.dbgStep true p) s (th { s.thr p with step := true }) 0 [] ∧
        (∀ g : R5, DbgAnswers (.dbgGetreg true p (.gen g)) s act 0 (leBytes 8 ((s.thr p).getG g.toNat).toNat) ∧
          ∃ t, exec (.dbgSetreg true p (.gen g) v) s = .next t ∧ t.out = s.out ++ [.dbg 0 []] ∧
            (t.thr p).getG g.toNat = (if g = 0 then 0 else v) ∧ (∀ j : R5, j ≠ g → (t.thr p).getG j.toNat = (s.thr p).getG j.toNat) ∧
            (∀ q, q ≠ p.val → t.thr q = s.thr q)) ∧
        (∀ n, DbgAnswers (.dbgGetreg true p (.pred n)) s act 0 (leBytes 8 (b2n ((s.thr p).getP n.toNat))) ∧
          DbgAnswers (.dbgSetreg true p (.pred n) v) s (th ((s.thr p).setP n.toNat (v.getLsbD 0))) 0 []) ∧
        (∀ n, (srPriv n.toNat ≠ none → DbgAnswers (.dbgGetreg true p (.special n)) s act 0 (leBytes 8 (act.srRead p n.toNat).toNat)) ∧
          (srPriv n.toNat = none → DbgAnswers (.dbgGetreg true p (.special n)) s act 3 []) ∧
          (srPriv n.toNat = some true → DbgAnswers (.dbgSetreg true p (.special n) v) s (th ((s.thr p).srWrite n.toNat v)) 0 []))))) ∧
  (∀ s : State, ∃ t, exec .tapReset s = .next t ∧ t = { s with sec := { s.sec with tap := .idcode }, evSeen := t.evSeen }) ∧
  ∀ (i : TapIns) (s : State), s.pwr.st < 3 →
    ((s.rightsNow.testBit 3 = true ∨ i ∉ [.extest, .clamp, .highz]) → ∃ t, exec (.tapInstructionUpdate i) s = .next t ∧
      t = { s with sec := { s.sec with tap := i }, evSeen := t.evSeen }) ∧
    (s.rightsNow.testBit 3 = false → i ∈ [TapIns.extest, .clamp, .highz] → ∃ t, exec (.tapInstructionUpdate i) s = .next t ∧
      t = { s with sec := { s.sec with tap := .bypass }, evSeen := t.evSeen })

/-- GET_LOG_PAGE, FIRMWARE_IMAGE_DOWNLOAD, FW_COMMIT_CA0, FW_COMMIT_CA1, FW_COMMIT_CA2, FW_COMMIT_CA3, RELAY_UNIT_CHECK,
RELAY_ACK, BOOT_RELAY_REQUEST, BOOT_RELAY_TIMEOUT, HANDOVER_ACTIVATE, HANDOVER_READY, HANDOVER_TIMEOUT and BOOT_CONFIRM. -/
def Obligations.FirmwareIsDownloadedCommittedAndHandedOver : Prop :=
  (∀ (g : Tag) (x : CmdIn) (c : NCmd) (s : State), Asked s g c 0x02 →
    let lid := c.dw 10 % 256
    (lid ∉ [1, 2, 3, 4, 5, 0x81] → Fails (.getLogPage g x) s s c (0, 0x02, 1) 0 0 40) ∧
    (∀ f ∈ [(1, 0, [(0, padTo 4096 (s.ctl c.ctrl).errlog.flatten)]), (2, 1, [(0, leBytes 1 s.smartWarning)]),
        (3, 2, [(0, leBytes 1 s.afi), (8, s.frs 1), (16, s.frs 2), (24, s.frs 3)]), (4, 2, []), (5, 2, []), (0x81, 2, [(0, leBytes 2 s.sprog)])],
      lid = f.1 → x.err = 0 → s.busMaster c.ctrl = true →
      ∃ v : State, exec (.getLogPage g x) s = .next ((v.complete c.tag 0 0 0).flushEvents c.ctrl 8).settle ∧
        v.out = s.out ++ [.cmdFields c.ctrl c.tag f.2.2] ∧ v = { s with out := v.out, nvq := v.nvq } ∧ v.nvq.cmds = s.nvq.cmds ∧
        (∀ e, e ∈ (v.ctl c.ctrl).muted ↔ e ∈ (s.ctl c.ctrl).muted ∧ ((c.dw 10).testBit 15 = true ∨ e ≠ f.2.1)))) ∧
  (∀ (g : Tag) (x : CmdIn) (c : NCmd) (s : State), Asked s g c 0x11 →
    let len := 4 * (c.dw 10 + 1)
    let off := 4 * c.dw 11
    let i := Instr.firmwareImageDownload g x
    (s.fw.commit ≠ none → ∃ t, exec i s = .next t ∧ Same s t) ∧
    (s.fw.commit = none → (len % 65536 ≠ 0 ∨ off % 65536 ≠ 0) →
      Fails i s s c (0, 0x02, 1) 0 0 (if len % 65536 ≠ 0 then 40 else 44)) ∧
    (s.fw.commit = none → len % 65536 = 0 → off % 65536 = 0 →
      let inP := fun u => off / 65536 ≤ u ∧ u < off / 65536 + len / 65536
      ((∃ u, inP u ∧ (257 ≤ u ∨ smFind s.fw.img u ≠ none)) → Fails i s s c (1, 0x14, 1) 0 0) ∧
      ((∀ u, inP u → u < 257 ∧ smFind s.fw.img u = none) → x.err = 0 → s.busMaster c.ctrl = true →
        ∃ w, Ends i s w c 0 0 ∧ w = { s with fw := { s.fw with img := w.fw.img } } ∧ ∀ u,
          (inP u → smFind w.fw.img u = some (sliceB x.data (65536 * (u - off / 65536)) 65536)) ∧
          (¬ inP u → smFind w.fw.img u = smFind s.fw.img u)))) ∧
  (∀ (g : Tag) (x : CommitIn) (c : NCmd) (s : State) (f : Nat × Instr),
    f ∈ [(0, Instr.fwCommitCa0 g x), (1, .fwCommitCa1 g x), (3, .fwCommitCa3 g x)] → Asked s g c 0x10 → natF (c.dw 10) 3 3 = f.1 →
    s.fw.handover = none → (∀ k, s.fw.commit = some k → k.tag = c.tag) →
    let fs := natF (c.dw 10) 0 3
    let slot := s.commitSlot fs
    let h := s.imgAt 0 800
    let used := { s with fw := { s.fw with img := [], commit := none, relays := [] } }
    (s.inBiv = true → Fails f.2 s s c (2, 0x80, 1) 0 0) ∧
    (s.inBiv = false → (fs = 1 ∨ 3 < fs) → Fails f.2 s s c (1, 0x06, 1) 0 0) ∧
    (s.inBiv = false → fs ≠ 1 → fs ≤ 3 →
      (s.imgGood x.sg = false → Fails f.2 s used c (1, 0x07, 1) 0 0) ∧
      (s.imgGood x.sg = true → (hdrRecMin h > s.fw.inForce ∨ s.fw.inForce > hdrRecVer h ∨ s.partGone = true) →
        Fails f.2 s used c (1, 0x13, 1) 0 0) ∧
      (s.imgGood x.sg = true → hdrRecMin h ≤ s.fw.inForce → s.fw.inForce ≤ hdrRecVer h → s.partGone = false →
        (s.relayTargets ≠ [] → s.fw.commit = none → ∃ t, exec f.2 s = .next t ∧ t.fw.commit = some ⟨c.tag, f.1, slot⟩ ∧
          t.fw.img = s.fw.img ∧ (∀ n, (smFind t.fw.relays n = if n ∈ s.relayTargets then some ⟨0, 0, 0⟩ else none)) ∧
          t = { s with fw := t.fw, csc := t.csc, out := t.out, fresh := t.fresh, evSeen := t.evSeen }) ∧
        (s.relayTargets ≠ [] → s.fw.commit ≠ none → (∃ r ∈ s.fw.relays, r.2.st = 2) → Fails f.2 s used c (1, 0x13, 1) 0 0) ∧
        (s.relayTargets = [] → x.others = false → Fails f.2 s used c (1, 0x07, 1) 0 0) ∧
        (s.relayTargets = [] → x.others = true → x.written = false → Fails f.2 s used c (0, 0x06, 0) 0 0) ∧
        (s.relayTargets = [] → x.others = true → x.written = true → s.ringN < 2 → s.pos = 0 →
          let size := 65536 * (hdrNblk h + 1)
          let holds := fun (u : State) => ∀ i, i < size → u.norRead (norSlot slot + i) 1 = s.imgAt i 1
          let record := fun (u : State) => (∀ r k, s.bootRec = some (r, k) → r.seq + 1 < 2 ^ 64 → ∃ q m, u.bootRec = some (q, m) ∧ q.active = slot ∧
            q.prev = r.active ∧ q.st = 1 ∧ q.tries = 3)
          (f.1 = 0 → ∃ u, Ends f.2 s u c 0 0 ∧ holds u ∧ u = { used with fw := { used.fw with nor := u.fw.nor } } ∧
            ∀ a, (a < norSlot slot ∨ norSlot slot + size ≤ a) → u.norRead a 1 = s.norRead a 1) ∧
          (f.1 = 1 → ∃ u, Ends f.2 s u c 0 0 ∧ holds u ∧ record u ∧ u = { used with fw := { used.fw with nor := u.fw.nor, resetDue := true } }) ∧
          (f.1 = 3 → (x.ready = false ∨ s.handoverOk h = false) → ∃ u, Fails f.2 s u c (1, 0x0B, 1) 0 0 ∧ holds u ∧ record u ∧
            u = { used with fw := { used.fw with nor := u.fw.nor, resetDue := true } }) ∧
          (f.1 = 3 → x.ready = true → s.handoverOk h = true → ∃ t, exec f.2 s = .next t ∧ holds t ∧ record t ∧
            t.fw = { used.fw with nor := t.fw.nor, commit := some ⟨c.tag, 3, slot⟩, handover := some [], handed := false } ∧ t.rbit Reg.NVQ_CTRL 0 = false ∧
            t.mem = (s.loadImage h).mem ∧ t.nvq.cmds = s.nvq.cmds))))) ∧
  (∀ (g : Tag) (c : NCmd) (s : State), Asked s g c 0x10 → natF (c.dw 10) 3 3 = 2 →
    let fs := natF (c.dw 10) 0 3
    let slot := s.commitSlot fs
    let h := s.norRead (norSlot slot) 800
    (3 < fs → Fails (.fwCommitCa2 g) s s c (1, 0x06, 1) 0 0) ∧
    (fs ≤ 3 → leAt h 0 4 ≠ 0x57465847 → Fails (.fwCommitCa2 g) s s c (1, 0x07, 1) 0 0) ∧
    (fs ≤ 3 → leAt h 0 4 = 0x57465847 → s.recFits h = false → Fails (.fwCommitCa2 g) s s c (1, 0x13, 1) 0 0) ∧
    (fs ≤ 3 → leAt h 0 4 = 0x57465847 → s.recFits h = true → ∃ u, Ends (.fwCommitCa2 g) s u c 0 0 ∧
      u = { s with fw := { s.fw with nor := u.fw.nor, resetDue := true }, csc := u.csc, out := u.out, fresh := u.fresh } ∧
      (s.ringN < 2 → s.pos = 0 → u.csc = s.csc ∧ u.out = s.out) ∧
      (∀ r k, s.bootRec = some (r, k) → r.seq + 1 < 2 ^ 64 → ∃ q m, u.bootRec = some (q, m) ∧ q.active = slot ∧ q.prev = r.active ∧
        q.st = 1 ∧ q.tries = 3 ∧ q.seq = r.seq + 1 ∧ m = 1 - k))) ∧
  (∀ (src : Fin 4) (u : Fin 257) (sg : Sigs) (order : Option (Fin 4 × Fin 4)) (s : State),
    let i := Instr.relayUnitCheck src u sg order
    let told := s.relayMsg src.val
    ((s.isBase = true ∨ s.fld Reg.CSC_RLY_SIZE 0 9 = 0) → ∃ t, exec i s = .next t ∧ Same s t) ∧
    (s.isBase = false → s.fld Reg.CSC_RLY_SIZE 0 9 ≠ 0 →
      (s.unitPasses u.val sg = false → exec i s = .next told.settle) ∧
      (s.unitPasses u.val sg = true → s.sec.relayBoot = some u.val → ∃ t, exec i s = .next t ∧
        t = { told with sec := { s.sec with relayBoot := some (u.val + 1) }, evSeen := t.evSeen }) ∧
      (s.unitPasses u.val sg = true → s.sec.relayBoot = none → u.val = s.fw.unitsOk → 0 < u.val → s.relayNext src.val = none →
        (u.val + 1 = s.relayUnits → order = none) → ∃ t, exec i s = .next t ∧
        t = { told with fw := { s.fw with unitsOk := u.val + 1 }, evSeen := t.evSeen }))) ∧
  (∀ (n : Fin 4) (ok w : Bool) (r : Relay) (s : State), smFind s.fw.relays n.val = some r →
    (r.st ≠ 0 → ∃ t, exec (.relayAck n ok w) s = .next t ∧ Same s t) ∧
    (r.st = 0 → (s.isBase = false ∨ s.fw.commit ≠ none) →
      let put := fun (q : Relay) => { s with fw := { s.fw with relays := smSet s.fw.relays n.val q } }
      (3 ≤ r.fails + 1 → exec (.relayAck n false w) s = .next (put ⟨r.unit, r.fails + 1, 2⟩).settle) ∧
      (r.fails + 1 < 3 → exec (.relayAck n false w) s = .next ((put ⟨r.unit, r.fails + 1, 0⟩).sendUnit n.val r.unit).settle) ∧
      (r.unit + 1 = s.relayUnits → exec (.relayAck n true w) s = .next (put ⟨r.unit + 1, 0, 1⟩).settle) ∧
      (r.unit + 1 ≠ s.relayUnits → r.unit + 1 < s.unitsReady →
        exec (.relayAck n true w) s = .next ((put ⟨r.unit + 1, 0, 0⟩).sendUnit n.val (r.unit + 1)).settle)) ∧
    (r.st = 0 → s.isBase = true → s.fw.commit = none → r.unit + 1 = s.relayUnits → ∃ t, exec (.relayAck n true false) s = .next t ∧
      smFind t.fw.relays n.val = none ∧ t = { s with fw := { s.fw with relays := t.fw.relays }, evSeen := t.evSeen })) ∧
  (∀ s : State,
    let asks := s.sec.relayBoot = some 0 ∧ s.posValid = true ∧ s.reg Reg.CSC_RLY_CNT = 0
    (asks → exec .bootRelayRequest s = .next (s.relayMsg 0).settle ∧ ∃ t, exec .bootRelayTimeout s = .next t ∧
      t = { s with sec := { s.sec with relayBoot := none, uartBoot := true }, evSeen := t.evSeen }) ∧
    (¬ asks → ∀ i ∈ [Instr.bootRelayRequest, .bootRelayTimeout], ∃ t, exec i s = .next t ∧ Same s t)) ∧
  (∀ (p : Thr) (a : W64) (l : List W8) (s : State),
    let h := s.norRead (norSlot ((s.bootRec.map (·.1.active)).getD 1)) 800
    ((s.runBit p.val = false ∨ (s.isBase = true ∧ s.fw.handover = none)) → ∃ t, exec (.handoverActivate p a l) s = .next t ∧ Same s t) ∧
    (s.runBit p.val = true → (s.isBase = true → s.fw.handover ≠ none) → ∃ t, exec (.handoverActivate p a l) s = .next t ∧
      (t.thr p.val).pc = BitVec.ofNat 64 (hdrEntry h) ∧ (t.thr p.val).getG 1 = a ∧ t.runBit p.val = true ∧
      (∀ q : Thr, q ≠ p → t.runBit q.val = false ∧ t.thr q.val = s.thr q.val) ∧ t.ic = [] ∧
      t.mem = (((s.haltAll).setRunBit p.val true).memWrite a.toNat l).mem ∧
      t.fw = { s.fw with imgVer := hdrVer h, hver := hdrHver h, load := hdrLoad h, nblk := hdrNblk h, recVer := hdrRecVer h,
                         recMin := hdrRecMin h, confirmed := false, handed := true })) ∧
  (∀ (n : Fin 4) (s : State),
    (s.fw.handover = none → ∀ i ∈ [Instr.handoverReady n, .handoverTimeout], ∃ t, exec i s = .next t ∧ Same s t) ∧
    (∀ l, s.fw.handover = some l →
      let ready := if n.val ∈ l then l else l ++ [n.val]
      let all := ∀ k, k < s.ringN → k ≠ s.pos → k ∈ ready
      ((¬ all ∨ s.fw.handed = false) → ∃ t, exec (.handoverReady n) s = .next t ∧
        t = { s with fw := { s.fw with handover := some ready }, evSeen := t.evSeen }) ∧
      (s.fw.handed = false → ∃ t, exec .handoverTimeout s = .next t ∧ Same s t) ∧
      (s.fw.handed = true → ∀ i : Instr, (i = .handoverTimeout ∨ (i = .handoverReady n ∧ all)) →
        let v := (s.orReg Reg.NVQ_CTRL 1).nvqCtrlWritten
        ∃ t, exec i s = .next t ∧ t.fw.handover = none ∧ t.fw.commit = none ∧
          (∀ k, s.fw.commit = some k → t.nvq = (v.complete k.tag 0 0 0).nvq) ∧ (s.fw.commit = none → t.nvq = v.nvq) ∧
          (s.bootRec ≠ none → t.fw.confirmed = true ∧ t.fw.inForce = max s.fw.inForce s.fw.recVer)))) ∧
  ∀ s : State,
    ((s.fw.confirmed = true ∨ (s.isBase = true ∧ (s.svc.ready = false ∨ s.svc.index = false)) ∨ s.bootRec = none) → ∃ t, exec .bootConfirm s = .next t ∧ Same s t) ∧
    (∀ r k, s.fw.confirmed = false → (s.isBase = true → s.svc.ready = true ∧ s.svc.index = true) → s.bootRec = some (r, k) → ∃ t, exec .bootConfirm s = .next t ∧
      t = { s with fw := { s.fw with nor := t.fw.nor, confirmed := true, inForce := max s.fw.inForce s.fw.recVer }, evSeen := t.evSeen } ∧
      (r.seq + 1 < 2 ^ 64 → ∃ q, t.bootRec = some (q, 1 - k) ∧ q.active = r.active ∧ q.prev = r.prev ∧ q.st = 0 ∧ q.tries = 0))

/-- SB_OFFER_EAST, SB_OFFER_WEST, OFFER_FORWARD, SB_WAKE, WAKE_FORWARD, SB_WAKE_SEND, SIDEBAND_RESET, SIDEBAND_RESET_SEND, ROLL_CALL,
ROLL_CALL_WEST, ROLL_CALL_END, FLIT_LOCK, TRAINING_TIMEOUT, AUTH_COMPLETE, FLIT_RECEIVE, NAK_RECEIVED, REPLAY_TIMEOUT, PORT_DOWN,
PORT_DEGRADE, REKEY, PORT_RETRY and PORT_RESTORE. -/
def Obligations.CascadeRingIsNumberedAndLinksCarry : Prop :=
  (∀ c us : Nat, 1 ≤ c → c ≤ 8 → 10 * c ≤ us + 3 → us ≤ 10 * c + 3 → sbClass us = some (if c ≤ 4 then .east c else .west (8 - c))) ∧
  (∀ (us : Nat) (s : State), ((∀ v, sbClass us ≠ some (.east v)) → ∃ t, exec (.sbOfferEast us) s = .next t ∧ Same s t) ∧
    ((∀ v, sbClass us ≠ some (.west v)) → ∃ t, exec (.sbOfferWest us) s = .next t ∧ Same s t)) ∧
  (∀ (w : Bool) (v us : Nat) (i : Instr) (s : State),
    (i = .sbOfferEast us ∧ sbClass us = some (.east v) ∧ w = false ∨ i = .sbOfferWest us ∧ sbClass us = some (.west v) ∧ w = true) →
    let nx := if w then v - 1 else v + 1
    let rest := ∀ z : ZPort, if s.rbit Reg.CSC_CTRL (1 + z.val) then s.zState z ∉ [0, 6] else s.zState z ∈ [0, 5]
    let same := ∃ t, exec i s = .next t ∧ Same s t
    (v = 0 → same) ∧
    (v ≠ 0 → s.isBase = false →
      (s.posValid = true → s.pos = v → ∃ t, exec i s = .next t ∧ OnlyCsc s t [] [] ∧
        t.csc = { s.csc with offers := s.csc.offers ++ [(w, nx)] }) ∧
      (s.posValid = true → s.pos ≠ v → ∃ t, exec i s = .next t ∧ OnlyRegs s t [Reg.CSC_STATUS] ∧ t.rbit Reg.CSC_STATUS 2 = true) ∧
      (s.posValid = false → v ≤ 3 → ∃ t, exec i s = .next t ∧ OnlyCsc s t [] [Reg.SYS_ROLE] ∧ t.pos = v ∧ t.posValid = true ∧
        t.csc = { s.csc with offers := s.csc.offers ++ [(w, nx)] }) ∧
      (s.posValid = false → v = 4 → same)) ∧
    (v ≠ 0 → s.isBase = true →
      ((w = true ∨ s.csc.rollCall = false) → same) ∧
      (w = false → s.csc.rollCall = true → ∃ t, exec i s = .next t ∧ t.ringN = v ∧ t.rbit Reg.CSC_RING 8 = true ∧
        t.csc.rcClosed = true ∧ (s.fld Reg.CSC_RING 0 4 ≠ v → t.rbit Reg.CSC_STATUS 1 = true) ∧
        (∀ z : ZPort, s.zState z = 0 → s.rbit Reg.CSC_CTRL (1 + z.val) = true → 1 < v → t.zState z = 1) ∧
        (rest → OnlyCsc s t [] [Reg.CSC_RING, Reg.CSC_STATUS] ∧ t.csc = { s.csc with rcClosed := true } ∧
          t.reg Reg.CSC_STATUS = s.reg Reg.CSC_STATUS ||| (if s.fld Reg.CSC_RING 0 4 = v then 0 else 2))))) ∧
  (∀ s : State,
    (s.csc.offers = [] → ∃ t, exec .offerForward s = .next t ∧ Same s t) ∧
    (∀ w v rest, s.csc.offers = (w, v) :: rest → ∃ t, exec .offerForward s = .next t ∧
      OnlyCsc s t [.sideband w (if w then 10 * (8 - v) else 10 * v)] [] ∧ t.csc = { s.csc with offers := rest }) ∧
    (s.csc.wakeFwd = none → ∃ t, exec .wakeForward s = .next t ∧ Same s t) ∧
    (∀ w, s.csc.wakeFwd = some w →
      ((∃ a, s.csc.wakeAt = some a ∧ s.now - a < 50000) → ∃ t, exec .wakeForward s = .next t ∧ OnlyCsc s t [] [] ∧
        t.csc = { s.csc with wakeFwd := none }) ∧
      ((∀ a, s.csc.wakeAt = some a → 50000 ≤ s.now - a) → ∃ t, exec .wakeForward s = .next t ∧ OnlyCsc s t [.sideband w 200] [] ∧
        t.csc = { s.csc with wakeFwd := none, wakeAt := some s.now })) ∧
    (∀ (z : ZPort) (us : Nat),
      (180 ≤ us → us ≤ 220 → s.isBase = true → exec (.sbWake ⟨z, us⟩) s = .next ((s.wakeBy (2 + z.val)).kindle).settle) ∧
      (180 ≤ us → us ≤ 220 → s.isBase = false → exec (.sbWake ⟨z, us⟩) s =
        .next (({ s with csc := { s.csc with wakeFwd := some (z == 0) } }.wakeBy (2 + z.val)).kindle).settle) ∧
      ((us < 180 ∨ 220 < us) → ∃ t, exec (.sbWake ⟨z, us⟩) s = .next t ∧ Same s t) ∧
      (2000 ≤ us → s.rbit Reg.CSC_CTRL 3 = true → exec (.sidebandReset ⟨z, us⟩) s = .next (s.resetRequest true 6 true).settle) ∧
      ((us < 2000 ∨ s.rbit Reg.CSC_CTRL 3 = false) → ∃ t, exec (.sidebandReset ⟨z, us⟩) s = .next t ∧ Same s t)) ∧
    (∀ (ag : Agent) (v : W32),
      (s.mayReg ag Reg.CSC_SB = false → ∀ i ∈ [Instr.sbWakeSend ag v, .sidebandResetSend ag v, .rollCall ag v],
        ∃ t, exec i s = .next t ∧ Same s t) ∧
      (∀ z : ZPort, s.mayReg ag (Reg.CSC_PORT_CTRL z) = false → ∀ i ∈ [Instr.portRetry ag z v, .portRestore ag z v],
        ∃ t, exec i s = .next t ∧ Same s t) ∧
      (s.mayReg ag Reg.CSC_SB = true →
        (∃ t, exec (.sbWakeSend ag v) s = .next t ∧ t.csc = s.csc ∧
          OnlyCsc s t (if v.getLsbD 1 then [.sideband false 200, .sideband true 200] else []) []) ∧
        (∃ t, exec (.sidebandResetSend ag v) s = .next t ∧ t.csc = s.csc ∧
          OnlyCsc s t ((if v.getLsbD 2 then [.sideband false 2500] else []) ++ (if v.getLsbD 3 then [.sideband true 2500] else [])) []) ∧
        (v.getLsbD 0 = false → ∃ t, exec (.rollCall ag v) s = .next t ∧ Same s t) ∧
        (v.getLsbD 0 = true → s.isBase = false → ∃ t, exec (.rollCall ag v) s = .next t ∧ OnlyRegs s t [Reg.CSC_SB] ∧ t.rbit Reg.CSC_SB 0 = false) ∧
        (v.getLsbD 0 = true → s.isBase = true → ∃ t, exec (.rollCall ag v) s = .next t ∧ OnlyCsc s t [.sideband false 10] [Reg.CSC_SB] ∧
          t.rbit Reg.CSC_SB 0 = true ∧ t.csc = { s.csc with rollCall := true, rcClosed := false }))) ∧
    (∀ due : Prop, (due ↔ s.csc.rollCall = true ∧ s.csc.rcClosed = false ∧ 1 ≤ s.fld Reg.CSC_RING 0 4 ∧ s.fld Reg.CSC_RING 0 4 ≤ 4) →
      (due → ∃ t, exec .rollCallWest s = .next t ∧ t.csc = s.csc ∧ OnlyCsc s t [.sideband true (10 * (9 - s.fld Reg.CSC_RING 0 4))] []) ∧
      (¬ due → ∃ t, exec .rollCallWest s = .next t ∧ Same s t)) ∧
    ∀ x : BitVec 4,
      (s.csc.rollCall = false → ∃ t, exec (.rollCallEnd x) s = .next t ∧ Same s t) ∧
      (s.csc.rollCall = true → ∃ u : State, exec (.rollCallEnd x) s = .next (u.relayStale x).settle ∧
        ((s.csc.rcClosed = true ∨ ∀ z : ZPort, if s.rbit Reg.CSC_CTRL (1 + z.val) then s.zState z ∉ [0, 6] else s.zState z ∈ [0, 5]) →
          OnlyCsc s u [] [Reg.CSC_RING, Reg.CSC_STATUS, Reg.CSC_SB] ∧ u.csc = { s.csc with rollCall := false }) ∧
        u.csc.rollCall = false ∧ u.rbit Reg.CSC_STATUS 0 = true ∧ u.rbit Reg.CSC_SB 0 = false ∧
        (s.csc.rcClosed = true → u.reg Reg.CSC_RING = s.reg Reg.CSC_RING) ∧
        (s.csc.rcClosed = false → u.rbit Reg.CSC_RING 8 = false ∧ u.ringN = s.fld Reg.CSC_RING 0 4))) ∧
  (∀ (z : ZPort) (a : AuthResult) (s : State),
    (s.zState z ≠ 1 → ∀ i ∈ [Instr.flitLock z, .trainingTimeout z], ∃ t, exec i s = .next t ∧ Same s t) ∧
    (s.zState z = 1 →
      (∃ t, exec (.flitLock z) s = .next t ∧ OnlyCsc s t [] [Reg.CSC_PORT_STATE z, Reg.CSC_STATUS] ∧ t.zState z = 2 ∧
        t.csc = (s.setLink z ZLink.reset).csc ∧ t.rbit Reg.CSC_STATUS (4 + z.val) = true) ∧
      (∃ t, exec (.trainingTimeout z) s = .next t ∧ OnlyCsc s t [] [] ∧ t.csc = (s.setLink z ZLink.reset).csc)) ∧
    ((s.zState z ≠ 2 ∨ s.posValid = false) → ∃ t, exec (.authComplete z a) s = .next t ∧ Same s t) ∧
    (s.zState z = 2 → s.posValid = true → s.ringN ≤ 4 →
      ∃ t, exec (.authComplete z a) s = .next t ∧ t.reg64 (Reg.CSC_PORT_PEER_LO z) = a.fingerprint.toNat ∧
        t.fld (Reg.CSC_PORT_STATE z) 5 2 = a.pos.toNat ∧ (t.rbit (Reg.CSC_PORT_STATE z) 7 = a.basecamp) ∧
        (s.isBase = true → a.basecamp = true → t.rbit Reg.CSC_STATUS 3 = true) ∧
        (s.authOk z a = true → t.zState z = 3 ∧ t.rbit (Reg.CSC_PORT_STATE z) 4 = true ∧ t.segUsable (s.segOf z) = true) ∧
        (s.authOk z a = false → t.zState z = 5 ∧ t.fld (Reg.CSC_PART_STATE ((s.wantPos z).getD a.pos.toNat)) 0 2 = 3))) ∧
  (∀ (z : ZPort) (f : Flit) (chk : FlitCheck) (s : State),
    let i := Instr.flitReceive z f chk
    let l := s.link z
    let good := if s.keyed z then chk = .good else chk ≠ .fecBad ∧ f.check = crc64 (flitBody f)
    (s.zLocked z = false → ∃ t, exec i s = .next t ∧ Same s t) ∧
    (s.zLocked z = true →
      (s.keyed z = false → chk ≠ .fecBad → f.check ≠ crc64 (flitBody f) → ∃ t, exec i s = .next t ∧ SendsUnseq s t z .nak ∧ RegsBut s t []) ∧
      (∀ n, (chk = .fecBad ∧ n = 0 ∨ chk = .tagBad ∧ s.keyed z = true ∧ n = 2) → ∃ (u t : State), exec i s = .next t ∧ u.link z = { l with bad := s.now :: l.bad } ∧
        u.out = s.out ∧ SendsUnseq u t z .nak ∧ t.fld (Reg.CSC_PORT_CNT z n) 0 32 = min (s.fld (Reg.CSC_PORT_CNT z n) 0 32 + 1) (2 ^ 32 - 1) ∧
        RegsBut s t [Reg.CSC_PORT_CNT z n]) ∧
      (good → (f.type = .data ∨ f.type = .key) → f.seq ≠ BitVec.ofNat 10 l.rxSeq → ∃ t, exec i s = .next t ∧ SendsUnseq s t z .nak ∧
        RegsBut s t []) ∧
      (good → f.type = .data → f.seq = BitVec.ofNat 10 l.rxSeq → l.sendQ = [] → ∀ ps rest,
        parsePackets (l.rxBuf ++ padTo 244 f.payload) ((l.rxBuf.length + 244) / 4 + 1) = (ps, rest) →
        (∀ p ∈ ps, 1 ≤ p.kind.toNat ∧ p.kind.toNat ≤ 9) → ∃ (u t : State), exec i s = .next t ∧ SendsUnseq u t z .idle ∧ u.out = s.out ∧
          u.link z = { ({ l with rxSeq := l.rxSeq + 1 }.acked f.ack).credited f.cclass f.ccount.toNat with
            rxBuf := rest, pktIn := l.pktIn ++ ps } ∧ RegsBut s t []) ∧
      (good → f.type = .idle → s.unseqOk z f = true → l.sendQ = [] → ∃ t, exec i s = .next t ∧ OnlyCsc s t [] [] ∧
        t.csc = (s.setLink z (({ l with idleRx := leAt f.payload 0 8 + 1 }.acked f.ack).credited f.cclass f.ccount.toNat)).csc) ∧
      (good → (f.type = .idle ∨ f.type = .nak) → s.unseqOk z f = false → ∃ t, exec i s = .next t ∧ Same s t))) ∧
  (∀ (z : ZPort) (ack : BitVec 10) (s : State),
    (s.zLocked z = false → ∀ i ∈ [Instr.nakReceived z ack, .replayTimeout z, .portDown z], ∃ t, exec i s = .next t ∧ Same s t) ∧
    (s.zLocked z = true → Resends (.nakReceived z ack) s z ((s.link z).acked ack) ∧ Resends (.replayTimeout z) s z (s.link z) ∧
      (s.csc.reqs = [] → ∃ t, exec (.portDown z) s = .next t ∧ LinkDown s t z) ∧
      (∀ (r : CscReq) (p : Thr), s.zState z = 3 → s.csc.reqs = [r] → r.kind = 4 → r.use = .msg p.val → s.segUsable (s.segOf z) = true →
        s.segOf z ∈ s.pathSegs r.dst r.west → ∃ t, exec (.portDown z) s = .next t ∧ LinkDown s t z ∧
          t.fld (Reg.CSC_MSG_SEND p) 0 2 = 3 ∧ t.csc.reqs = [] ∧ t.csc.quar = s.csc.quar ++ [r.tag]))) ∧
  (∀ (z : ZPort) (stall sending : Bool) (s : State),
    let l := s.link z
    let bad := if stall then l.sendQ ≠ [] else s.badWindow z = true
    ((s.zState z ≠ 3 ∨ ¬ bad) → ∃ t, exec (.portDegrade z stall) s = .next t ∧ Same s t) ∧
    (s.zState z = 3 → bad → s.csc.reqs = [] → ∃ t, exec (.portDegrade z stall) s = .next t ∧ t.zState z = 4 ∧
      (t.link z).sendQ = l.sendQ.filter (·.kind == 8) ∧
      (t.link z).bad = [] ∧ t.segUsable (s.segOf z) = false) ∧
    ((s.zState z ≠ 3 ∨ (if sending then l.txKeyUse < 2 ^ 32 else l.rxSeq < 2 ^ 32 * (l.rxKey + 1))) →
      ∃ t, exec (.rekey z sending) s = .next t ∧ Same s t) ∧
    (s.zState z = 3 → 2 ^ 32 ≤ l.txKeyUse → ∃ (f : Flit) (t : State), exec (.rekey z true) s = .next t ∧
      t.out = s.out ++ [.zFlit (z == 1) f] ∧ f.type = .key ∧ f.seq = BitVec.ofNat 10 l.txSeq ∧ RegsBut s t [] ∧
      (t.link z).txKey = l.txKey + 1 ∧ (t.link z).txKeyUse = 0 ∧ (t.link z).txSeq = l.txSeq + 1 ∧ (t.link z).replay = l.replay ++ [f]) ∧
    (s.zState z = 3 → 2 ^ 32 * (l.rxKey + 1) ≤ l.rxSeq → ∃ t, exec (.rekey z false) s = .next t ∧ OnlyCsc s t [] [] ∧
      t.csc = (s.setLink z { l with rxKey := l.rxKey + 1 }).csc)) ∧
  ∀ (z : ZPort) (ag : Agent) (v : W32) (s : State), s.mayReg ag (Reg.CSC_PORT_CTRL z) = true →
    ((v.getLsbD 1 = false ∨ s.zState z ≠ 5) → ∃ t, exec (.portRetry ag z v) s = .next t ∧ Same s t) ∧
    (v.getLsbD 1 = true → s.zState z = 5 → ∃ t, exec (.portRetry ag z v) s = .next t ∧ OnlyCsc s t [] [Reg.CSC_PORT_STATE z, Reg.CSC_STATUS] ∧
      t.zState z = b2n (s.rbit Reg.CSC_CTRL (1 + z.val)) ∧ t.csc = (s.setLink z ZLink.reset).csc) ∧
    ((v.getLsbD 0 = false ∨ s.zState z ≠ 4) → ∃ t, exec (.portRestore ag z v) s = .next t ∧ Same s t) ∧
    (v.getLsbD 0 = true → s.zState z = 4 → ∃ t, exec (.portRestore ag z v) s = .next t ∧ t.zState z = 3 ∧ t.segUsable (s.segOf z) = true)

/-- MWR, MRD, CPL, MSG, DBELL, RELAY, RESET, PING, LINKSTATE, CSC_REQUEST_TIMEOUT, PING_TICK, CSC_MSG_SEND, CASCADE_RESET_SEND and
CSC_TAG_QUARANTINE_END. -/
def Obligations.CascadePacketsAreServedAndRequestsEnd : Prop :=
  (∀ (z : ZPort) (pk : Packet) (s u : State) (f : Nat × Instr),
    f ∈ [(1, Instr.mwr z pk), (2, .mrd z pk), (3, .cplPkt z pk), (4, .msgPkt z pk), (5, .dbell z pk), (6, .relayPkt z pk), (7, .resetPkt z pk),
      (8, .ping z pk), (9, .linkstate z pk)] →
    ((pk.kind.toNat ≠ f.1 ∨ s.rbit Reg.CSC_CTRL 0 = false ∨ (s.zState z ≠ 3 ∧ s.zState z ≠ 4) ∨ s.mayTake z pk = false) →
      ∃ t, exec f.2 s = .next t ∧ Same s t) ∧
    (Takes s u z f.1 pk → u.malformed z pk = true →
      ∃ w, OnlyCsc u w [] [Reg.CSC_PORT_CNT z 3] ∧ w.csc = u.csc ∧
        w.fld (Reg.CSC_PORT_CNT z 3) 0 32 = min (s.fld (Reg.CSC_PORT_CNT z 3) 0 32 + 1) (2 ^ 32 - 1) ∧
        ((pk.dst.toNat = u.pos ∧ f.1 ≠ 3 ∧ f.1 ≠ 9) → Acts f.2 s (w.answer z pk 4 []) z) ∧
        ((pk.dst.toNat ≠ u.pos ∨ f.1 = 3 ∨ f.1 = 9) → Acts f.2 s w z)) ∧
    (Takes s u z f.1 pk → u.malformed z pk = false → pk.dst.toNat ≠ u.pos → f.1 ≠ 9 →
      Acts f.2 s (u.sendPkt (b2n pk.west) pk false) z)) ∧
  (∀ (z : ZPort) (pk : Packet) (s u : State),
    let src := pk.src.toNat
    let off := pk.arg.toNat
    let refused := fun (i : Instr) => ∃ w : State, OnlyCsc u w [] [Reg.CSC_PORT_CNT z 4] ∧ w.csc = u.csc ∧
      w.fld (Reg.CSC_PORT_CNT z 4) 0 32 = min (s.fld (Reg.CSC_PORT_CNT z 4) 0 32 + 1) (2 ^ 32 - 1) ∧ Acts i s (w.answer z pk 1 []) z
    (∀ kind n i, (kind = 1 ∧ n = pk.data.length ∧ i = Instr.mwr z pk ∨ kind = 2 ∧ n = pk.len.toNat ∧ i = .mrd z pk) → Meets s u z kind pk →
      ((off < 2 ^ 34 → u.dramSize < off + n → Acts i s (u.answer z pk 2 []) z) ∧
        (off < 2 ^ 34 → off + n ≤ u.dramSize → u.inWindow src off n (kind == 1) = false → refused i) ∧
        (2 ^ 34 ≤ off → (off < 0x400000000 ∨ 0x401000000 < off + n) → (off < 0x800000000 ∨ 0x800130000 < off + n) →
          Acts i s (u.answer z pk 2 []) z) ∧
        (∀ o, off = 0x800000000 + o → o + n ≤ 0x130000 → ¬ (src = 0 ∧ u.rbit Reg.CSC_INCTRL 1 = true ∧ n = 4 ∧ o % 4 = 0) → refused i) ∧
        (∀ o, off = 0x400000000 + o → o + n ≤ 0x1000000 → sramPopulated o = true → sramPopulated (o + n - 1) = true →
          (kind = 1 ∨ u.rbit Reg.CSC_INCTRL 0 = false) → refused i))) ∧
    (Meets s u z 1 pk → off < 2 ^ 34 → off + pk.data.length ≤ u.dramSize → u.inWindow src off pk.data.length true = true →
      Acts (.mwr z pk) s ((u.memWrite off pk.data).answer z pk 0 []) z) ∧
    (Meets s u z 2 pk → off < 2 ^ 34 → off + pk.len.toNat ≤ u.dramSize → u.inWindow src off pk.len.toNat false = true →
      let r := u.memRead off pk.len.toNat
      (r.2.1 = false → Acts (.mrd z pk) s (r.2.2.answer z pk 0 r.1) z) ∧ (r.2.1 = true → Acts (.mrd z pk) s (r.2.2.answer z pk 3 []) z)) ∧
    (∀ o, Meets s u z 2 pk → off = 0x400000000 + o → o + pk.len.toNat ≤ 0x1000000 → sramPopulated o = true →
      sramPopulated (o + pk.len.toNat - 1) = true → u.rbit Reg.CSC_INCTRL 0 = true →
      let r := u.memRead (0x010000000000 + o) pk.len.toNat
      (r.2.1 = false → Acts (.mrd z pk) s (r.2.2.answer z pk 0 r.1) z) ∧ (r.2.1 = true → Acts (.mrd z pk) s (r.2.2.answer z pk 3 []) z)) ∧
    (∀ o, off = 0x800000000 + o → o + 4 ≤ 0x130000 → src = 0 → u.rbit Reg.CSC_INCTRL 1 = true → o % 4 = 0 →
      (Meets s u z 1 pk → pk.data.length = 4 → Acts (.mwr z pk) s ((u.regStore (.remote 0) o pk.data).answer z pk 0 []) z) ∧
      (Meets s u z 2 pk → pk.len.toNat = 4 →
        Acts (.mrd z pk) s ((u.regLoad (.remote 0) o 4).2.answer z pk 0 (leBytes 4 (u.regLoad (.remote 0) o 4).1)) z)) ∧
    (Meets s u z 3 pk →
      (u.csc.reqs.find? (fun r => r.tag == pk.tag.toNat) = none → ∃ w, Acts (.cplPkt z pk) s w z ∧ OnlyCsc u w [] [Reg.CSC_PORT_CNT z 5] ∧
        w.csc = u.csc ∧ w.fld (Reg.CSC_PORT_CNT z 5) 0 32 = min (s.fld (Reg.CSC_PORT_CNT z 5) 0 32 + 1) (2 ^ 32 - 1)) ∧
      (∀ r, u.csc.reqs.find? (fun r => r.tag == pk.tag.toNat) = some r →
        let v := { u with csc := { u.csc with reqs := u.csc.reqs.filter fun q => q.tag != r.tag } }
        (∀ p, r.use = .msg p → ∃ w, Acts (.cplPkt z pk) s w z ∧ OnlyCsc v w [] [Reg.CSC_MSG_SEND p] ∧ w.csc = v.csc ∧
          w.fld (Reg.CSC_MSG_SEND p) 0 2 = (if off = 0 then 0 else 2)) ∧
        (∀ p, r.use = .load p → off = 0 → Acts (.cplPkt z pk) s (v.cascLoadEnd p r.tag (some pk.data)
          (0x030000000000 + r.dst * 0x001000000000 + r.arg)) z) ∧
        (∀ p, r.use = .load p → off ≠ 0 → Acts (.cplPkt z pk) s (v.cascLoadEnd p r.tag none (0x030000000000 + r.dst * 0x001000000000 + r.arg)) z) ∧
        (∀ p, r.use = .store p → off ≠ 0 → Acts (.cplPkt z pk) s ((v.storeFail r.dst r.arg).fenceWake p) z) ∧
        (r.use = .ping → off = 0 → r.dst < 4 → ∃ w, Acts (.cplPkt z pk) s w z ∧ smGet (fun _ => 0) w.csc.missed r.dst = 0 ∧
          ((u.neighbour 0 = r.dst ∧ u.zState 0 = 5 ∨ u.neighbour 1 = r.dst ∧ u.zState 1 = 5) ∨ w.fld (Reg.CSC_PART_STATE r.dst) 0 2 = 1)))) ∧
    (Meets s u z 4 pk → let w0 : W64 := BitVec.ofNat 64 (leAt pk.data 0 8 % 2 ^ 62 + src * 2 ^ 62)
      Acts (.msgPkt z pk) s ((u.post ⟨u.fld Reg.CSC_MSG_ROUTE 0 6, 40, ⟨w0, BitVec.ofNat 64 (leAt pk.data 8 8), 0x104⟩⟩).answer z pk 0 []) z) ∧
    (Meets s u z 5 pk → ∃ w, Acts (.dbell z pk) s (w.answer z pk 0 []) z ∧ OnlyCsc u w [] [Reg.CSC_DOORBELL, Reg.CSC_STATUS] ∧ w.csc = u.csc ∧
      w.reg Reg.CSC_DOORBELL = s.reg Reg.CSC_DOORBELL ||| BitVec.ofNat 32 (leAt pk.data 0 4) ∧
      w.reg Reg.CSC_STATUS = s.reg Reg.CSC_STATUS ||| (if s.reg Reg.CSC_DOORBELL = 0 ∧ leAt pk.data 0 4 ≠ 0 then 0x100 else 0)) ∧
    (Meets s u z 6 pk → let size := min 257 (u.fld Reg.CSC_RLY_SIZE 0 9) * 65536
      ((size = 0 ∨ size < off + pk.data.length) → refused (.relayPkt z pk)) ∧
      (size ≠ 0 → off + pk.data.length ≤ size → ∃ w : State, Acts (.relayPkt z pk) s (w.answer z pk 0 []) z ∧
        w.mem = (u.memWrite (u.reg64 Reg.CSC_RLY_BASE_LO / 65536 * 65536 + off) pk.data).mem ∧
        w.csc = { u.csc with rlyRem := (u.csc.rlyRem + pk.data.length) % 4096 })) ∧
    (Meets s u z 7 pk → Acts (.resetPkt z pk) s
      ((u.answer z pk 0 []).resetRequest (off % 2 == 1) (if off % 2 = 0 then 4 else 5) false) z) ∧
    (Meets s u z 8 pk → Acts (.ping z pk) s (u.answer z pk 0 []) z) ∧
    (Meets s u z 9 pk → let seqn := off / 2 ^ 32 % 65536
      ((src = u.pos ∨ newerSeq (smFind u.csc.seen src) seqn = false) → Acts (.linkstate z pk) s u z) ∧
      (src ≠ u.pos → newerSeq (smFind u.csc.seen src) seqn = true → u.csc.reqs = [] →
        (off / 256 % 256 ≠ 0 ∨ ∀ y : ZPort, u.zState y = 3 ∨ u.pos ≠ 0 ∧ u.segOf y ≠ off % 256) → ∃ w, Acts (.linkstate z pk) s (w.sendPkt (1 - z.val) pk false) z ∧
          OnlyCsc u w [] [Reg.CSC_RING, Reg.CSC_SEGMAP, Reg.CSC_STATUS] ∧ smFind w.csc.seen src = some seqn ∧
          w.segUsable (off % 256) = (off / 256 % 256 == 0) ∧
          (src = 0 → u.isBase = false → 1 ≤ off / 2 ^ 16 % 256 → off / 2 ^ 16 % 256 ≤ 4 → w.ringN = off / 2 ^ 16 % 256 ∧ w.csc.sizeKnown = true)))) ∧
  (∀ (tag : BitVec 10) (s : State),
    (∃ t, exec (.cscTagQuarantineEnd tag) s = .next t ∧ OnlyCsc s t [] [] ∧ t.csc = { s.csc with quar := s.csc.quar.filter (· != tag.toNat) }) ∧
    (s.csc.reqs.find? (fun r => r.tag == tag.toNat) = none → ∃ t, exec (.cscRequestTimeout tag) s = .next t ∧ Same s t) ∧
    ∀ r, s.csc.reqs.find? (fun r => r.tag == tag.toNat) = some r →
      let v := { s with csc := { s.csc with reqs := s.csc.reqs.filter (fun q => q.tag != tag.toNat), quar := s.csc.quar ++ [tag.toNat] } }
      (∀ p, r.use = .msg p → ∃ t, exec (.cscRequestTimeout tag) s = .next t ∧ OnlyCsc s t [] [Reg.CSC_MSG_SEND p] ∧ t.csc = v.csc ∧
        t.fld (Reg.CSC_MSG_SEND p) 0 2 = 2) ∧
      (∀ p, r.use = .load p → exec (.cscRequestTimeout tag) s =
        .next (v.cascLoadEnd p r.tag none (0x030000000000 + r.dst * 0x001000000000 + r.arg)).settle) ∧
      (∀ p, r.use = .store p → exec (.cscRequestTimeout tag) s = .next ((v.storeFail r.dst r.arg).fenceWake p).settle)) ∧
  (∀ (x : BitVec 4) (s : State),
    (s.rbit Reg.CSC_CTRL 0 = false → ∃ t, exec (.pingTick x) s = .next t ∧ Same s t) ∧
    (s.rbit Reg.CSC_CTRL 0 = true → s.isBase = false → s.posValid = false → ∃ t, exec (.pingTick x) s = .next t ∧ Same s t) ∧
    (s.rbit Reg.CSC_CTRL 0 = true → s.isBase = false → s.posValid = true →
      (s.pingRoute 0 = none → let k := smGet (fun _ => 0) s.csc.missed 0 + 1
        ∃ t, exec (.pingTick x) s = .next t ∧ OnlyCsc s t [] [Reg.CSC_PART_STATE 0, Reg.CSC_STATUS] ∧ smGet (fun _ => 0) t.csc.missed 0 = k ∧
          (3 ≤ k → s.refuses 0 = false → t.fld (Reg.CSC_PART_STATE 0) 0 2 = 2)) ∧
      (∀ w g, s.pingRoute 0 = some w → s.freeTag = some g → exec (.pingTick x) s =
        .next (State.sendPkt { s with csc := { s.csc with reqs := s.csc.reqs ++ [⟨g, 0, w, 8, 0, 0, [], .ping, false⟩] } } (b2n w)
          { kind := 8, src := BitVec.ofNat 2 s.pos, dst := 0, west := w, resv := 0, tag := BitVec.ofNat 10 g, len := 0, arg := 0, data := [] } true).settle))) ∧
  ∀ (ag : Agent) (n : Thr) (v : W32) (s : State),
    ((s.mayReg ag (Reg.CSC_MSG_SEND n) = false ∨ ag ≠ .thread n) → ∃ t, exec (.cscMsgSend ag n v) s = .next t ∧ Same s t) ∧
    (s.mayReg (.thread n) (Reg.CSC_MSG_SEND n) = true → let dst := (v.toNat % 4)
      let data := if v.getLsbD 4 then leBytes 4 (s.reg64 (Reg.CSC_MSG_W n 0)) else
        leBytes 8 (s.reg64 (Reg.CSC_MSG_W n 0)) ++ leBytes 8 (s.reg64 (Reg.CSC_MSG_W n 2))
      (s.route dst = none → ∃ t, exec (.cscMsgSend (.thread n) n v) s = .next t ∧ OnlyRegs s t [Reg.CSC_MSG_SEND n] ∧
        t.fld (Reg.CSC_MSG_SEND n) 0 2 = 2) ∧
      (∀ w g, s.route dst = some w → s.freeTag = some g → ∃ t, exec (.cscMsgSend (.thread n) n v) s = .next t ∧
        t.fld (Reg.CSC_MSG_SEND n) 0 2 = 1 ∧ RegsBut s t [Reg.CSC_MSG_SEND n] ∧
        t.csc.reqs = s.csc.reqs ++ [⟨g, dst, w, if v.getLsbD 4 then 5 else 4, 0, data.length, data, .msg n, false⟩])) ∧
    (s.mayReg ag Reg.CSC_RESET = false → ∃ t, exec (.cascadeResetSend ag v) s = .next t ∧ Same s t) ∧
    (s.mayReg ag Reg.CSC_RESET = true → s.isBase = false → ∃ t, exec (.cascadeResetSend ag v) s = .next t ∧ OnlyRegs s t [Reg.CSC_RESET]) ∧
    (s.mayReg ag Reg.CSC_RESET = true → s.isBase = true → ∀ (k : Nat) (w : Bool) (g : Nat), 1 ≤ k → k ≤ 3 → v.toNat % 16 / 2 * 2 = 2 ^ k → s.route k = some w →
      s.freeTag = some g → ∃ t, exec (.cascadeResetSend ag v) s = .next t ∧ RegsBut s t [Reg.CSC_RESET] ∧
        t.csc.reqs = s.csc.reqs ++ [⟨g, k, w, 7, v.toNat / 16 % 2, 0, [], .reset, false⟩])

end
end

