-- ==== Sys2Proof/Laws/Media.lean ====
section
/-! SUPPORT. Laws of sectors: a payload passes the checks of R113, and scrambling twice gives the bytes back (R140 to R142). -/

namespace Sys2Proof.Machine

/-- The number of bytes is the one asked for. -/
theorem length_leBytes (n x : Nat) : (leBytes n x).length = n := by
  induction n generalizing x with
  | zero => rfl
  | succ n ih => simp [leBytes, ih]

/-- Bytes spell the number they were made of. -/
theorem ofLe_leBytes (n x : Nat) (h : x < 256 ^ n) : ofLe (leBytes n x) = x := by
  induction n generalizing x with
  | zero => simp at h; simp [leBytes, ofLe, h]
  | succ n ih =>
    have h1 : x / 256 < 256 ^ n := by
      rw [Nat.div_lt_iff_lt_mul (by norm_num)]; rw [pow_succ] at h; omega
    simp [leBytes, ofLe, ih _ h1]
    omega

/-- The middle of three pieces. -/
theorem sliceB_mid (a b c : List W8) : sliceB (a ++ (b ++ c)) a.length b.length = b := by
  simp [sliceB]

/-- A payload passes its own checks (R113, R140, R141). -/
theorem payloadCheck_payloadOf (data t : List W8) (h : data.length = 4096) : payloadCheck (payloadOf data (tagOf t)) = 0 := by
  have hp : (padTo 28 t).length = 28 := by simp [padTo, sliceB]
  have ht : (tagOf t).length = 32 := by simp [tagOf, length_leBytes, hp]
  have e1 : sliceB (payloadOf data (tagOf t)) 0 4128 = data ++ tagOf t := by
    have := sliceB_mid [] (data ++ tagOf t) (leBytes 8 (sectorCrc data (tagOf t)).toNat ++ List.replicate 24 0)
    simpa [payloadOf, h, ht, List.append_assoc] using this
  have e2 : sliceB (payloadOf data (tagOf t)) 4128 8 = leBytes 8 (sectorCrc data (tagOf t)).toNat := by
    have := sliceB_mid (data ++ tagOf t) (leBytes 8 (sectorCrc data (tagOf t)).toNat) (List.replicate 24 0)
    simpa [payloadOf, h, ht, List.append_assoc, length_leBytes] using this
  have e3 : sliceB (payloadOf data (tagOf t)) 4096 28 = padTo 28 t := by
    have := sliceB_mid data (padTo 28 t) (leBytes 4 (crc32c (padTo 28 t)).toNat ++ (leBytes 8 (sectorCrc data (tagOf t)).toNat ++ List.replicate 24 0))
    simpa [payloadOf, tagOf, h, hp, List.append_assoc] using this
  have e4 : sliceB (payloadOf data (tagOf t)) 4124 4 = leBytes 4 (crc32c (padTo 28 t)).toNat := by
    have := sliceB_mid (data ++ padTo 28 t) (leBytes 4 (crc32c (padTo 28 t)).toNat) (leBytes 8 (sectorCrc data (tagOf t)).toNat ++ List.replicate 24 0)
    simpa [payloadOf, tagOf, h, hp, List.append_assoc, length_leBytes] using this
  simp only [payloadCheck, leAt, e1, e2, e3, e4]
  rw [ofLe_leBytes 8 _ (by have := (sectorCrc data (tagOf t)).isLt; omega), ofLe_leBytes 4 _ (by have := (crc32c (padTo 28 t)).isLt; omega)]
  simp [sectorCrc]

theorem length_payloadOf (data t : List W8) (h : data.length = 4096) : (payloadOf data (tagOf t)).length = 4160 := by
  have hp : (padTo 28 t).length = 28 := by simp [padTo, sliceB]
  simp [payloadOf, tagOf, length_leBytes, hp, h]

theorem length_scramBytes (x : BitVec 31) (n : Nat) : (scramBytes x n).length = n := by
  induction n generalizing x with
  | zero => rfl
  | succ n ih => simp [scramBytes, ih]

theorem xorB_xorB (l k : List W8) (h : l.length = k.length) : xorB (xorB l k) k = l := by
  induction l generalizing k with
  | nil => rfl
  | cons a l ih =>
    cases k with
    | nil => simp at h
    | cons b k =>
      have h' : l.length = k.length := by simpa using h
      have := ih k h'
      simp only [xorB, List.zipWith_cons_cons] at this ⊢
      rw [this, BitVec.xor_assoc, BitVec.xor_self, BitVec.xor_zero]

/-- Scrambling is its own inverse (R142). -/
theorem scramble_scramble (cyl sect : Nat) (l : List W8) : scramble cyl sect (scramble cyl sect l) = l := by
  have hl : (xorB l (scramBytes (scramSeed cyl sect) l.length)).length = l.length := by
    simp [xorB, length_scramBytes]
  simp only [scramble, hl]
  exact xorB_xorB _ _ (length_scramBytes _ _).symm

/-- The decode of a sector as written passes the checks of R113. -/
theorem goodPayload_scramble (cyl sect : Nat) (data t : List W8) (d : Decode) (h : data.length = 4096) (hc : d.conv = true)
    (hd : padTo 4160 d.word = scramble cyl sect (payloadOf data (tagOf t))) :
    goodPayload cyl sect d = some (payloadOf data (tagOf t)) := by
  simp [goodPayload, decodedPayload, hd, scramble_scramble, payloadCheck_payloadOf _ _ h, hc]

end Sys2Proof.Machine
end

