-- ==== Sys2Proof/Laws/Aes.lean ====
section
/-! SUPPORT. Laws of AES-256 and of its key wrap: decryption undoes encryption, unwrapping undoes wrapping (R448, R471). -/

namespace Sys2Proof.Machine

theorem xorW8_swap (a b c : W8) : a ^^^ b ^^^ c = a ^^^ c ^^^ b := by
  rw [BitVec.xor_assoc, BitVec.xor_comm b, ← BitVec.xor_assoc]

theorem xorW8_swap4 (a b c d : W8) : (a ^^^ b) ^^^ (c ^^^ d) = (a ^^^ c) ^^^ (b ^^^ d) := by
  rw [← BitVec.xor_assoc, ← BitVec.xor_assoc, xorW8_swap a b c]

theorem aesX_eq (a : W8) : aesX a = (a <<< 1) ^^^ (if a.getLsbD 7 then 0x1B else 0) := by
  unfold aesX; split <;> simp

/-- Multiplication by x is linear. -/
theorem aesX_xor (a b : W8) : aesX (a ^^^ b) = aesX a ^^^ aesX b := by
  rw [aesX_eq, aesX_eq, aesX_eq, xorW8_swap4, BitVec.shiftLeft_xor_distrib]
  congr 1
  rw [BitVec.getLsbD_xor]
  cases a.getLsbD 7 <;> cases b.getLsbD 7 <;> decide

/-- So is multiplication by a constant. -/
theorem aesMul_xor (k : Nat) (a b : W8) : aesMul k (a ^^^ b) = aesMul k a ^^^ aesMul k b := by
  have h : ∀ (p : Bool) (x y : W8), (if p = true then x ^^^ y else 0) = (if p = true then x else 0) ^^^ (if p = true then y else 0) := by
    intro p x y; cases p <;> simp
  simp only [aesMul, aesX_xor, h]
  ac_rfl

theorem aes_own : ∀ a : W8, aesMul 14 (aesMul 2 a) ^^^ aesMul 11 (aesMul 1 a) ^^^ aesMul 13 (aesMul 1 a) ^^^ aesMul 9 (aesMul 3 a) = a := by
  decide +kernel
theorem aes_other1 : ∀ b : W8, aesMul 14 (aesMul 3 b) ^^^ aesMul 11 (aesMul 2 b) ^^^ aesMul 13 (aesMul 1 b) ^^^ aesMul 9 (aesMul 1 b) = 0 := by
  decide +kernel
theorem aes_other2 : ∀ c : W8, aesMul 14 (aesMul 1 c) ^^^ aesMul 11 (aesMul 3 c) ^^^ aesMul 13 (aesMul 2 c) ^^^ aesMul 9 (aesMul 1 c) = 0 := by
  decide +kernel
theorem aes_other3 : ∀ d : W8, aesMul 14 (aesMul 1 d) ^^^ aesMul 11 (aesMul 1 d) ^^^ aesMul 13 (aesMul 3 d) ^^^ aesMul 9 (aesMul 2 d) = 0 := by
  decide +kernel

/-- The inverse factors on the factors of a column give its byte back. -/
theorem aes_column (a b c d : W8) :
    aesMul 14 (aesMul 2 a ^^^ aesMul 3 b ^^^ aesMul 1 c ^^^ aesMul 1 d) ^^^
    aesMul 11 (aesMul 2 b ^^^ aesMul 3 c ^^^ aesMul 1 d ^^^ aesMul 1 a) ^^^
    aesMul 13 (aesMul 2 c ^^^ aesMul 3 d ^^^ aesMul 1 a ^^^ aesMul 1 b) ^^^
    aesMul 9 (aesMul 2 d ^^^ aesMul 3 a ^^^ aesMul 1 b ^^^ aesMul 1 c) = a := by
  have e : ∀ a0 a1 a2 a3 b0 b1 b2 b3 c0 c1 c2 c3 d0 d1 d2 d3 : W8,
      (a0 ^^^ b0 ^^^ c0 ^^^ d0) ^^^ (b1 ^^^ c1 ^^^ d1 ^^^ a1) ^^^ (c2 ^^^ d2 ^^^ a2 ^^^ b2) ^^^ (d3 ^^^ a3 ^^^ b3 ^^^ c3) =
      (a0 ^^^ a1 ^^^ a2 ^^^ a3) ^^^ (b0 ^^^ b1 ^^^ b2 ^^^ b3) ^^^ (c0 ^^^ c1 ^^^ c2 ^^^ c3) ^^^ (d0 ^^^ d1 ^^^ d2 ^^^ d3) := by
    intros; ac_rfl
  simp only [aesMul_xor]
  rw [e, aes_own, aes_other1, aes_other2, aes_other3]
  simp

/-- InvMixColumns undoes MixColumns. -/
theorem mixCols_inv (b : List W8) (h : b.length = 16) : mixCols 14 11 13 9 (mixCols 2 3 1 1 b) = b := by
  match b, h with
  | [b0, b1, b2, b3, b4, b5, b6, b7, b8, b9, b10, b11, b12, b13, b14, b15], _ =>
    simp [mixCols, bAt, List.range, List.range.loop, aes_column]

/-- InvShiftRows undoes ShiftRows. -/
theorem unshiftRows_shiftRows (b : List W8) (h : b.length = 16) : unshiftRows (shiftRows b) = b := by
  match b, h with
  | [b0, b1, b2, b3, b4, b5, b6, b7, b8, b9, b10, b11, b12, b13, b14, b15], _ =>
    simp [unshiftRows, shiftRows, bAt, List.range, List.range.loop]

/-- InvSubBytes undoes SubBytes. -/
theorem aesInv_sub8 : ∀ x : W8, bAt aesInv (sub8 x).toNat = x := by decide +kernel

theorem length_xorB (a b : List W8) : (xorB a b).length = min a.length b.length := by simp [xorB]

/-- Steps undone in the opposite order. -/
theorem foldl_undo {α : Type} (P : α → Prop) (n : Nat) (f g : α → Nat → α)
    (h : ∀ r, r < n → ∀ b, P b → P (f b r) ∧ g (f b r) (n - 1 - r) = b) (b : α) (hb : P b) :
    (List.range n).foldl g ((List.range n).foldl f b) = b ∧ P ((List.range n).foldl f b) := by
  induction n generalizing g with
  | zero => exact ⟨rfl, hb⟩
  | succ n ih =>
    obtain ⟨h1, h2⟩ := ih (fun x r => g x (r + 1)) (fun r hr x hx => by
      obtain ⟨u, v⟩ := h r (by omega) x hx
      refine ⟨u, ?_⟩
      rw [show n - 1 - r + 1 = n + 1 - 1 - r by omega]; exact v)
    obtain ⟨u, v⟩ := h n (by omega) _ h2
    have ef : (List.range (n + 1)).foldl f b = f ((List.range n).foldl f b) n := by
      rw [List.range_succ, List.foldl_append]; rfl
    rw [ef]
    refine ⟨?_, u⟩
    rw [List.range_succ_eq_map, List.foldl_cons, List.foldl_map]
    rw [show n + 1 - 1 - n = 0 by omega] at v
    rw [v]; exact h1

/-- A round key. -/
def AesKeysOk (ks : List (List W8)) : Prop := ∀ r, r < 15 → (ks.getD r []).length = 16

theorem length_aesExpand (n : Nat) : ∀ (w : List (List W8)) (i : Nat) (rc : W8), 8 ≤ i → w.length = i → (∀ x ∈ w, x.length = 4) →
    (aesExpand w i rc n).length = i + n ∧ ∀ x ∈ aesExpand w i rc n, x.length = 4 := by
  induction n with
  | zero => intro w i rc _ h1 h2; exact ⟨h1, h2⟩
  | succ n ih =>
    intro w i rc h8 h1 h2
    have g : ∀ j, j < i → (w.getD j []).length = 4 := by
      intro j hj
      rw [List.getD_eq_getElem _ _ (by omega)]
      exact h2 _ (List.getElem_mem _)
    have g1 := g (i - 1) (by omega)
    have g8 := g (i - 8) (by omega)
    have step := ih (w ++ [xorB (w.getD (i - 8) []) (if i % 8 = 0 then
        xorB (((w.getD (i - 1) []).drop 1 ++ (w.getD (i - 1) []).take 1).map sub8) [rc, 0, 0, 0]
      else if i % 8 = 4 then (w.getD (i - 1) []).map sub8 else w.getD (i - 1) [])]) (i + 1) (if i % 8 = 0 then aesX rc else rc)
      (by omega) (by simp [h1]) (by
        intro x hx
        rw [List.mem_append, List.mem_singleton] at hx
        rcases hx with hx | hx
        · exact h2 x hx
        · rw [hx, length_xorB, g8]
          split
          · simp only [length_xorB, List.length_map, List.length_append, List.length_drop, List.length_take, g1]; rfl
          · split <;> simp only [List.length_map, g1] <;> rfl)
    refine ⟨?_, step.2⟩
    have := step.1
    rw [show i + 1 + n = i + (n + 1) by omega] at this
    exact this

theorem length_sliceB (l : List W8) (o n : Nat) : (sliceB l o n).length = n := by
  simp [sliceB]

theorem aesKeys_ok (key : List W8) : AesKeysOk (aesKeys key) := by
  intro r hr
  obtain ⟨h1, h2⟩ := length_aesExpand 52 ((List.range 8).map fun i => sliceB key (4 * i) 4) 8 1 (by omega) (by simp) (by
    intro x hx
    rw [List.mem_map] at hx
    obtain ⟨i, _, rfl⟩ := hx
    exact length_sliceB _ _ _)
  have g : ∀ j, j < 60 → ((aesExpand ((List.range 8).map fun i => sliceB key (4 * i) 4) 8 1 52).getD j []).length = 4 := by
    intro j hj
    rw [List.getD_eq_getElem _ _ (by omega)]
    exact h2 _ (List.getElem_mem _)
  have e : (aesKeys key).getD r [] = (List.range 4).flatMap fun c =>
      (aesExpand ((List.range 8).map fun i => sliceB key (4 * i) 4) 8 1 52).getD (4 * r + c) [] := by
    rw [aesKeys, List.getD_eq_getElem _ _ (by simpa using hr)]
    simp
  rw [e, show List.range 4 = [0, 1, 2, 3] from rfl]
  simp only [List.flatMap_cons, List.flatMap_nil, List.length_append, List.length_nil]
  rw [g _ (by omega), g _ (by omega), g _ (by omega), g _ (by omega)]

theorem length_mixCols (a b c d : Nat) (l : List W8) : (mixCols a b c d l).length = 16 := by simp [mixCols]
theorem length_shiftRows (l : List W8) : (shiftRows l).length = 16 := by simp [shiftRows]

/-- The inverse of SubBytes and ShiftRows. -/
theorem aes_unsub (b : List W8) (h : b.length = 16) : ((unshiftRows (shiftRows (b.map sub8))).map fun x => bAt aesInv x.toNat) = b := by
  rw [unshiftRows_shiftRows _ (by simpa using h), List.map_map]
  conv => rhs; rw [← List.map_id b]
  apply List.map_congr_left
  intro x _
  exact aesInv_sub8 x

/-- Decryption of a block undoes its encryption. -/
theorem aesDec_aesEnc (ks : List (List W8)) (hk : AesKeysOk ks) (b : List W8) (h : b.length = 16) : aesDec ks (aesEnc ks b) = b := by
  have h0 : (xorB b (ks.getD 0 [])).length = 16 := by rw [length_xorB, hk 0 (by omega), h]; rfl
  obtain ⟨u, v⟩ := foldl_undo (fun b => b.length = 16) 13
    (fun b r => xorB (mixCols 2 3 1 1 (shiftRows (b.map sub8))) (ks.getD (r + 1) []))
    (fun b r => (unshiftRows (mixCols 14 11 13 9 (xorB b (ks.getD (13 - r) [])))).map fun x => bAt aesInv x.toNat)
    (by
      intro r hr b hb
      have k := hk (r + 1) (by omega)
      refine ⟨by rw [length_xorB, length_mixCols, k]; rfl, ?_⟩
      rw [show 13 - (13 - 1 - r) = r + 1 by omega, xorB_xorB _ _ (by rw [length_mixCols, k]), mixCols_inv _ (length_shiftRows _)]
      exact aes_unsub b hb) _ h0
  unfold aesDec aesEnc
  simp only []
  rw [xorB_xorB _ _ (by rw [length_shiftRows, hk 14 (by omega)]), aes_unsub _ v, u, xorB_xorB _ _ (by rw [h, hk 0 (by omega)])]

theorem length_aesEnc (ks : List (List W8)) (hk : AesKeysOk ks) (b : List W8) : (aesEnc ks b).length = 16 := by
  unfold aesEnc
  simp only []
  rw [length_xorB, length_shiftRows, hk 14 (by omega)]; rfl

theorem length_beBytes (n x : Nat) : (beBytes n x).length = n := by simp [beBytes, length_leBytes]

/-- Pieces of eight bytes, joined and cut again. -/
theorem slices_flatten (l : List (List W8)) (h : ∀ x ∈ l, x.length = 8) :
    ((List.range l.length).map fun i => sliceB l.flatten (8 * i) 8) = l := by
  induction l with
  | nil => rfl
  | cons x l ih =>
    have hx : x.length = 8 := h x (by simp)
    have ih := ih (fun y hy => h y (by simp [hy]))
    rw [List.length_cons, List.range_succ_eq_map, List.map_cons, List.map_map, List.flatten_cons]
    congr 1
    · simp [sliceB, List.take_left' hx, hx]
    · conv => rhs; rw [← ih]
      apply List.map_congr_left
      intro i _
      simp only [Function.comp, sliceB]
      rw [show 8 * i.succ = 8 + 8 * i by rw [Nat.succ_eq_add_one]; ring, ← List.drop_drop, List.drop_left' hx]

/-- Bytes cut into pieces of eight and joined again. -/
theorem flatten_slices (n : Nat) (l : List W8) (h : l.length = 8 * n) : ((List.range n).map fun i => sliceB l (8 * i) 8).flatten = l := by
  induction n generalizing l with
  | zero => simp at h; simp [h]
  | succ n ih =>
    have ih := ih (l.drop 8) (by rw [List.length_drop]; omega)
    rw [List.range_succ_eq_map, List.map_cons, List.map_map, List.flatten_cons]
    conv => rhs; rw [← List.take_append_drop 8 l]
    congr 1
    · simp only [sliceB, Nat.mul_zero, List.drop_zero]
      rw [show 8 - (l.take 8).length = 0 by rw [List.length_take]; omega]; simp
    · conv => rhs; rw [← ih]
      congr 1
      apply List.map_congr_left
      intro i _
      simp only [Function.comp, sliceB]
      rw [show 8 * i.succ = 8 + 8 * i by rw [Nat.succ_eq_add_one]; ring, ← List.drop_drop]

/-- What the steps of the key wrap keep. -/
def WrapOk (p : List W8 × List (List W8)) : Prop := p.1.length = 8 ∧ p.2.length = 8 ∧ ∀ x ∈ p.2, x.length = 8

theorem wrapStep_ok (ks : List (List W8)) (hk : AesKeysOk ks) (a : List W8) (l : List (List W8)) (h : WrapOk (a, l)) (i t : Nat) :
    WrapOk (wrapStep ks a l i t) := by
  obtain ⟨-, h2, h3⟩ := h
  have he := length_aesEnc ks hk (a ++ l.getD i [])
  refine ⟨?_, ?_, ?_⟩
  · simp only [wrapStep, length_xorB, length_beBytes, List.length_take, he]; rfl
  · simp only [wrapStep, List.length_set]; exact h2
  · intro x hx
    simp only [wrapStep] at hx
    rcases List.mem_or_eq_of_mem_set hx with hx | hx
    · exact h3 x hx
    · rw [hx, List.length_drop, he]

theorem unwrapStep_wrapStep (ks : List (List W8)) (hk : AesKeysOk ks) (a : List W8) (l : List (List W8)) (h : WrapOk (a, l)) (i t : Nat)
    (hi : i < 8) : unwrapStep ks (wrapStep ks a l i t).1 (wrapStep ks a l i t).2 i t = (a, l) := by
  obtain ⟨h1, h2, h3⟩ := h
  simp only at h1 h2 h3
  have hi : i < l.length := by omega
  have hl : (l.getD i []).length = 8 := by
    rw [List.getD_eq_getElem _ _ hi]; exact h3 _ (List.getElem_mem _)
  have he := length_aesEnc ks hk (a ++ l.getD i [])
  have hd := aesDec_aesEnc ks hk (a ++ l.getD i []) (by rw [List.length_append, h1, hl])
  simp only [unwrapStep, wrapStep]
  rw [xorB_xorB _ _ (by rw [List.length_take, he, length_beBytes]; rfl)]
  rw [List.getD_eq_getElem (l.set _ _) _ (by simpa using hi), List.getElem_set_self, List.take_append_drop, hd]
  rw [List.take_left' h1, List.drop_left' h1, List.set_set, List.getD_eq_getElem _ _ hi, List.set_getElem_self]

/-- The 48 steps of the wrap. -/
def wrapRun (kek key : List W8) : List W8 × List (List W8) :=
  (List.range 48).foldl (fun p t => wrapStep (aesKeys kek) p.1 p.2 (t % 8) (t + 1))
    (List.replicate 8 0xA6, (List.range 8).map fun i => sliceB key (8 * i) 8)

theorem keyWrap_eq (kek key : List W8) : keyWrap kek key = (wrapRun kek key).1 ++ (wrapRun kek key).2.flatten := by
  unfold keyWrap wrapRun
  simp only []

theorem wrapRun_undo (kek key : List W8) :
    (List.range 48).foldl (fun p t => unwrapStep (aesKeys kek) p.1 p.2 ((47 - t) % 8) (48 - t)) (wrapRun kek key) =
      (List.replicate 8 0xA6, (List.range 8).map fun i => sliceB key (8 * i) 8) ∧ WrapOk (wrapRun kek key) := by
  have hk := aesKeys_ok kek
  refine foldl_undo WrapOk 48 (fun p t => wrapStep (aesKeys kek) p.1 p.2 (t % 8) (t + 1))
    (fun p t => unwrapStep (aesKeys kek) p.1 p.2 ((47 - t) % 8) (48 - t)) ?_ _ ?_
  · intro r hr p hp
    refine ⟨wrapStep_ok _ hk p.1 p.2 hp _ _, ?_⟩
    have := unwrapStep_wrapStep _ hk p.1 p.2 hp (r % 8) (r + 1) (by omega)
    rwa [show 47 - (48 - 1 - r) = r by omega, show 48 - (48 - 1 - r) = r + 1 by omega]
  · refine ⟨by simp, by simp, ?_⟩
    intro x hx
    rw [List.mem_map] at hx
    obtain ⟨i, _, rfl⟩ := hx
    exact length_sliceB _ _ _

theorem length_keyWrap (kek key : List W8) : (keyWrap kek key).length = 72 := by
  obtain ⟨h1, h2, h3⟩ := (wrapRun_undo kek key).2
  rw [keyWrap_eq, List.length_append, h1]
  generalize (wrapRun kek key).2 = l at h2 h3 ⊢
  match l, h2 with
  | [l0, l1, l2, l3, l4, l5, l6, l7], _ =>
    simp only [List.mem_cons, List.not_mem_nil, or_false, forall_eq_or_imp, forall_eq] at h3
    simp [h3]

/-- Unwrapping a wrapped key gives the key back. -/
theorem keyUnwrap_keyWrap (kek key : List W8) (h : key.length = 64) : keyUnwrap kek (keyWrap kek key) = some key := by
  obtain ⟨u, h1, h2, h3⟩ := wrapRun_undo kek key
  have hr : ((List.range 8).map fun i => sliceB ((wrapRun kek key).1 ++ (wrapRun kek key).2.flatten) (8 + 8 * i) 8) = (wrapRun kek key).2 := by
    have := slices_flatten (wrapRun kek key).2 h3
    rw [h2] at this
    conv => rhs; rw [← this]
    apply List.map_congr_left
    intro i _
    simp only [sliceB]
    rw [← List.drop_drop, List.drop_left' h1]
  have e : keyUnwrap kek (keyWrap kek key) = (fun p : List W8 × List (List W8) => if p.1 = List.replicate 8 0xA6 then some p.2.flatten else none)
      ((List.range 48).foldl (fun p t => unwrapStep (aesKeys kek) p.1 p.2 ((47 - t) % 8) (48 - t)) (wrapRun kek key)) := by
    rw [keyWrap_eq, keyUnwrap]
    simp only []
    rw [hr, List.take_left' h1]
  rw [e, u]
  simp only [if_true, Option.some.injEq]
  exact flatten_slices 8 key h

theorem blob_magic (e : W8) (l : List W8) : leAt ([0x4D, 0x4B, 1, e, 0, 0, 0, 0] ++ l) 0 3 = 0x014B4D := by
  simp [leAt, sliceB, ofLe]
theorem blob_zero (e : W8) (l : List W8) : leAt ([0x4D, 0x4B, 1, e, 0, 0, 0, 0] ++ l) 4 4 = 0 := by
  simp [leAt, sliceB, ofLe]
theorem blob_epoch (e : W8) (l : List W8) : leAt ([0x4D, 0x4B, 1, e, 0, 0, 0, 0] ++ l) 3 1 = e.toNat := by
  simp [leAt, sliceB, ofLe]
theorem blob_key (e : W8) (l : List W8) (h : l.length = 72) : sliceB ([0x4D, 0x4B, 1, e, 0, 0, 0, 0] ++ l) 8 72 = l := by
  have := sliceB_mid [0x4D, 0x4B, 1, e, 0, 0, 0, 0] l []
  rw [h, List.append_nil] at this
  exact this
theorem key_bytes (k : BitVec 512) : BitVec.ofNat 512 (ofLe (leBytes 64 k.toNat)) = k := by
  have h : k.toNat < 256 ^ 64 := Nat.lt_of_lt_of_le k.isLt (Nat.le_of_eq (pow_mul 2 8 64))
  rw [ofLe_leBytes 64 _ h, BitVec.ofNat_toNat, BitVec.setWidth_eq]

/-- A wrapped key is unwrapped under the same EPOCH (R471). -/
theorem unwrapBlob_wrapBlob (s : State) (k : BitVec 512) (h : s.epochIx < 256) : s.unwrapBlob (s.wrapBlob k) = .key k := by
  have hl := length_keyWrap s.mediaKek (leBytes 64 k.toNat)
  have hb : (BitVec.ofNat 8 s.epochIx).toNat = s.epochIx := by
    rw [BitVec.toNat_ofNat]; exact Nat.mod_eq_of_lt h
  have h1 : ¬ (leAt (s.wrapBlob k) 0 3 ≠ 0x014B4D ∨ leAt (s.wrapBlob k) 4 4 ≠ 0) := by
    rintro (h | h)
    · exact h (blob_magic _ _)
    · exact h (blob_zero _ _)
  have h2 : ¬ leAt (s.wrapBlob k) 3 1 ≠ s.epochIx := fun h => h ((blob_epoch _ _).trans hb)
  have h3 : sliceB (s.wrapBlob k) 8 72 = keyWrap s.mediaKek (leBytes 64 k.toNat) := blob_key _ _ hl
  rw [State.unwrapBlob, if_neg h1, if_neg h2, h3, keyUnwrap_keyWrap _ _ (length_leBytes _ _)]
  simp only [key_bytes]

end Sys2Proof.Machine
end

