-- ==== Sys2Proof/Laws/SMap.lean ====
section
/-! SUPPORT. Laws of sparse tables: a read after a write, and the canonical form that every write keeps. The read laws hold
for every list of entries, ordered or not. -/

namespace Sys2Proof

variable {α : Type}

theorem smFind_set_same (m : SMap α) (k : Nat) (v : α) : smFind (smSet m k v) k = some v := by
  induction m with
  | nil => simp [smSet, smFind]
  | cons e t ih =>
    obtain ⟨j, w⟩ := e
    unfold smSet
    split
    · simp [smFind]
    · split
      · simp [smFind]
      · rename_i h1 h2
        simp [smFind, h1, h2, ih]

theorem smFind_set_ne (m : SMap α) (k j : Nat) (v : α) (h : j ≠ k) : smFind (smSet m k v) j = smFind m j := by
  induction m with
  | nil =>
    have h' : k ≠ j := fun e => h e.symm
    simp [smSet, smFind, h']
  | cons e t ih =>
    obtain ⟨i, w⟩ := e
    have h' : k ≠ j := fun e => h e.symm
    unfold smSet
    split
    · rename_i h1
      subst h1
      simp [smFind, h']
    · split
      · rename_i h1 h2
        simp only [smFind, h', if_false]
        by_cases h3 : j < k
        · have h4 : i ≠ j := by omega
          have h5 : j < i := by omega
          simp [h3, h4, h5]
        · simp [h3]
      · simp only [smFind, ih]

theorem smFind_above (m : SMap α) (k j : Nat) (h : k < j) : smFind (smAbove m k) j = smFind m j := by
  induction m with
  | nil => rfl
  | cons e t ih =>
    obtain ⟨i, w⟩ := e
    unfold smAbove
    split
    · have h1 : i ≠ j := by omega
      have h2 : ¬ j < i := by omega
      simp [smFind, h1, h2, ih]
    · rfl

theorem smFind_above_le (m : SMap α) (k j : Nat) (h : j ≤ k) : smFind (smAbove m k) j = none := by
  induction m with
  | nil => rfl
  | cons e t ih =>
    obtain ⟨i, w⟩ := e
    unfold smAbove
    split
    · exact ih
    · have h1 : i ≠ j := by omega
      have h2 : j < i := by omega
      simp [smFind, h1, h2]

theorem smFind_del_same (m : SMap α) (k : Nat) : smFind (smDel m k) k = none := by
  induction m with
  | nil => rfl
  | cons e t ih =>
    obtain ⟨i, w⟩ := e
    unfold smDel
    split
    · exact smFind_above_le t k k (Nat.le_refl k)
    · split
      · rename_i h1 h2
        simp [smFind, h1, h2]
      · rename_i h1 h2
        simp [smFind, h1, h2, ih]

theorem smFind_del_ne (m : SMap α) (k j : Nat) (h : j ≠ k) : smFind (smDel m k) j = smFind m j := by
  induction m with
  | nil => rfl
  | cons e t ih =>
    obtain ⟨i, w⟩ := e
    unfold smDel
    split
    · rename_i h1
      subst h1
      have h' : i ≠ j := fun e => h e.symm
      by_cases h3 : j < i
      · simp [smFind, h', h3, smFind_above_le t i j (by omega)]
      · simp [smFind, h', h3, smFind_above t i j (by omega)]
    · split
      · rfl
      · simp only [smFind, ih]

variable [DecidableEq α]

theorem smGet_put_same (d : Nat → α) (m : SMap α) (k : Nat) (v : α) : smGet d (smPut d m k v) k = v := by
  unfold smGet smPut
  split
  · rename_i h
    rw [smFind_del_same]
    simp [h]
  · rw [smFind_set_same]
    rfl

theorem smGet_put_ne (d : Nat → α) (m : SMap α) (k j : Nat) (v : α) (h : j ≠ k) :
    smGet d (smPut d m k v) j = smGet d m j := by
  unfold smGet smPut
  split
  · rw [smFind_del_ne m k j h]
  · rw [smFind_set_ne m k j v h]

/-- A read after a write of a table with a default. -/
theorem smGet_put (d : Nat → α) (m : SMap α) (k j : Nat) (v : α) :
    smGet d (smPut d m k v) j = if j = k then v else smGet d m j := by
  split
  · rename_i h
    subst h
    exact smGet_put_same d m j v
  · rename_i h
    exact smGet_put_ne d m k j v h

omit [DecidableEq α] in
theorem smRisingFrom_mono (m : SMap α) (a b : Nat) (h : a ≤ b) (hm : smRisingFrom b m = true) :
    smRisingFrom a m = true := by
  cases m with
  | nil => rfl
  | cons e t =>
    obtain ⟨i, w⟩ := e
    simp only [smRisingFrom, Bool.and_eq_true, decide_eq_true_eq] at hm ⊢
    exact ⟨by omega, hm.2⟩

omit [DecidableEq α] in
theorem smRisingFrom_set (m : SMap α) (a k : Nat) (v : α) (h : a ≤ k) (hm : smRisingFrom a m = true) :
    smRisingFrom a (smSet m k v) = true := by
  induction m generalizing a with
  | nil => simp [smSet, smRisingFrom, h]
  | cons e t ih =>
    obtain ⟨i, w⟩ := e
    simp only [smRisingFrom, Bool.and_eq_true, decide_eq_true_eq] at hm
    unfold smSet
    split
    · rename_i h1
      subst h1
      simp [smRisingFrom, hm.1, hm.2]
    · split
      · rename_i h1 h2
        simp [smRisingFrom, h, hm.2]
        omega
      · rename_i h1 h2
        simp only [smRisingFrom, Bool.and_eq_true, decide_eq_true_eq]
        exact ⟨hm.1, ih (i + 1) (by omega) hm.2⟩

omit [DecidableEq α] in
theorem smRisingFrom_above (m : SMap α) (a k : Nat) (hm : smRisingFrom a m = true) :
    smRisingFrom (max a (k + 1)) (smAbove m k) = true := by
  induction m generalizing a with
  | nil => rfl
  | cons e t ih =>
    obtain ⟨i, w⟩ := e
    simp only [smRisingFrom, Bool.and_eq_true, decide_eq_true_eq] at hm
    unfold smAbove
    split
    · exact smRisingFrom_mono _ _ _ (by omega) (ih (i + 1) hm.2)
    · simp only [smRisingFrom, Bool.and_eq_true, decide_eq_true_eq]
      exact ⟨by omega, hm.2⟩

omit [DecidableEq α] in
theorem smRisingFrom_del (m : SMap α) (a k : Nat) (hm : smRisingFrom a m = true) :
    smRisingFrom a (smDel m k) = true := by
  induction m generalizing a with
  | nil => rfl
  | cons e t ih =>
    obtain ⟨i, w⟩ := e
    have hm' := hm
    simp only [smRisingFrom, Bool.and_eq_true, decide_eq_true_eq] at hm
    unfold smDel
    split
    · exact smRisingFrom_mono _ _ _ (by omega) (smRisingFrom_above t (i + 1) k hm.2)
    · split
      · exact hm'
      · simp only [smRisingFrom, Bool.and_eq_true, decide_eq_true_eq]
        exact ⟨hm.1, ih (i + 1) hm.2⟩

theorem smRising_put (d : Nat → α) (m : SMap α) (k : Nat) (v : α) (hm : smRising m = true) :
    smRising (smPut d m k v) = true := by
  unfold smPut
  split
  · exact smRisingFrom_del m 0 k hm
  · exact smRisingFrom_set m 0 k v (Nat.zero_le k) hm

omit [DecidableEq α] in
theorem mem_above (m : SMap α) (k : Nat) (e : Nat × α) (h : e ∈ smAbove m k) : e ∈ m := by
  induction m with
  | nil => exact h
  | cons x t ih =>
    obtain ⟨i, w⟩ := x
    unfold smAbove at h
    split at h
    · exact List.mem_cons_of_mem _ (ih h)
    · exact h

omit [DecidableEq α] in
theorem mem_del (m : SMap α) (k : Nat) (e : Nat × α) (h : e ∈ smDel m k) : e ∈ m := by
  induction m with
  | nil => exact h
  | cons x t ih =>
    obtain ⟨i, w⟩ := x
    unfold smDel at h
    split at h
    · exact List.mem_cons_of_mem _ (mem_above t k e h)
    · split at h
      · exact h
      · rcases List.mem_cons.mp h with h | h
        · exact h ▸ List.mem_cons_self
        · exact List.mem_cons_of_mem _ (ih h)

omit [DecidableEq α] in
theorem mem_set (m : SMap α) (k : Nat) (v : α) (e : Nat × α) (h : e ∈ smSet m k v) : e = (k, v) ∨ e ∈ m := by
  induction m with
  | nil =>
    simp only [smSet, List.mem_singleton] at h
    exact .inl h
  | cons x t ih =>
    obtain ⟨i, w⟩ := x
    unfold smSet at h
    split at h
    · rcases List.mem_cons.mp h with h | h
      · exact .inl h
      · exact .inr (List.mem_cons_of_mem _ h)
    · split at h
      · rcases List.mem_cons.mp h with h | h
        · exact .inl h
        · exact .inr h
      · rcases List.mem_cons.mp h with h | h
        · exact .inr (h ▸ List.mem_cons_self)
        · rcases ih h with h | h
          · exact .inl h
          · exact .inr (List.mem_cons_of_mem _ h)

/-- A write of a table with a default keeps its canonical form. -/
theorem smWf_put (d : Nat → α) (m : SMap α) (k : Nat) (v : α) (hm : smWf d m = true) :
    smWf d (smPut d m k v) = true := by
  simp only [smWf, Bool.and_eq_true, List.all_eq_true, decide_eq_true_eq] at hm ⊢
  refine ⟨smRising_put d m k v hm.1, fun e he => ?_⟩
  unfold smPut at he
  split at he
  · exact hm.2 e (mem_del m k e he)
  · rename_i hv
    rcases mem_set m k v e he with h | h
    · subst h
      exact hv
    · exact hm.2 e h

end Sys2Proof
end

