-- ==== Sys2Proof/Laws/State.lean ====
section
/-! SUPPORT. Laws of the state: what each named update of one component leaves as it is (one lemma for each other field), and
what the update's own component reads afterwards. -/

namespace Sys2Proof.Machine

variable (s : State)

/-! ### setReg -/

@[simp] theorem State.setReg_pending (o : Nat) (v : W32) : (s.setReg o v).pending = s.pending := rfl
@[simp] theorem State.setReg_now (o : Nat) (v : W32) : (s.setReg o v).now = s.now := rfl
@[simp] theorem State.setReg_timeBase (o : Nat) (v : W32) : (s.setReg o v).timeBase = s.timeBase := rfl
@[simp] theorem State.setReg_fresh (o : Nat) (v : W32) : (s.setReg o v).fresh = s.fresh := rfl
@[simp] theorem State.setReg_out (o : Nat) (v : W32) : (s.setReg o v).out = s.out := rfl
@[simp] theorem State.setReg_rdata (o : Nat) (v : W32) : (s.setReg o v).rdata = s.rdata := rfl
@[simp] theorem State.setReg_active (o : Nat) (v : W32) : (s.setReg o v).active = s.active := rfl
@[simp] theorem State.setReg_pairHold (o : Nat) (v : W32) : (s.setReg o v).pairHold = s.pairHold := rfl
@[simp] theorem State.setReg_pairPend (o : Nat) (v : W32) : (s.setReg o v).pairPend = s.pairPend := rfl
@[simp] theorem State.setReg_thrs (o : Nat) (v : W32) : (s.setReg o v).thrs = s.thrs := rfl
@[simp] theorem State.setReg_campQ (o : Nat) (v : W32) : (s.setReg o v).campQ = s.campQ := rfl
@[simp] theorem State.setReg_heldMsgs (o : Nat) (v : W32) : (s.setReg o v).heldMsgs = s.heldMsgs := rfl
@[simp] theorem State.setReg_evSeen (o : Nat) (v : W32) : (s.setReg o v).evSeen = s.evSeen := rfl
@[simp] theorem State.setReg_rot (o : Nat) (v : W32) : (s.setReg o v).rot = s.rot := rfl
@[simp] theorem State.setReg_ic (o : Nat) (v : W32) : (s.setReg o v).ic = s.ic := rfl
@[simp] theorem State.setReg_cyc (o : Nat) (v : W32) : (s.setReg o v).cyc = s.cyc := rfl
@[simp] theorem State.setReg_divFree (o : Nat) (v : W32) : (s.setReg o v).divFree = s.divFree := rfl
@[simp] theorem State.setReg_ucs (o : Nat) (v : W32) : (s.setReg o v).ucs = s.ucs := rfl
@[simp] theorem State.setReg_mem (o : Nat) (v : W32) : (s.setReg o v).mem = s.mem := rfl
@[simp] theorem State.setReg_evt (o : Nat) (v : W32) : (s.setReg o v).evt = s.evt := rfl
@[simp] theorem State.setReg_med0 (o : Nat) (v : W32) : (s.setReg o v).med0 = s.med0 := rfl
@[simp] theorem State.setReg_med1 (o : Nat) (v : W32) : (s.setReg o v).med1 = s.med1 := rfl
@[simp] theorem State.setReg_dch (o : Nat) (v : W32) : (s.setReg o v).dch = s.dch := rfl
@[simp] theorem State.setReg_sha (o : Nat) (v : W32) : (s.setReg o v).sha = s.sha := rfl
@[simp] theorem State.setReg_gctx (o : Nat) (v : W32) : (s.setReg o v).gctx = s.gctx := rfl
@[simp] theorem State.setReg_gact0 (o : Nat) (v : W32) : (s.setReg o v).gact0 = s.gact0 := rfl
@[simp] theorem State.setReg_gact1 (o : Nat) (v : W32) : (s.setReg o v).gact1 = s.gact1 := rfl
@[simp] theorem State.setReg_gylQ (o : Nat) (v : W32) : (s.setReg o v).gylQ = s.gylQ := rfl
@[simp] theorem State.setReg_gylRun (o : Nat) (v : W32) : (s.setReg o v).gylRun = s.gylRun := rfl
@[simp] theorem State.setReg_sec (o : Nat) (v : W32) : (s.setReg o v).sec = s.sec := rfl
@[simp] theorem State.setReg_fw (o : Nat) (v : W32) : (s.setReg o v).fw = s.fw := rfl
@[simp] theorem State.setReg_spn (o : Nat) (v : W32) : (s.setReg o v).spn = s.spn := rfl
@[simp] theorem State.setReg_hif0 (o : Nat) (v : W32) : (s.setReg o v).hif0 = s.hif0 := rfl
@[simp] theorem State.setReg_hif1 (o : Nat) (v : W32) : (s.setReg o v).hif1 = s.hif1 := rfl
@[simp] theorem State.setReg_nvq (o : Nat) (v : W32) : (s.setReg o v).nvq = s.nvq := rfl
@[simp] theorem State.setReg_gs (o : Nat) (v : W32) : (s.setReg o v).gs = s.gs := rfl
@[simp] theorem State.setReg_svc (o : Nat) (v : W32) : (s.setReg o v).svc = s.svc := rfl
@[simp] theorem State.setReg_pwr (o : Nat) (v : W32) : (s.setReg o v).pwr = s.pwr := rfl
@[simp] theorem State.setReg_ptl (o : Nat) (v : W32) : (s.setReg o v).ptl = s.ptl := rfl
@[simp] theorem State.setReg_csc (o : Nat) (v : W32) : (s.setReg o v).csc = s.csc := rfl
@[simp] theorem State.setReg_dmaRemote (o : Nat) (v : W32) : (s.setReg o v).dmaRemote = s.dmaRemote := rfl
@[simp] theorem State.setReg_dmaLast (o : Nat) (v : W32) : (s.setReg o v).dmaLast = s.dmaLast := rfl

/-! ### setAct -/

@[simp] theorem State.setAct_pending (o : Nat) (v : W32) : (s.setAct o v).pending = s.pending := rfl
@[simp] theorem State.setAct_now (o : Nat) (v : W32) : (s.setAct o v).now = s.now := rfl
@[simp] theorem State.setAct_timeBase (o : Nat) (v : W32) : (s.setAct o v).timeBase = s.timeBase := rfl
@[simp] theorem State.setAct_fresh (o : Nat) (v : W32) : (s.setAct o v).fresh = s.fresh := rfl
@[simp] theorem State.setAct_out (o : Nat) (v : W32) : (s.setAct o v).out = s.out := rfl
@[simp] theorem State.setAct_rdata (o : Nat) (v : W32) : (s.setAct o v).rdata = s.rdata := rfl
@[simp] theorem State.setAct_regs (o : Nat) (v : W32) : (s.setAct o v).regs = s.regs := rfl
@[simp] theorem State.setAct_pairHold (o : Nat) (v : W32) : (s.setAct o v).pairHold = s.pairHold := rfl
@[simp] theorem State.setAct_pairPend (o : Nat) (v : W32) : (s.setAct o v).pairPend = s.pairPend := rfl
@[simp] theorem State.setAct_thrs (o : Nat) (v : W32) : (s.setAct o v).thrs = s.thrs := rfl
@[simp] theorem State.setAct_campQ (o : Nat) (v : W32) : (s.setAct o v).campQ = s.campQ := rfl
@[simp] theorem State.setAct_heldMsgs (o : Nat) (v : W32) : (s.setAct o v).heldMsgs = s.heldMsgs := rfl
@[simp] theorem State.setAct_evSeen (o : Nat) (v : W32) : (s.setAct o v).evSeen = s.evSeen := rfl
@[simp] theorem State.setAct_rot (o : Nat) (v : W32) : (s.setAct o v).rot = s.rot := rfl
@[simp] theorem State.setAct_ic (o : Nat) (v : W32) : (s.setAct o v).ic = s.ic := rfl
@[simp] theorem State.setAct_cyc (o : Nat) (v : W32) : (s.setAct o v).cyc = s.cyc := rfl
@[simp] theorem State.setAct_divFree (o : Nat) (v : W32) : (s.setAct o v).divFree = s.divFree := rfl
@[simp] theorem State.setAct_ucs (o : Nat) (v : W32) : (s.setAct o v).ucs = s.ucs := rfl
@[simp] theorem State.setAct_mem (o : Nat) (v : W32) : (s.setAct o v).mem = s.mem := rfl
@[simp] theorem State.setAct_evt (o : Nat) (v : W32) : (s.setAct o v).evt = s.evt := rfl
@[simp] theorem State.setAct_med0 (o : Nat) (v : W32) : (s.setAct o v).med0 = s.med0 := rfl
@[simp] theorem State.setAct_med1 (o : Nat) (v : W32) : (s.setAct o v).med1 = s.med1 := rfl
@[simp] theorem State.setAct_dch (o : Nat) (v : W32) : (s.setAct o v).dch = s.dch := rfl
@[simp] theorem State.setAct_sha (o : Nat) (v : W32) : (s.setAct o v).sha = s.sha := rfl
@[simp] theorem State.setAct_gctx (o : Nat) (v : W32) : (s.setAct o v).gctx = s.gctx := rfl
@[simp] theorem State.setAct_gact0 (o : Nat) (v : W32) : (s.setAct o v).gact0 = s.gact0 := rfl
@[simp] theorem State.setAct_gact1 (o : Nat) (v : W32) : (s.setAct o v).gact1 = s.gact1 := rfl
@[simp] theorem State.setAct_gylQ (o : Nat) (v : W32) : (s.setAct o v).gylQ = s.gylQ := rfl
@[simp] theorem State.setAct_gylRun (o : Nat) (v : W32) : (s.setAct o v).gylRun = s.gylRun := rfl
@[simp] theorem State.setAct_sec (o : Nat) (v : W32) : (s.setAct o v).sec = s.sec := rfl
@[simp] theorem State.setAct_fw (o : Nat) (v : W32) : (s.setAct o v).fw = s.fw := rfl
@[simp] theorem State.setAct_spn (o : Nat) (v : W32) : (s.setAct o v).spn = s.spn := rfl
@[simp] theorem State.setAct_hif0 (o : Nat) (v : W32) : (s.setAct o v).hif0 = s.hif0 := rfl
@[simp] theorem State.setAct_hif1 (o : Nat) (v : W32) : (s.setAct o v).hif1 = s.hif1 := rfl
@[simp] theorem State.setAct_nvq (o : Nat) (v : W32) : (s.setAct o v).nvq = s.nvq := rfl
@[simp] theorem State.setAct_gs (o : Nat) (v : W32) : (s.setAct o v).gs = s.gs := rfl
@[simp] theorem State.setAct_svc (o : Nat) (v : W32) : (s.setAct o v).svc = s.svc := rfl
@[simp] theorem State.setAct_pwr (o : Nat) (v : W32) : (s.setAct o v).pwr = s.pwr := rfl
@[simp] theorem State.setAct_ptl (o : Nat) (v : W32) : (s.setAct o v).ptl = s.ptl := rfl
@[simp] theorem State.setAct_csc (o : Nat) (v : W32) : (s.setAct o v).csc = s.csc := rfl
@[simp] theorem State.setAct_dmaRemote (o : Nat) (v : W32) : (s.setAct o v).dmaRemote = s.dmaRemote := rfl
@[simp] theorem State.setAct_dmaLast (o : Nat) (v : W32) : (s.setAct o v).dmaLast = s.dmaLast := rfl

/-! ### emit -/

@[simp] theorem State.emit_pending (e : OutEvent) : (s.emit e).pending = s.pending := rfl
@[simp] theorem State.emit_now (e : OutEvent) : (s.emit e).now = s.now := rfl
@[simp] theorem State.emit_timeBase (e : OutEvent) : (s.emit e).timeBase = s.timeBase := rfl
@[simp] theorem State.emit_fresh (e : OutEvent) : (s.emit e).fresh = s.fresh := rfl
@[simp] theorem State.emit_rdata (e : OutEvent) : (s.emit e).rdata = s.rdata := rfl
@[simp] theorem State.emit_regs (e : OutEvent) : (s.emit e).regs = s.regs := rfl
@[simp] theorem State.emit_active (e : OutEvent) : (s.emit e).active = s.active := rfl
@[simp] theorem State.emit_pairHold (e : OutEvent) : (s.emit e).pairHold = s.pairHold := rfl
@[simp] theorem State.emit_pairPend (e : OutEvent) : (s.emit e).pairPend = s.pairPend := rfl
@[simp] theorem State.emit_thrs (e : OutEvent) : (s.emit e).thrs = s.thrs := rfl
@[simp] theorem State.emit_campQ (e : OutEvent) : (s.emit e).campQ = s.campQ := rfl
@[simp] theorem State.emit_heldMsgs (e : OutEvent) : (s.emit e).heldMsgs = s.heldMsgs := rfl
@[simp] theorem State.emit_evSeen (e : OutEvent) : (s.emit e).evSeen = s.evSeen := rfl
@[simp] theorem State.emit_rot (e : OutEvent) : (s.emit e).rot = s.rot := rfl
@[simp] theorem State.emit_ic (e : OutEvent) : (s.emit e).ic = s.ic := rfl
@[simp] theorem State.emit_cyc (e : OutEvent) : (s.emit e).cyc = s.cyc := rfl
@[simp] theorem State.emit_divFree (e : OutEvent) : (s.emit e).divFree = s.divFree := rfl
@[simp] theorem State.emit_ucs (e : OutEvent) : (s.emit e).ucs = s.ucs := rfl
@[simp] theorem State.emit_mem (e : OutEvent) : (s.emit e).mem = s.mem := rfl
@[simp] theorem State.emit_evt (e : OutEvent) : (s.emit e).evt = s.evt := rfl
@[simp] theorem State.emit_med0 (e : OutEvent) : (s.emit e).med0 = s.med0 := rfl
@[simp] theorem State.emit_med1 (e : OutEvent) : (s.emit e).med1 = s.med1 := rfl
@[simp] theorem State.emit_dch (e : OutEvent) : (s.emit e).dch = s.dch := rfl
@[simp] theorem State.emit_sha (e : OutEvent) : (s.emit e).sha = s.sha := rfl
@[simp] theorem State.emit_gctx (e : OutEvent) : (s.emit e).gctx = s.gctx := rfl
@[simp] theorem State.emit_gact0 (e : OutEvent) : (s.emit e).gact0 = s.gact0 := rfl
@[simp] theorem State.emit_gact1 (e : OutEvent) : (s.emit e).gact1 = s.gact1 := rfl
@[simp] theorem State.emit_gylQ (e : OutEvent) : (s.emit e).gylQ = s.gylQ := rfl
@[simp] theorem State.emit_gylRun (e : OutEvent) : (s.emit e).gylRun = s.gylRun := rfl
@[simp] theorem State.emit_sec (e : OutEvent) : (s.emit e).sec = s.sec := rfl
@[simp] theorem State.emit_fw (e : OutEvent) : (s.emit e).fw = s.fw := rfl
@[simp] theorem State.emit_spn (e : OutEvent) : (s.emit e).spn = s.spn := rfl
@[simp] theorem State.emit_hif0 (e : OutEvent) : (s.emit e).hif0 = s.hif0 := rfl
@[simp] theorem State.emit_hif1 (e : OutEvent) : (s.emit e).hif1 = s.hif1 := rfl
@[simp] theorem State.emit_nvq (e : OutEvent) : (s.emit e).nvq = s.nvq := rfl
@[simp] theorem State.emit_gs (e : OutEvent) : (s.emit e).gs = s.gs := rfl
@[simp] theorem State.emit_svc (e : OutEvent) : (s.emit e).svc = s.svc := rfl
@[simp] theorem State.emit_pwr (e : OutEvent) : (s.emit e).pwr = s.pwr := rfl
@[simp] theorem State.emit_ptl (e : OutEvent) : (s.emit e).ptl = s.ptl := rfl
@[simp] theorem State.emit_csc (e : OutEvent) : (s.emit e).csc = s.csc := rfl
@[simp] theorem State.emit_dmaRemote (e : OutEvent) : (s.emit e).dmaRemote = s.dmaRemote := rfl
@[simp] theorem State.emit_dmaLast (e : OutEvent) : (s.emit e).dmaLast = s.dmaLast := rfl

/-! ### emits -/

@[simp] theorem State.emits_pending (l : List OutEvent) : (s.emits l).pending = s.pending := rfl
@[simp] theorem State.emits_now (l : List OutEvent) : (s.emits l).now = s.now := rfl
@[simp] theorem State.emits_timeBase (l : List OutEvent) : (s.emits l).timeBase = s.timeBase := rfl
@[simp] theorem State.emits_fresh (l : List OutEvent) : (s.emits l).fresh = s.fresh := rfl
@[simp] theorem State.emits_rdata (l : List OutEvent) : (s.emits l).rdata = s.rdata := rfl
@[simp] theorem State.emits_regs (l : List OutEvent) : (s.emits l).regs = s.regs := rfl
@[simp] theorem State.emits_active (l : List OutEvent) : (s.emits l).active = s.active := rfl
@[simp] theorem State.emits_pairHold (l : List OutEvent) : (s.emits l).pairHold = s.pairHold := rfl
@[simp] theorem State.emits_pairPend (l : List OutEvent) : (s.emits l).pairPend = s.pairPend := rfl
@[simp] theorem State.emits_thrs (l : List OutEvent) : (s.emits l).thrs = s.thrs := rfl
@[simp] theorem State.emits_campQ (l : List OutEvent) : (s.emits l).campQ = s.campQ := rfl
@[simp] theorem State.emits_heldMsgs (l : List OutEvent) : (s.emits l).heldMsgs = s.heldMsgs := rfl
@[simp] theorem State.emits_evSeen (l : List OutEvent) : (s.emits l).evSeen = s.evSeen := rfl
@[simp] theorem State.emits_rot (l : List OutEvent) : (s.emits l).rot = s.rot := rfl
@[simp] theorem State.emits_ic (l : List OutEvent) : (s.emits l).ic = s.ic := rfl
@[simp] theorem State.emits_cyc (l : List OutEvent) : (s.emits l).cyc = s.cyc := rfl
@[simp] theorem State.emits_divFree (l : List OutEvent) : (s.emits l).divFree = s.divFree := rfl
@[simp] theorem State.emits_ucs (l : List OutEvent) : (s.emits l).ucs = s.ucs := rfl
@[simp] theorem State.emits_mem (l : List OutEvent) : (s.emits l).mem = s.mem := rfl
@[simp] theorem State.emits_evt (l : List OutEvent) : (s.emits l).evt = s.evt := rfl
@[simp] theorem State.emits_med0 (l : List OutEvent) : (s.emits l).med0 = s.med0 := rfl
@[simp] theorem State.emits_med1 (l : List OutEvent) : (s.emits l).med1 = s.med1 := rfl
@[simp] theorem State.emits_dch (l : List OutEvent) : (s.emits l).dch = s.dch := rfl
@[simp] theorem State.emits_sha (l : List OutEvent) : (s.emits l).sha = s.sha := rfl
@[simp] theorem State.emits_gctx (l : List OutEvent) : (s.emits l).gctx = s.gctx := rfl
@[simp] theorem State.emits_gact0 (l : List OutEvent) : (s.emits l).gact0 = s.gact0 := rfl
@[simp] theorem State.emits_gact1 (l : List OutEvent) : (s.emits l).gact1 = s.gact1 := rfl
@[simp] theorem State.emits_gylQ (l : List OutEvent) : (s.emits l).gylQ = s.gylQ := rfl
@[simp] theorem State.emits_gylRun (l : List OutEvent) : (s.emits l).gylRun = s.gylRun := rfl
@[simp] theorem State.emits_sec (l : List OutEvent) : (s.emits l).sec = s.sec := rfl
@[simp] theorem State.emits_fw (l : List OutEvent) : (s.emits l).fw = s.fw := rfl
@[simp] theorem State.emits_spn (l : List OutEvent) : (s.emits l).spn = s.spn := rfl
@[simp] theorem State.emits_hif0 (l : List OutEvent) : (s.emits l).hif0 = s.hif0 := rfl
@[simp] theorem State.emits_hif1 (l : List OutEvent) : (s.emits l).hif1 = s.hif1 := rfl
@[simp] theorem State.emits_nvq (l : List OutEvent) : (s.emits l).nvq = s.nvq := rfl
@[simp] theorem State.emits_gs (l : List OutEvent) : (s.emits l).gs = s.gs := rfl
@[simp] theorem State.emits_svc (l : List OutEvent) : (s.emits l).svc = s.svc := rfl
@[simp] theorem State.emits_pwr (l : List OutEvent) : (s.emits l).pwr = s.pwr := rfl
@[simp] theorem State.emits_ptl (l : List OutEvent) : (s.emits l).ptl = s.ptl := rfl
@[simp] theorem State.emits_csc (l : List OutEvent) : (s.emits l).csc = s.csc := rfl
@[simp] theorem State.emits_dmaRemote (l : List OutEvent) : (s.emits l).dmaRemote = s.dmaRemote := rfl
@[simp] theorem State.emits_dmaLast (l : List OutEvent) : (s.emits l).dmaLast = s.dmaLast := rfl

/-! ### settle -/

@[simp] theorem State.settle_pending : s.settle.pending = s.pending := rfl
@[simp] theorem State.settle_now : s.settle.now = s.now := rfl
@[simp] theorem State.settle_timeBase : s.settle.timeBase = s.timeBase := rfl
@[simp] theorem State.settle_fresh : s.settle.fresh = s.fresh := rfl
@[simp] theorem State.settle_out : s.settle.out = s.out := rfl
@[simp] theorem State.settle_rdata : s.settle.rdata = s.rdata := rfl
@[simp] theorem State.settle_regs : s.settle.regs = s.regs := rfl
@[simp] theorem State.settle_active : s.settle.active = s.active := rfl
@[simp] theorem State.settle_pairHold : s.settle.pairHold = s.pairHold := rfl
@[simp] theorem State.settle_pairPend : s.settle.pairPend = s.pairPend := rfl
@[simp] theorem State.settle_thrs : s.settle.thrs = s.thrs := rfl
@[simp] theorem State.settle_campQ : s.settle.campQ = s.campQ := rfl
@[simp] theorem State.settle_heldMsgs : s.settle.heldMsgs = s.heldMsgs := rfl
@[simp] theorem State.settle_rot : s.settle.rot = s.rot := rfl
@[simp] theorem State.settle_ic : s.settle.ic = s.ic := rfl
@[simp] theorem State.settle_cyc : s.settle.cyc = s.cyc := rfl
@[simp] theorem State.settle_divFree : s.settle.divFree = s.divFree := rfl
@[simp] theorem State.settle_ucs : s.settle.ucs = s.ucs := rfl
@[simp] theorem State.settle_mem : s.settle.mem = s.mem := rfl
@[simp] theorem State.settle_evt : s.settle.evt = s.evt := rfl
@[simp] theorem State.settle_med0 : s.settle.med0 = s.med0 := rfl
@[simp] theorem State.settle_med1 : s.settle.med1 = s.med1 := rfl
@[simp] theorem State.settle_dch : s.settle.dch = s.dch := rfl
@[simp] theorem State.settle_sha : s.settle.sha = s.sha := rfl
@[simp] theorem State.settle_gctx : s.settle.gctx = s.gctx := rfl
@[simp] theorem State.settle_gact0 : s.settle.gact0 = s.gact0 := rfl
@[simp] theorem State.settle_gact1 : s.settle.gact1 = s.gact1 := rfl
@[simp] theorem State.settle_gylQ : s.settle.gylQ = s.gylQ := rfl
@[simp] theorem State.settle_gylRun : s.settle.gylRun = s.gylRun := rfl
@[simp] theorem State.settle_sec : s.settle.sec = s.sec := rfl
@[simp] theorem State.settle_fw : s.settle.fw = s.fw := rfl
@[simp] theorem State.settle_spn : s.settle.spn = s.spn := rfl
@[simp] theorem State.settle_hif0 : s.settle.hif0 = s.hif0 := rfl
@[simp] theorem State.settle_hif1 : s.settle.hif1 = s.hif1 := rfl
@[simp] theorem State.settle_nvq : s.settle.nvq = s.nvq := rfl
@[simp] theorem State.settle_gs : s.settle.gs = s.gs := rfl
@[simp] theorem State.settle_svc : s.settle.svc = s.svc := rfl
@[simp] theorem State.settle_pwr : s.settle.pwr = s.pwr := rfl
@[simp] theorem State.settle_ptl : s.settle.ptl = s.ptl := rfl
@[simp] theorem State.settle_csc : s.settle.csc = s.csc := rfl
@[simp] theorem State.settle_dmaRemote : s.settle.dmaRemote = s.dmaRemote := rfl
@[simp] theorem State.settle_dmaLast : s.settle.dmaLast = s.dmaLast := rfl

/-! ### setThr -/

@[simp] theorem State.setThr_pending (p : Nat) (t : Thread) : (s.setThr p t).pending = s.pending := rfl
@[simp] theorem State.setThr_now (p : Nat) (t : Thread) : (s.setThr p t).now = s.now := rfl
@[simp] theorem State.setThr_timeBase (p : Nat) (t : Thread) : (s.setThr p t).timeBase = s.timeBase := rfl
@[simp] theorem State.setThr_fresh (p : Nat) (t : Thread) : (s.setThr p t).fresh = s.fresh := rfl
@[simp] theorem State.setThr_out (p : Nat) (t : Thread) : (s.setThr p t).out = s.out := rfl
@[simp] theorem State.setThr_rdata (p : Nat) (t : Thread) : (s.setThr p t).rdata = s.rdata := rfl
@[simp] theorem State.setThr_regs (p : Nat) (t : Thread) : (s.setThr p t).regs = s.regs := rfl
@[simp] theorem State.setThr_active (p : Nat) (t : Thread) : (s.setThr p t).active = s.active := rfl
@[simp] theorem State.setThr_pairHold (p : Nat) (t : Thread) : (s.setThr p t).pairHold = s.pairHold := rfl
@[simp] theorem State.setThr_pairPend (p : Nat) (t : Thread) : (s.setThr p t).pairPend = s.pairPend := rfl
@[simp] theorem State.setThr_campQ (p : Nat) (t : Thread) : (s.setThr p t).campQ = s.campQ := rfl
@[simp] theorem State.setThr_heldMsgs (p : Nat) (t : Thread) : (s.setThr p t).heldMsgs = s.heldMsgs := rfl
@[simp] theorem State.setThr_evSeen (p : Nat) (t : Thread) : (s.setThr p t).evSeen = s.evSeen := rfl
@[simp] theorem State.setThr_rot (p : Nat) (t : Thread) : (s.setThr p t).rot = s.rot := rfl
@[simp] theorem State.setThr_ic (p : Nat) (t : Thread) : (s.setThr p t).ic = s.ic := rfl
@[simp] theorem State.setThr_cyc (p : Nat) (t : Thread) : (s.setThr p t).cyc = s.cyc := rfl
@[simp] theorem State.setThr_divFree (p : Nat) (t : Thread) : (s.setThr p t).divFree = s.divFree := rfl
@[simp] theorem State.setThr_ucs (p : Nat) (t : Thread) : (s.setThr p t).ucs = s.ucs := rfl
@[simp] theorem State.setThr_mem (p : Nat) (t : Thread) : (s.setThr p t).mem = s.mem := rfl
@[simp] theorem State.setThr_evt (p : Nat) (t : Thread) : (s.setThr p t).evt = s.evt := rfl
@[simp] theorem State.setThr_med0 (p : Nat) (t : Thread) : (s.setThr p t).med0 = s.med0 := rfl
@[simp] theorem State.setThr_med1 (p : Nat) (t : Thread) : (s.setThr p t).med1 = s.med1 := rfl
@[simp] theorem State.setThr_dch (p : Nat) (t : Thread) : (s.setThr p t).dch = s.dch := rfl
@[simp] theorem State.setThr_sha (p : Nat) (t : Thread) : (s.setThr p t).sha = s.sha := rfl
@[simp] theorem State.setThr_gctx (p : Nat) (t : Thread) : (s.setThr p t).gctx = s.gctx := rfl
@[simp] theorem State.setThr_gact0 (p : Nat) (t : Thread) : (s.setThr p t).gact0 = s.gact0 := rfl
@[simp] theorem State.setThr_gact1 (p : Nat) (t : Thread) : (s.setThr p t).gact1 = s.gact1 := rfl
@[simp] theorem State.setThr_gylQ (p : Nat) (t : Thread) : (s.setThr p t).gylQ = s.gylQ := rfl
@[simp] theorem State.setThr_gylRun (p : Nat) (t : Thread) : (s.setThr p t).gylRun = s.gylRun := rfl
@[simp] theorem State.setThr_sec (p : Nat) (t : Thread) : (s.setThr p t).sec = s.sec := rfl
@[simp] theorem State.setThr_fw (p : Nat) (t : Thread) : (s.setThr p t).fw = s.fw := rfl
@[simp] theorem State.setThr_spn (p : Nat) (t : Thread) : (s.setThr p t).spn = s.spn := rfl
@[simp] theorem State.setThr_hif0 (p : Nat) (t : Thread) : (s.setThr p t).hif0 = s.hif0 := rfl
@[simp] theorem State.setThr_hif1 (p : Nat) (t : Thread) : (s.setThr p t).hif1 = s.hif1 := rfl
@[simp] theorem State.setThr_nvq (p : Nat) (t : Thread) : (s.setThr p t).nvq = s.nvq := rfl
@[simp] theorem State.setThr_gs (p : Nat) (t : Thread) : (s.setThr p t).gs = s.gs := rfl
@[simp] theorem State.setThr_svc (p : Nat) (t : Thread) : (s.setThr p t).svc = s.svc := rfl
@[simp] theorem State.setThr_pwr (p : Nat) (t : Thread) : (s.setThr p t).pwr = s.pwr := rfl
@[simp] theorem State.setThr_ptl (p : Nat) (t : Thread) : (s.setThr p t).ptl = s.ptl := rfl
@[simp] theorem State.setThr_csc (p : Nat) (t : Thread) : (s.setThr p t).csc = s.csc := rfl
@[simp] theorem State.setThr_dmaRemote (p : Nat) (t : Thread) : (s.setThr p t).dmaRemote = s.dmaRemote := rfl
@[simp] theorem State.setThr_dmaLast (p : Nat) (t : Thread) : (s.setThr p t).dmaLast = s.dmaLast := rfl

/-! ### setQueue -/

@[simp] theorem State.setQueue_pending (c : Nat) (q : List Msg) : (s.setQueue c q).pending = s.pending := rfl
@[simp] theorem State.setQueue_now (c : Nat) (q : List Msg) : (s.setQueue c q).now = s.now := rfl
@[simp] theorem State.setQueue_timeBase (c : Nat) (q : List Msg) : (s.setQueue c q).timeBase = s.timeBase := rfl
@[simp] theorem State.setQueue_fresh (c : Nat) (q : List Msg) : (s.setQueue c q).fresh = s.fresh := rfl
@[simp] theorem State.setQueue_out (c : Nat) (q : List Msg) : (s.setQueue c q).out = s.out := rfl
@[simp] theorem State.setQueue_rdata (c : Nat) (q : List Msg) : (s.setQueue c q).rdata = s.rdata := rfl
@[simp] theorem State.setQueue_regs (c : Nat) (q : List Msg) : (s.setQueue c q).regs = s.regs := rfl
@[simp] theorem State.setQueue_active (c : Nat) (q : List Msg) : (s.setQueue c q).active = s.active := rfl
@[simp] theorem State.setQueue_pairHold (c : Nat) (q : List Msg) : (s.setQueue c q).pairHold = s.pairHold := rfl
@[simp] theorem State.setQueue_pairPend (c : Nat) (q : List Msg) : (s.setQueue c q).pairPend = s.pairPend := rfl
@[simp] theorem State.setQueue_thrs (c : Nat) (q : List Msg) : (s.setQueue c q).thrs = s.thrs := rfl
@[simp] theorem State.setQueue_heldMsgs (c : Nat) (q : List Msg) : (s.setQueue c q).heldMsgs = s.heldMsgs := rfl
@[simp] theorem State.setQueue_evSeen (c : Nat) (q : List Msg) : (s.setQueue c q).evSeen = s.evSeen := rfl
@[simp] theorem State.setQueue_rot (c : Nat) (q : List Msg) : (s.setQueue c q).rot = s.rot := rfl
@[simp] theorem State.setQueue_ic (c : Nat) (q : List Msg) : (s.setQueue c q).ic = s.ic := rfl
@[simp] theorem State.setQueue_cyc (c : Nat) (q : List Msg) : (s.setQueue c q).cyc = s.cyc := rfl
@[simp] theorem State.setQueue_divFree (c : Nat) (q : List Msg) : (s.setQueue c q).divFree = s.divFree := rfl
@[simp] theorem State.setQueue_ucs (c : Nat) (q : List Msg) : (s.setQueue c q).ucs = s.ucs := rfl
@[simp] theorem State.setQueue_mem (c : Nat) (q : List Msg) : (s.setQueue c q).mem = s.mem := rfl
@[simp] theorem State.setQueue_evt (c : Nat) (q : List Msg) : (s.setQueue c q).evt = s.evt := rfl
@[simp] theorem State.setQueue_med0 (c : Nat) (q : List Msg) : (s.setQueue c q).med0 = s.med0 := rfl
@[simp] theorem State.setQueue_med1 (c : Nat) (q : List Msg) : (s.setQueue c q).med1 = s.med1 := rfl
@[simp] theorem State.setQueue_dch (c : Nat) (q : List Msg) : (s.setQueue c q).dch = s.dch := rfl
@[simp] theorem State.setQueue_sha (c : Nat) (q : List Msg) : (s.setQueue c q).sha = s.sha := rfl
@[simp] theorem State.setQueue_gctx (c : Nat) (q : List Msg) : (s.setQueue c q).gctx = s.gctx := rfl
@[simp] theorem State.setQueue_gact0 (c : Nat) (q : List Msg) : (s.setQueue c q).gact0 = s.gact0 := rfl
@[simp] theorem State.setQueue_gact1 (c : Nat) (q : List Msg) : (s.setQueue c q).gact1 = s.gact1 := rfl
@[simp] theorem State.setQueue_gylQ (c : Nat) (q : List Msg) : (s.setQueue c q).gylQ = s.gylQ := rfl
@[simp] theorem State.setQueue_gylRun (c : Nat) (q : List Msg) : (s.setQueue c q).gylRun = s.gylRun := rfl
@[simp] theorem State.setQueue_sec (c : Nat) (q : List Msg) : (s.setQueue c q).sec = s.sec := rfl
@[simp] theorem State.setQueue_fw (c : Nat) (q : List Msg) : (s.setQueue c q).fw = s.fw := rfl
@[simp] theorem State.setQueue_spn (c : Nat) (q : List Msg) : (s.setQueue c q).spn = s.spn := rfl
@[simp] theorem State.setQueue_hif0 (c : Nat) (q : List Msg) : (s.setQueue c q).hif0 = s.hif0 := rfl
@[simp] theorem State.setQueue_hif1 (c : Nat) (q : List Msg) : (s.setQueue c q).hif1 = s.hif1 := rfl
@[simp] theorem State.setQueue_nvq (c : Nat) (q : List Msg) : (s.setQueue c q).nvq = s.nvq := rfl
@[simp] theorem State.setQueue_gs (c : Nat) (q : List Msg) : (s.setQueue c q).gs = s.gs := rfl
@[simp] theorem State.setQueue_svc (c : Nat) (q : List Msg) : (s.setQueue c q).svc = s.svc := rfl
@[simp] theorem State.setQueue_pwr (c : Nat) (q : List Msg) : (s.setQueue c q).pwr = s.pwr := rfl
@[simp] theorem State.setQueue_ptl (c : Nat) (q : List Msg) : (s.setQueue c q).ptl = s.ptl := rfl
@[simp] theorem State.setQueue_csc (c : Nat) (q : List Msg) : (s.setQueue c q).csc = s.csc := rfl
@[simp] theorem State.setQueue_dmaRemote (c : Nat) (q : List Msg) : (s.setQueue c q).dmaRemote = s.dmaRemote := rfl
@[simp] theorem State.setQueue_dmaLast (c : Nat) (q : List Msg) : (s.setQueue c q).dmaLast = s.dmaLast := rfl

/-! ### setIc -/

@[simp] theorem State.setIc_pending (k : Nat) (l : List IcLine) : (s.setIc k l).pending = s.pending := rfl
@[simp] theorem State.setIc_now (k : Nat) (l : List IcLine) : (s.setIc k l).now = s.now := rfl
@[simp] theorem State.setIc_timeBase (k : Nat) (l : List IcLine) : (s.setIc k l).timeBase = s.timeBase := rfl
@[simp] theorem State.setIc_fresh (k : Nat) (l : List IcLine) : (s.setIc k l).fresh = s.fresh := rfl
@[simp] theorem State.setIc_out (k : Nat) (l : List IcLine) : (s.setIc k l).out = s.out := rfl
@[simp] theorem State.setIc_rdata (k : Nat) (l : List IcLine) : (s.setIc k l).rdata = s.rdata := rfl
@[simp] theorem State.setIc_regs (k : Nat) (l : List IcLine) : (s.setIc k l).regs = s.regs := rfl
@[simp] theorem State.setIc_active (k : Nat) (l : List IcLine) : (s.setIc k l).active = s.active := rfl
@[simp] theorem State.setIc_pairHold (k : Nat) (l : List IcLine) : (s.setIc k l).pairHold = s.pairHold := rfl
@[simp] theorem State.setIc_pairPend (k : Nat) (l : List IcLine) : (s.setIc k l).pairPend = s.pairPend := rfl
@[simp] theorem State.setIc_thrs (k : Nat) (l : List IcLine) : (s.setIc k l).thrs = s.thrs := rfl
@[simp] theorem State.setIc_campQ (k : Nat) (l : List IcLine) : (s.setIc k l).campQ = s.campQ := rfl
@[simp] theorem State.setIc_heldMsgs (k : Nat) (l : List IcLine) : (s.setIc k l).heldMsgs = s.heldMsgs := rfl
@[simp] theorem State.setIc_evSeen (k : Nat) (l : List IcLine) : (s.setIc k l).evSeen = s.evSeen := rfl
@[simp] theorem State.setIc_rot (k : Nat) (l : List IcLine) : (s.setIc k l).rot = s.rot := rfl
@[simp] theorem State.setIc_cyc (k : Nat) (l : List IcLine) : (s.setIc k l).cyc = s.cyc := rfl
@[simp] theorem State.setIc_divFree (k : Nat) (l : List IcLine) : (s.setIc k l).divFree = s.divFree := rfl
@[simp] theorem State.setIc_ucs (k : Nat) (l : List IcLine) : (s.setIc k l).ucs = s.ucs := rfl
@[simp] theorem State.setIc_mem (k : Nat) (l : List IcLine) : (s.setIc k l).mem = s.mem := rfl
@[simp] theorem State.setIc_evt (k : Nat) (l : List IcLine) : (s.setIc k l).evt = s.evt := rfl
@[simp] theorem State.setIc_med0 (k : Nat) (l : List IcLine) : (s.setIc k l).med0 = s.med0 := rfl
@[simp] theorem State.setIc_med1 (k : Nat) (l : List IcLine) : (s.setIc k l).med1 = s.med1 := rfl
@[simp] theorem State.setIc_dch (k : Nat) (l : List IcLine) : (s.setIc k l).dch = s.dch := rfl
@[simp] theorem State.setIc_sha (k : Nat) (l : List IcLine) : (s.setIc k l).sha = s.sha := rfl
@[simp] theorem State.setIc_gctx (k : Nat) (l : List IcLine) : (s.setIc k l).gctx = s.gctx := rfl
@[simp] theorem State.setIc_gact0 (k : Nat) (l : List IcLine) : (s.setIc k l).gact0 = s.gact0 := rfl
@[simp] theorem State.setIc_gact1 (k : Nat) (l : List IcLine) : (s.setIc k l).gact1 = s.gact1 := rfl
@[simp] theorem State.setIc_gylQ (k : Nat) (l : List IcLine) : (s.setIc k l).gylQ = s.gylQ := rfl
@[simp] theorem State.setIc_gylRun (k : Nat) (l : List IcLine) : (s.setIc k l).gylRun = s.gylRun := rfl
@[simp] theorem State.setIc_sec (k : Nat) (l : List IcLine) : (s.setIc k l).sec = s.sec := rfl
@[simp] theorem State.setIc_fw (k : Nat) (l : List IcLine) : (s.setIc k l).fw = s.fw := rfl
@[simp] theorem State.setIc_spn (k : Nat) (l : List IcLine) : (s.setIc k l).spn = s.spn := rfl
@[simp] theorem State.setIc_hif0 (k : Nat) (l : List IcLine) : (s.setIc k l).hif0 = s.hif0 := rfl
@[simp] theorem State.setIc_hif1 (k : Nat) (l : List IcLine) : (s.setIc k l).hif1 = s.hif1 := rfl
@[simp] theorem State.setIc_nvq (k : Nat) (l : List IcLine) : (s.setIc k l).nvq = s.nvq := rfl
@[simp] theorem State.setIc_gs (k : Nat) (l : List IcLine) : (s.setIc k l).gs = s.gs := rfl
@[simp] theorem State.setIc_svc (k : Nat) (l : List IcLine) : (s.setIc k l).svc = s.svc := rfl
@[simp] theorem State.setIc_pwr (k : Nat) (l : List IcLine) : (s.setIc k l).pwr = s.pwr := rfl
@[simp] theorem State.setIc_ptl (k : Nat) (l : List IcLine) : (s.setIc k l).ptl = s.ptl := rfl
@[simp] theorem State.setIc_csc (k : Nat) (l : List IcLine) : (s.setIc k l).csc = s.csc := rfl
@[simp] theorem State.setIc_dmaRemote (k : Nat) (l : List IcLine) : (s.setIc k l).dmaRemote = s.dmaRemote := rfl
@[simp] theorem State.setIc_dmaLast (k : Nat) (l : List IcLine) : (s.setIc k l).dmaLast = s.dmaLast := rfl

/-! ### setUcs -/

@[simp] theorem State.setUcs_pending (u : Ucs) : (s.setUcs u).pending = s.pending := rfl
@[simp] theorem State.setUcs_now (u : Ucs) : (s.setUcs u).now = s.now := rfl
@[simp] theorem State.setUcs_timeBase (u : Ucs) : (s.setUcs u).timeBase = s.timeBase := rfl
@[simp] theorem State.setUcs_fresh (u : Ucs) : (s.setUcs u).fresh = s.fresh := rfl
@[simp] theorem State.setUcs_out (u : Ucs) : (s.setUcs u).out = s.out := rfl
@[simp] theorem State.setUcs_rdata (u : Ucs) : (s.setUcs u).rdata = s.rdata := rfl
@[simp] theorem State.setUcs_regs (u : Ucs) : (s.setUcs u).regs = s.regs := rfl
@[simp] theorem State.setUcs_active (u : Ucs) : (s.setUcs u).active = s.active := rfl
@[simp] theorem State.setUcs_pairHold (u : Ucs) : (s.setUcs u).pairHold = s.pairHold := rfl
@[simp] theorem State.setUcs_pairPend (u : Ucs) : (s.setUcs u).pairPend = s.pairPend := rfl
@[simp] theorem State.setUcs_thrs (u : Ucs) : (s.setUcs u).thrs = s.thrs := rfl
@[simp] theorem State.setUcs_campQ (u : Ucs) : (s.setUcs u).campQ = s.campQ := rfl
@[simp] theorem State.setUcs_heldMsgs (u : Ucs) : (s.setUcs u).heldMsgs = s.heldMsgs := rfl
@[simp] theorem State.setUcs_evSeen (u : Ucs) : (s.setUcs u).evSeen = s.evSeen := rfl
@[simp] theorem State.setUcs_rot (u : Ucs) : (s.setUcs u).rot = s.rot := rfl
@[simp] theorem State.setUcs_ic (u : Ucs) : (s.setUcs u).ic = s.ic := rfl
@[simp] theorem State.setUcs_cyc (u : Ucs) : (s.setUcs u).cyc = s.cyc := rfl
@[simp] theorem State.setUcs_divFree (u : Ucs) : (s.setUcs u).divFree = s.divFree := rfl
@[simp] theorem State.setUcs_mem (u : Ucs) : (s.setUcs u).mem = s.mem := rfl
@[simp] theorem State.setUcs_evt (u : Ucs) : (s.setUcs u).evt = s.evt := rfl
@[simp] theorem State.setUcs_med0 (u : Ucs) : (s.setUcs u).med0 = s.med0 := rfl
@[simp] theorem State.setUcs_med1 (u : Ucs) : (s.setUcs u).med1 = s.med1 := rfl
@[simp] theorem State.setUcs_dch (u : Ucs) : (s.setUcs u).dch = s.dch := rfl
@[simp] theorem State.setUcs_sha (u : Ucs) : (s.setUcs u).sha = s.sha := rfl
@[simp] theorem State.setUcs_gctx (u : Ucs) : (s.setUcs u).gctx = s.gctx := rfl
@[simp] theorem State.setUcs_gact0 (u : Ucs) : (s.setUcs u).gact0 = s.gact0 := rfl
@[simp] theorem State.setUcs_gact1 (u : Ucs) : (s.setUcs u).gact1 = s.gact1 := rfl
@[simp] theorem State.setUcs_gylQ (u : Ucs) : (s.setUcs u).gylQ = s.gylQ := rfl
@[simp] theorem State.setUcs_gylRun (u : Ucs) : (s.setUcs u).gylRun = s.gylRun := rfl
@[simp] theorem State.setUcs_sec (u : Ucs) : (s.setUcs u).sec = s.sec := rfl
@[simp] theorem State.setUcs_fw (u : Ucs) : (s.setUcs u).fw = s.fw := rfl
@[simp] theorem State.setUcs_spn (u : Ucs) : (s.setUcs u).spn = s.spn := rfl
@[simp] theorem State.setUcs_hif0 (u : Ucs) : (s.setUcs u).hif0 = s.hif0 := rfl
@[simp] theorem State.setUcs_hif1 (u : Ucs) : (s.setUcs u).hif1 = s.hif1 := rfl
@[simp] theorem State.setUcs_nvq (u : Ucs) : (s.setUcs u).nvq = s.nvq := rfl
@[simp] theorem State.setUcs_gs (u : Ucs) : (s.setUcs u).gs = s.gs := rfl
@[simp] theorem State.setUcs_svc (u : Ucs) : (s.setUcs u).svc = s.svc := rfl
@[simp] theorem State.setUcs_pwr (u : Ucs) : (s.setUcs u).pwr = s.pwr := rfl
@[simp] theorem State.setUcs_ptl (u : Ucs) : (s.setUcs u).ptl = s.ptl := rfl
@[simp] theorem State.setUcs_csc (u : Ucs) : (s.setUcs u).csc = s.csc := rfl
@[simp] theorem State.setUcs_dmaRemote (u : Ucs) : (s.setUcs u).dmaRemote = s.dmaRemote := rfl
@[simp] theorem State.setUcs_dmaLast (u : Ucs) : (s.setUcs u).dmaLast = s.dmaLast := rfl

/-! ### setDmaCh -/

@[simp] theorem State.setDmaCh_pending (c : Nat) (x : DmaCh) : (s.setDmaCh c x).pending = s.pending := rfl
@[simp] theorem State.setDmaCh_now (c : Nat) (x : DmaCh) : (s.setDmaCh c x).now = s.now := rfl
@[simp] theorem State.setDmaCh_timeBase (c : Nat) (x : DmaCh) : (s.setDmaCh c x).timeBase = s.timeBase := rfl
@[simp] theorem State.setDmaCh_fresh (c : Nat) (x : DmaCh) : (s.setDmaCh c x).fresh = s.fresh := rfl
@[simp] theorem State.setDmaCh_out (c : Nat) (x : DmaCh) : (s.setDmaCh c x).out = s.out := rfl
@[simp] theorem State.setDmaCh_rdata (c : Nat) (x : DmaCh) : (s.setDmaCh c x).rdata = s.rdata := rfl
@[simp] theorem State.setDmaCh_regs (c : Nat) (x : DmaCh) : (s.setDmaCh c x).regs = s.regs := rfl
@[simp] theorem State.setDmaCh_active (c : Nat) (x : DmaCh) : (s.setDmaCh c x).active = s.active := rfl
@[simp] theorem State.setDmaCh_pairHold (c : Nat) (x : DmaCh) : (s.setDmaCh c x).pairHold = s.pairHold := rfl
@[simp] theorem State.setDmaCh_pairPend (c : Nat) (x : DmaCh) : (s.setDmaCh c x).pairPend = s.pairPend := rfl
@[simp] theorem State.setDmaCh_thrs (c : Nat) (x : DmaCh) : (s.setDmaCh c x).thrs = s.thrs := rfl
@[simp] theorem State.setDmaCh_campQ (c : Nat) (x : DmaCh) : (s.setDmaCh c x).campQ = s.campQ := rfl
@[simp] theorem State.setDmaCh_heldMsgs (c : Nat) (x : DmaCh) : (s.setDmaCh c x).heldMsgs = s.heldMsgs := rfl
@[simp] theorem State.setDmaCh_evSeen (c : Nat) (x : DmaCh) : (s.setDmaCh c x).evSeen = s.evSeen := rfl
@[simp] theorem State.setDmaCh_rot (c : Nat) (x : DmaCh) : (s.setDmaCh c x).rot = s.rot := rfl
@[simp] theorem State.setDmaCh_ic (c : Nat) (x : DmaCh) : (s.setDmaCh c x).ic = s.ic := rfl
@[simp] theorem State.setDmaCh_cyc (c : Nat) (x : DmaCh) : (s.setDmaCh c x).cyc = s.cyc := rfl
@[simp] theorem State.setDmaCh_divFree (c : Nat) (x : DmaCh) : (s.setDmaCh c x).divFree = s.divFree := rfl
@[simp] theorem State.setDmaCh_ucs (c : Nat) (x : DmaCh) : (s.setDmaCh c x).ucs = s.ucs := rfl
@[simp] theorem State.setDmaCh_mem (c : Nat) (x : DmaCh) : (s.setDmaCh c x).mem = s.mem := rfl
@[simp] theorem State.setDmaCh_evt (c : Nat) (x : DmaCh) : (s.setDmaCh c x).evt = s.evt := rfl
@[simp] theorem State.setDmaCh_med0 (c : Nat) (x : DmaCh) : (s.setDmaCh c x).med0 = s.med0 := rfl
@[simp] theorem State.setDmaCh_med1 (c : Nat) (x : DmaCh) : (s.setDmaCh c x).med1 = s.med1 := rfl
@[simp] theorem State.setDmaCh_sha (c : Nat) (x : DmaCh) : (s.setDmaCh c x).sha = s.sha := rfl
@[simp] theorem State.setDmaCh_gctx (c : Nat) (x : DmaCh) : (s.setDmaCh c x).gctx = s.gctx := rfl
@[simp] theorem State.setDmaCh_gact0 (c : Nat) (x : DmaCh) : (s.setDmaCh c x).gact0 = s.gact0 := rfl
@[simp] theorem State.setDmaCh_gact1 (c : Nat) (x : DmaCh) : (s.setDmaCh c x).gact1 = s.gact1 := rfl
@[simp] theorem State.setDmaCh_gylQ (c : Nat) (x : DmaCh) : (s.setDmaCh c x).gylQ = s.gylQ := rfl
@[simp] theorem State.setDmaCh_gylRun (c : Nat) (x : DmaCh) : (s.setDmaCh c x).gylRun = s.gylRun := rfl
@[simp] theorem State.setDmaCh_sec (c : Nat) (x : DmaCh) : (s.setDmaCh c x).sec = s.sec := rfl
@[simp] theorem State.setDmaCh_fw (c : Nat) (x : DmaCh) : (s.setDmaCh c x).fw = s.fw := rfl
@[simp] theorem State.setDmaCh_spn (c : Nat) (x : DmaCh) : (s.setDmaCh c x).spn = s.spn := rfl
@[simp] theorem State.setDmaCh_hif0 (c : Nat) (x : DmaCh) : (s.setDmaCh c x).hif0 = s.hif0 := rfl
@[simp] theorem State.setDmaCh_hif1 (c : Nat) (x : DmaCh) : (s.setDmaCh c x).hif1 = s.hif1 := rfl
@[simp] theorem State.setDmaCh_nvq (c : Nat) (x : DmaCh) : (s.setDmaCh c x).nvq = s.nvq := rfl
@[simp] theorem State.setDmaCh_gs (c : Nat) (x : DmaCh) : (s.setDmaCh c x).gs = s.gs := rfl
@[simp] theorem State.setDmaCh_svc (c : Nat) (x : DmaCh) : (s.setDmaCh c x).svc = s.svc := rfl
@[simp] theorem State.setDmaCh_pwr (c : Nat) (x : DmaCh) : (s.setDmaCh c x).pwr = s.pwr := rfl
@[simp] theorem State.setDmaCh_ptl (c : Nat) (x : DmaCh) : (s.setDmaCh c x).ptl = s.ptl := rfl
@[simp] theorem State.setDmaCh_csc (c : Nat) (x : DmaCh) : (s.setDmaCh c x).csc = s.csc := rfl
@[simp] theorem State.setDmaCh_dmaRemote (c : Nat) (x : DmaCh) : (s.setDmaCh c x).dmaRemote = s.dmaRemote := rfl
@[simp] theorem State.setDmaCh_dmaLast (c : Nat) (x : DmaCh) : (s.setDmaCh c x).dmaLast = s.dmaLast := rfl

/-! ### setShaEng -/

@[simp] theorem State.setShaEng_pending (e : Nat) (x : ShaEng) : (s.setShaEng e x).pending = s.pending := rfl
@[simp] theorem State.setShaEng_now (e : Nat) (x : ShaEng) : (s.setShaEng e x).now = s.now := rfl
@[simp] theorem State.setShaEng_timeBase (e : Nat) (x : ShaEng) : (s.setShaEng e x).timeBase = s.timeBase := rfl
@[simp] theorem State.setShaEng_fresh (e : Nat) (x : ShaEng) : (s.setShaEng e x).fresh = s.fresh := rfl
@[simp] theorem State.setShaEng_out (e : Nat) (x : ShaEng) : (s.setShaEng e x).out = s.out := rfl
@[simp] theorem State.setShaEng_rdata (e : Nat) (x : ShaEng) : (s.setShaEng e x).rdata = s.rdata := rfl
@[simp] theorem State.setShaEng_regs (e : Nat) (x : ShaEng) : (s.setShaEng e x).regs = s.regs := rfl
@[simp] theorem State.setShaEng_active (e : Nat) (x : ShaEng) : (s.setShaEng e x).active = s.active := rfl
@[simp] theorem State.setShaEng_pairHold (e : Nat) (x : ShaEng) : (s.setShaEng e x).pairHold = s.pairHold := rfl
@[simp] theorem State.setShaEng_pairPend (e : Nat) (x : ShaEng) : (s.setShaEng e x).pairPend = s.pairPend := rfl
@[simp] theorem State.setShaEng_thrs (e : Nat) (x : ShaEng) : (s.setShaEng e x).thrs = s.thrs := rfl
@[simp] theorem State.setShaEng_campQ (e : Nat) (x : ShaEng) : (s.setShaEng e x).campQ = s.campQ := rfl
@[simp] theorem State.setShaEng_heldMsgs (e : Nat) (x : ShaEng) : (s.setShaEng e x).heldMsgs = s.heldMsgs := rfl
@[simp] theorem State.setShaEng_evSeen (e : Nat) (x : ShaEng) : (s.setShaEng e x).evSeen = s.evSeen := rfl
@[simp] theorem State.setShaEng_rot (e : Nat) (x : ShaEng) : (s.setShaEng e x).rot = s.rot := rfl
@[simp] theorem State.setShaEng_ic (e : Nat) (x : ShaEng) : (s.setShaEng e x).ic = s.ic := rfl
@[simp] theorem State.setShaEng_cyc (e : Nat) (x : ShaEng) : (s.setShaEng e x).cyc = s.cyc := rfl
@[simp] theorem State.setShaEng_divFree (e : Nat) (x : ShaEng) : (s.setShaEng e x).divFree = s.divFree := rfl
@[simp] theorem State.setShaEng_ucs (e : Nat) (x : ShaEng) : (s.setShaEng e x).ucs = s.ucs := rfl
@[simp] theorem State.setShaEng_mem (e : Nat) (x : ShaEng) : (s.setShaEng e x).mem = s.mem := rfl
@[simp] theorem State.setShaEng_evt (e : Nat) (x : ShaEng) : (s.setShaEng e x).evt = s.evt := rfl
@[simp] theorem State.setShaEng_med0 (e : Nat) (x : ShaEng) : (s.setShaEng e x).med0 = s.med0 := rfl
@[simp] theorem State.setShaEng_med1 (e : Nat) (x : ShaEng) : (s.setShaEng e x).med1 = s.med1 := rfl
@[simp] theorem State.setShaEng_dch (e : Nat) (x : ShaEng) : (s.setShaEng e x).dch = s.dch := rfl
@[simp] theorem State.setShaEng_gctx (e : Nat) (x : ShaEng) : (s.setShaEng e x).gctx = s.gctx := rfl
@[simp] theorem State.setShaEng_gact0 (e : Nat) (x : ShaEng) : (s.setShaEng e x).gact0 = s.gact0 := rfl
@[simp] theorem State.setShaEng_gact1 (e : Nat) (x : ShaEng) : (s.setShaEng e x).gact1 = s.gact1 := rfl
@[simp] theorem State.setShaEng_gylQ (e : Nat) (x : ShaEng) : (s.setShaEng e x).gylQ = s.gylQ := rfl
@[simp] theorem State.setShaEng_gylRun (e : Nat) (x : ShaEng) : (s.setShaEng e x).gylRun = s.gylRun := rfl
@[simp] theorem State.setShaEng_sec (e : Nat) (x : ShaEng) : (s.setShaEng e x).sec = s.sec := rfl
@[simp] theorem State.setShaEng_fw (e : Nat) (x : ShaEng) : (s.setShaEng e x).fw = s.fw := rfl
@[simp] theorem State.setShaEng_spn (e : Nat) (x : ShaEng) : (s.setShaEng e x).spn = s.spn := rfl
@[simp] theorem State.setShaEng_hif0 (e : Nat) (x : ShaEng) : (s.setShaEng e x).hif0 = s.hif0 := rfl
@[simp] theorem State.setShaEng_hif1 (e : Nat) (x : ShaEng) : (s.setShaEng e x).hif1 = s.hif1 := rfl
@[simp] theorem State.setShaEng_nvq (e : Nat) (x : ShaEng) : (s.setShaEng e x).nvq = s.nvq := rfl
@[simp] theorem State.setShaEng_gs (e : Nat) (x : ShaEng) : (s.setShaEng e x).gs = s.gs := rfl
@[simp] theorem State.setShaEng_svc (e : Nat) (x : ShaEng) : (s.setShaEng e x).svc = s.svc := rfl
@[simp] theorem State.setShaEng_pwr (e : Nat) (x : ShaEng) : (s.setShaEng e x).pwr = s.pwr := rfl
@[simp] theorem State.setShaEng_ptl (e : Nat) (x : ShaEng) : (s.setShaEng e x).ptl = s.ptl := rfl
@[simp] theorem State.setShaEng_csc (e : Nat) (x : ShaEng) : (s.setShaEng e x).csc = s.csc := rfl
@[simp] theorem State.setShaEng_dmaRemote (e : Nat) (x : ShaEng) : (s.setShaEng e x).dmaRemote = s.dmaRemote := rfl
@[simp] theorem State.setShaEng_dmaLast (e : Nat) (x : ShaEng) : (s.setShaEng e x).dmaLast = s.dmaLast := rfl

/-! ### setGc -/

@[simp] theorem State.setGc_pending (c : Nat) (x : GCtx) : (s.setGc c x).pending = s.pending := rfl
@[simp] theorem State.setGc_now (c : Nat) (x : GCtx) : (s.setGc c x).now = s.now := rfl
@[simp] theorem State.setGc_timeBase (c : Nat) (x : GCtx) : (s.setGc c x).timeBase = s.timeBase := rfl
@[simp] theorem State.setGc_fresh (c : Nat) (x : GCtx) : (s.setGc c x).fresh = s.fresh := rfl
@[simp] theorem State.setGc_out (c : Nat) (x : GCtx) : (s.setGc c x).out = s.out := rfl
@[simp] theorem State.setGc_rdata (c : Nat) (x : GCtx) : (s.setGc c x).rdata = s.rdata := rfl
@[simp] theorem State.setGc_regs (c : Nat) (x : GCtx) : (s.setGc c x).regs = s.regs := rfl
@[simp] theorem State.setGc_active (c : Nat) (x : GCtx) : (s.setGc c x).active = s.active := rfl
@[simp] theorem State.setGc_pairHold (c : Nat) (x : GCtx) : (s.setGc c x).pairHold = s.pairHold := rfl
@[simp] theorem State.setGc_pairPend (c : Nat) (x : GCtx) : (s.setGc c x).pairPend = s.pairPend := rfl
@[simp] theorem State.setGc_thrs (c : Nat) (x : GCtx) : (s.setGc c x).thrs = s.thrs := rfl
@[simp] theorem State.setGc_campQ (c : Nat) (x : GCtx) : (s.setGc c x).campQ = s.campQ := rfl
@[simp] theorem State.setGc_heldMsgs (c : Nat) (x : GCtx) : (s.setGc c x).heldMsgs = s.heldMsgs := rfl
@[simp] theorem State.setGc_evSeen (c : Nat) (x : GCtx) : (s.setGc c x).evSeen = s.evSeen := rfl
@[simp] theorem State.setGc_rot (c : Nat) (x : GCtx) : (s.setGc c x).rot = s.rot := rfl
@[simp] theorem State.setGc_ic (c : Nat) (x : GCtx) : (s.setGc c x).ic = s.ic := rfl
@[simp] theorem State.setGc_cyc (c : Nat) (x : GCtx) : (s.setGc c x).cyc = s.cyc := rfl
@[simp] theorem State.setGc_divFree (c : Nat) (x : GCtx) : (s.setGc c x).divFree = s.divFree := rfl
@[simp] theorem State.setGc_ucs (c : Nat) (x : GCtx) : (s.setGc c x).ucs = s.ucs := rfl
@[simp] theorem State.setGc_mem (c : Nat) (x : GCtx) : (s.setGc c x).mem = s.mem := rfl
@[simp] theorem State.setGc_evt (c : Nat) (x : GCtx) : (s.setGc c x).evt = s.evt := rfl
@[simp] theorem State.setGc_med0 (c : Nat) (x : GCtx) : (s.setGc c x).med0 = s.med0 := rfl
@[simp] theorem State.setGc_med1 (c : Nat) (x : GCtx) : (s.setGc c x).med1 = s.med1 := rfl
@[simp] theorem State.setGc_dch (c : Nat) (x : GCtx) : (s.setGc c x).dch = s.dch := rfl
@[simp] theorem State.setGc_sha (c : Nat) (x : GCtx) : (s.setGc c x).sha = s.sha := rfl
@[simp] theorem State.setGc_gact0 (c : Nat) (x : GCtx) : (s.setGc c x).gact0 = s.gact0 := rfl
@[simp] theorem State.setGc_gact1 (c : Nat) (x : GCtx) : (s.setGc c x).gact1 = s.gact1 := rfl
@[simp] theorem State.setGc_gylQ (c : Nat) (x : GCtx) : (s.setGc c x).gylQ = s.gylQ := rfl
@[simp] theorem State.setGc_gylRun (c : Nat) (x : GCtx) : (s.setGc c x).gylRun = s.gylRun := rfl
@[simp] theorem State.setGc_sec (c : Nat) (x : GCtx) : (s.setGc c x).sec = s.sec := rfl
@[simp] theorem State.setGc_fw (c : Nat) (x : GCtx) : (s.setGc c x).fw = s.fw := rfl
@[simp] theorem State.setGc_spn (c : Nat) (x : GCtx) : (s.setGc c x).spn = s.spn := rfl
@[simp] theorem State.setGc_hif0 (c : Nat) (x : GCtx) : (s.setGc c x).hif0 = s.hif0 := rfl
@[simp] theorem State.setGc_hif1 (c : Nat) (x : GCtx) : (s.setGc c x).hif1 = s.hif1 := rfl
@[simp] theorem State.setGc_nvq (c : Nat) (x : GCtx) : (s.setGc c x).nvq = s.nvq := rfl
@[simp] theorem State.setGc_gs (c : Nat) (x : GCtx) : (s.setGc c x).gs = s.gs := rfl
@[simp] theorem State.setGc_svc (c : Nat) (x : GCtx) : (s.setGc c x).svc = s.svc := rfl
@[simp] theorem State.setGc_pwr (c : Nat) (x : GCtx) : (s.setGc c x).pwr = s.pwr := rfl
@[simp] theorem State.setGc_ptl (c : Nat) (x : GCtx) : (s.setGc c x).ptl = s.ptl := rfl
@[simp] theorem State.setGc_csc (c : Nat) (x : GCtx) : (s.setGc c x).csc = s.csc := rfl
@[simp] theorem State.setGc_dmaRemote (c : Nat) (x : GCtx) : (s.setGc c x).dmaRemote = s.dmaRemote := rfl
@[simp] theorem State.setGc_dmaLast (c : Nat) (x : GCtx) : (s.setGc c x).dmaLast = s.dmaLast := rfl

/-! ### setSec -/

@[simp] theorem State.setSec_pending (x : Sec) : (s.setSec x).pending = s.pending := rfl
@[simp] theorem State.setSec_now (x : Sec) : (s.setSec x).now = s.now := rfl
@[simp] theorem State.setSec_timeBase (x : Sec) : (s.setSec x).timeBase = s.timeBase := rfl
@[simp] theorem State.setSec_fresh (x : Sec) : (s.setSec x).fresh = s.fresh := rfl
@[simp] theorem State.setSec_out (x : Sec) : (s.setSec x).out = s.out := rfl
@[simp] theorem State.setSec_rdata (x : Sec) : (s.setSec x).rdata = s.rdata := rfl
@[simp] theorem State.setSec_regs (x : Sec) : (s.setSec x).regs = s.regs := rfl
@[simp] theorem State.setSec_active (x : Sec) : (s.setSec x).active = s.active := rfl
@[simp] theorem State.setSec_pairHold (x : Sec) : (s.setSec x).pairHold = s.pairHold := rfl
@[simp] theorem State.setSec_pairPend (x : Sec) : (s.setSec x).pairPend = s.pairPend := rfl
@[simp] theorem State.setSec_thrs (x : Sec) : (s.setSec x).thrs = s.thrs := rfl
@[simp] theorem State.setSec_campQ (x : Sec) : (s.setSec x).campQ = s.campQ := rfl
@[simp] theorem State.setSec_heldMsgs (x : Sec) : (s.setSec x).heldMsgs = s.heldMsgs := rfl
@[simp] theorem State.setSec_evSeen (x : Sec) : (s.setSec x).evSeen = s.evSeen := rfl
@[simp] theorem State.setSec_rot (x : Sec) : (s.setSec x).rot = s.rot := rfl
@[simp] theorem State.setSec_ic (x : Sec) : (s.setSec x).ic = s.ic := rfl
@[simp] theorem State.setSec_cyc (x : Sec) : (s.setSec x).cyc = s.cyc := rfl
@[simp] theorem State.setSec_divFree (x : Sec) : (s.setSec x).divFree = s.divFree := rfl
@[simp] theorem State.setSec_ucs (x : Sec) : (s.setSec x).ucs = s.ucs := rfl
@[simp] theorem State.setSec_mem (x : Sec) : (s.setSec x).mem = s.mem := rfl
@[simp] theorem State.setSec_evt (x : Sec) : (s.setSec x).evt = s.evt := rfl
@[simp] theorem State.setSec_med0 (x : Sec) : (s.setSec x).med0 = s.med0 := rfl
@[simp] theorem State.setSec_med1 (x : Sec) : (s.setSec x).med1 = s.med1 := rfl
@[simp] theorem State.setSec_dch (x : Sec) : (s.setSec x).dch = s.dch := rfl
@[simp] theorem State.setSec_sha (x : Sec) : (s.setSec x).sha = s.sha := rfl
@[simp] theorem State.setSec_gctx (x : Sec) : (s.setSec x).gctx = s.gctx := rfl
@[simp] theorem State.setSec_gact0 (x : Sec) : (s.setSec x).gact0 = s.gact0 := rfl
@[simp] theorem State.setSec_gact1 (x : Sec) : (s.setSec x).gact1 = s.gact1 := rfl
@[simp] theorem State.setSec_gylQ (x : Sec) : (s.setSec x).gylQ = s.gylQ := rfl
@[simp] theorem State.setSec_gylRun (x : Sec) : (s.setSec x).gylRun = s.gylRun := rfl
@[simp] theorem State.setSec_fw (x : Sec) : (s.setSec x).fw = s.fw := rfl
@[simp] theorem State.setSec_spn (x : Sec) : (s.setSec x).spn = s.spn := rfl
@[simp] theorem State.setSec_hif0 (x : Sec) : (s.setSec x).hif0 = s.hif0 := rfl
@[simp] theorem State.setSec_hif1 (x : Sec) : (s.setSec x).hif1 = s.hif1 := rfl
@[simp] theorem State.setSec_nvq (x : Sec) : (s.setSec x).nvq = s.nvq := rfl
@[simp] theorem State.setSec_gs (x : Sec) : (s.setSec x).gs = s.gs := rfl
@[simp] theorem State.setSec_svc (x : Sec) : (s.setSec x).svc = s.svc := rfl
@[simp] theorem State.setSec_pwr (x : Sec) : (s.setSec x).pwr = s.pwr := rfl
@[simp] theorem State.setSec_ptl (x : Sec) : (s.setSec x).ptl = s.ptl := rfl
@[simp] theorem State.setSec_csc (x : Sec) : (s.setSec x).csc = s.csc := rfl
@[simp] theorem State.setSec_dmaRemote (x : Sec) : (s.setSec x).dmaRemote = s.dmaRemote := rfl
@[simp] theorem State.setSec_dmaLast (x : Sec) : (s.setSec x).dmaLast = s.dmaLast := rfl

/-! ### setFw -/

@[simp] theorem State.setFw_pending (x : Fw) : (s.setFw x).pending = s.pending := rfl
@[simp] theorem State.setFw_now (x : Fw) : (s.setFw x).now = s.now := rfl
@[simp] theorem State.setFw_timeBase (x : Fw) : (s.setFw x).timeBase = s.timeBase := rfl
@[simp] theorem State.setFw_fresh (x : Fw) : (s.setFw x).fresh = s.fresh := rfl
@[simp] theorem State.setFw_out (x : Fw) : (s.setFw x).out = s.out := rfl
@[simp] theorem State.setFw_rdata (x : Fw) : (s.setFw x).rdata = s.rdata := rfl
@[simp] theorem State.setFw_regs (x : Fw) : (s.setFw x).regs = s.regs := rfl
@[simp] theorem State.setFw_active (x : Fw) : (s.setFw x).active = s.active := rfl
@[simp] theorem State.setFw_pairHold (x : Fw) : (s.setFw x).pairHold = s.pairHold := rfl
@[simp] theorem State.setFw_pairPend (x : Fw) : (s.setFw x).pairPend = s.pairPend := rfl
@[simp] theorem State.setFw_thrs (x : Fw) : (s.setFw x).thrs = s.thrs := rfl
@[simp] theorem State.setFw_campQ (x : Fw) : (s.setFw x).campQ = s.campQ := rfl
@[simp] theorem State.setFw_heldMsgs (x : Fw) : (s.setFw x).heldMsgs = s.heldMsgs := rfl
@[simp] theorem State.setFw_evSeen (x : Fw) : (s.setFw x).evSeen = s.evSeen := rfl
@[simp] theorem State.setFw_rot (x : Fw) : (s.setFw x).rot = s.rot := rfl
@[simp] theorem State.setFw_ic (x : Fw) : (s.setFw x).ic = s.ic := rfl
@[simp] theorem State.setFw_cyc (x : Fw) : (s.setFw x).cyc = s.cyc := rfl
@[simp] theorem State.setFw_divFree (x : Fw) : (s.setFw x).divFree = s.divFree := rfl
@[simp] theorem State.setFw_ucs (x : Fw) : (s.setFw x).ucs = s.ucs := rfl
@[simp] theorem State.setFw_mem (x : Fw) : (s.setFw x).mem = s.mem := rfl
@[simp] theorem State.setFw_evt (x : Fw) : (s.setFw x).evt = s.evt := rfl
@[simp] theorem State.setFw_med0 (x : Fw) : (s.setFw x).med0 = s.med0 := rfl
@[simp] theorem State.setFw_med1 (x : Fw) : (s.setFw x).med1 = s.med1 := rfl
@[simp] theorem State.setFw_dch (x : Fw) : (s.setFw x).dch = s.dch := rfl
@[simp] theorem State.setFw_sha (x : Fw) : (s.setFw x).sha = s.sha := rfl
@[simp] theorem State.setFw_gctx (x : Fw) : (s.setFw x).gctx = s.gctx := rfl
@[simp] theorem State.setFw_gact0 (x : Fw) : (s.setFw x).gact0 = s.gact0 := rfl
@[simp] theorem State.setFw_gact1 (x : Fw) : (s.setFw x).gact1 = s.gact1 := rfl
@[simp] theorem State.setFw_gylQ (x : Fw) : (s.setFw x).gylQ = s.gylQ := rfl
@[simp] theorem State.setFw_gylRun (x : Fw) : (s.setFw x).gylRun = s.gylRun := rfl
@[simp] theorem State.setFw_sec (x : Fw) : (s.setFw x).sec = s.sec := rfl
@[simp] theorem State.setFw_spn (x : Fw) : (s.setFw x).spn = s.spn := rfl
@[simp] theorem State.setFw_hif0 (x : Fw) : (s.setFw x).hif0 = s.hif0 := rfl
@[simp] theorem State.setFw_hif1 (x : Fw) : (s.setFw x).hif1 = s.hif1 := rfl
@[simp] theorem State.setFw_nvq (x : Fw) : (s.setFw x).nvq = s.nvq := rfl
@[simp] theorem State.setFw_gs (x : Fw) : (s.setFw x).gs = s.gs := rfl
@[simp] theorem State.setFw_svc (x : Fw) : (s.setFw x).svc = s.svc := rfl
@[simp] theorem State.setFw_pwr (x : Fw) : (s.setFw x).pwr = s.pwr := rfl
@[simp] theorem State.setFw_ptl (x : Fw) : (s.setFw x).ptl = s.ptl := rfl
@[simp] theorem State.setFw_csc (x : Fw) : (s.setFw x).csc = s.csc := rfl
@[simp] theorem State.setFw_dmaRemote (x : Fw) : (s.setFw x).dmaRemote = s.dmaRemote := rfl
@[simp] theorem State.setFw_dmaLast (x : Fw) : (s.setFw x).dmaLast = s.dmaLast := rfl

/-! ### setSpn -/

@[simp] theorem State.setSpn_pending (x : Spn) : (s.setSpn x).pending = s.pending := rfl
@[simp] theorem State.setSpn_now (x : Spn) : (s.setSpn x).now = s.now := rfl
@[simp] theorem State.setSpn_timeBase (x : Spn) : (s.setSpn x).timeBase = s.timeBase := rfl
@[simp] theorem State.setSpn_fresh (x : Spn) : (s.setSpn x).fresh = s.fresh := rfl
@[simp] theorem State.setSpn_out (x : Spn) : (s.setSpn x).out = s.out := rfl
@[simp] theorem State.setSpn_rdata (x : Spn) : (s.setSpn x).rdata = s.rdata := rfl
@[simp] theorem State.setSpn_regs (x : Spn) : (s.setSpn x).regs = s.regs := rfl
@[simp] theorem State.setSpn_active (x : Spn) : (s.setSpn x).active = s.active := rfl
@[simp] theorem State.setSpn_pairHold (x : Spn) : (s.setSpn x).pairHold = s.pairHold := rfl
@[simp] theorem State.setSpn_pairPend (x : Spn) : (s.setSpn x).pairPend = s.pairPend := rfl
@[simp] theorem State.setSpn_thrs (x : Spn) : (s.setSpn x).thrs = s.thrs := rfl
@[simp] theorem State.setSpn_campQ (x : Spn) : (s.setSpn x).campQ = s.campQ := rfl
@[simp] theorem State.setSpn_heldMsgs (x : Spn) : (s.setSpn x).heldMsgs = s.heldMsgs := rfl
@[simp] theorem State.setSpn_evSeen (x : Spn) : (s.setSpn x).evSeen = s.evSeen := rfl
@[simp] theorem State.setSpn_rot (x : Spn) : (s.setSpn x).rot = s.rot := rfl
@[simp] theorem State.setSpn_ic (x : Spn) : (s.setSpn x).ic = s.ic := rfl
@[simp] theorem State.setSpn_cyc (x : Spn) : (s.setSpn x).cyc = s.cyc := rfl
@[simp] theorem State.setSpn_divFree (x : Spn) : (s.setSpn x).divFree = s.divFree := rfl
@[simp] theorem State.setSpn_ucs (x : Spn) : (s.setSpn x).ucs = s.ucs := rfl
@[simp] theorem State.setSpn_mem (x : Spn) : (s.setSpn x).mem = s.mem := rfl
@[simp] theorem State.setSpn_evt (x : Spn) : (s.setSpn x).evt = s.evt := rfl
@[simp] theorem State.setSpn_med0 (x : Spn) : (s.setSpn x).med0 = s.med0 := rfl
@[simp] theorem State.setSpn_med1 (x : Spn) : (s.setSpn x).med1 = s.med1 := rfl
@[simp] theorem State.setSpn_dch (x : Spn) : (s.setSpn x).dch = s.dch := rfl
@[simp] theorem State.setSpn_sha (x : Spn) : (s.setSpn x).sha = s.sha := rfl
@[simp] theorem State.setSpn_gctx (x : Spn) : (s.setSpn x).gctx = s.gctx := rfl
@[simp] theorem State.setSpn_gact0 (x : Spn) : (s.setSpn x).gact0 = s.gact0 := rfl
@[simp] theorem State.setSpn_gact1 (x : Spn) : (s.setSpn x).gact1 = s.gact1 := rfl
@[simp] theorem State.setSpn_gylQ (x : Spn) : (s.setSpn x).gylQ = s.gylQ := rfl
@[simp] theorem State.setSpn_gylRun (x : Spn) : (s.setSpn x).gylRun = s.gylRun := rfl
@[simp] theorem State.setSpn_sec (x : Spn) : (s.setSpn x).sec = s.sec := rfl
@[simp] theorem State.setSpn_fw (x : Spn) : (s.setSpn x).fw = s.fw := rfl
@[simp] theorem State.setSpn_hif0 (x : Spn) : (s.setSpn x).hif0 = s.hif0 := rfl
@[simp] theorem State.setSpn_hif1 (x : Spn) : (s.setSpn x).hif1 = s.hif1 := rfl
@[simp] theorem State.setSpn_nvq (x : Spn) : (s.setSpn x).nvq = s.nvq := rfl
@[simp] theorem State.setSpn_gs (x : Spn) : (s.setSpn x).gs = s.gs := rfl
@[simp] theorem State.setSpn_svc (x : Spn) : (s.setSpn x).svc = s.svc := rfl
@[simp] theorem State.setSpn_pwr (x : Spn) : (s.setSpn x).pwr = s.pwr := rfl
@[simp] theorem State.setSpn_ptl (x : Spn) : (s.setSpn x).ptl = s.ptl := rfl
@[simp] theorem State.setSpn_csc (x : Spn) : (s.setSpn x).csc = s.csc := rfl
@[simp] theorem State.setSpn_dmaRemote (x : Spn) : (s.setSpn x).dmaRemote = s.dmaRemote := rfl
@[simp] theorem State.setSpn_dmaLast (x : Spn) : (s.setSpn x).dmaLast = s.dmaLast := rfl

/-! ### setGs -/

@[simp] theorem State.setGs_pending (x : Gs) : (s.setGs x).pending = s.pending := rfl
@[simp] theorem State.setGs_now (x : Gs) : (s.setGs x).now = s.now := rfl
@[simp] theorem State.setGs_timeBase (x : Gs) : (s.setGs x).timeBase = s.timeBase := rfl
@[simp] theorem State.setGs_fresh (x : Gs) : (s.setGs x).fresh = s.fresh := rfl
@[simp] theorem State.setGs_out (x : Gs) : (s.setGs x).out = s.out := rfl
@[simp] theorem State.setGs_rdata (x : Gs) : (s.setGs x).rdata = s.rdata := rfl
@[simp] theorem State.setGs_regs (x : Gs) : (s.setGs x).regs = s.regs := rfl
@[simp] theorem State.setGs_active (x : Gs) : (s.setGs x).active = s.active := rfl
@[simp] theorem State.setGs_pairHold (x : Gs) : (s.setGs x).pairHold = s.pairHold := rfl
@[simp] theorem State.setGs_pairPend (x : Gs) : (s.setGs x).pairPend = s.pairPend := rfl
@[simp] theorem State.setGs_thrs (x : Gs) : (s.setGs x).thrs = s.thrs := rfl
@[simp] theorem State.setGs_campQ (x : Gs) : (s.setGs x).campQ = s.campQ := rfl
@[simp] theorem State.setGs_heldMsgs (x : Gs) : (s.setGs x).heldMsgs = s.heldMsgs := rfl
@[simp] theorem State.setGs_evSeen (x : Gs) : (s.setGs x).evSeen = s.evSeen := rfl
@[simp] theorem State.setGs_rot (x : Gs) : (s.setGs x).rot = s.rot := rfl
@[simp] theorem State.setGs_ic (x : Gs) : (s.setGs x).ic = s.ic := rfl
@[simp] theorem State.setGs_cyc (x : Gs) : (s.setGs x).cyc = s.cyc := rfl
@[simp] theorem State.setGs_divFree (x : Gs) : (s.setGs x).divFree = s.divFree := rfl
@[simp] theorem State.setGs_ucs (x : Gs) : (s.setGs x).ucs = s.ucs := rfl
@[simp] theorem State.setGs_mem (x : Gs) : (s.setGs x).mem = s.mem := rfl
@[simp] theorem State.setGs_evt (x : Gs) : (s.setGs x).evt = s.evt := rfl
@[simp] theorem State.setGs_med0 (x : Gs) : (s.setGs x).med0 = s.med0 := rfl
@[simp] theorem State.setGs_med1 (x : Gs) : (s.setGs x).med1 = s.med1 := rfl
@[simp] theorem State.setGs_dch (x : Gs) : (s.setGs x).dch = s.dch := rfl
@[simp] theorem State.setGs_sha (x : Gs) : (s.setGs x).sha = s.sha := rfl
@[simp] theorem State.setGs_gctx (x : Gs) : (s.setGs x).gctx = s.gctx := rfl
@[simp] theorem State.setGs_gact0 (x : Gs) : (s.setGs x).gact0 = s.gact0 := rfl
@[simp] theorem State.setGs_gact1 (x : Gs) : (s.setGs x).gact1 = s.gact1 := rfl
@[simp] theorem State.setGs_gylQ (x : Gs) : (s.setGs x).gylQ = s.gylQ := rfl
@[simp] theorem State.setGs_gylRun (x : Gs) : (s.setGs x).gylRun = s.gylRun := rfl
@[simp] theorem State.setGs_sec (x : Gs) : (s.setGs x).sec = s.sec := rfl
@[simp] theorem State.setGs_fw (x : Gs) : (s.setGs x).fw = s.fw := rfl
@[simp] theorem State.setGs_spn (x : Gs) : (s.setGs x).spn = s.spn := rfl
@[simp] theorem State.setGs_hif0 (x : Gs) : (s.setGs x).hif0 = s.hif0 := rfl
@[simp] theorem State.setGs_hif1 (x : Gs) : (s.setGs x).hif1 = s.hif1 := rfl
@[simp] theorem State.setGs_nvq (x : Gs) : (s.setGs x).nvq = s.nvq := rfl
@[simp] theorem State.setGs_svc (x : Gs) : (s.setGs x).svc = s.svc := rfl
@[simp] theorem State.setGs_pwr (x : Gs) : (s.setGs x).pwr = s.pwr := rfl
@[simp] theorem State.setGs_ptl (x : Gs) : (s.setGs x).ptl = s.ptl := rfl
@[simp] theorem State.setGs_csc (x : Gs) : (s.setGs x).csc = s.csc := rfl
@[simp] theorem State.setGs_dmaRemote (x : Gs) : (s.setGs x).dmaRemote = s.dmaRemote := rfl
@[simp] theorem State.setGs_dmaLast (x : Gs) : (s.setGs x).dmaLast = s.dmaLast := rfl

/-! ### setSvc -/

@[simp] theorem State.setSvc_pending (x : Svc) : (s.setSvc x).pending = s.pending := rfl
@[simp] theorem State.setSvc_now (x : Svc) : (s.setSvc x).now = s.now := rfl
@[simp] theorem State.setSvc_timeBase (x : Svc) : (s.setSvc x).timeBase = s.timeBase := rfl
@[simp] theorem State.setSvc_fresh (x : Svc) : (s.setSvc x).fresh = s.fresh := rfl
@[simp] theorem State.setSvc_out (x : Svc) : (s.setSvc x).out = s.out := rfl
@[simp] theorem State.setSvc_rdata (x : Svc) : (s.setSvc x).rdata = s.rdata := rfl
@[simp] theorem State.setSvc_regs (x : Svc) : (s.setSvc x).regs = s.regs := rfl
@[simp] theorem State.setSvc_active (x : Svc) : (s.setSvc x).active = s.active := rfl
@[simp] theorem State.setSvc_pairHold (x : Svc) : (s.setSvc x).pairHold = s.pairHold := rfl
@[simp] theorem State.setSvc_pairPend (x : Svc) : (s.setSvc x).pairPend = s.pairPend := rfl
@[simp] theorem State.setSvc_thrs (x : Svc) : (s.setSvc x).thrs = s.thrs := rfl
@[simp] theorem State.setSvc_campQ (x : Svc) : (s.setSvc x).campQ = s.campQ := rfl
@[simp] theorem State.setSvc_heldMsgs (x : Svc) : (s.setSvc x).heldMsgs = s.heldMsgs := rfl
@[simp] theorem State.setSvc_evSeen (x : Svc) : (s.setSvc x).evSeen = s.evSeen := rfl
@[simp] theorem State.setSvc_rot (x : Svc) : (s.setSvc x).rot = s.rot := rfl
@[simp] theorem State.setSvc_ic (x : Svc) : (s.setSvc x).ic = s.ic := rfl
@[simp] theorem State.setSvc_cyc (x : Svc) : (s.setSvc x).cyc = s.cyc := rfl
@[simp] theorem State.setSvc_divFree (x : Svc) : (s.setSvc x).divFree = s.divFree := rfl
@[simp] theorem State.setSvc_ucs (x : Svc) : (s.setSvc x).ucs = s.ucs := rfl
@[simp] theorem State.setSvc_mem (x : Svc) : (s.setSvc x).mem = s.mem := rfl
@[simp] theorem State.setSvc_evt (x : Svc) : (s.setSvc x).evt = s.evt := rfl
@[simp] theorem State.setSvc_med0 (x : Svc) : (s.setSvc x).med0 = s.med0 := rfl
@[simp] theorem State.setSvc_med1 (x : Svc) : (s.setSvc x).med1 = s.med1 := rfl
@[simp] theorem State.setSvc_dch (x : Svc) : (s.setSvc x).dch = s.dch := rfl
@[simp] theorem State.setSvc_sha (x : Svc) : (s.setSvc x).sha = s.sha := rfl
@[simp] theorem State.setSvc_gctx (x : Svc) : (s.setSvc x).gctx = s.gctx := rfl
@[simp] theorem State.setSvc_gact0 (x : Svc) : (s.setSvc x).gact0 = s.gact0 := rfl
@[simp] theorem State.setSvc_gact1 (x : Svc) : (s.setSvc x).gact1 = s.gact1 := rfl
@[simp] theorem State.setSvc_gylQ (x : Svc) : (s.setSvc x).gylQ = s.gylQ := rfl
@[simp] theorem State.setSvc_gylRun (x : Svc) : (s.setSvc x).gylRun = s.gylRun := rfl
@[simp] theorem State.setSvc_sec (x : Svc) : (s.setSvc x).sec = s.sec := rfl
@[simp] theorem State.setSvc_fw (x : Svc) : (s.setSvc x).fw = s.fw := rfl
@[simp] theorem State.setSvc_spn (x : Svc) : (s.setSvc x).spn = s.spn := rfl
@[simp] theorem State.setSvc_hif0 (x : Svc) : (s.setSvc x).hif0 = s.hif0 := rfl
@[simp] theorem State.setSvc_hif1 (x : Svc) : (s.setSvc x).hif1 = s.hif1 := rfl
@[simp] theorem State.setSvc_nvq (x : Svc) : (s.setSvc x).nvq = s.nvq := rfl
@[simp] theorem State.setSvc_gs (x : Svc) : (s.setSvc x).gs = s.gs := rfl
@[simp] theorem State.setSvc_pwr (x : Svc) : (s.setSvc x).pwr = s.pwr := rfl
@[simp] theorem State.setSvc_ptl (x : Svc) : (s.setSvc x).ptl = s.ptl := rfl
@[simp] theorem State.setSvc_csc (x : Svc) : (s.setSvc x).csc = s.csc := rfl
@[simp] theorem State.setSvc_dmaRemote (x : Svc) : (s.setSvc x).dmaRemote = s.dmaRemote := rfl
@[simp] theorem State.setSvc_dmaLast (x : Svc) : (s.setSvc x).dmaLast = s.dmaLast := rfl

/-! ### setPwr -/

@[simp] theorem State.setPwr_pending (x : Pwr) : (s.setPwr x).pending = s.pending := rfl
@[simp] theorem State.setPwr_now (x : Pwr) : (s.setPwr x).now = s.now := rfl
@[simp] theorem State.setPwr_timeBase (x : Pwr) : (s.setPwr x).timeBase = s.timeBase := rfl
@[simp] theorem State.setPwr_fresh (x : Pwr) : (s.setPwr x).fresh = s.fresh := rfl
@[simp] theorem State.setPwr_out (x : Pwr) : (s.setPwr x).out = s.out := rfl
@[simp] theorem State.setPwr_rdata (x : Pwr) : (s.setPwr x).rdata = s.rdata := rfl
@[simp] theorem State.setPwr_regs (x : Pwr) : (s.setPwr x).regs = s.regs := rfl
@[simp] theorem State.setPwr_active (x : Pwr) : (s.setPwr x).active = s.active := rfl
@[simp] theorem State.setPwr_pairHold (x : Pwr) : (s.setPwr x).pairHold = s.pairHold := rfl
@[simp] theorem State.setPwr_pairPend (x : Pwr) : (s.setPwr x).pairPend = s.pairPend := rfl
@[simp] theorem State.setPwr_thrs (x : Pwr) : (s.setPwr x).thrs = s.thrs := rfl
@[simp] theorem State.setPwr_campQ (x : Pwr) : (s.setPwr x).campQ = s.campQ := rfl
@[simp] theorem State.setPwr_heldMsgs (x : Pwr) : (s.setPwr x).heldMsgs = s.heldMsgs := rfl
@[simp] theorem State.setPwr_evSeen (x : Pwr) : (s.setPwr x).evSeen = s.evSeen := rfl
@[simp] theorem State.setPwr_rot (x : Pwr) : (s.setPwr x).rot = s.rot := rfl
@[simp] theorem State.setPwr_ic (x : Pwr) : (s.setPwr x).ic = s.ic := rfl
@[simp] theorem State.setPwr_cyc (x : Pwr) : (s.setPwr x).cyc = s.cyc := rfl
@[simp] theorem State.setPwr_divFree (x : Pwr) : (s.setPwr x).divFree = s.divFree := rfl
@[simp] theorem State.setPwr_ucs (x : Pwr) : (s.setPwr x).ucs = s.ucs := rfl
@[simp] theorem State.setPwr_mem (x : Pwr) : (s.setPwr x).mem = s.mem := rfl
@[simp] theorem State.setPwr_evt (x : Pwr) : (s.setPwr x).evt = s.evt := rfl
@[simp] theorem State.setPwr_med0 (x : Pwr) : (s.setPwr x).med0 = s.med0 := rfl
@[simp] theorem State.setPwr_med1 (x : Pwr) : (s.setPwr x).med1 = s.med1 := rfl
@[simp] theorem State.setPwr_dch (x : Pwr) : (s.setPwr x).dch = s.dch := rfl
@[simp] theorem State.setPwr_sha (x : Pwr) : (s.setPwr x).sha = s.sha := rfl
@[simp] theorem State.setPwr_gctx (x : Pwr) : (s.setPwr x).gctx = s.gctx := rfl
@[simp] theorem State.setPwr_gact0 (x : Pwr) : (s.setPwr x).gact0 = s.gact0 := rfl
@[simp] theorem State.setPwr_gact1 (x : Pwr) : (s.setPwr x).gact1 = s.gact1 := rfl
@[simp] theorem State.setPwr_gylQ (x : Pwr) : (s.setPwr x).gylQ = s.gylQ := rfl
@[simp] theorem State.setPwr_gylRun (x : Pwr) : (s.setPwr x).gylRun = s.gylRun := rfl
@[simp] theorem State.setPwr_sec (x : Pwr) : (s.setPwr x).sec = s.sec := rfl
@[simp] theorem State.setPwr_fw (x : Pwr) : (s.setPwr x).fw = s.fw := rfl
@[simp] theorem State.setPwr_spn (x : Pwr) : (s.setPwr x).spn = s.spn := rfl
@[simp] theorem State.setPwr_hif0 (x : Pwr) : (s.setPwr x).hif0 = s.hif0 := rfl
@[simp] theorem State.setPwr_hif1 (x : Pwr) : (s.setPwr x).hif1 = s.hif1 := rfl
@[simp] theorem State.setPwr_nvq (x : Pwr) : (s.setPwr x).nvq = s.nvq := rfl
@[simp] theorem State.setPwr_gs (x : Pwr) : (s.setPwr x).gs = s.gs := rfl
@[simp] theorem State.setPwr_svc (x : Pwr) : (s.setPwr x).svc = s.svc := rfl
@[simp] theorem State.setPwr_ptl (x : Pwr) : (s.setPwr x).ptl = s.ptl := rfl
@[simp] theorem State.setPwr_csc (x : Pwr) : (s.setPwr x).csc = s.csc := rfl
@[simp] theorem State.setPwr_dmaRemote (x : Pwr) : (s.setPwr x).dmaRemote = s.dmaRemote := rfl
@[simp] theorem State.setPwr_dmaLast (x : Pwr) : (s.setPwr x).dmaLast = s.dmaLast := rfl

/-! ### setCsc -/

@[simp] theorem State.setCsc_pending (x : Csc) : (s.setCsc x).pending = s.pending := rfl
@[simp] theorem State.setCsc_now (x : Csc) : (s.setCsc x).now = s.now := rfl
@[simp] theorem State.setCsc_timeBase (x : Csc) : (s.setCsc x).timeBase = s.timeBase := rfl
@[simp] theorem State.setCsc_fresh (x : Csc) : (s.setCsc x).fresh = s.fresh := rfl
@[simp] theorem State.setCsc_out (x : Csc) : (s.setCsc x).out = s.out := rfl
@[simp] theorem State.setCsc_rdata (x : Csc) : (s.setCsc x).rdata = s.rdata := rfl
@[simp] theorem State.setCsc_regs (x : Csc) : (s.setCsc x).regs = s.regs := rfl
@[simp] theorem State.setCsc_active (x : Csc) : (s.setCsc x).active = s.active := rfl
@[simp] theorem State.setCsc_pairHold (x : Csc) : (s.setCsc x).pairHold = s.pairHold := rfl
@[simp] theorem State.setCsc_pairPend (x : Csc) : (s.setCsc x).pairPend = s.pairPend := rfl
@[simp] theorem State.setCsc_thrs (x : Csc) : (s.setCsc x).thrs = s.thrs := rfl
@[simp] theorem State.setCsc_campQ (x : Csc) : (s.setCsc x).campQ = s.campQ := rfl
@[simp] theorem State.setCsc_heldMsgs (x : Csc) : (s.setCsc x).heldMsgs = s.heldMsgs := rfl
@[simp] theorem State.setCsc_evSeen (x : Csc) : (s.setCsc x).evSeen = s.evSeen := rfl
@[simp] theorem State.setCsc_rot (x : Csc) : (s.setCsc x).rot = s.rot := rfl
@[simp] theorem State.setCsc_ic (x : Csc) : (s.setCsc x).ic = s.ic := rfl
@[simp] theorem State.setCsc_cyc (x : Csc) : (s.setCsc x).cyc = s.cyc := rfl
@[simp] theorem State.setCsc_divFree (x : Csc) : (s.setCsc x).divFree = s.divFree := rfl
@[simp] theorem State.setCsc_ucs (x : Csc) : (s.setCsc x).ucs = s.ucs := rfl
@[simp] theorem State.setCsc_mem (x : Csc) : (s.setCsc x).mem = s.mem := rfl
@[simp] theorem State.setCsc_evt (x : Csc) : (s.setCsc x).evt = s.evt := rfl
@[simp] theorem State.setCsc_med0 (x : Csc) : (s.setCsc x).med0 = s.med0 := rfl
@[simp] theorem State.setCsc_med1 (x : Csc) : (s.setCsc x).med1 = s.med1 := rfl
@[simp] theorem State.setCsc_dch (x : Csc) : (s.setCsc x).dch = s.dch := rfl
@[simp] theorem State.setCsc_sha (x : Csc) : (s.setCsc x).sha = s.sha := rfl
@[simp] theorem State.setCsc_gctx (x : Csc) : (s.setCsc x).gctx = s.gctx := rfl
@[simp] theorem State.setCsc_gact0 (x : Csc) : (s.setCsc x).gact0 = s.gact0 := rfl
@[simp] theorem State.setCsc_gact1 (x : Csc) : (s.setCsc x).gact1 = s.gact1 := rfl
@[simp] theorem State.setCsc_gylQ (x : Csc) : (s.setCsc x).gylQ = s.gylQ := rfl
@[simp] theorem State.setCsc_gylRun (x : Csc) : (s.setCsc x).gylRun = s.gylRun := rfl
@[simp] theorem State.setCsc_sec (x : Csc) : (s.setCsc x).sec = s.sec := rfl
@[simp] theorem State.setCsc_fw (x : Csc) : (s.setCsc x).fw = s.fw := rfl
@[simp] theorem State.setCsc_spn (x : Csc) : (s.setCsc x).spn = s.spn := rfl
@[simp] theorem State.setCsc_hif0 (x : Csc) : (s.setCsc x).hif0 = s.hif0 := rfl
@[simp] theorem State.setCsc_hif1 (x : Csc) : (s.setCsc x).hif1 = s.hif1 := rfl
@[simp] theorem State.setCsc_nvq (x : Csc) : (s.setCsc x).nvq = s.nvq := rfl
@[simp] theorem State.setCsc_gs (x : Csc) : (s.setCsc x).gs = s.gs := rfl
@[simp] theorem State.setCsc_svc (x : Csc) : (s.setCsc x).svc = s.svc := rfl
@[simp] theorem State.setCsc_pwr (x : Csc) : (s.setCsc x).pwr = s.pwr := rfl
@[simp] theorem State.setCsc_ptl (x : Csc) : (s.setCsc x).ptl = s.ptl := rfl
@[simp] theorem State.setCsc_dmaRemote (x : Csc) : (s.setCsc x).dmaRemote = s.dmaRemote := rfl
@[simp] theorem State.setCsc_dmaLast (x : Csc) : (s.setCsc x).dmaLast = s.dmaLast := rfl

/-! ### setMed -/

@[simp] theorem State.setMed_pending (m : Nat) (x : Med) : (s.setMed m x).pending = s.pending := by unfold State.setMed; split <;> rfl
@[simp] theorem State.setMed_now (m : Nat) (x : Med) : (s.setMed m x).now = s.now := by unfold State.setMed; split <;> rfl
@[simp] theorem State.setMed_timeBase (m : Nat) (x : Med) : (s.setMed m x).timeBase = s.timeBase := by unfold State.setMed; split <;> rfl
@[simp] theorem State.setMed_fresh (m : Nat) (x : Med) : (s.setMed m x).fresh = s.fresh := by unfold State.setMed; split <;> rfl
@[simp] theorem State.setMed_out (m : Nat) (x : Med) : (s.setMed m x).out = s.out := by unfold State.setMed; split <;> rfl
@[simp] theorem State.setMed_rdata (m : Nat) (x : Med) : (s.setMed m x).rdata = s.rdata := by unfold State.setMed; split <;> rfl
@[simp] theorem State.setMed_regs (m : Nat) (x : Med) : (s.setMed m x).regs = s.regs := by unfold State.setMed; split <;> rfl
@[simp] theorem State.setMed_active (m : Nat) (x : Med) : (s.setMed m x).active = s.active := by unfold State.setMed; split <;> rfl
@[simp] theorem State.setMed_pairHold (m : Nat) (x : Med) : (s.setMed m x).pairHold = s.pairHold := by unfold State.setMed; split <;> rfl
@[simp] theorem State.setMed_pairPend (m : Nat) (x : Med) : (s.setMed m x).pairPend = s.pairPend := by unfold State.setMed; split <;> rfl
@[simp] theorem State.setMed_thrs (m : Nat) (x : Med) : (s.setMed m x).thrs = s.thrs := by unfold State.setMed; split <;> rfl
@[simp] theorem State.setMed_campQ (m : Nat) (x : Med) : (s.setMed m x).campQ = s.campQ := by unfold State.setMed; split <;> rfl
@[simp] theorem State.setMed_heldMsgs (m : Nat) (x : Med) : (s.setMed m x).heldMsgs = s.heldMsgs := by unfold State.setMed; split <;> rfl
@[simp] theorem State.setMed_evSeen (m : Nat) (x : Med) : (s.setMed m x).evSeen = s.evSeen := by unfold State.setMed; split <;> rfl
@[simp] theorem State.setMed_rot (m : Nat) (x : Med) : (s.setMed m x).rot = s.rot := by unfold State.setMed; split <;> rfl
@[simp] theorem State.setMed_ic (m : Nat) (x : Med) : (s.setMed m x).ic = s.ic := by unfold State.setMed; split <;> rfl
@[simp] theorem State.setMed_cyc (m : Nat) (x : Med) : (s.setMed m x).cyc = s.cyc := by unfold State.setMed; split <;> rfl
@[simp] theorem State.setMed_divFree (m : Nat) (x : Med) : (s.setMed m x).divFree = s.divFree := by unfold State.setMed; split <;> rfl
@[simp] theorem State.setMed_ucs (m : Nat) (x : Med) : (s.setMed m x).ucs = s.ucs := by unfold State.setMed; split <;> rfl
@[simp] theorem State.setMed_mem (m : Nat) (x : Med) : (s.setMed m x).mem = s.mem := by unfold State.setMed; split <;> rfl
@[simp] theorem State.setMed_evt (m : Nat) (x : Med) : (s.setMed m x).evt = s.evt := by unfold State.setMed; split <;> rfl
@[simp] theorem State.setMed_dch (m : Nat) (x : Med) : (s.setMed m x).dch = s.dch := by unfold State.setMed; split <;> rfl
@[simp] theorem State.setMed_sha (m : Nat) (x : Med) : (s.setMed m x).sha = s.sha := by unfold State.setMed; split <;> rfl
@[simp] theorem State.setMed_gctx (m : Nat) (x : Med) : (s.setMed m x).gctx = s.gctx := by unfold State.setMed; split <;> rfl
@[simp] theorem State.setMed_gact0 (m : Nat) (x : Med) : (s.setMed m x).gact0 = s.gact0 := by unfold State.setMed; split <;> rfl
@[simp] theorem State.setMed_gact1 (m : Nat) (x : Med) : (s.setMed m x).gact1 = s.gact1 := by unfold State.setMed; split <;> rfl
@[simp] theorem State.setMed_gylQ (m : Nat) (x : Med) : (s.setMed m x).gylQ = s.gylQ := by unfold State.setMed; split <;> rfl
@[simp] theorem State.setMed_gylRun (m : Nat) (x : Med) : (s.setMed m x).gylRun = s.gylRun := by unfold State.setMed; split <;> rfl
@[simp] theorem State.setMed_sec (m : Nat) (x : Med) : (s.setMed m x).sec = s.sec := by unfold State.setMed; split <;> rfl
@[simp] theorem State.setMed_fw (m : Nat) (x : Med) : (s.setMed m x).fw = s.fw := by unfold State.setMed; split <;> rfl
@[simp] theorem State.setMed_spn (m : Nat) (x : Med) : (s.setMed m x).spn = s.spn := by unfold State.setMed; split <;> rfl
@[simp] theorem State.setMed_hif0 (m : Nat) (x : Med) : (s.setMed m x).hif0 = s.hif0 := by unfold State.setMed; split <;> rfl
@[simp] theorem State.setMed_hif1 (m : Nat) (x : Med) : (s.setMed m x).hif1 = s.hif1 := by unfold State.setMed; split <;> rfl
@[simp] theorem State.setMed_nvq (m : Nat) (x : Med) : (s.setMed m x).nvq = s.nvq := by unfold State.setMed; split <;> rfl
@[simp] theorem State.setMed_gs (m : Nat) (x : Med) : (s.setMed m x).gs = s.gs := by unfold State.setMed; split <;> rfl
@[simp] theorem State.setMed_svc (m : Nat) (x : Med) : (s.setMed m x).svc = s.svc := by unfold State.setMed; split <;> rfl
@[simp] theorem State.setMed_pwr (m : Nat) (x : Med) : (s.setMed m x).pwr = s.pwr := by unfold State.setMed; split <;> rfl
@[simp] theorem State.setMed_ptl (m : Nat) (x : Med) : (s.setMed m x).ptl = s.ptl := by unfold State.setMed; split <;> rfl
@[simp] theorem State.setMed_csc (m : Nat) (x : Med) : (s.setMed m x).csc = s.csc := by unfold State.setMed; split <;> rfl
@[simp] theorem State.setMed_dmaRemote (m : Nat) (x : Med) : (s.setMed m x).dmaRemote = s.dmaRemote := by unfold State.setMed; split <;> rfl
@[simp] theorem State.setMed_dmaLast (m : Nat) (x : Med) : (s.setMed m x).dmaLast = s.dmaLast := by unfold State.setMed; split <;> rfl

/-! ### setGact -/

@[simp] theorem State.setGact_pending (a : Nat) (x : GAct) : (s.setGact a x).pending = s.pending := by unfold State.setGact; split <;> rfl
@[simp] theorem State.setGact_now (a : Nat) (x : GAct) : (s.setGact a x).now = s.now := by unfold State.setGact; split <;> rfl
@[simp] theorem State.setGact_timeBase (a : Nat) (x : GAct) : (s.setGact a x).timeBase = s.timeBase := by unfold State.setGact; split <;> rfl
@[simp] theorem State.setGact_fresh (a : Nat) (x : GAct) : (s.setGact a x).fresh = s.fresh := by unfold State.setGact; split <;> rfl
@[simp] theorem State.setGact_out (a : Nat) (x : GAct) : (s.setGact a x).out = s.out := by unfold State.setGact; split <;> rfl
@[simp] theorem State.setGact_rdata (a : Nat) (x : GAct) : (s.setGact a x).rdata = s.rdata := by unfold State.setGact; split <;> rfl
@[simp] theorem State.setGact_regs (a : Nat) (x : GAct) : (s.setGact a x).regs = s.regs := by unfold State.setGact; split <;> rfl
@[simp] theorem State.setGact_active (a : Nat) (x : GAct) : (s.setGact a x).active = s.active := by unfold State.setGact; split <;> rfl
@[simp] theorem State.setGact_pairHold (a : Nat) (x : GAct) : (s.setGact a x).pairHold = s.pairHold := by unfold State.setGact; split <;> rfl
@[simp] theorem State.setGact_pairPend (a : Nat) (x : GAct) : (s.setGact a x).pairPend = s.pairPend := by unfold State.setGact; split <;> rfl
@[simp] theorem State.setGact_thrs (a : Nat) (x : GAct) : (s.setGact a x).thrs = s.thrs := by unfold State.setGact; split <;> rfl
@[simp] theorem State.setGact_campQ (a : Nat) (x : GAct) : (s.setGact a x).campQ = s.campQ := by unfold State.setGact; split <;> rfl
@[simp] theorem State.setGact_heldMsgs (a : Nat) (x : GAct) : (s.setGact a x).heldMsgs = s.heldMsgs := by unfold State.setGact; split <;> rfl
@[simp] theorem State.setGact_evSeen (a : Nat) (x : GAct) : (s.setGact a x).evSeen = s.evSeen := by unfold State.setGact; split <;> rfl
@[simp] theorem State.setGact_rot (a : Nat) (x : GAct) : (s.setGact a x).rot = s.rot := by unfold State.setGact; split <;> rfl
@[simp] theorem State.setGact_ic (a : Nat) (x : GAct) : (s.setGact a x).ic = s.ic := by unfold State.setGact; split <;> rfl
@[simp] theorem State.setGact_cyc (a : Nat) (x : GAct) : (s.setGact a x).cyc = s.cyc := by unfold State.setGact; split <;> rfl
@[simp] theorem State.setGact_divFree (a : Nat) (x : GAct) : (s.setGact a x).divFree = s.divFree := by unfold State.setGact; split <;> rfl
@[simp] theorem State.setGact_ucs (a : Nat) (x : GAct) : (s.setGact a x).ucs = s.ucs := by unfold State.setGact; split <;> rfl
@[simp] theorem State.setGact_mem (a : Nat) (x : GAct) : (s.setGact a x).mem = s.mem := by unfold State.setGact; split <;> rfl
@[simp] theorem State.setGact_evt (a : Nat) (x : GAct) : (s.setGact a x).evt = s.evt := by unfold State.setGact; split <;> rfl
@[simp] theorem State.setGact_med0 (a : Nat) (x : GAct) : (s.setGact a x).med0 = s.med0 := by unfold State.setGact; split <;> rfl
@[simp] theorem State.setGact_med1 (a : Nat) (x : GAct) : (s.setGact a x).med1 = s.med1 := by unfold State.setGact; split <;> rfl
@[simp] theorem State.setGact_dch (a : Nat) (x : GAct) : (s.setGact a x).dch = s.dch := by unfold State.setGact; split <;> rfl
@[simp] theorem State.setGact_sha (a : Nat) (x : GAct) : (s.setGact a x).sha = s.sha := by unfold State.setGact; split <;> rfl
@[simp] theorem State.setGact_gctx (a : Nat) (x : GAct) : (s.setGact a x).gctx = s.gctx := by unfold State.setGact; split <;> rfl
@[simp] theorem State.setGact_gylQ (a : Nat) (x : GAct) : (s.setGact a x).gylQ = s.gylQ := by unfold State.setGact; split <;> rfl
@[simp] theorem State.setGact_gylRun (a : Nat) (x : GAct) : (s.setGact a x).gylRun = s.gylRun := by unfold State.setGact; split <;> rfl
@[simp] theorem State.setGact_sec (a : Nat) (x : GAct) : (s.setGact a x).sec = s.sec := by unfold State.setGact; split <;> rfl
@[simp] theorem State.setGact_fw (a : Nat) (x : GAct) : (s.setGact a x).fw = s.fw := by unfold State.setGact; split <;> rfl
@[simp] theorem State.setGact_spn (a : Nat) (x : GAct) : (s.setGact a x).spn = s.spn := by unfold State.setGact; split <;> rfl
@[simp] theorem State.setGact_hif0 (a : Nat) (x : GAct) : (s.setGact a x).hif0 = s.hif0 := by unfold State.setGact; split <;> rfl
@[simp] theorem State.setGact_hif1 (a : Nat) (x : GAct) : (s.setGact a x).hif1 = s.hif1 := by unfold State.setGact; split <;> rfl
@[simp] theorem State.setGact_nvq (a : Nat) (x : GAct) : (s.setGact a x).nvq = s.nvq := by unfold State.setGact; split <;> rfl
@[simp] theorem State.setGact_gs (a : Nat) (x : GAct) : (s.setGact a x).gs = s.gs := by unfold State.setGact; split <;> rfl
@[simp] theorem State.setGact_svc (a : Nat) (x : GAct) : (s.setGact a x).svc = s.svc := by unfold State.setGact; split <;> rfl
@[simp] theorem State.setGact_pwr (a : Nat) (x : GAct) : (s.setGact a x).pwr = s.pwr := by unfold State.setGact; split <;> rfl
@[simp] theorem State.setGact_ptl (a : Nat) (x : GAct) : (s.setGact a x).ptl = s.ptl := by unfold State.setGact; split <;> rfl
@[simp] theorem State.setGact_csc (a : Nat) (x : GAct) : (s.setGact a x).csc = s.csc := by unfold State.setGact; split <;> rfl
@[simp] theorem State.setGact_dmaRemote (a : Nat) (x : GAct) : (s.setGact a x).dmaRemote = s.dmaRemote := by unfold State.setGact; split <;> rfl
@[simp] theorem State.setGact_dmaLast (a : Nat) (x : GAct) : (s.setGact a x).dmaLast = s.dmaLast := by unfold State.setGact; split <;> rfl

/-! ### setHp -/

@[simp] theorem State.setHp_pending (n : Nat) (x : HifP) : (s.setHp n x).pending = s.pending := by unfold State.setHp; split <;> rfl
@[simp] theorem State.setHp_now (n : Nat) (x : HifP) : (s.setHp n x).now = s.now := by unfold State.setHp; split <;> rfl
@[simp] theorem State.setHp_timeBase (n : Nat) (x : HifP) : (s.setHp n x).timeBase = s.timeBase := by unfold State.setHp; split <;> rfl
@[simp] theorem State.setHp_fresh (n : Nat) (x : HifP) : (s.setHp n x).fresh = s.fresh := by unfold State.setHp; split <;> rfl
@[simp] theorem State.setHp_out (n : Nat) (x : HifP) : (s.setHp n x).out = s.out := by unfold State.setHp; split <;> rfl
@[simp] theorem State.setHp_rdata (n : Nat) (x : HifP) : (s.setHp n x).rdata = s.rdata := by unfold State.setHp; split <;> rfl
@[simp] theorem State.setHp_regs (n : Nat) (x : HifP) : (s.setHp n x).regs = s.regs := by unfold State.setHp; split <;> rfl
@[simp] theorem State.setHp_active (n : Nat) (x : HifP) : (s.setHp n x).active = s.active := by unfold State.setHp; split <;> rfl
@[simp] theorem State.setHp_pairHold (n : Nat) (x : HifP) : (s.setHp n x).pairHold = s.pairHold := by unfold State.setHp; split <;> rfl
@[simp] theorem State.setHp_pairPend (n : Nat) (x : HifP) : (s.setHp n x).pairPend = s.pairPend := by unfold State.setHp; split <;> rfl
@[simp] theorem State.setHp_thrs (n : Nat) (x : HifP) : (s.setHp n x).thrs = s.thrs := by unfold State.setHp; split <;> rfl
@[simp] theorem State.setHp_campQ (n : Nat) (x : HifP) : (s.setHp n x).campQ = s.campQ := by unfold State.setHp; split <;> rfl
@[simp] theorem State.setHp_heldMsgs (n : Nat) (x : HifP) : (s.setHp n x).heldMsgs = s.heldMsgs := by unfold State.setHp; split <;> rfl
@[simp] theorem State.setHp_evSeen (n : Nat) (x : HifP) : (s.setHp n x).evSeen = s.evSeen := by unfold State.setHp; split <;> rfl
@[simp] theorem State.setHp_rot (n : Nat) (x : HifP) : (s.setHp n x).rot = s.rot := by unfold State.setHp; split <;> rfl
@[simp] theorem State.setHp_ic (n : Nat) (x : HifP) : (s.setHp n x).ic = s.ic := by unfold State.setHp; split <;> rfl
@[simp] theorem State.setHp_cyc (n : Nat) (x : HifP) : (s.setHp n x).cyc = s.cyc := by unfold State.setHp; split <;> rfl
@[simp] theorem State.setHp_divFree (n : Nat) (x : HifP) : (s.setHp n x).divFree = s.divFree := by unfold State.setHp; split <;> rfl
@[simp] theorem State.setHp_ucs (n : Nat) (x : HifP) : (s.setHp n x).ucs = s.ucs := by unfold State.setHp; split <;> rfl
@[simp] theorem State.setHp_mem (n : Nat) (x : HifP) : (s.setHp n x).mem = s.mem := by unfold State.setHp; split <;> rfl
@[simp] theorem State.setHp_evt (n : Nat) (x : HifP) : (s.setHp n x).evt = s.evt := by unfold State.setHp; split <;> rfl
@[simp] theorem State.setHp_med0 (n : Nat) (x : HifP) : (s.setHp n x).med0 = s.med0 := by unfold State.setHp; split <;> rfl
@[simp] theorem State.setHp_med1 (n : Nat) (x : HifP) : (s.setHp n x).med1 = s.med1 := by unfold State.setHp; split <;> rfl
@[simp] theorem State.setHp_dch (n : Nat) (x : HifP) : (s.setHp n x).dch = s.dch := by unfold State.setHp; split <;> rfl
@[simp] theorem State.setHp_sha (n : Nat) (x : HifP) : (s.setHp n x).sha = s.sha := by unfold State.setHp; split <;> rfl
@[simp] theorem State.setHp_gctx (n : Nat) (x : HifP) : (s.setHp n x).gctx = s.gctx := by unfold State.setHp; split <;> rfl
@[simp] theorem State.setHp_gact0 (n : Nat) (x : HifP) : (s.setHp n x).gact0 = s.gact0 := by unfold State.setHp; split <;> rfl
@[simp] theorem State.setHp_gact1 (n : Nat) (x : HifP) : (s.setHp n x).gact1 = s.gact1 := by unfold State.setHp; split <;> rfl
@[simp] theorem State.setHp_gylQ (n : Nat) (x : HifP) : (s.setHp n x).gylQ = s.gylQ := by unfold State.setHp; split <;> rfl
@[simp] theorem State.setHp_gylRun (n : Nat) (x : HifP) : (s.setHp n x).gylRun = s.gylRun := by unfold State.setHp; split <;> rfl
@[simp] theorem State.setHp_sec (n : Nat) (x : HifP) : (s.setHp n x).sec = s.sec := by unfold State.setHp; split <;> rfl
@[simp] theorem State.setHp_fw (n : Nat) (x : HifP) : (s.setHp n x).fw = s.fw := by unfold State.setHp; split <;> rfl
@[simp] theorem State.setHp_spn (n : Nat) (x : HifP) : (s.setHp n x).spn = s.spn := by unfold State.setHp; split <;> rfl
@[simp] theorem State.setHp_nvq (n : Nat) (x : HifP) : (s.setHp n x).nvq = s.nvq := by unfold State.setHp; split <;> rfl
@[simp] theorem State.setHp_gs (n : Nat) (x : HifP) : (s.setHp n x).gs = s.gs := by unfold State.setHp; split <;> rfl
@[simp] theorem State.setHp_svc (n : Nat) (x : HifP) : (s.setHp n x).svc = s.svc := by unfold State.setHp; split <;> rfl
@[simp] theorem State.setHp_pwr (n : Nat) (x : HifP) : (s.setHp n x).pwr = s.pwr := by unfold State.setHp; split <;> rfl
@[simp] theorem State.setHp_ptl (n : Nat) (x : HifP) : (s.setHp n x).ptl = s.ptl := by unfold State.setHp; split <;> rfl
@[simp] theorem State.setHp_csc (n : Nat) (x : HifP) : (s.setHp n x).csc = s.csc := by unfold State.setHp; split <;> rfl
@[simp] theorem State.setHp_dmaRemote (n : Nat) (x : HifP) : (s.setHp n x).dmaRemote = s.dmaRemote := by unfold State.setHp; split <;> rfl
@[simp] theorem State.setHp_dmaLast (n : Nat) (x : HifP) : (s.setHp n x).dmaLast = s.dmaLast := by unfold State.setHp; split <;> rfl

/-! ### setLink -/

@[simp] theorem State.setLink_pending (z : Nat) (x : ZLink) : (s.setLink z x).pending = s.pending := by unfold State.setLink; split <;> rfl
@[simp] theorem State.setLink_now (z : Nat) (x : ZLink) : (s.setLink z x).now = s.now := by unfold State.setLink; split <;> rfl
@[simp] theorem State.setLink_timeBase (z : Nat) (x : ZLink) : (s.setLink z x).timeBase = s.timeBase := by unfold State.setLink; split <;> rfl
@[simp] theorem State.setLink_fresh (z : Nat) (x : ZLink) : (s.setLink z x).fresh = s.fresh := by unfold State.setLink; split <;> rfl
@[simp] theorem State.setLink_out (z : Nat) (x : ZLink) : (s.setLink z x).out = s.out := by unfold State.setLink; split <;> rfl
@[simp] theorem State.setLink_rdata (z : Nat) (x : ZLink) : (s.setLink z x).rdata = s.rdata := by unfold State.setLink; split <;> rfl
@[simp] theorem State.setLink_regs (z : Nat) (x : ZLink) : (s.setLink z x).regs = s.regs := by unfold State.setLink; split <;> rfl
@[simp] theorem State.setLink_active (z : Nat) (x : ZLink) : (s.setLink z x).active = s.active := by unfold State.setLink; split <;> rfl
@[simp] theorem State.setLink_pairHold (z : Nat) (x : ZLink) : (s.setLink z x).pairHold = s.pairHold := by unfold State.setLink; split <;> rfl
@[simp] theorem State.setLink_pairPend (z : Nat) (x : ZLink) : (s.setLink z x).pairPend = s.pairPend := by unfold State.setLink; split <;> rfl
@[simp] theorem State.setLink_thrs (z : Nat) (x : ZLink) : (s.setLink z x).thrs = s.thrs := by unfold State.setLink; split <;> rfl
@[simp] theorem State.setLink_campQ (z : Nat) (x : ZLink) : (s.setLink z x).campQ = s.campQ := by unfold State.setLink; split <;> rfl
@[simp] theorem State.setLink_heldMsgs (z : Nat) (x : ZLink) : (s.setLink z x).heldMsgs = s.heldMsgs := by unfold State.setLink; split <;> rfl
@[simp] theorem State.setLink_evSeen (z : Nat) (x : ZLink) : (s.setLink z x).evSeen = s.evSeen := by unfold State.setLink; split <;> rfl
@[simp] theorem State.setLink_rot (z : Nat) (x : ZLink) : (s.setLink z x).rot = s.rot := by unfold State.setLink; split <;> rfl
@[simp] theorem State.setLink_ic (z : Nat) (x : ZLink) : (s.setLink z x).ic = s.ic := by unfold State.setLink; split <;> rfl
@[simp] theorem State.setLink_cyc (z : Nat) (x : ZLink) : (s.setLink z x).cyc = s.cyc := by unfold State.setLink; split <;> rfl
@[simp] theorem State.setLink_divFree (z : Nat) (x : ZLink) : (s.setLink z x).divFree = s.divFree := by unfold State.setLink; split <;> rfl
@[simp] theorem State.setLink_ucs (z : Nat) (x : ZLink) : (s.setLink z x).ucs = s.ucs := by unfold State.setLink; split <;> rfl
@[simp] theorem State.setLink_mem (z : Nat) (x : ZLink) : (s.setLink z x).mem = s.mem := by unfold State.setLink; split <;> rfl
@[simp] theorem State.setLink_evt (z : Nat) (x : ZLink) : (s.setLink z x).evt = s.evt := by unfold State.setLink; split <;> rfl
@[simp] theorem State.setLink_med0 (z : Nat) (x : ZLink) : (s.setLink z x).med0 = s.med0 := by unfold State.setLink; split <;> rfl
@[simp] theorem State.setLink_med1 (z : Nat) (x : ZLink) : (s.setLink z x).med1 = s.med1 := by unfold State.setLink; split <;> rfl
@[simp] theorem State.setLink_dch (z : Nat) (x : ZLink) : (s.setLink z x).dch = s.dch := by unfold State.setLink; split <;> rfl
@[simp] theorem State.setLink_sha (z : Nat) (x : ZLink) : (s.setLink z x).sha = s.sha := by unfold State.setLink; split <;> rfl
@[simp] theorem State.setLink_gctx (z : Nat) (x : ZLink) : (s.setLink z x).gctx = s.gctx := by unfold State.setLink; split <;> rfl
@[simp] theorem State.setLink_gact0 (z : Nat) (x : ZLink) : (s.setLink z x).gact0 = s.gact0 := by unfold State.setLink; split <;> rfl
@[simp] theorem State.setLink_gact1 (z : Nat) (x : ZLink) : (s.setLink z x).gact1 = s.gact1 := by unfold State.setLink; split <;> rfl
@[simp] theorem State.setLink_gylQ (z : Nat) (x : ZLink) : (s.setLink z x).gylQ = s.gylQ := by unfold State.setLink; split <;> rfl
@[simp] theorem State.setLink_gylRun (z : Nat) (x : ZLink) : (s.setLink z x).gylRun = s.gylRun := by unfold State.setLink; split <;> rfl
@[simp] theorem State.setLink_sec (z : Nat) (x : ZLink) : (s.setLink z x).sec = s.sec := by unfold State.setLink; split <;> rfl
@[simp] theorem State.setLink_fw (z : Nat) (x : ZLink) : (s.setLink z x).fw = s.fw := by unfold State.setLink; split <;> rfl
@[simp] theorem State.setLink_spn (z : Nat) (x : ZLink) : (s.setLink z x).spn = s.spn := by unfold State.setLink; split <;> rfl
@[simp] theorem State.setLink_hif0 (z : Nat) (x : ZLink) : (s.setLink z x).hif0 = s.hif0 := by unfold State.setLink; split <;> rfl
@[simp] theorem State.setLink_hif1 (z : Nat) (x : ZLink) : (s.setLink z x).hif1 = s.hif1 := by unfold State.setLink; split <;> rfl
@[simp] theorem State.setLink_nvq (z : Nat) (x : ZLink) : (s.setLink z x).nvq = s.nvq := by unfold State.setLink; split <;> rfl
@[simp] theorem State.setLink_gs (z : Nat) (x : ZLink) : (s.setLink z x).gs = s.gs := by unfold State.setLink; split <;> rfl
@[simp] theorem State.setLink_svc (z : Nat) (x : ZLink) : (s.setLink z x).svc = s.svc := by unfold State.setLink; split <;> rfl
@[simp] theorem State.setLink_pwr (z : Nat) (x : ZLink) : (s.setLink z x).pwr = s.pwr := by unfold State.setLink; split <;> rfl
@[simp] theorem State.setLink_ptl (z : Nat) (x : ZLink) : (s.setLink z x).ptl = s.ptl := by unfold State.setLink; split <;> rfl
@[simp] theorem State.setLink_dmaRemote (z : Nat) (x : ZLink) : (s.setLink z x).dmaRemote = s.dmaRemote := by unfold State.setLink; split <;> rfl
@[simp] theorem State.setLink_dmaLast (z : Nat) (x : ZLink) : (s.setLink z x).dmaLast = s.dmaLast := by unfold State.setLink; split <;> rfl

/-! ### setCtl -/

@[simp] theorem State.setCtl_pending (n : Nat) (x : NCtl) : (s.setCtl n x).pending = s.pending := rfl
@[simp] theorem State.setCtl_now (n : Nat) (x : NCtl) : (s.setCtl n x).now = s.now := rfl
@[simp] theorem State.setCtl_timeBase (n : Nat) (x : NCtl) : (s.setCtl n x).timeBase = s.timeBase := rfl
@[simp] theorem State.setCtl_fresh (n : Nat) (x : NCtl) : (s.setCtl n x).fresh = s.fresh := rfl
@[simp] theorem State.setCtl_out (n : Nat) (x : NCtl) : (s.setCtl n x).out = s.out := rfl
@[simp] theorem State.setCtl_rdata (n : Nat) (x : NCtl) : (s.setCtl n x).rdata = s.rdata := rfl
@[simp] theorem State.setCtl_regs (n : Nat) (x : NCtl) : (s.setCtl n x).regs = s.regs := rfl
@[simp] theorem State.setCtl_active (n : Nat) (x : NCtl) : (s.setCtl n x).active = s.active := rfl
@[simp] theorem State.setCtl_pairHold (n : Nat) (x : NCtl) : (s.setCtl n x).pairHold = s.pairHold := rfl
@[simp] theorem State.setCtl_pairPend (n : Nat) (x : NCtl) : (s.setCtl n x).pairPend = s.pairPend := rfl
@[simp] theorem State.setCtl_thrs (n : Nat) (x : NCtl) : (s.setCtl n x).thrs = s.thrs := rfl
@[simp] theorem State.setCtl_campQ (n : Nat) (x : NCtl) : (s.setCtl n x).campQ = s.campQ := rfl
@[simp] theorem State.setCtl_heldMsgs (n : Nat) (x : NCtl) : (s.setCtl n x).heldMsgs = s.heldMsgs := rfl
@[simp] theorem State.setCtl_evSeen (n : Nat) (x : NCtl) : (s.setCtl n x).evSeen = s.evSeen := rfl
@[simp] theorem State.setCtl_rot (n : Nat) (x : NCtl) : (s.setCtl n x).rot = s.rot := rfl
@[simp] theorem State.setCtl_ic (n : Nat) (x : NCtl) : (s.setCtl n x).ic = s.ic := rfl
@[simp] theorem State.setCtl_cyc (n : Nat) (x : NCtl) : (s.setCtl n x).cyc = s.cyc := rfl
@[simp] theorem State.setCtl_divFree (n : Nat) (x : NCtl) : (s.setCtl n x).divFree = s.divFree := rfl
@[simp] theorem State.setCtl_ucs (n : Nat) (x : NCtl) : (s.setCtl n x).ucs = s.ucs := rfl
@[simp] theorem State.setCtl_mem (n : Nat) (x : NCtl) : (s.setCtl n x).mem = s.mem := rfl
@[simp] theorem State.setCtl_evt (n : Nat) (x : NCtl) : (s.setCtl n x).evt = s.evt := rfl
@[simp] theorem State.setCtl_med0 (n : Nat) (x : NCtl) : (s.setCtl n x).med0 = s.med0 := rfl
@[simp] theorem State.setCtl_med1 (n : Nat) (x : NCtl) : (s.setCtl n x).med1 = s.med1 := rfl
@[simp] theorem State.setCtl_dch (n : Nat) (x : NCtl) : (s.setCtl n x).dch = s.dch := rfl
@[simp] theorem State.setCtl_sha (n : Nat) (x : NCtl) : (s.setCtl n x).sha = s.sha := rfl
@[simp] theorem State.setCtl_gctx (n : Nat) (x : NCtl) : (s.setCtl n x).gctx = s.gctx := rfl
@[simp] theorem State.setCtl_gact0 (n : Nat) (x : NCtl) : (s.setCtl n x).gact0 = s.gact0 := rfl
@[simp] theorem State.setCtl_gact1 (n : Nat) (x : NCtl) : (s.setCtl n x).gact1 = s.gact1 := rfl
@[simp] theorem State.setCtl_gylQ (n : Nat) (x : NCtl) : (s.setCtl n x).gylQ = s.gylQ := rfl
@[simp] theorem State.setCtl_gylRun (n : Nat) (x : NCtl) : (s.setCtl n x).gylRun = s.gylRun := rfl
@[simp] theorem State.setCtl_sec (n : Nat) (x : NCtl) : (s.setCtl n x).sec = s.sec := rfl
@[simp] theorem State.setCtl_fw (n : Nat) (x : NCtl) : (s.setCtl n x).fw = s.fw := rfl
@[simp] theorem State.setCtl_spn (n : Nat) (x : NCtl) : (s.setCtl n x).spn = s.spn := rfl
@[simp] theorem State.setCtl_hif0 (n : Nat) (x : NCtl) : (s.setCtl n x).hif0 = s.hif0 := rfl
@[simp] theorem State.setCtl_hif1 (n : Nat) (x : NCtl) : (s.setCtl n x).hif1 = s.hif1 := rfl
@[simp] theorem State.setCtl_gs (n : Nat) (x : NCtl) : (s.setCtl n x).gs = s.gs := rfl
@[simp] theorem State.setCtl_svc (n : Nat) (x : NCtl) : (s.setCtl n x).svc = s.svc := rfl
@[simp] theorem State.setCtl_pwr (n : Nat) (x : NCtl) : (s.setCtl n x).pwr = s.pwr := rfl
@[simp] theorem State.setCtl_ptl (n : Nat) (x : NCtl) : (s.setCtl n x).ptl = s.ptl := rfl
@[simp] theorem State.setCtl_csc (n : Nat) (x : NCtl) : (s.setCtl n x).csc = s.csc := rfl
@[simp] theorem State.setCtl_dmaRemote (n : Nat) (x : NCtl) : (s.setCtl n x).dmaRemote = s.dmaRemote := rfl
@[simp] theorem State.setCtl_dmaLast (n : Nat) (x : NCtl) : (s.setCtl n x).dmaLast = s.dmaLast := rfl

/-! ### setSq -/

@[simp] theorem State.setSq_pending (k : Nat) (x : NSq) : (s.setSq k x).pending = s.pending := rfl
@[simp] theorem State.setSq_now (k : Nat) (x : NSq) : (s.setSq k x).now = s.now := rfl
@[simp] theorem State.setSq_timeBase (k : Nat) (x : NSq) : (s.setSq k x).timeBase = s.timeBase := rfl
@[simp] theorem State.setSq_fresh (k : Nat) (x : NSq) : (s.setSq k x).fresh = s.fresh := rfl
@[simp] theorem State.setSq_out (k : Nat) (x : NSq) : (s.setSq k x).out = s.out := rfl
@[simp] theorem State.setSq_rdata (k : Nat) (x : NSq) : (s.setSq k x).rdata = s.rdata := rfl
@[simp] theorem State.setSq_regs (k : Nat) (x : NSq) : (s.setSq k x).regs = s.regs := rfl
@[simp] theorem State.setSq_active (k : Nat) (x : NSq) : (s.setSq k x).active = s.active := rfl
@[simp] theorem State.setSq_pairHold (k : Nat) (x : NSq) : (s.setSq k x).pairHold = s.pairHold := rfl
@[simp] theorem State.setSq_pairPend (k : Nat) (x : NSq) : (s.setSq k x).pairPend = s.pairPend := rfl
@[simp] theorem State.setSq_thrs (k : Nat) (x : NSq) : (s.setSq k x).thrs = s.thrs := rfl
@[simp] theorem State.setSq_campQ (k : Nat) (x : NSq) : (s.setSq k x).campQ = s.campQ := rfl
@[simp] theorem State.setSq_heldMsgs (k : Nat) (x : NSq) : (s.setSq k x).heldMsgs = s.heldMsgs := rfl
@[simp] theorem State.setSq_evSeen (k : Nat) (x : NSq) : (s.setSq k x).evSeen = s.evSeen := rfl
@[simp] theorem State.setSq_rot (k : Nat) (x : NSq) : (s.setSq k x).rot = s.rot := rfl
@[simp] theorem State.setSq_ic (k : Nat) (x : NSq) : (s.setSq k x).ic = s.ic := rfl
@[simp] theorem State.setSq_cyc (k : Nat) (x : NSq) : (s.setSq k x).cyc = s.cyc := rfl
@[simp] theorem State.setSq_divFree (k : Nat) (x : NSq) : (s.setSq k x).divFree = s.divFree := rfl
@[simp] theorem State.setSq_ucs (k : Nat) (x : NSq) : (s.setSq k x).ucs = s.ucs := rfl
@[simp] theorem State.setSq_mem (k : Nat) (x : NSq) : (s.setSq k x).mem = s.mem := rfl
@[simp] theorem State.setSq_evt (k : Nat) (x : NSq) : (s.setSq k x).evt = s.evt := rfl
@[simp] theorem State.setSq_med0 (k : Nat) (x : NSq) : (s.setSq k x).med0 = s.med0 := rfl
@[simp] theorem State.setSq_med1 (k : Nat) (x : NSq) : (s.setSq k x).med1 = s.med1 := rfl
@[simp] theorem State.setSq_dch (k : Nat) (x : NSq) : (s.setSq k x).dch = s.dch := rfl
@[simp] theorem State.setSq_sha (k : Nat) (x : NSq) : (s.setSq k x).sha = s.sha := rfl
@[simp] theorem State.setSq_gctx (k : Nat) (x : NSq) : (s.setSq k x).gctx = s.gctx := rfl
@[simp] theorem State.setSq_gact0 (k : Nat) (x : NSq) : (s.setSq k x).gact0 = s.gact0 := rfl
@[simp] theorem State.setSq_gact1 (k : Nat) (x : NSq) : (s.setSq k x).gact1 = s.gact1 := rfl
@[simp] theorem State.setSq_gylQ (k : Nat) (x : NSq) : (s.setSq k x).gylQ = s.gylQ := rfl
@[simp] theorem State.setSq_gylRun (k : Nat) (x : NSq) : (s.setSq k x).gylRun = s.gylRun := rfl
@[simp] theorem State.setSq_sec (k : Nat) (x : NSq) : (s.setSq k x).sec = s.sec := rfl
@[simp] theorem State.setSq_fw (k : Nat) (x : NSq) : (s.setSq k x).fw = s.fw := rfl
@[simp] theorem State.setSq_spn (k : Nat) (x : NSq) : (s.setSq k x).spn = s.spn := rfl
@[simp] theorem State.setSq_hif0 (k : Nat) (x : NSq) : (s.setSq k x).hif0 = s.hif0 := rfl
@[simp] theorem State.setSq_hif1 (k : Nat) (x : NSq) : (s.setSq k x).hif1 = s.hif1 := rfl
@[simp] theorem State.setSq_gs (k : Nat) (x : NSq) : (s.setSq k x).gs = s.gs := rfl
@[simp] theorem State.setSq_svc (k : Nat) (x : NSq) : (s.setSq k x).svc = s.svc := rfl
@[simp] theorem State.setSq_pwr (k : Nat) (x : NSq) : (s.setSq k x).pwr = s.pwr := rfl
@[simp] theorem State.setSq_ptl (k : Nat) (x : NSq) : (s.setSq k x).ptl = s.ptl := rfl
@[simp] theorem State.setSq_csc (k : Nat) (x : NSq) : (s.setSq k x).csc = s.csc := rfl
@[simp] theorem State.setSq_dmaRemote (k : Nat) (x : NSq) : (s.setSq k x).dmaRemote = s.dmaRemote := rfl
@[simp] theorem State.setSq_dmaLast (k : Nat) (x : NSq) : (s.setSq k x).dmaLast = s.dmaLast := rfl

/-! ### setCq -/

@[simp] theorem State.setCq_pending (k : Nat) (x : NCq) : (s.setCq k x).pending = s.pending := rfl
@[simp] theorem State.setCq_now (k : Nat) (x : NCq) : (s.setCq k x).now = s.now := rfl
@[simp] theorem State.setCq_timeBase (k : Nat) (x : NCq) : (s.setCq k x).timeBase = s.timeBase := rfl
@[simp] theorem State.setCq_fresh (k : Nat) (x : NCq) : (s.setCq k x).fresh = s.fresh := rfl
@[simp] theorem State.setCq_out (k : Nat) (x : NCq) : (s.setCq k x).out = s.out := rfl
@[simp] theorem State.setCq_rdata (k : Nat) (x : NCq) : (s.setCq k x).rdata = s.rdata := rfl
@[simp] theorem State.setCq_regs (k : Nat) (x : NCq) : (s.setCq k x).regs = s.regs := rfl
@[simp] theorem State.setCq_active (k : Nat) (x : NCq) : (s.setCq k x).active = s.active := rfl
@[simp] theorem State.setCq_pairHold (k : Nat) (x : NCq) : (s.setCq k x).pairHold = s.pairHold := rfl
@[simp] theorem State.setCq_pairPend (k : Nat) (x : NCq) : (s.setCq k x).pairPend = s.pairPend := rfl
@[simp] theorem State.setCq_thrs (k : Nat) (x : NCq) : (s.setCq k x).thrs = s.thrs := rfl
@[simp] theorem State.setCq_campQ (k : Nat) (x : NCq) : (s.setCq k x).campQ = s.campQ := rfl
@[simp] theorem State.setCq_heldMsgs (k : Nat) (x : NCq) : (s.setCq k x).heldMsgs = s.heldMsgs := rfl
@[simp] theorem State.setCq_evSeen (k : Nat) (x : NCq) : (s.setCq k x).evSeen = s.evSeen := rfl
@[simp] theorem State.setCq_rot (k : Nat) (x : NCq) : (s.setCq k x).rot = s.rot := rfl
@[simp] theorem State.setCq_ic (k : Nat) (x : NCq) : (s.setCq k x).ic = s.ic := rfl
@[simp] theorem State.setCq_cyc (k : Nat) (x : NCq) : (s.setCq k x).cyc = s.cyc := rfl
@[simp] theorem State.setCq_divFree (k : Nat) (x : NCq) : (s.setCq k x).divFree = s.divFree := rfl
@[simp] theorem State.setCq_ucs (k : Nat) (x : NCq) : (s.setCq k x).ucs = s.ucs := rfl
@[simp] theorem State.setCq_mem (k : Nat) (x : NCq) : (s.setCq k x).mem = s.mem := rfl
@[simp] theorem State.setCq_evt (k : Nat) (x : NCq) : (s.setCq k x).evt = s.evt := rfl
@[simp] theorem State.setCq_med0 (k : Nat) (x : NCq) : (s.setCq k x).med0 = s.med0 := rfl
@[simp] theorem State.setCq_med1 (k : Nat) (x : NCq) : (s.setCq k x).med1 = s.med1 := rfl
@[simp] theorem State.setCq_dch (k : Nat) (x : NCq) : (s.setCq k x).dch = s.dch := rfl
@[simp] theorem State.setCq_sha (k : Nat) (x : NCq) : (s.setCq k x).sha = s.sha := rfl
@[simp] theorem State.setCq_gctx (k : Nat) (x : NCq) : (s.setCq k x).gctx = s.gctx := rfl
@[simp] theorem State.setCq_gact0 (k : Nat) (x : NCq) : (s.setCq k x).gact0 = s.gact0 := rfl
@[simp] theorem State.setCq_gact1 (k : Nat) (x : NCq) : (s.setCq k x).gact1 = s.gact1 := rfl
@[simp] theorem State.setCq_gylQ (k : Nat) (x : NCq) : (s.setCq k x).gylQ = s.gylQ := rfl
@[simp] theorem State.setCq_gylRun (k : Nat) (x : NCq) : (s.setCq k x).gylRun = s.gylRun := rfl
@[simp] theorem State.setCq_sec (k : Nat) (x : NCq) : (s.setCq k x).sec = s.sec := rfl
@[simp] theorem State.setCq_fw (k : Nat) (x : NCq) : (s.setCq k x).fw = s.fw := rfl
@[simp] theorem State.setCq_spn (k : Nat) (x : NCq) : (s.setCq k x).spn = s.spn := rfl
@[simp] theorem State.setCq_hif0 (k : Nat) (x : NCq) : (s.setCq k x).hif0 = s.hif0 := rfl
@[simp] theorem State.setCq_hif1 (k : Nat) (x : NCq) : (s.setCq k x).hif1 = s.hif1 := rfl
@[simp] theorem State.setCq_gs (k : Nat) (x : NCq) : (s.setCq k x).gs = s.gs := rfl
@[simp] theorem State.setCq_svc (k : Nat) (x : NCq) : (s.setCq k x).svc = s.svc := rfl
@[simp] theorem State.setCq_pwr (k : Nat) (x : NCq) : (s.setCq k x).pwr = s.pwr := rfl
@[simp] theorem State.setCq_ptl (k : Nat) (x : NCq) : (s.setCq k x).ptl = s.ptl := rfl
@[simp] theorem State.setCq_csc (k : Nat) (x : NCq) : (s.setCq k x).csc = s.csc := rfl
@[simp] theorem State.setCq_dmaRemote (k : Nat) (x : NCq) : (s.setCq k x).dmaRemote = s.dmaRemote := rfl
@[simp] theorem State.setCq_dmaLast (k : Nat) (x : NCq) : (s.setCq k x).dmaLast = s.dmaLast := rfl

/-! ### Reads of the other components after an update -/

@[simp] theorem State.act_setReg (o : Nat) (v : W32) (i : Nat) : (s.setReg o v).act i = s.act i := rfl
@[simp] theorem State.thr_setReg (o : Nat) (v : W32) (i : Nat) : (s.setReg o v).thr i = s.thr i := rfl
@[simp] theorem State.queue_setReg (o : Nat) (v : W32) (i : Nat) : (s.setReg o v).queue i = s.queue i := rfl
@[simp] theorem State.dmaCh_setReg (o : Nat) (v : W32) (i : Nat) : (s.setReg o v).dmaCh i = s.dmaCh i := rfl
@[simp] theorem State.shaEng_setReg (o : Nat) (v : W32) (i : Nat) : (s.setReg o v).shaEng i = s.shaEng i := rfl
@[simp] theorem State.gc_setReg (o : Nat) (v : W32) (i : Nat) : (s.setReg o v).gc i = s.gc i := rfl
@[simp] theorem State.reg_setAct (o : Nat) (v : W32) (i : Nat) : (s.setAct o v).reg i = s.reg i := rfl
@[simp] theorem State.thr_setAct (o : Nat) (v : W32) (i : Nat) : (s.setAct o v).thr i = s.thr i := rfl
@[simp] theorem State.queue_setAct (o : Nat) (v : W32) (i : Nat) : (s.setAct o v).queue i = s.queue i := rfl
@[simp] theorem State.dmaCh_setAct (o : Nat) (v : W32) (i : Nat) : (s.setAct o v).dmaCh i = s.dmaCh i := rfl
@[simp] theorem State.shaEng_setAct (o : Nat) (v : W32) (i : Nat) : (s.setAct o v).shaEng i = s.shaEng i := rfl
@[simp] theorem State.gc_setAct (o : Nat) (v : W32) (i : Nat) : (s.setAct o v).gc i = s.gc i := rfl
@[simp] theorem State.reg_emit (e : OutEvent) (i : Nat) : (s.emit e).reg i = s.reg i := rfl
@[simp] theorem State.act_emit (e : OutEvent) (i : Nat) : (s.emit e).act i = s.act i := rfl
@[simp] theorem State.thr_emit (e : OutEvent) (i : Nat) : (s.emit e).thr i = s.thr i := rfl
@[simp] theorem State.queue_emit (e : OutEvent) (i : Nat) : (s.emit e).queue i = s.queue i := rfl
@[simp] theorem State.dmaCh_emit (e : OutEvent) (i : Nat) : (s.emit e).dmaCh i = s.dmaCh i := rfl
@[simp] theorem State.shaEng_emit (e : OutEvent) (i : Nat) : (s.emit e).shaEng i = s.shaEng i := rfl
@[simp] theorem State.gc_emit (e : OutEvent) (i : Nat) : (s.emit e).gc i = s.gc i := rfl
@[simp] theorem State.reg_emits (l : List OutEvent) (i : Nat) : (s.emits l).reg i = s.reg i := rfl
@[simp] theorem State.act_emits (l : List OutEvent) (i : Nat) : (s.emits l).act i = s.act i := rfl
@[simp] theorem State.thr_emits (l : List OutEvent) (i : Nat) : (s.emits l).thr i = s.thr i := rfl
@[simp] theorem State.queue_emits (l : List OutEvent) (i : Nat) : (s.emits l).queue i = s.queue i := rfl
@[simp] theorem State.dmaCh_emits (l : List OutEvent) (i : Nat) : (s.emits l).dmaCh i = s.dmaCh i := rfl
@[simp] theorem State.shaEng_emits (l : List OutEvent) (i : Nat) : (s.emits l).shaEng i = s.shaEng i := rfl
@[simp] theorem State.gc_emits (l : List OutEvent) (i : Nat) : (s.emits l).gc i = s.gc i := rfl
@[simp] theorem State.reg_settle (i : Nat) : s.settle.reg i = s.reg i := rfl
@[simp] theorem State.act_settle (i : Nat) : s.settle.act i = s.act i := rfl
@[simp] theorem State.thr_settle (i : Nat) : s.settle.thr i = s.thr i := rfl
@[simp] theorem State.queue_settle (i : Nat) : s.settle.queue i = s.queue i := rfl
@[simp] theorem State.dmaCh_settle (i : Nat) : s.settle.dmaCh i = s.dmaCh i := rfl
@[simp] theorem State.shaEng_settle (i : Nat) : s.settle.shaEng i = s.shaEng i := rfl
@[simp] theorem State.gc_settle (i : Nat) : s.settle.gc i = s.gc i := rfl
@[simp] theorem State.reg_setThr (p : Nat) (t : Thread) (i : Nat) : (s.setThr p t).reg i = s.reg i := rfl
@[simp] theorem State.act_setThr (p : Nat) (t : Thread) (i : Nat) : (s.setThr p t).act i = s.act i := rfl
@[simp] theorem State.queue_setThr (p : Nat) (t : Thread) (i : Nat) : (s.setThr p t).queue i = s.queue i := rfl
@[simp] theorem State.dmaCh_setThr (p : Nat) (t : Thread) (i : Nat) : (s.setThr p t).dmaCh i = s.dmaCh i := rfl
@[simp] theorem State.shaEng_setThr (p : Nat) (t : Thread) (i : Nat) : (s.setThr p t).shaEng i = s.shaEng i := rfl
@[simp] theorem State.gc_setThr (p : Nat) (t : Thread) (i : Nat) : (s.setThr p t).gc i = s.gc i := rfl
@[simp] theorem State.reg_setQueue (c : Nat) (q : List Msg) (i : Nat) : (s.setQueue c q).reg i = s.reg i := rfl
@[simp] theorem State.act_setQueue (c : Nat) (q : List Msg) (i : Nat) : (s.setQueue c q).act i = s.act i := rfl
@[simp] theorem State.thr_setQueue (c : Nat) (q : List Msg) (i : Nat) : (s.setQueue c q).thr i = s.thr i := rfl
@[simp] theorem State.dmaCh_setQueue (c : Nat) (q : List Msg) (i : Nat) : (s.setQueue c q).dmaCh i = s.dmaCh i := rfl
@[simp] theorem State.shaEng_setQueue (c : Nat) (q : List Msg) (i : Nat) : (s.setQueue c q).shaEng i = s.shaEng i := rfl
@[simp] theorem State.gc_setQueue (c : Nat) (q : List Msg) (i : Nat) : (s.setQueue c q).gc i = s.gc i := rfl
@[simp] theorem State.reg_setIc (k : Nat) (l : List IcLine) (i : Nat) : (s.setIc k l).reg i = s.reg i := rfl
@[simp] theorem State.act_setIc (k : Nat) (l : List IcLine) (i : Nat) : (s.setIc k l).act i = s.act i := rfl
@[simp] theorem State.thr_setIc (k : Nat) (l : List IcLine) (i : Nat) : (s.setIc k l).thr i = s.thr i := rfl
@[simp] theorem State.queue_setIc (k : Nat) (l : List IcLine) (i : Nat) : (s.setIc k l).queue i = s.queue i := rfl
@[simp] theorem State.dmaCh_setIc (k : Nat) (l : List IcLine) (i : Nat) : (s.setIc k l).dmaCh i = s.dmaCh i := rfl
@[simp] theorem State.shaEng_setIc (k : Nat) (l : List IcLine) (i : Nat) : (s.setIc k l).shaEng i = s.shaEng i := rfl
@[simp] theorem State.gc_setIc (k : Nat) (l : List IcLine) (i : Nat) : (s.setIc k l).gc i = s.gc i := rfl
@[simp] theorem State.reg_setUcs (u : Ucs) (i : Nat) : (s.setUcs u).reg i = s.reg i := rfl
@[simp] theorem State.act_setUcs (u : Ucs) (i : Nat) : (s.setUcs u).act i = s.act i := rfl
@[simp] theorem State.thr_setUcs (u : Ucs) (i : Nat) : (s.setUcs u).thr i = s.thr i := rfl
@[simp] theorem State.queue_setUcs (u : Ucs) (i : Nat) : (s.setUcs u).queue i = s.queue i := rfl
@[simp] theorem State.dmaCh_setUcs (u : Ucs) (i : Nat) : (s.setUcs u).dmaCh i = s.dmaCh i := rfl
@[simp] theorem State.shaEng_setUcs (u : Ucs) (i : Nat) : (s.setUcs u).shaEng i = s.shaEng i := rfl
@[simp] theorem State.gc_setUcs (u : Ucs) (i : Nat) : (s.setUcs u).gc i = s.gc i := rfl
@[simp] theorem State.reg_setDmaCh (c : Nat) (x : DmaCh) (i : Nat) : (s.setDmaCh c x).reg i = s.reg i := rfl
@[simp] theorem State.act_setDmaCh (c : Nat) (x : DmaCh) (i : Nat) : (s.setDmaCh c x).act i = s.act i := rfl
@[simp] theorem State.thr_setDmaCh (c : Nat) (x : DmaCh) (i : Nat) : (s.setDmaCh c x).thr i = s.thr i := rfl
@[simp] theorem State.queue_setDmaCh (c : Nat) (x : DmaCh) (i : Nat) : (s.setDmaCh c x).queue i = s.queue i := rfl
@[simp] theorem State.shaEng_setDmaCh (c : Nat) (x : DmaCh) (i : Nat) : (s.setDmaCh c x).shaEng i = s.shaEng i := rfl
@[simp] theorem State.gc_setDmaCh (c : Nat) (x : DmaCh) (i : Nat) : (s.setDmaCh c x).gc i = s.gc i := rfl
@[simp] theorem State.reg_setShaEng (e : Nat) (x : ShaEng) (i : Nat) : (s.setShaEng e x).reg i = s.reg i := rfl
@[simp] theorem State.act_setShaEng (e : Nat) (x : ShaEng) (i : Nat) : (s.setShaEng e x).act i = s.act i := rfl
@[simp] theorem State.thr_setShaEng (e : Nat) (x : ShaEng) (i : Nat) : (s.setShaEng e x).thr i = s.thr i := rfl
@[simp] theorem State.queue_setShaEng (e : Nat) (x : ShaEng) (i : Nat) : (s.setShaEng e x).queue i = s.queue i := rfl
@[simp] theorem State.dmaCh_setShaEng (e : Nat) (x : ShaEng) (i : Nat) : (s.setShaEng e x).dmaCh i = s.dmaCh i := rfl
@[simp] theorem State.gc_setShaEng (e : Nat) (x : ShaEng) (i : Nat) : (s.setShaEng e x).gc i = s.gc i := rfl
@[simp] theorem State.reg_setGc (c : Nat) (x : GCtx) (i : Nat) : (s.setGc c x).reg i = s.reg i := rfl
@[simp] theorem State.act_setGc (c : Nat) (x : GCtx) (i : Nat) : (s.setGc c x).act i = s.act i := rfl
@[simp] theorem State.thr_setGc (c : Nat) (x : GCtx) (i : Nat) : (s.setGc c x).thr i = s.thr i := rfl
@[simp] theorem State.queue_setGc (c : Nat) (x : GCtx) (i : Nat) : (s.setGc c x).queue i = s.queue i := rfl
@[simp] theorem State.dmaCh_setGc (c : Nat) (x : GCtx) (i : Nat) : (s.setGc c x).dmaCh i = s.dmaCh i := rfl
@[simp] theorem State.shaEng_setGc (c : Nat) (x : GCtx) (i : Nat) : (s.setGc c x).shaEng i = s.shaEng i := rfl
@[simp] theorem State.reg_setSec (x : Sec) (i : Nat) : (s.setSec x).reg i = s.reg i := rfl
@[simp] theorem State.act_setSec (x : Sec) (i : Nat) : (s.setSec x).act i = s.act i := rfl
@[simp] theorem State.thr_setSec (x : Sec) (i : Nat) : (s.setSec x).thr i = s.thr i := rfl
@[simp] theorem State.queue_setSec (x : Sec) (i : Nat) : (s.setSec x).queue i = s.queue i := rfl
@[simp] theorem State.dmaCh_setSec (x : Sec) (i : Nat) : (s.setSec x).dmaCh i = s.dmaCh i := rfl
@[simp] theorem State.shaEng_setSec (x : Sec) (i : Nat) : (s.setSec x).shaEng i = s.shaEng i := rfl
@[simp] theorem State.gc_setSec (x : Sec) (i : Nat) : (s.setSec x).gc i = s.gc i := rfl
@[simp] theorem State.reg_setFw (x : Fw) (i : Nat) : (s.setFw x).reg i = s.reg i := rfl
@[simp] theorem State.act_setFw (x : Fw) (i : Nat) : (s.setFw x).act i = s.act i := rfl
@[simp] theorem State.thr_setFw (x : Fw) (i : Nat) : (s.setFw x).thr i = s.thr i := rfl
@[simp] theorem State.queue_setFw (x : Fw) (i : Nat) : (s.setFw x).queue i = s.queue i := rfl
@[simp] theorem State.dmaCh_setFw (x : Fw) (i : Nat) : (s.setFw x).dmaCh i = s.dmaCh i := rfl
@[simp] theorem State.shaEng_setFw (x : Fw) (i : Nat) : (s.setFw x).shaEng i = s.shaEng i := rfl
@[simp] theorem State.gc_setFw (x : Fw) (i : Nat) : (s.setFw x).gc i = s.gc i := rfl
@[simp] theorem State.reg_setSpn (x : Spn) (i : Nat) : (s.setSpn x).reg i = s.reg i := rfl
@[simp] theorem State.act_setSpn (x : Spn) (i : Nat) : (s.setSpn x).act i = s.act i := rfl
@[simp] theorem State.thr_setSpn (x : Spn) (i : Nat) : (s.setSpn x).thr i = s.thr i := rfl
@[simp] theorem State.queue_setSpn (x : Spn) (i : Nat) : (s.setSpn x).queue i = s.queue i := rfl
@[simp] theorem State.dmaCh_setSpn (x : Spn) (i : Nat) : (s.setSpn x).dmaCh i = s.dmaCh i := rfl
@[simp] theorem State.shaEng_setSpn (x : Spn) (i : Nat) : (s.setSpn x).shaEng i = s.shaEng i := rfl
@[simp] theorem State.gc_setSpn (x : Spn) (i : Nat) : (s.setSpn x).gc i = s.gc i := rfl
@[simp] theorem State.reg_setGs (x : Gs) (i : Nat) : (s.setGs x).reg i = s.reg i := rfl
@[simp] theorem State.act_setGs (x : Gs) (i : Nat) : (s.setGs x).act i = s.act i := rfl
@[simp] theorem State.thr_setGs (x : Gs) (i : Nat) : (s.setGs x).thr i = s.thr i := rfl
@[simp] theorem State.queue_setGs (x : Gs) (i : Nat) : (s.setGs x).queue i = s.queue i := rfl
@[simp] theorem State.dmaCh_setGs (x : Gs) (i : Nat) : (s.setGs x).dmaCh i = s.dmaCh i := rfl
@[simp] theorem State.shaEng_setGs (x : Gs) (i : Nat) : (s.setGs x).shaEng i = s.shaEng i := rfl
@[simp] theorem State.gc_setGs (x : Gs) (i : Nat) : (s.setGs x).gc i = s.gc i := rfl
@[simp] theorem State.reg_setSvc (x : Svc) (i : Nat) : (s.setSvc x).reg i = s.reg i := rfl
@[simp] theorem State.act_setSvc (x : Svc) (i : Nat) : (s.setSvc x).act i = s.act i := rfl
@[simp] theorem State.thr_setSvc (x : Svc) (i : Nat) : (s.setSvc x).thr i = s.thr i := rfl
@[simp] theorem State.queue_setSvc (x : Svc) (i : Nat) : (s.setSvc x).queue i = s.queue i := rfl
@[simp] theorem State.dmaCh_setSvc (x : Svc) (i : Nat) : (s.setSvc x).dmaCh i = s.dmaCh i := rfl
@[simp] theorem State.shaEng_setSvc (x : Svc) (i : Nat) : (s.setSvc x).shaEng i = s.shaEng i := rfl
@[simp] theorem State.gc_setSvc (x : Svc) (i : Nat) : (s.setSvc x).gc i = s.gc i := rfl
@[simp] theorem State.reg_setPwr (x : Pwr) (i : Nat) : (s.setPwr x).reg i = s.reg i := rfl
@[simp] theorem State.act_setPwr (x : Pwr) (i : Nat) : (s.setPwr x).act i = s.act i := rfl
@[simp] theorem State.thr_setPwr (x : Pwr) (i : Nat) : (s.setPwr x).thr i = s.thr i := rfl
@[simp] theorem State.queue_setPwr (x : Pwr) (i : Nat) : (s.setPwr x).queue i = s.queue i := rfl
@[simp] theorem State.dmaCh_setPwr (x : Pwr) (i : Nat) : (s.setPwr x).dmaCh i = s.dmaCh i := rfl
@[simp] theorem State.shaEng_setPwr (x : Pwr) (i : Nat) : (s.setPwr x).shaEng i = s.shaEng i := rfl
@[simp] theorem State.gc_setPwr (x : Pwr) (i : Nat) : (s.setPwr x).gc i = s.gc i := rfl
@[simp] theorem State.reg_setCsc (x : Csc) (i : Nat) : (s.setCsc x).reg i = s.reg i := rfl
@[simp] theorem State.act_setCsc (x : Csc) (i : Nat) : (s.setCsc x).act i = s.act i := rfl
@[simp] theorem State.thr_setCsc (x : Csc) (i : Nat) : (s.setCsc x).thr i = s.thr i := rfl
@[simp] theorem State.queue_setCsc (x : Csc) (i : Nat) : (s.setCsc x).queue i = s.queue i := rfl
@[simp] theorem State.dmaCh_setCsc (x : Csc) (i : Nat) : (s.setCsc x).dmaCh i = s.dmaCh i := rfl
@[simp] theorem State.shaEng_setCsc (x : Csc) (i : Nat) : (s.setCsc x).shaEng i = s.shaEng i := rfl
@[simp] theorem State.gc_setCsc (x : Csc) (i : Nat) : (s.setCsc x).gc i = s.gc i := rfl
@[simp] theorem State.reg_setMed (m : Nat) (x : Med) (i : Nat) : (s.setMed m x).reg i = s.reg i := by simp [State.reg]
@[simp] theorem State.act_setMed (m : Nat) (x : Med) (i : Nat) : (s.setMed m x).act i = s.act i := by simp [State.act]
@[simp] theorem State.thr_setMed (m : Nat) (x : Med) (i : Nat) : (s.setMed m x).thr i = s.thr i := by simp [State.thr]
@[simp] theorem State.queue_setMed (m : Nat) (x : Med) (i : Nat) : (s.setMed m x).queue i = s.queue i := by simp [State.queue]
@[simp] theorem State.dmaCh_setMed (m : Nat) (x : Med) (i : Nat) : (s.setMed m x).dmaCh i = s.dmaCh i := by simp [State.dmaCh]
@[simp] theorem State.shaEng_setMed (m : Nat) (x : Med) (i : Nat) : (s.setMed m x).shaEng i = s.shaEng i := by simp [State.shaEng]
@[simp] theorem State.gc_setMed (m : Nat) (x : Med) (i : Nat) : (s.setMed m x).gc i = s.gc i := by simp [State.gc]
@[simp] theorem State.reg_setGact (a : Nat) (x : GAct) (i : Nat) : (s.setGact a x).reg i = s.reg i := by simp [State.reg]
@[simp] theorem State.act_setGact (a : Nat) (x : GAct) (i : Nat) : (s.setGact a x).act i = s.act i := by simp [State.act]
@[simp] theorem State.thr_setGact (a : Nat) (x : GAct) (i : Nat) : (s.setGact a x).thr i = s.thr i := by simp [State.thr]
@[simp] theorem State.queue_setGact (a : Nat) (x : GAct) (i : Nat) : (s.setGact a x).queue i = s.queue i := by simp [State.queue]
@[simp] theorem State.dmaCh_setGact (a : Nat) (x : GAct) (i : Nat) : (s.setGact a x).dmaCh i = s.dmaCh i := by simp [State.dmaCh]
@[simp] theorem State.shaEng_setGact (a : Nat) (x : GAct) (i : Nat) : (s.setGact a x).shaEng i = s.shaEng i := by simp [State.shaEng]
@[simp] theorem State.gc_setGact (a : Nat) (x : GAct) (i : Nat) : (s.setGact a x).gc i = s.gc i := by simp [State.gc]
@[simp] theorem State.reg_setHp (n : Nat) (x : HifP) (i : Nat) : (s.setHp n x).reg i = s.reg i := by simp [State.reg]
@[simp] theorem State.act_setHp (n : Nat) (x : HifP) (i : Nat) : (s.setHp n x).act i = s.act i := by simp [State.act]
@[simp] theorem State.thr_setHp (n : Nat) (x : HifP) (i : Nat) : (s.setHp n x).thr i = s.thr i := by simp [State.thr]
@[simp] theorem State.queue_setHp (n : Nat) (x : HifP) (i : Nat) : (s.setHp n x).queue i = s.queue i := by simp [State.queue]
@[simp] theorem State.dmaCh_setHp (n : Nat) (x : HifP) (i : Nat) : (s.setHp n x).dmaCh i = s.dmaCh i := by simp [State.dmaCh]
@[simp] theorem State.shaEng_setHp (n : Nat) (x : HifP) (i : Nat) : (s.setHp n x).shaEng i = s.shaEng i := by simp [State.shaEng]
@[simp] theorem State.gc_setHp (n : Nat) (x : HifP) (i : Nat) : (s.setHp n x).gc i = s.gc i := by simp [State.gc]
@[simp] theorem State.reg_setLink (z : Nat) (x : ZLink) (i : Nat) : (s.setLink z x).reg i = s.reg i := by simp [State.reg]
@[simp] theorem State.act_setLink (z : Nat) (x : ZLink) (i : Nat) : (s.setLink z x).act i = s.act i := by simp [State.act]
@[simp] theorem State.thr_setLink (z : Nat) (x : ZLink) (i : Nat) : (s.setLink z x).thr i = s.thr i := by simp [State.thr]
@[simp] theorem State.queue_setLink (z : Nat) (x : ZLink) (i : Nat) : (s.setLink z x).queue i = s.queue i := by simp [State.queue]
@[simp] theorem State.dmaCh_setLink (z : Nat) (x : ZLink) (i : Nat) : (s.setLink z x).dmaCh i = s.dmaCh i := by simp [State.dmaCh]
@[simp] theorem State.shaEng_setLink (z : Nat) (x : ZLink) (i : Nat) : (s.setLink z x).shaEng i = s.shaEng i := by simp [State.shaEng]
@[simp] theorem State.gc_setLink (z : Nat) (x : ZLink) (i : Nat) : (s.setLink z x).gc i = s.gc i := by simp [State.gc]
@[simp] theorem State.reg_setCtl (n : Nat) (x : NCtl) (i : Nat) : (s.setCtl n x).reg i = s.reg i := rfl
@[simp] theorem State.act_setCtl (n : Nat) (x : NCtl) (i : Nat) : (s.setCtl n x).act i = s.act i := rfl
@[simp] theorem State.thr_setCtl (n : Nat) (x : NCtl) (i : Nat) : (s.setCtl n x).thr i = s.thr i := rfl
@[simp] theorem State.queue_setCtl (n : Nat) (x : NCtl) (i : Nat) : (s.setCtl n x).queue i = s.queue i := rfl
@[simp] theorem State.dmaCh_setCtl (n : Nat) (x : NCtl) (i : Nat) : (s.setCtl n x).dmaCh i = s.dmaCh i := rfl
@[simp] theorem State.shaEng_setCtl (n : Nat) (x : NCtl) (i : Nat) : (s.setCtl n x).shaEng i = s.shaEng i := rfl
@[simp] theorem State.gc_setCtl (n : Nat) (x : NCtl) (i : Nat) : (s.setCtl n x).gc i = s.gc i := rfl
@[simp] theorem State.reg_setSq (k : Nat) (x : NSq) (i : Nat) : (s.setSq k x).reg i = s.reg i := rfl
@[simp] theorem State.act_setSq (k : Nat) (x : NSq) (i : Nat) : (s.setSq k x).act i = s.act i := rfl
@[simp] theorem State.thr_setSq (k : Nat) (x : NSq) (i : Nat) : (s.setSq k x).thr i = s.thr i := rfl
@[simp] theorem State.queue_setSq (k : Nat) (x : NSq) (i : Nat) : (s.setSq k x).queue i = s.queue i := rfl
@[simp] theorem State.dmaCh_setSq (k : Nat) (x : NSq) (i : Nat) : (s.setSq k x).dmaCh i = s.dmaCh i := rfl
@[simp] theorem State.shaEng_setSq (k : Nat) (x : NSq) (i : Nat) : (s.setSq k x).shaEng i = s.shaEng i := rfl
@[simp] theorem State.gc_setSq (k : Nat) (x : NSq) (i : Nat) : (s.setSq k x).gc i = s.gc i := rfl
@[simp] theorem State.reg_setCq (k : Nat) (x : NCq) (i : Nat) : (s.setCq k x).reg i = s.reg i := rfl
@[simp] theorem State.act_setCq (k : Nat) (x : NCq) (i : Nat) : (s.setCq k x).act i = s.act i := rfl
@[simp] theorem State.thr_setCq (k : Nat) (x : NCq) (i : Nat) : (s.setCq k x).thr i = s.thr i := rfl
@[simp] theorem State.queue_setCq (k : Nat) (x : NCq) (i : Nat) : (s.setCq k x).queue i = s.queue i := rfl
@[simp] theorem State.dmaCh_setCq (k : Nat) (x : NCq) (i : Nat) : (s.setCq k x).dmaCh i = s.dmaCh i := rfl
@[simp] theorem State.shaEng_setCq (k : Nat) (x : NCq) (i : Nat) : (s.setCq k x).shaEng i = s.shaEng i := rfl
@[simp] theorem State.gc_setCq (k : Nat) (x : NCq) (i : Nat) : (s.setCq k x).gc i = s.gc i := rfl

/-! ### Reads after a write -/

/-- A register read after a write of a register. -/
@[simp] theorem State.reg_setReg (o i : Nat) (v : W32) : (s.setReg o v).reg i = if i = o then v else s.reg i :=
  smGet_put _ _ _ _ _
@[simp] theorem State.act_setAct (o i : Nat) (v : W32) : (s.setAct o v).act i = if i = o then v else s.act i :=
  smGet_put _ _ _ _ _
@[simp] theorem State.thr_setThr (p i : Nat) (t : Thread) : (s.setThr p t).thr i = if i = p then t else s.thr i :=
  smGet_put _ _ _ _ _
@[simp] theorem State.queue_setQueue (c i : Nat) (q : List Msg) :
    (s.setQueue c q).queue i = if i = c then q else s.queue i := smGet_put _ _ _ _ _
@[simp] theorem State.dmaCh_setDmaCh (c i : Nat) (x : DmaCh) :
    (s.setDmaCh c x).dmaCh i = if i = c then x else s.dmaCh i := smGet_put _ _ _ _ _
@[simp] theorem State.shaEng_setShaEng (e i : Nat) (x : ShaEng) :
    (s.setShaEng e x).shaEng i = if i = e then x else s.shaEng i := smGet_put _ _ _ _ _
@[simp] theorem State.gc_setGc (c i : Nat) (x : GCtx) : (s.setGc c x).gc i = if i = c then x else s.gc i :=
  smGet_put _ _ _ _ _
theorem State.reg_orReg (o i : Nat) (m : W32) : (s.orReg o m).reg i = if i = o then s.reg o ||| m else s.reg i :=
  s.reg_setReg _ _ _
theorem State.reg_clrReg (o i : Nat) (m : W32) : (s.clrReg o m).reg i = if i = o then s.reg o &&& ~~~ m else s.reg i :=
  s.reg_setReg _ _ _
theorem State.reg_setFld (o lo len x i : Nat) :
    (s.setFld o lo len x).reg i = if i = o then setF (s.reg o) lo len x else s.reg i := s.reg_setReg _ _ _
@[simp] theorem State.setUcs_ucs (u : Ucs) : (s.setUcs u).ucs = u := rfl
@[simp] theorem State.setSec_sec (x : Sec) : (s.setSec x).sec = x := rfl
@[simp] theorem State.setFw_fw (x : Fw) : (s.setFw x).fw = x := rfl
@[simp] theorem State.setSpn_spn (x : Spn) : (s.setSpn x).spn = x := rfl
@[simp] theorem State.setGs_gs (x : Gs) : (s.setGs x).gs = x := rfl
@[simp] theorem State.setSvc_svc (x : Svc) : (s.setSvc x).svc = x := rfl
@[simp] theorem State.setPwr_pwr (x : Pwr) : (s.setPwr x).pwr = x := rfl
@[simp] theorem State.setCsc_csc (x : Csc) : (s.setCsc x).csc = x := rfl
@[simp] theorem State.emit_out (e : OutEvent) : (s.emit e).out = s.out ++ [e] := rfl
@[simp] theorem State.emits_out (l : List OutEvent) : (s.emits l).out = s.out ++ l := rfl

/-- An event stays raised or not raised whatever is forgotten of it. -/
@[simp] theorem State.raised_settle (b : Nat) : s.settle.raised b = s.raised b := rfl

/-- After a command the events last seen are those raised (R60). -/
@[simp] theorem State.settle_seen : s.settle.evSeen.seen = s.risen := rfl

/-- A message stays due after a command while its event is raised or its block has a route (R60, R62). -/
theorem State.settle_due (d : Nat × Nat) : d ∈ s.settle.evSeen.due ↔
    d ∈ (s.evSeen.rise (s.risen.filter fun b => !(s.evSeen.seen.contains b))).due ∧ (d.1 ∈ s.risen ∨ s.routeMask d.1 ≠ 0) := by
  simp [State.settle]

/-- What a meaning that ends in `done` answers. -/
theorem done_eq (s t : State) : done s = .next t ↔ t = s.settle := by
  unfold done
  constructor
  · intro h
    injection h with h
    exact h.symm
  · intro h
    rw [h]

end Sys2Proof.Machine
end

