-- ==== Sys2Proof/Laws/Memory.lean ====
section
/-! SUPPORT. Every memory operation keeps the memory's canonical form, and the memory at reset has it. -/

namespace Sys2Proof.Machine

/-- The stored bytes and syndromes are in canonical form. -/
def State.MemOk (s : State) : Prop := Memory.wf s.mem = true

theorem State.reset_memOk : State.reset.MemOk := (by decide : Memory.wf State.reset.mem = true)

theorem Memory.wf_iff (m : Mem) : Memory.wf m = true ↔
    smWf sramDflt m.sram = true ∧ smWf synDflt m.sramSyn = true ∧ smRising m.dram = true ∧ smWf synDflt m.dramSyn = true := by
  simp [Memory.wf, and_assoc]

/-- An operation that leaves stored bytes and syndromes as they are keeps the form. -/
theorem State.MemOk.of_eq {s t : State} (h : s.MemOk) (h1 : t.mem.sram = s.mem.sram) (h2 : t.mem.sramSyn = s.mem.sramSyn)
    (h3 : t.mem.dram = s.mem.dram) (h4 : t.mem.dramSyn = s.mem.dramSyn) : t.MemOk := by
  unfold State.MemOk at *
  rw [Memory.wf_iff] at *
  rw [h1, h2, h3, h4]
  exact h

theorem writeCells_wf (d : Nat → W8) (l : List W8) (m : List Host.Cell) (a : Nat) (h : smWf d m = true) :
    smWf d (writeCells d m a l) = true := by
  induction l generalizing m a with
  | nil => exact h
  | cons b t ih => exact ih _ _ (smWf_put d m a b h)

theorem writeDramCells_rising (l : List W8) (m : List Host.Cell) (a : Nat) (h : smRising m = true) :
    smRising (writeDramCells m a l) = true := by
  induction l generalizing m a with
  | nil => exact h
  | cons b t ih => exact ih _ _ (smRisingFrom_set m 0 a b (Nat.zero_le a) h)

/-! ### Writes of stored words -/

theorem State.setSramWord_memOk {s : State} (h : s.MemOk) (w : Nat) (c : CWord) : (s.setSramWord w c).MemOk := by
  unfold State.MemOk at *
  rw [Memory.wf_iff] at *
  exact ⟨writeCells_wf _ _ _ _ h.1, smWf_put _ _ _ _ h.2.1, h.2.2⟩

theorem State.setDramWord_memOk {s : State} (h : s.MemOk) (w : Nat) (c : CWord) : (s.setDramWord w c).MemOk := by
  unfold State.MemOk at *
  rw [Memory.wf_iff] at *
  exact ⟨h.1, h.2.1, writeDramCells_rising _ _ _ h.2.2.1, smWf_put _ _ _ _ h.2.2.2⟩

/-! ### Folds -/

/-- A fold of operations that keep the form keeps it. -/
theorem State.foldl_memOk {α : Type} (f : State → α → State) (hf : ∀ s a, s.MemOk → (f s a).MemOk) (l : List α) (s : State)
    (h : s.MemOk) : (l.foldl f s).MemOk := by
  induction l generalizing s with
  | nil => exact h
  | cons a t ih => exact ih _ (hf s a h)

theorem State.writeWords_memOk {s : State} (h : s.MemOk) (l : SMap CWord) : (s.writeWords l).MemOk :=
  State.foldl_memOk _ (fun _ _ h => State.setDramWord_memOk h _ _) l s h

theorem State.setReg_memOk {s : State} (h : s.MemOk) (o : Nat) (v : W32) : (s.setReg o v).MemOk := h
theorem State.incFld_memOk {s : State} (h : s.MemOk) (o lo len n : Nat) : (s.incFld o lo len n).MemOk := h
theorem State.orReg_memOk {s : State} (h : s.MemOk) (o : Nat) (m : W32) : (s.orReg o m).MemOk := h
theorem State.setCw_memOk {s : State} (h : s.MemOk) (w : Nat) (c : CWord) : (s.setCw w c).MemOk := h
theorem State.dropCw_memOk {s : State} (h : s.MemOk) (l : Nat) : (s.dropCw l).MemOk := h
theorem State.setElog_memOk {s : State} (h : s.MemOk) (i n : Nat) (e : ElogEntry) : (s.setElog i n e).MemOk := h

theorem State.logErr_memOk {s : State} (h : s.MemOk) (i a : Nat) (u w r : Bool) (b : Nat) : (s.logErr i a u w r b).MemOk := by
  unfold State.logErr
  dsimp only
  split <;> exact h

theorem State.logDiag_memOk {s : State} (h : s.MemOk) (i a : Nat) (w : Bool) (d : Diag) : (s.logDiag i a w d).MemOk := by
  unfold State.logDiag
  split
  · exact h
  · exact h
  · exact State.logErr_memOk h ..
  · exact State.logErr_memOk h ..

/-! ### The shared cache -/

theorem State.drainOne_memOk {s : State} (h : s.MemOk) : s.drainOne.MemOk := by
  unfold State.drainOne
  split
  · exact h
  · refine State.writeWords_memOk ?_ _
    exact h

theorem State.toWb_memOk {s : State} (h : s.MemOk) (l : Nat) : (s.toWb l).MemOk := by
  unfold State.toWb
  dsimp only
  split
  · exact State.drainOne_memOk (s := (s.freeAny.2.incFld _ _ _ _)) h
  · exact h

theorem State.toVictim_memOk {s : State} (h : s.MemOk) (l : Nat) (d : Bool) : (s.toVictim l d).MemOk := by
  have key : ∀ x : State, x.MemOk → State.MemOk { x with mem := { x.mem with vict := x.mem.vict ++ [(l, d)] } } :=
    fun _ h => h
  unfold State.toVictim
  apply key
  split
  · split
    · dsimp only
      split
      · apply State.toWb_memOk
        exact h
      · exact h
    · exact h
  · exact h

theorem State.place_memOk {s : State} (h : s.MemOk) (l : Nat) (d : Bool) : (s.place l d).MemOk := by
  have key : ∀ (x : State) (w : Nat), x.MemOk →
      State.MemOk { x with mem := { x.mem with lines := smSet x.mem.lines l ⟨w, d⟩ } } := fun _ _ h => h
  unfold State.place
  dsimp only
  split
  · exact h
  · apply key
    split
    · apply State.toVictim_memOk
      exact h
    · exact h

theorem State.fillWords_memOk {s : State} (h : s.MemOk) (l : Nat) : (s.fillWords l).MemOk := by
  refine State.foldl_memOk _ (fun s i h => ?_) _ s h
  dsimp only
  split
  · exact h
  · exact State.setCw_memOk (State.logDiag_memOk h _ _ _ _) _ _

theorem State.fill_memOk {s : State} (h : s.MemOk) (l : Nat) : (s.fill l).MemOk := by
  unfold State.fill
  split
  · apply State.incFld_memOk
    apply State.place_memOk
    exact h
  · split
    · apply State.incFld_memOk
      apply State.foldl_memOk
      · exact fun _ _ h => State.setCw_memOk h _ _
      · exact State.place_memOk h _ _
    · apply State.incFld_memOk
      exact State.fillWords_memOk (State.place_memOk h _ _) _

theorem State.markDirty_memOk {s : State} (h : s.MemOk) (l : Nat) : (s.markDirty l).MemOk := by
  unfold State.markDirty
  split <;> exact h

theorem State.markClean_memOk {s : State} (h : s.MemOk) (l : Nat) : (s.markClean l).MemOk := by
  unfold State.markClean
  split <;> exact h

theorem State.cleanLine_memOk {s : State} (h : s.MemOk) (l : Nat) : (s.cleanLine l).MemOk :=
  State.writeWords_memOk
    (State.foldl_memOk _ (fun _ _ h => State.writeWords_memOk h _) _ { s with mem := { s.mem with wb := [] } } h) _

theorem State.zeroWords_memOk {s : State} (h : s.MemOk) (l : Nat) : (s.zeroWords l).MemOk :=
  State.markDirty_memOk
    (State.foldl_memOk (fun s i => s.setCw (8 * l + i) ⟨0, 0⟩) (fun _ _ h => State.setCw_memOk h _ _) _ _ h) _

theorem State.maintain_memOk {s : State} (h : s.MemOk) (op : Maint) (l : Nat) : (s.maintain op l).MemOk := by
  unfold State.maintain
  split
  · cases op
    · dsimp only
      split
      · exact State.markClean_memOk (State.cleanLine_memOk h l) l
      · exact h
    · dsimp only
      split
      · exact State.cleanLine_memOk h l
      · exact h
    · exact h
    · exact State.zeroWords_memOk h l
  · split
    · cases op
      · dsimp only
        split
        · exact State.cleanLine_memOk h l
        · exact h
      · dsimp only
        split
        · exact State.cleanLine_memOk h l
        · exact h
      · exact h
      · exact State.zeroWords_memOk (State.fill_memOk h l) l
    · cases op
      · exact h
      · exact h
      · exact h
      · exact State.zeroWords_memOk (State.place_memOk h l true) l

theorem State.fillDone_memOk {s : State} (h : s.MemOk) (b : Nat) : (s.fillDone b).MemOk := by
  unfold State.fillDone
  split
  · exact h
  · dsimp only
    refine State.foldl_memOk _ (fun _ _ h => State.maintain_memOk h _ _) _ _ ?_
    split
    · exact h
    · refine State.fill_memOk ?_ _
      exact h

theorem State.stall_memOk {s : State} (h : s.MemOk) : s.stall.MemOk := h

theorem State.touch_memOk {s : State} (h : s.MemOk) (l : Nat) : (s.touch l).MemOk := by
  unfold State.touch
  split
  · split
    · exact State.fillDone_memOk h _
    · split
      · exact h
      · exact State.fill_memOk (State.fillDone_memOk (State.stall_memOk h) _) _
  · split
    · exact h
    · exact State.fill_memOk h _

theorem State.maintReq_memOk {s : State} (h : s.MemOk) (op : Maint) (l p : Nat) : (s.maintReq op l p).MemOk := by
  unfold State.maintReq
  split
  · split
    · exact h
    · exact State.maintain_memOk (State.fillDone_memOk (State.stall_memOk h) _) _ _
  · exact State.maintain_memOk h _ _

theorem State.prefetch_memOk {s : State} (h : s.MemOk) (l : Nat) : (s.prefetch l).MemOk := by
  unfold State.prefetch
  split
  · exact h
  · split
    · split
      · exact h
      · exact State.fillDone_memOk (State.stall_memOk h) _
    · exact h

theorem State.setCws_memOk {s : State} (h : s.MemOk) (l : SMap CWord) :
    (l.foldl (fun s x => s.setCw x.1 x.2) s).MemOk :=
  State.foldl_memOk _ (fun _ _ h => State.setCw_memOk h _ _) l s h

theorem State.refetch_memOk {s : State} (h : s.MemOk) (l : Nat) : (s.refetch l).MemOk := by
  unfold State.refetch
  split
  · exact State.setCws_memOk (State.dropCw_memOk h l) _
  · exact State.fillWords_memOk (State.dropCw_memOk h l) l

theorem State.cachedWord_memOk {s : State} (h : s.MemOk) (w : Nat) : (s.cachedWord w).2.2.MemOk := by
  unfold State.cachedWord
  split
  · exact h
  · split
    · exact h
    · exact State.logErr_memOk h ..
    · exact h
    · split
      · exact State.logErr_memOk h ..
      · exact State.refetch_memOk (State.orReg_memOk (State.logErr_memOk h ..) ..) _

/-! ### Words and spans -/

theorem State.readDramWord_memOk {s : State} (h : s.MemOk) (w : Nat) : (s.readDramWord w).2.2.MemOk := by
  unfold State.readDramWord
  split
  · exact State.cachedWord_memOk (State.touch_memOk h _) _
  · exact h

theorem State.writeDramPart_memOk {s : State} (h : s.MemOk) (w o : Nat) (l : List W8) (b : Bool) :
    (s.writeDramPart w o l b).MemOk := by
  unfold State.writeDramPart
  split
  · exact h
  · split
    · exact State.markDirty_memOk (State.setCw_memOk (State.touch_memOk h _) _ _) _
    · exact State.markDirty_memOk (State.setCw_memOk (State.cachedWord_memOk (State.touch_memOk h _) _) _ _) _

theorem State.readSramWord_memOk {s : State} (h : s.MemOk) (w : Nat) : (s.readSramWord w).2.2.MemOk := by
  unfold State.readSramWord
  dsimp only
  split
  · exact h
  · exact State.logDiag_memOk h ..

theorem State.writeSramPart_memOk {s : State} (h : s.MemOk) (w o : Nat) (l : List W8) (b : Bool) :
    (s.writeSramPart w o l b).MemOk := by
  unfold State.writeSramPart
  split
  · exact State.setSramWord_memOk h _ _
  · exact State.setSramWord_memOk (State.readSramWord_memOk h _) _ _

theorem State.sramFill_memOk {s : State} (h : s.MemOk) (o : Nat) (l : List W8) : (s.sramFill o l).MemOk :=
  State.foldl_memOk _ (fun _ _ h => State.writeSramPart_memOk h _ _ _ _) _ _ h

theorem readWords_memOk (rd : State → Nat → W64 × Bool × State) (hr : ∀ s w, s.MemOk → (rd s w).2.2.MemOk) (n : Nat) :
    ∀ (s : State) (a : Nat), s.MemOk → (readWords rd s a n).2.2.MemOk := by
  induction n with
  | zero => exact fun s a h => h
  | succ n ih => exact fun s a h => ih _ _ (hr s _ h)

theorem readSpan_memOk (rd : State → Nat → W64 × Bool × State) (hr : ∀ s w, s.MemOk → (rd s w).2.2.MemOk) {s : State}
    (h : s.MemOk) (a n : Nat) : (readSpan rd s a n).2.2.MemOk := by
  unfold readSpan
  split
  · exact h
  · exact readWords_memOk rd hr _ s _ h

theorem State.writeLine_memOk {s : State} (h : s.MemOk) (l : Nat) (d : List W8) (b : Bool) : (s.writeLine l d b).MemOk := by
  have place : ∀ x : State, x.MemOk → (if (x.inSet l).isSome then x.incFld (Reg.CCH_CNT 0) 0 32
      else if (x.inVict l).isSome then x.fill l else x.place l true).MemOk := by
    intro x hx
    split
    · exact hx
    · split
      · exact State.fill_memOk hx _
      · exact State.place_memOk hx _ _
  refine State.markDirty_memOk (State.foldl_memOk _ (fun _ _ h => State.setCw_memOk h _ _) _ _ (place _ ?_)) l
  split
  · split
    · exact State.fillDone_memOk h _
    · split
      · exact h
      · exact State.fillDone_memOk (State.stall_memOk h) _
  · exact h

theorem State.writeDram_memOk (f : Nat) : ∀ {s : State}, s.MemOk → ∀ (a : Nat) (l : List W8) (b : Bool),
    (s.writeDram a l b f).MemOk := by
  induction f with
  | zero => exact fun h _ _ _ => h
  | succ f ih =>
    intro s h a l b
    unfold State.writeDram
    split
    · exact h
    · split
      · exact h
      · split
        · exact ih (State.writeLine_memOk h _ _ _) _ _ _
        · exact ih (State.writeDramPart_memOk h _ _ _ _) _ _ _

/-! ### Memory addressed by the part's agents -/

/-- A read of memory keeps the canonical form. -/
theorem State.memRead_memOk {s : State} (h : s.MemOk) (a n : Nat) : (s.memRead a n).2.2.MemOk := by
  unfold State.memRead
  split
  · exact readSpan_memOk _ (fun _ _ h => State.readDramWord_memOk h _) h _ _
  · exact readSpan_memOk _ (fun _ _ h => State.readSramWord_memOk h _) h _ _
  · exact h

/-- A store into memory keeps the canonical form. -/
theorem State.memWrite_memOk {s : State} (h : s.MemOk) (a : Nat) (l : List W8) (b : Bool) : (s.memWrite a l b).MemOk := by
  unfold State.memWrite
  split
  · exact State.writeDram_memOk _ h _ _ _
  · split
    · exact h
    · exact State.foldl_memOk _ (fun _ _ h => State.writeSramPart_memOk h _ _ _ _) _ _ h
  · exact h

theorem State.memReadMarked_memOk (f : Nat) : ∀ {s : State}, s.MemOk → ∀ (a n : Nat), (s.memReadMarked a n f).2.MemOk := by
  induction f with
  | zero => exact fun h _ _ => h
  | succ f ih =>
    intro s h a n
    unfold State.memReadMarked
    split
    · exact h
    · exact ih (State.memRead_memOk h _ _) _ _

theorem State.memWriteMarkedW_memOk (f : Nat) : ∀ {s : State}, s.MemOk → ∀ (a : Nat) (l : List (W8 × Bool)),
    (s.memWriteMarkedW a l f).MemOk := by
  induction f with
  | zero => exact fun h _ _ => h
  | succ f ih =>
    intro s h a l
    unfold State.memWriteMarkedW
    split
    · exact h
    · exact ih (State.memWrite_memOk h _ _ _) _ _

/-- A store of marked bytes keeps the canonical form. -/
theorem State.memWriteMarked_memOk {s : State} (h : s.MemOk) (a : Nat) (l : List (W8 × Bool)) : (s.memWriteMarked a l).MemOk := by
  unfold State.memWriteMarked
  split
  · exact State.memWriteMarkedW_memOk _ h _ _
  · exact State.memWrite_memOk h _ _ _

end Sys2Proof.Machine
end

