-- ==== Sys2Proof/Laws/Clean.lean ====
section
/-! SUPPORT. DRAM behind a clean cache and without the parity code: a read delivers the stored bytes and changes only which lines the
cache holds (R384 to R387, R461). -/

namespace Sys2Proof.Machine

/-- The memory is ready, without the parity code, and the cache holds no line that differs from DRAM. -/
structure State.Clean (s : State) : Prop where
  ready : s.mem.ready = true
  prot : s.mem.prot = false
  miss : s.mem.miss = []
  cw : s.mem.cw = []
  wb : s.mem.wb = []
  lines : ∀ e ∈ s.mem.lines, e.2.dirty = false
  vict : ∀ e ∈ s.mem.vict, e.2 = false

/-- Only the placing of lines, the cache's counters and the count of free values differ. -/
structure State.Calm (s t : State) : Prop where
  eq : t = { s with mem := { s.mem with lines := t.mem.lines, vict := t.mem.vict }, regs := t.regs, fresh := t.fresh }
  regs : ∀ o, (∀ i, i < 4 → o ≠ Reg.CCH_CNT i) → t.reg o = s.reg o

theorem State.Calm.refl (s : State) : s.Calm s := ⟨rfl, fun _ _ => rfl⟩

theorem State.Calm.trans {s t u : State} (h : s.Calm t) (k : t.Calm u) : s.Calm u := by
  refine ⟨?_, fun o ho => (k.regs o ho).trans (h.regs o ho)⟩
  rw [k.eq, h.eq]

/-- Such a change keeps the cache clean when the lines and the victims are. -/
theorem State.Calm.clean {s t : State} (h : s.Calm t) (c : s.Clean) (hl : ∀ e ∈ t.mem.lines, e.2.dirty = false)
    (hv : ∀ e ∈ t.mem.vict, e.2 = false) : t.Clean := by
  have e := h.eq
  refine ⟨?_, ?_, ?_, ?_, ?_, hl, hv⟩
  · rw [e]; exact c.ready
  · rw [e]; exact c.prot
  · rw [e]; exact c.miss
  · rw [e]; exact c.cw
  · rw [e]; exact c.wb

theorem State.Calm.incFld (s : State) (i lo len n : Nat) (hi : i < 4) : s.Calm (s.incFld (Reg.CCH_CNT i) lo len n) := by
  refine ⟨rfl, fun o ho => ?_⟩
  unfold State.incFld
  rw [State.reg_setFld, if_neg (ho i hi)]

theorem mem_smSet {α : Type} {m : SMap α} {k : Nat} {v : α} {e : Nat × α} (h : e ∈ smSet m k v) : e = (k, v) ∨ e ∈ m := by
  induction m with
  | nil => simp [smSet] at h; exact .inl h
  | cons x t ih =>
    obtain ⟨j, w⟩ := x
    simp only [smSet] at h
    split at h
    · rcases List.mem_cons.mp h with h | h
      · exact .inl h
      · exact .inr (List.mem_cons_of_mem _ h)
    · split at h
      · rcases List.mem_cons.mp h with h | h
        · exact .inl h
        · exact .inr h
      · rcases List.mem_cons.mp h with h | h
        · exact .inr (h ▸ List.mem_cons_self ..)
        · rcases ih h with h | h
          · exact .inl h
          · exact .inr (List.mem_cons_of_mem _ h)

theorem mem_smAbove {α : Type} {m : SMap α} {k : Nat} {e : Nat × α} (h : e ∈ smAbove m k) : e ∈ m := by
  induction m with
  | nil => exact h
  | cons x t ih =>
    simp only [smAbove] at h
    split at h
    · exact List.mem_cons_of_mem _ (ih h)
    · exact h

theorem mem_smDel {α : Type} {m : SMap α} {k : Nat} {e : Nat × α} (h : e ∈ smDel m k) : e ∈ m := by
  induction m with
  | nil => exact h
  | cons x t ih =>
    simp only [smDel] at h
    split at h
    · exact List.mem_cons_of_mem _ (mem_smAbove h)
    · split at h
      · exact h
      · rcases List.mem_cons.mp h with h | h
        · exact h ▸ List.mem_cons_self ..
        · exact List.mem_cons_of_mem _ (ih h)

/-- A clean line leaves its set. -/
theorem State.toVictim_clean {s : State} (c : s.Clean) (l : Nat) : s.Calm (s.toVictim l false) ∧ (s.toVictim l false).Clean := by
  have key : ∀ x : State, s.Calm x → x.Clean → s.Calm { x with mem := { x.mem with vict := x.mem.vict ++ [(l, false)] } } ∧
      State.Clean { x with mem := { x.mem with vict := x.mem.vict ++ [(l, false)] } } := by
    intro x h k
    have h' : s.Calm { x with mem := { x.mem with vict := x.mem.vict ++ [(l, false)] } } := by
      refine ⟨?_, h.regs⟩
      conv => lhs; rw [h.eq]
    refine ⟨h', h'.clean c k.lines ?_⟩
    intro e he
    rcases List.mem_append.mp he with he | he
    · exact k.vict e he
    · rw [List.mem_singleton] at he; rw [he]
  unfold State.toVictim
  split
  · rename_i o d t hv
    have hd : d = false := c.vict (o, d) (by rw [hv]; exact List.mem_cons_self ..)
    split
    · subst hd
      simp only [Bool.false_eq_true, if_false]
      have hx : s.Calm (State.dropCw { s with mem := { s.mem with vict := t } } o) := by
        refine ⟨?_, fun _ _ => rfl⟩
        simp only [State.dropCw, c.cw, List.filter_nil]
      refine key _ hx (hx.clean c c.lines ?_)
      intro e he
      exact c.vict e (by rw [hv]; exact List.mem_cons_of_mem _ he)
    · exact key _ (.refl s) c
  · exact key _ (.refl s) c

/-- A line is placed clean. -/
theorem State.place_clean {s : State} (c : s.Clean) (l : Nat) : s.Calm (s.place l false) ∧ (s.place l false).Clean := by
  have key : ∀ (x : State) (w : Nat), s.Calm x → x.Clean → s.Calm { x with mem := { x.mem with lines := smSet x.mem.lines l ⟨w, false⟩ } } ∧
      State.Clean { x with mem := { x.mem with lines := smSet x.mem.lines l ⟨w, false⟩ } } := by
    intro x w h k
    have h' : s.Calm { x with mem := { x.mem with lines := smSet x.mem.lines l ⟨w, false⟩ } } := by
      refine ⟨?_, h.regs⟩
      conv => lhs; rw [h.eq]
    refine ⟨h', h'.clean c ?_ k.vict⟩
    intro e he
    rcases mem_smSet he with he | he
    · rw [he]
    · exact k.lines e he
  unfold State.place
  dsimp only
  split
  · exact key s _ (.refl s) c
  · have hf : s.Calm (s.freeNat (s.openWays.length - 1)).2 := ⟨rfl, fun _ _ => rfl⟩
    have cf : (s.freeNat (s.openWays.length - 1)).2.Clean := hf.clean c c.lines c.vict
    generalize (s.freeNat (s.openWays.length - 1)).2 = u at hf cf ⊢
    split
    · rename_i o x hx
      have hd : x.dirty = false := cf.lines (o, x) (List.mem_of_find?_eq_some hx)
      rw [hd]
      have hy : u.Calm { u with mem := { u.mem with lines := smDel u.mem.lines o } } := ⟨rfl, fun _ _ => rfl⟩
      have cy := hy.clean cf (fun e he => cf.lines e (mem_smDel he)) cf.vict
      obtain ⟨p, q⟩ := State.toVictim_clean cy o
      exact key _ _ (hf.trans (hy.trans p)) q
    · exact key _ _ hf cf

/-- Without the parity code every stored word reads good. -/
theorem State.dramWord_clean {s : State} (c : s.Clean) (w : Nat) : (s.dramWord w).syn = 0 := by
  simp [State.dramWord, c.prot]

theorem State.fillWords_clean {s : State} (c : s.Clean) (l : Nat) : s.fillWords l = s := by
  have h : ∀ n : Nat, (List.range n).foldl (fun s i => let w := 8 * l + i; let c := s.dramWord w; match diagnose c.syn with
    | .good => s
    | d => let s := s.logDiag (0x38 + dramChan s.mem.prot (8 * w)) (8 * w) false d
      s.setCw w (if c.bad then { c with syn := 0xFFFF } else ⟨correctedData c, 0⟩)) s = s := by
    intro n
    induction n with
    | zero => rfl
    | succ n ih =>
      rw [List.range_succ, List.foldl_append, ih]
      simp only [List.foldl_cons, List.foldl_nil, State.dramWord_clean c]
      rfl
  exact h 8

theorem State.touch_clean {s : State} (c : s.Clean) (l : Nat) : s.Calm (s.touch l) ∧ (s.touch l).Clean := by
  have inc : ∀ (x : State) (i n : Nat), i < 4 → s.Calm x → x.Clean → s.Calm (x.incFld (Reg.CCH_CNT i) 0 32 n) ∧
      (x.incFld (Reg.CCH_CNT i) 0 32 n).Clean := by
    intro x i n hi h k
    have := State.Calm.incFld x i 0 32 n hi
    exact ⟨h.trans this, this.clean k k.lines k.vict⟩
  unfold State.touch
  rw [c.miss, show smFind ([] : SMap Nat) (lineBank l) = none from rfl]
  dsimp only
  split
  · exact inc s 0 1 (by omega) (.refl s) c
  · unfold State.fill
    split
    · rename_i d hd
      have hd' : d = false := by
        simp only [State.inVict, Option.map_eq_some_iff] at hd
        obtain ⟨e, he, rfl⟩ := hd
        exact c.vict e (List.mem_of_find?_eq_some he)
      subst hd'
      dsimp only
      have hy : s.Calm { s with mem := { s.mem with vict := s.mem.vict.filter fun e => e.1 != l } } := ⟨rfl, fun _ _ => rfl⟩
      have cy := hy.clean c c.lines (fun e he => c.vict e (List.mem_of_mem_filter he))
      obtain ⟨p, q⟩ := State.place_clean cy l
      exact inc _ 2 1 (by omega) (hy.trans p) q
    · have hw : s.inWb l = none := by simp [State.inWb, c.wb]
      rw [hw]
      dsimp only
      obtain ⟨p, q⟩ := State.place_clean c l
      rw [State.fillWords_clean q]
      exact inc _ 1 1 (by omega) p q

/-- A word read is the stored one. -/
theorem State.readDramWord_clean {s : State} (c : s.Clean) (w : Nat) : ∃ t, s.readDramWord w = ((s.dramWord w).data, false, t) ∧
    s.Calm t ∧ t.Clean := by
  obtain ⟨p, q⟩ := State.touch_clean c (w / 8)
  refine ⟨s.touch (w / 8), ?_, p, q⟩
  unfold State.readDramWord
  rw [if_pos c.ready]
  unfold State.cachedWord
  rw [q.cw]
  have e : (s.touch (w / 8)).dramWord w = s.dramWord w := by
    rw [p.eq]; rfl
  rw [e]
  have hs := State.dramWord_clean c w
  have hb : (s.dramWord w).bad = false := by unfold CWord.bad; rw [hs]; rfl
  have hc : correctedData (s.dramWord w) = (s.dramWord w).data := by unfold correctedData; rw [hs]; rfl
  simp only [smFind, hb, hc]

/-- The bytes of a word. -/
theorem leBytes_ofLe (l : List W8) : leBytes l.length (ofLe l) = l := by
  induction l with
  | nil => rfl
  | cons b t ih =>
    have e1 : BitVec.ofNat 8 (b.toNat + 256 * ofLe t) = b := by
      apply BitVec.eq_of_toNat_eq
      have := b.isLt
      rw [BitVec.toNat_ofNat]; omega
    have e2 : (b.toNat + 256 * ofLe t) / 256 = ofLe t := by
      have := b.isLt
      omega
    simp only [List.length_cons, leBytes, ofLe, e1, e2, ih]

theorem ofLe_lt (l : List W8) : ofLe l < 256 ^ l.length := by
  induction l with
  | nil => simp [ofLe]
  | cons b t ih =>
    have := b.isLt
    simp only [ofLe, List.length_cons, pow_succ]
    omega

theorem length_readCells (d : Nat → W8) (m : List Host.Cell) (n : Nat) : ∀ a, (readCells d m a n).length = n := by
  induction n with
  | zero => intro a; rfl
  | succ n ih => intro a; simp [readCells, ih]

theorem readCells_add (d : Nat → W8) (m : List Host.Cell) (n k : Nat) : ∀ a, readCells d m a (n + k) = readCells d m a n ++ readCells d m (a + n) k := by
  induction n with
  | zero => intro a; simp [readCells]
  | succ n ih =>
    intro a
    rw [show n + 1 + k = (n + k) + 1 by omega]
    simp only [readCells, ih, List.cons_append]
    rw [show a + 1 + n = a + (n + 1) by omega]

theorem State.dramWord_bytes (s : State) (w : Nat) : leBytes 8 (s.dramWord w).data.toNat = readCells Config.dramByte s.mem.dram (8 * w) 8 := by
  have hl := length_readCells Config.dramByte s.mem.dram 8 (8 * w)
  have hb := ofLe_lt (readCells Config.dramByte s.mem.dram (8 * w) 8)
  rw [hl] at hb
  show leBytes 8 (BitVec.ofNat 64 (ofLe (readCells Config.dramByte s.mem.dram (8 * w) 8))).toNat = _
  rw [BitVec.toNat_ofNat, Nat.mod_eq_of_lt (Nat.lt_of_lt_of_le hb (Nat.le_of_eq (by norm_num)))]
  have := leBytes_ofLe (readCells Config.dramByte s.mem.dram (8 * w) 8)
  rwa [hl] at this

/-- Consecutive words read are the stored bytes. -/
theorem readWords_clean (n : Nat) : ∀ (s : State) (w : Nat), s.Clean → ∃ t, readWords State.readDramWord s w n =
    (readCells Config.dramByte s.mem.dram (8 * w) (8 * n), false, t) ∧ s.Calm t ∧ t.Clean := by
  induction n with
  | zero => intro s w c; exact ⟨s, rfl, .refl s, c⟩
  | succ n ih =>
    intro s w c
    obtain ⟨t, e, p, q⟩ := State.readDramWord_clean c w
    obtain ⟨u, e', p', q'⟩ := ih t (w + 1) q
    refine ⟨u, ?_, p.trans p', q'⟩
    have hd : t.mem.dram = s.mem.dram := by rw [p.eq]
    rw [readWords]
    simp only [Nat.add_zero, e, e', hd, Bool.or_false]
    rw [State.dramWord_bytes, show 8 * (n + 1) = 8 + 8 * n by omega, readCells_add, show 8 * (w + 1) = 8 * w + 8 by omega]

/-- A read by Ranger behind a clean cache gives the stored bytes (R461). -/
theorem State.secRead_clean {s : State} (c : s.Clean) (w n : Nat) (hn : 0 < n) (h : s.inDram (8 * w) (8 * n) = true) :
    ∃ t, s.secRead (8 * w) (8 * n) = (some (readCells Config.dramByte s.mem.dram (8 * w) (8 * n)), t) ∧ s.Calm t ∧ t.Clean := by
  obtain ⟨t, e, p, q⟩ := readWords_clean n s w c
  refine ⟨t, ?_, p, q⟩
  have hlt : 8 * w < s.dramSize := by
    have h : 8 * w + 8 * n ≤ s.mem.capMib * 2 ^ 20 := of_decide_eq_true h
    simp only [State.dramSize, c.ready, if_true]
    omega
  have hm : s.memRead (8 * w) (8 * n) = (readCells Config.dramByte s.mem.dram (8 * w) (8 * n), false, t) := by
    unfold State.memRead State.place0
    rw [if_pos hlt]
    simp only [readSpan]
    rw [if_neg (by omega), show 8 * w / 8 = w by omega, show (8 * w + 8 * n - 1) / 8 - w + 1 = n by omega, e]
    simp only [show 8 * w % 8 = 0 by omega, List.drop_zero]
    rw [List.take_of_length_le (by rw [length_readCells])]
  unfold State.secRead
  rw [h, hm]
  rfl

/-- A byte of a number. -/
theorem leBytes_get (n : Nat) : ∀ (k x : Nat), k < n → (leBytes n x)[k]? = some (BitVec.ofNat 8 (x / 256 ^ k)) := by
  induction n with
  | zero => intro k x h; omega
  | succ n ih =>
    intro k x h
    cases k with
    | zero => simp [leBytes]
    | succ k =>
      rw [leBytes, List.getElem?_cons_succ, ih k (x / 256) (by omega), Nat.div_div_eq_div_mul, Nat.pow_succ, Nat.mul_comm]

theorem readCells_get (d : Nat → W8) (m : List Host.Cell) (n : Nat) : ∀ (a k : Nat), k < n → (readCells d m a n)[k]? = some (smGet d m (a + k)) := by
  induction n with
  | zero => intro a k h; omega
  | succ n ih =>
    intro a k h
    cases k with
    | zero => simp [readCells]
    | succ k =>
      rw [readCells, List.getElem?_cons_succ, ih (a + 1) k (by omega), show a + 1 + k = a + (k + 1) by omega]

/-- Behind a clean cache a byte seen is the stored one. -/
theorem State.dramByteAt_clean {s : State} (c : s.Clean) (a : Nat) : s.dramByteAt a = smGet Config.dramByte s.mem.dram a := by
  have hp : s.peekWord (a / 8) = (s.dramWord (a / 8)).data := by
    unfold State.peekWord
    rw [c.cw]
    simp only [smFind, State.inWb, c.wb, List.reverse_nil, List.find?_nil]
    unfold correctedData
    rw [State.dramWord_clean c]
    rfl
  have h1 := leBytes_get 8 (a % 8) (s.dramWord (a / 8)).data.toNat (Nat.mod_lt _ (by omega))
  rw [State.dramWord_bytes, readCells_get _ _ _ _ _ (Nat.mod_lt _ (by omega)), show 8 * (a / 8) + a % 8 = a by omega] at h1
  unfold State.dramByteAt
  rw [hp]
  exact (Option.some.inj h1).symm

/-- And so are bytes. -/
theorem State.dramPeek_clean {s : State} (c : s.Clean) (n : Nat) : ∀ a, s.dramPeek a n = readCells Config.dramByte s.mem.dram a n := by
  induction n with
  | zero => intro a; rfl
  | succ n ih =>
    intro a
    have := ih (a + 1)
    unfold State.dramPeek at this ⊢
    rw [List.range_succ_eq_map, List.map_cons, List.map_map, readCells, ← this]
    congr 1
    · exact State.dramByteAt_clean c a
    · apply List.map_congr_left
      intro i _
      simp only [Function.comp]
      rw [show a + i.succ = a + 1 + i by rw [Nat.succ_eq_add_one]; omega]

end Sys2Proof.Machine
end

