-- ==== Sys2Proof/Laws/Fetch.lean ====
section
/-! SUPPORT. What an instruction fetch can do: a hit in the instruction cache, and the first microword of a base instruction
while no trap entry and no bad copy of the control store stands (R48, R82, R87, R97). -/

namespace Sys2Proof.Machine

/-- A fetch that hits gives the line's word and leaves the state as it is (R48). -/
theorem State.fetch_hit {s : State} {p : Nat} {pc : W64} {ws : List W32} (h : s.icLine p pc.toNat = some ws) :
    s.fetch p pc = (some (ws.getD (pc.toNat / 4 % 16) 0), s) := by
  simp [State.fetch, h]

/-- An address without a trap entry is read where it is (R87). -/
theorem State.trapAddr_none {s : State} (h : s.ucs.traps = []) (a : Nat) : s.trapAddr a = a := by
  simp [State.trapAddr, h]

/-- A replica without bad copies delivers its half as stored (R96, R97). -/
theorem State.ucsHalf_good {s : State} (h : s.ucs.rep = []) (camp a : Nat) (up : Bool) :
    s.ucsHalf camp a up = (some (halfOf ((s.storeWord a).getD 0) up, 0), s) := by
  have hc : s.repHalf camp a up = ⟨halfOf ((s.storeWord a).getD 0) up, 0⟩ := by simp [State.repHalf, h, smFind]
  have hd : diagnose (0 : W16) = .good := by decide
  unfold State.ucsHalf
  dsimp only
  rw [hc]
  dsimp only
  rw [hd]

/-- Without trap entries and bad copies a base instruction is the one of its ROM (R82). -/
theorem State.romFetch_base {s : State} (ht : s.ucs.traps = []) (hr : s.ucs.rep = []) (p : Nat) (w : W32) :
    s.romFetch p w = (.base, s) := by
  have ha : romEntryOf w < 0x2000 := (Config.romEntry (wOp w) (entryFn w)).isLt
  unfold State.romFetch
  split
  · rfl
  · simp [State.ucsFetch, State.trapAddr_none ht, State.storeWord, ha, State.ucsHalf_good hr]

end Sys2Proof.Machine
end

