-- ==== Sys2Proof/Tests/Slice0.lean ====
section
/-! SUPPORT. Tests: ill-formed operands are refused, single steps on small states, and a state and operands that meet the
hypotheses of each statement. -/

namespace Sys2Proof.Tests

open Sys2Proof Sys2Proof.Machine

set_option Elab.async false

/-! ### Small states -/

/-- `s` with registers set by hardware. -/
def withRegs (l : List (Nat × W32)) (s : State) : State := l.foldl (fun s e => s.setReg e.1 e.2) s

/-- Thread 0 runs `t` at the first word of its local data RAM; its instruction cache holds that line, full of the word `w`. -/
def engW (w : W32) (t : Thread) : State :=
  { State.reset with
    thrs := [(0, { t with pc := 0x010000000000 }), (160, { Thread.reset with pc := 0x010000280000 })]
    regs := [(Reg.SYS_CAMP_RUN 0, 1)], ic := [(0, [⟨0x400000000, List.replicate 16 w⟩])] }

/-- The line is full of the word of `i`. -/
def eng (i : Instr) (t : Thread) : State := engW ((instrWord i).getD 0) t

/-- A thread with these general registers. -/
def gprs (l : List (Nat × W64)) : Thread := { Thread.reset with g := l }

/-- A state of a running thread with general registers; DRAM is ready. -/
def engD (i : Instr) (l : List (Nat × W64)) : State :=
  { eng i (gprs l) with mem := { Mem.reset with ready := true, capMib := 1024, prot := false } }

/-- The same state at the task level. -/
def task (i : Instr) (l : List (Nat × W64)) : State := eng i { gprs l with status := 0 }

/-- `Fetches` as it is computed where no trap entry and no bad copy of the control store stands. -/
def fetchB (s : State) (p : Thr) (i : Instr) (f : State) : Bool :=
  match instrWord i with
  | none => false
  | some w =>
    let r := (s.stepTaken p).fetch p (s.thr p).pc
    s.canRun p && (((s.stepTaken p).fetchExc (s.thr p).pc).isNone && (r.1 == some w && (r.2 == f &&
      (f.ucs.traps == [] && f.ucs.rep == []))))

theorem fetches_of {s : State} {p : Thr} {i : Instr} {f : State} (h : fetchB s p i f = true) : Fetches s p i f := by
  unfold fetchB at h
  split at h
  · simp at h
  · rename_i w hw
    simp only [Bool.and_eq_true, beq_iff_eq, Option.isNone_iff_eq_none] at h
    obtain ⟨h1, h2, h3, h4, h5, h6⟩ := h
    exact ⟨w, f, hw, ⟨h1, h2, Prod.ext h3 h4⟩, State.romFetch_base h5 h6 p w⟩

/-- `Issues` from what is computed. -/
theorem issues_of {s : State} {p : Thr} {i : Instr} {f : State} (h : (fetchB s p i f && !(f.irqNow p)) = true) : Issues s p i f := by
  simp only [Bool.and_eq_true, Bool.not_eq_true'] at h
  exact ⟨fetches_of h.1, h.2⟩

/-- `DoeAsks` for a request that arrived first. -/
theorem doeAsks_of {s : State} {n : HPort} {v t : Nat} {o : List W32} {rest : List (Nat × List W32)}
    (h : s.portLive n = true ∧ ((s.doe n).wait = (0, o) :: rest ∧ s.rangerTurn 0 = true) ∧ (s.doe n).prep = [] ∧ (s.doe n).resp = [] ∧
      doeProto o = (v, t)) : DoeAsks s n v t o rest :=
  ⟨h.1, ⟨0, h.2.1⟩, h.2.2⟩

/-! ### Ill-formed operands: each check of `Instr.wf` refuses a term -/

theorem test_illFormed_capture : (Instr.sectorCapture 0 ⟨[], [], []⟩).wf = false := by decide
theorem test_illFormed_reread : (Instr.rereadRevolution 0 ⟨[3, -3], [], []⟩).wf = false := by decide
theorem test_illFormed_verify : (Instr.verifyResult 0 [1, 2, 3]).wf = false := by decide
theorem test_illFormed_gates : (Instr.slotWrite ⟨0, [5, 0]⟩).wf = false := by decide
theorem test_illFormed_rewriteGates : (Instr.rewriteRevolution ⟨0, [[1, 2], [7, 7]]⟩).wf = false := by decide
theorem test_illFormed_cairnGates : (Instr.cairnWrite ⟨0, [9, 8]⟩).wf = false := by decide
theorem test_illFormed_window1 : (Instr.pwmPeriod ⟨[1, 2, 3], [1, 2, 3, 4], true⟩).wf = false := by decide
theorem test_illFormed_window2 : (Instr.pwmPeriod ⟨[1, 2, 3, 4], [], true⟩).wf = false := by decide
theorem test_illFormed_edgeOrder : (Instr.catchEnd [] [(20, true), (10, true)] []).wf = false := by decide
theorem test_illFormed_edgeTime : (Instr.zvbrakeObserveEnd [(20000001, true)] [] []).wf = false := by decide


/-! ### Witnesses of the hypotheses -/

theorem witness_StepRunsFrontCommand : let s := eng (.isync 0 0 0 0 0) Thread.reset
    ({ State.reset with pending := [.offerForward, .bootConfirm] } : State).pending = .offerForward :: [.bootConfirm] ∧
      s.pending = [] ∧ s.runBit 0 = true ∧ s.runBit 191 = false := by decide

theorem witness_EveryWellFormedCommandCompletes :
    (Instr.offerForward).wf = true ∧ (Instr.catchEnd [(5, true), (4, true)] [] []).wf = false := by decide

/-- The cascade block has an event raised, which is on record, and a message of it is due. -/
def sentEvent : State :=
  { withRegs [(Reg.CSC_STATUS, 1), (Reg.CSC_ENABLE, 1)] State.reset with evSeen := ⟨[4], [(4, 1)]⟩ }

theorem witness_SentEventsStayRaised : sentEvent.EventInv ∧ ∃ t, Sys2Proof.Machine.step sentEvent = .next t :=
  ⟨by unfold State.EventInv; decide, _, rfl⟩

theorem witness_TablesStayCanonical : Canon (engD (.isync 0 0 0 0 0) [(1, 7)]) ∧
    ∃ t, Sys2Proof.Machine.step (engD (.isync 0 0 0 0 0) [(1, 7)]) = .next t :=
  ⟨by unfold Canon; decide +kernel, _, rfl⟩

theorem witness_InstructionFetchUsesTheCache :
    (let s := eng (.isync 0 0 0 0 0) Thread.reset;
      (s.icLine 0 0x010000000000).isSome = true) ∧
    (let s := { eng (.isync 0 0 0 0 0) Thread.reset with ic := [] }; let r := s.readLine 0x010000000000 8;
      s.icLine 0 0x010000000000 = none ∧ r.2.1.getD 0 false = false ∧
      (r.2.1.all fun b => !b) = true ∧ (s.icSet 0).length ≤ 2) ∧
    (let s := { eng (.isync 0 0 0 0 0) Thread.reset with ic := [], mem := { Mem.reset with sramSyn := [(0, 0xFFFF)] } }; let r := s.readLine 0x010000000000 8;
      s.icLine 0 0x010000000000 = none ∧
      r.2.1.getD 0 false = true) ∧
    (let s := { eng (.isync 0 0 0 0 0) Thread.reset with ic := [], mem := { Mem.reset with sramSyn := [(7, 0xFFFF)] } }; let r := s.readLine 0x010000000000 8;
      s.icLine 0 0x010000000000 = none ∧
      r.2.1.getD 0 false = false ∧ r.2.1.any id = true) :=
  by decide +kernel


theorem witness_AluCompareAndPredicateWriteOneRegister :
    (let i := Instr.alu 0 7 1 2 0; let s := eng i (gprs [(1, 5), (2, 3)]);
      Issues s 0 i s ∧ aluResult (s.thr 0) 0x000 (s.g 0 1) (s.g 0 2) = some 8) ∧
    (let i := Instr.cmp 0 7 1 2 0; let s := eng i (gprs [(1, 5), (2, 3)]);
      Issues s 0 i s ∧ (7 : R5).toNat < 8 ∧ cmpFn 0x000 (s.g 0 1) (s.g 0 2) = some false) ∧
    (let i := Instr.cmpi 0 7 1 5; let s := eng i (gprs [(1, 5), (2, 3)]);
      Issues s 0 i s) ∧
    (let i := Instr.pred 0 7 7 0 0; let s := eng i (gprs [(1, 5), (2, 3)]);
      Issues s 0 i s ∧ predFn 0x000 ((s.thr 0).getP 7) ((s.thr 0).getP 0) = some false) :=
  ⟨⟨issues_of (by decide +kernel), by decide +kernel⟩,
    ⟨issues_of (by decide +kernel), by decide +kernel⟩,
    issues_of (by decide +kernel),
    ⟨issues_of (by decide +kernel), by decide +kernel⟩⟩


theorem witness_DivisionNeverRaisesAnException :
    (let i := Instr.alu 0 7 1 2 0x024; let s := eng i (gprs [(1, 5)]);
      Issues s 0 i s ∧ s.g 0 2 = 0) ∧
    (let i := Instr.alu 0 7 1 2 0x026; let s := eng i (gprs [(1, BitVec.ofInt 64 (-(2 ^ 63))), (2, -1)]);
      Issues s 0 i s ∧ s.g 0 1 = BitVec.ofInt 64 (-(2 ^ 63)) ∧ s.g 0 2 = -1) :=
  ⟨⟨issues_of (by decide +kernel), by decide +kernel⟩,
    ⟨issues_of (by decide +kernel), by decide +kernel⟩⟩


theorem witness_ImmediateAndFieldInstructionsWriteRd :
    (let i := Instr.addi 0 3 1 0xFFFF; let s := eng i (gprs [(1, 5)]);
      Issues s 0 i s) ∧
    (let i := Instr.sari 0 3 1 63; let s := eng i (gprs [(1, 5)]);
      Issues s 0 i s ∧ (63 : W16).toNat < 64) ∧
    (let i := Instr.ins 0 3 1 4095; let s := eng i (gprs [(1, 5)]);
      Issues s 0 i s ∧ (4095 : W16).toNat < 4096) :=
  ⟨issues_of (by decide +kernel),
    ⟨issues_of (by decide +kernel), by decide +kernel⟩,
    ⟨issues_of (by decide +kernel), by decide +kernel⟩⟩


theorem witness_LoadsReadTheirBytes :
    (let i := Instr.ld64 0 3 1 0 0; let s := eng i (gprs [(1, 0x010000000008)]); let ea := s.g 0 1 + (0 : W16).signExtend 64;
      Issues s 0 i s ∧ s.accessExc 0 ea 8 = none ∧ s.resolve ea = .sram 8 ∧
      (s.memRead 0x010000000008 8).2.1 = false) ∧
    (let i := Instr.ld64 0 3 1 0 0; let s := engD i [(1, 0x1000)]; let ea := s.g 0 1 + (0 : W16).signExtend 64;
      Issues s 0 i s ∧ s.accessExc 0 ea 8 = none ∧ s.resolve ea = .dram 0x1000) ∧
    (let i := Instr.ld32u 0 3 1 0; let s := { eng i (gprs [(1, 0x010000000100)]) with mem := { Mem.reset with sramSyn := [(32, 0xFFFF)] } }; let ea := s.g 0 1 + (0 : W16).signExtend 64;
      Issues s 0 i s ∧ s.accessExc 0 ea 4 = none ∧
      s.resolve ea = .sram 0x100 ∧ (s.memRead 0x010000000100 4).2.1 = true ∧ ((s.memRead 0x010000000100 4).2.2.thr 0).status.getLsbD 2 = false) ∧
    (let i := Instr.ld32u 0 3 1 4; let s := eng i (gprs [(1, 0x020000040000)]); let ea := s.g 0 1 + (4 : W16).signExtend 64;
      Issues s 0 i s ∧ s.accessExc 0 ea 4 = none ∧ s.resolve ea = .reg 0x40004) ∧
    (let i := Instr.ld64 0 3 1 4 0; let s := eng i (gprs [(1, 0x020000040004)]); let ea := s.g 0 1 + (4 : W16).signExtend 64;
      Issues s 0 i s ∧ s.accessExc 0 ea 8 = none ∧ s.resolve ea = .reg 0x40008) :=
  ⟨⟨issues_of (by decide +kernel), by decide +kernel⟩,
    ⟨issues_of (by decide +kernel), by decide +kernel⟩,
    ⟨issues_of (by decide +kernel), by decide +kernel⟩,
    ⟨issues_of (by decide +kernel), by decide +kernel⟩,
    ⟨issues_of (by decide +kernel), by decide +kernel⟩⟩


theorem witness_StoresWriteTheirBytes :
    (let i := Instr.st64 0 3 1 0; let s := eng i (gprs [(1, 0x010000407FF8)]); let ea := s.g 0 1 + (0 : W16).signExtend 64;
      Issues s 0 i s ∧ s.accessExc 0 ea 8 = none ∧ s.resolve ea = .sram 0x407FF8 ∧
      diagnose (s.sramWord (0x407FF8 / 8)).syn = .good) ∧
    (let i := Instr.st8 0 3 1 0; let s := eng i (gprs [(1, 0x010000500000)]); let ea := s.g 0 1 + (0 : W16).signExtend 64;
      Issues s 0 i s ∧ s.accessExc 0 ea 1 = none ∧ s.resolve ea = .sram 0x500000) ∧
    (let i := Instr.st64 0 3 1 0; let s := { engD i [(1, 0x1000)] with mem := { (engD i []).mem with lines := [(0x40, ⟨0, true⟩)] } }; let ea := s.g 0 1 + (0 : W16).signExtend 64;
      Issues s 0 i s ∧ s.accessExc 0 ea 8 = none ∧
      s.resolve ea = .dram 0x1000 ∧ s.mem.ready = true ∧ smFind s.mem.miss (lineBank 0x40) = none ∧ s.inWb 0x40 = none ∧
      (s.inSet (0x1000 / 64)).isSome = true ∧ (smFind s.mem.cw (0x1000 / 8)).all (fun c => diagnose c.syn = .good) = true) :=
  ⟨⟨issues_of (by decide +kernel), by decide +kernel⟩,
    ⟨issues_of (by decide +kernel), by decide +kernel⟩,
    ⟨issues_of (by decide +kernel), by decide +kernel⟩⟩


theorem witness_AtomicsReadAndWriteAtOnce :
    (let i := Instr.amo 0 3 1 2 8; let s := eng i (gprs [(1, 0x010000000010)]);
      Issues s 0 i s ∧ s.amoExc 0 (s.g 0 1) 8 = none ∧ s.fenceBusy 0 = false ∧
      (s.memRead (s.resolve (s.g 0 1)).localAddr 8).2.1 = false ∧ amoFn 8 0 (s.g 0 2) ≠ none) ∧
    (let i := Instr.amo 0 3 1 2 0x18; let s := { eng i (gprs [(1, 0x010000000010)]) with csc := { Csc.reset with reqs := [⟨0, 1, false, 1, 0, 8, [], .store 0, false⟩] } };
      Issues s 0 i s ∧ s.amoExc 0 (s.g 0 1) 4 = none ∧ s.fenceBusy 0 = true) ∧
    (let i := Instr.cas 0 3 1 2 false 0; let s := eng i (gprs [(1, 0x010000000010)]);
      Issues s 0 i s ∧ s.amoExc 0 (s.g 0 1) 8 = none ∧ s.fenceBusy 0 = false ∧
      (s.memRead (s.resolve (s.g 0 1)).localAddr 8).2.1 = false) :=
  ⟨⟨issues_of (by decide +kernel), by decide +kernel⟩,
    ⟨issues_of (by decide +kernel), by decide +kernel⟩,
    ⟨issues_of (by decide +kernel), by decide +kernel⟩⟩


theorem witness_FencesAndCacheInstructionsComplete :
    (let i := Instr.fence 0 0 0 0 0; let s := { eng i (gprs []) with csc := { Csc.reset with reqs := [⟨0, 1, false, 1, 0, 8, [], .store 0, false⟩] } };
      Issues s 0 i s ∧ s.fenceBusy 0 = true) ∧
    (let i := Instr.fenceSt 0 0 0 0 0; let s := eng i (gprs []);
      Issues s 0 i s ∧ s.fenceBusy 0 = false) ∧
    (let i := Instr.isync 0 0 0 0 0; let s := eng i (gprs []);
      Issues s 0 i s) ∧
    (let i := Instr.fenceIo 0 0 0 0 0; let s := { eng i (gprs []) with mem := { Mem.reset with hold := [⟨.clean, 4, 0⟩] } };
      Issues s 0 i s ∧ s.maintBusy 0 = true) ∧
    (let i := Instr.fenceLd 0 0 0 0 0; let s := eng i (gprs []);
      Issues s 0 i s) ∧
    (let i := Instr.clean 0 0 1 0 0; let s := engD i [(1, 0x2040)];
      Issues s 0 i s ∧ (s.g 0 1).toNat < 2 ^ 48 ∧ s.dramLine (s.g 0 1) = some 0x81 ∧ s.mem.ready = true) ∧
    (let i := Instr.flush 0 0 1 0 0; let s := eng i (gprs [(1, 0x2040)]);
      Issues s 0 i s ∧ s.mem.ready = false) ∧
    (let i := Instr.inval 0 0 1 0 0; let s := engD i [(1, 0x2040)];
      Issues s 0 i s ∧ (s.thr 0).priv = true) ∧
    (let i := Instr.zero 0 0 1 0 0; let s := engD i [(1, 0x2040)];
      Issues s 0 i s ∧ s.dramLine (s.g 0 1) = some 0x81) ∧
    (let i := Instr.icinv 0 0 1 0 0; let s := engD i [(1, 0x010000000000)];
      Issues s 0 i s ∧ s.icLine 0 0x010000000000 ≠ none) ∧
    (let i := Instr.icinvall 0 0 0 0 0; let s := eng i (gprs []);
      Issues s 0 i s ∧ smRising s.ic = true) ∧
    (let i := Instr.prefetch 0 0 1 0 0; let s := engD i [(1, 0x2040)];
      Issues s 0 i s ∧ s.dramLine (s.g 0 1) = some 0x81 ∧ s.mem.ready = true ∧ (s.inSet 0x81).isSome = false ∧
      smFind s.mem.miss (lineBank 0x81) = none) ∧
    (let i := Instr.prefetch 0 0 1 0 0; let s := eng i (gprs [(1, 0x010000000000)]);
      Issues s 0 i s ∧ s.dramLine (s.g 0 1) = none) :=
  ⟨⟨issues_of (by decide +kernel), by decide +kernel⟩,
    ⟨issues_of (by decide +kernel), by decide +kernel⟩,
    issues_of (by decide +kernel),
    ⟨issues_of (by decide +kernel), by decide +kernel⟩,
    issues_of (by decide +kernel),
    ⟨issues_of (by decide +kernel), by decide +kernel⟩,
    ⟨issues_of (by decide +kernel), by decide +kernel⟩,
    ⟨issues_of (by decide +kernel), by decide +kernel⟩,
    ⟨issues_of (by decide +kernel), by decide +kernel⟩,
    ⟨issues_of (by decide +kernel), by decide +kernel⟩,
    ⟨issues_of (by decide +kernel), by decide +kernel⟩,
    ⟨issues_of (by decide +kernel), by decide +kernel⟩,
    ⟨issues_of (by decide +kernel), by decide +kernel⟩⟩



theorem witness_BranchesGoWhereTheySay :
    (let i := Instr.br 0 1 1 0x1FFFFF; let s := eng i { gprs [] with pred := 3 };
      Issues s 0 i s ∧ (s.thr 0).getP 1 = true) ∧
    (let i := Instr.call 0 2 1 4; let s := eng i { gprs [] with pred := 3 };
      Issues s 0 i s ∧ (s.thr 0).getP 2 = false) ∧
    (let i := Instr.jr 0 3 1 0 0; let s := eng i (gprs [(1, 0x010000000100)]);
      Issues s 0 i s ∧ (s.g 0 1).toNat % 4 = 0) ∧
    (let i := Instr.br 0 0 3 4; let s := eng i (gprs []);
      Fetches s 0 i s ∧ (s.thr 0).status.getLsbD 2 = false) ∧
    (let i := Instr.call 0 0 3 4; let s := eng i (gprs []);
      Fetches s 0 i s ∧ (s.thr 0).status.getLsbD 2 = false) ∧
    (let i := Instr.jr 0 3 1 0 0; let s := eng i (gprs [(1, 0x010000000102)]);
      Fetches s 0 i s ∧ (s.thr 0).status.getLsbD 2 = false ∧ (s.g 0 1).toNat % 4 ≠ 0) ∧
    (let i := Instr.eret 0 0 0 0 0; let s := eng i { gprs [] with epc := 6 };
      Fetches s 0 i s ∧ (s.thr 0).status.getLsbD 2 = false ∧ (s.thr 0).priv = true ∧ (s.thr 0).epc.toNat % 4 ≠ 0) :=
  ⟨⟨issues_of (by decide +kernel), by decide +kernel⟩,
    ⟨issues_of (by decide +kernel), by decide +kernel⟩,
    ⟨issues_of (by decide +kernel), by decide +kernel⟩,
    ⟨fetches_of (by decide +kernel), by decide +kernel⟩,
    ⟨fetches_of (by decide +kernel), by decide +kernel⟩,
    ⟨fetches_of (by decide +kernel), by decide +kernel⟩,
    ⟨fetches_of (by decide +kernel), by decide +kernel⟩⟩


theorem witness_SpecialRegistersReadAndWrite :
    (let i := Instr.mfs 0 1 0 0x011; let s := eng i Thread.reset;
      Issues s 0 i s ∧ (s.thr 0).priv = true) ∧
    (let i := Instr.mfs 0 1 0 0x00D; let s := task i [];
      Issues s 0 i s ∧ (s.thr 0).priv = false) ∧
    (let i := Instr.mts 0 0 1 0x010; let s := eng i Thread.reset;
      Issues s 0 i s ∧ (s.thr 0).priv = true) ∧
    (let i := Instr.mts 0 0 1 0x00D; let s := task i [];
      Issues s 0 i s) ∧
    (let i := Instr.mfs 0 1 0 0x001; let s := task i [];
      Fetches s 0 i s ∧ (s.thr 0).status.getLsbD 2 = false ∧ (s.thr 0).priv = false) ∧
    (let i := Instr.mts 0 0 1 0x000; let s := eng i Thread.reset;
      Fetches s 0 i s ∧ (s.thr 0).status.getLsbD 2 = false ∧ (s.thr 0).priv = true) ∧
    (let i := Instr.mfs 0 1 0 0x012; let s := eng i Thread.reset;
      Fetches s 0 i s ∧ (s.thr 0).status.getLsbD 2 = false) ∧
    (let i := Instr.mts 0 0 1 0xFFFF; let s := eng i Thread.reset;
      Fetches s 0 i s ∧ (s.thr 0).status.getLsbD 2 = false) :=
  ⟨⟨issues_of (by decide +kernel), by decide +kernel⟩,
    ⟨issues_of (by decide +kernel), by decide +kernel⟩,
    ⟨issues_of (by decide +kernel), by decide +kernel⟩,
    issues_of (by decide +kernel),
    ⟨fetches_of (by decide +kernel), by decide +kernel⟩,
    ⟨fetches_of (by decide +kernel), by decide +kernel⟩,
    ⟨fetches_of (by decide +kernel), by decide +kernel⟩,
    ⟨fetches_of (by decide +kernel), by decide +kernel⟩⟩


theorem witness_TrapsInterruptsAndReturns :
    (let i := Instr.trap 0 0 0 5; let s := eng i Thread.reset;
      Fetches s 0 i s ∧ (s.thr 0).status.getLsbD 2 = false) ∧
    (let i := Instr.bkpt 0 0 0 0 0; let s := eng i Thread.reset;
      Fetches s 0 i s ∧ (s.thr 0).status.getLsbD 2 = false) ∧
    (let i := Instr.eret 0 0 0 0 0; let s := eng i { Thread.reset with epc := 8 };
      Issues s 0 i s ∧ (s.thr 0).priv = true ∧ (s.thr 0).epc.toNat % 4 = 0) ∧
    (let s := engW 0 { Thread.reset with inbox := [⟨1, 2, 3⟩], imask := 1, status := 3, wait := .event 4 1 };
      s.runBit 0 = true ∧ (s.thr 0).dbg = false ∧ (s.thr 0).step = false ∧ s.pwr.st < 2 ∧
      (s.thr 0).wait = .event 4 1 ∧ (s.thr 0).status.getLsbD 1 = true ∧ (s.thr 0).status.getLsbD 2 = false ∧ s.ipend 0 &&& (s.thr 0).imask.toNat % 8 ≠ 0) ∧
    (let i := Instr.addi 0 3 1 5; let s := eng i { Thread.reset with inbox := [⟨1, 2, 3⟩], imask := 1, status := 3 };
      Fetches s 0 i s ∧ s.irqNow 0 = true) ∧
    (let s := engW 0x0F000000 { Thread.reset with inbox := [⟨1, 2, 3⟩], imask := 1, status := 3 };
      FetchesWord s 0 0x0F000000 s ∧ decodeWord 0 0x0F000000 = none ∧ (s.thr 0).status.getLsbD 2 = false ∧ s.irqBits 0 ≠ 0) :=
  ⟨⟨fetches_of (by decide +kernel), by decide +kernel⟩,
    ⟨fetches_of (by decide +kernel), by decide +kernel⟩,
    ⟨issues_of (by decide +kernel), by decide +kernel⟩,
    by decide +kernel,
    ⟨fetches_of (by decide +kernel), by decide +kernel⟩,
    ⟨⟨by decide +kernel, by decide +kernel, rfl⟩, by decide +kernel⟩⟩


theorem witness_MessagesAndWaits :
    (let i := Instr.mbsend 0 3 1 4 0; let s := eng i (gprs [(1, 4)]);
      Issues s 0 i s ∧ msgDest (s.g 0 1).toNat = some (.inl 16) ∧ (s.thr 16).inbox.length < 8) ∧
    (let i := Instr.mbsend 0 3 1 4 0; let s := { eng i (gprs [(1, 0xC0)]) with thrs := [(0, { gprs [(1, 0xC0)] with pc := 0x010000000000 }), (3, { Thread.reset with inbox := List.replicate 8 ⟨0, 0, 1⟩ })] };
      Issues s 0 i s ∧ msgDest (s.g 0 1).toNat = some (.inl 3) ∧ 8 ≤ (s.thr 3).inbox.length) ∧
    (let i := Instr.mbsend 0 3 1 4 0; let s := eng i (gprs [(1, 0x105)]);
      Issues s 0 i s ∧ msgDest (s.g 0 1).toNat = some (.inr 5) ∧ (s.thr 0).priv = true ∧ (s.queue 5).length < 64) ∧
    (let i := Instr.mbsend 0 3 1 4 0; let s := { eng i (gprs [(1, 0x100)]) with campQ := [(0, List.replicate 64 ⟨0, 0, 1⟩)] };
      Issues s 0 i s ∧ msgDest (s.g 0 1).toNat = some (.inr 0) ∧ (s.thr 0).priv = true ∧ 64 ≤ (s.queue 0).length) ∧
    (let i := Instr.mbsend 0 3 1 4 0; let s := eng i (gprs [(1, 0x106)]);
      Issues s 0 i s ∧ msgDest (s.g 0 1).toNat = none ∧ (s.thr 0).priv = true) ∧
    (let i := Instr.mbrecv 0 4 1 0 2; let s := eng i { Thread.reset with inbox := [⟨1, 2, 3⟩] };
      Issues s 0 i s ∧ s.g 0 1 = 0 ∧ (s.thr 0).inbox = ⟨1, 2, 3⟩ :: []) ∧
    (let i := Instr.mbrecv 0 4 1 0 2; let s := eng i Thread.reset;
      Issues s 0 i s ∧ s.g 0 1 = 0 ∧ (s.thr 0).inbox = []) ∧
    (let i := Instr.mbrecv 0 4 1 0 2; let s := { eng i (gprs [(1, 1)]) with campQ := [(0, [⟨1, 2, 3⟩])] };
      Issues s 0 i s ∧ s.g 0 1 = 1 ∧ (s.thr 0).priv = true ∧ s.queue 0 = ⟨1, 2, 3⟩ :: []) ∧
    (let i := Instr.mbrecv 0 4 1 0 2; let s := eng i (gprs [(1, 1)]);
      Issues s 0 i s ∧ s.g 0 1 = 1 ∧ (s.thr 0).priv = true ∧ s.queue 0 = []) ∧
    (let i := Instr.waitT 0 3 1 0 0; let s := eng i (gprs [(1, 8)]);
      Issues s 0 i s ∧ (s.g 0 1).toNat % 8 = 0) ∧
    (let i := Instr.waitT 0 3 1 0 0; let s := eng i { gprs [(1, 1)] with inbox := [⟨1, 2, 3⟩] };
      Issues s 0 i s ∧ s.ipend 0 &&& (s.g 0 1).toNat % 8 ≠ 0) ∧
    (let i := Instr.waitT 0 3 1 0 0; let s := eng i (gprs [(1, 4)]);
      Issues s 0 i s ∧ (s.g 0 1).toNat % 8 ≠ 0 ∧ s.ipend 0 &&& (s.g 0 1).toNat % 8 = 0) ∧
    (let i := Instr.yieldT 0 0 0 0 0; let s := eng i Thread.reset;
      Issues s 0 i s) ∧
    (let i := Instr.halt 0 0 0 0 0; let s := eng i Thread.reset;
      Issues s 0 i s ∧ (s.thr 0).priv = true) :=
  ⟨⟨issues_of (by decide +kernel), by decide +kernel⟩,
    ⟨issues_of (by decide +kernel), by decide +kernel⟩,
    ⟨issues_of (by decide +kernel), by decide +kernel⟩,
    ⟨issues_of (by decide +kernel), by decide +kernel⟩,
    ⟨issues_of (by decide +kernel), by decide +kernel⟩,
    ⟨issues_of (by decide +kernel), by decide +kernel⟩,
    ⟨issues_of (by decide +kernel), by decide +kernel⟩,
    ⟨issues_of (by decide +kernel), by decide +kernel⟩,
    ⟨issues_of (by decide +kernel), by decide +kernel⟩,
    ⟨issues_of (by decide +kernel), by decide +kernel⟩,
    ⟨issues_of (by decide +kernel), by decide +kernel⟩,
    ⟨issues_of (by decide +kernel), by decide +kernel⟩,
    issues_of (by decide +kernel),
    ⟨issues_of (by decide +kernel), by decide +kernel⟩⟩


theorem witness_TaskLevelNeverReachesRegisterSpace :
    (let i := Instr.ld32u 0 3 1 0; let s := task i [(1, 0x020000040000)];
      Fetches s 0 i s ∧ (s.thr 0).status.getLsbD 2 = false ∧ (s.thr 0).priv = false ∧ (s.resolve (s.g 0 1 + (0 : W16).signExtend 64)).isReg = true) ∧
    (let i := Instr.st8 0 3 1 0; let s := task i [(1, 0x020000040000)];
      Fetches s 0 i s ∧ (s.thr 0).priv = false ∧ (s.resolve (s.g 0 1 + (0 : W16).signExtend 64)).isReg = true) ∧
    (let i := Instr.halt 0 0 0 0 0; let s := task i [];
      Fetches s 0 i s ∧ (s.thr 0).priv = false) ∧
    (let i := Instr.mbrecv 0 4 1 0 0; let s := task i [(1, 1)];
      Fetches s 0 i s ∧ (s.thr 0).priv = false ∧ s.g 0 1 = 1) ∧
    (let i := Instr.ld16u 0 3 1 0; let s := eng i (gprs [(1, 0x010000000001)]); let ea := s.g 0 1 + (0 : W16).signExtend 64;
      Fetches s 0 i s ∧ (s.thr 0).status.getLsbD 2 = false ∧ (s.thr 0).priv = true ∧ inRegRegion ea = false ∧ ea.toNat % 2 ≠ 0) ∧
    (let i := Instr.st32 0 3 1 0; let s := eng i (gprs [(1, 0x010000300000)]); let ea := s.g 0 1 + (0 : W16).signExtend 64;
      Fetches s 0 i s ∧ (s.thr 0).priv = true ∧ s.resolve ea = .hole ∧ ea.toNat % 8 = 0) ∧
    (let i := Instr.alu 0 3 1 2 0x7FF; let s := eng i (gprs []);
      Fetches s 0 i s ∧ aluResult (s.thr 0) 0x7FF (s.g 0 1) (s.g 0 2) = none) ∧
    (let s := engW 0x0F000000 Thread.reset;
      FetchesWord s 0 0x0F000000 s ∧ decodeWord 0 0x0F000000 = none) ∧
    (let w := wordI 0x05 3 1 5;
      let s := engW w Thread.reset;
      FetchesWord s 0 w s ∧ decodeWord 0 w = some (.andi 0 3 1 5) ∧ w ≠ wordI 0x04 3 1 5) ∧
    (let s := { engW 0 Thread.reset with ic := [], mem := { Mem.reset with sramSyn := [(0, 0xFFFF)] } };
      s.canRun 0 = true ∧ (s.stepTaken 0).fetchExc (s.thr 0).pc = none ∧ ((s.stepTaken 0).fetch 0 (s.thr 0).pc).1 = none ∧ (s.stepTaken 0).irqNow 0 = false) :=
  ⟨⟨fetches_of (by decide +kernel), by decide +kernel⟩,
    ⟨fetches_of (by decide +kernel), by decide +kernel⟩,
    ⟨fetches_of (by decide +kernel), by decide +kernel⟩,
    ⟨fetches_of (by decide +kernel), by decide +kernel⟩,
    ⟨fetches_of (by decide +kernel), by decide +kernel⟩,
    ⟨fetches_of (by decide +kernel), by decide +kernel⟩,
    ⟨fetches_of (by decide +kernel), by decide +kernel⟩,
    ⟨⟨by decide +kernel, by decide +kernel, rfl⟩, by decide +kernel⟩,
    ⟨⟨by decide +kernel, by decide +kernel, rfl⟩, by decide +kernel⟩,
    by decide +kernel⟩


/-- A microword that ends, adds A and B, and writes rd. -/
def addWord : W128 := BitVec.ofNat 128 (0x0A * 2 ^ 120 + 1 * 2 ^ 89 + 2 * 2 ^ 84 + 1 * 2 ^ 79)

theorem witness_CustomInstructionsAndWakesComplete :
    (let i := Instr.cust 0 3 1 2 0 0 []; let s := { eng i (gprs [(1, 5), (2, 6)]) with ucs := { Ucs.reset with cust := [(1023, addWord)], entries := [(0, 1023, true)] } };
      Issues s 0 i s ∧ smFind s.ucs.entries 0 = some (1023, true) ∧ (s.thr 0).wait = .none ∧
      (s.thr 0).halting = false ∧ s.ucs.rep = [] ∧ custBase + 1023 < custEnd ∧ s.storeWord (custBase + 1023) = some addWord ∧ microOpen addWord = true ∧
      mwSeq addWord = 0x0A ∧ mwMem addWord = 0 ∧ mwUnit addWord = 0 ∧ mwPwr addWord = 0 ∧ mwFlg addWord = false ∧ mwAsel addWord = 1 ∧
      mwBsel addWord = 2 ∧ mwDsel addWord = 1 ∧ (aluFn (mwAlu addWord) (s.g 0 1) (s.g 0 2)).isSome = true ∧ mwAlu addWord < 0x38) ∧
    ((let s := engW 0 { Thread.reset with inbox := [⟨1, 2, 3⟩], wait := .event 1 2 };
      s.runBit 0 = true ∧ s.pwr.st < 2 ∧ (s.thr 0).wait = .event 1 2 ∧ s.ipend 0 &&& 1 ≠ 0 ∧ (s.thr 0).dbg = false ∧ (s.thr 0).step = false) ∧
    (let s := engW 0 { Thread.reset with wait := .fence true false };
      (s.thr 0).wait = .fence true false ∧ s.fenceHeld 0 false = false) ∧
    (let s := engW 0 { Thread.reset with wait := .fence false false };
      (s.thr 0).wait = .fence false false ∧ s.fenceBusy 0 = false)) :=
  ⟨⟨issues_of (by decide +kernel), by decide +kernel⟩,
    by decide +kernel⟩


theorem witness_RegisterWritesFollowTheAccessTypes :
    (let s := State.reset; let u := s.servedFor .debug;
      s.mayReg .debug Reg.CSC_TMO = true ∧ Reg.CSC_TMO % 4 = 0 ∧ u.heldInReset Reg.CSC_TMO = false ∧ isPairLo Reg.CSC_TMO = false ∧
      isPairHi Reg.CSC_TMO = false ∧ u.wrSpecial .debug Reg.CSC_TMO 5 = none ∧
      (regRow? Reg.CSC_TMO).any (fun r => r.rw.testBit 0 && !r.w1c.testBit 0 && !r.w1s.testBit 0 && !r.cmd.testBit 0 && !(u.lockedBits Reg.CSC_TMO r).getLsbD 0) = true) ∧
    (let s := State.reset; let u := s.servedFor (.remote 0);
      (withRegs [(Reg.CSC_INCTRL, 2)] s).mayReg (.remote 0) Reg.CSC_STATUS = true ∧ u.heldInReset Reg.CSC_STATUS = false ∧ isPairLo Reg.CSC_STATUS = false ∧ isPairHi Reg.CSC_STATUS = false ∧
      u.wrSpecial (.remote 0) Reg.CSC_STATUS 5 = none ∧ (regRow? Reg.CSC_STATUS).any (fun r => r.w1c.testBit 0 && !r.rw.testBit 0 && !r.hwc.testBit 0) = true ∧
      (regRow? Reg.CSC_STATUS).any (fun r => !r.rw.testBit 31 && !r.w1c.testBit 31 && !r.w1s.testBit 31 && !r.cmd.testBit 31 && !r.hwc.testBit 31) = true) ∧
    (let s := State.reset;
      regRow? 0x1FFFC = none ∧ s.wrSpecial .debug 0x1FFFC 5 = none ∧ s.heldInReset 0x1FFFC = false ∧ isPairLo 0x1FFFC = false ∧ isPairHi 0x1FFFC = false) ∧
    (let s := task (.isync 0 0 0 0 0) [];
      s.mayReg (.thread 0) Reg.CSC_TMO = false) :=
  by decide +kernel


theorem witness_ReadsClearOnlyWhatTheyReturn :
    (let s := State.reset; let u := s.servedFor .debug;
      s.mayReg .debug Reg.CSC_RLY_CNT = true ∧ u.heldInReset Reg.CSC_RLY_CNT = false ∧ isPairLo Reg.CSC_RLY_CNT = false ∧ isPairHi Reg.CSC_RLY_CNT = false ∧
      isElogReg Reg.CSC_RLY_CNT = false ∧ (regRow? Reg.CSC_RLY_CNT).any (fun r => r.rc.testBit 31) = true) ∧
    (let s := State.reset;
      s.mayReg .debug 0x1FFFC = true ∧ isElogReg 0x1FFFC = false ∧ regRow? 0x1FFFC = none) ∧
    (let s := withRegs [(Reg.MEM_ELOG_SEL, 0x6F)] State.reset;
      s.mayReg .debug Reg.MEM_ELOG_CNT = true ∧ elogIdOk (s.fld Reg.MEM_ELOG_SEL 0 7) = true ∧ s.fld Reg.MEM_ELOG_SEL 0 7 = 0x6F) :=
  by decide +kernel


theorem witness_PairHalvesStayTogether :
    (let s := State.reset;
      s.mayReg .debug (Reg.CSC_ROSTER_LO 3) = true ∧ Reg.CSC_ROSTER_LO 3 % 4 = 0 ∧ s.heldInReset (Reg.CSC_ROSTER_LO 3) = false ∧ isPairLo (Reg.CSC_ROSTER_LO 3) = true ∧
      isPairHi (Reg.CSC_ROSTER_LO 3) = false) ∧
    (let s := { State.reset with pairHold := [(192, Reg.CSC_ROSTER_LO 3, 7)] };
      s.mayReg .debug (Reg.CSC_ROSTER_LO 3 + 4) = true ∧ isPairHi (Reg.CSC_ROSTER_LO 3 + 4) = true ∧ isPairLo (Reg.CSC_ROSTER_LO 3 + 4) = false ∧
      smFind s.pairHold (agentIx .debug) = some (Reg.CSC_ROSTER_LO 3 + 4 - 4, 7) ∧ smFind State.reset.pairHold (agentIx .debug) = none) ∧
    ((regRow? (Reg.CSC_ROSTER_LO 3)).isSome = true ∧ (regRow? (Reg.CSC_ROSTER_LO 3 + 4)).isSome = true ∧ Reg.CSC_ROSTER_LO 3 ≠ Reg.EMB_RTC_LO ∧
      Reg.CSC_ROSTER_LO 3 ≠ Reg.OBJ_RCLOCK_LO ∧ (Reg.CSC_ROSTER_LO 3 + 4) / 0x10000 ≠ 3) :=
  by decide +kernel


theorem witness_ThreadsStartAndHaltByTheirRunBits :
    (let s := engW 0 Thread.reset;
      s.mayReg .debug (Reg.SYS_CAMP_RUN 0) = true ∧ s.ucs.load = none ∧ s.pwr.rst = none ∧ s.pwr.trip = false ∧ s.runBit 0 = true ∧ s.runBit 31 = false ∧ (s.thr 0).wait = .none) ∧
    (let s := engW 0 { Thread.reset with wait := .casc 3 4 8 false };
      s.runBit 0 = true ∧ (s.thr 0).wait = .casc 3 4 8 false) ∧
    (let s := { engW 0 { Thread.reset with tmr := 1 } with now := 0 };
      (s.thr 0).tmr ≠ 0 ∧ s.timeBase ≤ s.now ∧ s.now - s.timeBase < (s.thr 0).tmr.toNat) :=
  by decide +kernel


theorem witness_BlockEventsSendOneMessage :
    (let s := { withRegs [(Reg.CSC_STATUS, 1), (Reg.CSC_ENABLE, 1), (Reg.EVT_ROUTE 1, 0x21)] State.reset with evSeen := ⟨[4], [(4, 1)]⟩ };
      s.EventInv ∧ s.routeMask 4 = 0x21 ∧ s.evSeen.dueOf (4 : Block) ≠ 0 ∧ s.heldMsgs = [] ∧
      (s.routeMask 4).testBit ((smGet (fun _ => 5) s.rot 4 + 1 + 0) % 6) = true ∧ (s.queue 0).length < 64) ∧
    (let s := { withRegs [(Reg.CSC_STATUS, 1), (Reg.CSC_ENABLE, 1), (Reg.EVT_ROUTE 1, 0x20)] State.reset with campQ := [(5, List.replicate 64 ⟨0, 0, 1⟩)], evSeen := ⟨[4], [(4, 2)]⟩ };
      s.EventInv ∧ s.evSeen.dueOf (4 : Block) ≠ 0 ∧ s.routeMask 4 ≠ 0 ∧ ∀ c, c < 6 → (s.routeMask 4).testBit c = true → 64 ≤ (s.queue c).length) ∧
    ((let s := withRegs [(Reg.CSC_STATUS, 1), (Reg.CSC_ENABLE, 1), (Reg.EVT_ROUTE 1, 0)] State.reset;
      s.routeMask (4 : Block) = 0 ∧ s.evSeen.dueOf (4 : Block) = 0 ∧ s.raised 4 = true ∧ 4 ∉ s.evSeen.seen) ∧
    (let s := { State.reset with heldMsgs := [⟨0x20, 4, ⟨0, 0, 0x104⟩⟩, ⟨1, 7, ⟨0, 0, 0x107⟩⟩] };
      s.heldMsgs[1]? = some ⟨1, 7, ⟨0, 0, 0x107⟩⟩ ∧
      (∀ x ∈ s.heldMsgs.take 1, x.block ≠ 7) ∧ (s.tryPost ⟨1, 7, ⟨0, 0, 0x107⟩⟩).isSome = true) ∧
    (let s := { State.reset with heldMsgs := [⟨1, 7, ⟨0, 0, 0x107⟩⟩], campQ := [(0, List.replicate 64 ⟨0, 0, 1⟩)] };
      s.heldMsgs[0]? = some ⟨1, 7, ⟨0, 0, 0x107⟩⟩ ∧
      ∀ c, c < 6 → (1 : Nat).testBit c = true → 64 ≤ (s.queue c).length)) :=
  ⟨by unfold State.EventInv; decide +kernel,
    by unfold State.EventInv; decide +kernel,
    by decide +kernel⟩


/-- An image for the customer region with no words and no entries, in SRAM at 0x010000400000. -/
def custImage : List (Nat × W8) :=
  [(0x400000, 0x47), (0x400001, 0x58), (0x400002, 0x55), (0x400003, 0x43), (0x400004, 1), (0x400006, 2), (0x400007, 1)]

/-- Its load runs. -/
def ucsLoading : State :=
  { State.reset with
    ucs := { Ucs.reset with load := some (2, 0x010000400000) }, mem := { Mem.reset with sram := custImage },
    sec := { Sec.reset with ckeyImg := some [] } }

theorem witness_ControlStoreLoadsStartAndEnd :
    (let s := withRegs [(Reg.SYS_CAMP_RUN 5, 0)] (engW 0 Thread.reset);
      s.mayReg (.thread 0) Reg.UCS_LOAD_CTRL = true ∧ s.ucs.load = none ∧ (5 : W32).getLsbD 0 = true ∧ getF 5 1 2 = 2 ∧ s.othersRun (.thread 0) = false ∧ s.othersRun .debug = true ∧
      getF 7 1 2 = 3 ∧ getF 3 1 2 = 1) ∧
    (let s := ucsLoading;
      s.ucs.load = some (2, 0x010000400000) ∧ (s.memRead 0x010000400000 336).2.1 = false ∧ ucsHeadOk 2 (s.memRead 0x010000400000 336).1 = true) ∧
    (let s := ucsLoading; let r := (s.memRead 0x010000400000 336).2.2.memRead 0x010000400000 16972;
      leAt (s.memRead 0x010000400000 336).1 8 2 = 0 ∧ r.2.1 = false ∧ ucsTailOk 2 r.1 0 = true ∧ r.2.2.ucsKeyOk 2 = true ∧
      ucsBadWord 2 r.1 0 = none ∧ ucsBadEntry 2 r.1 0 = none) :=
  by decide +kernel


/-- An event record in local data RAM and its posting port: code 0x20, class 1, two words. -/
def evPort (s : State) : State :=
  { withRegs [(Reg.EVT_CTRL, 1), (Reg.EVT_POST_ADDR_LO 0, 0x100), (Reg.EVT_POST_ADDR_LO 0 + 4, 0x100)] s with
    mem := { Mem.reset with sram := [(0x100, 0x22), (0x101, 0x20)] } }

/-- DRAM is ready. -/
def ready : State := { State.reset with mem := { Mem.reset with ready := true, capMib := 1024, prot := false } }

theorem witness_DramStartsAndCachesFill :
    (let s := ready;
      (0x23 : W32).getLsbD 0 = true ∧ (0x21 : W32).getLsbD 1 = false ∧ (0x03 : W32).getLsbD 5 = s.mem.prot ∧ (0 : W32).getLsbD 0 = false) ∧
    (let s := withRegs [(Reg.MEM_CTRL, 1)] State.reset;
      s.rbit Reg.MEM_CTRL 0 = true) ∧
    (let s := { ready with mem := { ready.mem with miss := [(7, 0x47)] } };
      smFind s.mem.miss 7 = some 0x47 ∧ ∀ h ∈ s.mem.hold, lineBank h.line ≠ 7) ∧
    (let s := { ready with mem := { ready.mem with wb := [⟨0x40, [(0x200, ⟨5, 0⟩), (0x201, ⟨6, 0⟩)]⟩] } };
      s.mem.wb = ⟨0x40, [(0x200, ⟨5, 0⟩), (0x201, ⟨6, 0⟩)]⟩ :: [] ∧
      ([0x200, 0x201] : List Nat).Nodup) :=
  by decide +kernel


theorem witness_WayPairsPowerDownAndUp :
    (let s := withRegs [(Reg.CCH_WAYPWR, 0x8000)] State.reset;
      s.mem.wayJob = none ∧ (0x80 : W32).getLsbD 7 = s.rbit Reg.CCH_WAYPWR 15 ∧
      ∀ q, 1 ≤ q → q < 8 → (0x80 : W32).getLsbD q = s.rbit Reg.CCH_WAYPWR (8 + q)) ∧
    (let s := State.reset;
      s.mem.wayJob = none ∧ (0x80 : W32).getLsbD 7 ≠ s.rbit Reg.CCH_WAYPWR 15 ∧ ∀ q, 1 ≤ q → q < 7 → (0x80 : W32).getLsbD q = s.rbit Reg.CCH_WAYPWR (8 + q)) ∧
    (let s := { withRegs [(Reg.CCH_WAYPWR, 0x10080)] ready with mem := { ready.mem with wayJob := some (7, true), lines := [(0x40, ⟨14, false⟩)] } };
      s.mem.wayJob = some (7, true) ∧ s.rbit Reg.CCH_WAYPWR 7 = true ∧ smRising s.mem.lines = true ∧
      ∀ q, 1 ≤ q → q < 8 → q ≠ 7 → s.rbit Reg.CCH_WAYPWR q = s.rbit Reg.CCH_WAYPWR (8 + q)) ∧
    (let s := { withRegs [(Reg.CCH_WAYPWR, 0x10200)] ready with mem := { ready.mem with wayJob := some (1, false) } };
      s.mem.wayJob = some (1, false) ∧ s.rbit Reg.CCH_WAYPWR 1 = false ∧ ∀ q, 1 ≤ q → q < 8 → q ≠ 1 → s.rbit Reg.CCH_WAYPWR q = s.rbit Reg.CCH_WAYPWR (8 + q)) :=
  by decide +kernel


theorem witness_SweepRewritesWhatItCorrects :
    (let s := withRegs [(Reg.MEM_SWP_CTRL, 0)] State.reset;
      s.rbit Reg.MEM_SWP_CTRL 0 = false) ∧
    (let s := withRegs [(Reg.MEM_SWP_CTRL, 1)] State.reset;
      s.rbit Reg.MEM_SWP_CTRL 0 = true ∧ s.pwr.st < 3 ∧ (0x2F : BitVec 7).toNat < 0x30 ∧ (0xFFF : W32).toNat < 0x1000 ∧ s.mem.ready = false ∧
      diagnose ((s.sramWord (0x2F * 0x2000 + 0xFFF)).upset 0).syn = .good ∧ diagnose ((s.sramWord (0x2F * 0x2000 + 0xFFF)).upset 1).syn = .corrected 0 ∧
      diagnose ((s.sramWord (0x2F * 0x2000 + 0xFFF)).upset 3).syn = .multiple) :=
  by decide +kernel


theorem witness_TrailLogPostsAndPatrol :
    ((let s := State.reset;
      s.mayReg (.thread 0) (Reg.EVT_POST_ADDR_LO 0 + 4) = true ∧ smFind s.pairPend 0 = none ∧ (withRegs [(Reg.EVT_CTRL, 0)] s).rbit Reg.EVT_CTRL 0 = false) ∧
    (let s := evPort State.reset; let port := Reg.EVT_POST_ADDR_LO 0; let s1 := (s.setReg port (s.reg port &&& 0xFFFFFFF8)).setReg (port + 4) ((0x100 : W32) &&& 0xFFFF);
      s.rbit Reg.EVT_CTRL 0 = true ∧ s1.postAddr 0 = 0x010000000100 ∧ (s1.memRead (s1.postAddr 0) 8).2.1 = false ∧ leAt (s1.memRead (s1.postAddr 0) 8).1 0 1 % 32 = 2 ∧
      0x20 ≤ leAt (s1.memRead (s1.postAddr 0) 8).1 1 1 ∧ ((s1.memRead (s1.postAddr 0) 8).2.2.memRead (s1.postAddr 0 + 8) 8).2.1 = false) ∧
    (let s := withRegs [(Reg.EVT_WR, 8)] State.reset;
      getF 8 3 16 * 8 = (s.reg Reg.EVT_WR).toNat ∧ getF 0x10 3 16 * 8 ≠ (s.reg Reg.EVT_WR).toNat ∧ getF 0x10 3 16 * 8 ∉ s.records) ∧
    (let s := withRegs [(Reg.PTL_CTRL, 1), (Reg.PTL_MASK, 0x200)] State.reset;
      s.rbit Reg.PTL_CTRL 0 = true ∧ s.ptl.item = none ∧ s.pwr.st < 2 ∧ s.ptl.next ≤ 9 ∧ s.rbit Reg.PTL_MASK 9 = true ∧
      (∀ k, k < 9 → s.rbit Reg.PTL_MASK k = false) ∧ s.ptlIdle 9 = true) ∧
    (let s := { withRegs [(Reg.PTL_MASK, 0x200)] State.reset with ptl := { Ptl.reset with item := some 8 } };
      s.ptl.item = some 8 ∧ s.rbit Reg.PTL_MASK 9 = true) ∧
    (let s := { withRegs [(Reg.PTL_MASK, 0x200)] State.reset with ptl := { Ptl.reset with item := some 6 } };
      s.ptl.item = some 6 ∧ s.ucs.rep = [])) ∧
    ((let s := State.reset;
      (0xC0000005 : W32).getLsbD 31 = true ∧ s.rbit (Reg.MCA_PSI_CTRL 1) 31 = false ∧ (withRegs [(Reg.MCA_PSI_CTRL 1, 0x80000000)] s).rbit (Reg.MCA_PSI_CTRL 1) 31 = true) ∧
    (let s := { State.reset with med1 := { Med.reset with psi := [⟨true, 5, 0, false, false⟩, ⟨false, 6, 1, true, false⟩] } };
      (s.med 1).psi = ⟨true, 5, 0, false, false⟩ :: [⟨false, 6, 1, true, false⟩]) ∧
    (let s := State.reset;
      s.pwr.st < 3 ∧ 2 ≤ (15 : BitVec 4).toNat)) :=
  ⟨by decide +kernel,
    by decide +kernel⟩


/-- A descriptor of R404: source, destination, length, flags, next. -/
def dmaDesc (src dst len flags next : Nat) : List W8 :=
  leBytes 8 src ++ leBytes 8 dst ++ leBytes 4 len ++ leBytes 4 flags ++ leBytes 8 next ++ List.replicate 32 0

/-- Channel 31 runs this descriptor with this progress; its current descriptor is in SRAM. -/
def dmaRun (x : DmaCh) (s : State) : State :=
  { withRegs [(Reg.DMA_CH_STATE 31, 1), (Reg.DMA_CH_CUR_LO 31, 0x400000), (Reg.DMA_CH_CUR_LO 31 + 4, 0x100)] s with dch := [(31, x)] }

/-- A write run over sectors 7 and 8 of cylinder 5 with verification; its descriptors and its cairn area are in SRAM. -/
def wrRun : WrRun := ⟨5, 7, 2, 30, 31, 0x010000400000, 0x010000401000, false⟩
def actWr : ActWr :=
  { run := wrRun, mode := 2, band := 0, next := 0, cur := none, htrWait := false, vfy := [], rew := [], revs := 0, abort := false, under := false, cairn := 0, out := [], done := 0 }

theorem witness_DmaChannelsStartParkAndStop :
    (let s := State.reset;
      (0x101 : W32).getLsbD 0 = true ∧ (0x101 : W32).getLsbD 1 = false ∧ (0x101 : W32).getLsbD 2 = false ∧ s.dmaRuns 31 = false) ∧
    (let s := dmaRun DmaCh.reset State.reset;
      s.dmaRuns 31 = true ∧ (2 : W32).getLsbD 0 = false ∧ (2 : W32).getLsbD 1 = true ∧ (2 : W32).getLsbD 2 = false) ∧
    (let s := { withRegs [(Reg.DMA_CH_STATE 31, 3)] (dmaRun DmaCh.reset State.reset) with mem := { Mem.reset with sram := [(0x400018, 0x40)] } }; let s1 := s.setFld (Reg.DMA_CH_CTRL 31) 8 1 (getF (2 : W32) 8 1); let r := s1.memRead (s.reg64 (Reg.DMA_CH_CUR_LO 31) / 64 * 64 + 24) 8;
      s.dmaSt 31 = 3 ∧ r.2.1 = false ∧ ofLe r.1 ≠ 0) ∧
    (let s := withRegs [(Reg.DMA_CH_STATE 31, 3)] (dmaRun DmaCh.reset State.reset); let s1 := s.setFld (Reg.DMA_CH_CTRL 31) 8 1 (getF (2 : W32) 8 1); let r := s1.memRead (s.reg64 (Reg.DMA_CH_CUR_LO 31) / 64 * 64 + 24) 8;
      s.dmaSt 31 = 3 ∧ r.2.1 = false ∧ ofLe r.1 = 0) ∧
    (let s := dmaRun { DmaCh.reset with desc := some (dmaDesc 0 64 64 0 0), finished := true } State.reset;
      (4 : W32).getLsbD 0 = false ∧ (4 : W32).getLsbD 1 = false ∧ (4 : W32).getLsbD 2 = true ∧
      s.dmaRuns 31 = true ∧ (s.dmaCh 31).desc.isSome = true ∧ (s.dmaCh 31).wbDone = false ∧ ((s.dmaCh 31).finished = false ∨ false = false) ∧ State.reset.dmaRuns 0 = false) ∧
    (let s := withRegs [(Reg.DMA_CH_WRPTR 0, 5)] State.reset;
      (s.reg (Reg.DMA_CH_WRPTR 0) - 5).toNat ≤ (s.dmaCh 0).ring ∧ (s.dmaCh 0).ring < (s.reg (Reg.DMA_CH_WRPTR 0) - 4).toNat) :=
  by decide +kernel


theorem witness_DmaDescriptorsMoveAndEnd :
    ((let s := dmaRun DmaCh.reset State.reset; let r := s.memRead (s.reg64 (Reg.DMA_CH_CUR_LO 31) / 64 * 64) 64;
      s.dmaRuns 31 = true ∧ (s.dmaCh 31).desc = none ∧ r.2.1 = false ∧ dAcc r.1 = 0) ∧
    (let s := { dmaRun DmaCh.reset State.reset with mem := { Mem.reset with sramSyn := [(0x80000, 0xFFFF)] } }; let r := s.memRead (s.reg64 (Reg.DMA_CH_CUR_LO 31) / 64 * 64) 64;
      s.dmaRuns 31 = true ∧ (s.dmaCh 31).desc = none ∧ r.2.1 = true) ∧
    (let d := dmaDesc 0x1000 0x2030 100 0 0; let s := dmaRun { DmaCh.reset with desc := some d, obuf := [(7, false)] } ready;
      s.dmaRuns 31 = true ∧ (s.dmaCh 31).desc = some d ∧ (s.dmaCh 31).phase = .idle ∧ (s.dmaCh 31).outW = 0 ∧ s.dmaTurn = some 31 ∧
      (s.dmaCh 31).finished = false ∧ dStream d = false ∧ dIndexed d = false ∧ dRing d = 0 ∧ (s.dmaCh 31).obuf ≠ [] ∧ s.dmaPlace (dDst d + (s.dmaCh 31).wrPos) = .dram 0x2030) ∧
    (let d := dmaDesc 0x1000 0x2030 100 0 0; let s := dmaRun { DmaCh.reset with desc := some d } ready;
      s.dmaRuns 31 = true ∧ (s.dmaCh 31).desc = some d ∧ (s.dmaCh 31).phase = .idle ∧ s.dmaTurn = some 31 ∧ (s.dmaCh 31).finished = false ∧
      (s.dmaCh 31).obuf = [] ∧ (s.dmaCh 31).acc = [] ∧ (s.dmaCh 31).buf = [] ∧ (s.dmaCh 31).rdPos = (s.dmaCh 31).wrPos ∧ s.dmaPlace (dSrc d + (s.dmaCh 31).rdPos) = .dram 0x1000) ∧
    (let d := dmaDesc 0x1000 0x2030 100 1 0x40; let s := dmaRun { DmaCh.reset with desc := some d, finished := true } ready;
      s.dmaRuns 31 = true ∧ (s.dmaCh 31).desc = some d ∧ (s.dmaCh 31).finished = true ∧ (s.dmaCh 31).phase = .idle ∧ (s.dmaCh 31).outW = 0 ∧
      (s.dmaCh 31).wbDone = false ∧ (s.dmaCh 31).acc = [] ∧ dMsg d = false ∧ (s.dmaCh 31).aborted = false ∧ (s.dmaCh 31).stopIdle = false ∧ (s.dmaCh 31).kick = false ∧ dStop d = false ∧
      dIndexed d = false ∧ dIrq d = true ∧ dNext d ≠ 0)) ∧
    (let d := dmaDesc 0x1000 6 4096 0x20 0; let a := actWr; let s := { dmaRun { DmaCh.reset with desc := some d } ready with med1 := { Med.reset with wr := some a } };
      (s.med 1).wr = some a ∧ a.run.start ≠ 0 ∧ a.run.dataCh = 31 ∧
      s.portCurrent 31 (2 + 4 * 1) false = true ∧ smFind (s.med 1).staged 1 = none ∧ (s.dmaCh 31).idxReq = none ∧ 1 < a.run.count ∧ dLen ((s.dmaCh 31).desc.getD []) ≤ 4096 * 1) :=
  ⟨by decide +kernel,
    by decide +kernel⟩


/-- A read run over sectors 7 and 8 of cylinder 5. -/
def rdRun : RdRun := ⟨5, 7, 2, 30, 31, 0, false⟩
/-- The run active, with no sector seen. -/
def actRd : ActRd := ⟨rdRun, 0, false, false, [], [], [], 0⟩
/-- Sector `idx` of the run, its samples in slot 15. -/
def sect (idx : Nat) : Sect :=
  { idx := idx, slot := 15, smp := [], inBuf := true, pinned := true, f1 := true, f2 := true, conflict := false, d1 := 0, d2 := 0, start := 184, syncBad := false,
    ranges := [], ta := false, drop := false, noPin := false, offTrack := false, iter := 0, entry := 0, revs := 0, revsLeft := 0, slip := 0, erased := 0,
    unsat1 := 0, mse := 0, decoded := false, reason := 0, reread := false }
/-- Channel 1 with these registers and this content. -/
def chan (l : List (Nat × W32)) (x : Med) : State := { withRegs l State.reset with med1 := x }

theorem witness_MediaZonesAndReadRunsStart :
    ((let s := chan [(Reg.MCA_ZONE_SEL 1, 0x1705)] { Med.reset with zonePend := true };
      (s.med 1).zonePend = true ∧ (s.med 1).idle = true ∧ s.rbit (Reg.MCA_ZONE_STAT 1) 30 = false ∧
      getF (s.reg (Reg.MCA_ZONE_SEL 1)) 8 5 ≠ s.zHead 1 ∧ State.reset.zHead 1 = 0) ∧
    (let s := chan [(Reg.MCA_ZONE_STAT 1, 0x40000000)] { Med.reset with zoneNew := [0, 0, 0x20, 0, 1] }; let x := s.med 1;
      s.rbit (Reg.MCA_ZONE_STAT 1) 30 = true ∧ zoneFault (s.zHead 1) x.zoneNew x.zoneBad = 0) ∧
    (let s := chan [(Reg.MCA_ZONE_STAT 1, 0x40001800)] { Med.reset with zoneNew := [0, 0, 0x20, 0, 1] }; let x := s.med 1;
      s.rbit (Reg.MCA_ZONE_STAT 1) 30 = true ∧ zoneFault (s.zHead 1) x.zoneNew x.zoneBad = 1) ∧
    (let s := chan [] { Med.reset with rdPend := some rdRun };
      (1 : W32).getLsbD 0 = true ∧ (1 : W32).getLsbD 2 = false ∧ (s.med 1).rdPend ≠ none ∧ (s.med 0).rdPend = none) ∧
    (let s := chan [(Reg.MCA_CTRL 1, 1), (Reg.MCA_ZONE_STAT 1, 0x80000000)] { Med.reset with rdPend := some rdRun };
      (s.med 1).rdPend = some rdRun ∧ (s.med 1).idle = true ∧ s.medReady 1 = true ∧ (s.med 1).zonePend = false ∧
      ((s.med 1).wrPend = none ∨ (s.med 1).wrFirst = false) ∧ s.rbit (Reg.MCA_RD_CTRL 1) 0 = false ∧ (s.med 1).readAt ≤ s.now) ∧
    (let s := chan [(Reg.MCA_RD_CTRL 1, 1)] Med.reset;
      (s.med 0).rd = none ∧ s.rbit (Reg.MCA_RD_CTRL 0) 0 = false ∧ (s.med 1).rd = none ∧ s.rbit (Reg.MCA_RD_CTRL 1) 0 = true)) ∧
    (let a := { actRd with fly := [sect 1], lad := [sect 0], next := 2 }; let s := chan [] { Med.reset with rd := some a };
      (4 : W32).getLsbD 0 = false ∧ (4 : W32).getLsbD 2 = true ∧
      (s.med 1).rd = some a ∧ a.fly ≠ [] ∧ (∀ x ∈ a.lad, x.slot < 16) ∧ a.out.length + a.lad.length ≤ 4 ∧ s.rbit (Reg.MCA_RD_CTRL 1) 0 = false ∧
      (s.med 1).rd.map (fun a => a.lad.any fun x => x.pinned && x.slot == 15) = some true) :=
  ⟨by decide +kernel,
    by decide +kernel⟩


/-- A blank signal. -/
def blank : List Int := List.replicate 36808 0
theorem signalWf_blank : signalWf blank = true := by rw [signalWf, blank, List.length_replicate]; rfl
/-- A delivery channel: channel 30 carries the records of read or write runs of channel 1 to DRAM. -/
def deliver (s : State) : State :=
  { withRegs [(Reg.DMA_CH_STATE 30, 1)] s with
    dch := [(30, { DmaCh.reset with desc := some (dmaDesc 5 0x1000 0x8000 0x10 0) })], mem := ready.mem }

/-! What a decode gives is the outcome of the whole channel on 36,808 samples, from loops that are free functions (R101, log
entry 51); the clauses on it are met or not as these give, and the witness shows what they add. -/

theorem witness_SectorsAreCapturedDecodedAndDelivered :
    (captureWf ⟨blank, blank, blank⟩ = true) ∧
    ((let s := chan [(Reg.MCA_CTRL 1, 1)] { Med.reset with rd := some actRd };
      (s.med 1).rd = some actRd ∧ actRd.abort = false ∧ actRd.overrun = false ∧ actRd.next < actRd.run.count ∧
      s.rbit (Reg.MCA_CTRL 1) 0 = true ∧ actRd.out.length < 4 ∧ (withRegs [(Reg.MCA_RDR_MASK 1 0, 0)] s).noReaders 1 = true) ∧
    (let s := chan [(Reg.MCA_CTRL 1, 1), (Reg.MCA_RDR_MASK 1 0, 7)] { Med.reset with rd := some actRd };
      (s.med 1).rd = some actRd ∧ s.rbit (Reg.MCA_CTRL 1) 0 = true ∧ s.noReaders 1 = false ∧ s.rbit (Reg.MCA_CTRL 1) 7 = false ∧
      s.slotOf 1 5 (s.zHead 1) 7 = none) ∧
    (let a := { actRd with out := List.replicate 4 ⟨0, 0, [], none⟩, next := 1 }; let s := chan [(Reg.MCA_CTRL 1, 1)] { Med.reset with rd := some a };
      (s.med 1).rd = some a ∧ a.next < a.run.count ∧ 4 ≤ a.out.length ∧ a.overrun = false) ∧
    (let a := { actRd with fly := [{ sect 0 with inBuf := false }] }; let s := chan [] { Med.reset with rd := some a };
      (s.med 1).rd = some a ∧ (a.fly.filter (·.inBuf)).length < 4 ∧ a.fly.find? (fun y => !y.inBuf) = some { sect 0 with inBuf := false }) ∧
    (let a := { actRd with fly := [sect 1], lad := [sect 0], next := 2 }; let s := chan [] { Med.reset with rd := some a };
      (s.med 1).rd = some a ∧ a.fly = sect 1 :: [] ∧ (sect 1).inBuf = true ∧ a.out.length < 4 ∧ (sect 1).slot < 16 ∧ a.abort = false ∧
      a.lad ≠ []) ∧
    (let a := { actRd with lad := [sect 0], next := 1 }; let s := chan [(Reg.MCA_LADDER 1 0, 0x01000000), (Reg.MCA_LADDER 1 1, 0x02000000)] { Med.reset with rd := some a };
      (s.med 1).rd = some a ∧ a.lad = [sect 0] ∧ a.out.length < 4 ∧ (sect 0).slot < 16 ∧
      ((s.ladMode 1 (sect 0).entry ≠ 4 ∧ s.ladMode 1 (sect 0).entry ≠ 5) ∨ (sect 0).revsLeft = 0) ∧
      a.abort = false ∧ (sect 0).entry < 7 ∧ (sect 0).pinned = true ∧ s.ladMode 1 1 = 2)) ∧
    ((let x := { sect 0 with revsLeft := 4 }; let a := { actRd with lad := [x, sect 1], next := 2 }; let s := chan [(Reg.MCA_LADDER 1 0, 0x05000000)] { Med.reset with rd := some a };
      (s.med 1).rd = some a ∧ a.lad = x :: [sect 1] ∧ x.revsLeft ≠ 0 ∧ x.pinned = true ∧
      x.slot < 16 ∧ s.ladMode 1 x.entry = 5 ∧ s.rbit (Reg.MCA_CTRL 1) 7 = false) ∧
    (let a := { actRd with out := [⟨0, 0, [1, 2], none⟩, ⟨1, 0, [3], none⟩], next := 2 }; let s := deliver (chan [] { Med.reset with rd := some a }); let r := s.streamPut 30 5 [1, 2];
      (s.med 1).rd = some a ∧ a.lad = [] ∧ a.run.recCh = 30 ∧ r.1 = true ∧ r.2.med 1 = s.med 1)) :=
  ⟨by simp only [captureWf, signalWf_blank, Bool.and_true],
    by decide +kernel,
    by decide +kernel⟩


/-- Slot `i` of the run. -/
def wslot (i : Nat) : WSlot :=
  { idx := i, tag := tagOf [], digest := [], noCairn := true, crc := 0, writes := 1, unsafeSeen := false, viter := 0, vmse := 0, vunsat := 0, flags := 0 }
/-- Channel 1 writes; DRAM is ready. -/
def wchan (l : List (Nat × W32)) (x : Med) : State := { chan (l ++ [(Reg.GYL_ACT_QUAL 1, 0), (Reg.MCA_CTRL 1, 1)]) x with mem := ready.mem }

theorem witness_WriteRunsWriteVerifyAndRewrite :
    ((let s := wchan [] { Med.reset with wrPend := some wrRun, wrFirst := true };
      (s.med 0).wrPend = none ∧ (s.med 1).wrPend = some wrRun ∧ (s.med 1).idle = true ∧ (s.med 1).zonePend = false ∧ (s.med 1).wrFirst = true ∧
      (withRegs [(Reg.MCA_ZONE_STAT 1, 0x80000000)] s).medReady 1 = true ∧ s.rbit (Reg.MCA_WR_CTRL 1) 0 = false) ∧
    (let a := { actWr with next := 1 }; let s := wchan [] { Med.reset with wr := some a, staged := [(1, some [1])], gate := true }; let r := s.memRead (a.run.desc / 64 * 64 + 64 * a.next) 64;
      risingWf [0, 5] = true ∧ (s.med 1).wr = some a ∧ a.cur = none ∧ a.passed = false ∧
      s.gateFree 1 a = true ∧ smFind (s.med 1).staged a.next = some (some [1]) ∧ r.2.1 = false ∧ (leAt r.1 40 1).testBit 0 = false ∧ r.2.2.wUnsafe 1 = false ∧ r.2.2.rbit (Reg.MCA_CTRL 1) 0 = true ∧
      r.2.2.rbit Reg.SYS_ROLE 4 = false) ∧
    (let a := { actWr with next := 1, cur := some (wslot 0), htrWait := true }; let s := wchan [] { Med.reset with wr := some a, gate := true, zone := List.replicate 512 1 };
      (s.med 1).wr = some a ∧ a.passed = false ∧ a.mode ≠ 0 ∧
      s.zoneF 1 386 2 ≠ 0 ∧ s.gateFree 1 a = false ∧ s.rbit Reg.SYS_ROLE 4 = false) ∧
    (let a := { actWr with next := 1, vfy := [wslot 0] }; let s := wchan [] { Med.reset with wr := some a, gate := true };
      (s.med 1).wr = some a ∧ a.cur = none ∧ a.passed = false ∧ smFind (s.med 1).staged a.next = none ∧ a.vfy ≠ [] ∧
      (4 : W32).getLsbD 0 = false ∧ (4 : W32).getLsbD 2 = true ∧ (s.med 0).wr = none ∧ s.rbit (Reg.MCA_WR_CTRL 1) 0 = false)) ∧
    (signalWf blank = true) ∧
    ((let a := { actWr with next := 1, vfy := [wslot 0] }; let s := wchan [] { Med.reset with wr := some a };
      (s.med 1).wr = some a ∧ a.vfy = wslot 0 :: [] ∧ (wslot 0).idx ≠ 0xFFFF ∧ (wslot 0).unsafeSeen = false ∧ (wslot 0).noCairn = true ∧
      2 ≤ a.mode ∧ a.abort = false ∧ (wslot 0).writes < 3 ∧ a.rew.length < 64 ∧ 3 ≤ ({ wslot 0 with writes := 3 } : WSlot).writes) ∧
    (let a := { actWr with next := 2, rew := [wslot 1], revs := 1 }; let s := wchan [] { Med.reset with wr := some a, staged := [(1, some [1])] };
      (s.med 1).wr = some a ∧ a.passed = true ∧ a.cur = none ∧ a.vfy = [] ∧ a.rew = [wslot 1] ∧ (wslot 1).idx ≠ 0xFFFF ∧ a.abort = false ∧
      a.revs < 2 ∧ s.gateFree 1 a = true ∧ smFind (s.med 1).staged (wslot 1).idx = some (some [1]) ∧ s.wUnsafe 1 = false ∧ s.rbit (Reg.MCA_CTRL 1) 0 = true ∧ s.rbit Reg.SYS_ROLE 4 = false) ∧
    (let a := { actWr with out := [[1, 2], [3]], next := 2 }; let s := deliver (wchan [] { Med.reset with wr := some a }); let r := s.streamPut 30 5 [1, 2];
      (s.med 1).wr = some a ∧ a.run.recCh = 30 ∧ r.1 = true ∧ r.2.med 1 = s.med 1) ∧
    (let a := { actWr with next := 2, cairn := 1 }; let s := wchan [] { Med.reset with wr := some a }; let r := s.memRead (a.run.cairn / 4096 * 4096) 4096;
      (s.med 1).wr = some a ∧ a.passed = true ∧ a.cur = none ∧ a.vfy = [] ∧ a.rew = [] ∧ a.abort = false ∧
      a.cairn = 1 ∧ s.gateFree 1 a = true ∧ r.2.1 = false ∧ r.2.2.wUnsafe 1 = false ∧ r.2.2.rbit (Reg.MCA_CTRL 1) 0 = true ∧ r.2.2.rbit Reg.SYS_ROLE 4 = false)) :=
  ⟨by decide +kernel,
    signalWf_blank,
    by decide +kernel⟩



/-! ### Servo and spindle -/

/-- Guyline on, contexts 0 to 3 enabled, with these registers, actuator 1's state, context 3's state. -/
def gyl (l : List (Nat × W32)) (x : GAct) (c : GCtx) : State :=
  { withRegs ([(Reg.GYL_CTRL, 1)] ++ (List.range 4).map (fun c => (Reg.GYL_CTX_CTRL c, 1)) ++ l) State.reset with gact1 := x, gctx := [(3, c)] }
/-- Context 3 runs the law at word 16. -/
def lawRun (l : List (Nat × W32)) (c : GCtx) : State :=
  { gyl l GAct.reset c with gylRun := some ⟨3, false, 16, 5, false, 10, [], 0, 0⟩ }

theorem witness_LawWordsComputeAndGoOn :
    (let s := lawRun [(Reg.GYL_LAWST 16, lawEnc 0x01 0x3F 0x98 0x97), (Reg.GYL_LAWST 17, lawEnc 0x1F 0 0 0)] GCtx.reset;
      s.gylRun = some ⟨3, false, 16, 5, false, 10, [], 0, 0⟩ ∧ lawFault (s.lawWord 17) = 0 ∧ s.lawWord 16 = lawEnc 0x01 0x3F 0x98 0x97 ∧
      lawReadable 0x98 = true ∧ lawReadable 0x97 = true ∧ lawWritable 0x3F = true ∧ lawReadable 0x9D = false ∧ lawWritable 0x98 = false) ∧
    (let s := lawRun [(Reg.GYL_LAWST 16, lawEnc 0x0E 0 0xB7 0x9C), (Reg.GYL_LAWST 17, 0)] GCtx.reset;
      lawFault (s.lawWord 17) = 0 ∧ s.lawWord 16 = lawEnc 0x0E 0 0xB7 0x9C ∧ lawReadable 0xB7 = true ∧ lawReadable 0x9C = true) ∧
    (let s := lawRun [(Reg.GYL_LAWST 16, 0), (Reg.GYL_LAWST 17, 0)] GCtx.reset;
      s.lawWord 16 = 0 ∧ lawFault (s.lawWord 17) = 0) ∧
    ((∀ e ∈ lawForms2.map (·.2.1) ++ [0x0C, 0x0D, 0x10, 0x12], (lawRun [(Reg.GYL_LAWST 16, lawEnc e 0x97 0x00 0)] GCtx.reset).lawWord 16 = lawEnc e 0x97 0x00 0 ∧ lawFault (lawEnc e 0x97 0x00 0) = 0)) :=
  by decide +kernel


theorem witness_ContextsRunOutputAndCommit :
    ((let s := { gyl [] GAct.reset GCtx.reset with gylQ := [(0, 3), (0, 5)] };
      s.gylRun = none ∧ s.gylQ = (0, (3 : Ctx).val) :: [(0, 5)] ∧ s.gylOn = true ∧ s.ctxOn 3 = true ∧ (s.gc 3).law ≤ 2047 ∧ lawFault (s.lawWord (s.gc 3).law) = 0) ∧
    (let s := { gyl [(Reg.GYL_CTX_CTRL 5, 1)] GAct.reset GCtx.reset with gylQ := [(0, 5)] };
      s.gylRun = none ∧ s.gylQ = (0, (5 : Ctx).val) :: [] ∧ s.gylOn = true ∧ s.ctxOn 5 = true ∧ 4 ≤ (5 : Ctx).val ∧ (s.gc 5).held = [] ∧
      s.fld (Reg.GYL_CTX_CTRL 5) 10 2 = 0) ∧
    (let s := lawRun [(Reg.GYL_LAWST 16, lawEnc 0x1E 0 0 0)] GCtx.reset;
      s.lawWord 16 = lawEnc 0x1E 0 0 0 ∧ lawFault (s.lawWord 17) = 0) ∧
    (let s := lawRun [(Reg.GYL_LAWST 16, lawEnc 0x1F 0 0 0)] { GCtx.reset with held := [(63, 7), (63, 8)] };
      s.lawWord 16 = lawEnc 0x1F 0 0 0 ∧ (∀ w ∈ (s.gc 3).held, w.1 < 64) ∧ s.gylRun.map (·.ctx) = some (3 : Ctx).val ∧ s.gylRun.map (·.ctx) ≠ some (2 : Ctx).val) ∧
    (let s := gyl [] GAct.reset { GCtx.reset with due := true, frozen := some 0x3F800000 };
      (s.gc 3).due = true ∧ s.gylOn = true ∧ (s.gc 3).frozen = some 0x3F800000) ∧
    (let s := { gyl [(Reg.GYL_CTX_CTRL 4, 0x20001)] GAct.reset GCtx.reset with gctx := [(4, { GCtx.reset with due := true })] };
      (s.gc 4).due = true ∧ s.gylOn = true ∧ 4 ≤ (4 : Ctx).val ∧ (s.gc 4).frozen = none ∧
      (s.gc 4).late + 1 < max 1 (s.fld (Reg.GYL_CTX_CTRL 4) 16 4)) ∧
    (let s := gyl [(Reg.GYL_CTX_COMMIT 5, 1), (Reg.GYL_CTX_STAT 3, 0x40000000)] GAct.reset GCtx.reset;
      s.ctxOn 3 = true ∧ s.ctxOn 5 = false ∧ s.rbit (Reg.GYL_CTX_COMMIT 5) 0 = true ∧ ((3 : Ctx).val ≠ 4 ∨ s.isBase = true) ∧ (0 : W32).getLsbD 0 = false ∧ s.gylRun = none ∧
      (1 : W32).getLsbD 0 = true ∧ s.rbit (Reg.GYL_CTX_STAT 3) 30 = true ∧ s.rbit (Reg.GYL_CTX_STAT 2) 30 = false)) ∧
    (let s := gyl [(Reg.GYL_CTX_CTRL 5, 0x201)] GAct.reset GCtx.reset;
      s.fld (Reg.GYL_CTX_CTRL 5) 8 2 = 2 ∧ s.gylOn = true ∧ s.ctxOn 5 = true ∧ (s.gc 5).due = false ∧ s.rbit (Reg.GYL_CTX_COMMIT 5) 0 = false ∧ s.gylQ = [] ∧ s.gylRun.all (fun r => r.ctx != 5) = true) :=
  ⟨by decide +kernel,
    by decide +kernel⟩


theorem witness_WedgesAndSampleInstants :
    ((let s := gyl [(Reg.GYL_ACT_CTRL 1, 1), (Reg.GYL_ACT_WEDGES 1, 128)] { GAct.reset with wedge := some 127 } GCtx.reset; let w : Wedge := ⟨9, 0, 0x3F800000, 0, 0, 0, 0⟩;
      s.rbit (Reg.GYL_ACT_CTRL 1) 0 = true ∧ s.loading 1 = false ∧ (s.gact 1).wedge.map (fun k => (k + 1) % s.wedges 1) = some w.number.toNat ∧
      s.acquired 1 = false ∧ (s.gact 1).resolve = true ∧ fzero (fadd (fabs (fmul (fsub w.a1 w.a3) fhalf)) (fabs (fmul (fsub w.a2 w.a4) fhalf))) = false) ∧
    (let s := gyl [(Reg.GYL_ACT_CTRL 1, 0x40000001), (Reg.GYL_ACT_QUAL 1, 8)] { GAct.reset with wedge := some 5, missed := 2 } GCtx.reset; let w : Wedge := ⟨9, 7, 0x3F800000, 0, 0, 0, 0⟩;
      s.rbit (Reg.GYL_ACT_CTRL 1) 0 = true ∧ s.loading 1 = false ∧ s.acquired 1 = true ∧
      ¬ ((s.gact 1).wedge = none ∨ (s.gact 1).wedge.map (fun k => (k + 1) % s.wedges 1) = some w.number.toNat) ∧ (s.gact 1).missed + 1 < max 1 (s.fld (Reg.GYL_ACT_CTRL 1) 28 4) ∧ (s.med 1).gate = false) ∧
    (let s := gyl [(Reg.GYL_ACT_CTRL 1, 1)] GAct.reset GCtx.reset;
      s.rbit (Reg.GYL_ACT_CTRL 1) 0 = true ∧ s.acquired 1 = false ∧ (s.med 1).gate = false) ∧
    (let s := withRegs [(Reg.GYL_CTRL, 0)] State.reset;
      (s.med 0).gate = false ∧ s.gylOn = false) ∧
    (let s := gyl [(Reg.GYL_ACT_SEEK 1, 1)] GAct.reset GCtx.reset;
      (s.med 1).gate = false ∧ s.gylOn = true ∧ s.moving 1 = false ∧ (s.gact 1).acqNow = false ∧ s.rbit (Reg.GYL_ACT_SEEK 1) 0 = true ∧ s.gylRun = none)) ∧
    (let s := gyl [(Reg.GYL_ACT_QUAL 1, 8)] { GAct.reset with valid := true } GCtx.reset;
      (s.med 1).gate = false ∧ SampleReady s 1 ∧ s.moving 1 = false ∧ (s.gact 1).acqNow = false ∧ s.fld (Reg.GYL_CTX_CTRL 5) 8 2 ≠ 1) ∧
    ((1 : W32).getLsbD 0 = true ∧ (0 : W32).getLsbD 0 = false) :=
  ⟨by decide +kernel,
    by unfold SampleReady; decide +kernel,
    by decide +kernel⟩


/-- A word of the return channel with its CRC. -/
def retWord (w : Nat) : W32 := BitVec.ofNat 32 (w / 64 * 64 + crc6 (w / 64 * 64))

theorem witness_FramesLoadUnloadAndRetract :
    ((let s := gyl [] { GAct.reset with adi := [(2, 5), (1, 7)], seq := 15 } GCtx.reset;
      (s.gact 1).adi = (2, 5) :: [(1, 7)] ∧ s.gylOn = true) ∧
    (let s := gyl [] { GAct.reset with sent := 2, seq := 1, lastType := 1 } GCtx.reset; let w := retWord 0x4F000040;
      (s.gact 1).sent ≠ 0 ∧ s.gylOn = true ∧ crc6 (w.toNat / 64 * 64) = getF w 0 6 ∧ w.getLsbD 31 = false ∧ s.moving 1 = false ∧
      getF w 24 4 = ((s.gact 1).seq + 14) % 16) ∧
    (let s := gyl [(Reg.GYL_ACT_QUAL 1, 0x20)] { GAct.reset with sent := 2, seq := 1 } GCtx.reset; let w := retWord 0x4F000000;
      (s.gact 1).sent ≠ 0 ∧ s.gylOn = true ∧ crc6 (w.toNat / 64 * 64) = getF w 0 6 ∧ w.getLsbD 31 = false ∧ w.getLsbD 30 = true ∧ s.retracting 1 = false ∧
      s.unloading 1 = true ∧ s.gylRun = none) ∧
    (let s := gyl [] { GAct.reset with sent := 2, bad := 6 } GCtx.reset; let w := retWord 0x4F000000 ^^^ 1;
      (s.gact 1).sent ≠ 0 ∧ s.gylOn = true ∧ crc6 (w.toNat / 64 * 64) ≠ getF w 0 6 ∧ (s.gact 1).bad + 1 < 8) ∧
    (let s := gyl [] GAct.reset GCtx.reset;
      s.moving 1 = false ∧ (0x800 : W32).getLsbD 11 = true ∧ (0x800 : W32).getLsbD 12 = false ∧ (0x800 : W32).getLsbD 13 = false ∧ (0x1000 : W32).getLsbD 12 = true ∧
      (0x1000 : W32).getLsbD 11 = false ∧ (0x1000 : W32).getLsbD 13 = false)) ∧
    (let s := gyl [(Reg.GYL_ACT_QUAL 1, 0x10)] GAct.reset GCtx.reset;
      s.loading 1 = true ∧ s.retracting 1 = false ∧ SampleReady s 1) ∧
    ((let s := gyl [(Reg.GYL_ACT_QUAL 1, 0x20)] GAct.reset GCtx.reset;
      s.gylRun = none ∧ s.gylOn = true ∧ s.unloading 1 = true ∧ (0x2000 : W32).getLsbD 11 = false ∧ (0x2000 : W32).getLsbD 12 = false ∧
      (0x2000 : W32).getLsbD 13 = true ∧ s.retracting 1 = false) ∧
    (let s := gyl [(Reg.GYL_ACT_QUAL 1, 0x40)] GAct.reset GCtx.reset;
      s.retracting 1 = true ∧ s.gylOn = true ∧ s.gylRun = none ∧ s.fld (Reg.GYL_CTX_CTRL (vcm 1)) 10 2 = 0)) :=
  ⟨by decide +kernel,
    by unfold SampleReady; decide +kernel,
    by decide +kernel⟩


/-- The spindle unit of the Basecamp in a state, with these registers. -/
def spin (st : Nat) (l : List (Nat × W32)) (x : Spn) : State :=
  { withRegs ([(Reg.SYS_ROLE, 4), (Reg.SPN_CTRL, 3), (Reg.SPN_STATE, BitVec.ofNat 32 (st * 2 ^ 28))] ++ l) State.reset with spn := x }
/-- Duties of 20, 12.5 and 5 µs. -/
def duty3 : List W32 := [0x469C4000, 0x46435000, 0x459C4000]
/-- Three forward edges in the last 10 ms, a ms apart. -/
def fwdEdges : List Edge := edgesOf [(11000000, true)] [(12000000, true)] [(13000000, true)]
/-- The same backwards. -/
def backEdges : List Edge := edgesOf [(13000000, true)] [(12000000, true)] [(11000000, true)]
/-- Three 4 ms apart. -/
def slowEdges : List Edge := edgesOf [(10000000, true)] [(14000000, true)] [(18000000, true)]

theorem witness_SpindleStatesAndCurrentLoops :
    ((let s := spin 0 [] Spn.reset;
      s.isBase = true ∧ s.rbit Reg.SPN_CTRL 0 = true ∧ s.spn.cut = false ∧ s.spn.genTrig = false ∧ s.pwr.trip = false ∧ s.spSt = 0 ∧ s.spn.req ≠ some (s.fld Reg.SPN_CTRL 1 2 % 3) ∧ s.spn.sync = none) ∧
    (let s := spin 1 [] { Spn.reset with req := some 1, sync := some ((13000000, 2, true), 0, 5000) };
      s.isBase = true ∧ s.rbit Reg.SPN_CTRL 0 = true ∧ s.spn.cut = false ∧ s.spn.genTrig = false ∧ s.pwr.trip = false ∧ s.spSt = 1 ∧
      s.spn.req = some (s.fld Reg.SPN_CTRL 1 2 % 3) ∧ s.spn.sync = some ((13000000, 2, true), 0, 5000)) ∧
    (let s := spin 5 [(Reg.GYL_CTX_CTRL 4, 1), (Reg.SPN_MOTOR, 0x0400)] { Spn.reset with req := some 1, duty := some duty3 }; let u := s.setSpn { s.spn with dutyNow := some duty3 };
      s.isBase = true ∧ s.spSt = 5 ∧ s.rbit Reg.SPN_CTRL 0 = true ∧ s.spn.cut = false ∧ s.spn.genTrig = false ∧
      s.pwr.trip = false ∧ s.spn.req = some (s.fld Reg.SPN_CTRL 1 2 % 3) ∧ s.spn.sync = none ∧ s.chopFaulty = false ∧ s.ctxOn 4 = true ∧ s.spn.lostRun < 63 ∧ s.spn.duty = some duty3 ∧ s.spn.periods + 1 < s.spdDiv ∧ u.measured = true ∧
      (∀ c ∈ List.replicate 4 (100 : BitVec 14) ++ List.replicate 4 50, s.overCur c = false)) ∧
    ((spin 5 [] Spn.reset).isBase = true ∧ (0 : W32).getLsbD 0 = false ∧ (3 : W32).getLsbD 0 = true ∧ (spin 5 [(Reg.SPN_SHUNT, 0x10000)] Spn.reset).fld Reg.SPN_SHUNT 16 14 < (-2 : BitVec 14).toInt.natAbs ∧ (spin 7 [] Spn.reset).spSt = 7 ∧ (spin 3 [] Spn.reset).spn.cut = false)) ∧
    ((let s := spin 1 [(Reg.SPN_TARGET, 100), (Reg.SPN_MOTOR, 0x0400)] Spn.reset; let r := s.edgeRead fwdEdges;
      s.isBase = true ∧ s.spSt = 1 ∧ (edgesOf [] [] []).length < 3 ∧ 3 ≤ fwdEdges.length ∧ r.1 = true ∧ 160 * s.spTarget < 100 * r.2.1) ∧
    (let s := spin 1 [(Reg.SPN_MOTOR, 8)] Spn.reset; let r := s.edgeRead slowEdges;
      s.isBase = true ∧ s.spSt = 1 ∧ 3 ≤ slowEdges.length ∧ 100 * r.2.1 ≤ 160 * s.spTarget) ∧
    (let s := spin 2 [] { Spn.reset with observe := true };
      s.spSt = 2 ∧ s.spn.observe = true ∧ 3 ≤ backEdges.length ∧ (s.edgeRead backEdges).1 = false) ∧
    ((spin 2 [] Spn.reset).spSt = 2 ∧ (spin 2 [] Spn.reset).spn.observe = false ∧ (spin 3 [] Spn.reset).spSt = 3 ∧ (spin 2 [] Spn.reset).spn.stopping = false ∧ (spin 4 [] Spn.reset).spSt = 4) ∧
    (let s := spin 5 [] Spn.reset;
      (15000 : W16).toNat ≤ 15000 ∧ 15000 < (15001 : W16).toNat ∧ s.pwr.st < 3 ∧ s.rbit Reg.SPN_STATE 26 = false ∧ s.chopFaulty = false ∧ 13800 < (13801 : W16).toNat) ∧
    (let s := spin 5 [(Reg.SPN_STATE, 0x54000000)] { Spn.reset with chopN := 9 };
      s.rbit Reg.SPN_STATE 26 = true ∧ 50 ≤ (50 : W16).toNat ∧ (13399 : W16).toNat < 13400 ∧ (49 : W16).toNat < 50 ∧ 9 ≤ s.spn.chopN) ∧
    (let s := spin 6 [(Reg.SPN_CTRL, 0x43)] Spn.reset;
      (s.spSt = 5 ∨ s.spSt = 6) ∧ s.rbit Reg.SPN_CTRL 6 = true) ∧
    (let s := spin 6 [] Spn.reset;
      s.spSt ≠ 0 ∧ s.spSt ≠ 9 ∧ s.spSt ≠ 7 ∧ s.rbit Reg.SPN_CTRL 6 = false)) :=
  ⟨by decide +kernel,
    by decide +kernel⟩


theorem witness_PowerFailAndBivouac :
    (let s := withRegs [(Reg.NVI_GS_STATE, 0x11), (Reg.SYS_ROLE, 4), (Reg.SPN_STATE, 0x50000000), (Reg.SPN_CTRL, 0x43), (Reg.NVI_GS_CHARGE, 64)] State.reset;
      s.gs.dump = none ∧ s.pwr.st < 2 ∧ s.pwr.trip = false ∧ s.gylRun = none ∧ s.isBase = true ∧ s.rbit Reg.NVI_GS_STATE 0 = true ∧ s.spSt = 5 ∧
      s.rbit Reg.SPN_CTRL 6 = true ∧ s.charge ≠ 0 ∧ s.rbit Reg.SYS_BIV 31 = false ∧ (∀ m : Act, s.rbit (Reg.MCA_WR_CTRL m) 0 = false)) ∧
    (let s := withRegs [(Reg.SYS_BIV, 0x80000100)] State.reset;
      s.gs.dump = none ∧ s.pwr.st < 2 ∧ s.pwr.trip = false ∧ s.gylRun = none ∧ s.rbit Reg.NVI_GS_STATE 0 = false ∧ s.rbit Reg.SYS_BIV 31 = true ∧ getF (0xB1C00001 : W32) 16 16 = 0xB1C0 ∧ (0xB1C00001 : W32).getLsbD 0 = true ∧
      getF (0xB1C10001 : W32) 16 16 ≠ 0xB1C0 ∧ (0xB1C00000 : W32).getLsbD 0 = false) :=
  by decide +kernel


/-- The part at its host: Basecamp, memory space and bus master on at both ports, NVQ and its fast path enabled. -/
def host (l : List (Nat × W32)) : State :=
  { withRegs ([(Reg.SYS_ROLE, 4), (Reg.NVQ_CTRL, 7)] ++ l) State.reset with
    hif0 := { HifP.reset with cfg := [(4, 6), (0x24, 1)] }, mem := ready.mem,
    nvq := { Nvq.reset with c0 := { NCtl.reset with cc := 1, rdy := true }, dir := 0x010000400000, slots := 0x010000410000, free := 0x010000420000, flog := 0x010000430000 },
    svc := { Svc.reset with ready := true } }

/-- A submission entry: opcode, namespace, PRP 1, double words 10 to 13. -/
def sqe (opc nsid prp d10 d11 d12 d13 : Nat) : List W8 :=
  leBytes 4 opc ++ leBytes 4 nsid ++ List.replicate 16 0 ++ leBytes 8 prp ++ List.replicate 8 0 ++ leBytes 4 d10 ++ leBytes 4 d11 ++ leBytes 4 d12 ++ leBytes 4 d13 ++
    List.replicate 8 0
/-- A command of tag `g` from queue `q` of port 0. -/
def ncmd (g q : Nat) (e : List W8) (ph : FastPh) : NCmd := ⟨g, 5, 0, q, e, ph, false, false, false⟩
/-- `s` with these commands and queues. -/
def withNvq (s : State) (cmds : List NCmd) (sqs : SMap NSq) (cqs : SMap NCq) : State := { s with nvq := { s.nvq with cmds := cmds, sqs := sqs, cqs := cqs } }
/-- A completion queue that is full, with one completion held. -/
def fullCq : NCq := ⟨0x8000, 4, 1, 0, true, 0, false, [⟨9, 0, 0, 0⟩], true⟩
/-- Nothing unusual met while a command is served. -/
def okIn : CmdIn := ⟨0, [], [], true, .loaded, [], false, [], [], 0⟩

/-- Every tag is taken. -/
def allTags : List NCmd := (List.range 2048).map fun t => ncmd t 1 [] .engine
theorem no_free_tag (s : State) (h : s.nvq.cmds = allTags) : s.freeCmdTag = none := by
  simp only [State.freeCmdTag, List.find?_eq_none, List.mem_range]
  intro t ht hn
  simp only [State.cmd?, h, allTags, Option.isNone_iff_eq_none, List.find?_eq_none, List.mem_map, List.mem_range] at hn
  exact hn _ ⟨t, ht, rfl⟩ (by simp [ncmd])
/-- Queue 1 has an entry to fetch. -/
def fetchS (cmds : List NCmd) : State := withNvq (host [(Reg.NVQ_ROUTE, 0)]) cmds [(1, ⟨0x8000, 8, 3, 4, 1, false⟩)] []
theorem fetch_cmds (l : List NCmd) : (fetchS l).nvq.cmds = l := rfl
theorem full_cmds : (fetchS allTags).freeCmdTag = none := no_free_tag _ (fetch_cmds _)

theorem witness_QueuesFetchAndComplete :
    (let s := withNvq (host []) [] [(1, ⟨0x8000, 8, 2, 6, 1, false⟩)] [(1, ⟨0x9000, 8, 6, 1, true, 0, false, [], true⟩)];
      s.portLive 0 = true ∧ s.takesMem 0 = true ∧ s.sq (qKey 0 (1 : W8).toNat) = some ⟨0x8000, 8, 2, 6, 1, false⟩ ∧ (1 + 8 - 6) % 8 ≠ 0 ∧
      (1 + 8 - 6) % 8 ≤ (2 + 8 - 1 - 6) % 8 ∧ s.cq (qKey 0 (1 : W8).toNat) = some ⟨0x9000, 8, 6, 1, true, 0, false, [], true⟩ ∧ (s.hp 0).inta = false ∧ (1 + 8 - 6) % 8 ≤ (1 + 8 - 6) % 8) ∧
    ((fetchS allTags).isBase = true ∧ (fetchS allTags).rbit Reg.NVQ_CTRL 0 = true ∧ (fetchS allTags).nvq.stopped = false ∧ (fetchS allTags).nextSq = some (1, ⟨0x8000, 8, 3, 4, 1, false⟩) ∧ (fetchS allTags).freeCmdTag = none) ∧
    ((let s := fetchS []; let c := ncmd 0 1 (padTo 64 (sqe 2 2 0 0 0 0 0)) .engine; let d := ncmd 0 1 (padTo 64 (sqe 1 1 0 7 0 0 0)) .engine;
      s.nextSq = some (1, ⟨0x8000, 8, 3, 4, 1, false⟩) ∧ s.freeCmdTag = some 0 ∧ s.inBar4 0 (0x8000 + 64 * 3) = false ∧
      s.fastShape c = false ∧ s.classMask (s.cmdClass c) = 0 ∧ s.fastShape d = true ∧ d.opc = 1 ∧ s.rbit Reg.NVQ_CTRL 1 = true) ∧
    (let s := host []; let g := s.fld (Reg.NVQ_CPL 159 2) 0 11;
      s.isBase = true ∧ s.mayReg (.thread 159) (Reg.NVQ_CPL 159 3) = true ∧ s.cmd? g = none) ∧
    (let c := ncmd 3 1 [] .engine; let x : NSq := ⟨0x8000, 8, 3, 4, 2, false⟩; let q : NCq := ⟨0x9000, 8, 6, 7, true, 0, false, [], true⟩; let s := withNvq (host [(Reg.NVQ_CPL 159 2, 3)]) [c] [(1, x)] [(2, q)]; let g := s.fld (Reg.NVQ_CPL 159 2) 0 11;
      s.mayReg (.thread 159) (Reg.NVQ_CPL 159 3) = true ∧
      s.cmd? g = some c ∧ c.ph = .engine ∧ c.posted = false ∧ c.orphan = false ∧ s.sq (qKey c.ctrl c.qid) = some x ∧ x.cq < 256 ∧ s.cq (qKey c.ctrl x.cq) = some q ∧ q.held = [] ∧ q.full = false ∧ q.ien = false ∧
      s.nvq.stopped = false ∧ s.busMaster c.ctrl = true ∧ s.inBar4 c.ctrl (q.base + 16 * q.tail) = false ∧ (q.base + 16 * q.tail) % 4096 ≤ 4080) ∧
    (let s := host [(Reg.NVI_GS_CEIL, 100), (Reg.NVI_GS_CHARGE, 60)];
      s.mayReg (.thread 191) (Reg.NVI_GS_ADJ 191) = true ∧ (s.charge : Int) + (40 : W32).toInt ≤ s.ceil ∧ (s.ceil : Int) < (s.charge : Int) + (41 : W32).toInt ∧ 0 ≤ (s.charge : Int) + (-60 : W32).toInt ∧ (s.charge : Int) + (-61 : W32).toInt < 0)) :=
  ⟨by decide +kernel,
    ⟨by decide +kernel, by decide +kernel, by decide +kernel, by decide +kernel, full_cmds⟩,
    by decide +kernel⟩


theorem witness_FastPathWritesAndReads :
    (let c := ncmd 3 1 (sqe 1 1 0x2000 7 0 0 0) .candidate; let s := withNvq (host [(Reg.NVI_GS_STATE, 1), (Reg.NVI_GS_CEIL, 65), (Reg.NVQ_FREE_TAIL, 1)]) [c] [] []; let r := s.bucket c.slba;
      s.cmd? (3 : Tag).toNat = some c ∧ c.ph = .candidate ∧ s.nvq.stopped = false ∧
      s.rbit Reg.NVQ_CTRL 1 = true ∧ s.engineCovers c = false ∧ s.rbit Reg.NVI_GS_STATE 0 = true ∧ s.rbit Reg.NVI_GS_STATE 5 = false ∧ s.inBiv = false ∧
      s.fld Reg.NVQ_FREE_HEAD 0 20 % s.freeSize ≠ s.fld Reg.NVQ_FREE_TAIL 0 20 % s.freeSize ∧ s.flogRoom = true ∧ r.2.1 = false ∧ (chooseWay r.1 c.slba).isSome = true ∧ s.charge + 65 ≤ s.ceil) ∧
    (let c := ncmd 3 1 (sqe 1 1 0x2000 7 0 0 0) (.write 5); let x : NSq := ⟨0x8000, 8, 3, 4, 2, false⟩; let s := withNvq (host []) [c] [(1, x)] [(2, fullCq)]; let f := s.fastData c (.data (List.replicate 4096 1)); let b := f.2.bucket c.slba;
      s.cmd? (3 : Tag).toNat = some c ∧ c.ph = .write 5 ∧
      s.nvq.stopped = false ∧ s.mustWait c = false ∧ c.posted = false ∧ c.orphan = false ∧ s.sq (qKey c.ctrl c.qid) = some x ∧ s.cq (qKey c.ctrl x.cq) = some fullCq ∧ fullCq.full = true ∧ fullCq.held ≠ [] ∧ s.nvq.owed = [] ∧ f.1.isSome = true ∧
      chooseWay b.1 c.slba = some 0 ∧ (wayOf b.1 0).valid = false ∧ 2 ^ 32 - 1 ≠ 5 ∧ (∀ y ∈ s.nvq.cmds, y.ph ≠ .read (2 ^ 32 - 1))) ∧
    (let c := ncmd 3 1 (sqe 2 1 0x2000 7 0 0 0) (.read 5); let x : NSq := ⟨0x8000, 8, 3, 4, 2, false⟩; let s := withNvq (host []) [c] [(1, x)] [(2, fullCq)]; let r := s.memReadMarked (s.slotAt 5) 4096 513;
      s.cmd? (3 : Tag).toNat = some c ∧ c.ph = .read 5 ∧ s.mustWait c = false ∧ c.posted = false ∧ c.orphan = false ∧ s.sq (qKey c.ctrl c.qid) = some x ∧ s.cq (qKey c.ctrl x.cq) = some fullCq ∧ s.busMaster c.ctrl = true ∧ c.prp1 % 4096 = 0 ∧
      anyMark r.1 = false ∧ s.inBar4 c.ctrl c.prp1 = false) :=
  by decide +kernel


/-- An image of the Groundsheet in an area. -/
def gsImage (area pages : Nat) : GsImage := ⟨area, 0, 7, 0, 0, 0, 0, [], [], [], pages⟩

theorem witness_GroundsheetIsPreparedDumpedAndRestored :
    (let s := host [];
      s.pwr.trip = false ∧ (7 : W32).getLsbD 0 = true ∧ s.gs.prep = none ∧ s.gs.dump = none ∧ s.gs.restore = false ∧ (7 : W32).getLsbD 1 = true ∧ (7 : W32).getLsbD 2 = true ∧ s.gylRun = none ∧ s.rbit Reg.NVI_GS_STATE 0 = false ∧
      (host [(Reg.NVI_GS_STATE, 0x11)]).rbit Reg.NVI_GS_STATE 0 = true ∧ s.prepArea = 0) ∧
    (let s := { host [] with gs := { Gs.reset with dump := some (gsImage 1 0), img0 := some (gsImage 0 0) } };
      s.gs.prep = none ∧ s.gs.dump ≠ none ∧ s.gs.dump = some (gsImage 1 0) ∧ (gsImage 1 0).pages + (0 : W32).toNat ≤ s.gs.stripes ∧
      s.gs.stripes < (gsImage 1 0).pages + (1 : W32).toNat ∧ s.prepArea = 1 ∧ ({ s with pwr := { s.pwr with trip := true } } : State).mayAbandon = true) ∧
    (let s := { host [(Reg.NVI_GS_AREA 1, 0x00640000), (Reg.NVI_GS_CEIL, 64)] with gs := { Gs.reset with prep := some 1 } }; let r := s.saveList; let b := (0x4000 : W32).toNat * (8 : BitVec 6).toNat; let nblk := r.2.fld (Reg.NVI_GS_AREA 1) 16 16;
      s.gs.prep = some 1 ∧ b ≠ 0 ∧
      2 + ceilDiv (64 * r.2.ceil) b + ceilDiv ((r.1.map (·.2)).foldl (· + ·) 0) b ≤ (nblk - (0 : W32).toNat - ceilDiv (2 * nblk) 100) * (64 : W32).toNat ∧
      ¬ 2 + ceilDiv (64 * r.2.ceil) b + ceilDiv ((r.1.map (·.2)).foldl (· + ·) 0) b ≤ (nblk - (98 : W32).toNat - ceilDiv (2 * nblk) 100) * (64 : W32).toNat) ∧
    (let s := { host [] with gs := { Gs.reset with restore := true, img1 := some (gsImage 1 0) } };
      s.gs.restore = true ∧ s.gsNewest = some (gsImage 1 0) ∧ ({ host [] with gs := { Gs.reset with restore := true } } : State).gsNewest = none) :=
  by decide +kernel




theorem witness_BlocksAreWrittenReadAndDeallocated :
    (let c := ncmd 3 1 (sqe 1 1 0x2000 7 0 1 0) .engine; let s := withNvq (host [(Reg.NVI_GS_STATE, 1), (Reg.NVI_GS_CEIL, 128)]) [c] [] [];
      Served s 3 c ∧ c.admin = false ∧ s.cmdClass c = 1 ∧ s.svc.dir = false ∧ c.nlb ≤ 8192 ∧ okIn.err = 0 ∧ s.busMaster c.ctrl = true ∧
      s.mustWait c = false ∧ s.svc.readOnly = false ∧ okIn.fault = false ∧ s.charge + s.putNeed c.slba c.nlb ≤ s.ceil ∧ c.opc = 1 ∧ s.blkGate c true = none ∧ c.nlb = 2 ∧ (withNvq (host []) [c] [] []).writeThrough c okIn = true) ∧
    (let c := ncmd 3 1 (sqe 1 1 0x2000 0x0FFFFFFF 0 1 0) .engine; let s := withNvq (host []) [c] [] [];
      Served s 3 c ∧ s.cmdClass c = 1 ∧ s.blkGate c true = some (0, 0x80, 1) ∧ s.blkGate c false = some (0, 0x80, 1)) ∧
    (∀ o ∈ [0x02, 0x05, 0x08, 0x0C], let c := ncmd 3 1 (sqe o 1 0x2000 0x0FFFFFFF 0 0 0) .engine; let s := withNvq (host []) [c] [] []
      Served s 3 c ∧ c.opc = o ∧ s.cmdClass c = 1 ∧ s.blkGate c false = none ∧ s.blkGate c true = none ∧ s.mustWait c = false ∧ s.svc.vol.contains 0x0FFFFFFF = false ∧ s.bivNoMedia = false ∧ okIn.badLbas.contains 0x0FFFFFFF = false) ∧
    (let c := ncmd 3 1 (sqe 0 1 0 0 0 0 0) .engine; let s := withNvq (host []) [c] [] [];
      Served s 3 c ∧ s.cmdClass c = 1 ∧ c.opc = 0 ∧ s.ioGate c false = none ∧ c.nsid = 1 ∧ s.svc.ready = true) ∧
    (let c := ncmd 3 1 (sqe 9 1 0 0 4 0 0) .engine; let s := { withNvq (host []) [c] [] [] with svc := { Svc.reset with ready := true, vol := [9, 3] } };
      Served s 3 c ∧ s.cmdClass c = 1 ∧ c.opc = 9 ∧ s.ioGate c true = none ∧ c.nsid = 1 ∧ s.svc.ready = true ∧ s.svc.vol.Nodup ∧
      c.dw 10 % 256 = 0 ∧ (c.dw 11).testBit 2 = true ∧ leAt (leBytes 4 0 ++ leBytes 4 1 ++ leBytes 8 0x0FFFFFFF) 8 8 + leAt (leBytes 4 0 ++ leBytes 4 1 ++ leBytes 8 0x0FFFFFFF) 4 4 ≤ s.svc.nsze) :=
  ⟨by unfold Served; decide +kernel,
    by unfold Served; decide +kernel,
    by unfold Served; decide +kernel,
    by unfold Served; decide +kernel,
    by unfold Served; decide +kernel⟩


/-- An admin command alone. -/
def adm (e : List W8) (l : List (Nat × W32)) (sqs : SMap NSq) (cqs : SMap NCq) : State := withNvq (host l) [ncmd 3 0 e .engine] sqs cqs

theorem witness_AdminCommandsAnswer :
    (∀ f ∈ [0, 1, 2], let c := ncmd 3 0 (sqe 6 1 0 f 0 0 0) .engine; let s := adm c.entry [] [] []
      Asked s 3 c 0x06 ∧ s.busMaster c.ctrl = true ∧ c.dw 10 % 256 = f ∧ c.nsid = 1) ∧
    (∀ f ∈ [0xC0, 0xC1, 0x06, 0xFF], let c := ncmd 3 0 (sqe 0x0A 0 0 f 0 0 0) .engine; Asked (adm c.entry [] [] []) 3 c 0x0A ∧ c.dw 10 % 256 = f ∧ (f = 0xFF → featKnown f = false)) ∧
    (∀ v ∈ [0, 1, 1440, 1441], let c := ncmd 3 0 (sqe 9 0 0 0xC0 v 0 0) .engine; Asked (adm c.entry [] [] []) 3 c 0x09 ∧ c.dw 10 % 256 = 0xC0 ∧ c.dw 11 = v) ∧
    (let c := ncmd 3 0 (sqe 9 0 0 0xC1 0 0 0) .engine; let s := adm c.entry [] [] [];
      Asked s 3 c 0x09 ∧ c.dw 10 % 256 = 0xC1 ∧ c.dw 11 ≤ s.ceilLimit 0 ∧ s.ceilLimit 0 < 0xFFFFFFFF ∧ (ncmd 3 0 (sqe 9 0 0 0xC1 0xFFFFFFFF 0 0) .engine).dw 11 = 0xFFFFFFFF) ∧
    (let c := ncmd 3 0 (sqe 5 0 0x9000 0x0FFF0080 0x00800003 0 0) .engine; let s := adm c.entry [] [] []; let id := c.dw 10 % 65536;
      Asked s 3 c 0x05 ∧ 1 ≤ id ∧ id ≤ 128 ∧ 1 ≤ c.dw 10 / 65536 ∧ c.dw 10 / 65536 ≤ 4095 ∧ s.cq (qKey c.ctrl id) = none ∧ c.dw 11 / 65536 ≤ 128 ∧
      (c.dw 11).testBit 0 = true ∧ c.prp1 % 4096 = 0 ∧ s.ownBar4 c.ctrl c.prp1 1 = none) ∧
    (let c := ncmd 3 0 (sqe 1 0 0x9000 0x00010080 0x00800001 0 0) .engine; let s := adm c.entry [] [] [(128, fullCq)]; let id := c.dw 10 % 65536;
      Asked s 3 c 0x01 ∧ 1 ≤ id ∧ id ≤ 128 ∧ 1 ≤ c.dw 10 / 65536 ∧ c.dw 10 / 65536 ≤ 4095 ∧ 1 ≤ c.dw 11 / 65536 ∧ s.sq (qKey c.ctrl id) = none ∧
      c.dw 11 / 65536 ≤ 128 ∧ (s.cq (qKey c.ctrl (c.dw 11 / 65536))).isSome = true ∧ (c.dw 11).testBit 0 = true ∧ c.prp1 % 4096 = 0) ∧
    (let c := ncmd 3 0 (sqe 0 0 0 1 0 0 0) .engine; let s := adm c.entry [] [(1, ⟨0x8000, 8, 3, 4, 2, false⟩)] [];
      Asked s 3 c 0x00 ∧ c.dw 10 % 65536 = 1 ∧ (s.sq (qKey c.ctrl 1)).isSome = true ∧ (∀ y ∈ s.nvq.cmds, ¬ (y.ctrl = c.ctrl ∧ y.qid = 1))) ∧
    (let c := ncmd 3 0 (sqe 4 0 0 2 0 0 0) .engine; let s := adm c.entry [] [(1, ⟨0x8000, 8, 3, 4, 2, false⟩)] [(2, fullCq)];
      Asked s 3 c 0x04 ∧ c.dw 10 % 65536 = 2 ∧ (s.cq (qKey c.ctrl 2)).isSome = true ∧ (∃ e ∈ s.nvq.sqs, e.1 / 256 = c.ctrl ∧ e.2.cq = 2)) ∧
    (let c := ncmd 3 0 (sqe 4 0 0 2 0 0 0) .engine; let s := adm c.entry [] [] [(2, fullCq)];
      Asked s 3 c 0x04 ∧ (s.cq (qKey c.ctrl 2)).isSome = true ∧ (∀ e ∈ s.nvq.sqs, ¬ (e.1 / 256 = c.ctrl ∧ e.2.cq = 2)) ∧ (s.hp c.ctrl).inta = false) ∧
    (let c := ncmd 3 0 (sqe 8 0 0 0x00000001 0 0 0) .engine; let y := ncmd 4 1 (sqe 2 1 0 0 0 0 0) .engine; let s := withNvq (host []) [c, y] [] [];
      Asked s 3 c 0x08 ∧ (s.nvq.cmds.filter fun y => y.ctrl == c.ctrl && y.admin && y.opc == 0x08 && !y.posted && decide (y.seq < c.seq)).length < 8 ∧
      s.nvq.cmds.find? (fun y => y.ctrl == c.ctrl && y.qid == c.dw 10 % 65536 && y.cid == c.dw 10 / 65536 && y.tag != c.tag) = some y ∧ y.posted = false ∧ y.dp = false ∧ y.ph = .engine) ∧
    (let c := ncmd 3 0 (sqe 8 0 0 0x00000001 0 0 0) .engine; let y := ncmd 4 1 (sqe 2 1 0 0 0 0 0) (.read 5); let s := withNvq (host []) [c, y] [] [];
      Asked s 3 c 0x08 ∧ s.nvq.cmds.find? (fun y => y.ctrl == c.ctrl && y.qid == c.dw 10 % 65536 && y.cid == c.dw 10 / 65536 && y.tag != c.tag) = some y ∧
      y.ph ≠ .engine ∧ (withNvq (host []) [c] [] []).nvq.cmds.find? (fun y => y.ctrl == c.ctrl && y.qid == c.dw 10 % 65536 && y.cid == c.dw 10 / 65536 && y.tag != c.tag) = none) ∧
    (let c := ncmd 3 0 (sqe 0x0C 0 0 0 0 0 0) .engine; let s := adm c.entry [] [] [];
      Asked s 3 c 0x0C ∧ (s.ctl c.ctrl).aer.contains c.tag = false ∧ (s.ctl c.ctrl).aer.length < 8 ∧ (s.ctl c.ctrl).events = [] ∧
      8 ≤ (({ s with nvq := { s.nvq with c0 := { NCtl.reset with aer := [10, 11, 12, 13, 14, 15, 16, 17] } } } : State).ctl 0).aer.length) :=
  ⟨by unfold Asked Served; decide +kernel,
    by unfold Asked Served; decide +kernel,
    by unfold Asked Served; decide +kernel,
    by unfold Asked Served; decide +kernel,
    by unfold Asked Served; decide +kernel,
    by unfold Asked Served; decide +kernel,
    by unfold Asked Served; decide +kernel,
    by unfold Asked Served; decide +kernel,
    by unfold Asked Served; decide +kernel,
    by unfold Asked Served; decide +kernel,
    by unfold Asked Served; decide +kernel,
    by unfold Asked Served; decide +kernel⟩


theorem witness_FormatAndSanitizeStartAndEnd :
    (let c := ncmd 3 0 (sqe 0x80 1 0 0x200 0 0 0) .engine; let s := adm c.entry [] [] [];
      Asked s 3 c 0x80 ∧ s.svc.format = none ∧ c.nsid = 1 ∧ s.inBiv = false ∧ s.svc.sanitize = none ∧ c.dw 10 % 16 = 0 ∧ c.dw 10 / 512 % 8 ≤ 1) ∧
    (let s := { host [] with svc := { Svc.reset with format := some ⟨0, 1, 0, 8, 0, 0⟩, sanitize := some ⟨4, 0, 0, 8, 0, 1⟩ } };
      s.svc.format = some ⟨0, 1, 0, 8, 0, 0⟩ ∧ (7 : Nat) < 8 ∧ (8 : Nat) ≤ 8 ∧ s.svc.dir = false ∧ s.svc.sanitize = some ⟨4, 0, 0, 8, 0, 1⟩ ∧
      (s.fld (Reg.CSC_PART_STATE 1) 0 2 ≤ 1 ∧ s.fld (Reg.CSC_PART_STATE 2) 0 2 ≤ 1 ∧ s.fld (Reg.CSC_PART_STATE 3) 0 2 ≤ 1)) ∧
    (∀ a ∈ [2, 3, 4], let c := ncmd 3 0 (sqe 0x84 0 0 a 0 0 0) .engine; let s := adm c.entry [] [] []
      Asked s 3 c 0x84 ∧ s.svc.sanitize = none ∧ c.dw 10 % 8 = a ∧ (a ≠ 2 → s.sanGate c = none) ∧ (adm c.entry [(Reg.SYS_ROLE, 0x14)] [] []).sanGate c ≠ none) :=
  ⟨by unfold Asked Served; decide +kernel,
    by decide +kernel,
    by unfold Asked Served; decide +kernel⟩



/-- A namespace descriptor: identifier, command set, geometry, policy, versions kept. -/
def nsDesc (n csi geom pol keep : Nat) : List W8 :=
  padTo 256 (leBytes 1 n ++ leBytes 1 csi ++ leBytes 1 geom ++ leBytes 1 pol ++ leBytes 2 keep)
/-- The chunk of three bytes on units 1 and 25. -/
def chk3 (committed : Bool) : Chunk := ⟨0, [1, 2, 3], [1, 25], if committed then [] else [0], false, committed, some true, none, 0⟩
/-- A version of key [0x61] in namespace 3 with three bytes, sealed in that chunk. -/
def ver3 (num retain : Nat) (hold committed : Bool) : Ver :=
  { ns := 3, key := [0x61], version := num, handle := 0x200 + num, prev := 0, length := 3, created := 0, retain := retain, hold := hold,
    tomb := false, deleted := 0, updated := 0, gen := 1, user := [], chunks := [chk3 committed], digs := [], units := [1, 25], under := false,
    metaC := none, metaDone := false, put := 0 }
/-- A parameter block: key, version, offset, length, retention. -/
def parm (key : List W8) (version offset length retain : Nat) : List W8 :=
  leBytes 4 key.length ++ leBytes 4 version ++ leBytes 8 offset ++ leBytes 8 length ++ leBytes 8 retain ++ List.replicate 32 0 ++ key
/-- Commands meet these units and this parameter block. -/
def gosIn (param : List W8) : CmdIn := { okIn with param := param, units := [1, 25] }
/-- Object namespace 3 (NSID 5) with this descriptor, versions and sessions, and one command. -/
def objS (c : NCmd) (desc : List W8) (vers : List Ver) (sess : List Sess) : State :=
  { withNvq (host []) [c] [] [] with svc := { Svc.reset with ready := true, index := true, nss := [(3, ⟨desc, 0x300, 3, [([0x61], 2)], 0, 1, none⟩)], vers := vers, sess := sess } }
/-- The namespace as it stands there. -/
def ns3 (desc : List W8) : ObjNs := ⟨desc, 0x300, 3, [([0x61], 2)], 0, 1, none⟩

theorem witness_ObjectsArePutAndGot :
    (let c := ncmd 3 1 (sqe 0x81 5 0 0 0 0 0) .engine; let s := objS c (nsDesc 3 0 1 2 0) [] [];
      Served s 3 c ∧ c.admin = false ∧ c.opc = 0x81 ∧ s.nsOf c.nsid = some (3, ns3 (nsDesc 3 0 1 2 0)) ∧ s.svc.index = true ∧ s.mustFollow c = false ∧ (s.gosGate c { gosIn [] with err := 4 } true).isSome = true) ∧
    (let c := ncmd 3 1 (sqe 0x81 5 0 1 0 2097152 0) .engine; let x := gosIn (parm [0x61] 0 2097152 0 0); let d := nsDesc 3 0 1 2 0; let s := objS c d [ver3 2 5 true true] []; let a := gosArgs c x;
      Gos s 3 x 0x81 true c 3 (ns3 d) a ∧ a.flags.testBit 0 = true ∧
      a.flags.testBit 1 = false ∧ a.flags.testBit 2 = false ∧ 1 ≤ a.klen ∧ a.klen ≤ 64 ∧ dPol d pWriteOnce = false ∧ a.flags.testBit 3 = false ∧ dPol d pVersioned = true ∧ dQuota d = 0 ∧ a.offset % chunkSize = 0 ∧ a.dlen % chunkSize = 0 ∧
      s.pickUnits (ns3 d) x.units = some ([1, 25], false) ∧ x.fault = false ∧ s.writeThrough { c with entry := patchB c.entry 48 [0, 0, 0, 0] } x = true ∧ s.guarded ((s.keyVers 3 a.key).filter Ver.live) = some 5) ∧
    (let c := ncmd 3 1 (sqe 0x81 5 0 2 9 0 0) .engine; let x := gosIn (parm [0x61] 0 0 3 0); let d := nsDesc 3 0 1 2 0; let e : Sess := ⟨9, 3, [0x61], 0x2FF, 0, none, [{ chk3 false with placed := none }], 0⟩; let s := objS c d [] [e]; let a := gosArgs c x;
      (s.pickUnits (ns3 d) x.units).isSome = true ∧ s.pickUnits (ns3 d) [] = none ∧
      Gos s 3 x 0x81 true c 3 (ns3 d) a ∧ a.flags.testBit 0 = false ∧ a.flags.testBit 1 = true ∧ a.flags.testBit 2 = false ∧ 1 ≤ a.klen ∧ a.klen ≤ 64 ∧ a.dlen = 0 ∧ a.length ≤ 2 ^ 43 ∧
      s.svc.sess.find? (fun y => y.token == a.session && y.ns == 3 && y.key == a.key) = some e ∧ (sealChunks e.chunks a.length).isSome = true ∧ dPol d pVersioned = true ∧ dKeep d = 0 ∧ sealMisfit e.chunks a.length = false ∧ s.verAt 3 e.handle = none ∧ sealMisfit e.chunks 4 = true ∧ sealChunks e.chunks (2 * chunkSize) = none) ∧
    (let c := ncmd 3 1 (sqe 1 5 0 0 1 0 0) .engine; let x := gosIn []; let d := nsDesc 3 1 1 2 0; let s := objS c d [] [];
      Kv s 3 x 0x01 true true c 3 (ns3 d) ∧ dPol d pWriteOnce = false ∧ dPol d pVersioned = true ∧ dKeep d = 0 ∧ dQuota d = 0 ∧
      s.pickUnits (ns3 d) x.units = some ([1, 25], false) ∧ x.fault = false ∧ s.writeThrough { c with entry := patchB c.entry 48 [0, 0, 0, 0] } x = true ∧ s.verAt 3 (ns3 d).nextHandle = none) ∧
    (let c := ncmd 3 1 (sqe 0x82 5 0 0 0 8 0) .engine; let x := gosIn (parm [0x61] 2 0 0 0); let d := nsDesc 3 0 1 2 0; let v := ver3 2 0 false false; let s := objS c d [v] []; let a := gosArgs c x;
      Gos s 3 x 0x82 false c 3 (ns3 d) a ∧ s.findVer 3 a = .inl v ∧ s.bivNoMedia = false ∧
      (∀ e ∈ s.svc.slow, e.1 ≠ c.tag) ∧ v.chunks.map (·.idx) = List.range ((v.length + chunkSize - 1) / chunkSize) ∧ (∀ k ∈ v.chunks, k.data.length = min chunkSize (v.length - k.idx * chunkSize)) ∧ (∀ k ∈ v.chunks, k.committed = false) ∧
      (objS c d [] []).findVer 3 a = .inr 1 ∧ c.posted = false ∧ c.admin = false ∧ (3, 0, 15) ∉ s.svc.slow) ∧
    (let c := ncmd 3 1 (sqe 2 5 0 8 1 0 0) .engine; let d := nsDesc 3 1 1 2 0; let v := { ver3 2 0 false false with key := [0] }; let s := objS c d [v] []; let a := { kvArgs c 0 0 with length := 0 };
      Kv s 3 (gosIn []) 0x02 false false c 3 (ns3 d) ∧ s.findVer 3 a = .inl v ∧ a.klen = 1) :=
  ⟨by unfold Served; decide +kernel,
    by unfold Gos Served; decide +kernel,
    by unfold Gos Served; decide +kernel,
    by unfold Kv Served; decide +kernel,
    by unfold Gos Served; decide +kernel,
    by unfold Kv Served; decide +kernel⟩


theorem witness_VersionsAreDeletedHeldAndListed :
    (let c := ncmd 3 1 (sqe 0x84 5 0 0 0 0 0) .engine; let x := gosIn (parm [0x61] 2 0 0 0); let d := nsDesc 3 0 1 2 0; let s := objS c d [ver3 2 1 true true] []; let s2 := objS c d [ver3 2 0 true true] []; let s3 := objS c d [ver3 2 0 false true] []; let a := gosArgs c x;
      Gos s 3 x 0x84 true c 3 (ns3 d) a ∧ a.flags.testBit 0 = false ∧ s.findVer 3 a = .inl (ver3 2 1 true true) ∧ s.rclock < 1 ∧ (s.pickUnits (ns3 d) x.units).isSome = true ∧ s.pickUnits (ns3 d) [] = none ∧ s2.findVer 3 a = .inl (ver3 2 0 true true) ∧ s3.findVer 3 a = .inl (ver3 2 0 false true) ∧ 0 ≤ s2.rclock ∧ (ver3 2 0 true true).tomb = false) ∧
    (let c := ncmd 3 1 (sqe 0x10 5 0 0 1 0 0) .engine; let d := nsDesc 3 1 1 2 0; let s := objS c d [{ ver3 2 0 false true with key := [0] }] [];
      Kv s 3 (gosIn []) 0x10 true false c 3 (ns3 d) ∧ s.findVer 3 (kvArgs c 0 0) = .inl { ver3 2 0 false true with key := [0] }) ∧
    (∀ f ∈ [3, 5, 4], let c := ncmd 3 1 (sqe 0x8C 5 0 f 0 0 0) .engine; let x := gosIn (parm [0x61] 2 0 0 7); let d := nsDesc 3 0 1 2 0; let s := objS c d [ver3 2 7 false true] []; let a := gosArgs c x
      Gos s 3 x 0x8C true c 3 (ns3 d) a ∧ s.findVer 3 a = .inl (ver3 2 7 false true) ∧ a.flags = f ∧ (s.pickUnits (ns3 d) x.units).isSome = true ∧ 7 ≤ a.retain ∧ (gosArgs c (gosIn (parm [0x61] 2 0 0 6))).retain < 7) ∧
    (∀ f ∈ [0x86, 0x8A, 0x8E, 0x92, 0x9A], let c := ncmd 3 1 (sqe f 5 0 0 0 128 0) .engine; let x := gosIn (parm [0x61] 2 0 0 0); let d := nsDesc 3 0 1 2 0; let s := objS c d [ver3 2 7 false false] []; let a := gosArgs c x
      Gos s 3 x f false c 3 (ns3 d) a ∧ s.findVer 3 a = .inl (ver3 2 7 false false) ∧ a.klen = 1 ∧ s.keyVers 3 a.key ≠ [] ∧ s.bivNoMedia = false ∧ a.offset = 0 ∧ a.length = 0 ∧ a.flags.testBit 0 = false ∧
      (∀ k ∈ (ver3 2 7 false false).chunks, k.idx * chunkSize < 3 ∧ k.committed = false)) ∧
    (∀ f ∈ [0x14, 0x06], let c := ncmd 3 1 (sqe f 5 0 0 16 0 0) .engine; let d := nsDesc 3 1 1 2 0; let s := objS c d [{ ver3 2 7 false true with key := List.replicate 16 0 }] []
      Served s 3 c ∧ c.admin = false ∧ c.opc = f ∧ s.nsOf c.nsid = some (3, ns3 d) ∧ s.gosGate c (gosIn []) false = none ∧ dCsi d = 1 ∧ c.dw 11 % 256 ≤ 16 ∧ kvRefuse c false = none ∧ (kvArgs c 0 0).klen = 16) ∧
    (let c := ncmd 3 1 (sqe 0x9A 5 0 0 0 128 0) .engine; let d := nsDesc 3 0 1 2 0; let x := gosIn (parm [] 0 0 257 0); let s := objS c d [] [];
      Gos s 3 x 0x9A false c 3 (ns3 d) (gosArgs c x) ∧ 256 < (gosArgs c x).length ∧ (gosArgs c (gosIn (parm [] 0 0 256 0))).length = 256) :=
  ⟨by unfold Gos Served; decide +kernel,
    by unfold Kv Served; decide +kernel,
    by unfold Gos Served; decide +kernel,
    by unfold Gos Served; decide +kernel,
    by unfold Served; decide +kernel,
    by unfold Gos Served; decide +kernel⟩


/-- An export session of namespace 3. -/
def exp3 : Export := ⟨9, 3, 0, [], 0, [], 0⟩

theorem witness_ChunksCommitSessionsAndExportsEnd :
    ((let c := ncmd 3 1 [] .engine; let v := ver3 2 0 false false; let s := objS c (nsDesc 3 0 1 2 0) [v] [];
      (0x202 : W64) ≠ 1 ∧ s.verAt 3 0x202 = some v ∧ smFind s.svc.nss 3 = some (ns3 (nsDesc 3 0 1 2 0)) ∧ v.metaC = none ∧ (0 : W32).toNat < digIdx 0 ∧
      v.chunks.find? (fun c => c.idx == (0 : W32).toNat) = some (chk3 false) ∧ (chk3 false).committed = false ∧ (chk3 false).pend = [0] ∧ 0 < (chk3 false).units.length ∧ (chk3 false).units.getD 0 0 = 1 ∧
      [1, 25, 7].find? (fun q => !((chk3 false).units.contains q)) = some 7) ∧
    (let k := { chk3 false with idx := 0xFFFFFFFF }; let v := { ver3 2 0 false true with metaC := some k }; let s := objS (ncmd 3 1 [] .engine) (nsDesc 3 0 1 2 0) [v] [];
      s.verAt 3 0x202 = some v ∧ v.metaC = some k ∧ k.idx = (0xFFFFFFFF : W32).toNat ∧ k.committed = false) ∧
    (let e : Sess := ⟨9, 3, [0x61], 0x2FF, 0, none, [{ chk3 false with placed := none }], 0⟩; let s := objS (ncmd 3 1 [] .engine) (nsDesc 3 0 1 2 0) [] [e];
      s.svc.sess.find? (fun y => y.token == (9 : W32).toNat) = some e ∧ smFind s.svc.nss e.ns = some (ns3 (nsDesc 3 0 1 2 0)))) ∧
    (∀ f ∈ [0, 1, 2], let c := ncmd 3 1 (sqe 0x96 5 0 f 9 8 0) .engine; let d := nsDesc 3 0 1 2 0; let x := gosIn []; let s := objS c d [] []; let a := gosArgs c x
      Gos s 3 x 0x96 false c 3 (ns3 d) a ∧ a.flags % 4 = f ∧ s.svc.export_ = none ∧ a.dlen % 8 = 0 ∧ exp3.token = a.session ∧ exp3.ns = 3 ∧ exp3.trailer = [] ∧ ({ exp3 with token := 8 } : Export).token ≠ a.session) ∧
    (let c := ncmd 3 1 (sqe 0x96 5 0 1 9 8 0) .engine; let d := nsDesc 3 0 1 2 0; let s0 := objS c d [] []; let s := { s0 with svc := { s0.svc with export_ := some exp3 } };
      s.svc.export_ = some exp3 ∧ Gos s 3 (gosIn []) 0x96 false c 3 (ns3 d) (gosArgs c (gosIn []))) :=
  ⟨by decide +kernel,
    by unfold Gos Served; decide +kernel,
    by unfold Gos Served; decide +kernel⟩


theorem witness_NamespacesIndexAndRetentionClock :
    (let c := ncmd 3 0 (sqe 0xC1 0 0 0 0 0 0) .engine; let x := { gosIn [] with data := nsDesc 255 0 1 2 0 }; let s := { withNvq (host []) [c] [] [] with svc := { Svc.reset with ready := true, index := true } }; let d := padTo 256 x.data;
      NsAsked s 3 x 0xC1 true c ∧ c.nsid = 0 ∧ leAt d 0 1 = 0xFF ∧ (∀ m, m < 0 → (smFind s.svc.nss m).isSome = true) ∧
      smFind s.svc.nss 0 = none ∧ descOk d = true ∧ (s.pickFor d x.units).isSome = true ∧ s.pickFor d [] = none ∧ (geomKM (dGeom d)).1 + (geomKM (dGeom d)).2 ≤ s.spreadUnits x.units ∧ s.spreadUnits [1] < (geomKM (dGeom d)).1 + (geomKM (dGeom d)).2) ∧
    (∀ f ∈ [0xC6, 0xC9, 0xC4], let c := ncmd 3 0 (sqe f 5 0 0 0 0 0) .engine; let o := nsDesc 3 0 1 2 0; let s := objS c o [] []; let x := { gosIn [] with data := nsDesc 3 0 1 3 0 }; let d := patchB (padTo 256 x.data) 0 (leBytes 1 3)
      NsAsked s 3 x f (f ≠ 0xC6) c ∧ s.nsOf c.nsid = some (3, ns3 o) ∧ descOk d = true ∧ dCsi d = dCsi o ∧ leAt d 2 1 = leAt o 2 1 ∧ dPol d pEncrypt = dPol o pEncrypt ∧ dPol o pLocked = false ∧ s.guarded (s.nsVers 3) = none ∧ s.exporting 3 = false ∧ (s.pickFor d x.units).isSome = true ∧ (s.pickFor o x.units).isSome = true ∧ s.pickFor o [] = none) ∧
    (let c := ncmd 3 0 (sqe 0xC4 5 0 0 0 0 0) .engine; let o := nsDesc 3 0 1 18 0; let d := nsDesc 3 0 1 0 0; let s := objS c o [ver3 2 1 false true] [];
      NsAsked s 3 (gosIn []) 0xC4 true c ∧ s.guarded (s.nsVers 3) = some 5 ∧ dPol o pLocked = true ∧ lockedChange o d = false ∧ descOk d = true ∧
      lockedChange o o = true) ∧
    ((let c := ncmd 3 0 (sqe 0xC4 5 0 0 0 0 0) .engine; let s0 := objS c (nsDesc 3 0 1 2 0) [] []; let s := { s0 with svc := { s0.svc with export_ := some exp3 } };
      s.guarded (s.nsVers 3) = none ∧ s.exporting 3 = true ∧ (1 : W32).getLsbD 0 = true) ∧
    (let s := { withRegs [(Reg.OBJ_IDX_CTRL 7, 1), (Reg.OBJ_IDX_NODE_LO 7, 0x400000), (Reg.OBJ_IDX_NODE_LO 7 + 4, 0x100), (Reg.OBJ_IDX_KEY_LO 7, 0x410000), (Reg.OBJ_IDX_KEY_LO 7 + 4, 0x100)] State.reset with
      mem := { Mem.reset with sram := [(0x400000, 1), (0x400040, 1), (0x400048, 0x60), (0x410000, 1), (0x410008, 0x61)] } }; let node := s.reg64 (Reg.OBJ_IDX_NODE_LO 7) / 4096 * 4096; let kr := s.memRead (s.reg64 (Reg.OBJ_IDX_KEY_LO 7) / 8 * 8) 72; let cn := kr.2.2.memNat node 2;
      s.rbit (Reg.OBJ_IDX_CTRL 7) 0 = true ∧ kr.2.1 = false ∧ cn.2.1 = false ∧ cn.1 = 1 ∧ idxKey kr.1 = some [0x61] ∧
      (cn.2.2.idxLoop node [0x61] 0 cn.1 7).1 = some 1 ∧ (cn.2.2.idxLoop node [0x5F] 0 cn.1 7).1 = some 0) ∧
    (let s := withRegs [(Reg.OBJ_IDX_CTRL 7, 1), (Reg.OBJ_IDX_NODE_LO 7, 0x400000), (Reg.OBJ_IDX_NODE_LO 7 + 4, 0x100)] { State.reset with mem := { Mem.reset with sram := [(0x400000, 43)] } }; let node := s.reg64 (Reg.OBJ_IDX_NODE_LO 7) / 4096 * 4096; let kr := s.memRead (s.reg64 (Reg.OBJ_IDX_KEY_LO 7) / 8 * 8) 72;
      s.rbit (Reg.OBJ_IDX_CTRL 7) 0 = true ∧ 42 < (kr.2.2.memNat node 2).1) ∧
    (let s := withRegs [(Reg.OBJ_RCLOCK_LO, 0xFFFFFFFE), (Reg.OBJ_RCLOCK_HI, 0xFFFFFFFF)] State.reset;
      s.mayReg (.thread 4) Reg.OBJ_RCLOCK_HI = true ∧ s.rclock < 2 ^ 64 - 1 ∧ s.rclock + 1 = 2 ^ 64 - 1 ∧ State.reset.rclock < 1)) :=
  ⟨by unfold NsAsked Served; decide +kernel,
    by unfold NsAsked Served; decide +kernel,
    by unfold NsAsked Served; decide +kernel,
    by decide +kernel⟩



/-- Port 1 in dual-port mode with this state and these registers. -/
def port1 (l : List (Nat × W32)) (x : HifP) : State :=
  { withRegs ([(Reg.SYS_ROLE, 4), (Reg.SYS_STRAP, 4)] ++ l) State.reset with hif1 := x, mem := ready.mem }

theorem witness_PortsAreResetAndLinksChange :
    (let s := port1 [(Reg.HIF_PORT_LINK 1, 0x80000000)] HifP.reset;
      s.portLive 1 = true ∧ s.portLive 0 = true ∧ s.fw.resetDue = false ∧ (s.hp 1).reqs = [] ∧ (s.hp 1).inta = false ∧ (∀ c ∈ s.nvq.cmds, c.ctrl ≠ 1) ∧ s.rbit (Reg.HIF_PORT_LINK 1) 31 = true ∧
      (2 : Fin 3) ≠ 0 ∧ ({ s with pwr := { s.pwr with st := 1 } } : State).pwr.st = 1) ∧
    (let s := port1 [(Reg.HIF_CTRL, 0), (Reg.HIF_PORT_LINK 1, 0x80800000)] { HifP.reset with perst := false };
      s.portLive 1 = true ∧ (s.hp 1).perst = false ∧ s.rbit Reg.HIF_CTRL 1 = false ∧ s.fld (Reg.HIF_PORT_LINK 1) 23 2 ≠ 0 ∧ (1 : BitVec 3) ≠ 0 ∧ Quiet s 1) ∧
    ((let s := port1 [] { HifP.reset with perst := true };
      s.portLive 1 = true ∧ (s.hp 1).perst = true ∧ s.pwr.st ≤ 1) ∧
    (let s := host [];
      s.portLive 0 = true ∧ (s.ctl 0).cc.getLsbD 0 = true)) :=
  ⟨by decide +kernel,
    by unfold Quiet; decide +kernel,
    by decide +kernel⟩


theorem witness_HostRequestsAreAnswered :
    ((let s := port1 [(Reg.HIF_CTRL, 0)] { HifP.reset with perst := false };
      s.portLive 1 = true ∧ (s.hp 1).perst = false ∧ s.cfgReady 1 = false ∧ s.takesMem 1 = false) ∧
    (let s := port1 [(Reg.HIF_CTRL, 3)] { HifP.reset with perst := false, cfg := [(4, 2)] };
      s.portLive 1 = true ∧ (s.hp 1).perst = false ∧ s.cfgReady 1 = true ∧ s.takesMem 1 = true ∧ (4 * (0x3FF : BitVec 10).toNat) ∉ [0x308, 0x310, 0x314, 0x2C8] ∧
      4 * (0x3FF : BitVec 10).toNat ≠ 0x044 ∧ barAccess 0x3FFC 8 = false ∧ barAccess 0x3FFC 4 = true ∧ 4 * (0x3FF : BitVec 10).toNat ≠ 0x020 ∧ 4 * (0x3FF : BitVec 10).toNat ≠ 0x024 ∧ 4 * (0x3FF : BitVec 10).toNat ∉ [0x004, 0x050, 0x060, 0x098, 0x0B0] ∧ 4 * (0x008 : BitVec 10).toNat = 0x020 ∧ barDefined .bar0 0x1000 4 = true ∧ barDefined .bar0 0x14 4 = true ∧ barDefined .bar2 0x3FFC 4 = false ∧ barAccess 0x1010 8 = true ∧ barDefined .bar2 0x10 8 = true ∧
      (0x17F8 : BitVec 14).toNat = 0x1000 + 8 * (255 : W8).toNat ∧ (0x80C : BitVec 14).toNat ≤ 0x80C ∧ (s.cfg 1 0x0B0).getLsbD 31 = false ∧ (s.cfg 1 0x050).getLsbD 16 = false) ∧
    (let s := { port1 [(Reg.HIF_PORT_PW_COMMIT 1, 1), (Reg.HIF_PORT_PW_LIMIT 1, 1024)] { HifP.reset with cfg := [(4, 2)] } with active := [(Reg.HIF_PORT_PW_LIMIT 1, 32)] };
      s.portLive 1 = true ∧ s.takesMem 1 = true ∧ (0x3FFFFFF : BitVec 33).toNat < s.bar4Size 1 ∧ (0x2000000 : BitVec 33).toNat < s.bar4Size 1 ∧ (0x1FFFFFF : BitVec 33).toNat < s.pwLimit 1 ∧ s.bar4Size 1 ≤ (0x4000000 : BitVec 33).toNat ∧
      s.pwLimit 1 ≤ (0x2000000 : BitVec 33).toNat ∧ s.rbit (Reg.HIF_PORT_PW_COMMIT 1) 0 = true ∧ s.reg64 (Reg.HIF_PORT_PW_BASE_LO 1) + min 8192 (s.fld (Reg.HIF_PORT_PW_LIMIT 1) 0 14) * 2 ^ 20 ≤ s.dramSize ∧ s.isBase = true)) ∧
    (let s := port1 [(Reg.HIF_PORT_PW_COMMIT 1, 1), (Reg.HIF_PORT_PW_LIMIT 1, 1025)] HifP.reset;
      s.portLive 1 = true ∧ s.dramSize < s.reg64 (Reg.HIF_PORT_PW_BASE_LO 1) + min 8192 (s.fld (Reg.HIF_PORT_PW_LIMIT 1) 0 14) * 2 ^ 20) :=
  ⟨by decide +kernel,
    by decide +kernel⟩


theorem witness_CompletionsAndDataObjects :
    (let r : HReq := ⟨5, 0x1000, 8, 31, 0, [1, 2]⟩; let s := port1 [(Reg.HIF_CTRL, 3)] { HifP.reset with reqs := [r], silent := [6] };
      s.portLive 1 = true ∧ (s.hp 1).reqs.find? (fun r => r.tag == (5 : W16).toNat) = some r ∧ (r.got ++ [1, 2, 3, 4, 5]).length < r.len ∧
      r.len ≤ (r.got ++ [1, 2, 3, 4, 5, 6]).length ∧ (s.hp 1).reqs.find? (fun r => r.tag == (6 : W16).toNat) = none ∧ (s.hp 1).silent.contains (6 : W16).toNat = true ∧ (s.hp 1).silent.contains (7 : W16).toNat = false ∧ s.cfgReady 1 = true ∧
      doeWellFormed [0, 3] = false ∧ doeWellFormed [1, 3, 0] = true ∧ doeKnown [1, 3, 0] = true ∧ doeKnown [2, 3, 0] = false ∧ doeProto [2, 3, 0] ∉ [(1, 0), (1, 1), (0x1CF7, 1)] ∧ doeWellFormed [2, 3, 0] = true ∧ CplStatus.retry ∉ [.ok, .malformed, .bufferError]) :=
  by decide +kernel




/-- A part in this power state with these registers. -/
def pow (p : Pwr) (l : List (Nat × W32)) : State := { withRegs l State.reset with pwr := p }

theorem witness_PowerStatesKindlingAndResets :
    ((let s := pow { Pwr.reset with target := some 2 } [];
      s.pwr.st < 3 ∧ s.pwr.target = some 2 ∧ s.pwr.next = none ∧ 2 ≤ 2 ∧ s.allWait = false) ∧
    (let s := pow Pwr.reset [];
      s.pwr.st < 3 ∧ s.pwr.target = none ∧ getF (0 : W32) 0 2 = s.pwr.st ∧ getF (3 : W32) 0 2 ≠ s.pwr.st ∧ getF (3 : W32) 0 2 ≠ 0 ∧ s.pwr.pwrEn = true) ∧
    (let s := pow { Pwr.reset with st := 1 } [(Reg.MCA_CTRL 1, 1)];
      s.pwr.target = none ∧ s.pwr.st = 1 ∧ getF (0 : W32) 0 2 = 0 ∧ s.pwrFail 2 = some 1 ∧ s.pwrFail 1 = some 1) ∧
    (let s := pow { Pwr.reset with target := some 1 } [(Reg.MCA_CTRL 1, 1)];
      s.pwr.target = some 1 ∧ s.pwr.next = none ∧ s.pwr.st ≤ 3 ∧ s.pwrFail 1 = some 1) ∧
    (let s := pow { Pwr.reset with target := some 1 } [(Reg.MCA_CTRL 0, 0), (Reg.MCA_CTRL 1, 0), (Reg.GYL_CTRL, 0)];
      s.pwr.target = some 1 ∧ s.pwrFail 1 = none) ∧
    (let s := pow { Pwr.reset with target := some 3 } [(Reg.SYS_CAMP_RUN 5, 0), (Reg.MCA_CTRL 0, 0), (Reg.MCA_CTRL 1, 0), (Reg.GYL_CTRL, 0), (Reg.CSC_CTRL, 0)];
      s.pwr.target = some 3 ∧ s.pwr.next = none ∧ s.allWait = true ∧ s.pwrFail 3 = none ∧ s.pwrFail 2 = none ∧ s.pwr.pwrEn = true) ∧
    (let s := pow { Pwr.reset with st := 2 } [];
      s.pwr.st = 2 ∧ s.wakeOn (10 : Fin 11) = true ∧ s.wakeHolds (10 : Fin 11) = true ∧ (10 : Fin 11) ≠ 7) ∧
    (let s := pow { Pwr.reset with st := 3, pwrEn := false } [(Reg.EMB_WAKE_EN, 1)];
      s.pwr.st = 3 ∧ s.wakeOn (0 : Fin 11) = true ∧ s.wakeHolds (0 : Fin 11) = true ∧ (0 : Fin 11).val < 8 ∧ s.tripHeld = false ∧ s.pwr.por = false ∧ s.pwr.pwrEn = false)) ∧
    ((let s := pow { Pwr.reset with st := 3, pwrEn := false, por := true } [];
      s.pwr.st = 3 ∧ s.tripHeld = false ∧ s.pwr.pwrEn = false ∧ s.pwr.por = true) ∧
    (let s := pow { Pwr.reset with st := 3, pwrEn := false, due := true, retry := true } [];
      s.pwr.st = 3 ∧ s.tripHeld = false ∧ s.pwr.pwrEn = false ∧ s.pwr.por = false ∧ s.pwr.due = true ∧ s.pwr.retry = true)) ∧
    (let s := pow { Pwr.reset with st := 3, tries := 2 } [];
      s.pwr.st = 3 ∧ s.pwr.pwrEn = true ∧ 2 ≤ s.pwr.tries ∧ Canon s) ∧
    (let s := pow Pwr.reset [];
      s.pwr.st < 3 ∧ s.pwr.pwrEn = true ∧ Canon s ∧ getF (0xA5C30001 : W32) 16 16 = 0xA5C3 ∧ (0xA5C30001 : W32).getLsbD 0 = true ∧ s.pwr.st ≠ 3 ∧ s.pwr.trip = false ∧ s.pwr.rst = none ∧ s.rbit Reg.SYS_WDOG 31 = false ∧ s.pwr.tripDue = false) ∧
    ((let r : RstSeq := ⟨true, 4, false, false, true⟩; let s := pow { Pwr.reset with rst := some r } [(Reg.GYL_ACT_QUAL 1, 0x40)];
      s.pwr.rst = some r ∧ s.pwr.st ≠ 3 ∧ s.pwr.trip = false ∧ s.retracting 1 = true) ∧
    (let r : RstSeq := ⟨true, 4, false, false, true⟩; let s := pow { Pwr.reset with rst := some r } [];
      s.pwr.rst = some r ∧ s.gs.dump = none ∧ s.retracting 0 = false ∧ s.retracting 1 = false ∧ r.sb = true) ∧
    (let s := pow Pwr.reset [(Reg.SYS_WDOG, 0xC0000001)];
      s.rbit Reg.SYS_WDOG 31 = true ∧ (∀ e ∈ s.thrs, e.2.dbg = false) ∧ s.rbit Reg.SYS_WDOG 30 = true ∧ s.pwr.st ≠ 3 ∧ s.pwr.trip = false ∧ s.pwr.rst = none ∧ (pow Pwr.reset [(Reg.SYS_WDOG, 0x80000001)]).rbit Reg.SYS_WDOG 30 = false)) ∧
    (let s := pow { Pwr.reset with tripDue := true } [];
      s.pwr.st ≠ 3 ∧ s.pwr.trip = false ∧ s.pwr.tripDue = true ∧ s.pwr.pwrEn = true ∧ Canon s) ∧
    ((let s := pow { Pwr.reset with trip := true } [(Reg.GYL_ACT_QUAL 0, 0x40)];
      s.pwr.st ≠ 3 ∧ s.pwr.trip = true ∧ s.retracting 0 = true) ∧
    (let s := pow { Pwr.reset with st := 3, pwrEn := false, cool := 100 } [(Reg.EMB_TRIP, 0xC0000000), (Reg.EMB_CLK, 0)];
      s.pwr.st = 3 ∧ s.tripHeld = true ∧ s.pwr.ds7Broken = false ∧ s.coolNeed ≤ s.pwr.cool ∧ s.pwr.por = false ∧ s.pwr.pwrEn = false ∧ s.pwr.due = false) ∧
    (let s := pow { Pwr.reset with st := 3, pwrEn := false, cool := 99 } [(Reg.EMB_TRIP, 0xC0000000)];
      s.pwr.st = 3 ∧ s.tripHeld = true ∧ s.pwr.ds7Broken = false ∧ s.pwr.cool < s.coolNeed)) :=
  ⟨by decide +kernel,
    by decide +kernel,
    by unfold Canon; decide +kernel,
    by unfold Canon; decide +kernel,
    by decide +kernel,
    by unfold Canon; decide +kernel,
    by decide +kernel⟩


/-- Eight samples of the die sensors at 135 °C. -/
def hotDie : W128 := BitVec.ofNat 128 ((List.range 8).foldl (fun n i => n + 2160 * 2 ^ (16 * i)) 0)

theorem witness_ClocksSensorsAndFirewood :
    ((let s := pow Pwr.reset [];
      s.pwr.st < 3 ∧ (s.mem.refNext.map (·.2)).getD (s.fld Reg.MEM_REF 0 3) < 8 ∧ s.boostOk = s.rbit Reg.SYS_CLK 1 ∧ (pow Pwr.reset [(Reg.EMB_CLK, 0)]).rbit Reg.EMB_CLK 0 = false) ∧
    (let s := pow Pwr.reset [(Reg.SYS_CLK, 1), (Reg.THM_THROT, 0), (Reg.THM_BANDS, 0), (Reg.THM_FW_ACCT, 10000)];
      s.pwr.st < 2 ∧ s.boostOk ≠ s.rbit Reg.SYS_CLK 1) ∧
    (let s := pow { Pwr.reset with adc := 17 } [(Reg.THM_EXT_CFG 9, 0x60000000), (Reg.THM_CH 17, 0x20000000)];
      s.pwr.st < 3 ∧ s.pwr.adc < 18 ∧ s.rbit (Reg.THM_EXT_CFG (extIx s.pwr.adc)) 29 = true ∧ s.rbit (Reg.THM_CH 17) 30 = false ∧
      s.roundBad 17 ((3200 : W16).toInt + sgnF (s.reg (Reg.THM_EXT_CFG 9)) 0 16) = false ∧ s.roundBad 17 ((3201 : W16).toInt + sgnF (s.reg (Reg.THM_EXT_CFG 9)) 0 16) = true ∧ 2 ≤ s.fld (Reg.THM_CH 17) 28 2) ∧
    (let s := pow { Pwr.reset with adc := 8 } [(Reg.THM_EXT_CFG 0, 0)];
      s.pwr.st < 3 ∧ 8 ≤ s.pwr.adc ∧ s.pwr.adc < 18 ∧ s.rbit (Reg.THM_EXT_CFG (extIx s.pwr.adc)) 29 = false) ∧
    (let s := pow { Pwr.reset with adc := 23, supply := [(23, 1)] } [];
      s.pwr.st < 3 ∧ 18 ≤ s.pwr.adc ∧ s.pwr.adc ≤ 23 ∧ 105 * nominal 23 < 100 * (1891 : W16).toNat ∧ ¬ (100 * (1890 : W16).toNat < 95 * nominal 23 ∨ 105 * nominal 23 < 100 * (1890 : W16).toNat) ∧
      1 ≤ smGet (fun _ => 0) s.pwr.supply 23) ∧
    (let s := pow { Pwr.reset with hotRun := [(7, 1)] } ((List.range 8).map fun i => (Reg.THM_CH i, 0x80000000)); let x := fun (i : Nat) => (hotDie.extractLsb' (16 * i) 16).toInt;
      s.pwr.st < 3 ∧ (∀ i, i < 8 → s.chValid i = true ∧ outOfRange (x i) = false ∧ smFind s.pwr.last i = none) ∧
      s.pwr.trip = false ∧ 2160 ≤ x 7 ∧ 1 ≤ smGet (fun _ => 0) s.pwr.hotRun 7)) ∧
    ((let s := pow { Pwr.reset with st := 3 } [(Reg.EMB_TRIP, 0x80000000)];
      s.pwr.st = 3 ∧ s.tripHeld = true) ∧
    (let s := pow Pwr.reset [(Reg.EMB_ALARM_LO, 1)];
      s.rtc + 1 < 2 ^ 64 ∧ s.reg64 Reg.EMB_ALARM_LO = s.rtc + 1 ∧ (pow Pwr.reset []).pwr.due = false ∧ (pow Pwr.reset []).reg64 Reg.EMB_ALARM_LO = 0)) :=
  ⟨by decide +kernel,
    by decide +kernel⟩



/-! ### Ranger's command block and buffer in DRAM behind a clean cache -/

/-- Listed bytes from address `a` on. -/
def cellsAt (a : Nat) (l : List W8) : List Host.Cell :=
  match l with
  | [] => []
  | b :: t => (a, b) :: cellsAt (a + 1) t

/-- The command that runs, its block at 0x1000. -/
def secCmd (code : Nat) : SecCmd := ⟨code, 0x1000, none, 0, false⟩

/-- Ranger has `code` to perform with BUF 0x2000, this LEN and ARG0, and these bytes at BUF. -/
def secS (code len arg0 : Nat) (data : List W8) (x : State) : State :=
  { x with
    sec := { x.sec with cmd := some (secCmd code) }, hif0 := HifP.reset, hif1 := HifP.reset
    mem := { Mem.reset with ready := true, capMib := 1024, prot := false
                            dram := cellsAt 0x1000 (leBytes 8 0x2000 ++ leBytes 4 len ++ leBytes 4 arg0 ++ leBytes 4 0) ++ cellsAt 0x2000 data } }

/-- A state with these registers and this state of Ranger. -/
def rgr (x : Sec) (l : List (Nat × W32)) : State := { withRegs l State.reset with sec := x }

/-- Bytes of DRAM as stored. -/
def dramAt (s : State) (a n : Nat) : List W8 := readCells Config.dramByte s.mem.dram a n

theorem secS_clean (code len arg0 : Nat) (data : List W8) (x : State) : (secS code len arg0 data x).Clean :=
  ⟨rfl, rfl, rfl, rfl, rfl, fun _ h => absurd h List.not_mem_nil, fun _ h => absurd h List.not_mem_nil⟩

theorem calm_sec {s u : State} (h : s.Calm u) : u.sec = s.sec := by rw [h.eq]
theorem calm_dch {s u : State} (h : s.Calm u) : u.dch = s.dch := by rw [h.eq]
theorem calm_dram {s u : State} (h : s.Calm u) : u.mem.dram = s.mem.dram := by rw [h.eq]
theorem calm_inDram {s u : State} (h : s.Calm u) (a n : Nat) : u.inDram a n = s.inDram a n := by rw [h.eq]; rfl
theorem calm_dramBytes {s u : State} (h : s.Calm u) : u.dramBytes = s.dramBytes := by rw [h.eq]; rfl
theorem calm_fld {s u : State} (h : s.Calm u) (o : Nat) (ho : ∀ i, i < 4 → o ≠ Reg.CCH_CNT i) (lo len : Nat) : u.fld o lo len = s.fld o lo len := by
  unfold State.fld; rw [h.regs o ho]
theorem calm_lc {s u : State} (h : s.Calm u) (lo len : Nat) : u.fld Reg.SEC_LC lo len = s.fld Reg.SEC_LC lo len := calm_fld h _ (by decide) _ _
theorem calm_lcNow {s u : State} (h : s.Calm u) : u.lcNow = s.lcNow := calm_lc h _ _
theorem calm_svn {s u : State} (h : s.Calm u) : u.fld Reg.SEC_SVN 8 8 = s.fld Reg.SEC_SVN 8 8 := calm_fld h _ (by decide) _ _
theorem calm_strap {s u : State} (h : s.Calm u) : u.fld Reg.SYS_STRAP 0 2 = s.fld Reg.SYS_STRAP 0 2 := calm_fld h _ (by decide) _ _
theorem calm_lc7 {s u : State} (h : s.Calm u) : u.rbit Reg.SEC_LC 7 = s.rbit Reg.SEC_LC 7 := by
  unfold State.rbit; rw [h.regs _ (by decide)]

theorem secS_turn (code len arg0 : Nat) (data : List W8) (x : State) : (secS code len arg0 data x).rangerTurn 0 = true := by
  have h (n : Nat) : (secS code len arg0 data x).doeNext n = none := by
    have : ((secS code len arg0 data x).doe n).wait = [] := by unfold State.doe State.hp; split <;> rfl
    unfold State.doeNext
    dsimp only
    rw [this]; split <;> rfl
  unfold State.rangerTurn
  simp only [List.all_cons, List.all_nil, h]
  rfl

/-- The block of `code` is read and the state after meets `P`. -/
def BlockAt (code len arg0 : Nat) (data : List W8) (x : State) (P : State → Prop) : Prop :=
  ∃ u, SecBlock (secS code len arg0 data x) code (secCmd code) (dramAt (secS code len arg0 data x) 0x1000 64) u ∧ P u

theorem blockAt (code len arg0 : Nat) (data : List W8) (x : State) (P : State → Prop)
    (h : ∀ u, (secS code len arg0 data x).Calm u → u.Clean → P u) : BlockAt code len arg0 data x P := by
  obtain ⟨u, e, p, q⟩ := State.secRead_clean (secS_clean code len arg0 data x) 0x200 8 (by decide) (by
    exact (by decide : decide (8 * 0x200 + 8 * 8 ≤ 1024 * 2 ^ 20) = true))
  exact ⟨u, ⟨rfl, rfl, rfl, secS_turn .., e⟩, h u p q⟩

/-- And `8 * n` bytes at BUF are read from there. -/
def BufAt (code len arg0 n : Nat) (data : List W8) (x : State) (P : State → List W8 → State → Prop) : Prop :=
  BlockAt code len arg0 data x fun u => ∃ v, u.secRead (blkBuf (dramAt (secS code len arg0 data x) 0x1000 64)) (8 * n) =
    (some (dramAt (secS code len arg0 data x) 0x2000 (8 * n)), v) ∧ P u (dramAt (secS code len arg0 data x) 0x2000 (8 * n)) v

theorem readCells_listed (d : Nat → W8) (t : List W8) : ∀ (a : Nat) (m r : List Host.Cell), (∀ e ∈ m, e.1 < a) →
    readCells d (m ++ (cellsAt a t ++ r)) a t.length = t := by
  induction t with
  | nil => intro a m r _; rfl
  | cons b t ih =>
    intro a m r hm
    have hf : ∀ (m : List Host.Cell), (∀ e ∈ m, e.1 < a) → smFind (m ++ ((a, b) :: (cellsAt (a + 1) t ++ r))) a = some b := by
      intro m
      induction m with
      | nil => intro _; simp [smFind]
      | cons e m im =>
        intro h
        have h1 := h e (List.mem_cons_self ..)
        obtain ⟨j, w⟩ := e
        simp only at h1
        simp only [List.cons_append, smFind]
        rw [if_neg (by omega), if_neg (by omega)]
        exact im (fun e he => h e (List.mem_cons_of_mem _ he))
    have e1 : m ++ (cellsAt a (b :: t) ++ r) = (m ++ [(a, b)]) ++ (cellsAt (a + 1) t ++ r) := by simp [cellsAt]
    simp only [List.length_cons, readCells, smGet]
    congr 1
    · rw [show m ++ (cellsAt a (b :: t) ++ r) = m ++ ((a, b) :: (cellsAt (a + 1) t ++ r)) by simp [cellsAt], hf m hm]; rfl
    · rw [e1]
      refine ih (a + 1) (m ++ [(a, b)]) r ?_
      intro e he
      rcases List.mem_append.mp he with he | he
      · have := hm e he; omega
      · rw [List.mem_singleton] at he; rw [he]; exact Nat.lt_succ_self a

theorem mem_cellsAt_lt (l : List W8) : ∀ (a : Nat) (e : Host.Cell), e ∈ cellsAt a l → e.1 < a + l.length := by
  induction l with
  | nil => intro a e h; exact absurd h List.not_mem_nil
  | cons b t ih =>
    intro a e h
    rcases List.mem_cons.mp h with h | h
    · rw [h]; simp
    · have := ih (a + 1) e h
      simp only [List.length_cons]; omega

/-- The first bytes of the block and of the buffer are the ones listed. -/
theorem dramAt_block (code len arg0 : Nat) (data : List W8) (x : State) :
    dramAt (secS code len arg0 data x) 0x1000 20 = leBytes 8 0x2000 ++ leBytes 4 len ++ leBytes 4 arg0 ++ leBytes 4 0 := by
  have hl : (leBytes 8 0x2000 ++ leBytes 4 len ++ leBytes 4 arg0 ++ leBytes 4 0).length = 20 := by simp [length_leBytes]
  have := readCells_listed Config.dramByte (leBytes 8 0x2000 ++ leBytes 4 len ++ leBytes 4 arg0 ++ leBytes 4 0) 0x1000 [] (cellsAt 0x2000 data)
    (fun _ h => absurd h List.not_mem_nil)
  rw [hl] at this
  exact this

theorem dramAt_buf (code len arg0 : Nat) (data : List W8) (x : State) (n : Nat) (h : data.length ≤ n) :
    dramAt (secS code len arg0 data x) 0x2000 n = data ++ dramAt (secS code len arg0 data x) (0x2000 + data.length) (n - data.length) := by
  have := readCells_listed Config.dramByte data 0x2000 (cellsAt 0x1000 (leBytes 8 0x2000 ++ leBytes 4 len ++ leBytes 4 arg0 ++ leBytes 4 0)) []
    (fun e he => by
      have := mem_cellsAt_lt _ _ _ he
      simp only [List.length_append, length_leBytes] at this
      omega)
  rw [List.append_nil] at this
  conv => lhs; rw [show n = data.length + (n - data.length) by omega]
  unfold dramAt
  rw [readCells_add]
  congr 1

theorem leAt_append_left (a b : List W8) (o n : Nat) (h : o + n ≤ a.length) : leAt (a ++ b) o n = leAt a o n := by
  unfold leAt sliceB
  rw [List.drop_append_of_le_length (by omega), List.take_append_of_le_length (by rw [List.length_drop]; omega)]

theorem leAt_dramAt (s : State) (a n k o m : Nat) (h : o + m ≤ n) (hk : n ≤ k) : leAt (dramAt s a k) o m = leAt (dramAt s a n) o m := by
  unfold dramAt
  rw [show k = n + (k - n) by omega, readCells_add, leAt_append_left _ _ _ _ (by rw [length_readCells]; omega)]

/-- BUF, LEN and ARG0 of that block. -/
theorem blkBuf_secS (code len arg0 : Nat) (data : List W8) (x : State) :
    blkBuf (dramAt (secS code len arg0 data x) 0x1000 64) = 0x2000 := by
  unfold blkBuf
  rw [leAt_dramAt _ _ 20 _ _ _ (by decide) (by decide), dramAt_block]
  rw [List.append_assoc, List.append_assoc, leAt_append_left _ _ _ _ (by rw [length_leBytes])]
  decide

theorem blkArg0_secS (code len arg0 : Nat) (data : List W8) (x : State) (h : arg0 < 2 ^ 32) :
    blkArg0 (dramAt (secS code len arg0 data x) 0x1000 64) = arg0 := by
  unfold blkArg0
  rw [leAt_dramAt _ _ 20 _ _ _ (by decide) (by decide), dramAt_block]
  have := sliceB_mid (leBytes 8 0x2000 ++ leBytes 4 len) (leBytes 4 arg0) (leBytes 4 0)
  simp only [List.length_append, length_leBytes, Nat.reduceAdd] at this
  unfold leAt
  rw [List.append_assoc, this, ofLe_leBytes _ _ (by omega)]

theorem blkLen_secS (code len arg0 : Nat) (data : List W8) (x : State) (h : len < 2 ^ 32) :
    leAt (dramAt (secS code len arg0 data x) 0x1000 64) 8 4 = len := by
  rw [leAt_dramAt _ _ 20 _ _ _ (by decide) (by decide), dramAt_block]
  have := sliceB_mid (leBytes 8 0x2000) (leBytes 4 len) (leBytes 4 arg0 ++ leBytes 4 0)
  simp only [length_leBytes] at this
  unfold leAt
  rw [List.append_assoc, List.append_assoc, this, ofLe_leBytes _ _ (by omega)]

theorem bufAt (code len arg0 n : Nat) (data : List W8) (x : State) (P : State → List W8 → State → Prop)
    (hn : 0 < n) (hn' : 8 * n ≤ 0x100000)
    (h : ∀ u v, (secS code len arg0 data x).Calm u → (secS code len arg0 data x).Calm v →
      P u (dramAt (secS code len arg0 data x) 0x2000 (8 * n)) v) : BufAt code len arg0 n data x P := by
  refine blockAt _ _ _ _ _ _ fun u p q => ?_
  obtain ⟨v, e, p', q'⟩ := State.secRead_clean q 0x400 n hn (by
    rw [calm_inDram p]
    show decide (8 * 0x400 + 8 * n ≤ 1024 * 2 ^ 20) = true
    exact decide_eq_true (by omega))
  refine ⟨v, ?_, h u v p (p.trans p')⟩
  rw [blkBuf_secS, e, calm_dram p]
  rfl

theorem length_dramAt (s : State) (a n : Nat) : (dramAt s a n).length = n := length_readCells _ _ _ _

theorem length_shaFold (l : List W64) : ∀ h : List W64, h.length = 8 → (l.foldl shaRound h).length = 8 := by
  induction l with
  | nil => intro h hh; exact hh
  | cons a t ih => intro h _; exact ih _ rfl

theorem length_shaBlocks (n : Nat) : ∀ (h : List W64) (l : List W8), h.length = 8 → (shaBlocks h l n).1.length = 8 := by
  induction n with
  | zero => intro h l hh; exact hh
  | succ n ih =>
    intro h l hh
    simp only [shaBlocks]
    split
    · exact hh
    · refine ih _ _ ?_
      simp only [shaBlock, List.length_zipWith, hh]
      rw [length_shaFold _ _ hh]; rfl

theorem length_sha384 (m : List W8) : (sha384 m).length = 48 := by
  have h : ∀ (h : List W64) (r : List W8) (n : Nat), h.length = 8 → (sha384Final h r n).length = 48 := by
    intro h r n hh
    have := length_shaBlocks 3 h (r ++ [0x80] ++ List.replicate ((239 - r.length % 128) % 128) 0 ++ beBytes 16 (8 * n)) hh
    unfold sha384Final
    dsimp only
    generalize (shaBlocks h (r ++ [0x80] ++ List.replicate ((239 - r.length % 128) % 128) 0 ++ beBytes 16 (8 * n)) 3).1 = w at this ⊢
    match w, this with
    | [a, b, c, d, e, f, g, i], _ => simp [length_beBytes]
  have hb := length_shaBlocks (m.length / 128 + 1) sha384Iv m rfl
  unfold sha384
  generalize shaBlocks sha384Iv m (m.length / 128 + 1) = p at hb ⊢
  obtain ⟨a, b⟩ := p
  exact h a b _ hb

theorem wrapBlob_epochs {s t : State} (h : t.sec.epochs = s.sec.epochs) (k : BitVec 512) : t.wrapBlob k = s.wrapBlob k := by
  unfold State.wrapBlob State.mediaKek State.epochSalt State.epochIx
  rw [h]

/-- The blob of key 5 under the factory's EPOCH. -/
def blob5 : List W8 := State.reset.wrapBlob 5

theorem length_blob5 : blob5.length = 80 := by
  unfold blob5 State.wrapBlob
  rw [List.length_append, length_keyWrap]; rfl

theorem unwrap_blob5 (code len arg0 : Nat) (x v : State) (h : (secS code len arg0 blob5 x).Calm v) (hx : x.sec.epochs = []) :
    v.unwrapBlob (dramAt (secS code len arg0 blob5 x) 0x2000 80) = .key 5 := by
  have hv : v.sec.epochs = [] := (congrArg Sec.epochs (calm_sec h)).trans hx
  rw [dramAt_buf _ _ _ _ _ _ (by rw [length_blob5]), length_blob5]
  unfold dramAt
  rw [show (80 : Nat) - 80 = 0 from rfl, readCells, List.append_nil]
  unfold blob5
  rw [← wrapBlob_epochs (s := State.reset) (t := v) (hv.trans rfl)]
  refine unwrapBlob_wrapBlob v 5 ?_
  unfold State.epochIx
  rw [hv]; decide

/-- Three bytes that are not a blob's first. -/
theorem unwrap_format (code len arg0 : Nat) (x v : State) (_ : (secS code len arg0 [0, 0, 0] x).Calm v) :
    v.unwrapBlob (dramAt (secS code len arg0 [0, 0, 0] x) 0x2000 80) = .format := by
  rw [dramAt_buf _ _ _ _ _ _ (by decide)]
  unfold State.unwrapBlob
  rw [if_pos]
  left
  rw [leAt_append_left _ _ _ _ (by decide)]
  decide

/-- The first eight bytes of a blob of EPOCH 9. -/
theorem unwrap_badKey (code len arg0 : Nat) (x v : State) (h : (secS code len arg0 [0x4D, 0x4B, 1, 9, 0, 0, 0, 0] x).Calm v)
    (hx : x.sec.epochs = []) : v.unwrapBlob (dramAt (secS code len arg0 [0x4D, 0x4B, 1, 9, 0, 0, 0, 0] x) 0x2000 80) = .badKey := by
  have hv : v.sec.epochs = [] := (congrArg Sec.epochs (calm_sec h)).trans hx
  rw [dramAt_buf _ _ _ _ _ _ (by decide)]
  unfold State.unwrapBlob State.epochIx
  rw [hv, leAt_append_left _ _ _ _ (by decide), leAt_append_left _ _ _ _ (by decide), leAt_append_left _ _ _ _ (by decide)]
  rfl

theorem calm_keysDenied {s u : State} (h : s.Calm u) : u.keysDenied = s.keysDenied := by
  unfold State.keysDenied
  rw [calm_lcNow h, calm_sec h]

theorem calm_exportOk {s u : State} (h : s.Calm u) : u.exportOk = s.exportOk := by
  unfold State.exportOk
  rw [calm_lcNow h, calm_lc7 h, calm_keysDenied h]

theorem witness_RangerPerformsItsCommands_mem :
    (let c : SecCmd := ⟨4, 0x40000000, none, 0, false⟩; let s : State := { rgr { Sec.reset with cmd := some c } [] with mem := ready.mem };
      s.sec.cmd = some c ∧ c.code = 4 ∧ c.result = none ∧ s.rangerTurn c.seq = true ∧ s.secRead 0x40000000 64 = (none, s)) :=
  ⟨rfl, rfl, rfl, by decide +kernel, by decide +kernel⟩

theorem witness_RangerPerformsItsCommands_provision :
    BlockAt 4 0 0 [] (rgr Sec.reset [(Reg.SEC_LC, 1)]) (fun u => u.lcNow ≠ 0) ∧
    BufAt 4 0 0 30 [] (rgr Sec.reset []) (fun u _ v => u.lcNow = 0 ∧ v.sec.ckeyImg = none ∧ v.sec.ckeyTok = none) :=
  ⟨blockAt _ _ _ _ _ _ fun u h _ => by rw [calm_lcNow h]; decide +kernel,
   bufAt _ _ _ _ _ _ _ (by decide) (by decide) fun u v h k => by rw [calm_lcNow h, calm_sec k]; decide +kernel⟩

theorem witness_RangerPerformsItsCommands_seal :
    BlockAt 5 0 0 [] (rgr Sec.reset [(Reg.SEC_LC, 1)]) (fun u => u.lcNow ≠ 0) ∧
    BlockAt 5 0 0 [] (rgr Sec.reset []) (fun u => u.sec.prov = false) ∧
    BlockAt 5 0 0 [] (rgr { Sec.reset with ckeyImg := some [1], ckeyTok := some [2] } []) (fun u => u.lcNow = 0 ∧ u.sec.prov = true) :=
  ⟨blockAt _ _ _ _ _ _ fun u h _ => by rw [calm_lcNow h]; decide +kernel,
   blockAt _ _ _ _ _ _ fun u h _ => by rw [calm_sec h]; decide +kernel,
   blockAt _ _ _ _ _ _ fun u h _ => by rw [calm_lcNow h, calm_sec h]; decide +kernel⟩

theorem witness_RangerPerformsItsCommands_return :
    BlockAt 6 0 0 [] (rgr Sec.reset [(Reg.SEC_LC, 3)]) (fun u => u.lcNow = 3) ∧
    BlockAt 6 0 0 [] (rgr Sec.reset [(Reg.SEC_LC, 2)]) (fun u => u.lcNow ≠ 0 ∧ u.sec.returnOk = false) ∧
    BlockAt 6 0 0 [] (rgr Sec.reset []) (fun u => u.lcNow = 0) ∧
    BlockAt 6 0 0 [] (rgr { Sec.reset with returnOk := true } [(Reg.SEC_LC, 2)]) (fun u => u.lcNow ≠ 3 ∧ u.sec.returnOk = true) :=
  ⟨blockAt _ _ _ _ _ _ fun u h _ => by rw [calm_lcNow h]; decide +kernel,
   blockAt _ _ _ _ _ _ fun u h _ => by rw [calm_lcNow h, calm_sec h]; decide +kernel,
   blockAt _ _ _ _ _ _ fun u h _ => by rw [calm_lcNow h]; decide +kernel,
   blockAt _ _ _ _ _ _ fun u h _ => by rw [calm_lcNow h, calm_sec h]; decide +kernel⟩

theorem witness_RangerPerformsItsCommands_svn :
    BlockAt 7 0 5 [] (rgr Sec.reset [(Reg.SEC_SVN, 0x500)]) (fun u => u.lcNow ≠ 1 ∧ u.lcNow ≠ 2) ∧
    BlockAt 7 0 6 [] (rgr Sec.reset [(Reg.SEC_LC, 1), (Reg.SEC_SVN, 0x500)]) (fun u => u.fld Reg.SEC_SVN 8 8 < blkArg0 (dramAt (secS 7 0 6 [] (rgr Sec.reset [(Reg.SEC_LC, 1), (Reg.SEC_SVN, 0x500)])) 0x1000 64)) ∧
    BlockAt 7 0 5 [] (rgr Sec.reset [(Reg.SEC_LC, 1), (Reg.SEC_SVN, 0x500)]) (fun u => u.lcNow = 1 ∧ blkArg0 (dramAt (secS 7 0 5 [] (rgr Sec.reset [(Reg.SEC_LC, 1), (Reg.SEC_SVN, 0x500)])) 0x1000 64) ≤ u.fld Reg.SEC_SVN 8 8 ∧ u.sec.minSvn < 256) :=
  ⟨blockAt _ _ _ _ _ _ fun u h _ => by rw [calm_lcNow h]; decide +kernel,
   blockAt _ _ _ _ _ _ fun u h _ => by rw [calm_svn h, blkArg0_secS _ _ _ _ _ (by decide)]; decide +kernel,
   blockAt _ _ _ _ _ _ fun u h _ => by rw [calm_lcNow h, calm_svn h, calm_sec h, blkArg0_secS _ _ _ _ _ (by decide)]; decide +kernel⟩

theorem witness_RangerPerformsItsCommands_gen :
    BlockAt 16 0 0 [] (rgr Sec.reset [(Reg.SEC_LC, 3)]) (fun u => u.keysDenied = true) ∧
    BlockAt 16 0 64 [] (rgr Sec.reset []) (fun u => u.keysDenied = false ∧ 63 < blkArg0 (dramAt (secS 16 0 64 [] (rgr Sec.reset [])) 0x1000 64)) ∧
    BlockAt 16 0 63 [] (rgr Sec.reset []) (fun u => u.keysDenied = false ∧ blkArg0 (dramAt (secS 16 0 63 [] (rgr Sec.reset [])) 0x1000 64) ≤ 63 ∧ u.inDram (blkBuf (dramAt (secS 16 0 63 [] (rgr Sec.reset [])) 0x1000 64)) 80 = true) :=
  ⟨blockAt _ _ _ _ _ _ fun u h _ => by rw [calm_keysDenied h]; decide +kernel,
   blockAt _ _ _ _ _ _ fun u h _ => by rw [calm_keysDenied h, blkArg0_secS _ _ _ _ _ (by decide)]; decide +kernel,
   blockAt _ _ _ _ _ _ fun u h _ => by
        rw [calm_keysDenied h, blkArg0_secS _ _ _ _ _ (by decide), calm_inDram h, blkBuf_secS]; decide +kernel⟩

theorem witness_RangerPerformsItsCommands_load :
    BufAt 17 0 63 10 [0, 0, 0] (rgr Sec.reset []) (fun u l v => u.keysDenied = false ∧ blkArg0 (dramAt (secS 17 0 63 [0, 0, 0] (rgr Sec.reset [])) 0x1000 64) ≤ 63 ∧ v.unwrapBlob l = .format) ∧
    BufAt 17 0 63 10 [0x4D, 0x4B, 1, 9, 0, 0, 0, 0] (rgr Sec.reset []) (fun u l v => u.keysDenied = false ∧ blkArg0 (dramAt (secS 17 0 63 [0x4D, 0x4B, 1, 9, 0, 0, 0, 0] (rgr Sec.reset [])) 0x1000 64) ≤ 63 ∧ v.unwrapBlob l = .badKey) ∧
    BufAt 17 0 63 10 blob5 (rgr Sec.reset []) (fun u l v => u.keysDenied = false ∧ blkArg0 (dramAt (secS 17 0 63 blob5 (rgr Sec.reset [])) 0x1000 64) ≤ 63 ∧ v.unwrapBlob l = .key 5) :=
  ⟨bufAt _ _ _ _ _ _ _ (by decide) (by decide) fun u v h k => by
        rw [calm_keysDenied h, blkArg0_secS _ _ _ _ _ (by decide), unwrap_format _ _ _ _ _ k]; decide +kernel,
   bufAt _ _ _ _ _ _ _ (by decide) (by decide) fun u v h k => by
        rw [calm_keysDenied h, blkArg0_secS _ _ _ _ _ (by decide), unwrap_badKey _ _ _ _ _ k rfl]; decide +kernel,
   bufAt _ _ _ _ _ _ _ (by decide) (by decide) fun u v h k => by
        rw [calm_keysDenied h, blkArg0_secS _ _ _ _ _ (by decide), unwrap_blob5 _ _ _ _ _ k rfl]; decide +kernel⟩

theorem witness_RangerPerformsItsCommands_clear :
    BlockAt 18 0 64 [] (rgr Sec.reset []) (fun _ => 63 < blkArg0 (dramAt (secS 18 0 64 [] (rgr Sec.reset [])) 0x1000 64)) ∧
    BlockAt 18 0 63 [] (rgr Sec.reset []) (fun _ => blkArg0 (dramAt (secS 18 0 63 [] (rgr Sec.reset [])) 0x1000 64) ≤ 63) :=
  ⟨blockAt _ _ _ _ _ _ fun u h _ => by rw [blkArg0_secS _ _ _ _ _ (by decide)]; decide +kernel,
   blockAt _ _ _ _ _ _ fun u h _ => by rw [blkArg0_secS _ _ _ _ _ (by decide)]⟩

theorem witness_RangerPerformsItsCommands_epoch :
    BlockAt 19 0 0 [] (rgr { Sec.reset with epochs := List.replicate 15 0 } []) (fun u => u.lcNow ≠ 3 ∧ u.sec.custKill = false ∧ 15 ≤ u.sec.epochs.length ∧ (secCmd 19).stage = false) ∧
    BlockAt 19 0 0 [] { rgr Sec.reset [] with dch := [(0, { DmaCh.reset with key := some 1 })] } (fun u => u.lcNow ≠ 3 ∧ u.sec.custKill = false ∧ u.sec.epochs.length < 15 ∧ ∃ e ∈ u.dch, e.2.key ≠ none) ∧
    BlockAt 19 0 0 [] (rgr { Sec.reset with epochs := List.replicate 14 0 } []) (fun u => u.lcNow ≠ 3 ∧ u.sec.custKill = false ∧ u.sec.epochs.length < 15 ∧ ∀ e ∈ u.dch, e.2.key = none) :=
  ⟨blockAt _ _ _ _ _ _ fun u h _ => by rw [calm_lcNow h, calm_sec h]; decide +kernel,
   blockAt _ _ _ _ _ _ fun u h _ => by rw [calm_lcNow h, calm_sec h, calm_dch h]; decide +kernel,
   blockAt _ _ _ _ _ _ fun u h _ => by rw [calm_lcNow h, calm_sec h, calm_dch h]; decide +kernel⟩

theorem witness_RangerPerformsItsCommands_escrow :
    BlockAt 20 0 0 [] (rgr Sec.reset []) (fun u => u.sec.ckeyEsc = none) ∧
    BufAt 20 0 0 10 blob5 (rgr { Sec.reset with ckeyEsc := some [1] } []) (fun u l v => u.keysDenied = false ∧ u.sec.ckeyEsc ≠ none ∧ v.unwrapBlob (l.take 80) = .key 5 ∧ v.sec.ckeyEsc ≠ some (sha384 (l.drop 80)) ∧ max 80 (leAt (dramAt (secS 20 0 0 blob5 (rgr { Sec.reset with ckeyEsc := some [1] } [])) 0x1000 64) 8 4) = 8 * 10 ∧ v.inDram (blkBuf (dramAt (secS 20 0 0 blob5 (rgr { Sec.reset with ckeyEsc := some [1] } [])) 0x1000 64)) 384 = true) ∧
    BufAt 20 0 0 10 blob5 (rgr { Sec.reset with ckeyEsc := some (sha384 []) } []) (fun u l v => u.keysDenied = false ∧ u.sec.ckeyEsc ≠ none ∧ v.unwrapBlob (l.take 80) = .key 5 ∧ v.sec.ckeyEsc = some (sha384 (l.drop 80)) ∧ max 80 (leAt (dramAt (secS 20 0 0 blob5 (rgr { Sec.reset with ckeyEsc := some (sha384 []) } [])) 0x1000 64) 8 4) = 8 * 10 ∧ v.inDram (blkBuf (dramAt (secS 20 0 0 blob5 (rgr { Sec.reset with ckeyEsc := some (sha384 []) } [])) 0x1000 64)) 384 = true) :=
  ⟨blockAt _ _ _ _ _ _ fun u h _ => by rw [calm_sec h]; decide +kernel,
   bufAt _ _ _ _ _ _ _ (by decide) (by decide) fun u v h k => by
        rw [List.take_of_length_le (by rw [length_dramAt]), List.drop_of_length_le (by rw [length_dramAt]), calm_keysDenied h,
          calm_sec h, calm_sec k, unwrap_blob5 _ _ _ _ _ k rfl, calm_inDram k, blkBuf_secS, blkLen_secS _ _ _ _ _ (by decide)]
        exact ⟨by decide +kernel, by simp [secS, rgr], rfl, fun h => by have := congrArg List.length (Option.some.inj h); rw [length_sha384] at this; exact absurd this (by decide), rfl, by decide +kernel⟩,
   bufAt _ _ _ _ _ _ _ (by decide) (by decide) fun u v h k => by
        rw [List.take_of_length_le (by rw [length_dramAt]), List.drop_of_length_le (by rw [length_dramAt]), calm_keysDenied h,
          calm_sec h, calm_sec k, unwrap_blob5 _ _ _ _ _ k rfl, calm_inDram k, blkBuf_secS, blkLen_secS _ _ _ _ _ (by decide)]
        exact ⟨by decide +kernel, by simp [secS, rgr], rfl, rfl, rfl, by decide +kernel⟩⟩

theorem witness_RangerPerformsItsCommands_export :
    BlockAt 32 0 0 [] (rgr Sec.reset [(Reg.SEC_LC, 2)]) (fun u => u.exportOk = false) ∧
    BufAt 32 0 0 16 [] (rgr Sec.reset [(Reg.SEC_LC, 0x82)]) (fun u _ v => u.exportOk = true ∧ v.inDram (blkBuf (dramAt (secS 32 0 0 [] (rgr Sec.reset [(Reg.SEC_LC, 0x82)])) 0x1000 64)) 16608 = true) :=
  ⟨blockAt _ _ _ _ _ _ fun u h _ => by rw [calm_exportOk h]; decide +kernel,
   bufAt _ _ _ _ _ _ _ (by decide) (by decide) fun u v h k => by
        rw [calm_exportOk h, calm_inDram k, blkBuf_secS]; decide +kernel⟩

theorem witness_RangerPerformsItsCommands_cert :
    BlockAt 33 0 0 [] (rgr Sec.reset []) (fun u => u.exportOk = true ∧ u.inDram (blkBuf (dramAt (secS 33 0 0 [] (rgr Sec.reset [])) 0x1000 64)) (8 + (List.replicate 0x40000000 (0 : W8)).length + ([] : List W8).length) = false) ∧
    BlockAt 34 0 0 [] (rgr Sec.reset []) (fun u => u.inDram (blkBuf (dramAt (secS 34 0 0 [] (rgr Sec.reset [])) 0x1000 64)) (8 + ([1, 2] : List W8).length + ([3] : List W8).length) = true) :=
  ⟨blockAt _ _ _ _ _ _ fun u h _ => by
        rw [calm_exportOk h, calm_inDram h, blkBuf_secS, List.length_replicate]; decide +kernel,
   blockAt _ _ _ _ _ _ fun u h _ => by rw [calm_inDram h, blkBuf_secS]; decide +kernel⟩

theorem calm_headCheck {s u : State} (h : s.Calm u) (hd t : List W8) (sg : Sigs) : u.headCheck hd t sg = s.headCheck hd t sg := by
  unfold State.headCheck State.hdrOk State.signerOk
  rw [calm_dramBytes h, calm_lc h, calm_sec h]

/-- The fixed header of an unsigned image of one block for 0x10000. -/
def imgHdr : List W8 :=
  leBytes 4 0x57465847 ++ leBytes 2 1 ++ leBytes 2 0 ++ leBytes 4 7 ++ leBytes 4 0 ++ leBytes 8 0x10000 ++ leBytes 8 0x1FFFC ++ leBytes 4 1 ++
    leBytes 12 0


theorem witness_RangerPerformsItsCommands_images :
    BufAt 2 0 0 8192 [0, 0, 0, 0] (rgr Sec.reset []) (fun _ a v =>
      v.headCheck (sliceB a 0 800) (sliceB a 17408 (48 * min (hdrNblk (sliceB a 0 800)) 256)) ⟨true, true⟩ = some 4) ∧
    BufAt 2 0 1 8192 imgHdr (rgr Sec.reset []) (fun _ a v =>
      v.headCheck (sliceB a 0 800) (sliceB a 17408 (48 * min (hdrNblk (sliceB a 0 800)) 256)) ⟨true, true⟩ = none ∧
        blkArg0 (dramAt (secS 2 0 1 imgHdr (rgr Sec.reset [])) 0x1000 64) = 1) ∧
    BufAt 2 0x1FFFF 0 8192 imgHdr (rgr Sec.reset []) (fun _ a v =>
      v.headCheck (sliceB a 0 800) (sliceB a 17408 (48 * min (hdrNblk (sliceB a 0 800)) 256)) ⟨true, true⟩ = none ∧
        blkArg0 (dramAt (secS 2 0x1FFFF 0 imgHdr (rgr Sec.reset [])) 0x1000 64) ≠ 1 ∧
        leAt (dramAt (secS 2 0x1FFFF 0 imgHdr (rgr Sec.reset [])) 0x1000 64) 8 4 ≠ 65536 * (hdrNblk (sliceB a 0 800) + 1)) := by
  refine ⟨?_, ?_, ?_⟩
  · exact bufAt _ _ _ _ _ _ _ (by decide) (by decide) fun u v h k => by rw [calm_headCheck k]; decide +kernel
  · exact bufAt _ _ _ _ _ _ _ (by decide) (by decide) fun u v h k => by
      rw [calm_headCheck k, blkArg0_secS _ _ _ _ _ (by decide)]; decide +kernel
  · exact bufAt _ _ _ _ _ _ _ (by decide) (by decide) fun u v h k => by
      rw [calm_headCheck k, blkArg0_secS _ _ _ _ _ (by decide), blkLen_secS _ _ _ _ _ (by decide)]; decide +kernel

theorem calm_tokenKeys {s u : State} (h : s.Calm u) (t : List W8) : u.tokenKeys t = s.tokenKeys t := by
  unfold State.tokenKeys; rw [calm_sec h]
theorem calm_tokenMax {s u : State} (h : s.Calm u) (b : Bool) : u.tokenMax b = s.tokenMax b := by
  unfold State.tokenMax; rw [calm_lcNow h]
theorem calm_tokenIssuerOk {s u : State} (h : s.Calm u) (b : Bool) : u.tokenIssuerOk b = s.tokenIssuerOk b := by
  unfold State.tokenIssuerOk; rw [calm_lcNow h, calm_sec h]
theorem calm_nonce {s u : State} (h : s.Calm u) (i : Nat) (hi : i < 8) : u.reg (Reg.SEC_NONCE i) = s.reg (Reg.SEC_NONCE i) :=
  h.regs _ fun j hj => by unfold Reg.SEC_NONCE Reg.CCH_CNT; omega

/-- The bytes of a token for this part with NONCE 0 from offset 0 to 63. -/
def tokHead (cust perm : Nat) : List W8 :=
  (leBytes 4 0x54445847 ++ leBytes 2 1 ++ leBytes 1 cust ++ [0]) ++ (leBytes 8 Config.serial.toNat ++ (leBytes 32 0 ++ leBytes 4 perm ++ leBytes 12 0))

theorem tokenFits_at (code cust perm : Nat) (x : Sec) (l : List (Nat × W32)) (v : State)
    (k : (secS code 0 0 (tokHead cust perm) (rgr x l)).Calm v)
    (hn : ∀ i, i < 8 → (secS code 0 0 (tokHead cust perm) (rgr x l)).reg (Reg.SEC_NONCE i) = 0)
    (hz : (List.range 8).all (fun i => leAt (dramAt (secS code 0 0 (tokHead cust perm) (rgr x l)) 0x2000 16672) (16 + 4 * i) 4 == 0) = true) :
    v.tokenFits (dramAt (secS code 0 0 (tokHead cust perm) (rgr x l)) 0x2000 16672) = true := by
  unfold State.tokenFits
  rw [Bool.and_eq_true]
  constructor
  · have hl : (tokHead cust perm).length = 64 := by simp [tokHead, length_leBytes]
    rw [dramAt_buf _ _ _ _ _ _ (by rw [hl]; decide), leAt_append_left _ _ _ _ (by rw [hl]; decide)]
    have := sliceB_mid (leBytes 4 0x54445847 ++ leBytes 2 1 ++ leBytes 1 cust ++ [0]) (leBytes 8 Config.serial.toNat)
      (leBytes 32 0 ++ leBytes 4 perm ++ leBytes 12 0)
    simp only [List.length_append, length_leBytes, List.length_cons, List.length_nil, Nat.reduceAdd] at this
    unfold leAt tokHead
    rw [this, ofLe_leBytes 8 _ (Nat.lt_of_lt_of_le Config.serial.isLt (by norm_num))]
    exact beq_self_eq_true _
  · rw [List.all_eq_true] at hz ⊢
    intro i hi
    rw [calm_nonce k i (List.mem_range.mp hi), hn i (List.mem_range.mp hi)]
    exact hz i hi

theorem tokenLayout_at (s : State) (h : leAt (dramAt s 0x2000 16672) 0 4 = 0x54445847 ∧ leAt (dramAt s 0x2000 16672) 4 2 = 1 ∧
    leAt (dramAt s 0x2000 16672) 6 1 ≤ 1 ∧ leAt (dramAt s 0x2000 16672) 7 1 = 0 ∧ leAt (dramAt s 0x2000 16672) 48 4 < 64 ∧
    leAt (dramAt s 0x2000 16672) 52 12 = 0) : tokenLayout (dramAt s 0x2000 16672) = true := by
  obtain ⟨h1, h2, h3, h4, h5, h6⟩ := h
  unfold tokenLayout
  rw [length_dramAt, h1, h2, h4, h6]
  simp only [BEq.rfl, Bool.true_and, Bool.and_true, Bool.and_eq_true, decide_eq_true_eq]
  exact ⟨⟨h3, Nat.zero_le _⟩, h5⟩

theorem witness_RangerPerformsItsCommands_tokens :
    BufAt 3 0 0 2084 [] (rgr { Sec.reset with refused := 3 } []) (fun _ _ v => 3 ≤ v.sec.refused) ∧
    BufAt 3 0 0 2084 [0, 0, 0, 0] (rgr { Sec.reset with refused := 2 } []) (fun _ k v => v.sec.refused < 3 ∧ tokenLayout k = false) ∧
    BufAt 3 0 0 2084 (tokHead 0 0x1F) (rgr { Sec.reset with refused := 2 } []) (fun _ k v => v.sec.refused < 3 ∧ tokenLayout k = true ∧
      v.tokenIssuerOk (leAt k 6 1 == 1) = true ∧ v.tokenKeys k = true ∧ v.tokenFits k = true ∧ v.lcNow = 0 ∧
      leAt k 48 4 &&& v.tokenMax (leAt k 6 1 == 1) = leAt k 48 4) ∧
    BufAt 3 0 0 2084 (tokHead 0 0x20) (rgr { Sec.reset with refused := 2 } []) (fun _ k v => v.sec.refused < 3 ∧ tokenLayout k = true ∧
      v.tokenIssuerOk (leAt k 6 1 == 1) = true ∧ v.tokenKeys k = true ∧ v.tokenFits k = true ∧
      leAt k 48 4 &&& v.tokenMax (leAt k 6 1 == 1) ≠ leAt k 48 4) ∧
    BufAt 3 0 0 2084 (tokHead 0 6) (rgr { Sec.reset with lc := 1 } [(Reg.SEC_LC, 1)]) (fun _ k v => v.sec.refused < 3 ∧ tokenLayout k = true ∧
      v.tokenIssuerOk (leAt k 6 1 == 1) = true ∧ v.tokenKeys k = true ∧ v.tokenFits k = true ∧ leAt k 6 1 ≠ 1 ∧ v.lcNow = 1 ∧
      leAt k 48 4 &&& 6 ≠ 0 ∧ leAt k 48 4 &&& v.tokenMax (leAt k 6 1 == 1) = leAt k 48 4) ∧
    BufAt 3 0 0 2084 (tokHead 1 0x2F) (rgr { Sec.reset with lc := 1, ckeyTok := some [1] } [(Reg.SEC_LC, 1)]) (fun _ k v => v.sec.refused < 3 ∧
      tokenLayout k = true ∧ v.tokenIssuerOk (leAt k 6 1 == 1) = true ∧ v.tokenKeys k = true ∧ v.tokenFits k = true ∧ leAt k 6 1 = 1 ∧
      leAt k 48 4 &&& v.tokenMax (leAt k 6 1 == 1) = leAt k 48 4) ∧
    BufAt 3 0 0 2084 (tokHead 0 0) (rgr { Sec.reset with vrevoke := 1 } []) (fun _ k v => v.sec.refused < 3 ∧ tokenLayout k = true ∧
      v.tokenIssuerOk (leAt k 6 1 == 1) = true ∧ v.tokenKeys k = false) := by
  refine ⟨?_, ?_, ?_, ?_, ?_, ?_, ?_⟩
  · exact bufAt _ _ _ _ _ _ _ (by decide) (by decide) fun u v h k => by rw [calm_sec k]; decide +kernel
  · exact bufAt _ _ _ _ _ _ _ (by decide) (by decide) fun u v h k => by
      rw [calm_sec k]; refine ⟨by decide +kernel, ?_⟩; unfold tokenLayout; rw [length_dramAt]; decide +kernel
  · exact bufAt _ _ _ _ _ _ _ (by decide) (by decide) fun u v h k => by
      rw [calm_sec k, calm_tokenIssuerOk k, calm_tokenKeys k, calm_lcNow k, calm_tokenMax k]
      exact ⟨by decide +kernel, tokenLayout_at _ (by decide +kernel), by decide +kernel, by decide +kernel,
        tokenFits_at _ _ _ _ _ _ k (by decide +kernel) (by decide +kernel), by decide +kernel, by decide +kernel⟩
  · exact bufAt _ _ _ _ _ _ _ (by decide) (by decide) fun u v h k => by
      rw [calm_sec k, calm_tokenIssuerOk k, calm_tokenKeys k, calm_tokenMax k]
      exact ⟨by decide +kernel, tokenLayout_at _ (by decide +kernel), by decide +kernel, by decide +kernel,
        tokenFits_at _ _ _ _ _ _ k (by decide +kernel) (by decide +kernel), by decide +kernel⟩
  · exact bufAt _ _ _ _ _ _ _ (by decide) (by decide) fun u v h k => by
      rw [calm_sec k, calm_tokenIssuerOk k, calm_tokenKeys k, calm_lcNow k, calm_tokenMax k]
      exact ⟨by decide +kernel, tokenLayout_at _ (by decide +kernel), by decide +kernel, by decide +kernel,
        tokenFits_at _ _ _ _ _ _ k (by decide +kernel) (by decide +kernel), by decide +kernel, by decide +kernel, by decide +kernel, by decide +kernel⟩
  · exact bufAt _ _ _ _ _ _ _ (by decide) (by decide) fun u v h k => by
      rw [calm_sec k, calm_tokenIssuerOk k, calm_tokenKeys k, calm_tokenMax k]
      exact ⟨by decide +kernel, tokenLayout_at _ (by decide +kernel), by decide +kernel, by decide +kernel,
        tokenFits_at _ _ _ _ _ _ k (by decide +kernel) (by decide +kernel), by decide +kernel, by decide +kernel⟩
  · exact bufAt _ _ _ _ _ _ _ (by decide) (by decide) fun u v h k => by
      rw [calm_sec k, calm_tokenIssuerOk k, calm_tokenKeys k]
      exact ⟨by decide +kernel, tokenLayout_at _ (by decide +kernel), by decide +kernel, by decide +kernel⟩

/-- A payload block of zeros. -/
def zeroBlock : List W8 := List.replicate 65536 0

/-- A NAND image of one block: header, block table and payload. -/
def nandImage : List W8 :=
  (imgHdr ++ List.replicate 17360 0) ++ (sha384 zeroBlock ++ (List.replicate 48080 0 ++ zeroBlock))

theorem length_imgHdr : (imgHdr ++ List.replicate 17360 (0 : W8)).length = 17408 := by
  rw [List.length_append, List.length_replicate]; rfl

theorem nand_table : sliceB nandImage 17408 48 = sha384 zeroBlock := by
  have := sliceB_mid (imgHdr ++ List.replicate 17360 (0 : W8)) (sha384 zeroBlock) (List.replicate 48080 0 ++ zeroBlock)
  rwa [length_imgHdr, length_sha384] at this

theorem nand_block : sliceB nandImage 65536 65536 = zeroBlock := by
  have hz : zeroBlock.length = 65536 := List.length_replicate
  have := sliceB_mid ((imgHdr ++ List.replicate 17360 (0 : W8)) ++ (sha384 zeroBlock ++ List.replicate 48080 0)) zeroBlock []
  rw [List.length_append, length_imgHdr, List.length_append, length_sha384, List.length_replicate, hz] at this
  rw [← this]
  unfold nandImage
  simp only [List.append_assoc, List.append_nil]

theorem sliceB_prefix (a b : List W8) (n : Nat) (h : a.length = n) : sliceB (a ++ b) 0 n = a := by
  subst h
  simp [sliceB]

theorem imgHdr_length : imgHdr.length = 48 := by decide

theorem nand_head : sliceB nandImage 0 800 = imgHdr ++ List.replicate 752 0 := by
  have e : nandImage = (imgHdr ++ List.replicate 752 0) ++ (List.replicate 16608 0 ++ (sha384 zeroBlock ++ (List.replicate 48080 0 ++ zeroBlock))) := by
    have h : List.replicate 17360 (0 : W8) = List.replicate 752 0 ++ List.replicate 16608 0 := List.replicate_add 752 16608 0
    unfold nandImage
    rw [h]
    simp only [List.append_assoc]
  rw [e]
  exact sliceB_prefix _ _ 800 (by rw [List.length_append, List.length_replicate, imgHdr_length])

theorem sliceB_of_all (l : List W8) (n : Nat) (h : l.length = n) : sliceB l 0 n = l := by
  subst h
  simp [sliceB]

theorem witness_RangerPerformsItsCommands_boot :
    BlockAt 1 0 0 [] (rgr Sec.reset [(Reg.SYS_STRAP, 1)]) (fun u => u.sec.uartBoot = false ∧ u.fld Reg.SYS_STRAP 0 2 = 1 ∧
      u.headCheck (sliceB [] 0 800) (sliceB [] 17408 (48 * min (hdrNblk (sliceB [] 0 800)) 256)) ⟨false, false⟩ = some 4) ∧
    BlockAt 1 0 0 [] (rgr Sec.reset [(Reg.SYS_STRAP, 1)]) (fun u => u.sec.uartBoot = false ∧ u.fld Reg.SYS_STRAP 0 2 = 1 ∧
      (let h := sliceB nandImage 0 800; let tb := sliceB nandImage 17408 (48 * min (hdrNblk h) 256);
        u.headCheck h tb ⟨false, false⟩ = none ∧
        ∀ j, j < hdrNblk h → sha384 (sliceB nandImage (65536 * (j + 1)) 65536) = tableDigest tb j)) ∧
    (let s : State := { State.reset with sec := { Sec.reset with cmd := some (secCmd 9) } };
      s.sec.cmd = some (secCmd 9) ∧ (secCmd 9).result = none) ∧
    (let s : State := { State.reset with sec := { Sec.reset with cmd := some { secCmd 9 with result := some 255 } } };
      s.sec.cmd = some { secCmd 9 with result := some 255 } ∧ 255 < 256) := by
  refine ⟨?_, ?_, ⟨rfl, rfl⟩, ⟨rfl, by decide⟩⟩
  · exact blockAt _ _ _ _ _ _ fun u h _ => by
      rw [calm_sec h, calm_strap h, calm_headCheck h]; decide +kernel
  · refine blockAt _ _ _ _ _ _ fun u h _ => ?_
    rw [calm_sec h, calm_strap h]
    refine ⟨by decide +kernel, by decide +kernel, ?_⟩
    have hn : hdrNblk (sliceB nandImage 0 800) = 1 := by rw [nand_head]; decide +kernel
    dsimp only
    rw [calm_headCheck h, hn, show 48 * min 1 256 = 48 from rfl, nand_table]
    constructor
    · rw [nand_head]; decide +kernel
    · intro j hj
      rw [show j = 0 by omega, show 65536 * (0 + 1) = 65536 from rfl, nand_block]
      exact (sliceB_of_all _ 48 (length_sha384 _)).symm

/-- Port 1 with a data object of this protocol and payload waiting. -/
def doeS (vendor type : Nat) (p : List W8) (l : List (Nat × W32)) : State :=
  port1 l { HifP.reset with doe := { HifP.reset.doe with wait := [(0, doeWrap vendor type p)] } }

/-- A hybrid request. -/
def hybridReq (sel : Nat) : List W8 := leBytes 4 0x51485847 ++ leBytes 2 1 ++ leBytes 2 sel ++ List.replicate 40 0

theorem witness_RangerPerformsItsCommands :
    (DoeAsks (doeS 1 0 [3, 0, 0, 0] []) 1 1 0 (doeWrap 1 0 [3, 0, 0, 0]) [] ∧ 4 ≤ (doePayload (doeWrap 1 0 [3, 0, 0, 0])).length) ∧
    (DoeAsks (doeS 1 1 [0x10, 0x84, 0, 0] []) 1 1 1 (doeWrap 1 1 [0x10, 0x84, 0, 0]) [] ∧ isSpdm 0x84 (doePayload (doeWrap 1 1 [0x10, 0x84, 0, 0])) = true) ∧
    (DoeAsks (doeS 1 1 [0x12, 0xE1, 0, 0] []) 1 1 1 (doeWrap 1 1 [0x12, 0xE1, 0, 0]) [] ∧ isSpdm 0xE1 (doePayload (doeWrap 1 1 [0x12, 0xE1, 0, 0])) = true) ∧
    (DoeAsks (doeS 1 1 [0x12, 0xE3, 0, 0] []) 1 1 1 (doeWrap 1 1 [0x12, 0xE3, 0, 0]) [] ∧ isSpdm 0xE3 (doePayload (doeWrap 1 1 [0x12, 0xE3, 0, 0])) = true) ∧
    (DoeAsks (doeS 1 1 [0x12, 0x81, 0, 0] []) 1 1 1 (doeWrap 1 1 [0x12, 0x81, 0, 0]) [] ∧ isSpdm 0x81 (doePayload (doeWrap 1 1 [0x12, 0x81, 0, 0])) = true) ∧
    (DoeAsks (doeS 1 1 [0x12, 0x82, 0, 0] []) 1 1 1 (doeWrap 1 1 [0x12, 0x82, 0, 0]) [] ∧ isSpdm 0x82 (doePayload (doeWrap 1 1 [0x12, 0x82, 0, 0])) = true) ∧
    (let p : List W8 := [0x12, 0x83, 0, 0xFF];
      DoeAsks (doeS 1 1 p []) 1 1 1 (doeWrap 1 1 p) [] ∧ isSpdm 0x83 (doePayload (doeWrap 1 1 p)) = true ∧ leAt (doePayload (doeWrap 1 1 p)) 2 1 = 0) ∧
    (let p : List W8 := [0x12, 0xE0, 0, 0xFF];
      DoeAsks (doeS 1 1 p []) 1 1 1 (doeWrap 1 1 p) [] ∧ isSpdm 0xE0 (doePayload (doeWrap 1 1 p)) = true ∧ leAt (doePayload (doeWrap 1 1 p)) 3 1 = 0xFF) ∧
    (let s := doeS 0x1CF7 1 (hybridReq 0) [(Reg.SEC_STATUS, 8)];
      DoeAsks s 1 0x1CF7 1 (doeWrap 0x1CF7 1 (hybridReq 0)) [] ∧ isHybrid 0 (doePayload (doeWrap 0x1CF7 1 (hybridReq 0))) = true ∧ s.rbit Reg.SEC_STATUS 3 = true) ∧
    (DoeAsks (doeS 0x1CF7 1 (hybridReq 1) []) 1 0x1CF7 1 (doeWrap 0x1CF7 1 (hybridReq 1)) [] ∧ isHybrid 1 (doePayload (doeWrap 0x1CF7 1 (hybridReq 1))) = true) ∧
    (let s := port1 [] { HifP.reset with doe := { HifP.reset.doe with prep := [1] } };
      s.portLive 1 = true ∧ (s.doe 1).prep ≠ [] ∧ (s.doe 1).resp = []) :=
  ⟨⟨doeAsks_of (by decide +kernel), by decide +kernel⟩,
    ⟨doeAsks_of (by decide +kernel), by decide +kernel⟩,
    ⟨doeAsks_of (by decide +kernel), by decide +kernel⟩,
    ⟨doeAsks_of (by decide +kernel), by decide +kernel⟩,
    ⟨doeAsks_of (by decide +kernel), by decide +kernel⟩,
    ⟨doeAsks_of (by decide +kernel), by decide +kernel⟩,
    ⟨doeAsks_of (by decide +kernel), by decide +kernel⟩,
    ⟨doeAsks_of (by decide +kernel), by decide +kernel⟩,
    ⟨doeAsks_of (by decide +kernel), by decide +kernel⟩,
    ⟨doeAsks_of (by decide +kernel), by decide +kernel⟩,
    by decide +kernel⟩



/-- A part of this SYS_ROLE in a ring of `n` whose segments are usable, with these registers; DRAM is ready. -/
def ring (role n : Nat) (l : List (Nat × W32)) : State :=
  withRegs ([(Reg.SYS_ROLE, BitVec.ofNat 32 role), (Reg.CSC_RING, BitVec.ofNat 32 (16 * n)), (Reg.CSC_CTRL, 1), (Reg.CSC_SEGMAP, 0xF)] ++ l)
    { State.reset with mem := ready.mem, csc := { Csc.reset with sizeKnown := true } }

/-- Thread 5 is debug-halted in this power state. -/
def halted (st : Nat) : State := { pow { Pwr.reset with st := st } [] with thrs := [(5, { Thread.reset with dbg := true })] }

theorem witness_DebugFramesNeedTheirRights :
    (((none, Instr.dbgInfo) : Option Nat × (Bool → Instr)) ∈ [(none, Instr.dbgInfo), (none, fun ok => .dbgToken ok [] ⟨true, true⟩)] ∧ 3 ≤ (pow { Pwr.reset with st := 3 } []).pwr.st ∧ (pow { Pwr.reset with st := 2 } []).pwr.st < 3 ∧
      (∀ k, k < 3 → (pow { Pwr.reset with st := 2 } [(Reg.SEC_LC, 1)]).rightsNow.testBit k = false) ∧ 3 ≤ ({ pow Pwr.reset [] with sec := { Sec.reset with refused := 3 } } : State).sec.refused) ∧
    ((let s := pow Pwr.reset [(Reg.SEC_LC, 0x0701)];
      s.pwr.st < 3 ∧ s.rightsNow.testBit 0 = true ∧ s.rightsNow.testBit 1 = true ∧ s.rightsNow.testBit 2 = true ∧ s.dbgCheck 0x040000000000 8 = some 1 ∧ s.dbgCheck 0x01000000FFFC 4 = some 3 ∧
      s.dbgCheck 0x010000400001 2 = some 3 ∧ ({ s with pwr := { s.pwr with st := 2 } } : State).dbgCheck 0x1000 8 = some 2) ∧
    (let s := ring 0xC 2 [];
      s.pwr.st < 3 ∧ s.rightsNow.testBit 1 = true ∧ s.dbgCheck 0x01000047FFF8 8 = none ∧ s.resolve ((0x01000047FFF8 : BitVec 48).setWidth 64) = .sram 0x47FFF8 ∧ sramStoreIgnored 0x47FFF8 = false ∧
      (({ s with regs := (s.orReg Reg.SEC_STATUS 0x10).regs } : State).memRead 0x01000047FFF8 8).2.1 = false ∧ s.dbgCheck 0x3FFFFFFF 1 = none ∧ s.resolve ((0x3FFFFFFF : BitVec 48).setWidth 64) = .dram 0x3FFFFFFF) ∧
    (let s := { ring 0xC 2 [] with mem := { ready.mem with sramSyn := [(0x80000, 0xFFFF)] } };
      s.pwr.st < 3 ∧ s.rightsNow.testBit 1 = true ∧ s.dbgCheck 0x010000400000 8 = none ∧ s.resolve ((0x010000400000 : BitVec 48).setWidth 64) = .sram 0x400000 ∧
      (({ s with regs := (s.orReg Reg.SEC_STATUS 0x10).regs } : State).memRead 0x010000400000 8).2.1 = true) ∧
    (let s := ring 0xC 2 [];
      s.dbgCheck 0x031000000010 8 = none ∧ s.resolve ((0x031000000010 : BitVec 48).setWidth 64) = .casc 1 0x10 ∧ (s.cscIssue 1 2 0x10 8 [] (.dbg true)).1 ≠ none ∧
      (ring 0xC 2 [(Reg.CSC_CTRL, 0)]).dbgCheck 0x031000000010 8 = none ∧ (ring 0xC 2 [(Reg.CSC_CTRL, 0)]).resolve ((0x031000000010 : BitVec 48).setWidth 64) = .casc 1 0x10 ∧
      ((ring 0xC 2 [(Reg.CSC_CTRL, 0)]).cscIssue 1 2 0x10 8 [] (.dbg true)).1 = none ∧ s.dbgCheck 0x020000040004 4 = none ∧ s.resolve ((0x020000040004 : BitVec 48).setWidth 64) = .reg 0x40004)) ∧
    (((halted 2).pwr.st = 2 ∧ (halted 2).rightsNow.testBit 2 = true ∧ (halted 1).pwr.st < 3 ∧ (halted 1).pwr.st ≠ 2 ∧ ((halted 1).thr (5 : Thr)).dbg = true ∧ ((halted 1).thr (191 : Thr)).dbg = false ∧ (31 : R5) ≠ 0 ∧
      srPriv (0x11 : Nat) ≠ none ∧ srPriv (0x12 : Nat) = none ∧ srPriv (1 : Nat) = some true) ∧
    (let s := pow Pwr.reset [];
      s.pwr.st < 3 ∧ s.rightsNow.testBit 3 = true ∧ (pow Pwr.reset [(Reg.SEC_LC, 1)]).rightsNow.testBit 3 = false ∧ TapIns.extest ∈ [TapIns.extest, .clamp, .highz] ∧ TapIns.idcode ∉ [TapIns.extest, .clamp, .highz])) :=
  ⟨⟨List.mem_cons_self .., by decide +kernel, by decide +kernel, by decide +kernel, by decide +kernel⟩,
    by decide +kernel,
    by decide +kernel⟩



/-! ### A downloaded image of one block -/

/-- Its first unit: header and block table. -/
def unit0 : List W8 := (imgHdr ++ List.replicate 17360 0) ++ (sha384 zeroBlock ++ List.replicate 48080 0)
/-- Both units. -/
def img1 : SMap (List W8) := [(0, unit0), (1, zeroBlock)]

theorem unit0_head : sliceB unit0 0 800 = imgHdr ++ List.replicate 752 0 := by
  have e : unit0 = (imgHdr ++ List.replicate 752 0) ++ (List.replicate 16608 0 ++ (sha384 zeroBlock ++ List.replicate 48080 0)) := by
    have h : List.replicate 17360 (0 : W8) = List.replicate 752 0 ++ List.replicate 16608 0 := List.replicate_add 752 16608 0
    unfold unit0
    rw [h]
    simp only [List.append_assoc]
  rw [e]
  exact sliceB_prefix _ _ 800 (by rw [List.length_append, List.length_replicate, imgHdr_length])

theorem unit0_table : sliceB unit0 17408 48 = sha384 zeroBlock := by
  have := sliceB_mid (imgHdr ++ List.replicate 17360 (0 : W8)) (sha384 zeroBlock) (List.replicate 48080 0)
  rwa [length_imgHdr, length_sha384] at this

theorem length_unit0 : unit0.length = 65536 := by
  unfold unit0
  rw [List.length_append, length_imgHdr, List.length_append, length_sha384, List.length_replicate]

/-- The image passes when its header does. -/
theorem imgGood_img1 {s : State} (sg : Sigs) (hi : s.fw.img = img1)
    (hh : s.headCheck (imgHdr ++ List.replicate 752 0) (sha384 zeroBlock) sg = none) : s.imgGood sg = true := by
  have e0 : ∀ o n, o < 65536 → s.imgAt o n = sliceB unit0 o n := by
    intro o n ho
    unfold State.imgAt
    rw [hi, show o / 65536 = 0 by omega, show o % 65536 = o by omega]
    rfl
  have e1 : s.imgAt 65536 65536 = zeroBlock := by
    unfold State.imgAt
    rw [hi, show (65536 : Nat) / 65536 = 1 by norm_num, show (65536 : Nat) % 65536 = 0 by norm_num]
    exact sliceB_of_all _ _ List.length_replicate
  have hn : hdrNblk (imgHdr ++ List.replicate 752 0) = 1 := by decide +kernel
  have h0 : s.imgAt 0 800 = imgHdr ++ List.replicate 752 0 := by rw [e0 _ _ (by omega), unit0_head]
  have ht : s.imgAt 17408 48 = sha384 zeroBlock := by rw [e0 _ _ (by omega), unit0_table]
  have hw : s.imgWhole = true := by
    unfold State.imgWhole
    rw [h0, hn, hi]
    rfl
  unfold State.imgGood
  dsimp only
  rw [h0, hn, show 48 * min 1 256 = 48 from rfl, ht, hw, hh]
  rw [show List.range 1 = [0] from rfl, List.all_cons, show 65536 * (0 + 1) = 65536 from rfl, e1]
  have hd : tableDigest (sha384 zeroBlock) 0 = sha384 zeroBlock := sliceB_of_all _ 48 (length_sha384 _)
  rw [hd, beq_self_eq_true]
  rfl

/-- A Firmware Commit of CA and slot alone, with this update state. -/
def commitS (d10 : Nat) (f : Fw) (l : List (Nat × W32)) : State := { adm (sqe 0x10 0 0 d10 0 0 0) l [] [] with fw := f }
def commitC (d10 : Nat) : NCmd := ncmd 3 0 (sqe 0x10 0 0 d10 0 0 0) .engine
/-- Update state with the image downloaded. -/
def fwImg : Fw := { Fw.reset with img := img1 }
/-- A valid boot record in copy A: slot 2 runs, slot 3 before it. -/
def norRec : List Host.Cell := cellsAt 0 (BootRec.bytes ⟨2, 3, 7, 0, 0, false⟩)

/-- What a Commit alone in its ring needs to reach its second phase, with a boot record. -/
def CommitMeets (d : Nat) : Prop :=
  let s := commitS d { fwImg with nor := norRec } [];
  s.imgGood ⟨true, true⟩ = true ∧ Asked s 3 (commitC d) 0x10 ∧ natF ((commitC d).dw 10) 3 3 = d / 8 ∧ s.fw.handover = none ∧
    s.fw.commit = none ∧ s.inBiv = false ∧ natF ((commitC d).dw 10) 0 3 = 2 ∧ hdrRecMin (s.imgAt 0 800) ≤ s.fw.inForce ∧
    s.fw.inForce ≤ hdrRecVer (s.imgAt 0 800) ∧ s.partGone = false ∧ s.relayTargets = [] ∧ s.ringN < 2 ∧ s.pos = 0 ∧
    s.handoverOk (s.imgAt 0 800) = true ∧ s.bootRec = some (⟨2, 3, 7, 0, 0, false⟩, 0)

/-- Two parts, all segments usable. -/
def twoParts : List (Nat × W32) := [(Reg.CSC_RING, 0x20), (Reg.CSC_SEGMAP, 0xF), (Reg.CSC_CTRL, 1)]

theorem witness_FirmwareIsDownloadedCommittedAndHandedOver :
    (let c := ncmd 3 0 (sqe 2 0 0 6 0 0 0) .engine;
      Asked (adm c.entry [] [] []) 3 c 0x02 ∧ c.dw 10 % 256 ∉ [1, 2, 3, 4, 5, 0x81]) ∧
    (∀ k ∈ [1, 2, 3, 4, 5, 0x81], let c := ncmd 3 0 (sqe 2 0 0 k 0 0 0) .engine; let s := adm c.entry [] [] []; Asked s 3 c 0x02 ∧ c.dw 10 % 256 = k ∧ okIn.err = 0 ∧ s.busMaster c.ctrl = true) ∧
    (let c := ncmd 3 0 (sqe 0x11 0 0 16383 0x400000 0 0) .engine; let s := adm c.entry [] [] [];
      Asked s 3 c 0x11 ∧ s.fw.commit = none ∧ 4 * (c.dw 10 + 1) % 65536 = 0 ∧ 4 * c.dw 11 % 65536 = 0 ∧ 4 * c.dw 11 / 65536 = 256 ∧ 4 * (c.dw 10 + 1) / 65536 = 1 ∧
      smFind s.fw.img 256 = none ∧ okIn.err = 0 ∧ s.busMaster c.ctrl = true) ∧
    (let c := ncmd 3 0 (sqe 0x11 0 0 16383 0x404000 0 0) .engine; let s := adm c.entry [] [] [];
      Asked s 3 c 0x11 ∧ s.fw.commit = none ∧ 4 * (c.dw 10 + 1) % 65536 = 0 ∧ 4 * c.dw 11 % 65536 = 0 ∧ 257 ≤ 4 * c.dw 11 / 65536 ∧
      4 * c.dw 11 / 65536 < 4 * c.dw 11 / 65536 + 4 * (c.dw 10 + 1) / 65536) ∧
    (let c := ncmd 3 0 (sqe 0x11 0 0 16382 0 0 0) .engine; let s := adm c.entry [] [] [];
      Asked s 3 c 0x11 ∧ s.fw.commit = none ∧ 4 * (c.dw 10 + 1) % 65536 ≠ 0 ∧ Asked { s with fw := { Fw.reset with commit := some ⟨4, 0, 2⟩ } } 3 c 0x11) ∧
    (Asked (commitS 2 Fw.reset [(Reg.SYS_ROLE, 0x14)]) 3 (commitC 2) 0x10 ∧ natF ((commitC 2).dw 10) 3 3 = 0 ∧ (commitS 2 Fw.reset [(Reg.SYS_ROLE, 0x14)]).fw.handover = none ∧ (commitS 2 Fw.reset [(Reg.SYS_ROLE, 0x14)]).inBiv = true) ∧
    (Asked (commitS 9 Fw.reset []) 3 (commitC 9) 0x10 ∧ natF ((commitC 9).dw 10) 3 3 = 1 ∧ (commitS 9 Fw.reset []).inBiv = false ∧ natF ((commitC 9).dw 10) 0 3 = 1) ∧
    (Asked (commitS 27 Fw.reset []) 3 (commitC 27) 0x10 ∧ natF ((commitC 27).dw 10) 3 3 = 3 ∧ (commitS 27 Fw.reset []).inBiv = false ∧ natF ((commitC 27).dw 10) 0 3 = 3 ∧ (commitS 27 Fw.reset []).imgGood ⟨true, true⟩ = false) ∧
    (Asked (commitS 2 fwImg [(Reg.CSC_RING, 0x20), (Reg.CSC_PART_STATE 1, 3)]) 3 (commitC 2) 0x10 ∧ (commitS 2 fwImg [(Reg.CSC_RING, 0x20), (Reg.CSC_PART_STATE 1, 3)]).imgGood ⟨true, true⟩ = true ∧ (commitS 2 fwImg [(Reg.CSC_RING, 0x20), (Reg.CSC_PART_STATE 1, 3)]).partGone = true) ∧
    (let s := commitS 2 fwImg twoParts; Asked s 3 (commitC 2) 0x10 ∧ s.imgGood ⟨true, true⟩ = true ∧ hdrRecMin (s.imgAt 0 800) ≤ s.fw.inForce ∧ s.fw.inForce ≤ hdrRecVer (s.imgAt 0 800) ∧ s.partGone = false ∧ s.relayTargets ≠ [] ∧ s.fw.commit = none) ∧
    (let s := commitS 2 { fwImg with commit := some ⟨3, 0, 2⟩, relays := [(1, ⟨0, 3, 2⟩)] } twoParts; Asked s 3 (commitC 2) 0x10 ∧ (∀ k, s.fw.commit = some k → k.tag = (commitC 2).tag) ∧ s.imgGood ⟨true, true⟩ = true ∧ s.partGone = false ∧ s.relayTargets ≠ [] ∧ (∃ r ∈ s.fw.relays, r.2.st = 2)) ∧
    (CommitMeets 2 ∧ CommitMeets 10 ∧ CommitMeets 26) ∧
    ((commitS 26 { fwImg with load := 0x10000, nblk := 1 } []).handoverOk ((commitS 26 { fwImg with load := 0x10000, nblk := 1 } []).imgAt 0 800) = false ∧ (commitS 26 { fwImg with load := 0x10000, nblk := 1 } []).imgGood ⟨true, true⟩ = true) ∧
    (let s := commitS 20 Fw.reset [];
      Asked s 3 (commitC 20) 0x10 ∧ natF ((commitC 20).dw 10) 3 3 = 2 ∧ 3 < natF ((commitC 20).dw 10) 0 3) ∧
    (let s := commitS 18 { Fw.reset with nor := norRec } []; let h := s.norRead (norSlot (s.commitSlot 2)) 800;
      Asked s 3 (commitC 18) 0x10 ∧ natF ((commitC 18).dw 10) 3 3 = 2 ∧ natF ((commitC 18).dw 10) 0 3 = 2 ∧ leAt h 0 4 ≠ 0x57465847) ∧
    (let s := commitS 16 { Fw.reset with nor := norRec ++ cellsAt 0x2300000 (imgHdr.take 4) } []; let h := s.norRead (norSlot (s.commitSlot 0)) 800;
      Asked s 3 (commitC 16) 0x10 ∧ natF ((commitC 16).dw 10) 3 3 = 2 ∧ natF ((commitC 16).dw 10) 0 3 = 0 ∧ leAt h 0 4 = 0x57465847 ∧ s.recFits h = false) ∧
    (let s := commitS 16 { Fw.reset with nor := norRec ++ cellsAt 0x2300000 imgHdr } []; let h := s.norRead (norSlot (s.commitSlot 0)) 800;
      Asked s 3 (commitC 16) 0x10 ∧ natF ((commitC 16).dw 10) 3 3 = 2 ∧ leAt h 0 4 = 0x57465847 ∧ s.recFits h = true ∧ s.bootRec = some (⟨2, 3, 7, 0, 0, false⟩, 0)) ∧
    ((let r : Relay := ⟨1, 2, 0⟩; let s := { ring 0xC 2 [] with fw := { fwImg with commit := some ⟨3, 0, 2⟩, relays := [(3, r)] } };
      smFind s.fw.relays (3 : Fin 4).val = some r ∧ r.st = 0 ∧ s.fw.commit ≠ none ∧ 3 ≤ r.fails + 1 ∧ r.unit + 1 = s.relayUnits ∧ (⟨0, 0, 1⟩ : Relay).st ≠ 0) ∧
    (let r : Relay := ⟨0, 1, 0⟩; let s := { ring 0xC 2 [] with fw := { fwImg with commit := some ⟨3, 0, 2⟩, relays := [(3, r)] } };
      smFind s.fw.relays (3 : Fin 4).val = some r ∧ r.st = 0 ∧ s.fw.commit ≠ none ∧ r.fails + 1 < 3 ∧ r.unit + 1 ≠ s.relayUnits ∧ r.unit + 1 < s.unitsReady) ∧
    (let r : Relay := ⟨0xFFFFFFFF, 0, 0⟩; let s := { ring 0xC 2 [] with fw := { Fw.reset with relays := [(1, r)] } };
      smFind s.fw.relays (1 : Fin 4).val = some r ∧ r.st = 0 ∧ s.isBase = true ∧ s.fw.commit = none ∧ r.unit + 1 = s.relayUnits) ∧
    (let s := { ring 9 2 [] with sec := { Sec.reset with relayBoot := some 0 } };
      s.sec.relayBoot = some 0 ∧ s.posValid = true ∧ s.reg Reg.CSC_RLY_CNT = 0 ∧ ¬ ((ring 9 2 []).sec.relayBoot = some 0 ∧ (ring 9 2 []).posValid = true)) ∧
    ((ring 9 2 []).runBit 191 = false ∧ (ring 9 2 [(Reg.SYS_CAMP_RUN 5, 0x80000000)]).runBit 191 = true ∧ (ring 9 2 []).isBase = false ∧ (ring 0xC 2 []).isBase = true ∧ (ring 0xC 2 []).fw.handover = none) ∧
    (let s := { ring 0xC 3 [] with fw := { Fw.reset with handover := some [], nor := norRec, handed := true, commit := some ⟨3, 3, 2⟩ } };
      s.fw.handed = true ∧ s.fw.handover = some [] ∧ ¬ (∀ k, k < s.ringN → k ≠ s.pos → k ∈ ([] ++ [(1 : Fin 4).val] : List Nat)) ∧ s.fw.commit = some ⟨3, 3, 2⟩ ∧ s.bootRec ≠ none)) ∧
    ((let s := { ring 0xC 3 [] with fw := { Fw.reset with handover := some [1], handed := true } };
      s.fw.handed = true ∧ (ring 0xC 3 []).fw.handed = false ∧ s.fw.handover = some [1] ∧ (∀ k, k < s.ringN → k ≠ s.pos → k ∈ ([1] ++ [(2 : Fin 4).val] : List Nat)) ∧ s.fw.commit = none) ∧
    (let s := { ring 9 3 [] with fw := { Fw.reset with nor := norRec } };
      s.fw.confirmed = false ∧ s.isBase = false ∧ s.bootRec = some (⟨2, 3, 7, 0, 0, false⟩, 0) ∧ (ring 9 3 []).bootRec = none ∧ (ring 0xC 3 []).svc.ready = false)) :=
  ⟨by unfold Asked Served; decide +kernel,
    by unfold Asked Served; decide +kernel,
    by unfold Asked Served; decide +kernel,
    by unfold Asked Served; decide +kernel,
    by unfold Asked Served; decide +kernel,
    by unfold Asked Served; decide +kernel,
    by unfold Asked Served; decide +kernel,
    by unfold Asked Served; decide +kernel,
    ⟨by unfold Asked Served; decide +kernel, imgGood_img1 _ rfl (by decide +kernel), by decide +kernel⟩,
    ⟨by unfold Asked Served; decide +kernel, imgGood_img1 _ rfl (by decide +kernel), by decide +kernel⟩,
    ⟨by unfold Asked Served; decide +kernel, fun k h => by injection h with h; rw [← h]; rfl, imgGood_img1 _ rfl (by decide +kernel), by decide +kernel, by decide +kernel, ⟨_, List.mem_cons_self .., rfl⟩⟩,
    ⟨⟨imgGood_img1 _ rfl (by decide +kernel), by unfold Asked Served; decide +kernel⟩,
      ⟨imgGood_img1 _ rfl (by decide +kernel), by unfold Asked Served; decide +kernel⟩,
      ⟨imgGood_img1 _ rfl (by decide +kernel), by unfold Asked Served; decide +kernel⟩⟩,
    ⟨by decide +kernel, imgGood_img1 _ rfl (by decide +kernel)⟩,
    by unfold Asked Served; decide +kernel,
    by unfold Asked Served; decide +kernel,
    by unfold Asked Served; decide +kernel,
    by unfold Asked Served; decide +kernel,
    by decide +kernel,
    by decide +kernel⟩



/-- An Outpost with its relay area at 0x100000, which holds a header, a block table and a block. -/
def relayS (hdr table block : List W8) (x : Sec) (f : Fw) : State :=
  { withRegs [(Reg.SYS_ROLE, 9), (Reg.CSC_RLY_BASE_LO, 0x100000), (Reg.CSC_RLY_SIZE, 2)] State.reset with
    sec := x, fw := f
    mem := { Mem.reset with ready := true, capMib := 1024, prot := false
                            dram := cellsAt 0x100000 hdr ++ (cellsAt 0x104400 table ++ cellsAt 0x110000 block) } }

theorem relayS_clean (a b c : List W8) (x : Sec) (f : Fw) : (relayS a b c x f).Clean :=
  ⟨rfl, rfl, rfl, rfl, rfl, fun _ h => absurd h List.not_mem_nil, fun _ h => absurd h List.not_mem_nil⟩

theorem relayS_base (a b c : List W8) (x : Sec) (f : Fw) : (relayS a b c x f).reg64 Reg.CSC_RLY_BASE_LO = 0x100000 := by
  exact (by decide +kernel : (withRegs [(Reg.SYS_ROLE, 9), (Reg.CSC_RLY_BASE_LO, 0x100000), (Reg.CSC_RLY_SIZE, 2)] State.reset).reg64
    Reg.CSC_RLY_BASE_LO = 0x100000)

theorem relay_unit1 (f : Fw) (sg : Sigs) : (relayS imgHdr (sha384 zeroBlock) zeroBlock Sec.reset f).unitPasses 1 sg = true := by
  have c := relayS_clean imgHdr (sha384 zeroBlock) zeroBlock Sec.reset f
  have hlt : ∀ e ∈ cellsAt 0x100000 imgHdr, e.1 < 0x104400 := fun e he => by
    have := mem_cellsAt_lt _ _ _ he
    rw [imgHdr_length] at this
    omega
  have hz : zeroBlock.length = 65536 := List.length_replicate
  have h1 : (relayS imgHdr (sha384 zeroBlock) zeroBlock Sec.reset f).dramPeek (0x100000 + 17408) 48 = sha384 zeroBlock := by
    rw [State.dramPeek_clean c]
    have := readCells_listed Config.dramByte (sha384 zeroBlock) 0x104400 (cellsAt 0x100000 imgHdr) (cellsAt 0x110000 zeroBlock) hlt
    rwa [length_sha384] at this
  have h2 : (relayS imgHdr (sha384 zeroBlock) zeroBlock Sec.reset f).dramPeek (0x100000 + 65536 * 1) 65536 = zeroBlock := by
    rw [State.dramPeek_clean c]
    have := readCells_listed Config.dramByte zeroBlock 0x110000 (cellsAt 0x100000 imgHdr ++ cellsAt 0x104400 (sha384 zeroBlock)) [] (fun e he => by
      rcases List.mem_append.mp he with he | he
      · have := hlt e he; omega
      · have := mem_cellsAt_lt _ _ _ he
        rw [length_sha384] at this
        omega)
    rw [hz, List.append_nil, List.append_assoc] at this
    exact this
  have hn : hdrNblk ((relayS imgHdr (sha384 zeroBlock) zeroBlock Sec.reset f).dramPeek 0x100000 800) = 1 := by
    rw [State.dramPeek_clean c]
    show hdrNblk (readCells Config.dramByte (cellsAt 0x100000 imgHdr ++ (cellsAt 0x104400 (sha384 zeroBlock) ++ cellsAt 0x110000 zeroBlock)) 0x100000 800) = 1
    decide +kernel
  unfold State.unitPasses
  rw [relayS_base]
  dsimp only
  rw [if_neg (by decide), hn, show 48 * min 1 256 = 48 from rfl, h1, h2]
  have hd : tableDigest (sha384 zeroBlock) (1 - 1) = sha384 zeroBlock := sliceB_of_all _ 48 (length_sha384 _)
  rw [hd, beq_self_eq_true]
  rfl

theorem relay_unit0 (l : List W8) (x : Sec) (sg : Sigs) (b : Bool)
    (h : ((relayS l [] [] x Fw.reset).headCheck (readCells Config.dramByte (cellsAt 0x100000 l) 0x100000 800)
      (readCells Config.dramByte (cellsAt 0x100000 l) 0x104400 (48 * min (hdrNblk (readCells Config.dramByte (cellsAt 0x100000 l) 0x100000 800)) 256))
      sg).isNone = b) : (relayS l [] [] x Fw.reset).unitPasses 0 sg = b := by
  have c := relayS_clean l [] [] x Fw.reset
  have e : (relayS l [] [] x Fw.reset).mem.dram = cellsAt 0x100000 l := List.append_nil _
  unfold State.unitPasses
  rw [relayS_base]
  dsimp only
  rw [if_pos rfl, State.dramPeek_clean c, State.dramPeek_clean c, e]
  exact h

theorem witness_FirmwareIsDownloadedCommittedAndHandedOver_relay :
    (let s := relayS [0, 0, 0, 0, 0, 0, 0, 0] [] [] Sec.reset Fw.reset;
      s.isBase = false ∧ s.fld Reg.CSC_RLY_SIZE 0 9 ≠ 0 ∧ s.unitPasses 0 ⟨true, true⟩ = false) ∧
    (let s := relayS imgHdr [] [] { Sec.reset with relayBoot := some 0 } Fw.reset;
      s.isBase = false ∧ s.fld Reg.CSC_RLY_SIZE 0 9 ≠ 0 ∧ s.unitPasses 0 ⟨true, true⟩ = true ∧ s.sec.relayBoot = some 0) ∧
    (let s := relayS imgHdr (sha384 zeroBlock) zeroBlock Sec.reset { Fw.reset with unitsOk := 1 };
      s.isBase = false ∧ s.fld Reg.CSC_RLY_SIZE 0 9 ≠ 0 ∧ s.unitPasses 1 ⟨true, true⟩ = true ∧ s.sec.relayBoot = none ∧ 1 = s.fw.unitsOk ∧
        0 < 1 ∧ s.relayNext 0 = none) := by
  refine ⟨⟨by decide +kernel, by decide +kernel, relay_unit0 _ _ _ _ (by decide +kernel)⟩,
    ⟨by decide +kernel, by decide +kernel, relay_unit0 _ _ _ _ (by decide +kernel), rfl⟩,
    ⟨?_, ?_, relay_unit1 _ _, rfl, rfl, by decide, ?_⟩⟩ <;> decide +kernel


/-- The ring's state changed. -/
def withCsc (s : State) (c : Csc) : State := { s with csc := c }
/-- What the cascade controller knows once the ring is numbered. -/
def known : Csc := { Csc.reset with sizeKnown := true }
/-- A flit of this type with SEQ and ACK 0 and this payload. -/
def flit (t : FlitType) (p : List W8) : Flit :=
  let f : Flit := ⟨0, 0, t, 0, 0, p, 0⟩
  { f with check := crc64 (flitBody f) }
/-- A PING packet. -/
def pingPk : Packet := ⟨8, 1, 0, true, 0, 3, 0, 0, []⟩
/-- An actor of a memory access elsewhere that port z's link has to resend. -/
def sentOnce (r : Nat) : ZLink := { ZLink.reset with replay := [flit .data []], resends := r }

theorem witness_CascadeRingIsNumberedAndLinksCarry :
    ((sbClass 37 = some (.east 4) ∧ sbClass 43 = some (.east 4) ∧ sbClass 47 = some (.west 3) ∧ sbClass 83 = some (.west 0) ∧ sbClass 84 = none ∧ sbClass 7 = some (.east 1) ∧ sbClass 30 = some (.east 3) ∧ sbClass 6 = none) ∧
    ((ring 9 2 []).isBase = false ∧ (ring 9 2 []).posValid = true ∧ (ring 9 2 []).pos = 1 ∧ (ring 9 2 []).pos ≠ 4 ∧ (ring 0 2 []).posValid = false ∧ (ring 0 2 []).isBase = false) ∧
    (let s := withCsc (ring 0xC 2 [(Reg.CSC_RING, 0x14)]) { known with rollCall := true };
      s.isBase = true ∧ s.csc.rollCall = true ∧ s.fld Reg.CSC_RING 0 4 = 4 ∧ (∀ z : ZPort, s.zState z = 0 ∧ s.rbit Reg.CSC_CTRL (1 + z.val) = false ∧ s.zState z ∈ [0, 5]) ∧ (ring 0xC 2 []).csc.rollCall = false ∧
      (s.csc.rollCall = true ∧ s.csc.rcClosed = false ∧ 1 ≤ s.fld Reg.CSC_RING 0 4 ∧ s.fld Reg.CSC_RING 0 4 ≤ 4)) ∧
    (let s := withCsc (ring 0xC 2 [(Reg.CSC_RING, 0x14), (Reg.CSC_CTRL, 7)]) { known with rollCall := true };
      s.isBase = true ∧ s.csc.rollCall = true ∧ (∀ z : ZPort, s.zState z = 0 ∧ s.rbit Reg.CSC_CTRL (1 + z.val) = true) ∧ s.fld Reg.CSC_RING 0 4 ≠ 2) ∧
    (let s := withCsc (ring 0xC 2 [(Reg.CSC_RING, 0x15)]) { known with rollCall := true, rcClosed := true };
      s.csc.rollCall = true ∧ s.csc.rcClosed = true ∧ ¬ (s.csc.rollCall = true ∧ s.csc.rcClosed = false ∧ 1 ≤ s.fld Reg.CSC_RING 0 4 ∧ s.fld Reg.CSC_RING 0 4 ≤ 4)) ∧
    (let s := withCsc (ring 9 2 [(Reg.CSC_CTRL, 9)]) { known with offers := [(true, 0)], wakeFwd := some false, wakeAt := some 0 };
      s.csc.offers = [(true, 0)] ∧ s.csc.wakeFwd = some false ∧ (s.csc.wakeAt = some 0 ∧ s.now - 0 < 50000) ∧ s.rbit Reg.CSC_CTRL 3 = true ∧
      (ring 9 2 []).csc.offers = [] ∧ (ring 9 2 []).csc.wakeFwd = none ∧ (ring 9 2 []).rbit Reg.CSC_CTRL 3 = false ∧ (ring 9 2 []).csc.wakeAt = none)) ∧
    (((task (.fence 0 0 0 0 0) []).mayReg (.thread 0) Reg.CSC_SB = false ∧ (task (.fence 0 0 0 0 0) []).mayReg (.thread 0) (Reg.CSC_PORT_CTRL 1) = false ∧ (ring 0xC 2 []).mayReg .debug Reg.CSC_SB = true ∧ (ring 0xC 2 []).isBase = true ∧ (ring 9 2 []).isBase = false ∧ (1 : W32).getLsbD 0 = true ∧ (0 : W32).getLsbD 0 = false) ∧
    (∀ z ∈ ([0, 1] : List ZPort), (ring 9 2 [(Reg.CSC_PORT_STATE z, 1)]).zState z = 1 ∧ (ring 9 2 []).zState z ≠ 1) ∧
    (let a : AuthResult := ⟨true, true, 0, true, 2, 0xFFFFFFFFFFFFFFFF⟩; let s := ring 9 2 [(Reg.CSC_PORT_STATE 1, 2)];
      s.zState 1 = 2 ∧ s.posValid = true ∧ s.ringN ≤ 4 ∧ s.authOk 1 a = true ∧ s.authOk 1 { a with pos := 3 } = false ∧ (ring 0 2 [(Reg.CSC_PORT_STATE 1, 2)]).posValid = false) ∧
    (let a : AuthResult := ⟨true, true, 1, true, 2, 0⟩; let s := ring 0xC 2 [(Reg.CSC_PORT_STATE 0, 2)];
      s.zState 0 = 2 ∧ s.posValid = true ∧ s.ringN ≤ 4 ∧ s.isBase = true ∧ a.basecamp = true ∧ s.authOk 0 a = false) ∧
    (let s := ring 9 2 [(Reg.CSC_PORT_STATE 1, 3)]; let g := { flit .data [] with seq := 1023 };
      s.zLocked 1 = true ∧ (ring 9 2 []).zLocked 1 = false ∧ s.keyed 1 = false ∧ (flit .data []).type = .data ∧ (flit .data []).check = crc64 (flitBody (flit .data [])) ∧ (flit .data []).seq = BitVec.ofNat 10 (s.link 1).rxSeq ∧
      (s.link 1).sendQ = [] ∧ g.check ≠ crc64 (flitBody g) ∧ ({ g with check := crc64 (flitBody g) } : Flit).seq ≠ BitVec.ofNat 10 (s.link 1).rxSeq ∧ (flit .idle [5]).check = crc64 (flitBody (flit .idle [5])) ∧ s.unseqOk 1 (flit .idle [5]) = true)) ∧
    ((let s := ring 9 2 [(Reg.CSC_PORT_STATE 1, 3)]; let f := flit .data (pktBytes pingPk); let r := parsePackets ((s.link 1).rxBuf ++ padTo 244 f.payload) (((s.link 1).rxBuf.length + 244) / 4 + 1);
      s.zLocked 1 = true ∧ f.check = crc64 (flitBody f) ∧ f.seq = BitVec.ofNat 10 (s.link 1).rxSeq ∧ r = ([pingPk], []) ∧
      (∀ p ∈ r.1, 1 ≤ p.kind.toNat ∧ p.kind.toNat ≤ 9)) ∧
    (let s := withCsc (ring 9 2 [(Reg.CSC_PORT_STATE 1, 0x13)]) { known with west := { ZLink.reset with idleRx := 5 } };
      s.zLocked 1 = true ∧ s.keyed 1 = true ∧ s.unseqOk 1 (flit .idle [5]) = true ∧ s.unseqOk 1 (flit .idle [4]) = false ∧ (s.link 1).sendQ = []) ∧
    (let s := withCsc (ring 9 2 [(Reg.CSC_PORT_STATE 1, 3)]) { known with west := sentOnce 3 };
      s.zLocked 1 = true ∧ (s.link 1).replay ≠ [] ∧ (s.link 1).resends < 4 ∧ s.csc.reqs = [] ∧ ((s.link 1).acked 1023).replay ≠ [] ∧ ((s.link 1).acked 0).replay = []) ∧
    (let s := withCsc (ring 9 2 [(Reg.CSC_PORT_STATE 1, 3)]) { known with west := sentOnce 4 };
      s.zLocked 1 = true ∧ (s.link 1).replay ≠ [] ∧ 4 ≤ (s.link 1).resends ∧ s.csc.reqs = []) ∧
    (let r : CscReq := ⟨7, 1, false, 4, 0, 16, [], .msg 191, false⟩; let s := withCsc (ring 0xC 2 [(Reg.CSC_PORT_STATE 0, 3)]) { known with reqs := [r] };
      s.zLocked 0 = true ∧ s.zState 0 = 3 ∧ s.csc.reqs = [r] ∧ r.kind = 4 ∧ r.use = .msg (191 : Thr).val ∧ s.segUsable (s.segOf 0) = true ∧ s.segOf 0 ∈ s.pathSegs r.dst r.west)) ∧
    ((let s := withCsc (ring 0xC 2 [(Reg.CSC_PORT_STATE 0, 3), (Reg.CSC_FLTWIN, 0x01001000)]) { known with east := { ZLink.reset with sendQ := [pingPk], bad := [7] } };
      s.zState 0 = 3 ∧ (s.link 0).sendQ ≠ [] ∧ s.badWindow 0 = true ∧ s.csc.reqs = [] ∧ (ring 0xC 2 [(Reg.CSC_PORT_STATE 0, 3)]).badWindow 0 = false) ∧
    (let s := withCsc (ring 0xC 2 [(Reg.CSC_PORT_STATE 0, 3)]) { known with east := { ZLink.reset with txKeyUse := 2 ^ 32, rxSeq := 2 ^ 32 } };
      s.zState 0 = 3 ∧ 2 ^ 32 ≤ (s.link 0).txKeyUse ∧ 2 ^ 32 * ((s.link 0).rxKey + 1) ≤ (s.link 0).rxSeq ∧ ZLink.reset.txKeyUse < 2 ^ 32) ∧
    ((3 : W32).getLsbD 1 = true ∧ (3 : W32).getLsbD 0 = true ∧ (ring 9 2 [(Reg.CSC_PORT_STATE 1, 5)]).zState 1 = 5 ∧ (ring 9 2 [(Reg.CSC_PORT_STATE 1, 4)]).zState 1 = 4 ∧ (ring 9 2 []).mayReg .debug (Reg.CSC_PORT_CTRL 1) = true)) :=
  ⟨by decide +kernel,
    by decide +kernel,
    by decide +kernel,
    by decide +kernel⟩



/-- Outpost 1 of a ring of `n` has taken this packet in from the west, whose port is UP. -/
def gotS (n : Nat) (pk : Packet) (l : List (Nat × W32)) : State :=
  withCsc (ring 9 n ((Reg.CSC_PORT_STATE 1, 3) :: l)) { known with west := { ZLink.reset with pktIn := [pk] } }
/-- A packet from the Basecamp to part 1. -/
def pk0 (kind arg len : Nat) (data : List W8) : Packet := ⟨BitVec.ofNat 8 kind, 0, 1, false, 0, 1023, BitVec.ofNat 32 len, BitVec.ofNat 64 arg, data⟩
/-- A completion that ends a request of this use to part 0. -/
def cplS (use : CscUse) (st : Nat) : State :=
  withCsc (ring 9 2 [(Reg.CSC_PORT_STATE 1, 3)])
    { known with west := { ZLink.reset with pktIn := [pk0 3 st 0 []] }, reqs := [⟨1023, 0, true, 2, 0x10, 0, [], use, false⟩] }

theorem witness_CascadePacketsAreServedAndRequestsEnd :
    ((7, Instr.resetPkt 1 pingPk) ∈ [(1, Instr.mwr 1 pingPk), (7, .resetPkt 1 pingPk)] ∧ (pk0 7 0 0 []).kind.toNat = 7 ∧ (gotS 2 (pk0 7 0 0 []) []).mayTake 1 (pk0 7 1 0 []) = false ∧ (ring 9 2 []).zState 1 ≠ 3 ∧ (ring 9 2 [(Reg.CSC_CTRL, 0)]).rbit Reg.CSC_CTRL 0 = false) ∧
    (let p := pk0 7 2 0 []; let s := gotS 2 p []; let u := s.takePkt 1 p;
      Takes s u 1 7 p ∧ u.malformed 1 p = true ∧ p.dst.toNat = u.pos) ∧
    (let p := pk0 9 4 0 []; let s := gotS 2 p []; let u := s.takePkt 1 p;
      Takes s u 1 9 p ∧ u.malformed 1 p = true) ∧
    (let p : Packet := { pk0 1 0 5 [1, 2, 3, 4, 5] with dst := 2 }; let s := gotS 3 p []; let u := s.takePkt 1 p;
      Takes s u 1 1 p ∧ u.malformed 1 p = false ∧ p.dst.toNat ≠ u.pos) ∧
    (let p := pk0 1 0x3FFFFFFD 3 [1, 2, 3]; let s := gotS 2 p []; let u := s.takePkt 1 p;
      Meets s u 1 1 p ∧ 0x3FFFFFFD < 2 ^ 34 ∧ 0x3FFFFFFD + 3 ≤ u.dramSize ∧ u.inWindow 0 0x3FFFFFFD 3 true = false) ∧
    (let p := pk0 2 0x3FFFFFFD 4 []; let s := gotS 2 p []; let u := s.takePkt 1 p;
      Meets s u 1 2 p ∧ u.dramSize < 0x3FFFFFFD + 4) ∧
    (let p := pk0 2 0x400000000 4096 []; let s := gotS 2 p []; let u := s.takePkt 1 p;
      Meets s u 1 2 p ∧ 2 ^ 34 ≤ p.arg.toNat ∧ sramPopulated 0 = true ∧ sramPopulated 4095 = true ∧ u.rbit Reg.CSC_INCTRL 0 = false ∧ (gotS 2 p [(Reg.CSC_INCTRL, 1)]).rbit Reg.CSC_INCTRL 0 = true) ∧
    (let p := pk0 2 0x401000000 1 []; let s := gotS 2 p []; let u := s.takePkt 1 p;
      Meets s u 1 2 p ∧ 2 ^ 34 ≤ p.arg.toNat ∧ 0x401000000 < p.arg.toNat + 1 ∧ p.arg.toNat < 0x800000000) ∧
    (let p := pk0 1 0x80012FFFC 4 [1, 2, 3, 4]; let s := gotS 2 p []; let u := s.takePkt 1 p;
      Meets s u 1 1 p ∧ p.arg.toNat = 0x800000000 + 0x12FFFC ∧ 0x12FFFC + 4 ≤ 0x130000 ∧ u.rbit Reg.CSC_INCTRL 1 = false ∧ (gotS 2 p [(Reg.CSC_INCTRL, 2)]).rbit Reg.CSC_INCTRL 1 = true) ∧
    (let p := pk0 1 4092 4 [1, 2, 3, 4]; let s := gotS 2 p [(Reg.CSC_INWIN_LIMIT 0, 0x11000001)]; let u := s.takePkt 1 p;
      Meets s u 1 1 p ∧ 4092 + 4 ≤ u.dramSize ∧ u.inWindow 0 4092 4 true = true) ∧
    (let p := pk0 2 4088 8 []; let s := gotS 2 p [(Reg.CSC_INWIN_LIMIT 0, 0x11000001)]; let u := s.takePkt 1 p;
      Meets s u 1 2 p ∧ u.inWindow 0 4088 8 false = true ∧ (u.memRead 4088 8).2.1 = false) ∧
    (let p := pk0 2 0 8 []; let s := { gotS 2 p [(Reg.CSC_INWIN_LIMIT 0, 0x01000001)] with mem := { ready.mem with lines := [(0, ⟨0, false⟩)], cw := [(0, ⟨0, 0xFFFF⟩)] } }; let u := s.takePkt 1 p;
      Meets s u 1 2 p ∧ u.inWindow 0 0 8 false = true ∧ (u.memRead 0 8).2.1 = true) ∧
    (let p := pk0 2 0x400400000 8 []; let s := gotS 2 p [(Reg.CSC_INCTRL, 1)]; let u := s.takePkt 1 p;
      Meets s u 1 2 p ∧ u.rbit Reg.CSC_INCTRL 0 = true ∧ (u.memRead (0x010000000000 + 0x400000) 8).2.1 = false) ∧
    (let p := pk0 2 0x80004000C 4 []; let s := gotS 2 p [(Reg.CSC_INCTRL, 2)]; let u := s.takePkt 1 p;
      Meets s u 1 2 p ∧ u.rbit Reg.CSC_INCTRL 1 = true ∧ p.arg.toNat = 0x800000000 + 0x4000C ∧ 0x4000C % 4 = 0) ∧
    (∀ x ∈ [CscUse.msg 191, .load 191, .store 5, .ping], ∀ st ∈ [0, 4], let s := cplS x st; let p := pk0 3 st 0 []; let u := s.takePkt 1 p
      Meets s u 1 3 p ∧ u.csc.reqs.find? (fun r => r.tag == p.tag.toNat) = some ⟨1023, 0, true, 2, 0x10, 0, [], x, false⟩ ∧ p.arg.toNat = st) ∧
    (let p := pk0 3 0 0 []; let s := gotS 2 p []; let u := s.takePkt 1 p;
      Meets s u 1 3 p ∧ u.csc.reqs.find? (fun r => r.tag == p.tag.toNat) = none) ∧
    (let p := pk0 4 0 16 (List.replicate 16 0xFF); let s := gotS 2 p []; let u := s.takePkt 1 p;
      Meets s u 1 4 p) ∧
    (let p := pk0 5 0 4 [1, 0, 0, 0x80]; let s := gotS 2 p [(Reg.CSC_DOORBELL, 2)]; let u := s.takePkt 1 p;
      Meets s u 1 5 p ∧ s.reg Reg.CSC_DOORBELL ≠ 0 ∧ (gotS 2 p []).reg Reg.CSC_DOORBELL = 0 ∧ leAt p.data 0 4 ≠ 0) ∧
    (let p := pk0 6 65535 1 [9]; let s := gotS 2 p [(Reg.CSC_RLY_SIZE, 1)]; let u := s.takePkt 1 p; let size := min 257 (u.fld Reg.CSC_RLY_SIZE 0 9) * 65536;
      Meets s u 1 6 p ∧ size ≠ 0 ∧ 65535 + p.data.length ≤ size ∧ size < 65536 + p.data.length ∧
      (gotS 2 p []).fld Reg.CSC_RLY_SIZE 0 9 = 0) ∧
    (let p := pk0 7 1 0 []; let s := gotS 2 p []; let u := s.takePkt 1 p;
      Meets s u 1 7 p) ∧
    (let p := pk0 8 0 0 []; let s := gotS 2 p []; let u := s.takePkt 1 p;
      Meets s u 1 8 p) ∧
    (let p := pk0 9 0x1_0004_0100 0 []; let s := gotS 2 p []; let u := s.takePkt 1 p;
      Meets s u 1 9 p ∧ p.src.toNat ≠ u.pos ∧ newerSeq (smFind u.csc.seen p.src.toNat) (p.arg.toNat / 2 ^ 32 % 65536) = true ∧ u.csc.reqs = [] ∧
      p.arg.toNat / 256 % 256 ≠ 0 ∧ u.isBase = false ∧ p.arg.toNat / 2 ^ 16 % 256 = 4) ∧
    (let p := pk0 9 0x1_0000_0000 0 []; let s := withCsc (gotS 2 p []) { (gotS 2 p []).csc with seen := [(0, 1)] }; let u := s.takePkt 1 p;
      Meets s u 1 9 p ∧ newerSeq (smFind u.csc.seen p.src.toNat) (p.arg.toNat / 2 ^ 32 % 65536) = false) ∧
    ((∀ x ∈ [CscUse.msg 191, .load 191, .store 5], (cplS x 0).csc.reqs.find? (fun r => r.tag == (1023 : BitVec 10).toNat) = some ⟨1023, 0, true, 2, 0x10, 0, [], x, false⟩ ∧ (cplS x 0).csc.reqs.find? (fun r => r.tag == (0 : BitVec 10).toNat) = none) ∧
    ((ring 9 2 [(Reg.CSC_CTRL, 0)]).rbit Reg.CSC_CTRL 0 = false ∧ (ring 0 2 []).rbit Reg.CSC_CTRL 0 = true ∧ (ring 0 2 []).isBase = false ∧ (ring 0 2 []).posValid = false ∧ (ring 9 2 []).pingRoute 0 = some false ∧ (ring 9 2 []).freeTag = some 0 ∧
      (ring 9 2 [(Reg.CSC_SEGMAP, 0)]).pingRoute 0 = none) ∧
    (let s := withCsc (ring 9 2 [(Reg.CSC_SEGMAP, 0)]) { known with missed := [(0, 2)] };
      s.pingRoute 0 = none ∧ 3 ≤ smGet (fun _ => 0) s.csc.missed 0 + 1 ∧ s.fld (Reg.CSC_PART_STATE 0) 0 2 ≠ 3) ∧
    (let s := ring 0xC 4 [];
      s.mayReg (.thread (191 : Thr)) (Reg.CSC_MSG_SEND 191) = true ∧ s.mayReg .debug Reg.CSC_RESET = true ∧ s.route 0 = none ∧ s.route 3 = some true ∧ s.freeTag = some 0 ∧ (16 : W32).getLsbD 4 = true ∧ (0 : W32).getLsbD 4 = false ∧ Agent.debug ≠ .thread 5 ∧ (ring 9 4 []).isBase = false ∧
      s.isBase = true ∧ (0x18 : W32).toNat % 16 / 2 * 2 = 2 ^ 3 ∧ (task (.fence 0 0 0 0 0) []).mayReg (.thread 0) (Reg.CSC_MSG_SEND 0) = false ∧ (task (.fence 0 0 0 0 0) []).mayReg (.thread 0) Reg.CSC_RESET = false ∧ s.route 2 ≠ none ∧ (0x14 : W32).toNat % 16 / 2 * 2 = 2 ^ 2)) :=
  ⟨by decide +kernel,
    by unfold Takes; decide +kernel,
    by unfold Takes; decide +kernel,
    by unfold Takes; decide +kernel,
    by unfold Meets Takes; decide +kernel,
    by unfold Meets Takes; decide +kernel,
    by unfold Meets Takes; decide +kernel,
    by unfold Meets Takes; decide +kernel,
    by unfold Meets Takes; decide +kernel,
    by unfold Meets Takes; decide +kernel,
    by unfold Meets Takes; decide +kernel,
    by unfold Meets Takes; decide +kernel,
    by unfold Meets Takes; decide +kernel,
    by unfold Meets Takes; decide +kernel,
    by unfold Meets Takes; decide +kernel,
    by unfold Meets Takes; decide +kernel,
    by unfold Meets Takes; decide +kernel,
    by unfold Meets Takes; decide +kernel,
    by unfold Meets Takes; decide +kernel,
    by unfold Meets Takes; decide +kernel,
    by unfold Meets Takes; decide +kernel,
    by unfold Meets Takes; decide +kernel,
    by unfold Meets Takes; decide +kernel,
    by decide +kernel⟩



/-! ### Single steps and values; those of the spec's own examples name their chapter -/

/-- What a command left in the register at `o`. -/
def regAfter (i : Instr) (s : State) (o : Nat) : Option W32 :=
  match exec i s with
  | .next t => some (t.reg o)
  | _ => none

/-- The example after R394: a flipped data bit 29, bits 29 and 37, and a poisoned word. -/
theorem test_parity_example :
    checkBits 0x0123456789ABCDEF = 0x00FF ∧
      correctedData ((⟨0x0123456789ABCDEF, 0⟩ : CWord).upset 0x20000000) = 0x0123456789ABCDEF ∧
      diagnose ((⟨0x0123456789ABCDEF, 0⟩ : CWord).upset 0x20000000).syn = .corrected 29 ∧
      ((⟨0x0123456789ABCDEF, 0⟩ : CWord).upset 0x2020000000).syn = 0x0018 ∧ ((⟨0x0123456789ABCDEF, 0⟩ : CWord).upset 0x2020000000).bad = true := by
  decide +kernel

/-- The example after R382: usable address 0x1_0000_0100 with PROT = 1. -/
theorem test_dram_channel : dramChan true 0x100000100 = 1 ∧ dramChan false 0x100 = 1 ∧ dramChan false 0x200 = 0 := by decide

/-- The s.tid of HE17 t2 in part 0 of a numbered ring (17 reliability, the example of an exception). -/
theorem test_tid : (withRegs [(Reg.SYS_ROLE, 0xC)] State.reset).tid 70 = 0x2246 := by decide +kernel

/-- A load of 11.5 W drains the account by 2 mJ per ms against the sustained limit of 9.5 W (14 power, Firewood). -/
theorem test_power_account : (match exec (.powerMeasure 11500) { State.reset with pwr := { Pwr.reset with acct := 60000000 } } with
    | .next t => t.pwr.acct
    | _ => 0) = 59998000 := by decide +kernel

/-- Check values of the CRCs of R141, and of SHA-384 on "abc" (the standards' own). -/
theorem test_crc : crc64 [0x31, 0x32, 0x33, 0x34, 0x35, 0x36, 0x37, 0x38, 0x39] = 0x995DC9BBDF1939FA ∧
    crc32c [0x31, 0x32, 0x33, 0x34, 0x35, 0x36, 0x37, 0x38, 0x39] = 0xE3069283 := by decide +kernel
theorem test_sha384 : ofBe (sha384 [0x61, 0x62, 0x63]) =
    0xCB00753F45A35E8BB5A03D699AC65007272C32AB0EDED1631A8B605A43FF5BED8086072BA1E7CC2358BAECA134C825A7 := by decide +kernel
/-- AES-256 of the standard's example (FIPS 197, C.3). -/
theorem test_aes256 : ofBe (aesEnc (aesKeys ((List.range 32).map fun i => BitVec.ofNat 8 i)) ((List.range 16).map fun i => BitVec.ofNat 8 (17 * i))) =
    0x8EA2B7CA516745BFEAFC49904B496089 := by decide +kernel

/-- Division by 0 and the carry and borrow of sums (R44). -/
theorem test_alu : aluResult Thread.reset 0x000 0xFFFFFFFFFFFFFFFF 1 = some 0 ∧ aluResult Thread.reset 0x001 0 1 = some 0xFFFFFFFFFFFFFFFF := by
  decide +kernel

/-- A saturating counter stays at all ones (R23). -/
theorem test_counter_saturates : satAdd 0xFFFFFFFF 1 32 = 0xFFFFFFFF := by decide

/-- SEC_LOCK bits only set (R462). -/
theorem test_lock_sets : regAfter (.secLockWrite 0x15) (withRegs [(Reg.SEC_LOCK, 2)] State.reset) Reg.SEC_LOCK = some 7 := by decide +kernel

/-- The sideband offers the next position as a pulse of 10 times that many microseconds (R351). -/
theorem test_offer_pulse : (match exec .offerForward { State.reset with csc := { Csc.reset with offers := [(false, 3)] } } with
    | .next t => t.out
    | _ => []) = [.sideband false 30] := by decide +kernel

/-- A reader with one tap at 1.0 and a delay. -/
def oneTap (k : Nat) (dly : Int) : Rdr := ⟨true, 0, 0, 0, dly, (List.range 13).map fun i => if i = k then 4096 else 0⟩

/-- The equaliser's outputs for one reader's samples. -/
def eqOne (r : Rdr) (n : Nat) (l : List W8) : List Int := eqRun [r.taps.reverse] n [eqSamples r l]

/-- Reader asymmetry and the equaliser by hand from R106 and R107: 16 · 100² / 16,384 = 9.77 rounds to 10; tap 6 gives sample
n, with a delay of 1 sample n + 1, and tap 7 gives sample n - 1; 5 codes are 80 sixteenths. -/
theorem test_equaliser_by_hand :
    asymCorrect 16 100 = 110 ∧ asymCorrect 16 (-100) = -90 ∧ asymCorrect 127 127 = 127 ∧
    eqOne (oneTap 6 0) 4 [5, 0xFE, 7] = [80, -32, 112, 0] ∧ eqOne (oneTap 6 1) 3 [5, 0xFE, 7] = [-32, 112, 0] ∧
    eqOne (oneTap 7 0) 4 [5, 0xFE, 7] = [0, 80, -32, 112] ∧ eqOut 5000192 = 16383 := by decide +kernel


end Sys2Proof.Tests
end

section
namespace Sys2Proof.Machine

/-! ### The reset state (R7, R20, R28, R30, R453) -/

/-- At reset no block raises its event: every status register holds 0 (R24). -/
theorem State.reset_risen : State.reset.risen = [] := by decide +kernel

/-- Only thread 0 of HE40 differs from a thread that has never run (R30, R453). -/
theorem State.reset_thr (p : Nat) :
    State.reset.thr p = if p = 160 then { Thread.reset with pc := 0x010000280000 } else Thread.reset := by
  by_cases h : p = 160
  · subst h; rfl
  · simp [State.thr, State.reset, smGet, smFind, h, Ne.symm h]

/-- Settles O5: nothing is listed at reset but one thread, so every register reads as tabled and no event stands. -/
theorem resetStateIsAsTabled : Obligations.ResetStateIsAsTabled := by
  refine ⟨rfl, fun _ => rfl, fun _ => rfl, rfl, fun p hp => ?_, fun _ => rfl, rfl, ⟨?_, ?_⟩, rfl, State.reset_memOk⟩
  · rw [State.reset_thr, if_neg hp]
  · exact State.reset_risen.symm
  · intro d hd
    exact absurd hd List.not_mem_nil

/-! ### Register writes: which ones start something is a matter of the register and the agent alone -/

theorem State.isSome_wrSys (s t : State) (off : Nat) (v w : W32) : (s.wrSys off v).isSome = (t.wrSys off w).isSome := by
  unfold State.wrSys
  cases regIx off 0x100 4 6 <;> simp [apply_ite Option.isSome]

theorem State.isSome_wrNvq (s t : State) (ag : Agent) (off : Nat) (v w : W32) :
    (s.wrNvq ag off v).isSome = (t.wrNvq ag off w).isSome := by
  unfold State.wrNvq
  cases regIx off 0x034000 4 768 <;> cases ag <;> simp [apply_ite Option.isSome]

theorem State.isSome_wrCsc (s t : State) (ag : Agent) (off : Nat) (v w : W32) :
    (s.wrCsc ag off v).isSome = (t.wrCsc ag off w).isSome := by
  unfold State.wrCsc
  cases regIx off 0x040104 0x40 2 <;> cases regIx off 0x044010 0x20 192 <;> simp [apply_ite Option.isSome]

theorem State.isSome_wrDma (s t : State) (off : Nat) (v w : W32) : (s.wrDma off v).isSome = (t.wrDma off w).isSome := by
  unfold State.wrDma
  cases regIx off 0x071000 0x40 32 <;> simp

theorem State.isSome_wrMca (s t : State) (m off : Nat) (v w : W32) : (s.wrMca m off v).isSome = (t.wrMca m off w).isSome := by
  simp [State.wrMca, apply_ite Option.isSome]

theorem State.isSome_wrGyl (s t : State) (off : Nat) (v w : W32) : (s.wrGyl off v).isSome = (t.wrGyl off w).isSome := by
  unfold State.wrGyl
  cases regIx off 0x0A1000 0x400 6 <;> cases regIx off 0x0A3000 0x100 2 <;> cases regIx off 0x0A3030 0x100 2 <;>
    simp [apply_ite Option.isSome]

/-- Whether a write starts anything depends on the register and the agent, not on the state or on the value written. -/
theorem State.isSome_wrSpecial (s t : State) (ag : Agent) (off : Nat) (v w : W32) :
    (s.wrSpecial ag off v).isSome = (t.wrSpecial ag off w).isSome := by
  unfold State.wrSpecial
  split
  case h_1 => exact s.isSome_wrSys ..
  case h_3 => exact s.isSome_wrNvq ..
  case h_4 => exact s.isSome_wrCsc ..
  case h_7 => exact s.isSome_wrDma ..
  case h_8 => exact s.isSome_wrMca ..
  case h_9 => exact s.isSome_wrMca ..
  case h_10 => exact s.isSome_wrGyl ..
  all_goals simp [State.wrHif, apply_ite Option.isSome]

/-- A register that starts nothing starts nothing whatever hardware does to it in the same cycle. -/
theorem State.specialWrite_eq_none {s : State} {ag : Agent} {off : Nat} {v : W32} (h : s.wrSpecial ag off v = none)
    (hwSet hwClr : W32) : s.specialWrite ag off v hwSet hwClr = none := by
  have none_of (t : State) (w : W32) : t.wrSpecial ag off w = none := by
    simpa [h] using (s.isSome_wrSpecial t ag off v w).symm
  simp [State.specialWrite, none_of]

/-- A register outside blocks held in reset, no pair half and starting nothing, is written by its access types alone (R6). -/
theorem State.regWrite_eq_basicWrite {s : State} {ag : Agent} {off : Nat} {v : W32} (hr : s.heldInReset off = false)
    (hl : isPairLo off = false) (hh : isPairHi off = false) (hn : s.wrSpecial ag off v = none) (hwSet hwClr : W32) :
    s.regWrite ag off v hwSet hwClr = s.basicWrite off v hwSet hwClr := by
  simp [State.regWrite, hr, hl, hh, State.specialWrite_eq_none hn]

/-- A write by the access types of a register's row stores `writtenVal` (R6, R21). -/
theorem State.basicWrite_of_row {s : State} {off : Nat} {r : RegRow} (hr : s.heldInReset off = false)
    (hrow : regRow? off = some r) (v hwSet hwClr : W32) : s.basicWrite off v hwSet hwClr =
      s.setReg off (writtenVal (s.reg off) v hwSet hwClr (s.lockedBits off r) r) := by
  simp [State.basicWrite, hr, hrow]

/-- A write where no register lies changes nothing (R4). -/
theorem State.basicWrite_of_no_row {off : Nat} (hrow : regRow? off = none) (s : State) (v hwSet hwClr : W32) :
    s.basicWrite off v hwSet hwClr = s := by
  simp [State.basicWrite, hrow]

/-! ### Register writes by access type -/

/-- The value written, bit by bit: what is stored, what a command or a hardware clear makes of it, what a status bit's clear and
set make of it, and the hardware clear that wins (R6, R21). -/
theorem getLsbD_writtenVal (old v hwSet hwClr locked : W32) (r : RegRow) {i : Nat} (hi : i < 32) :
    (writtenVal old v hwSet hwClr locked r).getLsbD i =
      (let rw := r.rw.testBit i && !locked.getLsbD i && !r.cmd.testBit i
       let setting := r.cmd.testBit i || r.w1s.testBit i
       let stored := (old.getLsbD i && !rw) || (v.getLsbD i && rw)
       let command := (stored && !(hwClr.getLsbD i && setting)) || (v.getLsbD i && setting)
       let status := (command && !(v.getLsbD i && r.w1c.testBit i)) || (hwSet.getLsbD i && r.w1c.testBit i)
       status && !(hwClr.getLsbD i && r.hwc.testBit i)) := by
  simp only [writtenVal, BitVec.getLsbD_and, BitVec.getLsbD_or, BitVec.getLsbD_not, BitVec.getLsbD_ofNat, hi, decide_true,
    Bool.true_and]
  cases r.cmd.testBit i <;> cases r.w1s.testBit i <;> simp

section
variable {old v hwSet hwClr locked : W32} {r : RegRow} {i : Nat} (hi : i < 32)
include hi

/-- An RW bit that is not locked takes the value written, unless hardware clears it (R6, R21). -/
theorem getLsbD_writtenVal_rw (hrw : r.rw.testBit i = true) (h1c : r.w1c.testBit i = false) (h1s : r.w1s.testBit i = false)
    (hcmd : r.cmd.testBit i = false) (hlock : locked.getLsbD i = false) :
    (writtenVal old v hwSet hwClr locked r).getLsbD i = (v.getLsbD i && !(r.hwc.testBit i && hwClr.getLsbD i)) := by
  simp [getLsbD_writtenVal _ _ _ _ _ _ hi, hrw, h1c, h1s, hcmd, hlock, Bool.or_comm]

/-- A W1C bit clears on a 1 unless hardware sets it (R6, R21). -/
theorem getLsbD_writtenVal_w1c (hrw : r.rw.testBit i = false) (h1c : r.w1c.testBit i = true) (h1s : r.w1s.testBit i = false)
    (hcmd : r.cmd.testBit i = false) (hhwc : r.hwc.testBit i = false) :
    (writtenVal old v hwSet hwClr locked r).getLsbD i = ((old.getLsbD i && !v.getLsbD i) || hwSet.getLsbD i) := by
  simp [getLsbD_writtenVal _ _ _ _ _ _ hi, hrw, h1c, h1s, hcmd, hhwc]

/-- A W1S bit or a command bit sets on a 1, which wins over a hardware clear (R6, R21). -/
theorem getLsbD_writtenVal_set (h1c : r.w1c.testBit i = false) (hset : r.w1s.testBit i = true ∨ r.cmd.testBit i = true)
    (hhwc : r.hwc.testBit i = false) (hrw : r.cmd.testBit i = true ∨ r.rw.testBit i = false) :
    (writtenVal old v hwSet hwClr locked r).getLsbD i = (v.getLsbD i || (old.getLsbD i && !hwClr.getLsbD i)) := by
  have hsetting : (r.cmd.testBit i || r.w1s.testBit i) = true := by simpa [or_comm] using hset
  have hnot : (r.rw.testBit i && !locked.getLsbD i && !r.cmd.testBit i) = false := by
    rcases hrw with h | h <;> simp [h]
  simp only [getLsbD_writtenVal _ _ _ _ _ _ hi, hsetting, hnot, h1c, hhwc]
  simp [Bool.or_comm]

/-- A bit that is locked, or of no access type that a write acts on, keeps its value (R6, R462). -/
theorem getLsbD_writtenVal_kept (hrw : r.rw.testBit i = false ∨ locked.getLsbD i = true) (h1c : r.w1c.testBit i = false)
    (h1s : r.w1s.testBit i = false) (hcmd : r.cmd.testBit i = false) (hhwc : r.hwc.testBit i = false) :
    (writtenVal old v hwSet hwClr locked r).getLsbD i = old.getLsbD i := by
  rcases hrw with h | h <;> simp [getLsbD_writtenVal _ _ _ _ _ _ hi, h, h1c, h1s, hcmd, hhwc]

end

/-- REGISTER_WRITE by an agent that may make the access (R3, R27). -/
theorem exec_registerWrite_ok {ag : Agent} {off : W32} {s : State} (h : s.mayReg ag off.toNat = true) (ha : off.toNat % 4 = 0)
    (v hwSet hwClr : W32) : exec (.registerWrite ag off .b4 v hwSet hwClr) s =
      done ((s.servedFor ag).regWrite ag off.toNat v hwSet hwClr) := by
  change execRegisterWrite .. = _
  simp [execRegisterWrite, State.regOk, h, ha]

/-- REGISTER_WRITE of another width or alignment, or by an agent that may not make the access (R3, R27). -/
theorem exec_registerWrite_refused {ag : Agent} {off : W32} {w : Width} {s : State}
    (h : w ≠ .b4 ∨ off.toNat % 4 ≠ 0 ∨ s.mayReg ag off.toNat = false) (v hwSet hwClr : W32) :
    exec (.registerWrite ag off w v hwSet hwClr) s = done s := by
  have hno : s.regOk ag off w = false := by
    rcases h with h | h | h <;> simp [State.regOk, h]
  change execRegisterWrite .. = _
  simp [execRegisterWrite, hno]

/-- A command that leaves the state changes nothing. -/
theorem settle_same (s : State) : Same s s.settle := rfl

/-- A command that sets one register changes that register only. -/
theorem settle_setReg_onlyRegs (s : State) (o : Nat) (v : W32) : OnlyRegs s (s.setReg o v).settle [o] :=
  ⟨rfl, fun j hj => (s.reg_setReg o j v).trans (if_neg (by simpa using hj))⟩

/-- Settles O20: the write is `State.basicWrite`, whose value is given bit by bit by `getLsbD_writtenVal`. -/
theorem registerWritesFollowTheAccessTypes : Obligations.RegisterWritesFollowTheAccessTypes := by
  intro ag off v hwSet hwClr s
  refine ⟨fun hm ha hr hl hh hn => ?_, fun w hw => ⟨_, exec_registerWrite_refused hw .., settle_same s⟩⟩
  have hexec := exec_registerWrite_ok hm ha v hwSet hwClr
  rw [State.regWrite_eq_basicWrite hr hl hh hn] at hexec
  refine ⟨fun r hrow => ?_, fun hrow => ?_⟩
  · rw [State.basicWrite_of_row hr hrow] at hexec
    refine ⟨_, hexec, settle_setReg_onlyRegs .., fun i hi => ?_⟩
    simp only [State.reg_settle, State.reg_setReg, if_true]
    exact ⟨getLsbD_writtenVal_rw hi,
      fun hrw h1c h1s hcmd hhwc hlock => getLsbD_writtenVal_kept hi (.inr hlock) h1c h1s hcmd hhwc,
      getLsbD_writtenVal_w1c hi, getLsbD_writtenVal_set hi, fun hrw => getLsbD_writtenVal_kept hi (.inl hrw)⟩
  · rw [State.basicWrite_of_no_row hrow] at hexec
    exact ⟨_, hexec, settle_same _⟩

end Sys2Proof.Machine
end

section
namespace Sys2Proof.Machine

/-! ### Issue: an instruction that is fetched and meets no exception and no interrupt has its own effect (R42, R66, R67) -/

/-- Using up a single step leaves the pc. -/
theorem State.thr_stepTaken_pc (s : State) (p : Nat) : ((s.stepTaken p).thr p).pc = (s.thr p).pc := by
  unfold State.stepTaken
  split
  · rw [State.thr_setThr, if_pos rfl]
  · rfl

/-- The effect of an instruction issued past the exceptions that are known before it is performed. -/
theorem State.issue_of_issues {s f : State} {p : Thr} {i : Instr} {w : W32} {pre : State → Option Exc} {eff : State → State}
    (h : Issues s p i f) (hw : instrWord i = some w) (hpre : pre f = none) : s.issue p w pre eff = eff f := by
  obtain ⟨⟨w', u, hw', ⟨hrun, hexc, hfetch⟩, hrom⟩, hirq⟩ := h
  obtain rfl : w = w' := Option.some.inj (hw.symm.trans hw')
  simp [State.issue, hrun, State.thr_stepTaken_pc, hexc, hfetch, hrom, hpre, hirq]

/-! ### What a command leaves that changes one thread -/

/-- A command that sets one thread changes that thread only. -/
theorem settle_setThr_onlyThr (s : State) (p : Nat) (t : Thread) : OnlyThr s (s.setThr p t).settle p t :=
  ⟨rfl, (s.thr_setThr p p t).trans (if_pos rfl), fun q hq => (s.thr_setThr p q t).trans (if_neg hq)⟩

/-- A synchronous exception of a thread that is in none is entered (R65, R68). -/
theorem settle_raise_enters {s : State} {p : Thr} (h : (s.thr p).status.getLsbD 2 = false) (cause : Nat) (a : W64) :
    Enters s (s.raise p ⟨cause, 0, false, a⟩).settle p cause 0 (s.thr p).pc a := by
  have hexc : s.raise p ⟨cause, 0, false, a⟩ = s.setThr p ((s.thr p).enterExc cause 0 (s.thr p).pc a) := by
    simp only [State.raise, State.takeExc, h]
    rfl
  rw [hexc]
  exact settle_setThr_onlyThr ..

/-! ### How many bytes a read gives -/

theorem length_readWords (rd : State → Nat → W64 × Bool × State) (n : Nat) :
    ∀ (s : State) (a : Nat), (readWords rd s a n).1.length = 8 * n := by
  induction n with
  | zero => intro s a; rfl
  | succ n ih => intro s a; simp only [readWords, List.length_append, length_leBytes, ih]; omega

theorem length_readSpan (rd : State → Nat → W64 × Bool × State) (s : State) (a n : Nat) :
    (readSpan rd s a n).1.length = n := by
  unfold readSpan
  split
  · simp [*]
  · simp only [List.length_take, List.length_drop, length_readWords]
    omega

theorem State.length_memRead (s : State) (a n : Nat) : (s.memRead a n).1.length = n := by
  unfold State.memRead
  split
  · exact length_readSpan ..
  · exact length_readSpan ..
  · simp

/-! ### Loads -/

/-- The value that a load extends is the one its bytes spell (R33). -/
theorem extend_ofLe (signed : Bool) (l : List W8) : extend signed l.length (ofLe l) = loaded signed l := rfl

/-- Nothing read is 0 however it is extended. -/
theorem extend_zero (signed : Bool) (n : Nat) : extend signed n 0 = 0 := by
  cases signed
  · rfl
  · simp [extend, sext64, BitVec.signExtend_eq_setWidth_of_msb_false]

/-- A load in each of its forms is `State.loadAt` at ra + sext(imm) (R33). -/
theorem exec_load {s f : State} {p : Thr} {rd ra : R5} {imm : W16} {e : (Thr → R5 → R5 → W16 → Instr) × Nat × Bool}
    (he : e ∈ loadForms) (hi : Issues s p (e.1 p rd ra imm) f)
    (hx : f.accessExc p (f.g p ra + imm.signExtend 64) e.2.1 = none) :
    exec (e.1 p rd ra imm) s = done (f.loadAt p rd.toNat (f.g p ra + imm.signExtend 64) e.2.1 e.2.2) := by
  simp only [loadForms, List.mem_cons, List.not_mem_nil, or_false] at he
  rcases he with rfl | rfl | rfl | rfl | rfl | rfl | rfl <;>
    exact congrArg done (State.issue_of_issues hi rfl hx)

/-- A load from DRAM or SRAM is a read of this part's memory (R33, R47, R48). -/
theorem State.loadAt_memory {f : State} {p rd n a : Nat} {ea : W64} {signed : Bool}
    (h : f.resolve ea = .dram a ∨ ∃ o, f.resolve ea = .sram o ∧ a = 0x010000000000 + o) :
    f.loadAt p rd ea n signed =
      let r := f.memRead a n
      if r.2.1 then r.2.2.raise p (excMem ea) else r.2.2.advG p rd (loaded signed r.1) := by
  have hl := f.length_memRead a n
  rcases h with h | ⟨o, h, rfl⟩ <;> simp only [State.loadAt, h, Place.localAddr, ← extend_ofLe, hl] <;> rfl

/-- A load from the register space: an aligned one of 4 bytes takes what the register read returns, any other takes 0 (R3). -/
theorem State.loadAt_reg {f : State} {p : Thr} {rd n o : Nat} {ea : W64} {signed : Bool} (h : f.resolve ea = .reg o) :
    f.loadAt p rd ea n signed =
      if n = 4 ∧ o % 4 = 0 then
        let r := f.regRead (.thread p) o 0
        r.2.advG p rd (loaded signed (leBytes 4 r.1.toNat))
      else f.advG p rd 0 := by
  have hp : Fin.ofNat 192 p.val = p := Fin.ext (Nat.mod_eq_of_lt p.isLt)
  simp only [State.loadAt, h, State.regLoad]
  split
  · rename_i hn
    obtain ⟨rfl, hal⟩ := hn
    have hv : ∀ x : W32, ofLe (leBytes 4 x.toNat) = x.toNat := fun x => ofLe_leBytes 4 _ x.isLt
    simp only [← extend_ofLe, length_leBytes, hv, hp]
  · rw [extend_zero]

/-- Settles O10: each form is `State.loadAt`, which reads memory or the register space. -/
theorem loadsReadTheirBytes : Obligations.LoadsReadTheirBytes := by
  intro s f p rd ra imm e he hi ea hx
  have hexec := exec_load he hi hx
  refine ⟨fun a ha => ?_, fun o ho => ?_⟩
  · rw [State.loadAt_memory ha] at hexec
    refine ⟨fun hgood => ⟨_, hexec, ?_⟩, fun hbad hexl => ⟨_, hexec, ?_⟩⟩
    · simp only [hgood]
      exact settle_setThr_onlyThr ..
    · simp only [hbad]
      exact settle_raise_enters hexl 5 ea
  · rw [State.loadAt_reg ho] at hexec
    refine ⟨fun hn hal => ⟨_, hexec, ?_⟩, fun hno => ⟨_, hexec, ?_⟩⟩
    · simp only [hn, hal]
      exact settle_setThr_onlyThr ..
    · rw [if_neg (by tauto)]
      exact settle_setThr_onlyThr ..

end Sys2Proof.Machine
end

section
namespace Sys2Proof.Machine

/-! ### Stores -/

/-- A store in each of its forms is `State.storeAt` of the low bytes of rd at ra + sext(imm), and the thread goes on (R33). -/
theorem exec_store {s f : State} {p : Thr} {rd ra : R5} {imm : W16} {e : (Thr → R5 → R5 → W16 → Instr) × Nat}
    (he : e ∈ storeForms) (hi : Issues s p (e.1 p rd ra imm) f)
    (hx : f.accessExc p (f.g p ra + imm.signExtend 64) e.2 = none) :
    exec (e.1 p rd ra imm) s =
      done ((f.storeAt p (f.g p ra + imm.signExtend 64) (leBytes e.2 (f.g p rd).toNat)).adv p) := by
  simp only [storeForms, List.mem_cons, List.not_mem_nil, or_false] at he
  rcases he with rfl | rfl | rfl | rfl <;> exact congrArg done (State.issue_of_issues hi rfl hx)

/-- The counterexample to O11. The obligation leaves the capacity of DRAM free, which MEM_CTRL.CAP limits to 16 GiB (R379,
R381); here it is 2^22 MiB, so that DRAM reaches over the addresses of the register space. Accesses there are not checked for
alignment (R41), and a store can cross from one word into the next. Thread 160 is about to store the two low bytes of g2, both
0xFF, at g1 = 0x0200_0000_0007: the last byte of DRAM word 2^38 and the first byte of the next word, both in line 2^35. A fill
of that line is in flight with a FLUSH held behind it (R389), and an older write of its first word, 0, stands in the write-back
buffer (R386). -/
def crossingStore : State :=
  { State.reset with
    thrs := [(160, { Thread.reset with pc := 0x010000280000, g := [(1, 0x020000000007), (2, 0xFFFF)] })]
    ic := [(icKey 160 0x010000280000, [⟨0x010000280000 / 64, [wordI 0x19 2 1 0]⟩])]
    mem := { Mem.reset with
      ready := true, prot := false, capMib := 2 ^ 22
      miss := [(0, 2 ^ 35)], hold := [⟨.flush, 2 ^ 35, 0⟩], wb := [⟨2 ^ 35, [(2 ^ 38, ⟨0, 0⟩)]⟩] } }

/-- Its thread issues ST16 of g2 at g1, with the word taken from the instruction cache. -/
theorem crossingStore_issues : Issues crossingStore 160 (.st16 160 2 1 0) crossingStore := by
  have hline : crossingStore.icLine 160 (crossingStore.thr 160).pc.toNat = some [wordI 0x19 2 1 0] := by decide +kernel
  have hfirst : (crossingStore.thr 160).pc.toNat / 4 % 16 = 0 := by decide +kernel
  have hfetch := State.fetch_hit hline
  rw [hfirst] at hfetch
  exact ⟨⟨_, _, rfl, ⟨by decide +kernel, by decide +kernel, hfetch⟩, State.romFetch_base rfl rfl _ _⟩, by decide +kernel⟩

theorem crossingStore_ea : crossingStore.g 160 1 + (0 : W16).signExtend 64 = 0x020000000007 := by decide +kernel

theorem crossingStore_rd : crossingStore.g 160 2 = 0xFFFF := by decide +kernel

theorem crossingStore_accessExc : crossingStore.accessExc 160 0x020000000007 2 = none := by decide +kernel

/-- The first part of the store completes the fill, and the FLUSH that was held takes the line away; the second part fetches the
line from the write-back buffer, whose older word replaces the byte just stored. -/
theorem crossingStore_loses_byte :
    ((crossingStore.storeAt 160 0x020000000007 (leBytes 2 0xFFFF)).adv 160).settle.dramByteAt 0x020000000007 = 0 := by
  decide +kernel

/-- Refutes O11: in a state whose DRAM reaches over the register space, a store that crosses a word can lose its first byte
(`crossingStore`). -/
theorem not_storesWriteTheirBytes : ¬ Obligations.StoresWriteTheirBytes := by
  intro h
  have hform : ((.st16, 2) : (Thr → R5 → R5 → W16 → Instr) × Nat) ∈ storeForms := by simp [storeForms]
  have hx := crossingStore_accessExc
  rw [← crossingStore_ea] at hx
  have hexec := exec_store hform crossingStore_issues hx
  obtain ⟨-, -, hdram⟩ := h crossingStore crossingStore 160 2 1 0 _ hform crossingStore_issues hx
  obtain ⟨t, ht, -, hbytes, -⟩ := hdram 0x020000000007 (by decide +kernel) rfl
  obtain rfl := (done_eq _ _).1 (hexec.symm.trans ht)
  have hstored := hbytes 0 (by decide)
  rw [crossingStore_ea, crossingStore_rd] at hstored
  exact absurd (crossingStore_loses_byte.symm.trans hstored) (by decide)

end Sys2Proof.Machine
end

section
namespace Sys2Proof.Machine

/-! ### What the commands of instructions answer -/

/-- An instruction that is issued and meets no exception has its effect. -/
theorem exec_of_issues {s f : State} {p : Thr} {i : Instr} {w : W32} {pre : State → Option Exc} {eff : State → State}
    (hi : Issues s p i f) (hexec : exec i s = done (s.issue p w pre eff)) (hw : instrWord i = some w) (hpre : pre f = none) :
    exec i s = done (eff f) :=
  hexec.trans (congrArg done (State.issue_of_issues hi hw hpre))

/-- The same, for what holds of the state that the effect leaves. -/
theorem next_of_issues {s f : State} {p : Thr} {i : Instr} {w : W32} {pre : State → Option Exc} {eff : State → State}
    {P : State → Prop} (hi : Issues s p i f) (hexec : exec i s = done (s.issue p w pre eff)) (hw : instrWord i = some w)
    (hpre : pre f = none) (h : P (eff f).settle) : ∃ t, exec i s = .next t ∧ P t :=
  ⟨_, exec_of_issues hi hexec hw hpre, h⟩

/-- An instruction that is fetched and meets an exception known before it is performed raises it, interrupt or not (R66, R67). -/
theorem State.issue_of_fetches {s f : State} {p : Thr} {i : Instr} {w : W32} {pre : State → Option Exc} {eff : State → State}
    {e : Exc} (h : Fetches s p i f) (hw : instrWord i = some w) (hpre : pre f = some e) : s.issue p w pre eff = f.raise p e := by
  obtain ⟨w', u, hw', ⟨hrun, hexc, hfetch⟩, hrom⟩ := h
  obtain rfl : w = w' := Option.some.inj (hw.symm.trans hw')
  simp [State.issue, hrun, State.thr_stepTaken_pc, hexc, hfetch, hrom, hpre]

/-- Where s.epc points when `e` is taken at `pc` (R65). -/
def Exc.epc (e : Exc) (pc : W64) : W64 := if e.next then pc + 4 else pc

/-- A synchronous exception of a thread that is in none is entered with its code and its s.epc (R65, R68). -/
theorem settle_raise_entersAt {s : State} {p : Thr} (h : (s.thr p).status.getLsbD 2 = false) (e : Exc) :
    Enters s (s.raise p e).settle p e.cause e.trap (e.epc (s.thr p).pc) e.eaddr := by
  have hexc : s.raise p e = s.setThr p ((s.thr p).enterExc e.cause e.trap (e.epc (s.thr p).pc) e.eaddr) := by
    simp only [State.raise, State.takeExc, h]
    rfl
  rw [hexc]
  exact settle_setThr_onlyThr ..

/-- An instruction that is fetched and meets an exception known before it is performed enters it (R65, R66, R68). -/
theorem enters_of_fetches {s f : State} {p : Thr} {i : Instr} {w : W32} {pre : State → Option Exc} {eff : State → State}
    {e : Exc} (hi : Fetches s p i f) (hexec : exec i s = done (s.issue p w pre eff)) (hw : instrWord i = some w)
    (hpre : pre f = some e) (hexl : (f.thr p).status.getLsbD 2 = false) :
    ∃ t, exec i s = .next t ∧ Enters f t p e.cause e.trap (e.epc (f.thr p).pc) e.eaddr :=
  ⟨_, hexec.trans (congrArg done (State.issue_of_fetches hi hw hpre)), settle_raise_entersAt hexl e⟩

@[simp] theorem excIf_false (e : Exc) : excIf false e = none := rfl
@[simp] theorem excIf_true (e : Exc) : excIf true e = some e := rfl
@[simp] theorem firstExc_nil : firstExc [] = none := rfl
@[simp] theorem firstExc_none (l : List (Option Exc)) : firstExc (none :: l) = firstExc l := rfl
@[simp] theorem firstExc_some (e : Exc) (l : List (Option Exc)) : firstExc (some e :: l) = some e := rfl

end Sys2Proof.Machine
end

section
namespace Sys2Proof.Machine

/-! ### A period without a command (R30, R417, R419) -/

/-- Engine cycle counter of thread `p` advanced by `c` if it runs: what `State.advance` does to one thread. -/
def State.addCycles (c : Nat) (s : State) (p : Nat) : State :=
  if s.runBit p then s.setThr p { s.thr p with cycle := ((s.thr p).cycle + c) % 2 ^ 64 } else s

theorem State.advance_eq_foldl (s : State) (n : Nat) : s.advance n =
    (List.range 192).foldl (State.addCycles (s.cycPerTick * n)) { s with now := s.now + n, cyc := s.cyc + s.cycPerTick * n } :=
  rfl

theorem State.addCycles_frame (c : Nat) (s : State) (p : Nat) :
    s.addCycles c p = { s with thrs := (s.addCycles c p).thrs } := by
  unfold State.addCycles
  split <;> rfl

theorem State.runBit_addCycles (c : Nat) (s : State) (p q : Nat) : (s.addCycles c p).runBit q = s.runBit q := by
  rw [State.addCycles_frame]
  rfl

theorem State.thr_addCycles (c : Nat) (s : State) (p q : Nat) : (s.addCycles c p).thr q =
    if q = p ∧ s.runBit q = true then { s.thr q with cycle := ((s.thr q).cycle + c) % 2 ^ 64 } else s.thr q := by
  unfold State.addCycles
  by_cases hq : q = p
  · subst hq
    cases s.runBit q <;> simp
  · split <;> simp [hq]

theorem State.foldl_addCycles_frame (c : Nat) (l : List Nat) (s : State) :
    l.foldl (State.addCycles c) s = { s with thrs := (l.foldl (State.addCycles c) s).thrs } := by
  induction l generalizing s with
  | nil => rfl
  | cons p l ih =>
    rw [List.foldl_cons, ih, State.addCycles_frame]

theorem State.thr_foldl_addCycles (c : Nat) (l : List Nat) (hl : l.Nodup) (s : State) (q : Nat) :
    (l.foldl (State.addCycles c) s).thr q =
      if q ∈ l ∧ s.runBit q = true then { s.thr q with cycle := ((s.thr q).cycle + c) % 2 ^ 64 } else s.thr q := by
  induction l generalizing s with
  | nil => simp
  | cons p l ih =>
    obtain ⟨hp, hl⟩ := List.nodup_cons.1 hl
    rw [List.foldl_cons, ih hl, State.runBit_addCycles, State.thr_addCycles]
    by_cases hq : q = p
    · subst hq
      simp [hp]
    · simp [hq]

/-- Settles O1: the command at the front is executed by definition, and an idle period is a fold over the 192 threads. -/
theorem stepRunsFrontCommand : Obligations.StepRunsFrontCommand := by
  refine ⟨fun c s rest h => by simp [step, h],
    fun s h => ⟨s.advance 1, by simp [step, h], ?_, fun p hp hrun => ?_, fun p hp => ?_⟩⟩
  · rw [State.advance_eq_foldl, State.foldl_addCycles_frame]
    simp [State.cycPerTick]
  · rw [State.advance_eq_foldl, State.thr_foldl_addCycles _ _ List.nodup_range, if_pos ⟨List.mem_range.2 hp, hrun⟩,
      Nat.mul_one]
    rfl
  · rw [State.advance_eq_foldl, State.thr_foldl_addCycles _ _ List.nodup_range, if_neg]
    · rfl
    · rintro ⟨hmem, hrun⟩
      rcases hp with hp | hp
      · exact absurd (List.mem_range.1 hmem) (by omega)
      · exact absurd (hp.symm.trans hrun) (by decide)

end Sys2Proof.Machine
end

section
namespace Sys2Proof.Machine

/-! ### Instructions on registers (R33 to R38) -/

/-- An instruction built by `State.regInstr` writes its value into rd. -/
theorem next_of_regInstr {s f : State} {p : Thr} {i : Instr} {rd : R5} {w : W32} {val : Thread → Option W64} {v : W64}
    (hi : Issues s p i f) (hexec : exec i s = done (s.regInstr p rd w val)) (hw : instrWord i = some w)
    (hv : val (f.thr p) = some v) :
    ∃ t, exec i s = .next t ∧ OnlyThr f t p ((f.thr p).setG rd.toNat v).adv := by
  refine next_of_issues hi hexec hw (by simp [hv]) ?_
  simp only [hv, Option.getD_some]
  exact settle_setThr_onlyThr ..

/-- ALU with a defined function code (R34). -/
theorem exec_alu {s f : State} {p : Thr} {rd ra rb : R5} {fn : F11} {v : W64} (hi : Issues s p (.alu p rd ra rb fn) f)
    (hv : aluResult (f.thr p) fn.toNat (f.g p ra) (f.g p rb) = some v) : exec (.alu p rd ra rb fn) s =
      done ((if isDivide fn.toNat then f.divStart p else f).advG p rd.toNat v) := by
  refine (congrArg done (State.issue_of_issues hi rfl ?_)).trans ?_
  · simp only [State.g] at hv
    simp [hv]
  · simp only [State.g] at hv
    simp only [hv, Option.getD_some]

theorem isDivide_iff (fn : Nat) : isDivide fn = true ↔ fn / 4 = 9 := by
  simp only [isDivide, Bool.and_eq_true, decide_eq_true_eq]
  omega

/-- What ALU leaves while it does not divide. -/
theorem settle_advG_onlyThr (f : State) (p : Thr) (rd : Nat) (v : W64) :
    OnlyThr f (f.advG p rd v).settle p ((f.thr p).setG rd v).adv :=
  settle_setThr_onlyThr ..

/-- What a divide leaves. -/
theorem settle_divStart_advG_onlyThr (f : State) (p : Thr) (rd : Nat) (v : W64) :
    OnlyThr { f with divFree := (f.divStart p).divFree } ((f.divStart p).advG p rd v).settle p ((f.thr p).setG rd v).adv :=
  settle_advG_onlyThr (f.divStart p) p rd v

/-- A divide leaves the dividers of the other engines (R70). -/
theorem State.divFree_divStart_ne (f : State) {p e : Nat} (h : e ≠ p / 4) :
    smFind (f.divStart p).divFree e = smFind f.divFree e :=
  smFind_set_ne _ _ _ _ h

/-- Settles O7: each of the four is issued and sets one register of its thread. -/
theorem aluCompareAndPredicateWriteOneRegister : Obligations.AluCompareAndPredicateWriteOneRegister := by
  intro s f p rd ra rb fn imm
  refine ⟨fun v hi hv => ?_, fun b hi hrd hb => ?_, fun hi => ?_, fun b hi hrd hra hrb hb => ?_⟩
  · have hexec := exec_alu hi hv
    by_cases hdiv : isDivide fn.toNat = true
    · rw [if_pos hdiv] at hexec
      exact ⟨_, hexec, settle_divStart_advG_onlyThr .., fun h => absurd ((isDivide_iff _).1 hdiv) h,
        fun e he => f.divFree_divStart_ne he⟩
    · rw [if_neg hdiv] at hexec
      exact ⟨_, hexec, settle_advG_onlyThr .., fun _ => rfl, fun _ _ => rfl⟩
  · simp only [State.g] at hb
    refine next_of_issues hi rfl rfl (by simp [Nat.div_eq_of_lt hrd, hb]) ?_
    simp only [Nat.div_eq_of_lt hrd, hb, Nat.mod_eq_of_lt hrd]
    exact settle_setThr_onlyThr ..
  · exact next_of_issues hi rfl rfl rfl (settle_setThr_onlyThr ..)
  · refine next_of_issues hi rfl rfl (by simp [Nat.div_eq_of_lt hrd, Nat.div_eq_of_lt hra, Nat.div_eq_of_lt hrb, hb]) ?_
    simp only [Nat.div_eq_of_lt hrd, Nat.div_eq_of_lt hra, Nat.div_eq_of_lt hrb, hb, Nat.mod_eq_of_lt hrd]
    exact settle_setThr_onlyThr ..

/-! ### Division (R35) -/

/-- The four divides give a value whatever their operands are. -/
theorem aluResult_divide (t : Thread) (fn : F11) (hfn : fn ∈ [(0x024 : F11), 0x025, 0x026, 0x027]) (a b : W64) :
    aluResult t fn.toNat a b = some (
      if fn = 0x024 then (if b = 0 then -1 else BitVec.ofInt 64 (Int.tdiv a.toInt b.toInt))
      else if fn = 0x025 then (if b = 0 then -1 else BitVec.ofNat 64 (a.toNat / b.toNat))
      else if fn = 0x026 then (if b = 0 then a else BitVec.ofInt 64 (Int.tmod a.toInt b.toInt))
      else (if b = 0 then a else BitVec.ofNat 64 (a.toNat % b.toNat))) := by
  simp only [List.mem_cons, List.not_mem_nil, or_false] at hfn
  rcases hfn with rfl | rfl | rfl | rfl <;> rfl

theorem isDivide_of_mem {fn : F11} (hfn : fn ∈ [(0x024 : F11), 0x025, 0x026, 0x027]) : isDivide fn.toNat = true := by
  simp only [List.mem_cons, List.not_mem_nil, or_false] at hfn
  rcases hfn with rfl | rfl | rfl | rfl <;> rfl

/-- Settles O8: a divide always has a value, so it is ALU's case that writes rd and starts the divider. -/
theorem divisionNeverRaisesAnException : Obligations.DivisionNeverRaisesAnException := by
  intro s f p rd ra rb fn hfn hi
  have hexec := exec_alu hi (aluResult_divide _ fn hfn _ _)
  rw [if_pos (isDivide_of_mem hfn)] at hexec
  refine ⟨_, _, hexec, settle_divStart_advG_onlyThr .., smFind_set_same .., fun hb => ⟨?_, ?_⟩, fun ha hb => ⟨?_, ?_⟩⟩
  · rintro (rfl | rfl) <;> simp [hb]
  · rintro (rfl | rfl) <;> simp [hb]
  · rintro rfl
    simp only [ha, hb]
    decide
  · rintro rfl
    simp only [ha, hb]
    decide

/-! ### Immediates and bit fields (R33, R38) -/

theorem testBit_natF (n lo len j : Nat) : (natF n lo len).testBit j = (decide (j < len) && n.testBit (lo + j)) := by
  simp [natF, Nat.testBit_mod_two_pow, Nat.testBit_div_two_pow, Nat.add_comm]

/-- EXTU's value bit by bit. -/
theorem getLsbD_extu (a : W64) (lo w : Nat) {j : Nat} (hj : j < 64) :
    (BitVec.ofNat 64 (natF a.toNat lo w)).getLsbD j = (decide (j < w) && a.getLsbD (lo + j)) := by
  simp only [BitVec.getLsbD_ofNat, testBit_natF, hj, decide_true, Bool.true_and, BitVec.testBit_toNat]

/-- EXTS's value bit by bit. -/
theorem getLsbD_exts (a : W64) (lo : Nat) {w j : Nat} (hw : 0 < w) (hj : j < 64) :
    (sext64 w (natF a.toNat lo w)).getLsbD j = a.getLsbD (lo + min j (w - 1)) := by
  simp only [sext64, BitVec.getLsbD_signExtend, hj, decide_true, Bool.true_and, BitVec.msb_eq_getLsbD_last,
    BitVec.getLsbD_ofNat, testBit_natF, BitVec.testBit_toNat]
  split
  · rename_i h
    simp [h, Nat.min_eq_left (Nat.le_sub_one_of_lt h)]
  · rename_i h
    simp [hw, Nat.min_eq_right (show w - 1 ≤ j by omega)]

/-- The field of INS bit by bit. -/
theorem getLsbD_mask64 (lo w : Nat) {j : Nat} (hj : j < 64) :
    (mask64 lo w).getLsbD j = (decide (lo ≤ j) && decide (j < lo + w)) := by
  simp only [mask64, BitVec.getLsbD_ofNat, hj, decide_true, Bool.true_and, Nat.testBit_mul_two_pow, Nat.testBit_two_pow_sub_one]
  by_cases h : lo ≤ j
  · simp only [h, decide_true, Bool.true_and, decide_eq_decide]
    omega
  · simp [h]

/-- INS's value bit by bit. -/
theorem getLsbD_ins (d a : W64) (lo w : Nat) {j : Nat} (hj : j < 64) :
    ((d &&& ~~~ mask64 lo w) ||| ((a <<< lo) &&& mask64 lo w)).getLsbD j =
      if lo ≤ j ∧ j < lo + w then a.getLsbD (j - lo) else d.getLsbD j := by
  simp only [BitVec.getLsbD_or, BitVec.getLsbD_and, BitVec.getLsbD_not, BitVec.getLsbD_shiftLeft, getLsbD_mask64 lo w hj, hj]
  by_cases hlo : lo ≤ j <;> by_cases hhi : j < lo + w <;> simp [hlo, hhi, Nat.not_lt.2, Nat.not_le.1]

/-- Settles O9: every form is `State.regInstr`, and a field's value is given bit by bit above. -/
theorem immediateAndFieldInstructionsWriteRd : Obligations.ImmediateAndFieldInstructionsWriteRd := by
  intro s f p rd ra imm
  refine ⟨fun e he hi => ?_, fun himm e he hi => ?_, fun himm => ?_⟩
  · simp only [immForms, List.mem_cons, List.not_mem_nil, or_false] at he
    rcases he with rfl | rfl | rfl | rfl | rfl | rfl | rfl <;> exact next_of_regInstr hi rfl rfl rfl
  · have hshift : shiftImm imm = some imm.toNat := if_pos (Nat.div_eq_of_lt himm)
    simp only [shiftForms, List.mem_cons, List.not_mem_nil, or_false] at he
    rcases he with rfl | rfl | rfl <;> exact next_of_regInstr hi rfl rfl (by simp only [hshift]; rfl)
  · have hfield : fieldImm imm = some (imm.toNat % 64, imm.toNat / 64 + 1) := if_pos (Nat.div_eq_of_lt himm)
    refine ⟨fun hi => ?_, fun hi => ?_, fun hi => ?_⟩
    · obtain ⟨t, ht, hthr⟩ := next_of_regInstr hi rfl rfl (by simp only [hfield]; rfl)
      exact ⟨t, _, ht, hthr, fun j hj => getLsbD_extu _ _ _ hj⟩
    · obtain ⟨t, ht, hthr⟩ := next_of_regInstr hi rfl rfl (by simp only [hfield]; rfl)
      exact ⟨t, _, ht, hthr, fun j hj => getLsbD_exts _ _ (Nat.succ_pos _) hj⟩
    · obtain ⟨t, ht, hthr⟩ := next_of_regInstr hi rfl rfl (by simp only [hfield]; rfl)
      exact ⟨t, _, ht, hthr, fun j hj => getLsbD_ins _ _ _ _ hj⟩

end Sys2Proof.Machine
end

section
namespace Sys2Proof.Machine

/-! ### What a read of memory leaves: it changes memory, registers and the count of free values alone (R385 to R400) -/

/-- Only memory, registers and the count of free values differ. -/
def State.MemOnly (s t : State) : Prop := ∃ regs mem fresh, t = { s with regs := regs, mem := mem, fresh := fresh }

namespace State.MemOnly

theorem refl (s : State) : s.MemOnly s := ⟨_, _, _, rfl⟩

theorem thr {s t : State} (h : s.MemOnly t) (p : Nat) : t.thr p = s.thr p := by
  obtain ⟨regs, mem, fresh, rfl⟩ := h
  rfl

theorem icSet {s t : State} (h : s.MemOnly t) (k : Nat) : t.icSet k = s.icSet k := by
  obtain ⟨regs, mem, fresh, rfl⟩ := h
  rfl

variable {s t : State} (h : s.MemOnly t)
include h

theorem change (regs : SMap W32) (mem : Mem) (fresh : Nat) :
    s.MemOnly { t with regs := regs, mem := mem, fresh := fresh } := by
  obtain ⟨_, _, _, rfl⟩ := h
  exact ⟨_, _, _, rfl⟩

theorem ite {u : State} (h' : s.MemOnly u) (c : Prop) [Decidable c] : s.MemOnly (if c then t else u) := by
  split
  · exact h
  · exact h'

theorem foldl {α : Type} {f : State → α → State} (hf : ∀ u a, s.MemOnly u → s.MemOnly (f u a)) (l : List α) :
    s.MemOnly (l.foldl f t) := by
  induction l generalizing t with
  | nil => exact h
  | cons a l ih => exact ih (hf _ a h)

/-! The error logs. -/

theorem logErr (id addr : Nat) (ue sweep repaired : Bool) (bitNo : Nat) :
    s.MemOnly (t.logErr id addr ue sweep repaired bitNo) := by
  unfold State.logErr
  dsimp only
  split <;> exact h.change _ _ _

theorem logDiag (id addr : Nat) (sweep : Bool) (d : Diag) : s.MemOnly (t.logDiag id addr sweep d) := by
  cases d with
  | good => exact h
  | poisoned => exact h
  | corrected b => exact h.logErr ..
  | multiple => exact h.logErr ..

/-! The write-back buffer and the victim cache. -/

theorem writeWords (l : SMap CWord) : s.MemOnly (t.writeWords l) := h.foldl (fun _ _ hu => hu.change _ _ _) l

theorem setCws (l : SMap CWord) : s.MemOnly (l.foldl (fun s x => s.setCw x.1 x.2) t) :=
  h.foldl (fun _ _ hu => hu.change _ _ _) l

theorem drainOne : s.MemOnly t.drainOne := by
  unfold State.drainOne
  split
  · exact h
  · exact (h.change _ _ _).writeWords _

theorem toWb (l : Nat) : s.MemOnly (t.toWb l) := by
  have hroom : s.MemOnly (if 4 ≤ t.mem.wb.length then (t.freeAny.2.incFld (Reg.CCH_CNT 3) 0 32 t.freeAny.1).drainOne else t) :=
    (h.change _ _ _).drainOne.ite h _
  exact hroom.change _ _ _

theorem toVictim (l : Nat) (dirty : Bool) : s.MemOnly (t.toVictim l dirty) := by
  unfold State.toVictim
  refine change ?_ _ _ _
  split
  · split
    · exact ((h.change _ _ _).toWb _).ite (h.change _ _ _) _
    · exact h
  · exact h

/-! Lines placed and filled. -/

theorem place (l : Nat) (dirty : Bool) : s.MemOnly (t.place l dirty) := by
  unfold State.place
  dsimp only
  split
  · exact h.change _ _ _
  · refine change ?_ _ _ _
    split
    · exact (h.change _ _ _).toVictim _ _
    · exact h.change _ _ _

theorem fillWords (l : Nat) : s.MemOnly (t.fillWords l) := by
  refine h.foldl (fun u i hu => ?_) _
  dsimp only
  split
  · exact hu
  · exact (hu.logDiag ..).change _ _ _

theorem fill (l : Nat) : s.MemOnly (t.fill l) := by
  unfold State.fill
  split
  · exact ((h.change _ _ _).place _ _).change _ _ _
  · split
    · exact ((h.place _ _).setCws _).change _ _ _
    · exact ((h.place _ _).fillWords _).change _ _ _

/-! Cache maintenance. -/

theorem markDirty (l : Nat) : s.MemOnly (t.markDirty l) := by
  unfold State.markDirty
  split
  · exact h.change _ _ _
  · exact h

theorem markClean (l : Nat) : s.MemOnly (t.markClean l) := by
  unfold State.markClean
  split
  · exact h.change _ _ _
  · exact h

theorem cleanLine (l : Nat) : s.MemOnly (t.cleanLine l) :=
  ((h.change _ _ _).foldl (fun _ _ hu => hu.writeWords _) _).writeWords _

theorem zeroWords (l : Nat) : s.MemOnly (t.zeroWords l) :=
  (h.foldl (fun _ _ hu => hu.change _ _ _) _).markDirty l

theorem maintain (op : Maint) (l : Nat) : s.MemOnly (t.maintain op l) := by
  have hclean (c : Prop) [Decidable c] : s.MemOnly (if c then t.cleanLine l else t) := (h.cleanLine l).ite h c
  unfold State.maintain
  split
  · cases op with
    | clean => exact ((h.cleanLine l).markClean l).ite h _
    | flush => exact (hclean _).change _ _ _
    | inval => exact h.change _ _ _
    | zero => exact h.zeroWords l
  · split
    · cases op with
      | clean => exact ((h.cleanLine l).change _ _ _).ite h _
      | flush => exact (hclean _).change _ _ _
      | inval => exact h.change _ _ _
      | zero => exact (h.fill l).zeroWords l
    · cases op with
      | clean => exact h
      | flush => exact h
      | inval => exact h
      | zero => exact (h.place l true).zeroWords l

theorem fillDone (bank : Nat) : s.MemOnly (t.fillDone bank) := by
  unfold State.fillDone
  split
  · exact h
  · exact ((h.change _ _ _).ite ((h.change _ _ _).fill _) _).foldl (fun _ _ hu => hu.maintain _ _) _

/-! Words. -/

theorem touch (l : Nat) : s.MemOnly (t.touch l) := by
  have hhit : s.MemOnly (t.incFld (Reg.CCH_CNT 0) 0 32) := h.change _ _ _
  have hstall : s.MemOnly t.stall := h.change _ _ _
  unfold State.touch
  split
  · exact (h.fillDone _).ite (hhit.ite ((hstall.fillDone _).fill l) _) _
  · exact hhit.ite (h.fill l) _

theorem refetch (l : Nat) : s.MemOnly (t.refetch l) := by
  unfold State.refetch
  split
  · exact setCws (h.change _ _ _) _
  · exact fillWords (h.change _ _ _) l

theorem cachedWord (w : Nat) : s.MemOnly (t.cachedWord w).2.2 := by
  unfold State.cachedWord
  split
  · exact h
  · split
    · exact h
    · exact h.logErr ..
    · exact h
    · split
      · exact h.logErr ..
      · exact refetch ((h.logErr ..).change _ _ _) _

theorem readDramWord (w : Nat) : s.MemOnly (t.readDramWord w).2.2 := by
  unfold State.readDramWord
  split
  · exact (h.touch _).cachedWord w
  · exact h

theorem readSramWord (w : Nat) : s.MemOnly (t.readSramWord w).2.2 := by
  unfold State.readSramWord
  dsimp only
  split
  · exact h
  · exact h.logDiag ..

/-! Spans of words. -/

theorem readWords {rd : State → Nat → W64 × Bool × State} (hrd : ∀ u w, s.MemOnly u → s.MemOnly (rd u w).2.2) (n a : Nat) :
    s.MemOnly (readWords rd t a n).2.2 := by
  induction n generalizing t a with
  | zero => exact h
  | succ n ih => exact ih (hrd _ _ h) _

theorem readSpan {rd : State → Nat → W64 × Bool × State} (hrd : ∀ u w, s.MemOnly u → s.MemOnly (rd u w).2.2) (a n : Nat) :
    s.MemOnly (readSpan rd t a n).2.2 := by
  unfold Machine.readSpan
  split
  · exact h
  · exact h.readWords hrd _ _

theorem memRead (a n : Nat) : s.MemOnly (t.memRead a n).2.2 := by
  unfold State.memRead
  split
  · exact h.readSpan (fun _ w hu => hu.readDramWord w) _ _
  · exact h.readSpan (fun _ w hu => hu.readSramWord w) _ _
  · exact h

theorem readLine (n a : Nat) : s.MemOnly (t.readLine a n).2.2 := by
  induction n generalizing t a with
  | zero => exact h
  | succ n ih => exact ih (h.memRead a 8) _

end State.MemOnly

end Sys2Proof.Machine
end

section
namespace Sys2Proof.Machine

/-! ### The instruction cache (R31, R42, R48, R55) -/

theorem State.icSet_setIc (s : State) (k j : Nat) (l : List IcLine) :
    (s.setIc k l).icSet j = if j = k then l else s.icSet j :=
  smGet_put _ _ _ _ _

/-- The lines of a set that stay when a line enters it. -/
def State.icKept (s : State) (k : Nat) : List IcLine :=
  if (s.icSet k).length < 2 then s.icSet k else (s.icSet k).eraseIdx (s.freeNat 1).1

/-- A line that enters a set changes the instruction caches and the count of free values alone. -/
theorem State.icFill_frame (s : State) (k : Nat) (l : IcLine) :
    s.icFill k l = { s with ic := (s.icFill k l).ic, fresh := (s.icFill k l).fresh } := by
  unfold State.icFill
  split <;> rfl

theorem State.icSet_icFill (s : State) (k j : Nat) (l : IcLine) :
    (s.icFill k l).icSet j = if j = k then s.icKept k ++ [l] else s.icSet j := by
  unfold State.icFill State.icKept
  split
  · exact s.icSet_setIc k j _
  · exact s.freeNat 1 |>.2.icSet_setIc k j _

theorem State.mem_of_mem_icKept {s : State} {k : Nat} {l : IcLine} (h : l ∈ s.icKept k) : l ∈ s.icSet k := by
  unfold State.icKept at h
  split at h
  · exact h
  · exact List.mem_of_mem_eraseIdx h

theorem State.length_icKept {s : State} {k : Nat} (h : (s.icSet k).length ≤ 2) : (s.icKept k).length ≤ 1 := by
  have hv : (s.freeNat 1).1 < 2 := Nat.mod_lt _ (by decide)
  unfold State.icKept
  split
  · omega
  · rw [List.length_eraseIdx_of_lt (by omega)]
    omega

/-- A line that enters a set not holding its address is what the cache then holds for it. -/
theorem State.icLine_icFill {s : State} {p a : Nat} (h : s.icLine p a = none) (ws : List W32) :
    (s.icFill (icKey p a) ⟨a / 64, ws⟩).icLine p a = some ws := by
  have habsent : ∀ l ∈ s.icSet (icKey p a), ¬ (l.line == a / 64) = true :=
    List.find?_eq_none.1 (Option.map_eq_none_iff.1 h)
  have hkept : (s.icKept (icKey p a)).find? (fun l => l.line == a / 64) = none :=
    List.find?_eq_none.2 fun l hl => habsent l (State.mem_of_mem_icKept hl)
  simp [State.icLine, State.icSet_icFill, List.find?_append, hkept]

/-- A fetch that misses reads the line and keeps it if every word is good (R48). -/
theorem State.fetch_miss {s t : State} {p : Nat} {pc : W64} {ws : List W32} {us : List Bool}
    (h : s.icLine p pc.toNat = none) (hr : s.readLine (pc.toNat / 64 * 64) 8 = (ws, us, t)) : s.fetch p pc =
      if us.getD (pc.toNat / 8 % 8) false then (none, t)
      else (some (ws.getD (pc.toNat / 4 % 16) 0),
        if us.any id then t else t.icFill (icKey p pc.toNat) ⟨pc.toNat / 64, ws⟩) := by
  simp only [State.fetch, h, hr]

/-- Settles O6: a hit is `State.fetch_hit`; a miss reads the line, which leaves the instruction caches, and `State.icFill` keeps
it in its set. -/
theorem instructionFetchUsesTheCache : Obligations.InstructionFetchUsesTheCache := by
  intro s p pc
  have hword : pc.toNat % 64 / 4 = pc.toNat / 4 % 16 := by omega
  have hpair : pc.toNat % 64 / 8 = pc.toNat / 8 % 8 := by omega
  have hkey : p.val / 4 * 128 + pc.toNat / 64 % 128 = icKey p pc.toNat := rfl
  simp only [hword, hpair, hkey]
  refine ⟨fun ws h => State.fetch_hit h, fun h => ?_⟩
  have hread : s.MemOnly (s.readLine (pc.toNat / 64 * 64) 8).2.2 := (State.MemOnly.refl s).readLine 8 _
  rcases hr : s.readLine (pc.toNat / 64 * 64) 8 with ⟨ws, us, u⟩
  rw [hr] at hread
  rw [State.fetch_miss h hr]
  refine ⟨fun hbad => if_pos hbad, fun hgood => ⟨_, if_neg (ne_true_of_eq_false hgood), fun hsome => ?_, fun hall => ?_⟩⟩
  · exact if_pos (by simpa using hsome)
  · rw [if_neg (by simpa using hall)]
    have hline : u.icLine p pc.toNat = none := by simpa only [State.icLine, hread.icSet] using h
    refine ⟨State.icLine_icFill hline ws, fun hlen => ?_, fun j hj => ?_, State.icFill_frame ..⟩
    · rw [State.icSet_icFill, if_pos rfl, List.length_append]
      exact Nat.succ_le_succ (State.length_icKept (by rwa [hread.icSet]))
    · rw [State.icSet_icFill, if_neg hj, hread.icSet]

end Sys2Proof.Machine
end

section
namespace Sys2Proof.Machine

/-! ### Atomics (R49 to R51) -/

/-- AMO or CAS with defined function bits whose checks pass is `State.amoAt`. -/
theorem exec_amoInstr {s f : State} {p : Thr} {rd ra rb : R5} {i : Instr} {fn : Nat} {w32 : Bool} (hi : Issues s p i f)
    (hexec : exec i s = done (s.amoInstr p rd ra rb fn)) (hw : instrWord i = some (wordA 0x1C rd ra rb fn)) (hfn : fn < 32)
    (hk : fn % 16 ≤ 9) (hw32 : w32 = decide (fn / 16 = 1)) (hx : f.amoExc p (f.g p ra) (if w32 then 4 else 8) = none) :
    exec i s = done (f.amoAt p rd.toNat (f.g p ra) (fn % 16) w32 (f.g p rb)) := by
  have hbit : (fn / 16 % 2 == 1) = w32 := by
    rw [hw32, Nat.mod_eq_of_lt (by omega)]
    rfl
  rw [hexec]
  simp only [State.amoInstr, hbit]
  have hdef : (decide (fn / 32 ≠ 0) || decide (9 < fn % 16)) = false := by
    simp only [Bool.or_eq_false_iff, decide_eq_false_iff_not]
    omega
  refine congrArg done (State.issue_of_issues hi hw ?_)
  simp only [State.g] at hx
  simp only [hdef, hx, excIf_false, firstExc_none, firstExc_nil]

/-- An atomic waits while an earlier access of the thread is pending (R51). -/
theorem State.amoAt_of_busy {s : State} {p : Nat} (h : s.fenceBusy p = true) (rd : Nat) (ea : W64) (k : Nat) (w32 : Bool)
    (b : W64) : s.amoAt p rd ea k w32 b = s.setThr p { s.thr p with wait := .fence false false } := by
  simp [State.amoAt, h]

/-- An atomic on good memory: one read, one write of the new value, and the old value in rd (R49, R50). -/
theorem State.amoAt_of_good {s t : State} {p rd k : Nat} {ea b v : W64} {w32 : Bool} {l : List W8}
    (h : s.fenceBusy p = false) (hr : s.memRead (s.resolve ea).localAddr (if w32 then 4 else 8) = (l, false, t))
    (hv : amoNew k w32 (BitVec.ofNat 64 (ofLe l)) ((s.thr p).getG rd) b = some v) : s.amoAt p rd ea k w32 b =
      (t.memWrite (s.resolve ea).localAddr (leBytes (if w32 then 4 else 8) v.toNat)).advG p rd (BitVec.ofNat 64 (ofLe l)) := by
  have hread : s.MemOnly (s.memRead (s.resolve ea).localAddr (if w32 then 4 else 8)).2.2 := (State.MemOnly.refl s).memRead _ _
  rw [hr] at hread
  simp only [State.amoAt, h, hr, hread.thr, hv]
  rfl

theorem isSome_amoFn {k : Nat} (h : k < 9) (a b : W64) : (amoFn k a b).isSome = true := by
  interval_cases k <;> rfl

theorem isSome_amoFn32 {k : Nat} (h : k < 9) (a b : W32) : (amoFn32 k a b).isSome = true := by
  interval_cases k <;> rfl

/-- An AMO other than CAS writes its operation on old value and rb (R49). -/
theorem amoNew_of_lt {k : Nat} (h : k < 9) (w32 : Bool) (old d b : W64) : amoNew k w32 old d b =
    if w32 then (amoFn32 k (old.setWidth 32) (b.setWidth 32)).map (BitVec.setWidth 64) else amoFn k old b := by
  simp only [amoNew, if_neg (Nat.ne_of_lt h)]

/-- An AMO other than CAS always has a value to write. -/
theorem exists_amoNew {k : Nat} (h : k < 9) (w32 : Bool) (old d b : W64) : ∃ v, amoNew k w32 old d b = some v := by
  rw [← Option.isSome_iff_exists, amoNew_of_lt h]
  cases w32
  · exact isSome_amoFn h ..
  · simpa using isSome_amoFn32 h ..

/-- CAS writes rb on a match and the old value otherwise (R50). -/
theorem amoNew_cas (w32 : Bool) (old d b : W64) : amoNew 9 w32 old d b =
    some (if (if w32 then (old.setWidth 32 : W32) = d.setWidth 32 else old = d) then
      (if w32 then (b.setWidth 32 : W32).setWidth 64 else b) else old) := by
  cases w32 <;> rfl

/-- The function code of CAS with its reserved bits 0 (R50). -/
theorem casCode_defined (w32 : Bool) : let fn := (0 : BitVec 6).toNat * 32 + b2n w32 * 16 + 9
    fn < 32 ∧ fn % 16 = 9 ∧ w32 = decide (fn / 16 = 1) := by
  cases w32 <;> decide

/-- What an atomic does: it waits, or on good memory it reads and writes at once (R49 to R51). -/
theorem amo_waits_or_swaps {s f : State} {p : Thr} {i : Instr} {rd k : Nat} {ea b : W64} {w32 : Bool}
    (hexec : exec i s = done (f.amoAt p rd ea k w32 b)) :
    let n := if w32 then 4 else 8
    let a := (f.resolve ea).localAddr
    let r := f.memRead a n
    let old : W64 := BitVec.ofNat 64 (ofLe r.1)
    (f.fenceBusy p = true → ∃ t, exec i s = .next t ∧ OnlyThr f t p { f.thr p with wait := .fence false false }) ∧
    ∀ v, amoNew k w32 old ((f.thr p).getG rd) b = some v → f.fenceBusy p = false → r.2.1 = false →
      ∃ t, exec i s = .next t ∧
        let m := r.2.2.memWrite a (leBytes n v.toNat)
        OnlyThr m t p ((m.thr p).setG rd old).adv := by
  intro n a r old
  refine ⟨fun hbusy => ?_, fun v hv hfree hgood => ?_⟩
  · rw [State.amoAt_of_busy hbusy] at hexec
    exact ⟨_, hexec, settle_setThr_onlyThr ..⟩
  · have hr : f.memRead a n = (r.1, false, r.2.2) := by rw [← hgood]
    rw [State.amoAt_of_good hfree hr hv] at hexec
    exact ⟨_, hexec, settle_advG_onlyThr ..⟩

/-- Settles O12: both are `State.amoAt`, whose new value is `amoNew`. -/
theorem atomicsReadAndWriteAtOnce : Obligations.AtomicsReadAndWriteAtOnce := by
  intro s f p rd ra rb fn w32 n ea a r old hx
  refine ⟨fun hi hfn hk hw32 => ?_, fun hi => ?_⟩
  · obtain ⟨hwait, hswap⟩ := amo_waits_or_swaps (exec_amoInstr hi rfl rfl hfn (Nat.le_of_lt hk) hw32 hx)
    refine ⟨hwait, fun hfree hgood => ?_⟩
    obtain ⟨v, hv⟩ := exists_amoNew hk w32 old (f.g p rd) (f.g p rb)
    obtain ⟨t, ht, hthr⟩ := hswap v hv hfree hgood
    exact ⟨v, t, (amoNew_of_lt hk ..).symm.trans hv, ht, hthr⟩
  · obtain ⟨hfn, hk, hw32⟩ := casCode_defined w32
    have hexec := exec_amoInstr hi rfl rfl hfn (Nat.le_of_eq hk) hw32 hx
    rw [hk] at hexec
    obtain ⟨hwait, hswap⟩ := amo_waits_or_swaps hexec
    exact ⟨hwait, hswap _ (amoNew_cas ..)⟩

end Sys2Proof.Machine
end

section
namespace Sys2Proof.Machine

/-! ### Fences (R52) -/

/-- A fence that waits holds its thread while the accesses it waits for are under way, and otherwise goes on (R52). -/
theorem next_of_waitingFence {s f : State} {p : Thr} {i : Instr} {rd ra rb : R5} {code : Nat} {io : Bool}
    (hi : Issues s p i f) (hexec : exec i s = done (s.fenceInstr p rd ra rb code 0 true io))
    (hw : instrWord i = some (wordA 0x1D rd ra rb ((0 : BitVec 8).toNat * 8 + code))) :
    ∃ t, exec i s = .next t ∧
      if f.fenceHeld p io then OnlyThr f t p { f.thr p with wait := .fence true io } else OnlyThr f t p (f.thr p).adv := by
  refine next_of_issues hi hexec hw rfl ?_
  dsimp only
  cases f.fenceHeld p io
  · exact settle_setThr_onlyThr ..
  · exact settle_setThr_onlyThr ..

/-! ### Cache maintenance (R53 to R55) -/

theorem settle_adv_onlyThr (f : State) (p : Thr) : OnlyThr f (f.adv p).settle p (f.thr p).adv := settle_setThr_onlyThr ..

/-- A CACHE instruction whose address meets no exception has its effect, and the thread goes on (R53). -/
theorem next_of_cacheInstr {s f : State} {p : Thr} {i : Instr} {rd ra rb : R5} {code : Nat} {pre : State → W64 → Option Exc}
    {eff : State → W64 → State} {P : State → Prop} (hi : Issues s p i f)
    (hexec : exec i s = done (s.cacheInstr p rd ra rb code 0 pre eff))
    (hw : instrWord i = some (wordA 0x1E rd ra rb ((0 : BitVec 8).toNat * 8 + code))) (hpre : pre f (f.g p ra) = none)
    (h : P ((eff f (f.g p ra)).adv p).settle) : ∃ t, exec i s = .next t ∧ P t := by
  refine next_of_issues hi hexec hw ?_ h
  simp only [State.g] at hpre
  simp [hpre]

/-- An address of 48 bits meets no access fault (R40). -/
theorem wideExc_none {ea : W64} (h : ea.toNat < 2 ^ 48) : wideExc ea = none := by
  simp only [wideExc, Nat.div_eq_of_lt h]
  rfl

/-- Maintenance outside DRAM, or before INIT has ended, has no effect (R54). -/
theorem State.maintAt_outside {s : State} {ea : W64} (h : s.dramLine ea = none ∨ s.mem.ready = false) (p : Nat) (op : Maint) :
    s.maintAt p op ea = s := by
  unfold State.maintAt
  rcases h with h | h
  · rw [h]
  · simp only [h]
    split <;> rfl

theorem State.maintAt_line {s : State} {ea : W64} {l : Nat} (h : s.dramLine ea = some l) (p : Nat) (op : Maint) :
    s.maintAt p op ea = if s.mem.ready then s.maintReq op l p else s := by
  simp only [State.maintAt, h]

/-- What CLEAN, FLUSH and INVAL do to the line of their address (R53, R54). -/
theorem next_of_maint {s f : State} {p : Thr} {i : Instr} {rd ra rb : R5} {code : Nat} {pre : State → W64 → Option Exc}
    {op : Maint} (hi : Issues s p i f)
    (hexec : exec i s = done (s.cacheInstr p rd ra rb code 0 pre fun s a => s.maintAt p op a))
    (hw : instrWord i = some (wordA 0x1E rd ra rb ((0 : BitVec 8).toNat * 8 + code))) (hpre : pre f (f.g p ra) = none) :
    ∃ t, exec i s = .next t ∧
      (f.dramLine (f.g p ra) = none ∨ f.mem.ready = false → OnlyThr f t p (f.thr p).adv) ∧
      ∀ l, f.dramLine (f.g p ra) = some l → f.mem.ready = true →
        OnlyThr (f.maintReq op l p) t p ((f.maintReq op l p).thr p).adv := by
  refine next_of_cacheInstr hi hexec hw hpre ⟨fun hout => ?_, fun l hl hready => ?_⟩
  · rw [State.maintAt_outside hout]
    exact settle_adv_onlyThr ..
  · rw [State.maintAt_line hl, if_pos hready]
    exact settle_adv_onlyThr ..

/-- ZERO's address in DRAM meets no exception (R54). -/
theorem zeroExc_none {f : State} {ea : W64} {l : Nat} (h : ea.toNat < 2 ^ 48) (hl : f.dramLine ea = some l) :
    firstExc [wideExc ea, excIf (f.dramLine ea).isNone (excAccess ea)] = none := by
  simp [wideExc_none h, hl]

/-- INVAL at the privileged level on an address of 48 bits meets no exception (R53, R64). -/
theorem invalExc_none {f : State} {p : Thr} {ea : W64} (hpriv : (f.thr p).priv = true) (h : ea.toNat < 2 ^ 48) :
    firstExc [f.needPriv p, wideExc ea] = none := by
  simp [State.needPriv, hpriv, wideExc_none h]

/-- PREFETCH of an absent line whose bank's miss register is free takes that register (R53, R389). -/
theorem State.prefetchAt_absent {s : State} {ea : W64} {l : Nat} (hl : s.dramLine ea = some l) (hready : s.mem.ready = true)
    (hset : (s.inSet l).isSome = false) (hmiss : smFind s.mem.miss (lineBank l) = none) :
    s.prefetchAt ea = { s with mem := { s.mem with miss := smSet s.mem.miss (lineBank l) l } } := by
  simp [State.prefetchAt, State.prefetch, hl, hready, hset, hmiss]

/-- PREFETCH outside DRAM, or before INIT has ended, has no effect (R54). -/
theorem State.prefetchAt_outside {s : State} {ea : W64} (h : s.dramLine ea = none ∨ s.mem.ready = false) :
    s.prefetchAt ea = s := by
  unfold State.prefetchAt
  rcases h with h | h
  · rw [h]
  · simp only [h]
    split <;> rfl

/-! ### Lines that leave an instruction cache (R53) -/

theorem State.icSet_icInv (s : State) (p k : Nat) (ea : W64) : (s.icInv p ea).icSet k =
    if k = icKey p ea.toNat then (s.icSet k).filter (fun l => l.line != ea.toNat / 64) else s.icSet k := by
  unfold State.icInv
  rw [State.icSet_setIc]
  split
  · rename_i h
    rw [h]
  · rfl

/-- After ICINV the engine's cache holds no line of its address. -/
theorem State.icLine_icInv (s : State) (p : Nat) (ea : W64) : (s.icInv p ea).icLine p ea.toNat = none := by
  simp [State.icLine, State.icSet_icInv, List.find?_eq_none]

theorem smFind_filter_of_false {α : Type} {q : Nat → Bool} {k : Nat} (h : q k = false) (m : SMap α) :
    smFind (m.filter fun e => q e.1) k = none := by
  induction m with
  | nil => rfl
  | cons e m ih =>
    obtain ⟨j, v⟩ := e
    by_cases hj : q j = true
    · have hne : j ≠ k := fun hjk => by simp [hjk, h] at hj
      simp [hj, smFind, hne, ih]
    · simp [hj, ih]

/-- Nothing is found below the first key of a rising table. -/
theorem smFind_of_lt {α : Type} {lo k : Nat} (h : k < lo) {m : SMap α} (hm : smRisingFrom lo m = true) :
    smFind m k = none := by
  cases m with
  | nil => rfl
  | cons e m =>
    obtain ⟨j, v⟩ := e
    simp only [smRisingFrom, Bool.and_eq_true, decide_eq_true_eq] at hm
    have hlt : k < j := by omega
    simp [smFind, Nat.ne_of_gt hlt, hlt]

theorem smFind_filter_of_true {α : Type} {q : Nat → Bool} {k : Nat} (h : q k = true) {lo : Nat} {m : SMap α}
    (hm : smRisingFrom lo m = true) : smFind (m.filter fun e => q e.1) k = smFind m k := by
  induction m generalizing lo with
  | nil => rfl
  | cons e m ih =>
    obtain ⟨j, v⟩ := e
    simp only [smRisingFrom, Bool.and_eq_true, decide_eq_true_eq] at hm
    by_cases hj : q j = true
    · simp [hj, smFind, ih hm.2]
    · have hne : j ≠ k := fun hjk => hj (hjk ▸ h)
      have hdrop : ((j, v) :: m).filter (fun e => q e.1) = m.filter fun e => q e.1 := List.filter_cons_of_neg hj
      rw [hdrop, ih hm.2]
      simp only [smFind, hne, if_false]
      split
      · rename_i hlt
        exact smFind_of_lt (by omega) hm.2
      · rfl

/-- After ICINVALL the engine's cache holds no line. -/
theorem State.icLine_icInvAll (s : State) (p a : Nat) : (s.icInvAll p).icLine p a = none := by
  have hkey : (icKey p a / 128 != p / 4) = false := by
    simp only [icKey, bne_eq_false_iff_eq]
    omega
  have hset : (s.icInvAll p).icSet (icKey p a) = [] := by
    simp only [State.icSet, State.icInvAll, smGet]
    rw [smFind_filter_of_false (q := fun k => k / 128 != p / 4) hkey]
    rfl
  simp [State.icLine, hset]

/-- ICINVALL leaves the lines of other engines. -/
theorem State.icSet_icInvAll {s : State} (h : smRising s.ic = true) {p k : Nat} (hk : k / 128 ≠ p / 4) :
    (s.icInvAll p).icSet k = s.icSet k := by
  simp only [State.icSet, State.icInvAll, smGet]
  rw [smFind_filter_of_true (q := fun k => k / 128 != p / 4) (bne_iff_ne.2 hk) h]

/-- What an instruction leaves that changes instruction caches and goes on. -/
theorem settle_adv_ic (f : State) (p : Thr) (ic : SMap (List IcLine)) :
    let t := (({ f with ic := ic } : State).adv p).settle
    t.thr p = (f.thr p).adv ∧ (∀ q, q ≠ p.val → t.thr q = f.thr q) ∧
      t = { f with thrs := t.thrs, ic := t.ic, evSeen := t.evSeen } :=
  ⟨(State.thr_setThr ..).trans (if_pos rfl), fun _ hq => (State.thr_setThr ..).trans (if_neg hq), rfl⟩

/-- Settles O13: a fence waits or goes on; a CACHE instruction has its effect and goes on. -/
theorem fencesAndCacheInstructionsComplete : Obligations.FencesAndCacheInstructionsComplete := by
  intro s f p rd ra rb ea on
  refine ⟨fun hi => next_of_waitingFence hi rfl rfl, fun hi => next_of_waitingFence hi rfl rfl,
    fun hi => next_of_waitingFence hi rfl rfl, fun hi => next_of_waitingFence hi rfl rfl,
    fun hi => next_of_issues hi rfl rfl rfl (settle_adv_onlyThr ..), fun hwide => ⟨?_, ?_, ?_, ?_, ?_⟩, ?_, ?_⟩
  · exact fun hi => next_of_maint hi rfl rfl (wideExc_none hwide)
  · exact fun hi => next_of_maint hi rfl rfl (wideExc_none hwide)
  · exact fun hi hpriv => next_of_maint hi rfl rfl (invalExc_none hpriv hwide)
  · intro l hi hl
    refine next_of_cacheInstr hi rfl rfl (zeroExc_none hwide hl) ?_
    rw [State.maintAt_line hl]
    exact settle_adv_onlyThr ..
  · intro hi
    obtain ⟨hthr, hothers, hframe⟩ := settle_adv_ic f p (f.icInv p ea).ic
    refine next_of_cacheInstr hi rfl rfl (wideExc_none hwide) ?_
    exact ⟨hthr, hothers, hframe, f.icLine_icInv p ea, fun k hk => (f.icSet_icInv p k ea).trans (if_neg hk)⟩
  · intro hi
    obtain ⟨hthr, hothers, hframe⟩ := settle_adv_ic f p (f.icInvAll p).ic
    refine next_of_cacheInstr hi rfl rfl rfl ?_
    exact ⟨hthr, hothers, hframe, f.icLine_icInvAll p, fun h k hk => State.icSet_icInvAll h hk⟩
  · refine fun hi => ⟨fun l hl hready hset hmiss => ?_, fun hout => ?_⟩
    · refine next_of_cacheInstr hi rfl rfl rfl ?_
      rw [State.prefetchAt_absent hl hready hset hmiss]
      exact ⟨smFind_set_same .., settle_adv_onlyThr ..⟩
    · refine next_of_cacheInstr hi rfl rfl rfl ?_
      rw [State.prefetchAt_outside hout]
      exact settle_adv_onlyThr ..

end Sys2Proof.Machine
end

section
namespace Sys2Proof.Machine

/-! ### Branches (R39) -/

@[simp] theorem Thread.setG_retired (t : Thread) (r : Nat) (v : W64) : (t.setG r v).retired = t.retired := by
  unfold Thread.setG
  split <;> rfl

/-- Two changes of one thread in turn change that thread only. -/
theorem OnlyThr.trans {f g t : State} {p : Nat} {a b : Thread} (h : OnlyThr f g p a) (k : OnlyThr g t p b) :
    OnlyThr f t p b := by
  obtain ⟨hframe, -, hothers⟩ := h
  obtain ⟨kframe, kthr, kothers⟩ := k
  refine ⟨?_, kthr, fun q hq => (kothers q hq).trans (hothers q hq)⟩
  rw [kframe, hframe]

theorem setThr_onlyThr (s : State) (p : Nat) (t : Thread) : OnlyThr s (s.setThr p t) p t :=
  ⟨rfl, (s.thr_setThr p p t).trans (if_pos rfl), fun q hq => (s.thr_setThr p q t).trans (if_neg hq)⟩

/-- What a jump leaves after its thread has been set. -/
theorem settle_setThr_jump_onlyThr (f : State) (p : Thr) (th : Thread) (pc : W64) :
    OnlyThr f ((f.setThr p th).jump p pc).settle p { th with pc := pc, retired := th.retired + 1 } := by
  have hjump := settle_setThr_onlyThr (f.setThr p th) p { th with pc := pc, retired := th.retired + 1 }
  have hself : (f.setThr p th).thr p = th := (State.thr_setThr ..).trans (if_pos rfl)
  rw [State.jump, hself]
  exact (setThr_onlyThr f p th).trans hjump

theorem Thread.taken_iff (t : Thread) (pr : BitVec 3) (cond : BitVec 2) : t.taken pr.toNat cond.toNat = true ↔
    cond = 0 ∨ (cond = 1 ∧ t.getP pr.toNat = true) ∨ (cond = 2 ∧ t.getP pr.toNat = false) := by
  unfold Thread.taken
  generalize t.getP pr.toNat = b
  revert b cond
  decide

/-- The thread that a branch leaves when it is taken (R39). -/
def Thread.branched (t : Thread) (off : BitVec 21) (link : Bool) : Thread :=
  { (if link then t.setG 31 (t.pc + 4) else t) with pc := t.pc + off.signExtend 64 * 4, retired := t.retired + 1 }

/-- BR, or CALL with `link`, with a defined condition (R39). -/
theorem next_of_branch {s f : State} {p : Thr} {i : Instr} {op : Nat} {pr : BitVec 3} {cond : BitVec 2} {off : BitVec 21}
    {link : Bool} (hi : Issues s p i f) (hexec : exec i s = done (s.branchInstr p op pr cond off link))
    (hw : instrWord i = some (wordB op pr cond off)) (hcond : cond ≠ 3) : ∃ t, exec i s = .next t ∧
      ((f.thr p).taken pr.toNat cond.toNat = true → OnlyThr f t p ((f.thr p).branched off link)) ∧
      (¬ (f.thr p).taken pr.toNat cond.toNat = true → OnlyThr f t p (f.thr p).adv) := by
  have hdef : decide (cond = 3) = false := decide_eq_false hcond
  refine next_of_issues hi hexec hw (by simp only [hdef, excIf_false]) ⟨fun htaken => ?_, fun hnot => ?_⟩
  · rw [if_pos htaken]
    cases link with
    | false => exact settle_setThr_onlyThr ..
    | true =>
      have hjump := settle_setThr_jump_onlyThr f p ((f.thr p).setG 31 ((f.thr p).pc + 4)) (branchTarget (f.thr p).pc off)
      rw [Thread.setG_retired] at hjump
      exact hjump
  · rw [if_neg hnot]
    exact settle_adv_onlyThr ..

/-- Condition 3 is an illegal instruction (R39). -/
theorem enters_of_branch_undefined {s f : State} {p : Thr} {i : Instr} {op : Nat} {pr : BitVec 3} {off : BitVec 21}
    {link : Bool} (hi : Fetches s p i f) (hexec : exec i s = done (s.branchInstr p op pr 3 off link))
    (hw : instrWord i = some (wordB op pr 3 off)) (hexl : (f.thr p).status.getLsbD 2 = false) :
    ∃ t, exec i s = .next t ∧ Enters f t p 1 0 (f.thr p).pc ((wordB op pr 3 off).setWidth 64) :=
  enters_of_fetches hi hexec hw (e := excIllegal (wordB op pr 3 off)) rfl hexl

/-- Settles O14: the cases of a branch's condition, and the exceptions before JR and ERET. -/
theorem branchesGoWhereTheySay : Obligations.BranchesGoWhereTheySay := by
  intro s f p pr cond off rd ra rb th taken
  have htaken : th.taken pr.toNat cond.toNat = true ↔ taken := th.taken_iff pr cond
  refine ⟨fun hi hcond => ?_, fun hi hcond => ?_, fun hi hal => ?_, fun hexl => ⟨fun hi => ?_, fun hi => ?_, fun hi hmis => ?_,
    fun hi hpriv hmis => ?_⟩⟩
  · obtain ⟨t, ht, hgo, hstay⟩ := next_of_branch hi rfl rfl hcond
    exact ⟨t, ht, fun h => hgo (htaken.2 h), fun h => hstay (mt htaken.1 h)⟩
  · obtain ⟨t, ht, hgo, hstay⟩ := next_of_branch hi rfl rfl hcond
    exact ⟨t, ht, fun h => hgo (htaken.2 h), fun h => hstay (mt htaken.1 h)⟩
  · have hjump := settle_setThr_jump_onlyThr f p (th.setG rd.toNat (th.pc + 4)) (f.g p ra)
    rw [Thread.setG_retired] at hjump
    simp only [State.g] at hal
    exact next_of_issues hi rfl rfl (by simp [hal]) hjump
  · exact enters_of_branch_undefined hi rfl rfl hexl
  · exact enters_of_branch_undefined hi rfl rfl hexl
  · simp only [State.g] at hmis
    exact enters_of_fetches hi rfl rfl (e := excAlign (f.g p ra)) (by simp [hmis, State.g]) hexl
  · have hpriv' : f.needPriv p = none := by simp [State.needPriv, hpriv, th]
    exact enters_of_fetches hi rfl rfl (e := excAlign th.epc) (by simp [hpriv', hmis, th]) hexl

end Sys2Proof.Machine
end

section
namespace Sys2Proof.Machine

/-! ### Special registers (R30, R66) -/

/-- Access to special register `i` at the level of thread `t`: none at a level that may not reach it, else whether it may be
written. -/
def Thread.srAccess (t : Thread) (i : Nat) : Option Bool := if t.priv then srPriv i else srTask i

theorem isSome_srPriv {i : Nat} : (srPriv i).isSome = true ↔ i ≤ 0x11 := by
  unfold srPriv
  split
  · simp [*]
  · simpa using Nat.le_of_not_lt ‹_›

section
variable {f : State} {p : Nat} {imm : W16} {write : Bool} {word : W32}

/-- The checks of MFS and MTS on an index of the table (R30, R66). -/
theorem State.srExc_of_le (himm : imm.toNat ≤ 0x11) : f.srExc p imm write word =
    firstExc [excIf (write && (f.thr p).srAccess imm.toNat == some false) (excIllegal word),
      excIf ((f.thr p).srAccess imm.toNat).isNone (excPriv (f.thr p).pc)] := by
  have hmod : imm.toNat % 1024 = imm.toNat := Nat.mod_eq_of_lt (by omega)
  have hdiv : decide (imm.toNat / 1024 ≠ 0) = false := decide_eq_false (not_not_intro (Nat.div_eq_of_lt (by omega)))
  have hdef : (srPriv imm.toNat).isNone = false := by simpa using isSome_srPriv.2 himm
  simp only [State.srExc, hmod, hdiv, hdef, Bool.false_or]
  rfl

/-- A register that the level may reach, and write if it is written, meets no exception. -/
theorem State.srExc_none {b : Bool} (himm : imm.toNat ≤ 0x11) (hacc : (f.thr p).srAccess imm.toNat = some b)
    (hw : write = false ∨ b = true) : f.srExc p imm write word = none := by
  rw [State.srExc_of_le himm, hacc]
  rcases hw with rfl | rfl
  · rfl
  · cases write <;> rfl

/-- A register that the level may not reach raises the privilege fault. -/
theorem State.srExc_level (himm : imm.toNat ≤ 0x11) (hacc : (f.thr p).srAccess imm.toNat = none) :
    f.srExc p imm write word = some (excPriv (f.thr p).pc) := by
  rw [State.srExc_of_le himm, hacc]
  cases write <;> rfl

/-- A write of a register that the level may only read is an illegal instruction. -/
theorem State.srExc_readOnly (himm : imm.toNat ≤ 0x11) (hacc : (f.thr p).srAccess imm.toNat = some false) :
    f.srExc p imm true word = some (excIllegal word) := by
  rw [State.srExc_of_le himm, hacc]
  rfl

/-- An index outside the table is an illegal instruction. -/
theorem State.srExc_undefined (himm : 0x11 < imm.toNat) : f.srExc p imm write word = some (excIllegal word) := by
  have hundef : (decide (imm.toNat / 1024 ≠ 0) || (srPriv (imm.toNat % 1024)).isNone) = true := by
    by_cases hbig : imm.toNat < 1024
    · have hnone : srPriv imm.toNat = none := if_pos himm
      simp [Nat.mod_eq_of_lt hbig, hnone]
    · have hdiv : imm.toNat / 1024 ≠ 0 := by omega
      simp [hdiv]
  simp only [State.srExc, hundef, Bool.true_or, excIf_true, firstExc_some]

end

/-- Settles O15: the table of R30 gives each index its access and its value. -/
theorem specialRegistersReadAndWrite : Obligations.SpecialRegistersReadAndWrite := by
  intro s f p rd ra th
  refine ⟨fun e he hi hlev => ?_, ?_, fun hexl => ⟨fun hpriv i hmem hi => ?_, fun hpriv i hmem hi => ?_, fun i hi => ⟨?_, ?_⟩⟩⟩
  · have htable : e.1.toNat ≤ 0x11 ∧ f.srRead p (e.1.toNat % 1024) = e.2 := by
      clear hlev hi
      simp only [List.mem_cons, List.not_mem_nil, or_false] at he
      rcases he with rfl | rfl | rfl | rfl | rfl | rfl | rfl | rfl | rfl | rfl | rfl | rfl | rfl | rfl | rfl | rfl | rfl | rfl <;>
        exact ⟨Nat.le_of_ble_eq_true rfl, rfl⟩
    obtain ⟨himm, hval⟩ := htable
    have hreach : ∃ b, th.srAccess e.1.toNat = some b := by
      rw [← Option.isSome_iff_exists]
      unfold Thread.srAccess
      cases hpriv : th.priv
      · have htask : ∀ i ∈ [(0x000 : W16), 0x008, 0x009, 0x00D, 0x00E, 0x011], (srTask i.toNat).isSome = true := by
          simp [srTask]
        exact htask _ (hlev.resolve_left (by simp [hpriv]))
      · exact isSome_srPriv.2 himm
    obtain ⟨b, hb⟩ := hreach
    rw [← hval]
    exact next_of_issues hi rfl rfl (State.srExc_none himm hb (.inl rfl)) (settle_setThr_onlyThr ..)
  · intro v e he hi hlev
    have htable : e.1.toNat ≤ 0x11 ∧ srPriv e.1.toNat = some true ∧ th.srWrite (e.1.toNat % 1024) v = e.2 := by
      clear hlev hi
      simp only [List.mem_cons, List.not_mem_nil, or_false] at he
      rcases he with rfl | rfl | rfl | rfl | rfl | rfl | rfl | rfl | rfl | rfl | rfl | rfl <;>
        exact ⟨Nat.le_of_ble_eq_true rfl, rfl, rfl⟩
    obtain ⟨himm, hwritable, hval⟩ := htable
    have hacc : th.srAccess e.1.toNat = some true := by
      unfold Thread.srAccess
      cases hpriv : th.priv
      · rw [hlev.resolve_left (by simp [hpriv])]
        decide
      · exact hwritable
    rw [← hval]
    exact next_of_issues hi rfl rfl (State.srExc_none himm hacc (.inr rfl)) (settle_setThr_onlyThr ..)
  · have htable : ∀ i ∈ [(0x001 : W16), 0x002, 0x003, 0x004, 0x005, 0x006, 0x007, 0x00A, 0x00B, 0x00C, 0x00F, 0x010],
        i.toNat ≤ 0x11 ∧ srTask i.toNat = none := by
      simp [srTask]
    obtain ⟨himm, htask⟩ := htable i hmem
    have hacc : th.srAccess i.toNat = none := by simp [Thread.srAccess, hpriv, htask]
    exact enters_of_fetches hi rfl rfl (e := excPriv th.pc) (State.srExc_level himm hacc) hexl
  · have htable : ∀ i ∈ [(0x000 : W16), 0x008, 0x009, 0x00B, 0x00E, 0x011],
        i.toNat ≤ 0x11 ∧ srPriv i.toNat = some false := by
      simp [srPriv]
    obtain ⟨himm, hro⟩ := htable i hmem
    have hacc : th.srAccess i.toNat = some false := by simp [Thread.srAccess, hpriv, hro]
    exact enters_of_fetches hi rfl rfl (e := excIllegal (wordI 0x3A rd ra i)) (State.srExc_readOnly himm hacc) hexl
  · exact fun hf => enters_of_fetches hf rfl rfl (e := excIllegal (wordI 0x39 rd ra i)) (State.srExc_undefined hi) hexl
  · exact fun hf => enters_of_fetches hf rfl rfl (e := excIllegal (wordI 0x3A rd ra i)) (State.srExc_undefined hi) hexl

end Sys2Proof.Machine
end

section
namespace Sys2Proof.Machine

/-! ### The fields of a word of format I (R31) -/

section
variable {op : Nat} (hop : op < 64) (rd ra : R5) (imm : W16)
include hop

theorem toNat_wordI : (wordI op rd ra imm).toNat = op * 2 ^ 26 + rd.toNat * 2 ^ 21 + ra.toNat * 2 ^ 16 + imm.toNat := by
  have hrd := rd.isLt
  have hra := ra.isLt
  have himm := imm.isLt
  rw [wordI, BitVec.toNat_ofNat, Nat.mod_eq_of_lt]
  omega

/-- The fields of a word of format I are those it was made of. -/
theorem fields_wordI : let w := wordI op rd ra imm
    wOp w = op ∧ wRd w = rd ∧ wRa w = ra ∧ wImm w = imm := by
  have hrd := rd.isLt
  have hra := ra.isLt
  have himm := imm.isLt
  refine ⟨?_, BitVec.eq_of_toNat_eq ?_, BitVec.eq_of_toNat_eq ?_, BitVec.eq_of_toNat_eq ?_⟩ <;>
    simp only [wOp, wRd, wRa, wImm, getF, natF, toNat_wordI hop, BitVec.toNat_ofNat] <;> omega

end

/-- The word of ADDI spells ADDI (R31, R33). -/
theorem decodeWord_addi (p : Thr) (rd ra : R5) (imm : W16) : decodeWord p (wordI 0x04 rd ra imm) = some (.addi p rd ra imm) := by
  obtain ⟨hop, hrd, hra, himm⟩ := fields_wordI (op := 0x04) (by decide) rd ra imm
  unfold decodeWord
  rw [hop, hrd, hra, himm]
  rfl

/-! ### Interrupts (R59, R67) -/

/-- An interrupt that is enabled and pending is taken at `State.irqNow` (R67). -/
theorem State.irqNow_of_bits {s : State} {p : Nat} (hie : (s.thr p).status.getLsbD 1 = true)
    (hexl : (s.thr p).status.getLsbD 2 = false) (hbits : s.irqBits p ≠ 0) : s.irqNow p = true := by
  simp only [State.irqNow, hie, hexl, decide_eq_true hbits]
  rfl

/-- An interrupt taken enters cause 8 at the thread's pc (R65, R67). -/
theorem settle_takeIrq_enters (s : State) (p : Thr) :
    Enters s (s.takeIrq p).settle p 8 0 (s.thr p).pc (BitVec.ofNat 64 (s.irqBits p)) :=
  settle_setThr_onlyThr ..

theorem State.stepTaken_of_not {s : State} {p : Nat} (h : (s.thr p).step = false) : s.stepTaken p = s := by
  simp [State.stepTaken, h]

/-- INTERRUPT of a thread at WAIT takes an enabled pending interrupt (R59). -/
theorem State.interrupt_of_wait {s : State} {p : Thr} {m r : Nat} (hwait : (s.thr p).wait = .event m r)
    (hrun : s.runBit p = true) (hdbg : (s.thr p).dbg = false) (hstep : (s.thr p).step = false) (hst : s.pwr.st < 2)
    (hirq : s.irqNow p = true) : s.interrupt p = done (s.takeIrq p) := by
  have hcan : s.canRun p = false := by simp [State.canRun, hwait]
  simp [State.interrupt, hcan, State.waitIrq, hrun, Thread.free, hdbg, hst, hwait, hirq, State.stepTaken_of_not hstep]

/-- INTERRUPT of a running thread with an enabled pending interrupt runs its next instruction, which takes the interrupt (R67). -/
theorem State.interrupt_of_instr {s f : State} {p : Thr} {w : W32} {i : Instr} (hf : FetchesWord s p w f)
    (hirq : s.irqNow p = true) (hi : decodeWord p w = some i) : s.interrupt p = runInstr i s := by
  obtain ⟨hrun, hexc, hfetch⟩ := hf
  simp [State.interrupt, hrun, hirq, State.thr_stepTaken_pc, hexc, hfetch, hi]

/-- Where the word at the pc is no instruction, the illegal-instruction exception comes first (R32, R67). -/
theorem State.interrupt_of_noInstr {s f : State} {p : Thr} {w : W32} (hf : FetchesWord s p w f)
    (hirq : s.irqNow p = true) (hi : decodeWord p w = none) : s.interrupt p = done (f.raise p (excIllegal w)) := by
  obtain ⟨hrun, hexc, hfetch⟩ := hf
  simp [State.interrupt, hrun, hirq, State.thr_stepTaken_pc, hexc, hfetch, hi]

/-- An instruction that is fetched, meets no exception, and finds an interrupt pending takes the interrupt (R67). -/
theorem State.issue_of_irq {s f : State} {p : Thr} {i : Instr} {w : W32} {pre : State → Option Exc} {eff : State → State}
    (h : Fetches s p i f) (hw : instrWord i = some w) (hpre : pre f = none) (hirq : f.irqNow p = true) :
    s.issue p w pre eff = f.takeIrq p := by
  obtain ⟨w', u, hw', ⟨hrun, hexc, hfetch⟩, hrom⟩ := h
  obtain rfl : w = w' := Option.some.inj (hw.symm.trans hw')
  simp [State.issue, hrun, State.thr_stepTaken_pc, hexc, hfetch, hrom, hpre, hirq]

/-- Settles O16: the entries are `State.takeExc` and `State.takeIrq`; INTERRUPT goes through the instruction at the pc. -/
theorem trapsInterruptsAndReturns : Obligations.TrapsInterruptsAndReturns := by
  intro s f p rd ra rb imm
  refine ⟨fun hi hexl => ?_, fun hi hexl => ?_, fun hi hpriv hal => ?_, ?_⟩
  · exact enters_of_fetches hi rfl rfl (e := ⟨6, imm.toNat, true, 0⟩) rfl hexl
  · exact enters_of_fetches hi rfl rfl (e := ⟨7, 0, false, 0⟩) rfl hexl
  · have hpriv' : f.needPriv p = none := by simp [State.needPriv, hpriv]
    exact next_of_issues hi rfl rfl (by simp [hpriv', hal]) (settle_setThr_jump_onlyThr ..)
  · intro bits hie hexl hbits
    have hirq : s.irqNow p = true := State.irqNow_of_bits hie hexl hbits
    refine ⟨fun hrun hdbg hstep hst hwait => ?_, fun hi hfirq => ?_, fun x hf hnone hfexl => ?_⟩
    · obtain ⟨m, r, hwait⟩ := hwait
      exact ⟨_, State.interrupt_of_wait hwait hrun hdbg hstep hst hirq, settle_takeIrq_enters s p⟩
    · obtain ⟨w, u, hw, hf, -⟩ := id hi
      obtain rfl : wordI 0x04 rd ra imm = w := Option.some.inj hw
      have hissue : runInstr (.addi p rd ra imm) s = done (f.takeIrq p) := congrArg done (State.issue_of_irq hi hw rfl hfirq)
      exact ⟨_, (State.interrupt_of_instr hf hirq (decodeWord_addi p rd ra imm)).trans hissue, settle_takeIrq_enters f p⟩
    · exact ⟨_, State.interrupt_of_noInstr hf hirq hnone, settle_raise_entersAt hfexl (excIllegal x)⟩

end Sys2Proof.Machine
end

section
namespace Sys2Proof.Machine

/-! ### SYS instructions (R56 to R59, R63, R64) -/

/-- A SYS instruction whose reserved bits are 0 and that meets no exception has its effect (R56). -/
theorem next_of_sysInstr {s f : State} {p : Thr} {i : Instr} {rd ra rb : R5} {code : Nat} {hi : BitVec 3} {hi0 : Bool}
    {pre : State → List (Option Exc)} {eff : State → State} {P : State → Prop} (h : Issues s p i f)
    (hexec : exec i s = done (s.sysInstr p rd ra rb code hi hi0 pre eff))
    (hw : instrWord i = some (wordA 0x38 rd ra rb (hi.toNat * 256 + code))) (hres : hi0 = false ∨ hi = 0)
    (hpre : firstExc (pre f) = none) (hP : P (eff f).settle) : ∃ t, exec i s = .next t ∧ P t := by
  have hok : (hi0 && decide (hi ≠ 0)) = false := by rcases hres with h | h <;> simp [h]
  exact next_of_issues h hexec hw (by simp only [hok, excIf_false, firstExc_none, hpre]) hP

/-- The privileged level meets no privilege fault (R64). -/
theorem State.needPriv_none {s : State} {p : Nat} (h : (s.thr p).priv = true) : s.needPriv p = none := by
  simp [State.needPriv, h]

/-! #### MBSEND (R56, R57) -/

/-- Only a camp queue is named by destinations of kind 1. -/
theorem kind_ne_one_of_inbox {ra q : Nat} (h : msgDest ra = some (.inl q)) : natF ra 8 3 ≠ 1 := by
  intro hkind
  unfold msgDest at h
  rw [if_neg (by omega), if_pos hkind] at h
  split at h <;> simp at h

section
variable {s : State} {ra : Nat} {m : Msg}

theorem State.sendMsg_inbox {q : Nat} (h : msgDest ra = some (.inl q)) (hroom : (s.thr q).inbox.length < 8) :
    s.sendMsg ra m = (0, s.setThr q { s.thr q with inbox := (s.thr q).inbox ++ [m] }) := by
  simp [State.sendMsg, h, inboxSize, hroom]

theorem State.sendMsg_inbox_full {q : Nat} (h : msgDest ra = some (.inl q)) (hfull : 8 ≤ (s.thr q).inbox.length) :
    s.sendMsg ra m = (1, s) := by
  simp [State.sendMsg, h, inboxSize, Nat.not_lt.2 hfull]

theorem State.sendMsg_queue {c : Nat} (h : msgDest ra = some (.inr c)) (hroom : (s.queue c).length < 64) :
    s.sendMsg ra m = (0, s.setQueue c (s.queue c ++ [m])) := by
  simp [State.sendMsg, h, queueSize, hroom]

theorem State.sendMsg_queue_full {c : Nat} (h : msgDest ra = some (.inr c)) (hfull : 64 ≤ (s.queue c).length) :
    s.sendMsg ra m = (1, s) := by
  simp [State.sendMsg, h, queueSize, Nat.not_lt.2 hfull]

theorem State.sendMsg_nowhere (h : msgDest ra = none) : s.sendMsg ra m = (2, s) := by
  simp [State.sendMsg, h]

end

/-- MBSEND that meets no exception sends its message and writes the status into rd (R57). -/
theorem next_of_mbsend {s f u : State} {p : Thr} {rd ra rb : R5} {st : Nat} (hi : Issues s p (.mbsend p rd ra rb 0) f)
    (heven : rb.toNat % 2 = 0) (hpriv : natF (f.g p ra).toNat 8 3 = 1 → (f.thr p).priv = true)
    (hsend : f.sendMsg (f.g p ra).toNat ⟨(f.thr p).getG rb.toNat, (f.thr p).getG (rb.toNat + 1), p⟩ = (st, u)) :
    ∃ t, exec (.mbsend p rd ra rb 0) s = .next t ∧ OnlyThr u t p ((u.thr p).setG rd.toNat (BitVec.ofNat 64 st)).adv := by
  refine next_of_sysInstr hi rfl rfl (.inr rfl) ?_ ?_
  · have hcamp : (if natF (f.g p ra).toNat 8 3 = 1 then f.needPriv p else none) = none := by
      split
      · exact State.needPriv_none (hpriv ‹_›)
      · rfl
    unfold State.g at hcamp
    simp [heven, hcamp]
  · simp only [State.g] at hsend
    simp only [hsend]
    exact settle_advG_onlyThr ..

/-- What an instruction leaves that sets one camp queue and its own thread. -/
theorem OnlyThr.of_setQueue {f t : State} {p : Thr} {c : Nat} {q : List Msg} {th : Thread}
    (h : OnlyThr (f.setQueue c q) t p th) : t.thr p = th ∧ t.queue c = q ∧ (∀ d, d ≠ c → t.queue d = f.queue d) ∧
      (∀ r, r ≠ p.val → t.thr r = f.thr r) ∧ t = { f with thrs := t.thrs, campQ := t.campQ, evSeen := t.evSeen } := by
  obtain ⟨hframe, hthr, hothers⟩ := h
  have hqueue (d : Nat) : t.queue d = if d = c then q else f.queue d := by
    rw [hframe]
    exact f.queue_setQueue c d q
  refine ⟨hthr, (hqueue c).trans (if_pos rfl), fun d hd => (hqueue d).trans (if_neg hd), hothers, ?_⟩
  rw [hframe]
  rfl

/-! #### MBRECV (R57, R58) -/

/-- MBRECV from the own inbox, or at the privileged level from the camp queue, meets no exception. -/
theorem mbrecvExc_none {f : State} {p : Thr} {rd ra : R5} (w : W32) (heven : rd.toNat % 2 = 0)
    (hsrc : f.g p ra = 0 ∨ f.g p ra = 1 ∧ (f.thr p).priv = true) :
    firstExc [excIf (decide (rd.toNat % 2 = 1) || decide (1 < (f.g p ra).toNat)) (excIllegal w),
      if f.g p ra = 1 then f.needPriv p else none] = none := by
  rcases hsrc with h | ⟨h, hpriv⟩
  · simp [heven, h]
  · simp [heven, h, State.needPriv_none hpriv]

section
variable {s f u : State} {p : Thr} {rd ra rb : R5} {pn : BitVec 3} (hi : Issues s p (.mbrecv p rd ra rb pn) f)
  (heven : rd.toNat % 2 = 0) (hsrc : f.g p ra = 0 ∨ f.g p ra = 1 ∧ (f.thr p).priv = true)
include hi heven hsrc

/-- MBRECV that finds no message writes 0 into its predicate (R58). -/
theorem next_of_mbrecv_empty (htake : f.takeMsg p (decide (f.g p ra = 1)) = (none, u)) :
    ∃ t, exec (.mbrecv p rd ra rb pn) s = .next t ∧ OnlyThr u t p ((u.thr p).setP pn.toNat false).adv := by
  refine next_of_sysInstr hi rfl rfl (.inl rfl) (mbrecvExc_none _ heven hsrc) ?_
  unfold State.g at htake
  simp only [htake]
  exact settle_setThr_onlyThr ..

/-- MBRECV that finds a message writes it, its sender and 1 into its predicate (R58). -/
theorem next_of_mbrecv_message {m : Msg} (htake : f.takeMsg p (decide (f.g p ra = 1)) = (some m, u)) :
    ∃ t, exec (.mbrecv p rd ra rb pn) s = .next t ∧
      OnlyThr u t p (({ ((u.thr p).setG rd.toNat m.w0).setG (rd.toNat + 1) m.w1 with
        mbsrc := BitVec.ofNat 64 m.src } : Thread).setP pn.toNat true).adv := by
  refine next_of_sysInstr hi rfl rfl (.inl rfl) (mbrecvExc_none _ heven hsrc) ?_
  unfold State.g at htake
  simp only [htake, State.advP, State.thr_setThr, if_true]
  exact (setThr_onlyThr ..).trans (settle_setThr_onlyThr ..)

end

/-! #### WAIT (R59) -/

/-- WAIT returns at once for an empty mask or a pending bit, and otherwise waits (R59). -/
theorem exec_waitT {s f : State} {p : Thr} {rd ra rb : R5} (hi : Issues s p (.waitT p rd ra rb 0) f) :
    let mask := (f.g p ra).toNat % 8
    exec (.waitT p rd ra rb 0) s = done (
      if mask = 0 then f.advG p rd.toNat 0
      else if f.ipend p &&& mask ≠ 0 then f.advG p rd.toNat (BitVec.ofNat 64 (f.ipend p &&& mask))
      else f.setThr p { f.thr p with wait := .event mask rd.toNat }) :=
  (exec_of_issues hi rfl rfl rfl).trans rfl

/-! #### The run bit (R63) -/

/-- A field of one bit set, seen bit by bit. -/
theorem tb_setF_bit (v : W32) (b : Bool) {lo i : Nat} (hi : i < 32) :
    tb (setF v lo 1 (b2n b)) i = if i = lo then b else tb v i := by
  have hmask : (maskF lo 1).getLsbD i = decide (i = lo) := by
    simp only [maskF, BitVec.getLsbD_ofNat, hi, decide_true, Bool.true_and, Nat.pow_one, Nat.one_mul, Nat.reduceSub,
      Nat.testBit_two_pow, eq_comm]
  have hbit : (BitVec.ofNat 32 (b2n b % 2 ^ 1) <<< lo).getLsbD i = (decide (i = lo) && b) := by
    have hval : b2n b % 2 ^ 1 = b.toNat := by cases b <;> rfl
    simp only [BitVec.getLsbD_shiftLeft, hval, BitVec.getLsbD_ofNat, hi, decide_true, Bool.true_and]
    by_cases hlo : i = lo
    · subst hlo
      cases b <;> simp
    · by_cases hlt : i < lo
      · simp [hlo, hlt]
      · have hsmall : b.toNat < 2 ^ (i - lo) :=
          Nat.lt_of_le_of_lt b.toNat_le (Nat.one_lt_two_pow (by omega))
        simp [hlo, hlt, Nat.testBit_lt_two_pow hsmall]
  simp only [tb, setF, BitVec.getLsbD_or, BitVec.getLsbD_and, BitVec.getLsbD_not, hmask, hbit, hi]
  by_cases hlo : i = lo <;> simp [hlo]

theorem SYS_CAMP_RUN_inj {m n : Nat} : Reg.SYS_CAMP_RUN m = Reg.SYS_CAMP_RUN n ↔ m = n := by
  simp only [Reg.SYS_CAMP_RUN]
  omega

theorem State.runBit_setRunBit (s : State) (p q : Nat) (b : Bool) :
    (s.setRunBit p b).runBit q = if q = p then b else s.runBit q := by
  unfold State.runBit State.setRunBit State.rbit
  rw [State.reg_setFld]
  by_cases hcamp : q / 32 = p / 32
  · rw [if_pos (by rw [hcamp]), tb_setF_bit _ _ (Nat.mod_lt _ (by decide)), ← hcamp]
    exact if_congr (by omega) rfl rfl
  · rw [if_neg (mt SYS_CAMP_RUN_inj.1 hcamp), if_neg (fun h => hcamp (by rw [h]))]

/-- What setting a run bit leaves. -/
theorem State.settle_setRunBit_frame (u : State) (p : Nat) (b : Bool) : let t := (u.setRunBit p b).settle
    t = { u with regs := t.regs, evSeen := t.evSeen } := rfl

/-- What HALT leaves: its run bit is 0, and its thread has gone on (R63). -/
theorem settle_halt (f : State) (p : Thr) :
    let t := ((f.adv p).setRunBit p false).settle
    t.runBit p = false ∧ t.thr p = (f.thr p).adv ∧
      (∀ q, q < 192 → q ≠ p.val → t.runBit q = f.runBit q ∧ t.thr q = f.thr q) ∧
      t = { f with thrs := t.thrs, regs := t.regs, evSeen := t.evSeen } ∧ RegsBut f t [Reg.SYS_CAMP_RUN (p / 32)] := by
  have hrun (q : Nat) : ((f.adv p).setRunBit p false).settle.runBit q = if q = p then false else f.runBit q :=
    (f.adv p).runBit_setRunBit p q false
  have hthr (q : Nat) : ((f.adv p).setRunBit p false).settle.thr q = if q = p then (f.thr p).adv else f.thr q :=
    f.thr_setThr p q _
  refine ⟨(hrun p).trans (if_pos rfl), (hthr p).trans (if_pos rfl),
    fun q _ hq => ⟨(hrun q).trans (if_neg hq), (hthr q).trans (if_neg hq)⟩,
    (State.settle_setRunBit_frame (f.adv p) p false).trans rfl, fun o ho => ?_⟩
  exact ((f.adv p).reg_setFld ..).trans (if_neg (by simpa using ho))

/-- Settles O17: the destination of MBSEND, the source of MBRECV, the mask of WAIT, and the run bit that HALT clears. -/
theorem messagesAndWaits : Obligations.MessagesAndWaits := by
  intro s f p rd ra rb pn th dst msg
  refine ⟨fun hi heven => ⟨fun q hdst hroom => ?_, fun q hdst hfull => ?_, fun c hdst hpriv hroom => ?_,
    fun c hdst hpriv hfull => ?_, fun hdst hpriv => ?_⟩, fun hi heven => ⟨fun m rest hsrc hbox => ?_, fun hsrc hbox => ?_,
    fun m rest hsrc hpriv hq => ?_, fun hsrc hpriv hq => ?_⟩, fun hi => ?_, fun hi => ?_, fun hi hpriv => ?_⟩
  · exact next_of_mbsend hi heven (fun h => absurd h (kind_ne_one_of_inbox hdst)) (State.sendMsg_inbox hdst hroom)
  · exact next_of_mbsend hi heven (fun h => absurd h (kind_ne_one_of_inbox hdst)) (State.sendMsg_inbox_full hdst hfull)
  · obtain ⟨t, ht, honly⟩ := next_of_mbsend hi heven (fun _ => hpriv) (State.sendMsg_queue hdst hroom)
    exact ⟨t, ht, honly.of_setQueue⟩
  · exact next_of_mbsend hi heven (fun _ => hpriv) (State.sendMsg_queue_full hdst hfull)
  · exact next_of_mbsend hi heven hpriv (State.sendMsg_nowhere hdst)
  · have htake : f.takeMsg p (decide (f.g p ra = 1)) = (some m, f.setThr p { th with inbox := rest }) := by
      simp [State.takeMsg, hsrc, hbox, th]
    obtain ⟨t, ht, honly⟩ := next_of_mbrecv_message hi heven (.inl hsrc) htake
    rw [State.thr_setThr, if_pos rfl] at honly
    exact ⟨t, ht, (setThr_onlyThr ..).trans honly⟩
  · exact next_of_mbrecv_empty hi heven (.inl hsrc) (by simp [State.takeMsg, hsrc, hbox, th])
  · have htake : f.takeMsg p (decide (f.g p ra = 1)) = (some m, f.setQueue (p / 32) rest) := by
      simp [State.takeMsg, hsrc, hq]
    obtain ⟨t, ht, honly⟩ := next_of_mbrecv_message hi heven (.inr ⟨hsrc, hpriv⟩) htake
    obtain ⟨hthr, hqueue, hqueues, hothers, hframe⟩ := honly.of_setQueue
    exact ⟨t, ht, hqueue, hqueues, hothers, hthr, hframe⟩
  · exact next_of_mbrecv_empty hi heven (.inr ⟨hsrc, hpriv⟩) (by simp [State.takeMsg, hsrc, hq])
  · refine ⟨_, exec_waitT hi, fun hmask => ?_, fun hpend => ?_, fun hmask hnone => ?_⟩
    · rw [if_pos hmask]
      exact settle_advG_onlyThr ..
    · have hmask : (f.g p ra).toNat % 8 ≠ 0 := fun h => hpend (by rw [h, Nat.and_zero])
      rw [if_neg hmask, if_pos hpend]
      exact settle_advG_onlyThr ..
    · rw [if_neg hmask, if_neg (not_not_intro hnone)]
      exact settle_setThr_onlyThr ..
  · exact next_of_sysInstr hi rfl rfl (.inr rfl) rfl (settle_adv_onlyThr ..)
  · exact next_of_sysInstr hi rfl rfl (.inr rfl) (by simp [State.needPriv_none hpriv]) (settle_halt f p)

end Sys2Proof.Machine
end

section
namespace Sys2Proof.Machine

/-! ### Custom instructions of one microword (R77, R79, R82, R90) -/

/-- The two halves of a word make it up again (R73). -/
theorem halfOf_append (w : W128) : halfOf w true ++ halfOf w false = w := by
  apply BitVec.eq_of_getLsbD_eq
  intro i hi
  change ((w.extractLsb' 64 64) ++ (w.setWidth 64)).getLsbD i = _
  rw [BitVec.getLsbD_append]
  by_cases hlo : i < 64
  · simp [hlo]
  · have hhi : i - 64 < 64 := by omega
    simp [hlo, hhi, Nat.add_sub_cancel' (Nat.le_of_not_lt hlo)]

/-- A word outside ROM with good replicas is fetched as it is stored (R74, R87, R97). -/
theorem State.ucsFetch_good {s : State} {a : Nat} {w : W128} (hrep : s.ucs.rep = []) (ha : 0x2000 ≤ a)
    (hw : s.storeWord a = some w) (camp : Nat) : s.ucsFetch camp a = (.word w 0, s) := by
  have htrap : s.trapAddr a = a := by
    unfold State.trapAddr
    split
    · exact if_neg (by omega)
    · rfl
  simp [State.ucsFetch, htrap, hw, State.ucsHalf_good hrep, halfOf_append]

/-- A microword in open encodings that ends its instruction and writes rd with an ALU function of ra and rb, without memory
operation, unit, predicate write or flag update (R77, R80). -/
structure OneWordOp (w : W128) : Prop where
  isOpen : microOpen w = true
  seq : mwSeq w = 0x0A
  mem : mwMem w = 0
  unit : mwUnit w = 0
  pwr : mwPwr w = 0
  flg : mwFlg w = false
  asel : mwAsel w = 1
  bsel : mwBsel w = 2
  dsel : mwDsel w = 1
  alu : mwAlu w < 0x38

/-- A microword's CL takes fewer than 8 cycles (R77). -/
theorem mwCl_lt (w : W128) : mwCl w < 8 := Nat.mod_lt _ (by decide)

/-- Below the codes of microcode's own functions the micro ALU is the ALU of R34 (R77). -/
theorem microAlu_of_lt {fn : Nat} {a b x : W64} (hfn : fn < 0x38) (hx : aluFn fn a b = some x) : microAlu fn a b = x := by
  have h38 : fn ≠ 0x38 := by omega
  have h39 : fn ≠ 0x39 := by omega
  have h3A : fn ≠ 0x3A := by omega
  simp [microAlu, h38, h39, h3A, hx]

section
variable {s : State} {p : Nat} {i : CxIns} {w : W128} {x : W64}

/-- The micro-state `m` once a `OneWordOp` has been executed: the write of rd is held (R79). -/
def Micro.oneWord (m : Micro) (i : CxIns) (w : W128) (x : W64) : Micro :=
  { m with gw := m.gw ++ [(i.rd, x)], cycles := m.cycles + mwCl w + 1 }

theorem OneWordOp.microHold (h : OneWordOp w) (m : Micro) : s.microHold p m w = m := by
  simp [State.microHold, needsMdr, h.asel, h.bsel, h.mem, h.unit]

theorem OneWordOp.srcA (h : OneWordOp w) (m : Micro) : s.microSrc p i m w (mwAsel w) = (s.thr p).getG i.ra := by
  rw [h.asel]
  rfl

theorem OneWordOp.srcB (h : OneWordOp w) (m : Micro) : s.microSrc p i m w (mwBsel w) = (s.thr p).getG i.rb := by
  rw [h.bsel]
  rfl

theorem OneWordOp.microStart (h : OneWordOp w) (m : Micro) (a b : W64) : s.microStart p m w a b = (m, s) := by
  simp [State.microStart, h.unit, microUnit]

theorem OneWordOp.microMem (h : OneWordOp w) (m : Micro) (ea : W64) : s.microMem p i m w ea = (.next m, s) := by
  simp [State.microMem, h.mem]

theorem OneWordOp.microSeq (h : OneWordOp w) (m : Micro) : s.microSeq p i m w = .fin m := by
  simp [State.microSeq, h.seq]

theorem OneWordOp.microFlags (h : OneWordOp w) (m : Micro) (a b y : W64) : s.microFlags m w a b y = (m, s) := by
  simp [State.microFlags, h.flg]

theorem OneWordOp.predWrite (h : OneWordOp w) (m : Micro) : m.predWrite i w = m := by
  simp [Micro.predWrite, h.pwr]

theorem OneWordOp.dest (h : OneWordOp w) (m : Micro) (y : W64) : m.dest i w y = { m with gw := m.gw ++ [(i.rd, y)] } := by
  simp [Micro.dest, h.dsel]

/-- The microword executed within the limit of cycles ends the instruction (R77, R80, R90). -/
theorem OneWordOp.microWord (h : OneWordOp w) (hx : aluFn (mwAlu w) ((s.thr p).getG i.ra) ((s.thr p).getG i.rb) = some x)
    {m : Micro} (hcycles : m.cycles + mwCl w + 1 ≤ 4096) : s.microWord p i m w = (.fin (m.oneWord i w x), s) := by
  have hgf : ¬ (mwAlu w = 0x38 ∧ mwCl w = 0) := fun hg => absurd hg.1 (Nat.ne_of_lt h.alu)
  rw [State.microWord, h.microHold]
  simp only [h.srcA, h.srcB, if_neg hgf, microAlu_of_lt h.alu hx, h.microFlags,
    h.predWrite, h.microStart, h.microMem, h.dest, h.microSeq, if_neg (Nat.not_lt.2 hcycles)]
  rfl

/-- The microcode of a `OneWordOp` at a place with good replicas ends after that word (R82). -/
theorem OneWordOp.microLoop (h : OneWordOp w) (hx : aluFn (mwAlu w) ((s.thr p).getG i.ra) ((s.thr p).getG i.rb) = some x)
    {m : Micro} (hcycles : m.cycles + mwCl w + 1 ≤ 4096) (hload : m.load = none) (hrep : s.ucs.rep = []) (hlo : 0x2000 ≤ m.upc)
    (hhi : m.upc < 0x4000) (hw : s.storeWord m.upc = some w) (fuel : Nat) :
    s.microLoop p i m (fuel + 1) = (.fin (m.oneWord i w x), s) := by
  have hword : s.microWord p i { m with cycles := m.cycles + 0 } w = (.fin (m.oneWord i w x), s) := h.microWord hx hcycles
  have hload' : m.load.isSome = false := by rw [hload]; rfl
  have hend : (m.oneWord i w x).load.isSome = false := hload'
  unfold State.microLoop
  simp only [Nat.ne_of_lt hhi, if_false, State.ucsFetch_good hrep hlo hw, hload', Bool.false_and, h.isOpen, hword, hend]
  rfl

/-- An instruction boundary of a thread that no halt waits for leaves the state (R63). -/
theorem State.boundary_of_not (h : (s.thr p).halting = false) : s.boundary p = s := by
  simp [State.boundary, h]

end

@[simp] theorem Thread.setG_wait (t : Thread) (r : Nat) (v : W64) : (t.setG r v).wait = t.wait := by
  unfold Thread.setG
  split <;> rfl

@[simp] theorem Thread.setG_halting (t : Thread) (r : Nat) (v : W64) : (t.setG r v).halting = t.halting := by
  unfold Thread.setG
  split <;> rfl

theorem Thread.eq_of_wait {t : Thread} (h : t.wait = .none) : { t with wait := .none } = t := by
  rw [← h]

/-- The end of a `OneWordOp`: rd is written and the thread goes on (R79). -/
theorem settle_oneWord_onlyThr {f : State} {p : Thr} {i : CxIns} {w : W128} {x unit : W64} {upc disp : Nat}
    (hwait : (f.thr p).wait = .none) (hhalt : (f.thr p).halting = false) :
    OnlyThr f ((f.microEnd p ((Micro.init upc unit disp).oneWord i w x)).boundary p).settle p ((f.thr p).setG i.rd x).adv := by
  have hself : (f.setThr p ((f.thr p).setG i.rd x)).thr p = (f.thr p).setG i.rd x := (State.thr_setThr ..).trans (if_pos rfl)
  have hend : f.microEnd p ((Micro.init upc unit disp).oneWord i w x) = (f.setThr p ((f.thr p).setG i.rd x)).adv p := by
    change (f.setThr p { (f.thr p).setG i.rd x with wait := .none }).adv p = _
    rw [Thread.eq_of_wait ((Thread.setG_wait ..).trans hwait)]
  have hgoes := settle_adv_onlyThr (f.setThr p ((f.thr p).setG i.rd x)) p
  rw [hend, State.boundary_of_not]
  · rw [hself] at hgoes
    exact (setThr_onlyThr ..).trans hgoes
  · rw [State.adv, hself, State.thr_setThr, if_pos rfl]
    exact (Thread.setG_halting ..).trans hhalt

/-- CUSTn with a valid entry that its level may use runs its microcode from there (R82). -/
theorem exec_cust {s f : State} {p : Thr} {rd ra rb : R5} {cx : BitVec 4} {fn : BitVec 7} {off : Nat} {task : Bool}
    (hi : Issues s p (.cust p rd ra rb cx fn []) f) (hentry : smFind f.ucs.entries cx.toNat = some (off, task))
    (hlev : task = true ∨ (f.thr p).priv = true) : exec (.cust p rd ra rb cx fn []) s =
      done (f.freeAny.2.microRun p ⟨cx.toNat, rd.toNat, ra.toNat, rb.toNat, wordX rd ra rb cx fn⟩
        (Micro.init (custBase + off) (BitVec.ofNat 64 f.freeAny.1) f.cyc)) := by
  refine (exec_of_issues hi rfl rfl ?_).trans ?_
  · rcases hlev with h | h <;> simp [hentry, h]
  · simp only [hentry]
    rfl

/-! ### The end of waits (R47, R52, R59) -/

section
variable {s : State} {p : Thr} (hrun : s.runBit p = true) (hst : s.pwr.st < 2)
include hrun hst

/-- WAIT_WAKE of a WAIT whose condition has come about writes the pending bits and goes on (R59). -/
theorem next_of_waitWake_event {mask rd : Nat} (hwait : (s.thr p).wait = .event mask rd) (hpend : s.ipend p &&& mask ≠ 0)
    (hdbg : (s.thr p).dbg = false) (hstep : (s.thr p).step = false) : ∃ t, exec (.waitWake p) s = .next t ∧
      OnlyThr s t p (({ s.thr p with wait := .none } : Thread).setG rd (BitVec.ofNat 64 (s.ipend p &&& mask))).adv := by
  have hfree : (s.thr p).free = true := by simp [Thread.free, hdbg]
  have hwake : s.waitWake p = (s.setThr p { s.thr p with wait := .none }).advG p rd (BitVec.ofNat 64 (s.ipend p &&& mask)) := by
    simp [State.waitWake, hrun, hwait, hpend, Nat.not_le.2 hst, hfree, State.stepTaken_of_not hstep]
  have hgoes := settle_advG_onlyThr (s.setThr p { s.thr p with wait := .none }) p rd (BitVec.ofNat 64 (s.ipend p &&& mask))
  rw [State.thr_setThr, if_pos rfl, ← hwake] at hgoes
  exact ⟨_, rfl, (setThr_onlyThr ..).trans hgoes⟩

omit hst in
/-- WAIT_WAKE of a thread held at a fence with nothing outstanding lets it go on: past a FENCE, or at an atomic again (R51,
R52). -/
theorem next_of_waitWake_fence {adv io : Bool} (hwait : (s.thr p).wait = .fence adv io) (hheld : s.fenceHeld p io = false) :
    ∃ t, exec (.waitWake p) s = .next t ∧
      OnlyThr s t p (if adv then ({ s.thr p with wait := .none } : Thread).adv else { s.thr p with wait := .none }) := by
  have hwake : s.waitWake p = s.setThr p
      (if adv then ({ s.thr p with wait := .none } : Thread).adv else { s.thr p with wait := .none }) := by
    simp only [State.waitWake, hrun, hwait, State.fenceWake, hheld]
    cases adv <;> rfl
  refine ⟨(s.waitWake p).settle, rfl, ?_⟩
  rw [hwake]
  exact settle_setThr_onlyThr ..

end

/-- Settles O19: the microcode of one word ends at once, and a wait ends when what it waits for has come about. -/
theorem customInstructionsAndWakesComplete : Obligations.CustomInstructionsAndWakesComplete := by
  refine ⟨fun s f p rd ra rb cx fn off task w x hi hentry hlev hwait hhalt hrep hoff hw hopen hseq hmem hunit hpwr hflg hasel
    hbsel hdsel hx halu => ?_, fun s p hrun hst => ⟨fun mask rd hwait hpend hdbg hstep => ?_, fun io hwait hheld => ?_,
    fun hwait hbusy => ?_⟩⟩
  · have hop : OneWordOp w := ⟨hopen, hseq, hmem, hunit, hpwr, hflg, hasel, hbsel, hdsel, halu⟩
    have hcycles : 0 + mwCl w + 1 ≤ 4096 := by
      have hcl := mwCl_lt w
      omega
    have hloop := hop.microLoop (s := f.freeAny.2) (p := p)
      (i := ⟨cx.toNat, rd.toNat, ra.toNat, rb.toNat, wordX rd ra rb cx fn⟩)
      (m := Micro.init (custBase + off) (BitVec.ofNat 64 f.freeAny.1) f.cyc) hx hcycles rfl hrep
      (Nat.le_add_right_of_le (by decide)) (Nat.lt_trans hoff (by decide)) hw 4099
    refine ⟨_, exec_cust hi hentry hlev, ?_⟩
    simp only [State.microRun, hloop]
    exact settle_oneWord_onlyThr (f := f.freeAny.2) hwait hhalt
  · exact next_of_waitWake_event hrun hst hwait hpend hdbg hstep
  · exact next_of_waitWake_fence hrun hwait hheld
  · exact next_of_waitWake_fence hrun hwait hbusy

end Sys2Proof.Machine
end

section
namespace Sys2Proof.Machine

/-! ### Fields of registers (R1, R6) -/

theorem getF_or (v m : W32) (lo len : Nat) : getF (v ||| m) lo len = getF v lo len ||| getF m lo len := by
  apply Nat.eq_of_testBit_eq
  intro i
  simp only [getF, Nat.testBit_or, testBit_natF, BitVec.toNat_or, Bool.and_or_distrib_left]

theorem getLsbD_maskF (lo len : Nat) {i : Nat} (hi : i < 32) :
    (maskF lo len).getLsbD i = (decide (lo ≤ i) && decide (i < lo + len)) := by
  simp only [maskF, BitVec.getLsbD_ofNat, hi, decide_true, Bool.true_and, Nat.testBit_mul_two_pow, Nat.testBit_two_pow_sub_one]
  by_cases hlo : lo ≤ i
  · simp only [hlo, decide_true, Bool.true_and, decide_eq_decide]
    omega
  · simp [hlo]

/-- A field that lies in the register reads what it was set to. -/
theorem getF_setF (v : W32) {lo len x : Nat} (hx : x < 2 ^ len) (hw : lo + len ≤ 32) : getF (setF v lo len x) lo len = x := by
  apply Nat.eq_of_testBit_eq
  intro i
  by_cases hi : i < len
  · have h32 : lo + i < 32 := by omega
    have hi32 : i < 32 := by omega
    simp only [getF, testBit_natF, BitVec.testBit_toNat, setF, BitVec.getLsbD_or, BitVec.getLsbD_and, BitVec.getLsbD_not,
      BitVec.getLsbD_shiftLeft, getLsbD_maskF lo len h32, BitVec.getLsbD_ofNat, Nat.mod_eq_of_lt hx]
    simp [hi, h32, hi32]
  · have hbit : x.testBit i = false :=
      Nat.testBit_lt_two_pow (hx.trans_le (Nat.pow_le_pow_right (by decide) (Nat.le_of_not_lt hi)))
    simp [getF, testBit_natF, hi, hbit]

/-- RESULT of UCS_LOAD_STATUS as the end of a load sets it (R93). -/
theorem getF_loadStatus_result {region code : Nat} (hregion : region < 16) (hcode : code < 16) (word : Nat) :
    getF (BitVec.ofNat 32 (word * 2 ^ 16 + code * 16 + region)) 4 4 = code := by
  simp only [getF, natF, BitVec.toNat_ofNat, Nat.reducePow]
  omega

/-! ### The end of a load, refused or not (R93) -/

section
variable (s : State) (region code word : Nat)

@[simp] theorem State.ucsResult_ucs : (s.ucsResult region code word).ucs = s.ucs := rfl

theorem State.reg_ucsResult (o : Nat) : (s.ucsResult region code word).reg o =
    if o = Reg.UCS_LOAD_CTRL then s.reg Reg.UCS_LOAD_CTRL &&& ~~~ bit 0
    else if o = Reg.UCS_STATUS then s.reg Reg.UCS_STATUS ||| bit 0
    else if o = Reg.UCS_LOAD_STATUS then BitVec.ofNat 32 (word * 2 ^ 16 + code * 16 + region)
    else s.reg o := by
  have hctrl : Reg.UCS_LOAD_CTRL ≠ Reg.UCS_STATUS := by decide
  have hctrl' : Reg.UCS_LOAD_CTRL ≠ Reg.UCS_LOAD_STATUS := by decide
  have hstatus : Reg.UCS_STATUS ≠ Reg.UCS_LOAD_STATUS := by decide
  simp only [State.ucsResult, State.reg_clrReg, State.reg_orReg, State.reg_setReg, hctrl, hctrl', hstatus, if_false]

theorem State.ucsResult_frame : ∃ regs, s.ucsResult region code word = { s with regs := regs } := by
  unfold State.ucsResult
  generalize BitVec.ofNat 32 _ = v
  exact ⟨_, rfl⟩

/-- A refusal changes the three registers of the load alone (R93). -/
theorem settle_ucsResult_onlyRegs : OnlyRegs s ((s.setFld Reg.UCS_LOAD_CTRL 1 2 region).ucsResult region code word).settle
    [Reg.UCS_LOAD_CTRL, Reg.UCS_LOAD_STATUS, Reg.UCS_STATUS] := by
  obtain ⟨regs, hregs⟩ := (s.setFld Reg.UCS_LOAD_CTRL 1 2 region).ucsResult_frame region code word
  refine ⟨by rw [hregs]; rfl, fun o ho => ?_⟩
  simp only [List.mem_cons, List.not_mem_nil, or_false, not_or] at ho
  obtain ⟨hctrl, hloadStatus, hstatus⟩ := ho
  rw [State.reg_settle, State.reg_ucsResult, if_neg hctrl, if_neg hstatus, if_neg hloadStatus, State.reg_setFld, if_neg hctrl]

end

/-! ### The start of a load (R93, R94) -/

/-- The access of an agent, counted when it is the debug port's, touches SEC_STATUS alone (R464). -/
theorem State.reg_servedFor (s : State) (ag : Agent) {o : Nat} (ho : o ≠ Reg.SEC_STATUS) :
    (s.servedFor ag).reg o = s.reg o := by
  cases ag
  case debug => exact (s.reg_orReg _ _ _).trans (if_neg ho)
  all_goals rfl

@[simp] theorem State.servedFor_ucs (s : State) (ag : Agent) : (s.servedFor ag).ucs = s.ucs := by
  cases ag <;> rfl

/-- The load of `region` begins: START reads 1, RESULT is 1, and the region's table has no valid entry. -/
def State.ucsBegin (s : State) (region : Nat) : State :=
  let t := (s.orReg Reg.UCS_LOAD_CTRL (bit 0)).setReg Reg.UCS_LOAD_STATUS (BitVec.ofNat 32 (0xFFFF0010 + region))
  let u := { t.ucs with load := some (region, t.reg64 Reg.UCS_LOAD_ADDR_LO) }
  t.setUcs (if region = 1 then { u with traps := [] } else { u with entries := [] })

/-- Whether another thread runs is read from the run registers alone. -/
theorem State.othersRun_congr {s t : State} (h : ∀ c < 6, t.reg (Reg.SYS_CAMP_RUN c) = s.reg (Reg.SYS_CAMP_RUN c))
    (ag : Agent) : t.othersRun ag = s.othersRun ag := by
  have hrun (p : Nat) (hp : p < 192) : t.runBit p = s.runBit p :=
    congrArg (tb · (p % 32)) (h (p / 32) (by omega))
  rw [Bool.eq_iff_iff]
  simp only [State.othersRun, List.any_eq_true, List.mem_range]
  exact exists_congr fun p => and_congr_right fun hp => by rw [hrun p hp]

theorem State.othersRun_servedFor (s : State) (ag : Agent) : (s.servedFor ag).othersRun ag = s.othersRun ag :=
  State.othersRun_congr (fun c hc => s.reg_servedFor ag (by simp only [Reg.SYS_CAMP_RUN, Reg.SEC_STATUS]; omega)) ag

theorem State.othersRun_setFld_loadCtrl (s : State) (ag : Agent) (lo len x : Nat) :
    (s.setFld Reg.UCS_LOAD_CTRL lo len x).othersRun ag = s.othersRun ag :=
  State.othersRun_congr (fun c hc => (s.reg_setFld ..).trans
    (if_neg (by simp only [Reg.SYS_CAMP_RUN, Reg.UCS_LOAD_CTRL]; omega))) ag

/-- A write of START while no load runs stores the region and then refuses the load or begins it (R93, R94). -/
theorem State.ucsCtrlWrite_of_start {s : State} {v : W32} (hload : s.ucs.load = none) (hstart : v.getLsbD 0 = true)
    (ag : Agent) (now : Bool) : s.ucsCtrlWrite ag v now =
      let region := getF v 1 2
      let t := s.setFld Reg.UCS_LOAD_CTRL 1 2 region
      if s.othersRun ag = true ∨ now = true then t.ucsResult region 3 0xFFFF
      else if region = 0 ∨ region = 3 then t.ucsResult region 4 0xFFFF
      else t.ucsBegin region := by
  unfold State.ucsCtrlWrite
  rw [if_neg (by simp [hload]), if_neg (by simp [tb, hstart])]
  dsimp only
  rw [State.othersRun_setFld_loadCtrl]
  rfl

/-- UCS_LOAD_START by an agent that may reach the register, with no load running (R93, R94). -/
theorem exec_ucsLoadStart {ag : Agent} {v : W32} {s : State} (hmay : s.mayReg ag Reg.UCS_LOAD_CTRL = true)
    (hload : s.ucs.load = none) (hstart : v.getLsbD 0 = true) (now : Bool) : exec (.ucsLoadStart ag v now) s =
      let region := getF v 1 2
      let t := (s.servedFor ag).setFld Reg.UCS_LOAD_CTRL 1 2 region
      done (if s.othersRun ag = true ∨ now = true then t.ucsResult region 3 0xFFFF
        else if region = 0 ∨ region = 3 then t.ucsResult region 4 0xFFFF
        else t.ucsBegin region) := by
  change execUcsLoadStart ag v now s = _
  rw [execUcsLoadStart, if_pos hmay, State.ucsCtrlWrite_of_start (by simpa using hload) hstart, State.othersRun_servedFor]

section
variable (s : State) (region : Nat)

theorem State.ucsBegin_load :
    (s.ucsBegin region).ucs.load = some (region, (s.ucsBegin region).reg64 Reg.UCS_LOAD_ADDR_LO) := by
  by_cases h : region = 1 <;> simp only [State.ucsBegin, h, if_true, if_false, State.setUcs_ucs, State.reg64, State.reg_setUcs]

/-- A vendor patch being loaded leaves no valid trap; the custom entries stand (R93). -/
theorem State.ucsBegin_patch : (s.ucsBegin 1).ucs.traps = [] ∧ (s.ucsBegin 1).ucs.entries = s.ucs.entries := ⟨rfl, rfl⟩

/-- A customer image being loaded leaves no valid custom entry; the traps stand (R93). -/
theorem State.ucsBegin_cust : (s.ucsBegin 2).ucs.entries = [] ∧ (s.ucsBegin 2).ucs.traps = s.ucs.traps := ⟨rfl, rfl⟩

theorem State.ucsBegin_frame : ∃ regs ucs, s.ucsBegin region = { s with regs := regs, ucs := ucs } := by
  unfold State.ucsBegin
  exact ⟨_, _, rfl⟩

theorem State.reg_ucsBegin (o : Nat) : (s.ucsBegin region).reg o =
    if o = Reg.UCS_LOAD_STATUS then BitVec.ofNat 32 (0xFFFF0010 + region)
    else if o = Reg.UCS_LOAD_CTRL then s.reg Reg.UCS_LOAD_CTRL ||| bit 0
    else s.reg o := by
  simp only [State.ucsBegin, State.reg_setUcs, State.reg_setReg, State.reg_orReg]

end

/-- START reads 1 and REGION the region, whatever the register held before. -/
theorem loadCtrl_begun {region : Nat} (hregion : region < 4) (old : W32) :
    (setF old 1 2 region ||| bit 0).getLsbD 0 = true ∧ getF (setF old 1 2 region ||| bit 0) 1 2 = region := by
  have hstart : getF (bit 0) 1 2 = 0 := by decide
  refine ⟨by simp [bit], ?_⟩
  rw [getF_or, getF_setF old hregion (by decide), hstart, Nat.or_zero]

/-- What a load that begins leaves (R93). -/
theorem settle_begun (s : State) {region : Nat} (hregion : region < 4) :
    let t := ((s.setFld Reg.UCS_LOAD_CTRL 1 2 region).ucsBegin region).settle
    t.ucs.load = some (region, t.reg64 Reg.UCS_LOAD_ADDR_LO) ∧
      (t.reg Reg.UCS_LOAD_CTRL).getLsbD 0 = true ∧ getF (t.reg Reg.UCS_LOAD_CTRL) 1 2 = region ∧
      t.reg Reg.UCS_LOAD_STATUS = BitVec.ofNat 32 (0xFFFF0010 + region) ∧
      (region = 1 → t.ucs.traps = [] ∧ t.ucs.entries = s.ucs.entries) ∧
      (region = 2 → t.ucs.entries = [] ∧ t.ucs.traps = s.ucs.traps) ∧
      t = { s with regs := t.regs, ucs := t.ucs, evSeen := t.evSeen } ∧
      RegsBut s t [Reg.UCS_LOAD_CTRL, Reg.UCS_LOAD_STATUS] := by
  have hreg (o : Nat) := (s.setFld Reg.UCS_LOAD_CTRL 1 2 region).reg_ucsBegin region o
  have hctrl := hreg Reg.UCS_LOAD_CTRL
  rw [if_neg (by decide), if_pos rfl, State.reg_setFld, if_pos rfl] at hctrl
  obtain ⟨hstart, hfield⟩ := loadCtrl_begun hregion (s.reg Reg.UCS_LOAD_CTRL)
  obtain ⟨regs, ucs, hframe⟩ := (s.setFld Reg.UCS_LOAD_CTRL 1 2 region).ucsBegin_frame region
  refine ⟨(s.setFld Reg.UCS_LOAD_CTRL 1 2 region).ucsBegin_load region, by rw [State.reg_settle, hctrl, hstart],
    by rw [State.reg_settle, hctrl, hfield], (hreg Reg.UCS_LOAD_STATUS).trans (if_pos rfl), ?_, ?_, by rw [hframe]; rfl,
    fun o ho => ?_⟩
  · rintro rfl
    exact State.ucsBegin_patch _
  · rintro rfl
    exact State.ucsBegin_cust _
  · simp only [List.mem_cons, List.not_mem_nil, or_false, not_or] at ho
    obtain ⟨hoctrl, hostatus⟩ := ho
    rw [State.reg_settle, hreg, if_neg hostatus, if_neg hoctrl, State.reg_setFld, if_neg hoctrl]

/-- The address of the image is the one that stood in UCS_LOAD_ADDR before the start. -/
theorem reg64_begun (s : State) (ag : Agent) (region : Nat) :
    (((s.servedFor ag).setFld Reg.UCS_LOAD_CTRL 1 2 region).ucsBegin region).settle.reg64 Reg.UCS_LOAD_ADDR_LO =
      s.reg64 Reg.UCS_LOAD_ADDR_LO := by
  have hreg {o : Nat} (hctrl : o ≠ Reg.UCS_LOAD_CTRL) (hstatus : o ≠ Reg.UCS_LOAD_STATUS) (hsec : o ≠ Reg.SEC_STATUS) :
      (((s.servedFor ag).setFld Reg.UCS_LOAD_CTRL 1 2 region).ucsBegin region).settle.reg o = s.reg o := by
    rw [State.reg_settle, State.reg_ucsBegin, if_neg hstatus, if_neg hctrl, State.reg_setFld, if_neg hctrl,
      State.reg_servedFor s ag hsec]
  rw [State.reg64, hreg (by decide) (by decide) (by decide), hreg (by decide) (by decide) (by decide), State.reg64]

/-- UCS_LOAD_START refused with `code` (R93). -/
theorem settle_refused (s : State) {region code : Nat} (hregion : region < 4) (hcode : code < 16) :
    let t := ((s.setFld Reg.UCS_LOAD_CTRL 1 2 region).ucsResult region code 0xFFFF).settle
    getF (t.reg Reg.UCS_LOAD_STATUS) 4 4 = code ∧ OnlyRegs s t [Reg.UCS_LOAD_CTRL, Reg.UCS_LOAD_STATUS, Reg.UCS_STATUS] := by
  refine ⟨?_, settle_ucsResult_onlyRegs s region code 0xFFFF⟩
  rw [State.reg_settle, State.reg_ucsResult, if_neg (by decide), if_neg (by decide), if_pos rfl]
  exact getF_loadStatus_result (by omega) hcode 0xFFFF

/-! ### The words of the store (R72, R73, R96) -/

theorem wordTable_cons_zero (l : List W128) (k : Nat) : wordTable (0 :: l) k = wordTable l (k + 1) := if_pos rfl

theorem wordTable_cons_of_ne {w : W128} (hw : w ≠ 0) (l : List W128) (k : Nat) :
    wordTable (w :: l) k = (k, w) :: wordTable l (k + 1) := if_neg hw

theorem smRisingFrom_wordTable (l : List W128) : ∀ k, smRisingFrom k (wordTable l k) = true := by
  induction l with
  | nil => exact fun _ => rfl
  | cons w l ih =>
    intro k
    by_cases hw : w = 0
    · rw [hw, wordTable_cons_zero]
      exact smRisingFrom_mono _ _ _ (Nat.le_succ k) (ih (k + 1))
    · rw [wordTable_cons_of_ne hw]
      simpa [smRisingFrom] using ih (k + 1)

/-- The table of a list of words holds them, whether listed or 0. -/
theorem smGet_wordTable (l : List W128) : ∀ k i, smGet (fun _ => 0) (wordTable l k) (k + i) = l.getD i 0 := by
  induction l with
  | nil => intro k i; rfl
  | cons w l ih =>
    intro k i
    have hbelow : smFind (wordTable l (k + 1)) k = none := smFind_of_lt (Nat.lt_succ_self k) (smRisingFrom_wordTable l (k + 1))
    by_cases hw : w = 0
    · rw [hw, wordTable_cons_zero]
      cases i with
      | zero => simp [smGet, hbelow]
      | succ i => rw [List.getD_cons_succ, ← ih (k + 1) i, Nat.add_assoc, Nat.add_comm 1 i]
    · rw [wordTable_cons_of_ne hw]
      cases i with
      | zero => simp [smGet, smFind]
      | succ i =>
        rw [List.getD_cons_succ, ← ih (k + 1) i, Nat.add_assoc, Nat.add_comm 1 i]
        simp [smGet, smFind]

/-- A word of customer RAM is what the load put there (R72). -/
theorem State.storeWord_cust (s : State) {k : Nat} (hk : k < 1024) :
    s.storeWord (custBase + k) = some (smGet (fun _ => 0) s.ucs.cust k) := by
  have hrom : ¬ custBase + k < 0x2000 := by simp only [custBase]; omega
  have hpatch : ¬ custBase + k < custBase := by omega
  have hcust : custBase + k < custEnd := by simp only [custBase, custEnd]; omega
  rw [State.storeWord, if_neg hrom, if_neg hpatch, if_pos hcust, Nat.add_sub_cancel_left]

/-- A region written anew has no bad half-word in any replica (R73, R93). -/
theorem smFind_repWithout_cust (m : SMap CWord) (camp : Nat) {k : Nat} (hk : k < 1024) (up : Bool) :
    smFind (repWithout m 2) (repKey camp (custBase + k) up) = none := by
  have hin : ¬ (repKey camp (custBase + k) up % 32768 / 2 < custBase ∨
      custEnd ≤ repKey camp (custBase + k) up % 32768 / 2) := by
    have hup : b2n up < 2 := by cases up <;> decide
    simp only [repKey, custBase, custEnd]
    omega
  exact smFind_filter_of_false (q := fun k => decide (k % 32768 / 2 < custBase ∨ custEnd ≤ k % 32768 / 2))
    (decide_eq_false hin) m

/-- A replica with no bad copy of a word delivers it as stored (R96). -/
theorem State.repWord_good {s : State} {camp a : Nat} (h : ∀ up, smFind s.ucs.rep (repKey camp a up) = none) :
    s.repWord camp a = (s.storeWord a).getD 0 := by
  have hgood : diagnose (0 : W16) = .good := by decide
  have hhalf (up : Bool) : correctedData (s.repHalf camp a up) = halfOf ((s.storeWord a).getD 0) up := by
    simp only [State.repHalf, h up, Option.getD_none, correctedData, hgood]
  rw [State.repWord, hhalf, hhalf]
  exact halfOf_append _

/-! ### A customer image that takes effect (R91, R93) -/

/-- The custom-entry table that an image gives: its valid entries. -/
def custEntries (img : List W8) : SMap (Nat × Bool) :=
  (List.range 16).filterMap fun k =>
    if tb (ucsEntry img k) 15 then some (k, getF (ucsEntry img k) 0 10, tb (ucsEntry img k) 14) else none

section
variable (s : State) (img : List W8) (words : List W128)

theorem State.ucsInstall_cust_ucs : (s.ucsInstall 2 img words).ucs = { s.ucs with
    cust := wordTable words 0, entries := custEntries img, rep := repWithout s.ucs.rep 2, load := none } := rfl

theorem State.reg_custHash_ucsInstall : (s.ucsInstall 2 img words).reg Reg.UCS_CUST_HASH =
    BitVec.ofNat 32 (leAt (sha384 (img.take (364 + 16 * leAt img 8 2))) 0 4) := by
  rw [State.ucsInstall, if_neg (by decide)]
  generalize sha384 (img.take (364 + 16 * leAt img 8 2)) = hash
  exact (State.reg_setReg _ _ _ _).trans (if_pos rfl)

end

/-- A customer load whose image passes every check installs it (R91 to R93, R459). -/
theorem State.ucsEnd_cust {s s1 s2 : State} {a gen : Nat} {h img : List W8} (hload : s.ucs.load = some (2, a))
    (hhead : s.memRead a 336 = (h, false, s1)) (hheadOk : ucsHeadOk 2 h = true)
    (himg : s1.memRead a (748 + 16 * leAt h 8 2 + 16224) = (img, false, s2)) (htail : ucsTailOk 2 img (leAt h 8 2) = true)
    (hkey : s2.ucsKeyOk 2 = true) (hword : ucsBadWord 2 img (leAt h 8 2) = none)
    (hentry : ucsBadEntry 2 img (leAt h 8 2) = none) : s.ucsEnd ⟨true, true⟩ gen =
      (s2.ucsInstall 2 img (ucsStored img (leAt h 8 2))).ucsResult 2 2 0xFFFF := by
  simp only [State.ucsEnd, hload, hhead, hheadOk, himg, htail, hkey, hword, hentry]
  simp

/-- What a customer image leaves that takes effect (R72, R73, R91, R93). -/
theorem settle_custInstalled (s : State) (img : List W8) (n : Nat) :
    let t := ((s.ucsInstall 2 img (ucsStored img n)).ucsResult 2 2 0xFFFF).settle
    t.ucs.load = none ∧
      getF (t.reg Reg.UCS_LOAD_STATUS) 4 4 = 2 ∧ (t.reg Reg.UCS_LOAD_CTRL).getLsbD 0 = false ∧
      (t.reg Reg.UCS_STATUS).getLsbD 0 = true ∧
      t.reg Reg.UCS_CUST_HASH = BitVec.ofNat 32 (leAt (sha384 (img.take (364 + 16 * leAt img 8 2))) 0 4) ∧
      (∀ k c, k < 1024 → c < 6 → t.storeWord (custBase + k) = some (if k < n then ucsWord img k else 0) ∧
        t.repWord c (custBase + k) = if k < n then ucsWord img k else 0) ∧
      t.ucs.entries = custEntries img ∧ t.ucs.traps = s.ucs.traps ∧ t.ucs.patch = s.ucs.patch := by
  have hucs : ((s.ucsInstall 2 img (ucsStored img n)).ucsResult 2 2 0xFFFF).settle.ucs =
      { s.ucs with
        cust := wordTable (ucsStored img n) 0, entries := custEntries img, rep := repWithout s.ucs.rep 2, load := none } := by
    rw [State.settle_ucs, State.ucsResult_ucs, State.ucsInstall_cust_ucs]
  generalize ht : ((s.ucsInstall 2 img (ucsStored img n)).ucsResult 2 2 0xFFFF).settle = t at hucs
  have hreg (o : Nat) : t.reg o = ((s.ucsInstall 2 img (ucsStored img n)).ucsResult 2 2 0xFFFF).reg o := by
    rw [← ht, State.reg_settle]
  have hword (k : Nat) : smGet (fun _ => 0) t.ucs.cust k = if k < n then ucsWord img k else 0 := by
    have htable := smGet_wordTable (ucsStored img n) 0 k
    rw [Nat.zero_add] at htable
    rw [hucs, htable]
    by_cases hk : k < n <;> simp [ucsStored, hk]
  refine ⟨by rw [hucs], ?_, ?_, ?_, ?_, fun k c hk _ => ?_, by rw [hucs], by rw [hucs], by rw [hucs]⟩
  · rw [hreg, State.reg_ucsResult, if_neg (by decide), if_neg (by decide), if_pos rfl]
    exact getF_loadStatus_result (by decide) (by decide) 0xFFFF
  · rw [hreg, State.reg_ucsResult, if_pos rfl]
    simp [bit]
  · rw [hreg, State.reg_ucsResult, if_neg (by decide), if_pos rfl]
    simp [bit]
  · rw [hreg, State.reg_ucsResult, if_neg (by decide), if_neg (by decide), if_neg (by decide), State.reg_custHash_ucsInstall]
  · have hstored : t.storeWord (custBase + k) = some (if k < n then ucsWord img k else 0) := by
      rw [t.storeWord_cust hk, hword]
    have hgood (up : Bool) : smFind t.ucs.rep (repKey c (custBase + k) up) = none := by
      rw [hucs]
      exact smFind_repWithout_cust s.ucs.rep c hk up
    exact ⟨hstored, by rw [State.repWord_good hgood, hstored, Option.getD_some]⟩

/-- A read of memory leaves the control store (R385 to R400). -/
theorem State.MemOnly.ucs {s t : State} (h : s.MemOnly t) : t.ucs = s.ucs := by
  obtain ⟨regs, mem, fresh, rfl⟩ := h
  rfl

/-- Settles O25: a start is refused or is `State.ucsBegin`, and an image that passes every check is installed. -/
theorem controlStoreLoadsStartAndEnd : Obligations.ControlStoreLoadsStartAndEnd := by
  refine ⟨fun ag v s hmay hload hstart => ?_, fun gen a s hload => ?_⟩
  · have hexec := exec_ucsLoadStart hmay hload hstart
    dsimp only at hexec
    have hregion : getF v 1 2 < 4 := Nat.mod_lt _ (by decide)
    refine ⟨fun hothers hgood => ?_, fun now hbusy => ?_, fun hothers hbad => ?_⟩
    · have hbegins := hexec false
      rw [if_neg (by simp [hothers]), if_neg (by omega)] at hbegins
      obtain ⟨hrunning, hleft⟩ := settle_begun (s.servedFor ag) hregion
      rw [reg64_begun] at hrunning
      rw [State.servedFor_ucs] at hleft
      exact ⟨_, hbegins, hrunning, hleft⟩
    · have hrefused := hexec now
      rw [if_pos hbusy] at hrefused
      exact ⟨_, hrefused, settle_refused (s.servedFor ag) hregion (by decide)⟩
    · have hrefused := hexec false
      rw [if_neg (by simp [hothers]), if_pos hbad] at hrefused
      exact ⟨_, hrefused, settle_refused (s.servedFor ag) hregion (by decide)⟩
  · intro r1 n r2 img hread1 hhead hread2 htail hkey hword hentry
    have hend : s.ucsEnd ⟨true, true⟩ gen.toNat = (r2.2.2.ucsInstall 2 img (ucsStored img n)).ucsResult 2 2 0xFFFF :=
      State.ucsEnd_cust hload (Prod.ext rfl (Prod.ext hread1 rfl)) hhead (Prod.ext rfl (Prod.ext hread2 rfl)) htail hkey hword
        hentry
    have hucs : r2.2.2.ucs = s.ucs := ((State.MemOnly.refl s).memRead a 336 |>.memRead a (748 + 16 * n + 16224)).ucs
    have hleft := settle_custInstalled r2.2.2 img n
    rw [hucs] at hleft
    exact ⟨_, congrArg done hend, hleft⟩

end Sys2Proof.Machine
end

section
namespace Sys2Proof.Machine

/-! ### The registers that a read of memory may change (R385 to R400) -/

/-- The registers of the error logs and of the shared cache that a read of memory may change. -/
def memRegs : List Nat :=
  [Reg.MEM_STATUS, Reg.CCH_STATUS, Reg.CCH_CNT 0, Reg.CCH_CNT 1, Reg.CCH_CNT 2, Reg.CCH_CNT 3]

/-- The registers of the media channels and of the thermal unit lie beyond those. -/
theorem not_mem_memRegs {o : Nat} (h : 0x080000 ≤ o) : o ∉ memRegs := by
  simp only [memRegs, Reg.MEM_STATUS, Reg.CCH_STATUS, Reg.CCH_CNT, List.mem_cons, List.not_mem_nil, or_false]
  omega

/-- No register differs but those that a read of memory may change. -/
structure State.MemRegs (s t : State) : Prop where
  regsBut : RegsBut s t memRegs

namespace State.MemRegs

theorem refl (s : State) : s.MemRegs s := ⟨fun _ _ => rfl⟩

variable {s t : State} (h : s.MemRegs t)
include h

theorem mem (mem : Mem) (fresh : Nat) : s.MemRegs { t with mem := mem, fresh := fresh } :=
  ⟨h.regsBut⟩

theorem setReg {o : Nat} (ho : o ∈ memRegs) (v : W32) : s.MemRegs (t.setReg o v) :=
  ⟨fun i hi => (t.reg_setReg o i v).trans ((if_neg fun hio : i = o => hi (hio ▸ ho)).trans (h.regsBut i hi))⟩

theorem count (k : Fin 4) (lo len n : Nat) : s.MemRegs (t.incFld (Reg.CCH_CNT k) lo len n) :=
  h.setReg ((by decide : ∀ k : Fin 4, Reg.CCH_CNT k ∈ memRegs) k) _

theorem ite {u : State} (h' : s.MemRegs u) (c : Prop) [Decidable c] : s.MemRegs (if c then t else u) := by
  split
  · exact h
  · exact h'

theorem foldl {α : Type} {f : State → α → State} (hf : ∀ u a, s.MemRegs u → s.MemRegs (f u a)) (l : List α) :
    s.MemRegs (l.foldl f t) := by
  induction l generalizing t with
  | nil => exact h
  | cons a l ih => exact ih (hf _ a h)

theorem logErr (id addr : Nat) (ue sweep repaired : Bool) (bitNo : Nat) :
    s.MemRegs (t.logErr id addr ue sweep repaired bitNo) := by
  unfold State.logErr
  dsimp only
  split <;> exact State.MemRegs.setReg (h.mem _ _) List.mem_cons_self _

theorem logDiag (id addr : Nat) (sweep : Bool) (d : Diag) : s.MemRegs (t.logDiag id addr sweep d) := by
  cases d with
  | good => exact h
  | poisoned => exact h
  | corrected b => exact h.logErr ..
  | multiple => exact h.logErr ..

theorem writeWords (l : SMap CWord) : s.MemRegs (t.writeWords l) := h.foldl (fun _ _ hu => hu.mem _ _) l

theorem setCws (l : SMap CWord) : s.MemRegs (l.foldl (fun s x => s.setCw x.1 x.2) t) := h.foldl (fun _ _ hu => hu.mem _ _) l

theorem drainOne : s.MemRegs t.drainOne := by
  unfold State.drainOne
  split
  · exact h
  · exact (h.mem _ _).writeWords _

theorem stall : s.MemRegs t.stall := (h.mem t.mem _).count 3 ..

theorem toWb (l : Nat) : s.MemRegs (t.toWb l) := (h.stall.drainOne.ite h (4 ≤ t.mem.wb.length)).mem _ _

theorem toVictim (l : Nat) (dirty : Bool) : s.MemRegs (t.toVictim l dirty) := by
  unfold State.toVictim
  refine mem ?_ _ _
  split
  · split
    · exact ((h.mem _ _).toWb _).ite (h.mem _ _) _
    · exact h
  · exact h

theorem place (l : Nat) (dirty : Bool) : s.MemRegs (t.place l dirty) := by
  unfold State.place
  dsimp only
  split
  · exact h.mem _ _
  · refine mem ?_ _ _
    split
    · exact (h.mem _ _).toVictim _ _
    · exact h.mem _ _

theorem fillWords (l : Nat) : s.MemRegs (t.fillWords l) := by
  refine h.foldl (fun u i hu => ?_) _
  dsimp only
  split
  · exact hu
  · exact (hu.logDiag ..).mem _ _

theorem fill (l : Nat) : s.MemRegs (t.fill l) := by
  unfold State.fill
  split
  · exact ((h.mem _ _).place _ _).count 2 ..
  · split
    · exact ((h.place _ _).setCws _).count 2 ..
    · exact ((h.place _ _).fillWords _).count 1 ..

theorem markDirty (l : Nat) : s.MemRegs (t.markDirty l) := by
  unfold State.markDirty
  split
  · exact h.mem _ _
  · exact h

theorem markClean (l : Nat) : s.MemRegs (t.markClean l) := by
  unfold State.markClean
  split
  · exact h.mem _ _
  · exact h

theorem cleanLine (l : Nat) : s.MemRegs (t.cleanLine l) := ((h.mem _ _).foldl (fun _ _ hu => hu.writeWords _) _).writeWords _

theorem zeroWords (l : Nat) : s.MemRegs (t.zeroWords l) := (h.foldl (fun _ _ hu => hu.mem _ _) _).markDirty l

theorem maintain (op : Maint) (l : Nat) : s.MemRegs (t.maintain op l) := by
  have hclean (c : Prop) [Decidable c] : s.MemRegs (if c then t.cleanLine l else t) := (h.cleanLine l).ite h c
  unfold State.maintain
  split
  · cases op with
    | clean => exact ((h.cleanLine l).markClean l).ite h _
    | flush => exact (hclean _).mem _ _
    | inval => exact h.mem _ _
    | zero => exact h.zeroWords l
  · split
    · cases op with
      | clean => exact ((h.cleanLine l).mem _ _).ite h _
      | flush => exact (hclean _).mem _ _
      | inval => exact h.mem _ _
      | zero => exact (h.fill l).zeroWords l
    · cases op with
      | clean => exact h
      | flush => exact h
      | inval => exact h
      | zero => exact (h.place l true).zeroWords l

theorem fillDone (bank : Nat) : s.MemRegs (t.fillDone bank) := by
  unfold State.fillDone
  split
  · exact h
  · exact ((h.mem _ _).ite ((h.mem _ _).fill _) _).foldl (fun _ _ hu => hu.maintain _ _) _

theorem touch (l : Nat) : s.MemRegs (t.touch l) := by
  have hhit : s.MemRegs (t.incFld (Reg.CCH_CNT 0) 0 32) := h.count 0 ..
  unfold State.touch
  split
  · exact (h.fillDone _).ite (hhit.ite ((h.stall.fillDone _).fill l) _) _
  · exact hhit.ite (h.fill l) _

theorem refetch (l : Nat) : s.MemRegs (t.refetch l) := by
  unfold State.refetch
  split
  · exact setCws (h.mem _ _) _
  · exact fillWords (h.mem _ _) l

theorem cachedWord (w : Nat) : s.MemRegs (t.cachedWord w).2.2 := by
  unfold State.cachedWord
  split
  · exact h
  · split
    · exact h
    · exact h.logErr ..
    · exact h
    · split
      · exact h.logErr ..
      · exact refetch ((h.logErr ..).setReg (by simp [memRegs]) _) _

theorem readDramWord (w : Nat) : s.MemRegs (t.readDramWord w).2.2 := by
  unfold State.readDramWord
  split
  · exact (h.touch _).cachedWord w
  · exact h

theorem readSramWord (w : Nat) : s.MemRegs (t.readSramWord w).2.2 := by
  unfold State.readSramWord
  dsimp only
  split
  · exact h
  · exact h.logDiag ..

theorem readWords {rd : State → Nat → W64 × Bool × State} (hrd : ∀ u w, s.MemRegs u → s.MemRegs (rd u w).2.2) (n a : Nat) :
    s.MemRegs (readWords rd t a n).2.2 := by
  induction n generalizing t a with
  | zero => exact h
  | succ n ih => exact ih (hrd _ _ h) _

theorem readSpan {rd : State → Nat → W64 × Bool × State} (hrd : ∀ u w, s.MemRegs u → s.MemRegs (rd u w).2.2) (a n : Nat) :
    s.MemRegs (readSpan rd t a n).2.2 := by
  unfold Machine.readSpan
  split
  · exact h
  · exact h.readWords hrd _ _

theorem memRead (a n : Nat) : s.MemRegs (t.memRead a n).2.2 := by
  unfold State.memRead
  split
  · exact h.readSpan (fun _ w hu => hu.readDramWord w) _ _
  · exact h.readSpan (fun _ w hu => hu.readSramWord w) _ _
  · exact h

end State.MemRegs

end Sys2Proof.Machine
end

section
namespace Sys2Proof.Machine

/-! ### The state of a media channel after an update -/

section
variable (s : State) (m n : Nat)

@[simp] theorem State.med_setReg (o : Nat) (v : W32) : (s.setReg o v).med n = s.med n := rfl
@[simp] theorem State.med_orReg (o : Nat) (v : W32) : (s.orReg o v).med n = s.med n := rfl
@[simp] theorem State.med_clrReg (o : Nat) (v : W32) : (s.clrReg o v).med n = s.med n := rfl
@[simp] theorem State.med_setFld (o lo len v : Nat) : (s.setFld o lo len v).med n = s.med n := rfl
@[simp] theorem State.med_incFld (o lo len v : Nat) : (s.incFld o lo len v).med n = s.med n := rfl
@[simp] theorem State.med_setPin (k : Nat) (b : Bool) : (s.setPin m k b).med n = s.med n := rfl
@[simp] theorem State.med_latchBand : (s.latchBand m).med n = s.med n := rfl
@[simp] theorem State.med_setAct (o : Nat) (v : W32) : (s.setAct o v).med n = s.med n := rfl
@[simp] theorem State.med_settle : s.settle.med n = s.med n := rfl

@[simp] theorem State.med_setGact (a : Nat) (x : GAct) : (s.setGact a x).med n = s.med n := by
  simp [State.med]

@[simp] theorem State.med_setMed (x : Med) : (s.setMed m x).med m = x := by
  unfold State.med State.setMed
  split <;> rfl

/-- The other channel is not touched. -/
@[simp] theorem State.med_setMed_other (x : Med) : (s.setMed m x).med (1 - m) = s.med (1 - m) := by
  by_cases hm : m = 0
  · simp [State.med, State.setMed, hm]
  · have hother : 1 - m = 0 := by omega
    simp [State.med, State.setMed, hm, hother]

@[simp] theorem State.setMed_med : s.setMed m (s.med m) = s := by
  unfold State.med State.setMed
  split <;> rfl

@[simp] theorem State.sramByte_setMed (x : Med) (i : Nat) : (s.setMed m x).sramByte i = s.sramByte i := by
  simp [State.sramByte]

theorem State.med_rdRun {a : ActRd} (h : (s.med m).rd = some a) (f : ActRd → ActRd) :
    (s.rdRun m f).med m = { s.med m with rd := some (f a) } := by
  simp [State.rdRun, h]

@[simp] theorem State.reg_rdRun (f : ActRd → ActRd) (o : Nat) : (s.rdRun m f).reg o = s.reg o := State.reg_setMed ..

end

/-! ### What a command of a media channel leaves as it is -/

namespace MedOnly

variable {s t u : State} {m : Act} {l l' : List Nat}

theorem refl (s : State) (m : Act) (l : List Nat) : MedOnly s s m l := ⟨rfl, rfl, fun _ _ => rfl⟩

theorem trans (h : MedOnly s t m l) (h' : MedOnly t u m l) : MedOnly s u m l := by
  obtain ⟨heq, hother, hregs⟩ := h
  obtain ⟨heq', hother', hregs'⟩ := h'
  exact ⟨heq'.trans (congrArg (fun v : State => { v with regs := u.regs, med0 := u.med0, med1 := u.med1, evSeen := u.evSeen }) heq),
    hother'.trans hother, fun o ho => (hregs' o ho).trans (hregs o ho)⟩

theorem mono (h : MedOnly s t m l) (hl : l ⊆ l') : MedOnly s t m l' :=
  ⟨h.1, h.2.1, fun o ho => h.2.2 o fun hmem => ho (hl hmem)⟩

theorem setReg (h : MedOnly s t m l) {o : Nat} (ho : o ∈ l) (v : W32) : MedOnly s (t.setReg o v) m l :=
  ⟨congrArg (fun u : State => { u with regs := (t.setReg o v).regs }) h.1, h.2.1, fun i hi =>
    (t.reg_setReg o i v).trans ((if_neg fun hio : i = o => hi (hio ▸ ho)).trans (h.2.2 i hi))⟩

theorem setMed (h : MedOnly s t m l) (x : Med) : MedOnly s (t.setMed m x) m l := by
  obtain ⟨heq, hother, hregs⟩ := h
  refine ⟨?_, (t.med_setMed_other m x).trans hother, fun o ho => (t.reg_setMed m x o).trans (hregs o ho)⟩
  unfold State.setMed
  split
  · exact congrArg (fun u : State => { u with med0 := x }) heq
  · exact congrArg (fun u : State => { u with med1 := x }) heq

theorem rdRun (h : MedOnly s t m l) (f : ActRd → ActRd) : MedOnly s (t.rdRun m f) m l := h.setMed _

theorem settle (h : MedOnly s t m l) : MedOnly s t.settle m l :=
  ⟨congrArg (fun u : State => { u with evSeen := t.settle.evSeen }) h.1, h.2.1, h.2.2⟩

theorem ite (h : MedOnly s t m l) (h' : MedOnly s u m l) (c : Prop) [Decidable c] : MedOnly s (if c then t else u) m l := by
  split
  · exact h
  · exact h'

theorem foldl {α : Type} {f : State → α → State} {L : List α} (h : MedOnly s t m l)
    (hf : ∀ u, ∀ a ∈ L, MedOnly s u m l → MedOnly s (f u a) m l) : MedOnly s (L.foldl f t) m l := by
  induction L generalizing t with
  | nil => exact h
  | cons a L ih =>
    exact ih (hf _ a List.mem_cons_self h) fun u b hb => hf u b (List.mem_cons_of_mem _ hb)

theorem mem (h : MedOnly s t m l) : t.mem = s.mem := by rw [h.1]

theorem thrs (h : MedOnly s t m l) : t.thrs = s.thrs := by rw [h.1]

end MedOnly

end Sys2Proof.Machine
end

section
namespace Sys2Proof.Machine

/-! ### Bytes of a record (R1, R134) -/

theorem ofLe_leBytes_mod (n x : Nat) : ofLe (leBytes n x) = x % 256 ^ n := by
  induction n generalizing x with
  | zero => simp [leBytes, ofLe, Nat.mod_one]
  | succ n ih =>
    rw [leBytes, ofLe, ih, BitVec.toNat_ofNat, pow_succ' 256]
    exact Nat.mod_mul.symm

theorem sliceB_append_right {a : List W8} {o : Nat} (h : a.length ≤ o) (c : List W8) (n : Nat) :
    sliceB (a ++ c) o n = sliceB c (o - a.length) n := by
  simp [sliceB, List.drop_append, List.drop_eq_nil_of_le h]

theorem sliceB_leBytes_append (k x : Nat) {o : Nat} (h : k ≤ o) (c : List W8) (n : Nat) :
    sliceB (leBytes k x ++ c) o n = sliceB c (o - k) n := by
  have hlen := length_leBytes k x
  rw [sliceB_append_right (hlen.trans_le h), hlen]

theorem leAt_leBytes_append (n x : Nat) (c : List W8) : leAt (leBytes n x ++ c) 0 n = x % 256 ^ n := by
  have hmid := sliceB_mid [] (leBytes n x) c
  rw [length_leBytes] at hmid
  rw [leAt, ← ofLe_leBytes_mod]
  exact congrArg ofLe hmid

theorem padTo_of_length {l : List W8} {n : Nat} (h : l.length = n) : padTo n l = l := by
  have hmid := sliceB_mid [] l []
  rw [List.append_nil, h] at hmid
  exact hmid

/-- A result record names its sector, status and tag (R134). -/
theorem State.recordOf_rdRecord (s : State) (m : Nat) (r : RdRun) (x : Sect) {st : Nat} (hst : st < 256) (ent : Nat) (left : Bool)
    (tag : List W8) : RecordOf (s.rdRecord m r x st ent left tag) r.cyl (r.start + x.idx) st x.idx (padTo 32 tag) := by
  have hst : st % 256 ^ 1 = st := Nat.mod_eq_of_lt hst
  have htag : (padTo 32 tag).length = 32 := length_sliceB ..
  refine ⟨by simp [State.rdRecord, length_leBytes, htag], ?_, ?_, ?_, ?_, ?_⟩
  · simp only [State.rdRecord, List.append_assoc, leAt_leBytes_append]
    rfl
  · simp only [State.rdRecord, List.append_assoc, leAt, sliceB_leBytes_append, Nat.reduceLeDiff, Nat.reduceSub]
    exact leAt_leBytes_append ..
  · simp only [State.rdRecord, List.append_assoc, leAt, sliceB_leBytes_append, Nat.reduceLeDiff, Nat.reduceSub]
    exact (leAt_leBytes_append ..).trans hst
  · simp only [State.rdRecord, List.append_assoc, leAt, sliceB_leBytes_append, Nat.reduceLeDiff, Nat.reduceSub]
    exact leAt_leBytes_append ..
  · simp only [State.rdRecord, List.append_assoc, sliceB_leBytes_append, Nat.reduceLeDiff, Nat.reduceSub]
    exact (sliceB_append_right (by decide) ..).trans (padTo_of_length htag)

/-! ### The end of a sector (R124, R133 to R135) -/

section
variable {s : State} {m : Act} {x : Sect} {a : ActRd}

/-- The pin of a sector that ends: it goes unless it stays, and a delayed unpin of the slot is over (R124). -/
def State.sectUnpin (s : State) (m : Nat) (x : Sect) (stays : Bool) : State :=
  let t := if x.pinned ∧ !stays then s.setPin m x.slot false else s
  if x.pinned then t.setMed m { t.med m with unpinLater := (s.med m).unpinLater.filter (· != x.slot) } else t

/-- The counter and the event of the status a sector ends with (R135). -/
def State.statusCount (s : State) (m st : Nat) : State :=
  match st with
  | 0 => s.incFld (Reg.MCA_CNT m 0) 0 32
  | 1 => s.incFld (Reg.MCA_CNT m 1) 0 32
  | 2 => s.incFld (Reg.MCA_CNT m 2) 0 32
  | 0x11 => (s.incFld (Reg.MCA_CNT m 3) 0 32).orReg (Reg.MCA_STATUS m) (bit 3)
  | 0x12 => s.orReg (Reg.MCA_STATUS m) (bit 4)
  | _ => s

/-- The counters of what was found in a sector (R135). -/
def State.findCount (s : State) (m : Nat) (x : Sect) : State :=
  let t := if x.syncBad then s.incFld (Reg.MCA_CNT m 4) 0 32 else s
  if x.ta then t.incFld (Reg.MCA_CNT m 5) 0 32 else t

/-- The pin of a sector stays after its end (R124). -/
def State.pinStays (s : State) (m : Nat) (a : ActRd) (x : Sect) (st ent : Nat) : Bool :=
  x.pinned && !(s.med m).unpinLater.contains x.slot &&
    (a.run.keep || st == 0x12 || st == 0x13 || (decide (ent = 0xFF) && st != 0x14))

/-- The end of a sector in its steps. -/
theorem State.sectEnd_eq (h : (s.med m).rd = some a) (st ent : Nat) (payload : List W8) :
    s.sectEnd m x st ent payload =
      let stays := s.pinStays m a x st ent
      let t := ((s.sectUnpin m x stays).statusCount m st).findCount m x
      t.rdRun m fun a' => { a' with out := a'.out ++ [⟨x.idx, st,
        t.rdRecord m a.run x st ent stays (if statusOk st then sliceB payload 4096 32 else []),
        if statusOk st then some (sliceB payload 0 4096) else none⟩] } := by
  unfold State.sectEnd
  rw [h]
  rfl

theorem status_mem_sectRegs (m : Act) : Reg.MCA_STATUS m ∈ sectRegs m := by simp [sectRegs]

theorem cnt_mem_sectRegs (m : Act) {j : Nat} (hj : j < 7) : Reg.MCA_CNT m j ∈ sectRegs m := by
  simp only [sectRegs, List.mem_append, List.mem_map, List.mem_range]
  exact .inl (.inr ⟨j, hj, rfl⟩)

theorem slotB_mem_sectRegs (m : Act) {k : Nat} (hk : k < 16) : Reg.MCA_RET_SLOT_B m k ∈ sectRegs m := by
  simp only [sectRegs, List.mem_append, List.mem_map, List.mem_range]
  exact .inr ⟨k, hk, rfl⟩

theorem State.sectUnpin_medOnly (s : State) (hslot : x.slot < 16) (stays : Bool) :
    MedOnly s (s.sectUnpin m x stays) m (sectRegs m) := by
  have hpin : MedOnly s (if x.pinned ∧ !stays then s.setPin m x.slot false else s) m (sectRegs m) :=
    ((MedOnly.refl s m _).setReg (slotB_mem_sectRegs m hslot) _).ite (.refl s m _) _
  exact (hpin.setMed _).ite hpin _

theorem State.statusCount_medOnly (s : State) (m : Act) (st : Nat) : MedOnly s (s.statusCount m st) m (sectRegs m) := by
  have hrefl := MedOnly.refl s m (sectRegs m)
  unfold State.statusCount
  split
  · exact hrefl.setReg (cnt_mem_sectRegs m (by decide)) _
  · exact hrefl.setReg (cnt_mem_sectRegs m (by decide)) _
  · exact hrefl.setReg (cnt_mem_sectRegs m (by decide)) _
  · exact (hrefl.setReg (cnt_mem_sectRegs m (by decide)) _).setReg (status_mem_sectRegs m) _
  · exact hrefl.setReg (status_mem_sectRegs m) _
  · exact hrefl

theorem State.findCount_medOnly (s : State) (m : Act) (x : Sect) : MedOnly s (s.findCount m x) m (sectRegs m) := by
  have hsync : MedOnly s (if x.syncBad then s.incFld (Reg.MCA_CNT m 4) 0 32 else s) m (sectRegs m) :=
    ((MedOnly.refl s m _).setReg (cnt_mem_sectRegs m (by decide)) _).ite (.refl s m _) _
  exact (hsync.setReg (cnt_mem_sectRegs m (by decide)) _).ite hsync _

@[simp] theorem State.med_statusCount (s : State) (m st n : Nat) : (s.statusCount m st).med n = s.med n := by
  unfold State.statusCount
  split <;> rfl

@[simp] theorem State.med_findCount (s : State) (m : Nat) (x : Sect) (n : Nat) : (s.findCount m x).med n = s.med n := by
  unfold State.findCount
  simp only [apply_ite (State.med · n), State.med_incFld, ite_self]

@[simp] theorem State.rd_sectUnpin (s : State) (m : Nat) (x : Sect) (stays : Bool) :
    ((s.sectUnpin m x stays).med m).rd = (s.med m).rd := by
  unfold State.sectUnpin
  split <;> split <;> simp

@[simp] theorem State.rdPend_sectUnpin (s : State) (m : Nat) (x : Sect) (stays : Bool) :
    ((s.sectUnpin m x stays).med m).rdPend = (s.med m).rdPend := by
  unfold State.sectUnpin
  split <;> split <;> simp

/-- What the end of a sector leaves: its record in the output buffer, and a pin and counters changed (R124, R133 to R135). -/
theorem State.sectEnd_spec (h : (s.med m).rd = some a) (hslot : x.slot < 16) {st : Nat} (hst : st < 256) (ent : Nat)
    (payload : List W8) : let t := s.sectEnd m x st ent payload
    ∃ rc, RecordOf rc a.run.cyl (a.run.start + x.idx) st x.idx (padTo 32 (if statusOk st then sliceB payload 4096 32 else [])) ∧
      (t.med m).rd =
        some { a with out := a.out ++ [⟨x.idx, st, rc, if statusOk st then some (sliceB payload 0 4096) else none⟩] } ∧
      (t.med m).rdPend = (s.med m).rdPend ∧ MedOnly s t m (sectRegs m) := by
  rw [State.sectEnd_eq h]
  generalize s.pinStays m a x st ent = stays
  dsimp only
  generalize hu : ((s.sectUnpin m x stays).statusCount m st).findCount m x = u
  have hframe : MedOnly s u m (sectRegs m) :=
    hu ▸ ((s.sectUnpin_medOnly hslot stays).trans (State.statusCount_medOnly ..)).trans (State.findCount_medOnly ..)
  have hrd : (u.med m).rd = some a := by rw [← hu, State.med_findCount, State.med_statusCount, State.rd_sectUnpin, h]
  have hpend : (u.med m).rdPend = (s.med m).rdPend := by
    rw [← hu, State.med_findCount, State.med_statusCount, State.rdPend_sectUnpin]
  have hrun := u.med_rdRun m hrd
  exact ⟨_, u.recordOf_rdRecord m a.run x hst ent stays _, by rw [hrun], by rw [hrun, hpend], hframe.rdRun _⟩

/-- A sector that ends without success leaves no data and no tag (R134). -/
theorem State.sectEnd_failed (h : (s.med m).rd = some a) (hslot : x.slot < 16) {st : Nat} (hst : st < 256)
    (hbad : statusOk st = false) (ent : Nat) (payload : List W8) : let t := s.sectEnd m x st ent payload
    ∃ rc, RecordOf rc a.run.cyl (a.run.start + x.idx) st x.idx (List.replicate 32 0) ∧
      (t.med m).rd = some { a with out := a.out ++ [⟨x.idx, st, rc, none⟩] } ∧
      (t.med m).rdPend = (s.med m).rdPend ∧ MedOnly s t m (sectRegs m) := by
  have hspec := State.sectEnd_spec h hslot hst ent payload
  rw [hbad] at hspec
  exact hspec

/-- A sector that ends with success leaves its data and its tag (R134). -/
theorem State.sectEnd_good (h : (s.med m).rd = some a) (hslot : x.slot < 16) {st : Nat} (hok : st ≤ 2) (ent : Nat)
    (payload : List W8) : let t := s.sectEnd m x st ent payload
    ∃ rc, RecordOf rc a.run.cyl (a.run.start + x.idx) st x.idx (sliceB payload 4096 32) ∧
      (t.med m).rd = some { a with out := a.out ++ [⟨x.idx, st, rc, some (sliceB payload 0 4096)⟩] } ∧
      (t.med m).rdPend = (s.med m).rdPend ∧ MedOnly s t m (sectRegs m) := by
  have hspec := State.sectEnd_spec h hslot (by omega : st < 256) ent payload
  simp only [statusOk, hok, decide_true, if_true, padTo_of_length (length_sliceB payload 4096 32)] at hspec
  exact hspec

/-- A whole register that counts (R23). -/
theorem State.reg_incFld_whole (s : State) (o : Nat) : (s.incFld o 0 32).reg o = BitVec.ofNat 32 (satAdd (s.reg o).toNat 1 32) := by
  have hfld : s.fld o 0 32 = (s.reg o).toNat := by
    simpa [State.fld, getF, natF] using Nat.mod_eq_of_lt (s.reg o).isLt
  have hsat : satAdd (s.reg o).toNat 1 32 % 2 ^ 32 = satAdd (s.reg o).toNat 1 32 := by
    unfold satAdd
    omega
  have hmask : ~~~ maskF 0 32 = 0 := by decide
  rw [State.incFld, State.reg_setFld, if_pos rfl, hfld, setF, hmask, hsat]
  simp

/-- A success counts in the counter of its status (R135). -/
theorem State.reg_cnt_sectEnd (h : (s.med m).rd = some a) (hslot : x.slot < 16) {st : Nat} (hok : st ≤ 2) (ent : Nat) (payload : List W8) :
    (s.sectEnd m x st ent payload).reg (Reg.MCA_CNT m st) =
      BitVec.ofNat 32 (satAdd (s.reg (Reg.MCA_CNT m st)).toNat 1 32) := by
  have hfind (t : State) : (t.findCount m x).reg (Reg.MCA_CNT m st) = t.reg (Reg.MCA_CNT m st) := by
    have h4 : Reg.MCA_CNT m st ≠ Reg.MCA_CNT m 4 := by simp only [Reg.MCA_CNT]; omega
    have h5 : Reg.MCA_CNT m st ≠ Reg.MCA_CNT m 5 := by simp only [Reg.MCA_CNT]; omega
    simp only [State.findCount, State.incFld, apply_ite (State.reg · (Reg.MCA_CNT m st)), State.reg_setFld, if_neg h4, if_neg h5,
      ite_self]
  have hpin (stays : Bool) : (s.sectUnpin m x stays).reg (Reg.MCA_CNT m st) = s.reg (Reg.MCA_CNT m st) := by
    have hne : Reg.MCA_CNT m st ≠ Reg.MCA_RET_SLOT_B m x.slot := by simp only [Reg.MCA_CNT, Reg.MCA_RET_SLOT_B]; omega
    unfold State.sectUnpin State.setPin
    split <;> split <;> simp [State.reg_setFld, hne]
  have hcount (t : State) : (t.statusCount m st).reg (Reg.MCA_CNT m st) =
      BitVec.ofNat 32 (satAdd (t.reg (Reg.MCA_CNT m st)).toNat 1 32) := by
    interval_cases st <;> exact t.reg_incFld_whole _
  rw [State.sectEnd_eq h, State.reg_rdRun, hfind, hcount, hpin]

end

end Sys2Proof.Machine
end

section
namespace Sys2Proof.Machine

/-! ### The zone entry (R102 to R105) -/

section
variable {s : State} {m : Act}

/-- A frame of the channel joins those that wait, unless its address is 0 (R162, R530). -/
theorem State.psiAuto_eq (s : State) (m addr data : Nat) (heat : Bool) : s.psiAuto m addr data heat =
    s.setMed m { s.med m with psi := (s.med m).psi ++ psiFrames [(addr, data, heat)] } := by
  by_cases haddr : addr = 0
  · have hnone : psiFrames [(addr, data, heat)] = [] := by simp [psiFrames, haddr]
    rw [hnone, List.append_nil, State.psiAuto, if_pos haddr]
    exact (s.setMed_med m).symm
  · simp [State.psiAuto, psiFrames, haddr]

theorem State.gact_setGact (s : State) (a : Nat) (x : GAct) : (s.setGact a x).gact a = x := by
  unfold State.gact State.setGact
  split <;> rfl

theorem State.gact_setGact_other (s : State) (a : Nat) (x : GAct) : (s.setGact a x).gact (1 - a) = s.gact (1 - a) := by
  by_cases ha : a = 0
  · simp [State.gact, State.setGact, ha]
  · have hother : 1 - a = 0 := by omega
    simp [State.gact, State.setGact, ha, hother]

@[simp] theorem State.gact_setMed (s : State) (n : Nat) (x : Med) (a : Nat) : (s.setMed n x).gact a = s.gact a := by
  simp [State.gact]

/-- The registers that a commit writes are different ones, and none of them is a reader mask. -/
theorem zone_regs_ne (m : Nat) : Reg.MCA_ZONE_STAT m ≠ Reg.MCA_WR_BAND m ∧ ∀ j < 3,
    Reg.MCA_RDR_MASK m j ≠ Reg.MCA_WR_BAND m ∧ Reg.MCA_RDR_MASK m j ≠ Reg.MCA_ZONE_STAT m := by
  simp only [Reg.MCA_ZONE_STAT, Reg.MCA_WR_BAND, Reg.MCA_RDR_MASK]
  exact ⟨by omega, fun j hj => by omega⟩

/-- The front ends of a head depend on its mask alone (R108). -/
theorem State.headReaders_congr {t : State} {h : Nat} (hreg : h ≤ 23 → t.reg (Reg.MCA_RDR_MASK m (h / 8)) =
    s.reg (Reg.MCA_RDR_MASK m (h / 8))) : t.headReaders m h = s.headReaders m h := by
  unfold State.headReaders State.fld
  split
  · rfl
  · rw [hreg (by omega)]

/-- The commit of a zone selection once its entry is read (R104, R105, R161). -/
def State.zoneTake (s : State) (m : Nat) (v : W32) (entry : List W8) (bad : Bool) : State :=
  let t := (s.setAct (Reg.MCA_ZONE_SEL m) v).latchBand m
  let t := if getF v 8 5 = t.zHead m then t else t.headChange m
  let t := t.setReg (Reg.MCA_ZONE_STAT m) (bit 30 ||| BitVec.ofNat 32 (getF v 8 5 * 256 + getF v 0 6))
  t.setMed m { t.med m with
    zonePend := false, zone := [], zoneNew := entry, zoneBad := bad, fe := (t.med m).fe &&& t.headReaders m (getF v 8 5) }

theorem State.zoneCommit_eq (hpend : (s.med m).zonePend = true) (hidle : (s.med m).idle = true) :
    let v := s.reg (Reg.MCA_ZONE_SEL m)
    let r := s.memRead (s.reg64 (Reg.MCA_ZTAB_LO m) / 512 * 512 + (getF v 8 5 * 64 + getF v 0 6) * 512) 512
    s.zoneCommit m = r.2.2.zoneTake m v r.1 r.2.1 := by
  have hgo : ¬ ((!(s.med m).zonePend || !(s.med m).idle) = true) := by simp [hpend, hidle]
  exact if_neg hgo

/-- What the commit of a zone selection leaves (R104, R105, R161, R187). -/
theorem State.zoneTake_spec (s : State) (m : Act) (v : W32) (entry : List W8) (bad : Bool) :
    let t := s.zoneTake m v entry bad
    let h := getF v 8 5
    t.med m = { s.med m with
        zonePend := false, zone := [], zoneNew := entry, zoneBad := bad, fe := (s.med m).fe &&& s.headReaders m h } ∧
      t.reg (Reg.MCA_ZONE_STAT m) = 0x40000000 ||| BitVec.ofNat 32 (h * 256 + getF v 0 6) ∧
      t.act (Reg.MCA_ZONE_SEL m) = v ∧ t.reg (Reg.MCA_WR_BAND m) = BitVec.ofNat 32 s.packBand ∧
      (h ≠ s.zHead m → (t.gact m).resolve = true ∧ (t.gact m).hold = true) ∧
      (h = s.zHead m → t.gact0 = s.gact0 ∧ t.gact1 = s.gact1) ∧
      t.med (1 - m.val) = s.med (1 - m.val) ∧ t.gact (1 - m.val) = s.gact (1 - m.val) ∧ t.mem = s.mem ∧ t.thrs = s.thrs ∧
      RegsBut s t [Reg.MCA_ZONE_STAT m, Reg.MCA_WR_BAND m] := by
  obtain ⟨hne, hmask⟩ := zone_regs_ne m
  unfold State.zoneTake
  dsimp only
  generalize hw : (s.setAct (Reg.MCA_ZONE_SEL m) v).latchBand m = w
  have hwreg (o : Nat) : w.reg o = if o = Reg.MCA_WR_BAND m then BitVec.ofNat 32 s.packBand else s.reg o := by
    rw [← hw]
    exact State.reg_setReg ..
  have hhead : w.zHead m = s.zHead m := by
    simp [State.zHead, State.fld, hwreg, hne]
  rw [hhead]
  generalize hu : (if getF v 8 5 = s.zHead m then w else w.headChange m) = u
  have hureg (o : Nat) : u.reg o = w.reg o := by
    rw [← hu]
    split <;> simp [State.headChange]
  have humed (n : Nat) : u.med n = s.med n := by
    rw [← hu, ← hw]
    split <;> simp [State.headChange]
  have hreaders : (u.setReg (Reg.MCA_ZONE_STAT m) (bit 30 ||| BitVec.ofNat 32 (getF v 8 5 * 256 + getF v 0 6))).headReaders m
      (getF v 8 5) = s.headReaders m (getF v 8 5) := State.headReaders_congr fun hh => by
    obtain ⟨hband, hstat⟩ := hmask (getF v 8 5 / 8) (by omega)
    rw [State.reg_setReg, if_neg hstat, hureg, hwreg, if_neg hband]
  rw [hreaders]
  refine ⟨by simp [humed], by simp [bit], ?_, ?_, fun hh => ?_, fun hh => ?_, by simp [humed], ?_, ?_, ?_, fun o ho => ?_⟩
  · rw [← hu, ← hw]
    split <;> simp [State.headChange, State.latchBand]
  · simp [hureg, hwreg, hne.symm]
  · rw [← hu, if_neg hh]
    simp only [State.gact_setMed]
    exact ⟨congrArg GAct.resolve (w.gact_setGact ..), congrArg GAct.hold (w.gact_setGact ..)⟩
  · rw [← hu, if_pos hh, ← hw]
    simp [State.latchBand]
  · rw [State.gact_setMed, ← hu, ← hw]
    split
    · rfl
    · exact State.gact_setGact_other ..
  · rw [← hu, ← hw]
    split <;> simp [State.headChange, State.latchBand]
  · rw [← hu, ← hw]
    split <;> simp [State.headChange, State.latchBand]
  · simp only [List.mem_cons, List.not_mem_nil, or_false, not_or] at ho
    simp [hureg, hwreg, ho]

/-- A read of memory leaves the media channels (R385 to R400). -/
theorem State.MemOnly.med {s t : State} (h : s.MemOnly t) (n : Nat) : t.med n = s.med n := by
  obtain ⟨regs, mem, fresh, rfl⟩ := h
  rfl

theorem State.MemOnly.gact {s t : State} (h : s.MemOnly t) : t.gact0 = s.gact0 ∧ t.gact1 = s.gact1 := by
  obtain ⟨regs, mem, fresh, rfl⟩ := h
  exact ⟨rfl, rfl⟩

/-- The 39 live taps set (R109). -/
def State.setTaps (s : State) (m : Nat) (f : Nat → W32) : State :=
  (List.range 39).foldl (fun s i => s.setReg (Reg.MCA_LIVE_TAP m i) (f i)) s

theorem State.med_foldl_setReg {α : Type} (f : α → Nat) (g : α → W32) (n : Nat) (l : List α) (s : State) :
    (l.foldl (fun s i => s.setReg (f i) (g i)) s).med n = s.med n := by
  induction l generalizing s with
  | nil => rfl
  | cons i l ih => exact ih _

@[simp] theorem State.med_setTaps (s : State) (m : Nat) (f : Nat → W32) (n : Nat) : (s.setTaps m f).med n = s.med n :=
  State.med_foldl_setReg ..

theorem State.reg_foldl_taps (m : Nat) (f : Nat → W32) (s : State) {i n : Nat} (hi : i < n) :
    ((List.range n).foldl (fun s i => s.setReg (Reg.MCA_LIVE_TAP m i) (f i)) s).reg (Reg.MCA_LIVE_TAP m i) = f i := by
  induction n with
  | zero => omega
  | succ n ih =>
    rw [List.range_succ, List.foldl_append, List.foldl_cons, List.foldl_nil, State.reg_setReg]
    by_cases hin : i = n
    · rw [if_pos (by rw [hin]), hin]
    · rw [if_neg (by simp only [Reg.MCA_LIVE_TAP]; omega), ih (by omega)]

theorem State.reg_setTaps (s : State) (m : Nat) (f : Nat → W32) {i : Nat} (hi : i < 39) :
    (s.setTaps m f).reg (Reg.MCA_LIVE_TAP m i) = f i := State.reg_foldl_taps m f s hi

theorem MedOnly.setTaps {s t : State} {l : List Nat} (h : MedOnly s t m l)
    (hl : (List.range 39).map (Reg.MCA_LIVE_TAP m) ⊆ l) (f : Nat → W32) : MedOnly s (t.setTaps m f) m l :=
  h.foldl fun _ _ hi hu => hu.setReg (hl (List.mem_map_of_mem hi)) _

/-- Setting taps leaves the entry that they come from. -/
theorem State.foldl_zoneTaps (m : Nat) (l : List Nat) (s : State) :
    l.foldl (fun s i => s.setReg (Reg.MCA_LIVE_TAP m i) (BitVec.ofNat 32 (s.zoneF m (32 + 2 * i) 2))) s =
      l.foldl (fun t i => t.setReg (Reg.MCA_LIVE_TAP m i) (BitVec.ofNat 32 (s.zoneF m (32 + 2 * i) 2))) s := by
  induction l generalizing s with
  | nil => rfl
  | cons i l ih => exact ih _

theorem getLsbD_bit {i j : Nat} (hj : j < 32) : (bit i).getLsbD j = decide (i = j) := by
  simp only [bit, BitVec.getLsbD_ofNat, hj, decide_true, Bool.true_and, Nat.testBit_two_pow]

/-- A field keeps its value when a bit outside it is cleared. -/
theorem getF_clear_bit (v : W32) {lo len i : Nat} (hi : i < lo ∨ lo + len ≤ i) (hw : lo + len ≤ 32) :
    getF (v &&& ~~~ bit i) lo len = getF v lo len := by
  apply Nat.eq_of_testBit_eq
  intro j
  simp only [getF, testBit_natF, BitVec.testBit_toNat, BitVec.getLsbD_and, BitVec.getLsbD_not]
  by_cases hj : j < len
  · have h32 : lo + j < 32 := by omega
    have hne : i ≠ lo + j := by omega
    simp only [hj, h32, getLsbD_bit h32, hne, decide_true, decide_false, Bool.true_and, Bool.not_false, Bool.and_true]
  · simp [hj]

theorem tb_clear_bit (v : W32) {i j : Nat} (hj : j < 32) : tb (v &&& ~~~ bit i) j = (tb v j && decide (i ≠ j)) := by
  simp only [tb, BitVec.getLsbD_and, BitVec.getLsbD_not, hj, getLsbD_bit hj, decide_true, Bool.true_and, ne_eq, decide_not]

theorem tb_clear_bit_self (v : W32) {i : Nat} (hi : i < 32) : tb (v &&& ~~~ bit i) i = false := by simp [tb_clear_bit v hi]

/-- A bit that a register clears reads 0. -/
theorem State.rbit_clrReg_bit (s : State) (o : Nat) {i : Nat} (hi : i < 32) : (s.clrReg o (bit i)).rbit o i = false := by
  rw [State.rbit, State.reg_clrReg, if_pos rfl, tb_clear_bit_self _ hi]

theorem tb_or_bit (v : W32) {i j : Nat} (hj : j < 32) : tb (v ||| bit i) j = (tb v j || decide (i = j)) := by
  simp only [tb, BitVec.getLsbD_or, getLsbD_bit hj]

/-- The end of a load leaves the committed head. -/
theorem State.zHead_loaded (s : State) (m : Nat) : (s.clrReg (Reg.MCA_ZONE_STAT m) (bit 30)).zHead m = s.zHead m := by
  rw [State.zHead, State.fld, State.reg_clrReg, if_pos rfl, getF_clear_bit _ (by omega) (by omega)]
  rfl

/-- A zone load that fails (R105). -/
theorem State.zoneLoadDone_fault {f : Nat} (hload : s.rbit (Reg.MCA_ZONE_STAT m) 30 = true)
    (hf : zoneFault (s.zHead m) (s.med m).zoneNew (s.med m).zoneBad = f) (hbad : f ≠ 0) : s.zoneLoadDone m =
      (((s.clrReg (Reg.MCA_ZONE_STAT m) (bit 30)).setFld (Reg.MCA_ZONE_STAT m) 24 4 f).orReg (Reg.MCA_STATUS m)
        (bit 1)).setMed m { s.med m with zoneNew := [], fe := 0 } := by
  unfold State.zoneLoadDone
  simp only [hload, s.zHead_loaded m, hf]
  exact (if_neg (by decide)).trans (if_pos hbad)

/-- The entry that a good load puts in force, with the taps and the front ends it sets (R99, R105, R109). -/
def State.zoneInForce (s : State) (m : Nat) : Med :=
  let x := s.med m
  { x with
    zone := x.zoneNew, zoneNew := [], lms := (List.range 39).map fun i => 256 * sgn16 (leAt x.zoneNew (32 + 2 * i) 2)
    fe := if s.rbit (Reg.MCA_CTRL m) 0 then s.headReaders m (s.zHead m) else 0 }

/-- A zone load that succeeds (R105). -/
theorem State.zoneLoadDone_good (hload : s.rbit (Reg.MCA_ZONE_STAT m) 30 = true)
    (hf : zoneFault (s.zHead m) (s.med m).zoneNew (s.med m).zoneBad = 0) : s.zoneLoadDone m =
      ((((((s.clrReg (Reg.MCA_ZONE_STAT m) (bit 30)).setMed m (s.zoneInForce m)).setTaps m
        fun i => BitVec.ofNat 32 (leAt (s.med m).zoneNew (32 + 2 * i) 2)).orReg (Reg.MCA_ZONE_STAT m) (bit 31)).orReg
        (Reg.MCA_STATUS m) (bit 0)).sendHtrR m) := by
  obtain ⟨_, hmask⟩ := zone_regs_ne m
  have hctrl : (s.clrReg (Reg.MCA_ZONE_STAT m) (bit 30)).rbit (Reg.MCA_CTRL m) 0 = s.rbit (Reg.MCA_CTRL m) 0 := by
    simp [State.rbit, State.reg_clrReg, Reg.MCA_CTRL, Reg.MCA_ZONE_STAT]
  have hreaders : (s.clrReg (Reg.MCA_ZONE_STAT m) (bit 30)).headReaders m (s.zHead m) = s.headReaders m (s.zHead m) :=
    State.headReaders_congr fun hh => by rw [State.reg_clrReg, if_neg (hmask _ (by omega)).2]
  unfold State.zoneLoadDone
  simp only [hload, s.zHead_loaded m, hf, hctrl, hreaders, State.foldl_zoneTaps]
  simp only [State.zoneF, State.med_setMed]
  refine (if_neg (by decide)).trans ((if_neg (not_not_intro rfl)).trans ?_)
  rfl

/-- The HTR_R frame of the latched band (R160, R162). -/
theorem State.sendHtrR_eq (s : State) (m : Nat) : s.sendHtrR m = s.setMed m { s.med m with
    psi := (s.med m).psi ++ psiFrames [(s.fld (Reg.MCA_WR_PSIA0 m) 16 16,
      s.zoneF m (424 + 12 * (s.reg (Reg.MCA_WR_BAND m)).toNat) 2, false)] } := by
  have hoff : 416 + 12 * (s.reg (Reg.MCA_WR_BAND m)).toNat + 8 = 424 + 12 * (s.reg (Reg.MCA_WR_BAND m)).toNat := by omega
  rw [State.sendHtrR, State.psiAuto_eq, State.bandF, hoff]

end

/-! ### Runs armed, started and aborted (R104, R132, R137) -/

section
variable {s : State} {m : Act} {a : ActRd}

theorem State.rdCopy_waits (h : s.rbit (Reg.MCA_RD_CTRL m) 0 = false ∨ (s.med m).rdPend ≠ none) : s.rdCopy m = s := by
  refine if_pos ?_
  obtain h | h := h
  · simp [h]
  · simp [Option.isSome_iff_ne_none.2 h]

/-- The run that the read registers name. -/
def State.rdNamed (s : State) (m : Nat) : RdRun where
  cyl := (s.reg (Reg.MCA_RD_CYL m)).toNat
  start := s.fld (Reg.MCA_RD_SECT m) 0 16
  count := max 1 (s.fld (Reg.MCA_RD_SECT m) 16 16)
  recCh := s.fld (Reg.MCA_RD_DMA m) 8 5
  dataCh := s.fld (Reg.MCA_RD_DMA m) 0 5
  lstart := s.fld (Reg.MCA_RD_CTRL m) 17 3
  keep := s.rbit (Reg.MCA_RD_CTRL m) 16

theorem State.rdCopy_go (hgo : s.rbit (Reg.MCA_RD_CTRL m) 0 = true) (hpend : (s.med m).rdPend = none) : s.rdCopy m =
    ((s.clrReg (Reg.MCA_RD_CTRL m) (bit 0)).orReg (Reg.MCA_RD_STAT m) (bit 30)).setMed m
      { s.med m with rdPend := some (s.rdNamed m), wrFirst := (s.med m).wrPend.isSome } :=
  if_neg (by simp [hgo, hpend])

theorem State.rdEndCheck_goesOn (h : (s.med m).rd = some a) (hbusy : a.fly ≠ [] ∨ a.lad ≠ [] ∨ a.out ≠ []) :
    s.rdEndCheck m = s := by
  unfold State.rdEndCheck
  rw [h]
  refine if_neg ?_
  simp only [Bool.and_eq_true, List.isEmpty_iff]
  tauto

/-! The ladder after an abort (R137). -/

theorem State.ladGo_nil (h : (s.med m).rd = some a) (hlad : a.lad = []) (fuel : Nat) : s.ladGo m fuel = s := by
  cases fuel with
  | zero => rfl
  | succ n => simp [State.ladGo, h, hlad]

theorem State.ladGo_aborted {x : Sect} {rest : List Sect} (h : (s.med m).rd = some a) (hlad : a.lad = x :: rest)
    (habort : a.abort = true) (hroom : a.out.length < 4) (fuel : Nat) :
    s.ladGo m (fuel + 1) = ((s.ladPop m).sectEnd m x 0x14 (min 7 x.entry) []).ladGo m fuel := by
  have hfull : a.full = false := by simp [ActRd.full, hroom]
  simp [State.ladGo, h, hlad, habort, hfull]

/-- After an abort every sector of the ladder ends as ABORTED, in order, while the output buffer has room (R137, R138). -/
theorem State.ladGo_abort {s : State} {a : ActRd} (h : (s.med m).rd = some a) (habort : a.abort = true) {lad : List Sect}
    (hlad : a.lad = lad) (hslot : ∀ x ∈ lad, x.slot < 16) (hroom : a.out.length + lad.length ≤ 4) {fuel : Nat}
    (hfuel : lad.length ≤ fuel) : let t := s.ladGo m fuel
    ∃ out, (t.med m).rd = some { a with lad := [], out := out } ∧
      out.map (fun e => (e.idx, e.status)) = a.out.map (fun e => (e.idx, e.status)) ++ lad.map (fun x => (x.idx, 0x14)) ∧
      (t.med m).rdPend = (s.med m).rdPend ∧ MedOnly s t m (sectRegs m) := by
  induction lad generalizing s a fuel with
  | nil =>
    rw [State.ladGo_nil h hlad]
    exact ⟨a.out, by rw [h, ← hlad], by simp, rfl, .refl ..⟩
  | cons x rest ih =>
    obtain ⟨fuel, rfl⟩ : ∃ k, fuel = k + 1 := ⟨fuel - 1, by simp at hfuel; omega⟩
    simp only [List.length_cons] at hroom hfuel
    rw [State.ladGo_aborted h hlad habort (by omega)]
    have hpop := s.med_rdRun m h (fun a => { a with lad := a.lad.drop 1 })
    obtain ⟨rc, -, hrd, hpend, honly⟩ := State.sectEnd_failed (s := s.ladPop m) (by rw [State.ladPop, hpop])
      (hslot x List.mem_cons_self) (by decide : 0x14 < 256) rfl (min 7 x.entry) []
    obtain ⟨out, hrd', hout, hpend', honly'⟩ := ih hrd habort (by simp [hlad])
      (fun y hy => hslot y (List.mem_cons_of_mem _ hy)) (by simp; omega) (by omega : rest.length ≤ fuel)
    refine ⟨out, hrd', by simp [hout], ?_, (((MedOnly.refl s m _).rdRun _).trans honly).trans honly'⟩
    rw [hpend', hpend, State.ladPop, hpop]

end

end Sys2Proof.Machine
end

section
namespace Sys2Proof.Machine

/-! ### Writes of MCA_RD_CTRL (R132, R137) -/

section
variable {s : State} {m : Act} {v : W32}

/-- A field set, seen bit by bit. -/
theorem tb_setF (v : W32) (lo len x : Nat) {i : Nat} (hi : i < 32) :
    tb (setF v lo len x) i = if lo ≤ i ∧ i < lo + len then x.testBit (i - lo) else tb v i := by
  have hi' : i - lo < 32 := by omega
  simp only [tb, setF, BitVec.getLsbD_or, BitVec.getLsbD_and, BitVec.getLsbD_not, BitVec.getLsbD_shiftLeft,
    getLsbD_maskF lo len hi, BitVec.getLsbD_ofNat, Nat.testBit_mod_two_pow, hi, hi', decide_true, Bool.true_and]
  by_cases hlo : lo ≤ i
  · by_cases hlen : i < lo + len
    · have hlt : i - lo < len := by omega
      simp [hlo, hlen, hlt]
    · have hlt : ¬ i - lo < len := by omega
      simp [hlen, hlt]
  · simp [hlo, Nat.lt_of_not_le hlo]

theorem testBit_getF (v : W32) (lo len j : Nat) : (getF v lo len).testBit j = (decide (j < len) && tb v (lo + j)) := by
  simp only [getF, testBit_natF, BitVec.testBit_toNat, tb]

/-- LSTART and KEEP as a write of MCA_RD_CTRL gives them (R132). -/
theorem runFields (old v : W32) : let w := setF old 16 4 (getF v 16 4) ||| bit 0
    getF w 17 3 = getF v 17 3 ∧ tb w 16 = tb v 16 := by
  have hbit (i : Nat) (hlo : 16 ≤ i) (hhi : i < 20) : tb (setF old 16 4 (getF v 16 4) ||| bit 0) i = tb v i := by
    have hlt : i - 16 < 4 := by omega
    have hidx : 16 + (i - 16) = i := by omega
    rw [tb_or_bit _ (by omega), tb_setF _ _ _ _ (by omega), if_pos ⟨hlo, hhi⟩]
    have h0 : 0 ≠ i := by omega
    simp [testBit_getF, hlt, hidx, h0]
  refine ⟨Nat.eq_of_testBit_eq fun j => ?_, hbit 16 (by decide) (by decide)⟩
  rw [testBit_getF, testBit_getF]
  by_cases hj : j < 3
  · rw [hbit (17 + j) (by omega) (by omega)]
  · simp [hj]

theorem readCtrl_ne (m : Nat) : Reg.MCA_RD_CTRL m ≠ Reg.MCA_RD_STAT m ∧ Reg.MCA_RD_CYL m ≠ Reg.MCA_RD_CTRL m ∧
    Reg.MCA_RD_SECT m ≠ Reg.MCA_RD_CTRL m ∧ Reg.MCA_RD_DMA m ≠ Reg.MCA_RD_CTRL m := by
  simp only [Reg.MCA_RD_CTRL, Reg.MCA_RD_STAT, Reg.MCA_RD_CYL, Reg.MCA_RD_SECT, Reg.MCA_RD_DMA]
  omega

/-- LSTART and KEEP written, with GO (R132). -/
def State.goWritten (s : State) (m : Nat) (v : W32) : State :=
  (s.setFld (Reg.MCA_RD_CTRL m) 16 4 (getF v 16 4)).orReg (Reg.MCA_RD_CTRL m) (bit 0)

theorem State.reg_goWritten (s : State) (m : Nat) (v : W32) (o : Nat) : (s.goWritten m v).reg o =
    if o = Reg.MCA_RD_CTRL m then setF (s.reg (Reg.MCA_RD_CTRL m)) 16 4 (getF v 16 4) ||| bit 0 else s.reg o := by
  simp only [State.goWritten, State.reg_orReg, State.reg_setFld, if_true]
  split <;> rfl

theorem State.rbit_goWritten (s : State) (m : Nat) (v : W32) : (s.goWritten m v).rbit (Reg.MCA_RD_CTRL m) 0 = true := by
  rw [State.rbit, State.reg_goWritten, if_pos rfl, tb_or_bit _ (by decide)]
  simp

theorem State.rdNamed_goWritten (s : State) (m : Nat) (v : W32) : (s.goWritten m v).rdNamed m = {
    cyl := (s.reg (Reg.MCA_RD_CYL m)).toNat, start := s.fld (Reg.MCA_RD_SECT m) 0 16,
    count := max 1 (s.fld (Reg.MCA_RD_SECT m) 16 16), recCh := s.fld (Reg.MCA_RD_DMA m) 8 5,
    dataCh := s.fld (Reg.MCA_RD_DMA m) 0 5, lstart := getF v 17 3, keep := v.getLsbD 16 } := by
  obtain ⟨-, hcyl, hsect, hdma⟩ := readCtrl_ne m
  obtain ⟨hlstart, hkeep⟩ := runFields (s.reg (Reg.MCA_RD_CTRL m)) v
  simp only [State.rdNamed, State.fld, State.rbit, State.reg_goWritten, if_neg hcyl, if_neg hsect, if_neg hdma, if_true, hlstart,
    hkeep]
  rfl

theorem exec_readGo (hgo : v.getLsbD 0 = true) (habort : v.getLsbD 2 = false) (s : State) :
    exec (.readGo m v) s = done ((s.goWritten m v).rdCopy m) := by
  show done (s.rdCtrlWrite m v false) = _
  simp only [State.rdCtrlWrite, tb, hgo, habort, if_true]
  rfl

/-- The pending run discarded, before a GO that waits takes its place (R137). -/
def State.rdDropped (s : State) (m : Nat) (v : W32) : State :=
  let t := s.setFld (Reg.MCA_RD_CTRL m) 16 4 (getF v 16 4)
  (t.setMed m { s.med m with rdPend := none }).clrReg (Reg.MCA_RD_STAT m) (bit 30)

theorem exec_readAbort (hgo : v.getLsbD 0 = false) (habort : v.getLsbD 2 = true) (s : State) (atEnd : Bool) :
    exec (.readAbort m v atEnd) s = done (
      let t := (s.rdDropped m v).rdCopy m
      match (t.med m).rd with
      | none => t.clrReg (Reg.MCA_RD_CTRL m) (bit 2)
      | some _ =>
        if atEnd then t.clrReg (Reg.MCA_RD_CTRL m) (bit 2)
        else (((t.orReg (Reg.MCA_RD_CTRL m) (bit 2)).rdRun m fun a => { a with abort := true }).ladSettle m).rdEndCheck m) := by
  show done (s.rdCtrlWrite m v atEnd) = _
  simp only [State.rdCtrlWrite, tb, hgo, habort, if_true]
  rfl

theorem State.reg_rdDropped (s : State) (m : Nat) (v : W32) (o : Nat) : (s.rdDropped m v).reg o =
    if o = Reg.MCA_RD_CTRL m then setF (s.reg (Reg.MCA_RD_CTRL m)) 16 4 (getF v 16 4)
    else if o = Reg.MCA_RD_STAT m then s.reg (Reg.MCA_RD_STAT m) &&& ~~~ bit 30 else s.reg o := by
  have hne := (readCtrl_ne m).1
  simp only [State.rdDropped, State.reg_clrReg, State.reg_setMed, State.reg_setFld, if_neg hne.symm]
  by_cases ho : o = Reg.MCA_RD_CTRL m
  · simp [ho, hne]
  · simp [ho]

@[simp] theorem State.med_rdDropped (s : State) (m : Nat) (v : W32) : (s.rdDropped m v).med m = { s.med m with rdPend := none } :=
  State.med_setMed ..

theorem State.rbit_rdDropped (s : State) (m : Nat) (v : W32) :
    (s.rdDropped m v).rbit (Reg.MCA_RD_CTRL m) 0 = s.rbit (Reg.MCA_RD_CTRL m) 0 := by
  rw [State.rbit, State.reg_rdDropped, if_pos rfl, tb_setF _ _ _ _ (by decide), if_neg (by decide), State.rbit]

theorem State.rdDropped_medOnly (s : State) (m : Act) (v : W32) :
    MedOnly s (s.rdDropped m v) m [Reg.MCA_RD_CTRL m, Reg.MCA_RD_STAT m] :=
  (((MedOnly.refl s m _).setReg (by simp) _).setMed _).setReg (by simp) _

end

/-! ### Slots unpinned (R124) -/

section
variable (s : State) (m : Act) (v : W32)

/-- The ladder of the active run holds slot `k`. -/
def State.ladHolds (s : State) (m k : Nat) : Bool :=
  ((s.med m).rd.map fun a => a.lad.any fun x => x.pinned && x.slot == k).getD false

/-- The first `n` slots of a write of MCA_RET_UNPIN. -/
def State.unpinFirst (s : State) (m : Nat) (v : W32) (n : Nat) : State :=
  (List.range n).foldl (fun s k =>
    if !(tb v k) then s
    else if s.ladHolds m k then s.setMed m { s.med m with unpinLater := (s.med m).unpinLater ++ [k] }
    else s.setPin m k false) s

theorem State.unpinFirst_succ (n : Nat) : s.unpinFirst m v (n + 1) =
    let t := s.unpinFirst m v n
    if !(tb v n) then t
    else if t.ladHolds m n then t.setMed m { t.med m with unpinLater := (t.med m).unpinLater ++ [n] }
    else t.setPin m n false := by
  rw [State.unpinFirst, List.range_succ, List.foldl_append]
  rfl

/-- What a write of MCA_RET_UNPIN leaves (R124). -/
theorem State.unpinFirst_spec {n : Nat} (hn : n ≤ 16) : let t := s.unpinFirst m v n
    t.med m = { s.med m with
        unpinLater := (s.med m).unpinLater ++ (List.range n).filter fun k => v.getLsbD k && s.ladHolds m k } ∧
      (∀ k, t.reg (Reg.MCA_RET_SLOT_B m k) = if k < n ∧ (v.getLsbD k && !s.ladHolds m k) = true then
        setF (s.reg (Reg.MCA_RET_SLOT_B m k)) 30 1 0 else s.reg (Reg.MCA_RET_SLOT_B m k)) ∧
      MedOnly s t m ((List.range 16).map (Reg.MCA_RET_SLOT_B m)) := by
  induction n with
  | zero =>
    refine ⟨?_, ?_, MedOnly.refl s m _⟩
    · simp [State.unpinFirst]
    · simp [State.unpinFirst]
  | succ n ih =>
    obtain ⟨hmed, hreg, honly⟩ := ih (by omega)
    rw [State.unpinFirst_succ]
    have hheld : (s.unpinFirst m v n).ladHolds m n = s.ladHolds m n := by
      unfold State.ladHolds
      rw [hmed]
    generalize s.unpinFirst m v n = t at hmed hreg honly hheld
    dsimp only
    rw [hheld, List.range_succ, List.filter_append]
    have hslot (k : Nat) : Reg.MCA_RET_SLOT_B m k = Reg.MCA_RET_SLOT_B m n ↔ k = n := by
      simp only [Reg.MCA_RET_SLOT_B]
      omega
    have hsucc (k : Nat) : k < n + 1 ↔ k < n ∨ k = n := Nat.lt_succ_iff_lt_or_eq
    by_cases hv : v.getLsbD n = true
    · by_cases hl : s.ladHolds m n = true
      · simp only [tb, hv, hl]
        refine ⟨by simp [hmed, hv, hl], fun k => ?_, honly.setMed _⟩
        by_cases hk : k = n
        · simp [hreg, hk, hl]
        · simp [hreg, hsucc, hk]
      · simp only [tb, hv, hl]
        refine ⟨by simp [hmed, hv, hl], fun k => ?_, honly.setReg (List.mem_map_of_mem (List.mem_range.2 (by omega))) _⟩
        by_cases hk : k = n
        · simp [State.setPin, State.reg_setFld, hreg, hk, hl, hv, b2n]
        · simp [State.setPin, State.reg_setFld, hslot, hreg, hsucc, hk]
    · simp only [tb, hv]
      refine ⟨by simp [hmed, hv], fun k => ?_, honly⟩
      by_cases hk : k = n
      · simp [hreg, hk, hv]
      · simp [hreg, hsucc, hk]

end

end Sys2Proof.Machine
end

section
namespace Sys2Proof.Machine

/-! ### The zone, the start of read runs and the pins (R104, R105, R124, R132, R137) -/

section
variable {s : State} {m : Act}

/-- A commit after a read of memory, against the state before the read. -/
theorem State.zoneTake_afterRead {u : State} (hmem : s.MemOnly u) (hregs : s.MemRegs u) (v : W32) (entry : List W8)
    (bad : Bool) : let t := u.zoneTake m v entry bad
    let h := getF v 8 5
    t.med m = { s.med m with
        zonePend := false, zone := [], zoneNew := entry, zoneBad := bad, fe := (s.med m).fe &&& u.headReaders m h } ∧
      t.reg (Reg.MCA_ZONE_STAT m) = 0x40000000 ||| BitVec.ofNat 32 (h * 256 + getF v 0 6) ∧
      t.act (Reg.MCA_ZONE_SEL m) = v ∧ t.reg (Reg.MCA_WR_BAND m) = BitVec.ofNat 32 s.packBand ∧
      (h ≠ s.zHead m → (t.gact m).resolve = true ∧ (t.gact m).hold = true) ∧
      (h = s.zHead m → t.gact0 = s.gact0 ∧ t.gact1 = s.gact1) ∧
      t.med (1 - m.val) = s.med (1 - m.val) ∧ t.gact (1 - m.val) = s.gact (1 - m.val) ∧ t.mem = u.mem ∧ t.thrs = s.thrs ∧
      RegsBut u t [Reg.MCA_ZONE_STAT m, Reg.MCA_WR_BAND m] := by
  have hspec := u.zoneTake_spec m v entry bad
  have hhead : u.zHead m = s.zHead m := by
    rw [State.zHead, State.fld, hregs.regsBut _ (not_mem_memRegs (by simp only [Reg.MCA_ZONE_STAT]; omega))]
    rfl
  have hband : u.packBand = s.packBand := by
    rw [State.packBand, State.fld, hregs.regsBut _ (not_mem_memRegs (by decide))]
    rfl
  have hthrs : u.thrs = s.thrs := by
    obtain ⟨regs, mem, fresh, heq⟩ := hmem
    rw [heq]
  have hgact (i : Nat) : u.gact i = s.gact i := by rw [State.gact, State.gact, hmem.gact.1, hmem.gact.2]
  dsimp only at hspec ⊢
  rw [hhead, hband, hthrs, hgact, hmem.med, hmem.med, hmem.gact.1, hmem.gact.2] at hspec
  exact hspec

/-- What a zone load that fails leaves (R105). -/
theorem State.zoneLoadDone_fault_spec {f : Nat} (hload : s.rbit (Reg.MCA_ZONE_STAT m) 30 = true)
    (hf : zoneFault (s.zHead m) (s.med m).zoneNew (s.med m).zoneBad = f) (hbad : f ≠ 0) : let t := s.zoneLoadDone m
    t.med m = { s.med m with zoneNew := [], fe := 0 } ∧
      t.reg (Reg.MCA_ZONE_STAT m) = setF (s.reg (Reg.MCA_ZONE_STAT m) &&& ~~~ 0x40000000) 24 4 f ∧
      t.reg (Reg.MCA_STATUS m) = s.reg (Reg.MCA_STATUS m) ||| 2 ∧
      MedOnly s t m [Reg.MCA_ZONE_STAT m, Reg.MCA_STATUS m] := by
  have hne : Reg.MCA_ZONE_STAT m ≠ Reg.MCA_STATUS m := by simp [Reg.MCA_ZONE_STAT, Reg.MCA_STATUS]
  rw [State.zoneLoadDone_fault hload hf hbad]
  refine ⟨State.med_setMed .., ?_, ?_,
    ((((MedOnly.refl s m _).setReg (by simp) _).setReg (by simp) _).setReg (by simp) _).setMed _⟩
  · rw [State.reg_setMed, State.reg_orReg, if_neg hne, State.reg_setFld, if_pos rfl, State.reg_clrReg, if_pos rfl]
    rfl
  · rw [State.reg_setMed, State.reg_orReg, if_pos rfl, State.reg_setFld, if_neg hne.symm, State.reg_clrReg, if_neg hne.symm]
    rfl

/-- The registers that the end of a good zone load writes. -/
def zoneRegs (m : Act) : List Nat :=
  [Reg.MCA_ZONE_STAT m, Reg.MCA_STATUS m] ++ (List.range 39).map (Reg.MCA_LIVE_TAP m)

theorem not_mem_zoneRegs (m : Act) : Reg.MCA_WR_PSIA0 m ∉ zoneRegs m ∧ Reg.MCA_WR_BAND m ∉ zoneRegs m := by
  simp only [zoneRegs, List.mem_append, List.mem_cons, List.not_mem_nil, or_false, List.mem_map, List.mem_range, not_or, not_exists,
    Reg.MCA_WR_PSIA0, Reg.MCA_WR_BAND, Reg.MCA_ZONE_STAT, Reg.MCA_STATUS, Reg.MCA_LIVE_TAP]
  exact ⟨⟨by omega, fun i hi => by omega⟩, ⟨by omega, fun i hi => by omega⟩⟩

theorem State.reg_setTaps_other (s : State) (f : Nat → W32) {o : Nat} (ho : o < Reg.MCA_LIVE_TAP m 0) :
    (s.setTaps m f).reg o = s.reg o := by
  refine (MedOnly.setTaps (.refl s m _) (List.Subset.refl _) f).2.2 o fun hmem => ?_
  obtain ⟨i, -, rfl⟩ := List.mem_map.1 hmem
  simp only [Reg.MCA_LIVE_TAP] at ho
  omega

/-- What the end of a good zone load leaves (R99, R105, R109, R161). -/
theorem State.zoneLoadDone_good_spec (hload : s.rbit (Reg.MCA_ZONE_STAT m) 30 = true)
    (hf : zoneFault (s.zHead m) (s.med m).zoneNew (s.med m).zoneBad = 0) : let t := s.zoneLoadDone m
    let x := s.med m
    t.med m = { s.zoneInForce m with
        psi := x.psi ++ psiFrames [(s.fld (Reg.MCA_WR_PSIA0 m) 16 16,
          leAt x.zoneNew (424 + 12 * (s.reg (Reg.MCA_WR_BAND m)).toNat) 2, false)] } ∧
      t.reg (Reg.MCA_ZONE_STAT m) = (s.reg (Reg.MCA_ZONE_STAT m) &&& ~~~ 0x40000000) ||| 0x80000000 ∧
      t.reg (Reg.MCA_STATUS m) = s.reg (Reg.MCA_STATUS m) ||| 1 ∧
      (∀ i, i < 39 → t.reg (Reg.MCA_LIVE_TAP m i) = BitVec.ofNat 32 (leAt x.zoneNew (32 + 2 * i) 2)) ∧
      MedOnly s t m (zoneRegs m) := by
  rw [State.zoneLoadDone_good hload hf, State.sendHtrR_eq]
  dsimp only
  generalize hf' : (fun i => BitVec.ofNat 32 (leAt (s.med m).zoneNew (32 + 2 * i) 2)) = f
  generalize hw : (s.clrReg (Reg.MCA_ZONE_STAT m) (bit 30)).setMed m (s.zoneInForce m) = w
  have hstat : Reg.MCA_ZONE_STAT m ∈ zoneRegs m := by simp [zoneRegs]
  have hstatus : Reg.MCA_STATUS m ∈ zoneRegs m := by simp [zoneRegs]
  have htaps : (List.range 39).map (Reg.MCA_LIVE_TAP m) ⊆ zoneRegs m := List.subset_append_right ..
  have honly : MedOnly s (w.setTaps m f) m (zoneRegs m) :=
    MedOnly.setTaps (hw ▸ ((MedOnly.refl s m _).setReg hstat _).setMed _) htaps f
  generalize hu : ((w.setTaps m f).orReg (Reg.MCA_ZONE_STAT m) (bit 31)).orReg (Reg.MCA_STATUS m) (bit 0) = u
  have honly : MedOnly s u m (zoneRegs m) := hu ▸ (honly.setReg hstat _).setReg hstatus _
  have hmed : u.med m = s.zoneInForce m := by simp [← hu, ← hw]
  have hstat_tap : Reg.MCA_ZONE_STAT m < Reg.MCA_LIVE_TAP m 0 := by
    simp only [Reg.MCA_ZONE_STAT, Reg.MCA_LIVE_TAP]; omega
  have hstatus_tap : Reg.MCA_STATUS m < Reg.MCA_LIVE_TAP m 0 := by
    simp only [Reg.MCA_STATUS, Reg.MCA_LIVE_TAP]; omega
  have hne : Reg.MCA_ZONE_STAT m ≠ Reg.MCA_STATUS m := by simp [Reg.MCA_ZONE_STAT, Reg.MCA_STATUS]
  obtain ⟨hpsia, hband⟩ := not_mem_zoneRegs m
  refine ⟨?_, ?_, ?_, fun i hi => ?_, honly.setMed _⟩
  · rw [State.med_setMed, State.zoneF, State.fld, honly.2.2 _ hpsia, honly.2.2 _ hband, hmed]
    rfl
  · rw [State.reg_setMed, ← hu, State.reg_orReg, if_neg hne, State.reg_orReg, if_pos rfl, State.reg_setTaps_other _ _ hstat_tap,
      ← hw, State.reg_setMed, State.reg_clrReg, if_pos rfl]
    rfl
  · rw [State.reg_setMed, ← hu, State.reg_orReg, if_pos rfl, State.reg_orReg, if_neg hne.symm,
      State.reg_setTaps_other _ _ hstatus_tap, ← hw, State.reg_setMed, State.reg_clrReg, if_neg hne.symm]
    rfl
  · have htap : Reg.MCA_LIVE_TAP m 0 ≤ Reg.MCA_LIVE_TAP m i := by simp [Reg.MCA_LIVE_TAP]
    rw [State.reg_setMed, ← hu, State.reg_orReg, if_neg (by omega), State.reg_orReg, if_neg (by omega), State.reg_setTaps _ _ _ hi,
      ← hf']

/-- The registers that the start of a read run writes are not those it reads. -/
theorem startRegs_ne (m : Nat) :
    (Reg.MCA_RD_CTRL m ≠ Reg.MCA_WR_BAND m ∧ Reg.MCA_RD_CTRL m ≠ Reg.MCA_RD_STAT m) ∧
      (Reg.MCA_WR_PSIA0 m ≠ Reg.MCA_WR_BAND m ∧ Reg.MCA_WR_PSIA0 m ≠ Reg.MCA_RD_STAT m) ∧
      Reg.MCA_RD_STAT m ≠ Reg.MCA_WR_BAND m := by
  simp only [Reg.MCA_RD_CTRL, Reg.MCA_WR_BAND, Reg.MCA_RD_STAT, Reg.MCA_WR_PSIA0]
  omega

/-- What the start of a read run leaves (R104, R132, R161, R162). -/
theorem State.rdStart_spec {r : RdRun} (hpend : (s.med m).rdPend = some r) (hidle : (s.med m).idle = true)
    (hready : s.medReady m = true) (hzone : (s.med m).zonePend = false)
    (hturn : (s.med m).wrPend = none ∨ (s.med m).wrFirst = false) (hgo : s.rbit (Reg.MCA_RD_CTRL m) 0 = false)
    (hat : (s.med m).readAt ≤ s.now) : let t := s.rdStart m
    t.med m = { s.med m with
        rdPend := none, rd := some ⟨r, 0, false, false, [], [], [], 0⟩, offSeen := false
        psi := (s.med m).psi ++ psiFrames [(s.fld (Reg.MCA_WR_PSIA0 m) 16 16, s.zoneF m (424 + 12 * s.packBand) 2, false)] } ∧
      t.reg (Reg.MCA_RD_STAT m) = 0x80000000 ||| (s.reg (Reg.MCA_RD_STAT m) &&& 0x30000000) ∧
      t.reg (Reg.MCA_WR_BAND m) = BitVec.ofNat 32 s.packBand ∧ MedOnly s t m [Reg.MCA_RD_STAT m, Reg.MCA_WR_BAND m] := by
  have hstart : ¬ ((!(s.med m).idle || !(s.medReady m) || (s.med m).zonePend || ((s.med m).wrPend.isSome && (s.med m).wrFirst) ||
      decide (s.now < (s.med m).readAt)) = true) := by
    obtain hturn | hturn := hturn
    · simp [hidle, hready, hzone, hturn, hat]
    · simp [hidle, hready, hzone, hturn, hat]
  let t0 := s.setMed m { s.med m with rdPend := none, rd := some ⟨r, 0, false, false, [], [], [], 0⟩, offSeen := false }
  have heq : s.rdStart m =
      (((t0.setReg (Reg.MCA_RD_STAT m) (runStat (t0.reg (Reg.MCA_RD_STAT m)))).latchBand m).sendHtrR m).rdCopy m := by
    unfold State.rdStart
    dsimp only
    rw [hpend]
    exact if_neg hstart
  rw [heq, State.sendHtrR_eq]
  generalize hw : (t0.setReg (Reg.MCA_RD_STAT m) (runStat (t0.reg (Reg.MCA_RD_STAT m)))).latchBand m = w
  have hwreg (o : Nat) : w.reg o = if o = Reg.MCA_WR_BAND m then BitVec.ofNat 32 s.packBand
      else if o = Reg.MCA_RD_STAT m then runStat (s.reg (Reg.MCA_RD_STAT m)) else s.reg o := by
    have hband : (t0.setReg (Reg.MCA_RD_STAT m) (runStat (t0.reg (Reg.MCA_RD_STAT m)))).packBand = s.packBand := by
      have hne : Reg.THM_BANDS ≠ Reg.MCA_RD_STAT m := by simp only [Reg.THM_BANDS, Reg.MCA_RD_STAT]; omega
      rw [State.packBand, State.fld, State.reg_setReg, if_neg hne, State.reg_setMed]
      rfl
    rw [← hw, State.latchBand, hband, State.reg_setReg, State.reg_setReg, State.reg_setMed, State.reg_setMed]
  have hwmed : w.med m = { s.med m with
      rdPend := none, rd := some ⟨r, 0, false, false, [], [], [], 0⟩, offSeen := false } := by
    rw [← hw]
    exact State.med_setMed ..
  obtain ⟨hctrl, hpsia, hstat⟩ := startRegs_ne m
  have hband : (BitVec.ofNat 32 s.packBand).toNat = s.packBand := by
    have hlt : s.packBand < 2 ^ 3 := Nat.mod_lt _ (by decide)
    rw [BitVec.toNat_ofNat, Nat.mod_eq_of_lt (by omega)]
  have hwait : w.rbit (Reg.MCA_RD_CTRL m) 0 = false := by
    rw [State.rbit, hwreg, if_neg hctrl.1, if_neg hctrl.2]
    exact hgo
  have honly : MedOnly s w m [Reg.MCA_RD_STAT m, Reg.MCA_WR_BAND m] :=
    hw ▸ (((MedOnly.refl s m _).setMed _).setReg (by simp) _).setReg (by simp) _
  rw [State.rdCopy_waits (.inl (by rw [State.rbit, State.reg_setMed]; exact hwait))]
  refine ⟨?_, ?_, ?_, honly.setMed _⟩
  · rw [State.med_setMed, State.fld, hwreg, if_neg hpsia.1, if_neg hpsia.2, hwreg, if_pos rfl, hband, State.zoneF, hwmed]
    rfl
  · rw [State.reg_setMed, hwreg, if_neg hstat, if_pos rfl]
    rfl
  · rw [State.reg_setMed, hwreg, if_pos rfl]

/-- What a GO leaves that is copied into the free pending place (R132). -/
theorem State.rdCopy_spec (hgo : s.rbit (Reg.MCA_RD_CTRL m) 0 = true) (hpend : (s.med m).rdPend = none) :
    let t := s.rdCopy m
    t.med m = { s.med m with wrFirst := (s.med m).wrPend.isSome, rdPend := some (s.rdNamed m) } ∧
      t.reg (Reg.MCA_RD_CTRL m) = s.reg (Reg.MCA_RD_CTRL m) &&& ~~~ bit 0 ∧
      t.reg (Reg.MCA_RD_STAT m) = s.reg (Reg.MCA_RD_STAT m) ||| 0x40000000 ∧
      MedOnly s t m [Reg.MCA_RD_CTRL m, Reg.MCA_RD_STAT m] := by
  have hne := (readCtrl_ne m).1
  rw [State.rdCopy_go hgo hpend]
  refine ⟨State.med_setMed .., ?_, ?_, (((MedOnly.refl s m _).setReg (by simp) _).setReg (by simp) _).setMed _⟩
  · rw [State.reg_setMed, State.reg_orReg, if_neg hne, State.reg_clrReg, if_pos rfl]
  · rw [State.reg_setMed, State.reg_orReg, if_pos rfl, State.reg_clrReg, if_neg hne.symm]
    rfl

theorem State.goWritten_medOnly (s : State) (m : Act) (v : W32) :
    MedOnly s (s.goWritten m v) m [Reg.MCA_RD_CTRL m, Reg.MCA_RD_STAT m] :=
  ((MedOnly.refl s m _).setReg (by simp) _).setReg (by simp) _

/-- The registers that name a run are those of the state before the abort. -/
theorem State.rdNamed_rdDropped (s : State) (m : Nat) (v : W32) :
    ((s.rdDropped m v).rdNamed m).cyl = (s.reg (Reg.MCA_RD_CYL m)).toNat ∧
      ((s.rdDropped m v).rdNamed m).start = s.fld (Reg.MCA_RD_SECT m) 0 16 := by
  have hcyl : Reg.MCA_RD_CYL m ≠ Reg.MCA_RD_CTRL m ∧ Reg.MCA_RD_CYL m ≠ Reg.MCA_RD_STAT m := by
    simp [Reg.MCA_RD_CYL, Reg.MCA_RD_CTRL, Reg.MCA_RD_STAT]
  have hsect : Reg.MCA_RD_SECT m ≠ Reg.MCA_RD_CTRL m ∧ Reg.MCA_RD_SECT m ≠ Reg.MCA_RD_STAT m := by
    simp [Reg.MCA_RD_SECT, Reg.MCA_RD_CTRL, Reg.MCA_RD_STAT]
  simp only [State.rdNamed, State.fld, State.reg_rdDropped, if_neg hcyl.1, if_neg hcyl.2, if_neg hsect.1, if_neg hsect.2,
    and_self]

/-- Nothing of a pending run is left in MCA_RD_STAT (R137). -/
theorem State.rbit_stat_rdDropped (s : State) (m : Nat) (v : W32) : (s.rdDropped m v).rbit (Reg.MCA_RD_STAT m) 30 = false := by
  rw [State.rbit, State.reg_rdDropped, if_neg (readCtrl_ne m).1.symm, if_pos rfl, tb_clear_bit_self _ (by decide)]

theorem not_mem_sectRegs {o : Nat} (hstatus : o ≠ Reg.MCA_STATUS m) (ho : o < Reg.MCA_RET_SLOT_A m 0) : o ∉ sectRegs m := by
  simp only [Reg.MCA_RET_SLOT_A] at ho
  simp only [sectRegs, List.mem_append, List.mem_singleton, hstatus, List.mem_map, List.mem_range, false_or, not_or, not_exists,
    Reg.MCA_CNT, Reg.MCA_RET_SLOT_B]
  exact ⟨fun i hi => by omega, fun i hi => by omega⟩

/-- What an abort leaves of a run whose decodes are in flight (R137, R138). -/
theorem State.abortActive_spec {a : ActRd} (hrd : (s.med m).rd = some a) (hfly : a.fly ≠ []) (hslot : ∀ x ∈ a.lad, x.slot < 16)
    (hroom : a.out.length + a.lad.length ≤ 4) :
    let t := (((s.orReg (Reg.MCA_RD_CTRL m) (bit 2)).rdRun m fun a => { a with abort := true }).ladSettle m).rdEndCheck m
    ∃ out, (t.med m).rd = some { a with abort := true, lad := [], out := out } ∧
      out.map (fun e => (e.idx, e.status)) = a.out.map (fun e => (e.idx, e.status)) ++ a.lad.map (fun x => (x.idx, 0x14)) ∧
      (t.med m).rdPend = (s.med m).rdPend ∧ t.rbit (Reg.MCA_RD_CTRL m) 2 = true ∧
      MedOnly s t m (Reg.MCA_RD_CTRL m :: sectRegs m) := by
  generalize hu : (s.orReg (Reg.MCA_RD_CTRL m) (bit 2)).rdRun m (fun a => { a with abort := true }) = u
  have hmed : u.med m = { s.med m with rd := some { a with abort := true } } := by
    rw [← hu]
    exact State.med_rdRun (s.orReg ..) m hrd _
  have hurd : (u.med m).rd = some { a with abort := true } := by rw [hmed]
  have hsettle : u.ladSettle m = u.ladGo m (9 * (a.lad.length + 1)) := by rw [State.ladSettle, hurd]; rfl
  obtain ⟨out, hrd', hout, hpend, honly⟩ := State.ladGo_abort hurd rfl rfl hslot hroom
    (by omega : a.lad.length ≤ 9 * (a.lad.length + 1))
  rw [hsettle, State.rdEndCheck_goesOn hrd' (.inl hfly)]
  have hctrl : Reg.MCA_RD_CTRL m ∉ sectRegs m :=
    not_mem_sectRegs (by simp [Reg.MCA_RD_CTRL, Reg.MCA_STATUS]) (by simp only [Reg.MCA_RD_CTRL, Reg.MCA_RET_SLOT_A]; omega)
  refine ⟨out, hrd', hout, by rw [hpend, hmed], ?_, ?_⟩
  · rw [State.rbit, honly.2.2 _ hctrl, ← hu, State.reg_rdRun, State.reg_orReg, if_pos rfl, tb_or_bit _ (by decide)]
    simp
  · exact (hu ▸ ((MedOnly.refl s m _).setReg List.mem_cons_self _).rdRun _ : MedOnly s u m _).trans
      (honly.mono (List.subset_cons_self ..))

end

/-- Settles O32: a zone commit is `State.zoneTake` after the read of its entry, a run is armed by `State.rdCopy`, and an abort
passes the ladder by `State.ladGo_abort`. -/
theorem mediaZonesAndReadRunsStart : Obligations.MediaZonesAndReadRunsStart := by
  refine ⟨fun m s hpend hidle => ?_, fun m s hload => ⟨fun hf => ?_, fun hf => ?_⟩, fun m v s hgo habort => ⟨fun hpend => ?_,
    fun hpend => ?_⟩, fun m r s hpend hidle hready hzone hturn hgo hat => ?_, fun m v atEnd s hgo habort => ⟨fun hrd hwait => ?_,
    fun hrd hwait => ?_, fun a hrd hfly hslot hroom hend hwait => ?_⟩, fun m v s => ?_⟩
  · exact ⟨_, congrArg done (State.zoneCommit_eq hpend hidle),
      State.zoneTake_afterRead ((State.MemOnly.refl s).memRead _ _) ((State.MemRegs.refl s).memRead _ _) ..⟩
  · obtain ⟨hmed, hstat, hstatus, honly⟩ := State.zoneLoadDone_fault_spec hload rfl hf
    exact ⟨_, rfl, hmed, hstat, hstatus, honly.settle⟩
  · obtain ⟨hmed, hstat, hstatus, htaps, honly⟩ := State.zoneLoadDone_good_spec hload hf
    exact ⟨_, rfl, hmed, hstat, hstatus, htaps, honly.settle⟩
  · obtain ⟨hmed, hctrl, hstat, honly⟩ := State.rdCopy_spec (s := s.goWritten m v) (State.rbit_goWritten ..) hpend
    refine ⟨_, exec_readGo hgo habort s, ?_, ?_, ?_, ((s.goWritten_medOnly m v).trans honly).settle⟩
    · rw [State.med_settle, hmed, State.rdNamed_goWritten]
      rfl
    · rw [State.rbit, State.reg_settle, hctrl, tb_clear_bit_self _ (by decide)]
    · rw [State.reg_settle, hstat, State.reg_goWritten, if_neg (readCtrl_ne m).1.symm]
  · have hwaits : (s.goWritten m v).rdCopy m = s.goWritten m v := State.rdCopy_waits (.inr hpend)
    refine ⟨_, exec_readGo hgo habort s, ?_, ?_⟩
    · rw [hwaits]
      exact s.rbit_goWritten m v
    · rw [hwaits]
      refine ⟨rfl, fun o ho => ?_⟩
      rw [State.reg_settle, State.reg_goWritten, if_neg (by simpa using ho)]
  · obtain ⟨hmed, hstat, hband, honly⟩ := State.rdStart_spec hpend hidle hready hzone hturn hgo hat
    exact ⟨_, rfl, hmed, hstat, hband, honly.settle⟩
  · have hcopy : (s.rdDropped m v).rdCopy m = s.rdDropped m v :=
      State.rdCopy_waits (.inl ((s.rbit_rdDropped m v).trans hwait))
    have hexec := exec_readAbort (m := m) hgo habort s atEnd
    simp only [hcopy, State.med_rdDropped, hrd] at hexec
    refine ⟨_, hexec, s.med_rdDropped m v, ?_, ?_, ((s.rdDropped_medOnly m v).setReg (by simp) _).settle⟩
    · exact State.rbit_clrReg_bit _ _ (by decide)
    · rw [State.rbit, State.reg_settle, State.reg_clrReg, if_neg (readCtrl_ne m).1.symm]
      exact s.rbit_stat_rdDropped m v
  · obtain ⟨hmed, hctrl, hstat, honly⟩ := State.rdCopy_spec (s := s.rdDropped m v) ((s.rbit_rdDropped m v).trans hwait)
      (by rw [State.med_rdDropped])
    have hexec := exec_readAbort (m := m) hgo habort s atEnd
    simp only [hmed, State.med_rdDropped, hrd] at hexec
    obtain ⟨hcyl, hstart⟩ := s.rdNamed_rdDropped m v
    refine ⟨_, _, hexec, by rw [State.med_settle, State.med_clrReg, hmed], hcyl, hstart, ?_, ?_, ?_,
      (((s.rdDropped_medOnly m v).trans honly).setReg (by simp) _).settle⟩
    · rw [State.rbit, State.reg_settle, State.reg_clrReg, if_pos rfl, tb_clear_bit _ (by decide), hctrl,
        tb_clear_bit_self _ (by decide), Bool.false_and]
    · exact State.rbit_clrReg_bit _ _ (by decide)
    · rw [State.rbit, State.reg_settle, State.reg_clrReg, if_neg (readCtrl_ne m).1.symm, hstat]
      rw [show (0x40000000 : W32) = bit 30 from rfl, tb_or_bit _ (by decide)]
      simp
  · have hcopy : (s.rdDropped m v).rdCopy m = s.rdDropped m v :=
      State.rdCopy_waits (.inl ((s.rbit_rdDropped m v).trans hwait))
    subst hend
    have hexec := exec_readAbort (m := m) hgo habort s false
    simp only [hcopy, State.med_rdDropped, hrd, Bool.false_eq_true, if_false] at hexec
    obtain ⟨out, hrd', hout, hpend, hctrl, honly⟩ := State.abortActive_spec (s := s.rdDropped m v)
      (by rw [State.med_rdDropped, hrd]) hfly hslot hroom
    have hstat : Reg.MCA_RD_STAT m ∉ Reg.MCA_RD_CTRL m :: sectRegs m := by
      rw [List.mem_cons, not_or]
      exact ⟨(readCtrl_ne m).1.symm, not_mem_sectRegs (by simp [Reg.MCA_RD_STAT, Reg.MCA_STATUS])
        (by simp only [Reg.MCA_RD_STAT, Reg.MCA_RET_SLOT_A]; omega)⟩
    refine ⟨_, _, hexec, hrd', rfl, rfl, rfl, rfl, rfl, hout, by rw [State.med_settle, hpend, State.med_rdDropped], hctrl, ?_,
      (((s.rdDropped_medOnly m v).mono (List.subset_append_left ..)).trans (honly.mono ?_)).settle⟩
    · rw [State.rbit, State.reg_settle, honly.2.2 _ hstat]
      exact s.rbit_stat_rdDropped m v
    · exact List.cons_subset_cons _ (List.subset_cons_self ..)
  · obtain ⟨hmed, hreg, honly⟩ := s.unpinFirst_spec m v (Nat.le_refl 16)
    refine ⟨_, rfl, hmed, fun k hk => ?_, honly.settle⟩
    refine (hreg k).trans ?_
    simp only [hk, true_and]
    rfl

end Sys2Proof.Machine
end

section
namespace Sys2Proof.Machine

/-! ### Bytes stored into SRAM, whole words at a time (R122, R398) -/

theorem smGet_writeCells (d : Nat → W8) (l : List W8) (m : List Host.Cell) (a i : Nat) :
    smGet d (writeCells d m a l) i = if a ≤ i ∧ i < a + l.length then l.getD (i - a) 0 else smGet d m i := by
  induction l generalizing m a with
  | nil =>
    rw [if_neg (by simp)]
    rfl
  | cons b l ih =>
    rw [writeCells, ih, List.length_cons, smGet_put]
    by_cases hi : i = a
    · simp [hi]
    · by_cases hlt : a + 1 ≤ i ∧ i < a + 1 + l.length
      · have hidx : i - a = (i - (a + 1)) + 1 := by omega
        rw [if_pos hlt, if_pos (by omega), hidx, List.getD_cons_succ]
      · rw [if_neg hlt, if_neg hi, if_neg (by omega)]

/-- The bytes of SRAM and its check bits alone differ. -/
def State.SramOnly (s t : State) : Prop := ∃ sram syn, t = { s with mem := { s.mem with sram := sram, sramSyn := syn } }

theorem State.SramOnly.trans {s t u : State} (h : s.SramOnly t) (h' : t.SramOnly u) : s.SramOnly u := by
  obtain ⟨_, _, rfl⟩ := h
  obtain ⟨_, _, rfl⟩ := h'
  exact ⟨_, _, rfl⟩

/-- A whole word stored holds the bytes given (R398). -/
theorem State.sramByte_writeSramPart (s : State) (w o : Nat) {l : List W8} (hl : l.length = 8) (i : Nat) :
    (s.writeSramPart w o l false).sramByte i = if 8 * w ≤ i ∧ i < 8 * w + 8 then l.getD (i - 8 * w) 0 else s.sramByte i := by
  have hlt : ofLe l < 2 ^ 64 := by
    have h := ofLe_lt l
    rw [hl] at h
    exact h
  have hbytes : leBytes 8 (BitVec.ofNat 64 (ofLe l)).toNat = l := by
    rw [BitVec.toNat_ofNat, Nat.mod_eq_of_lt hlt, ← hl, leBytes_ofLe]
  rw [State.writeSramPart, if_pos hl, State.sramByte, State.setSramWord]
  dsimp only
  rw [hbytes, smGet_writeCells, hl]
  rfl

theorem State.sramOnly_writeSramPart (s : State) (w o : Nat) {l : List W8} (hl : l.length = 8) :
    s.SramOnly (s.writeSramPart w o l false) := by
  rw [State.writeSramPart, if_pos hl]
  exact ⟨_, _, rfl⟩

/-- Words stored one after the other hold the bytes given, and every other byte is as before (R122, R398). -/
theorem State.foldl_writeSramPart (fuel : Nat) : ∀ (s : State) (off : Nat) (l : List W8), off % 8 = 0 → l.length % 8 = 0 →
    l.length ≤ fuel → let t := (splitBytes off l fuel).foldl (fun s p => s.writeSramPart p.1 p.2.1 p.2.2 false) s
    (∀ i, t.sramByte i = if off ≤ i ∧ i < off + l.length then l.getD (i - off) 0 else s.sramByte i) ∧ s.SramOnly t := by
  induction fuel with
  | zero =>
    intro s off l _ _ hl
    refine ⟨fun i => ?_, s.mem.sram, s.mem.sramSyn, rfl⟩
    rw [if_neg (by omega)]
    rfl
  | succ fuel ih =>
    intro s off l hoff hlen hl
    cases hcons : l with
    | nil =>
      refine ⟨fun i => ?_, s.mem.sram, s.mem.sramSyn, rfl⟩
      rw [if_neg (by simp)]
      rfl
    | cons b rest =>
      have hlong : 8 ≤ l.length := by
        have : l.length ≠ 0 := by simp [hcons]
        omega
      have htake : (l.take 8).length = 8 := by simp [hlong]
      have hdrop : (l.drop 8).length = l.length - 8 := List.length_drop
      have hsplit : splitBytes off l (fuel + 1) = (off / 8, off % 8, l.take 8) :: splitBytes (off + 8) (l.drop 8) fuel := by
        rw [hcons, splitBytes, ← hcons, hoff, htake]
        simp
      rw [← hcons, hsplit, List.foldl_cons]
      obtain ⟨hbyte, honly⟩ := ih (s.writeSramPart (off / 8) (off % 8) (l.take 8) false) (off + 8) (l.drop 8) (by omega)
        (by omega) (by omega)
      refine ⟨fun i => ?_, (s.sramOnly_writeSramPart _ _ htake).trans honly⟩
      rw [hbyte, State.sramByte_writeSramPart _ _ _ htake, hdrop]
      have hword : 8 * (off / 8) = off := by omega
      rw [hword]
      by_cases hlo : off ≤ i ∧ i < off + 8
      · rw [if_neg (by omega), if_pos hlo, if_pos (by omega)]
        simp [List.getD_eq_getElem?_getD, show i - off < 8 by omega]
      · rw [if_neg hlo]
        by_cases hhi : off + 8 ≤ i ∧ i < off + 8 + (l.length - 8)
        · rw [if_pos hhi, if_pos (by omega)]
          simp [List.getD_eq_getElem?_getD, List.getElem?_drop, show 8 + (i - (off + 8)) = i - off by omega]
        · rw [if_neg hhi, if_neg (by omega)]

end Sys2Proof.Machine
end

section
namespace Sys2Proof.Machine

/-! ### Retention slots (R122, R123, R128) -/

/-- Only the SRAM, registers at the offsets of `l`, channel `m` and the record of the events sent may differ. -/
structure SlotFrame (s t : State) (m : Act) (l : List Nat) : Prop where
  dram : t.mem.dram = s.mem.dram
  thrs : t.thrs = s.thrs
  other : t.med (1 - m.val) = s.med (1 - m.val)
  regsBut : RegsBut s t l

theorem MedOnly.slotFrame {s t : State} {m : Act} {l : List Nat} (h : MedOnly s t m l) : SlotFrame s t m l :=
  ⟨by rw [h.mem], h.thrs, h.2.1, h.2.2⟩

theorem State.SramOnly.slotFrame {s t : State} (h : s.SramOnly t) (m : Act) (l : List Nat) : SlotFrame s t m l := by
  obtain ⟨_, _, rfl⟩ := h
  exact ⟨rfl, rfl, rfl, fun _ _ => rfl⟩

theorem State.SramOnly.med {s t : State} (h : s.SramOnly t) (n : Nat) : t.med n = s.med n := by
  obtain ⟨_, _, rfl⟩ := h
  rfl

theorem State.SramOnly.reg {s t : State} (h : s.SramOnly t) (o : Nat) : t.reg o = s.reg o := by
  obtain ⟨_, _, rfl⟩ := h
  rfl

theorem SlotFrame.trans {s t u : State} {m : Act} {l : List Nat} (h : SlotFrame s t m l) (h' : SlotFrame t u m l) :
    SlotFrame s u m l :=
  ⟨h'.dram.trans h.dram, h'.thrs.trans h.thrs, h'.other.trans h.other, fun o ho => (h'.regsBut o ho).trans (h.regsBut o ho)⟩

theorem SlotFrame.mono {s t : State} {m : Act} {l l' : List Nat} (h : SlotFrame s t m l) (hl : l ⊆ l') : SlotFrame s t m l' :=
  ⟨h.dram, h.thrs, h.other, fun o ho => h.regsBut o fun hmem => ho (hl hmem)⟩

theorem slotHolds_congr {s t u : State} {m : Act} {k : Nat} {l : List W8} (h : SlotHolds s t m k l)
    (hbyte : ∀ i, u.sramByte i = t.sramByte i) : SlotHolds s u m k l :=
  ⟨fun i hi => (hbyte _).trans (h.1 i hi), fun a ha => (hbyte a).trans (h.2 a ha)⟩

/-- A slot filled after a step that leaves memory as it is. -/
theorem SlotHolds.after {s t u : State} {m : Act} {k : Nat} {l : List W8} (h : SlotHolds u t m k l) (hmem : u.mem = s.mem) :
    SlotHolds s t m k l :=
  ⟨h.1, fun a ha => (h.2 a ha).trans (by rw [State.sramByte, hmem, State.sramByte])⟩

section
variable (s : State) (m : Act) {k : Nat} (hk : k < 16)

theorem State.length_readerBytes (s : State) (m r : Nat) (l : List W8) : (s.readerBytes m r l).length = 36808 := by
  unfold State.readerBytes
  split
  · exact length_sliceB ..
  · exact List.length_replicate

/-- What a slot stores of the samples of its three readers (R122). -/
def State.slotBytes (s : State) (m : Nat) (smp : List (List W8)) : List W8 :=
  (List.range 3).flatMap fun r => s.readerBytes m r (smp.getD r [])

theorem State.length_slotBytes (s : State) (m : Nat) (smp : List (List W8)) : (s.slotBytes m smp).length = 110424 := by
  simp [State.slotBytes, State.length_readerBytes, List.range_succ]

/-- Samples stored fill their slot and nothing else (R122, R123). -/
theorem State.slotFill_sram (s : State) (m : Act) (k : Nat) (smp : List (List W8)) :
    SlotHolds s (s.sramFill (slotBase m k) (s.slotBytes m smp)) m k (s.slotBytes m smp) ∧
      s.SramOnly (s.sramFill (slotBase m k) (s.slotBytes m smp)) := by
  have hlen := s.length_slotBytes m smp
  obtain ⟨hbyte, honly⟩ := State.foldl_writeSramPart ((s.slotBytes m smp).length + 1) s (slotBase m k) (s.slotBytes m smp)
    (by simp only [slotBase]; omega) (by omega) (by omega)
  refine ⟨⟨fun i hi => ?_, fun a ha => ?_⟩, honly⟩
  · refine (hbyte _).trans ?_
    rw [if_pos (by omega), Nat.add_sub_cancel_left]
  · exact (hbyte _).trans (if_neg (by omega))

/-- The registers that a capture writes are different ones. -/
theorem slotRegs_ne (m k : Nat) : Reg.MCA_RET_SLOT_A m k ≠ Reg.MCA_RET_SLOT_B m k ∧
    Reg.MCA_RET_NEXT m ≠ Reg.MCA_RET_SLOT_A m k ∧ Reg.MCA_RET_NEXT m ≠ Reg.MCA_RET_SLOT_B m k := by
  simp only [Reg.MCA_RET_SLOT_A, Reg.MCA_RET_SLOT_B, Reg.MCA_RET_NEXT]
  omega

include hk

/-- What storing samples leaves (R122, R123). -/
theorem State.slotStore_spec (smp : List (List W8)) : let t := s.slotStore m k smp
    SlotHolds s t m k (s.slotBytes m smp) ∧ t.fld (Reg.MCA_RET_NEXT m) 0 4 = k ∧ (∀ n, t.med n = s.med n) ∧
      SlotFrame s t m [Reg.MCA_RET_NEXT m] := by
  obtain ⟨hholds, honly⟩ := s.slotFill_sram m k smp
  refine ⟨hholds, ?_, fun n => honly.med n, (honly.slotFrame m _).trans ((MedOnly.refl _ m _).setReg (by simp) _).slotFrame⟩
  rw [State.fld, State.slotStore, State.reg_setFld, if_pos rfl]
  exact getF_setF _ hk (by decide)

/-- What a capture into a slot leaves (R122, R123). -/
theorem State.slotFill_spec (cyl head sect : Nat) (smp : List (List W8)) (start : Int) (pin : Bool) :
    let t := s.slotFill m k cyl head sect smp start pin
    SlotHolds s t m k (s.slotBytes m smp) ∧ t.reg (Reg.MCA_RET_SLOT_A m k) = BitVec.ofNat 32 cyl ∧
      t.reg (Reg.MCA_RET_SLOT_B m k) = bit 31 ||| (if pin then bit 30 else 0) ||| BitVec.ofNat 32 (head * 2 ^ 16 + sect) ∧
      t.fld (Reg.MCA_RET_NEXT m) 0 4 = k ∧
      t.med m = { s.med m with slotStart := smSet (s.med m).slotStart k start } ∧
      SlotFrame s t m [Reg.MCA_RET_SLOT_A m k, Reg.MCA_RET_SLOT_B m k, Reg.MCA_RET_NEXT m] := by
  obtain ⟨hab, hna, hnb⟩ := slotRegs_ne m k
  obtain ⟨hholds, hnext, hmed, hframe⟩ := s.slotStore_spec m hk smp
  unfold State.slotFill
  generalize s.slotStore m k smp = u at hholds hnext hmed hframe
  refine ⟨slotHolds_congr hholds fun i => State.sramByte_setMed .., ?_, ?_, ?_, ?_, ?_⟩
  · rw [State.reg_setMed, State.reg_setReg, if_neg hab, State.reg_setReg, if_pos rfl]
  · rw [State.reg_setMed, State.reg_setReg, if_pos rfl]
  · rw [State.fld, State.reg_setMed, State.reg_setReg, if_neg hnb, State.reg_setReg, if_neg hna]
    exact hnext
  · rw [State.med_setMed, State.med_setReg, State.med_setReg, hmed]
  · exact (hframe.mono (by simp)).trans
      ((((MedOnly.refl u m _).setReg (by simp) _).setReg (by simp) _).setMed _).slotFrame

/-- What averaging a reread into a slot leaves (R128). -/
theorem State.slotAverage_spec (smp : List (List W8)) (start : Int) : let t := s.slotAverage m k smp start
    t.fld (Reg.MCA_RET_SLOT_B m k) 26 4 = min 16 (s.fld (Reg.MCA_RET_SLOT_B m k) 26 4 + 2) - 1 ∧
      (∀ n, t.med n = s.med n) ∧ SlotFrame s t m [Reg.MCA_RET_SLOT_B m k, Reg.MCA_RET_NEXT m] := by
  unfold State.slotAverage
  dsimp only
  generalize (List.zipWith _ _ _ : List (List W8)) = avg
  obtain ⟨hholds, hnext, hmed, hframe⟩ := s.slotStore_spec m hk avg
  generalize s.slotStore m k avg = u at hholds hnext hmed hframe
  refine ⟨?_, fun n => hmed n, (hframe.mono (by simp)).trans ((MedOnly.refl u m _).setReg (by simp) _).slotFrame⟩
  rw [State.fld, State.reg_setFld, if_pos rfl]
  exact getF_setF _ (by omega) (by decide)

end

end Sys2Proof.Machine
end

section
namespace Sys2Proof.Machine

/-! ### What the signal path reads (R98 to R120): the zone entry and registers other than the channel's status -/

/-- The zone entry in force and every register but MCA_STATUS are the same, so the signal path of channel `m` is. -/
structure State.SignalKept (s t : State) (m : Nat) : Prop where
  zone : (t.med m).zone = (s.med m).zone
  reg : ∀ o, o ≠ Reg.MCA_STATUS m → t.reg o = s.reg o

theorem State.signalKept_setMed {s : State} {m : Nat} {x : Med} (hx : x.zone = (s.med m).zone) :
    s.SignalKept (s.setMed m x) m :=
  ⟨by rw [State.med_setMed, hx], fun o _ => State.reg_setMed ..⟩

namespace State.SignalKept

variable {s t u : State} {m : Nat}

theorem trans (h : s.SignalKept t m) (h' : t.SignalKept u m) : s.SignalKept u m :=
  ⟨h'.zone.trans h.zone, fun o ho => (h'.reg o ho).trans (h.reg o ho)⟩

theorem orStatus (s : State) (m : Nat) (v : W32) : s.SignalKept (s.orReg (Reg.MCA_STATUS m) v) m :=
  ⟨rfl, fun _ ho => (s.reg_orReg ..).trans (if_neg ho)⟩

variable (h : s.SignalKept t m)
include h

theorem fld {o : Nat} (ho : o ≠ Reg.MCA_STATUS m) (lo len : Nat) : t.fld o lo len = s.fld o lo len := by
  rw [State.fld, State.fld, h.reg o ho]

theorem rbit {o : Nat} (ho : o ≠ Reg.MCA_STATUS m) (i : Nat) : t.rbit o i = s.rbit o i := by
  rw [State.rbit, State.rbit, h.reg o ho]

theorem zoneF (o n : Nat) : t.zoneF m o n = s.zoneF m o n := by rw [State.zoneF, State.zoneF, h.zone]

theorem zHead : t.zHead m = s.zHead m := h.fld (by simp [Reg.MCA_ZONE_STAT, Reg.MCA_STATUS]) ..

theorem reader (r : Nat) : t.reader m r = s.reader m r := by
  unfold State.reader
  rw [h.zHead]
  exact h.rbit (by simp only [Reg.MCA_RDR_MASK, Reg.MCA_STATUS]; omega) _

theorem noReaders : t.noReaders m = s.noReaders m := by simp only [State.noReaders, h.reader]

theorem readerBytes (r : Nat) (l : List W8) : t.readerBytes m r l = s.readerBytes m r l := by
  simp only [State.readerBytes, h.reader]

theorem slotBytes (smp : List (List W8)) : t.slotBytes m smp = s.slotBytes m smp := by
  simp only [State.slotBytes, h.readerBytes]

theorem rdr (r : Nat) (taps : List Int) : t.rdr m r taps = s.rdr m r taps := by
  simp only [State.rdr, h.reader, h.zoneF]

theorem tap (i : Nat) : t.reg (Reg.MCA_LIVE_TAP m i) = s.reg (Reg.MCA_LIVE_TAP m i) :=
  h.reg _ (by simp only [Reg.MCA_LIVE_TAP, Reg.MCA_STATUS]; omega)

theorem readers (k : TapSet) : t.readers m k = s.readers m k := by
  simp only [State.readers, h.rdr, h.zoneF, h.tap]

theorem target (k : TapSet) : t.target m k = s.target m k := by simp only [State.target, h.zoneF]

theorem frontSet : t.frontSet m = s.frontSet m := by
  have hne : Reg.MCA_DEFECT_CFG m ≠ Reg.MCA_STATUS m := by simp [Reg.MCA_DEFECT_CFG, Reg.MCA_STATUS]
  simp only [State.frontSet, h.zoneF, h.rbit hne]

theorem sample (cap : Capture) : t.sample m cap = s.sample m cap := by
  simp only [State.sample, h.readers, h.target, h.frontSet]

theorem arbOf (k : TapSet) (smp : List (List W8)) : t.arbOf m k smp = s.arbOf m k smp := by
  simp only [State.arbOf, State.metrics, State.arb, State.syncWin, State.syncThr, h.zoneF, h.readers, h.target]

theorem ladder (e lo len : Nat) : t.fld (Reg.MCA_LADDER m e) lo len = s.fld (Reg.MCA_LADDER m e) lo len :=
  h.fld (by simp only [Reg.MCA_LADDER, Reg.MCA_STATUS]; omega) ..

theorem ladMode (e : Nat) : t.ladMode m e = s.ladMode m e := h.ladder ..

theorem memDecode (k : TapSet) (smp : List (List W8)) (start : Int) (ranges : List (Nat × Nat)) (passes per : Nat) :
    t.memDecode m k smp start ranges passes per = s.memDecode m k smp start ranges passes per := by
  simp only [State.memDecode, h.readers, h.target]

theorem slipSearch (cyl sect : Nat) (x : Sect) (smp : List (List W8)) :
    t.slipSearch m cyl sect x smp = s.slipSearch m cyl sect x smp := by
  simp only [State.slipSearch, State.ladSlipIt, State.ladPasses, State.ladIter, h.memDecode, h.ladder]

theorem ladDecode (a : ActRd) (x : Sect) (smp : List (List W8)) : t.ladDecode m a x smp = s.ladDecode m a x smp := by
  simp only [State.ladDecode, State.ladPasses, State.ladIter, h.ladMode, h.slipSearch, h.memDecode, h.ladder]

theorem slotB (k : Nat) : t.reg (Reg.MCA_RET_SLOT_B m k) = s.reg (Reg.MCA_RET_SLOT_B m k) :=
  h.reg _ (by simp only [Reg.MCA_RET_SLOT_B, Reg.MCA_STATUS]; omega)

theorem slotPinned (k : Nat) : t.slotPinned m k = s.slotPinned m k := by
  rw [State.slotPinned, State.slotPinned, State.rbit, State.rbit, h.slotB]

theorem slotOf (cyl head sect : Nat) : t.slotOf m cyl head sect = s.slotOf m cyl head sect := by
  have hslotA (k : Nat) : t.reg (Reg.MCA_RET_SLOT_A m k) = s.reg (Reg.MCA_RET_SLOT_A m k) :=
    h.reg _ (by simp only [Reg.MCA_RET_SLOT_A, Reg.MCA_STATUS]; omega)
  simp only [State.slotOf, State.fld, h.slotPinned, h.slotB, hslotA]

theorem nextSlot : t.nextSlot m = s.nextSlot m := by
  have hne : Reg.MCA_RET_NEXT m ≠ Reg.MCA_STATUS m := by simp [Reg.MCA_RET_NEXT, Reg.MCA_STATUS]
  simp only [State.nextSlot, h.fld hne, h.slotPinned]

end State.SignalKept

/-- Slots are numbered below 16. -/
theorem State.nextSlot_lt (s : State) (m : Nat) : s.nextSlot m < 16 := by
  unfold State.nextSlot
  dsimp only
  cases hfind : ((List.range 16).map fun i => (s.fld (Reg.MCA_RET_NEXT m) 0 4 + 1 + i) % 16).find? fun k => !(s.slotPinned m k) with
  | none => exact Nat.mod_lt _ (by decide)
  | some k =>
    obtain ⟨i, -, rfl⟩ := List.mem_map.1 (List.mem_of_find?_eq_some hfind)
    exact Nat.mod_lt _ (by decide)

end Sys2Proof.Machine
end

section
namespace Sys2Proof.Machine

/-! ### A sector passes under the head (R112, R121 to R123, R136, R138) -/

section
variable {s : State} {m : Act} {a : ActRd}

theorem State.sectorCapture_overrun (h : (s.med m).rd = some a) (habort : a.abort = false) (hover : a.overrun = false)
    (hnext : a.next < a.run.count) (hon : s.rbit (Reg.MCA_CTRL m) 0 = true) (hfull : 4 ≤ a.out.length) (cap : Capture) :
    s.sectorCapture m cap = s.rdRun m fun a => { a with overrun := true } := by
  have hwait : ¬ ((a.abort || a.overrun || decide (a.run.count ≤ a.next) || !(s.rbit (Reg.MCA_CTRL m) 0)) = true) := by
    simp [habort, hover, hon, hnext]
  have hrd : ((s.rdRun m fun a => { a with overrun := true }).med m).rd = some { a with overrun := true } := by
    rw [s.med_rdRun m h]
  have hout : a.out ≠ [] := fun hnil => by simp [hnil] at hfull
  have hall : a.full = true := by simp [ActRd.full, hfull]
  rw [State.sectorCapture, h]
  exact (if_neg hwait).trans ((if_pos hall).trans (State.rdEndCheck_goesOn hrd (.inr (.inr hout))))

/-- The span of a sector ends and its capture begins (R136). -/
def State.captureBegun (s : State) (m : Nat) : State := (s.spanOff m).2.rdRun m fun a => { a with next := a.next + 1 }

theorem State.med_captureBegun (h : (s.med m).rd = some a) : (s.captureBegun m).med m = { s.med m with
    offSeen := s.rbit (Reg.GYL_ACT_QUAL m) 0, rd := some { a with next := a.next + 1 } } := by
  have hspan : (s.spanOff m).2.med m = { s.med m with offSeen := s.rbit (Reg.GYL_ACT_QUAL m) 0 } := State.med_setMed ..
  rw [State.captureBegun, State.med_rdRun (a := a) _ _ (by rw [hspan, h]), hspan]

theorem State.captureBegun_medOnly (s : State) (m : Act) (l : List Nat) : MedOnly s (s.captureBegun m) m l :=
  ((MedOnly.refl s m l).setMed _).rdRun _

theorem State.signalKept_captureBegun (h : (s.med m).rd = some a) : s.SignalKept (s.captureBegun m) m :=
  ⟨by rw [State.med_captureBegun h], fun o _ => (s.captureBegun_medOnly m []).2.2 o List.not_mem_nil⟩

/-- The rest of a capture: the sector ends unsampled (R108, R136), or is sampled and taken (R101). -/
def State.captureRest (s : State) (m : Nat) (a : ActRd) (off : Bool) (cap : Capture) : State :=
  let x := { Sect.fresh a.next 0 with offTrack := off }
  if s.noReaders m then s.sectEnd m x 0x15 0xFF []
  else if off ∧ s.rbit (Reg.MCA_CTRL m) 7 then s.sectEnd m x 0x16 0xFF []
  else
    let (loops, smp) := s.sample m cap
    (s.setMed m { s.med m with loops := loops }).sectorTake m a x smp (s.gain30 m cap)

theorem State.sectorCapture_begins (h : (s.med m).rd = some a) (habort : a.abort = false) (hover : a.overrun = false)
    (hnext : a.next < a.run.count) (hon : s.rbit (Reg.MCA_CTRL m) 0 = true) (hroom : a.out.length < 4) (cap : Capture) :
    s.sectorCapture m cap = (s.captureBegun m).captureRest m a (s.spanOff m).1 cap := by
  have hgo : ¬ ((a.abort || a.overrun || decide (a.run.count ≤ a.next) || !(s.rbit (Reg.MCA_CTRL m) 0)) = true) := by
    simp [habort, hover, hon, hnext]
  have hfree : ¬ a.full = true := by simp [ActRd.full, hroom]
  rw [State.sectorCapture, h]
  refine (if_neg hgo).trans ((if_neg hfree).trans ?_)
  unfold State.captureBegun
  obtain ⟨off, u⟩ := s.spanOff m
  rfl

theorem State.captureRest_sampled (hmask : s.noReaders m = false) (hgate : s.rbit (Reg.MCA_CTRL m) 7 = false) (a : ActRd)
    (off : Bool) (cap : Capture) : s.captureRest m a off cap =
      (s.setMed m { s.med m with loops := (s.sample m cap).1 }).sectorTake m a { Sect.fresh a.next 0 with offTrack := off }
        (s.sample m cap).2 (s.gain30 m cap) := by
  rw [State.captureRest]
  refine (if_neg (by simp [hmask])).trans ((if_neg (by simp [hgate])).trans ?_)
  obtain ⟨loops, smp⟩ := s.sample m cap
  rfl

/-- With no leading reader enabled a sector ends with status 0x15 (R108). -/
theorem State.sectorCapture_masked (h : (s.med m).rd = some a) (habort : a.abort = false) (hover : a.overrun = false)
    (hnext : a.next < a.run.count) (hon : s.rbit (Reg.MCA_CTRL m) 0 = true) (hroom : a.out.length < 4)
    (hmask : s.noReaders m = true) (cap : Capture) : let t := s.sectorCapture m cap
    ∃ rc, RecordOf rc a.run.cyl (a.run.start + a.next) 0x15 a.next (List.replicate 32 0) ∧
      (t.med m).rd = some { a with next := a.next + 1, out := a.out ++ [⟨a.next, 0x15, rc, none⟩] } ∧
      MedOnly s t m (sectRegs m) := by
  have hkept := State.signalKept_captureBegun h
  rw [State.sectorCapture_begins h habort hover hnext hon hroom]
  rw [State.captureRest, if_pos (hkept.noReaders.trans hmask)]
  obtain ⟨rc, hrc, hrd, -, honly⟩ := State.sectEnd_failed (s := s.captureBegun m) (by rw [State.med_captureBegun h])
    (x := { Sect.fresh a.next 0 with offTrack := (s.spanOff m).1 }) (by decide : (0 : Nat) < 16) (by decide : 0x15 < 256) rfl 0xFF []
  exact ⟨rc, hrc, hrd, (s.captureBegun_medOnly m _).trans honly⟩

/-- What the defect detector changes of a sector and of the state (R115 to R117). -/
theorem State.sectDefects_spec (s : State) (m : Act) (x : Sect) (smp : List (List W8)) (alt : Bool) :
    ∃ ranges ta drop t, s.sectDefects m x smp alt = ({ x with ranges := ranges, ta := ta, drop := drop }, t) ∧
      (∀ n, t.med n = s.med n) ∧ (∀ i, t.sramByte i = s.sramByte i) ∧ s.SignalKept t m ∧ MedOnly s t m [Reg.MCA_STATUS m] := by
  unfold State.sectDefects
  generalize s.defects m smp alt = d
  refine ⟨d.1, x.ta || d.2.1, x.drop || d.2.2, _, rfl, ?_⟩
  split
  · exact ⟨fun _ => rfl, fun _ => rfl, .orStatus .., (MedOnly.refl s m _).setReg (by simp) _⟩
  · exact ⟨fun _ => rfl, fun _ => rfl, ⟨rfl, fun _ _ => rfl⟩, .refl ..⟩

theorem State.sectorTake_eq {r : ActRd} {x : Sect} {smp : List (List W8)} (hmark : (s.arbOf m .live smp).neither = false)
    (hheld : s.slotOf m r.run.cyl (s.zHead m) (r.run.start + x.idx) = none) (gain30 : Bool) :
    s.sectorTake m r x smp gain30 =
      let arb := s.arbOf m .live smp
      let k := s.nextSlot m
      let u := s.slotFill m k r.run.cyl (s.zHead m) (r.run.start + x.idx) smp arb.start false
      let d := u.sectDefects m { (x.withArb arb) with slot := k, pinned := false, smp := smp } smp false
      d.2.rdRun m fun a => { a with fly := a.fly ++ [d.1] } := by
  have hblank (t : State) : t.isBlank m gain30 smp (s.arbOf m .live smp) = false := by simp [State.isBlank, hmark]
  unfold State.sectorTake
  simp only [hheld, hmark, hblank, Option.isSome_none, Option.getD_none]
  rfl

/-- A sector with its mark found goes into a slot and waits for its decode (R119, R121 to R123). -/
theorem State.sectorTake_found {r : ActRd} {x : Sect} {smp : List (List W8)} (h : (s.med m).rd = some a)
    (hmark : (s.arbOf m .live smp).neither = false)
    (hheld : s.slotOf m r.run.cyl (s.zHead m) (r.run.start + x.idx) = none) (gain30 : Bool) :
    let t := s.sectorTake m r x smp gain30
    let k := s.nextSlot m
    ∃ y, (t.med m).rd = some { a with fly := a.fly ++ [y] } ∧ y.idx = x.idx ∧ y.slot = k ∧
      y.start = (s.arbOf m .live smp).start ∧ y.smp = smp ∧ y.pinned = false ∧ y.inBuf = x.inBuf ∧
      (t.med m).loops = (s.med m).loops ∧ SlotHolds s t m k (s.slotBytes m smp) ∧
      t.reg (Reg.MCA_RET_SLOT_A m k) = BitVec.ofNat 32 r.run.cyl ∧
      t.reg (Reg.MCA_RET_SLOT_B m k) = 0x80000000 ||| BitVec.ofNat 32 (s.zHead m * 2 ^ 16 + (r.run.start + x.idx)) ∧
      t.fld (Reg.MCA_RET_NEXT m) 0 4 = k ∧
      SlotFrame s t m [Reg.MCA_RET_SLOT_A m k, Reg.MCA_RET_SLOT_B m k, Reg.MCA_RET_NEXT m, Reg.MCA_STATUS m] := by
  rw [State.sectorTake_eq hmark hheld]
  dsimp only
  have hk := s.nextSlot_lt m
  generalize s.nextSlot m = k at hk
  have hfill := s.slotFill_spec m hk r.run.cyl (s.zHead m) (r.run.start + x.idx) smp (s.arbOf m .live smp).start false
  dsimp only at hfill
  generalize s.slotFill m k r.run.cyl (s.zHead m) (r.run.start + x.idx) smp (s.arbOf m .live smp).start false = u at hfill ⊢
  obtain ⟨hholds, hslotA, hslotB, hnext, hmed, hframe⟩ := hfill
  obtain ⟨rg, ta, dr, w, hfound, hdmed, hbyte, hkept, honly⟩ := u.sectDefects_spec m
    { (x.withArb (s.arbOf m .live smp)) with slot := k, pinned := false, smp := smp } smp false
  rw [hfound]
  have hrd : (w.med m).rd = some a := by rw [hdmed, hmed, h]
  refine ⟨_, congrArg Med.rd (w.med_rdRun m hrd _), rfl, rfl, rfl, rfl, rfl, rfl, ?_, ?_, ?_, ?_, ?_, ?_⟩
  · rw [w.med_rdRun m hrd, hdmed, hmed]
  · exact slotHolds_congr hholds fun i => (State.sramByte_setMed ..).trans (hbyte i)
  · rw [State.reg_rdRun, hkept.reg _ (by simp only [Reg.MCA_RET_SLOT_A, Reg.MCA_STATUS]; omega), hslotA]
  · rw [State.reg_rdRun, hkept.slotB, hslotB]
    rfl
  · rw [State.fld, State.reg_rdRun, hkept.reg _ (by simp [Reg.MCA_RET_NEXT, Reg.MCA_STATUS])]
    exact hnext
  · exact (hframe.mono (by simp)).trans (((honly.rdRun _).mono (by simp)).slotFrame)

/-- A sector of the run that is sampled and found (R101, R119, R121 to R123). -/
theorem State.sectorCapture_found (h : (s.med m).rd = some a) (habort : a.abort = false) (hover : a.overrun = false)
    (hnext : a.next < a.run.count) (hon : s.rbit (Reg.MCA_CTRL m) 0 = true) (hroom : a.out.length < 4)
    (hmask : s.noReaders m = false) (hgate : s.rbit (Reg.MCA_CTRL m) 7 = false) {cap : Capture}
    (hmark : (s.arbOf m .live (s.sample m cap).2).neither = false)
    (hheld : s.slotOf m a.run.cyl (s.zHead m) (a.run.start + a.next) = none) :
    let t := s.sectorCapture m cap
    let smp := (s.sample m cap).2
    let k := s.nextSlot m
    ∃ x, (t.med m).rd = some { a with next := a.next + 1, fly := a.fly ++ [x] } ∧ x.idx = a.next ∧ x.slot = k ∧
      x.start = (s.arbOf m .live smp).start ∧ x.smp = smp ∧ x.pinned = false ∧ x.inBuf = false ∧
      (t.med m).loops = (s.sample m cap).1 ∧ SlotHolds s t m k (s.slotBytes m smp) ∧
      t.reg (Reg.MCA_RET_SLOT_A m k) = BitVec.ofNat 32 a.run.cyl ∧
      t.reg (Reg.MCA_RET_SLOT_B m k) = 0x80000000 ||| BitVec.ofNat 32 (s.zHead m * 2 ^ 16 + (a.run.start + a.next)) ∧
      t.fld (Reg.MCA_RET_NEXT m) 0 4 = k ∧
      SlotFrame s t m [Reg.MCA_RET_SLOT_A m k, Reg.MCA_RET_SLOT_B m k, Reg.MCA_RET_NEXT m, Reg.MCA_STATUS m] := by
  have hbegun := State.signalKept_captureBegun h
  have hctrl : Reg.MCA_CTRL m ≠ Reg.MCA_STATUS m := by simp [Reg.MCA_CTRL, Reg.MCA_STATUS]
  rw [State.sectorCapture_begins h habort hover hnext hon hroom,
    State.captureRest_sampled (hbegun.noReaders.trans hmask) ((hbegun.rbit hctrl 7).trans hgate), hbegun.sample]
  generalize s.sample m cap = q at hmark ⊢
  obtain ⟨loops, smp⟩ := q
  generalize hu : (s.captureBegun m).setMed m { (s.captureBegun m).med m with loops := loops } = u
  have hkept : s.SignalKept u m := hu ▸ hbegun.trans (State.signalKept_setMed rfl)
  have honly (l : List Nat) : MedOnly s u m l := hu ▸ (s.captureBegun_medOnly m l).setMed _
  have hmed : u.med m = { (s.captureBegun m).med m with loops := loops } := by rw [← hu, State.med_setMed]
  have hrd : (u.med m).rd = some { a with next := a.next + 1 } := by rw [hmed, State.med_captureBegun h]
  have hloops : (u.med m).loops = loops := by rw [hmed]
  have hfound := State.sectorTake_found (r := a) (x := { Sect.fresh a.next 0 with offTrack := (s.spanOff m).1 }) hrd
    ((congrArg Arb.neither (hkept.arbOf ..)).trans hmark) (by rw [hkept.slotOf, hkept.zHead]; exact hheld)
    ((s.captureBegun m).gain30 m cap)
  rw [hkept.arbOf, hkept.nextSlot, hkept.zHead, hkept.slotBytes, hloops] at hfound
  obtain ⟨x, hrd, hidx, hslot, hstart, hsmp, hpin, hbuf, hl, hholds, hslotA, hslotB, hnextSlot, hframe⟩ := hfound
  exact ⟨x, hrd, hidx, hslot, hstart, hsmp, hpin, hbuf, hl, hholds.after (honly []).mem, hslotA, hslotB, hnextSlot,
    (honly _).slotFrame.trans hframe⟩

end

end Sys2Proof.Machine
end

section
namespace Sys2Proof.Machine

/-! ### Decodes on the fly (R109, R112, R113, R126) -/

section
variable {s : State} {m : Act} {a : ActRd} {x : Sect}

/-- A sector that waits enters the elastic buffer while it has room (R112). -/
theorem State.otfStart_enters (h : (s.med m).rd = some a) (hroom : (a.fly.filter (·.inBuf)).length < 4)
    (hx : a.fly.find? (fun y => !y.inBuf) = some x) : s.otfStart m =
      s.rdRun m fun a => { a with fly := a.fly.map fun y => if y.idx = x.idx then { y with inBuf := true } else y } := by
  rw [State.otfStart, h]
  refine (if_neg (Nat.not_le.2 hroom)).trans ?_
  rw [hx]

/-- The registers of the live taps. -/
def tapRegs (m : Act) : List Nat := (List.range 39).map (Reg.MCA_LIVE_TAP m)

theorem State.adapt_spec (s : State) (m : Act) (lms : List Int) : let t := s.adapt m lms
    (t.med m).rd = (s.med m).rd ∧ MedOnly s t m (tapRegs m) := by
  unfold State.adapt
  split
  · refine ⟨?_, MedOnly.setTaps ((MedOnly.refl s m _).setMed _) (List.Subset.refl _) _⟩
    refine (congrArg Med.rd (State.med_setTaps ..)).trans ?_
    rw [State.med_setMed]
  · exact ⟨rfl, .refl ..⟩

/-- The oldest sector leaves for its decode, and the taps adapt (R109, R113). -/
def State.otfTaken (s : State) (m : Nat) (rest : List Sect) (lms : List Int) : State :=
  (s.rdRun m fun a => { a with fly := rest }).adapt m lms

theorem State.otfTaken_spec (h : (s.med m).rd = some a) (rest : List Sect) (lms : List Int) : let t := s.otfTaken m rest lms
    (t.med m).rd = some { a with fly := rest } ∧ MedOnly s t m (tapRegs m) := by
  obtain ⟨hrd, honly⟩ := (s.rdRun m fun a => { a with fly := rest }).adapt_spec m lms
  exact ⟨hrd.trans (congrArg Med.rd (s.med_rdRun m h _)), ((MedOnly.refl s m _).rdRun _).trans honly⟩

theorem State.otfEnd_decodes (h : (s.med m).rd = some a) {rest : List Sect} (hfly : a.fly = x :: rest) (hbuf : x.inBuf = true)
    (hroom : a.out.length < 4) {full : Nat} {d : Decode} {mse : Nat} {lms : List Int}
    (hdec : s.flyDecode m x (otfLimit a full) = (d, mse, lms)) : s.otfEnd m full =
      ((s.otfTaken m rest lms).otfFinish m a x d mse).rdEndCheck m := by
  have hgo : ¬ ((!x.inBuf || a.full) = true) := by simp [hbuf, ActRd.full, hroom]
  rw [State.otfEnd, h]
  dsimp only
  rw [hfly]
  refine (if_neg hgo).trans ?_
  rw [hdec]
  rfl

/-- The findings of a decode that a sector takes up. -/
def Sect.decodedAs (x : Sect) (d : Decode) (mse : Nat) : Sect :=
  { x with iter := d.iters, unsat1 := d.unsat1, mse := if x.decoded then x.mse else mse
           decoded := true, erased := erasedBits x.start x.ranges }

theorem State.otfFinish_good {d : Decode} (hconv : d.conv = true) {p : List W8}
    (hp : decodedPayload a.run.cyl (a.run.start + x.idx) d = p) (hcheck : payloadCheck p = 0) (mse : Nat) :
    s.otfFinish m a x d mse = s.sectEnd m (x.decodedAs d mse) 0 0xFF p := by
  subst hp
  unfold State.otfFinish
  refine (if_neg (by simp [hconv])).trans ?_
  exact if_pos hcheck

theorem State.otfFinish_bad {d : Decode} (hconv : d.conv = false) (mse : Nat) :
    s.otfFinish m a x d mse = s.ladEnter m (x.decodedAs d mse) 2 := by
  unfold State.otfFinish
  exact if_pos (by simp [hconv])

/-- A sector that joins a ladder already busy waits behind the others, pinned where a pin is free (R124, R126). -/
theorem State.ladEnter_waits (h : (s.med m).rd = some a) (habort : a.abort = false) (hlad : a.lad ≠ []) (hslot : x.slot < 16)
    (reason : Nat) : let t := s.ladEnter m x reason
    ∃ y, (t.med m).rd = some { a with lad := a.lad ++ [y] } ∧ y.idx = x.idx ∧ y.reason = reason ∧ y.entry = a.run.lstart ∧
      y.revs = 0 ∧ (y.pinned = true ∨ y.noPin = true ∧ t.rbit (Reg.MCA_STATUS m) 7 = true) ∧ MedOnly s t m (sectRegs m) := by
  have hbusy : ¬ a.lad.isEmpty = true := by simp [hlad]
  have hrefl := MedOnly.refl s m (sectRegs m)
  unfold State.ladEnter
  rw [h]
  dsimp only
  rw [if_neg (by simp [habort])]
  by_cases hheld : s.slotPinned m x.slot = true ∧ x.pinned = true
  · rw [if_pos hheld, if_neg hbusy]
    exact ⟨_, congrArg Med.rd (s.med_rdRun m h _), rfl, rfl, rfl, rfl, .inl hheld.2, hrefl.rdRun _⟩
  · rw [if_neg hheld]
    by_cases hfree : s.pins m < s.pinMax m
    · rw [if_pos hfree, if_neg hbusy]
      exact ⟨_, congrArg Med.rd ((s.setPin m x.slot true).med_rdRun m h _), rfl, rfl, rfl, rfl, .inl rfl,
        (hrefl.setReg (slotB_mem_sectRegs m hslot) _).rdRun _⟩
    · rw [if_neg hfree, if_neg hbusy]
      refine ⟨_, congrArg Med.rd ((s.orReg (Reg.MCA_STATUS m) (bit 7)).med_rdRun m h _), rfl, rfl, rfl, rfl,
        .inr ⟨rfl, ?_⟩,
        (hrefl.setReg (status_mem_sectRegs m) _).rdRun _⟩
      rw [State.rbit, State.reg_rdRun, State.reg_orReg, if_pos rfl, tb_or_bit _ (by decide)]
      simp

end

end Sys2Proof.Machine
end

section
namespace Sys2Proof.Machine

/-! ### The end of a decode on the fly (R109, R112, R113, R126) -/

section
variable {s : State} {m : Act} {a : ActRd} {x : Sect} {rest : List Sect}

theorem cnt_not_mem_tapRegs (m : Act) {j : Nat} (hj : j < 7) : Reg.MCA_CNT m j ∉ tapRegs m := by
  simp only [tapRegs, List.mem_map, List.mem_range, not_exists, not_and, Reg.MCA_CNT, Reg.MCA_LIVE_TAP]
  omega

variable (h : (s.med m).rd = some a) (hfly : a.fly = x :: rest) (hbuf : x.inBuf = true) (hroom : a.out.length < 4)
  (hslot : x.slot < 16) {full : Nat} {d : Decode} {mse : Nat} {lms : List Int}
  (hdec : s.flyDecode m x (otfLimit a full) = (d, mse, lms))
include h hfly hbuf hroom hslot hdec

/-- A decode that converges with good checks ends its sector with status 0 (R113, R133 to R135). -/
theorem State.otfEnd_good (hconv : d.conv = true) {p : List W8}
    (hp : decodedPayload a.run.cyl (a.run.start + x.idx) d = p) (hcheck : payloadCheck p = 0) : let t := s.otfEnd m full
    ∃ rc, RecordOf rc a.run.cyl (a.run.start + x.idx) 0 x.idx (sliceB p 4096 32) ∧
      (t.med m).rd = some { a with fly := rest, out := a.out ++ [⟨x.idx, 0, rc, some (sliceB p 0 4096)⟩] } ∧
      t.reg (Reg.MCA_CNT m 0) = BitVec.ofNat 32 (satAdd (s.reg (Reg.MCA_CNT m 0)).toNat 1 32) ∧
      MedOnly s t m (sectRegs m ++ tapRegs m) := by
  rw [State.otfEnd_decodes h hfly hbuf hroom hdec, State.otfFinish_good hconv hp hcheck]
  obtain ⟨hrd, honly⟩ := State.otfTaken_spec h rest lms
  generalize s.otfTaken m rest lms = u at hrd honly ⊢
  obtain ⟨rc, hrc, hend, -, hframe⟩ := State.sectEnd_good (x := x.decodedAs d mse) hrd hslot (by decide : 0 ≤ 2) 0xFF p
  rw [State.rdEndCheck_goesOn hend (.inr (.inr (by simp)))]
  refine ⟨rc, hrc, hend, ?_, (honly.mono (List.subset_append_right ..)).trans (hframe.mono (List.subset_append_left ..))⟩
  rw [State.reg_cnt_sectEnd (x := x.decodedAs d mse) hrd hslot (by decide), honly.2.2 _ (cnt_not_mem_tapRegs m (by decide))]

/-- A decode that does not converge sends its sector to the ladder with reason 2 (R113, R126). -/
theorem State.otfEnd_bad (hconv : d.conv = false) (habort : a.abort = false) (hlad : a.lad ≠ []) : let t := s.otfEnd m full
    ∃ y, (t.med m).rd = some { a with fly := rest, lad := a.lad ++ [y] } ∧ y.idx = x.idx ∧ y.reason = 2 ∧
      y.entry = a.run.lstart ∧ y.revs = 0 ∧ (y.pinned = true ∨ y.noPin = true ∧ t.rbit (Reg.MCA_STATUS m) 7 = true) ∧
      MedOnly s t m (sectRegs m ++ tapRegs m) := by
  rw [State.otfEnd_decodes h hfly hbuf hroom hdec, State.otfFinish_bad hconv]
  obtain ⟨hrd, honly⟩ := State.otfTaken_spec h rest lms
  generalize s.otfTaken m rest lms = u at hrd honly ⊢
  obtain ⟨y, hent, hidx, hreason, hentry, hrevs, hpin, hframe⟩ :=
    State.ladEnter_waits (x := x.decodedAs d mse) hrd habort hlad hslot 2
  rw [State.rdEndCheck_goesOn hent (.inr (.inl (by simp)))]
  exact ⟨y, hent, hidx, hreason, hentry, hrevs, hpin,
    (honly.mono (List.subset_append_right ..)).trans (hframe.mono (List.subset_append_left ..))⟩

end

end Sys2Proof.Machine
end

section
namespace Sys2Proof.Machine

/-! ### The decode of a ladder entry (R120, R125 to R128) -/

section
variable (s : State) (m : Nat)

/-- Words of a slot upset and read change memory and what a read of it may (R125, R394). -/
theorem State.slotHit_memOnly (k : Nat) (ups : List SlotUpset) : s.MemOnly (s.slotHit m k ups) := by
  unfold State.slotHit
  have hups := (State.MemOnly.refl s).foldl (f := fun s u => s.setSramWord (slotBase m k / 8 + u.word.val)
    ((s.sramWord (slotBase m k / 8 + u.word.val)).upset u.flips)) (fun _ _ hu => hu.change _ _ _) ups
  exact hups.foldl (fun _ _ hu => hu.readSramWord _) _

theorem State.slotHit_memRegs (k : Nat) (ups : List SlotUpset) : s.MemRegs (s.slotHit m k ups) := by
  unfold State.slotHit
  have hups := (State.MemRegs.refl s).foldl (f := fun s u => s.setSramWord (slotBase m k / 8 + u.word.val)
    ((s.sramWord (slotBase m k / 8 + u.word.val)).upset u.flips)) (fun u _ hu => hu.mem _ u.fresh) ups
  exact hups.foldl (fun _ _ hu => hu.readSramWord _) _

/-- The slot of a sector read for its ladder entry, with the words that were upset. -/
def State.retryRead (x : Sect) (ups : List SlotUpset) : State := if x.pinned then s.slotHit m x.slot ups else s

theorem State.med_retryRead (x : Sect) (ups : List SlotUpset) (n : Nat) : (s.retryRead m x ups).med n = s.med n :=
  ((s.slotHit_memOnly m x.slot ups).ite (.refl s) _).med n

theorem State.ladMode_retryRead (x : Sect) (ups : List SlotUpset) (e : Nat) : (s.retryRead m x ups).ladMode m e = s.ladMode m e := by
  have hregs : s.MemRegs (s.retryRead m x ups) := (s.slotHit_memRegs m x.slot ups).ite (.refl s) _
  have hreg := hregs.regsBut (Reg.MCA_LADDER m e) (not_mem_memRegs (by simp only [Reg.MCA_LADDER]; omega))
  rw [State.ladMode, State.fld, hreg]
  rfl

/-- The marks and the defects found in a sector for its ladder entry (R120, R127). -/
def State.retrySect (x : Sect) : Sect × State :=
  let alt := s.ladMode m x.entry == 3
  let smp := s.ladSamples m x
  let y := x.withArb (s.arbOf m (if alt then .alt else .entry) smp)
  if x.pinned then s.sectDefects m y smp alt else (y, s)

end

section
variable {s : State} {m : Act} {a : ActRd} {x : Sect}

theorem State.retryEnd_decodes (h : (s.med m).rd = some a) {rest : List Sect} (hlad : a.lad = x :: rest) (hroom : a.out.length < 4)
    (hmode : (s.ladMode m x.entry ≠ 4 ∧ s.ladMode m x.entry ≠ 5) ∨ x.revsLeft = 0) (ups : List SlotUpset) :
    s.retryEnd m ups =
      let u := s.retryRead m x ups
      let q := u.retrySect m x
      let r := q.2.ladDecode m a q.1 (u.ladSamples m x)
      (q.2.retryFinish m a q.1 r.1 r.2.1 r.2.2).rdEndCheck m := by
  have hgo : ¬ ((s.ladMode m x.entry = 4 ∨ s.ladMode m x.entry = 5) ∧ x.revsLeft ≠ 0 ∨ a.full = true) := by
    simp only [ActRd.full, decide_eq_true_eq]
    omega
  rw [State.retryEnd, h]
  dsimp only
  rw [hlad]
  refine (if_neg hgo).trans ?_
  rw [← s.ladMode_retryRead m x ups]
  simp only [State.retrySect, State.retryRead, beq_iff_eq]
  rfl

theorem State.retrySect_fst (s : State) (m : Act) (x : Sect) : (s.retrySect m x).1 =
    let alt := s.ladMode m x.entry == 3
    let smp := s.ladSamples m x
    let y := x.withArb (s.arbOf m (if alt then .alt else .entry) smp)
    if x.pinned then (s.sectDefects m y smp alt).1 else y := by
  unfold State.retrySect
  split <;> rfl

/-- What the marks and the defects found change of a sector and of the state. -/
theorem State.retrySect_spec (s : State) (m : Act) (x : Sect) : ∃ y t, s.retrySect m x = (y, t) ∧ y.idx = x.idx ∧ y.slot = x.slot ∧
    y.entry = x.entry ∧ y.reread = x.reread ∧ y.pinned = x.pinned ∧ (∀ n, t.med n = s.med n) ∧ s.SignalKept t m ∧
    MedOnly s t m [Reg.MCA_STATUS m] := by
  unfold State.retrySect
  dsimp only
  by_cases hpin : x.pinned = true
  · rw [if_pos hpin]
    obtain ⟨rg, ta, dr, t, hfound, hmed, -, hkept, honly⟩ := s.sectDefects_spec m (x.withArb
      (s.arbOf m (if s.ladMode m x.entry == 3 then .alt else .entry) (s.ladSamples m x))) (s.ladSamples m x) (s.ladMode m x.entry == 3)
    exact ⟨_, t, hfound, rfl, rfl, rfl, rfl, rfl, hmed, hkept, honly⟩
  · rw [if_neg hpin]
    exact ⟨_, s, rfl, rfl, rfl, rfl, rfl, rfl, fun _ => rfl, ⟨rfl, fun _ _ => rfl⟩, .refl ..⟩

/-- The head of the ladder stands at an entry that decodes (R126). -/
theorem State.ladGo_stands (h : (s.med m).rd = some a) {rest : List Sect} (hlad : a.lad = x :: rest) (habort : a.abort = false)
    (hentry : x.entry ≤ 7) (hmode : s.ladMode m x.entry = 1 ∨ s.ladMode m x.entry = 2 ∨ s.ladMode m x.entry = 3)
    (hpin : x.pinned = true) (fuel : Nat) : s.ladGo m fuel = s := by
  cases fuel with
  | zero => rfl
  | succ fuel =>
    rw [State.ladGo, h]
    dsimp only
    rw [hlad]
    dsimp only
    rw [if_neg (by simp [habort]), if_neg (by omega), if_neg (by omega), if_neg (by omega), if_neg (by omega),
      if_neg (by simp [hpin])]

/-- The findings of a ladder entry's decode that a sector takes up. -/
def Sect.retried (x : Sect) (slip : Int) (d : Decode) (mse : Nat) : Sect :=
  { x with iter := d.iters, mse := if x.decoded then x.mse else mse, decoded := true
           erased := erasedBits (x.start + slip) x.ranges }

theorem State.retryFinish_some {slip : Int} {d : Decode} {p : List W8}
    (hgood : goodPayload a.run.cyl (a.run.start + x.idx) d = some p) (mse : Nat) : s.retryFinish m a x slip d mse =
      ((s.ladPop m).sectEnd m { x.retried slip d mse with slip := slip, start := x.start + slip } (if x.reread then 2 else 1)
        x.entry p).ladSettle m := by
  unfold State.retryFinish
  dsimp only
  rw [hgood]
  rfl

theorem State.retryFinish_none {slip : Int} {d : Decode} (hbad : goodPayload a.run.cyl (a.run.start + x.idx) d = none) (mse : Nat) :
    s.retryFinish m a x slip d mse = (s.ladHead m { x.retried slip d mse with entry := x.entry + 1 }).ladSettle m := by
  unfold State.retryFinish
  dsimp only
  rw [hbad]
  rfl

variable (h : (s.med m).rd = some a) (hlad : a.lad = [x]) {y : Sect} {slip : Int} {d : Decode}
include h hlad

/-- A good decode ends the only sector of the ladder, with status 1 or, after a reread, 2 (R126, R133 to R135). -/
theorem State.retryFinish_good (hslot : y.slot < 16) {p : List W8}
    (hgood : goodPayload a.run.cyl (a.run.start + y.idx) d = some p) (mse : Nat) :
    let t := (s.retryFinish m a y slip d mse).rdEndCheck m
    let st := if y.reread then 2 else 1
    ∃ rc, RecordOf rc a.run.cyl (a.run.start + y.idx) st y.idx (sliceB p 4096 32) ∧
      (t.med m).rd = some { a with lad := [], out := a.out ++ [⟨y.idx, st, rc, some (sliceB p 0 4096)⟩] } ∧
      t.reg (Reg.MCA_CNT m st) = BitVec.ofNat 32 (satAdd (s.reg (Reg.MCA_CNT m st)).toNat 1 32) ∧
      MedOnly s t m (sectRegs m) := by
  have hst : (if y.reread then 2 else 1) ≤ 2 := by split <;> decide
  rw [State.retryFinish_some hgood]
  dsimp only
  generalize (if y.reread then 2 else 1) = st at hst ⊢
  have hpop : ((s.ladPop m).med m).rd = some { a with lad := [] } := by
    rw [State.ladPop, s.med_rdRun m h, hlad]
    rfl
  obtain ⟨rc, hrc, hend, -, honly⟩ := State.sectEnd_good
    (x := { y.retried slip d mse with slip := slip, start := y.start + slip }) hpop hslot hst y.entry p
  have hcnt := State.reg_cnt_sectEnd
    (x := { y.retried slip d mse with slip := slip, start := y.start + slip }) hpop hslot hst y.entry p
  rw [State.ladSettle, State.ladGo_nil hend rfl, State.rdEndCheck_goesOn hend (.inr (.inr (by simp)))]
  refine ⟨rc, hrc, hend, ?_, ((MedOnly.refl s m _).rdRun _).trans honly⟩
  rw [hcnt, State.ladPop, State.reg_rdRun]

/-- A bad decode moves the head on to an entry that decodes (R126). -/
theorem State.retryFinish_bad (habort : a.abort = false) (hentry : y.entry < 7) (hpin : y.pinned = true)
    (hmode : s.ladMode m (y.entry + 1) = 1 ∨ s.ladMode m (y.entry + 1) = 2 ∨ s.ladMode m (y.entry + 1) = 3)
    (hbad : goodPayload a.run.cyl (a.run.start + y.idx) d = none) (mse : Nat) :
    let t := (s.retryFinish m a y slip d mse).rdEndCheck m
    ∃ z, (t.med m).rd = some { a with lad := [z] } ∧ z.idx = y.idx ∧ z.slot = y.slot ∧ z.entry = y.entry + 1 ∧ MedOnly s t m [] := by
  rw [State.retryFinish_none hbad]
  have hhead : ((s.ladHead m { y.retried slip d mse with entry := y.entry + 1 }).med m).rd =
      some { a with lad := [{ y.retried slip d mse with entry := y.entry + 1 }] } := by
    rw [State.ladHead, s.med_rdRun m h, hlad]
    rfl
  have hmode' (e : Nat) (z : Sect) : (s.ladHead m z).ladMode m e = s.ladMode m e := by
    rw [State.ladMode, State.fld, State.ladHead, State.reg_rdRun]
    rfl
  rw [State.ladSettle, State.ladGo_stands hhead rfl habort hentry (by rw [hmode']; exact hmode) hpin,
    State.rdEndCheck_goesOn hhead (.inr (.inl (by simp)))]
  exact ⟨_, hhead, rfl, rfl, rfl, (MedOnly.refl s m _).rdRun _⟩

/-- The entry of the ladder's head ends, seen from the state in which its slot has been read. -/
theorem State.retryEnd_found (hroom : a.out.length < 4) {ups : List SlotUpset} {u : State}
    (hu : s.retryRead m x ups = u) (hmode : (u.ladMode m x.entry ≠ 4 ∧ u.ladMode m x.entry ≠ 5) ∨ x.revsLeft = 0) :
    (u.med m).rd = some a ∧ ∃ y t slip mse, s.retryEnd m ups = (t.retryFinish m a y slip
        (u.ladDecode m a (u.retrySect m x).1 (u.ladSamples m x)).2.1 mse).rdEndCheck m ∧
      y.idx = x.idx ∧ y.slot = x.slot ∧ y.entry = x.entry ∧ y.reread = x.reread ∧ y.pinned = x.pinned ∧
      (t.med m).rd = some a ∧ u.SignalKept t m ∧ MedOnly u t m [Reg.MCA_STATUS m] := by
  have hrd : (u.med m).rd = some a := by rw [← hu, s.med_retryRead, h]
  rw [← hu, s.ladMode_retryRead] at hmode
  rw [State.retryEnd_decodes h hlad hroom hmode, hu]
  obtain ⟨y, t, hfound, hidx, hslot, hentry, hreread, hpin, hmed, hkept, honly⟩ := u.retrySect_spec m x
  simp only [hfound, hkept.ladDecode]
  exact ⟨hrd, y, t, _, _, rfl, hidx, hslot, hentry, hreread, hpin, by rw [hmed, hrd], hkept, honly⟩

section
variable (hroom : a.out.length < 4) {ups : List SlotUpset} {u : State} (hu : s.retryRead m x ups = u)
  (hmode : (u.ladMode m x.entry ≠ 4 ∧ u.ladMode m x.entry ≠ 5) ∨ x.revsLeft = 0)
  (hd : (u.ladDecode m a (u.retrySect m x).1 (u.ladSamples m x)).2.1 = d)
include hroom hu hmode hd

/-- A ladder entry whose decode is good ends its sector (R126). -/
theorem State.retryEnd_good (hslot : x.slot < 16) {p : List W8}
    (hgood : goodPayload a.run.cyl (a.run.start + x.idx) d = some p) : let t := s.retryEnd m ups
    let st := if x.reread then 2 else 1
    ∃ rc, RecordOf rc a.run.cyl (a.run.start + x.idx) st x.idx (sliceB p 4096 32) ∧
      (t.med m).rd = some { a with lad := [], out := a.out ++ [⟨x.idx, st, rc, some (sliceB p 0 4096)⟩] } ∧
      t.reg (Reg.MCA_CNT m st) = BitVec.ofNat 32 (satAdd (u.reg (Reg.MCA_CNT m st)).toNat 1 32) ∧
      MedOnly u t m (sectRegs m) := by
  obtain ⟨hrd, y, w, slip, mse, heq, hidx, hy, -, hreread, -, hwrd, -, honly⟩ := State.retryEnd_found h hlad hroom hu hmode
  rw [heq, hd]
  obtain ⟨rc, hrc, hend, hcnt, hframe⟩ := State.retryFinish_good (slip := slip) hwrd hlad (hy.trans_lt hslot)
    (by rw [hidx]; exact hgood) mse
  rw [hidx] at hrc hend
  rw [hreread] at hrc hend hcnt
  refine ⟨rc, hrc, hend, hcnt.trans ?_, (honly.mono (List.cons_subset.2 ⟨status_mem_sectRegs m, List.nil_subset _⟩)).trans hframe⟩
  rw [honly.2.2 _ (by simp only [Reg.MCA_CNT, Reg.MCA_STATUS, List.mem_singleton]; split <;> omega)]

/-- A ladder entry whose decode is bad goes on to the next entry (R126). -/
theorem State.retryEnd_bad (habort : a.abort = false) (hentry : x.entry < 7) (hpin : x.pinned = true)
    (hnext : u.ladMode m (x.entry + 1) = 1 ∨ u.ladMode m (x.entry + 1) = 2 ∨ u.ladMode m (x.entry + 1) = 3)
    (hbad : goodPayload a.run.cyl (a.run.start + x.idx) d = none) : let t := s.retryEnd m ups
    ∃ z, (t.med m).rd = some { a with lad := [z] } ∧ z.idx = x.idx ∧ z.slot = x.slot ∧ z.entry = x.entry + 1 ∧
      MedOnly u t m [Reg.MCA_STATUS m] := by
  obtain ⟨hrd, y, w, slip, mse, heq, hidx, hslot, hy, -, hypin, hwrd, hkept, honly⟩ :=
    State.retryEnd_found h hlad hroom hu hmode
  rw [heq, hd]
  obtain ⟨z, hhead, hzidx, hzslot, hzentry, hframe⟩ := State.retryFinish_bad (slip := slip) hwrd hlad habort (hy.trans_lt hentry)
    (hypin.trans hpin) (by rw [hkept.ladMode, hy]; exact hnext) (by rw [hidx]; exact hbad) mse
  exact ⟨z, hhead, hzidx.trans hidx, hzslot.trans hslot, by rw [hzentry, hy], honly.trans (hframe.mono (List.nil_subset _))⟩

end

end

end Sys2Proof.Machine
end

section
namespace Sys2Proof.Machine

/-! ### A reread revolution (R127, R128) -/

section
variable {s : State} {m : Act} {a : ActRd} {x : Sect} {rest : List Sect}

/-- The sector at the ladder's head is sampled once more (R127); `off` is whether its span was off-track (R136). -/
def State.rereadSampled (s : State) (m : Nat) (a : ActRd) (x : Sect) (off : Bool) (cap : Capture) : State :=
  (s.setMed m { s.med m with loops := (s.sample m cap).1 }).rereadTake m a { x with offTrack := x.offTrack || off }
    (s.sample m cap).2

theorem State.rereadRev_samples (h : (s.med m).rd = some a) (hlad : a.lad = x :: rest) (hleft : x.revsLeft ≠ 0)
    (hmode : s.ladMode m x.entry = 4 ∨ s.ladMode m x.entry = 5) (hgate : s.rbit (Reg.MCA_CTRL m) 7 = false) (cap : Capture) :
    s.rereadRev m cap = (s.spanOff m).2.rereadSampled m a x (s.spanOff m).1 cap := by
  have hgo : ¬ ((!(s.ladMode m x.entry == 4 || s.ladMode m x.entry == 5) || x.revsLeft == 0) = true) := by
    obtain hmode | hmode := hmode <;> simp [hmode, hleft]
  unfold State.rereadRev
  split
  next hnone => simp [h] at hnone
  next b hb =>
    obtain rfl : b = a := Option.some.inj (hb.symm.trans h)
    split
    next hnil => simp [hlad] at hnil
    next y l hy =>
      obtain ⟨rfl, rfl⟩ := List.cons.inj (hy.symm.trans hlad)
      extract_lets md
      rw [if_neg (show ¬ _ from hgo)]
      obtain ⟨off, t⟩ := s.spanOff m
      refine (if_neg (by simp [hgate])).trans ?_
      unfold State.rereadSampled
      obtain ⟨loops, smp⟩ := t.sample m cap
      rfl

/-- What a reread finds goes into the slot that the sector has: averaged in, or in place of the samples there (R128). -/
def State.rereadStore (s : State) (m : Nat) (a : ActRd) (x : Sect) (smp : List (List W8)) : State :=
  let start := (s.arbOf m .live smp).start
  if s.ladMode m x.entry = 5 then s.slotAverage m x.slot smp start
  else s.slotFill m x.slot a.run.cyl (s.zHead m) (a.run.start + x.idx) smp start true

/-- A sector with one more revolution behind it (R127). -/
def Sect.revolved (x : Sect) (arb : Arb) : Sect :=
  { (x.withArb arb) with revs := x.revs + 1, revsLeft := x.revsLeft - 1, reread := true }

theorem State.rereadTake_found {smp : List (List W8)} (hmark : (s.arbOf m .live smp).neither = false) (hpin : x.pinned = true) :
    ∃ y t, s.rereadTake m a x smp = (t.rereadStore m a y smp).ladHead m y ∧ y.idx = x.idx ∧ y.slot = x.slot ∧ y.entry = x.entry ∧
      y.pinned = true ∧ y.revs = x.revs + 1 ∧ y.revsLeft = x.revsLeft - 1 ∧ y.reread = true ∧
      (∀ n, t.med n = s.med n) ∧ s.SignalKept t m ∧ MedOnly s t m [Reg.MCA_STATUS m] := by
  obtain ⟨rg, ta, dr, t, hfound, hmed, -, hkept, honly⟩ := s.sectDefects_spec m (x.revolved (s.arbOf m .live smp)) smp false
  refine ⟨{ x.revolved (s.arbOf m .live smp) with ranges := rg, ta := ta, drop := dr }, t, ?_, rfl, rfl, rfl, hpin, rfl, rfl, rfl,
    hmed, hkept, honly⟩
  unfold Sect.revolved at hfound
  rw [State.rereadTake]
  dsimp only
  rw [hfound]
  refine (if_pos hpin).trans ?_
  rw [if_neg (by simp [hmark]), State.rereadStore, hkept.arbOf]
  rfl

/-- What storing a reread leaves (R122, R123, R128). -/
theorem State.rereadStore_spec (s : State) (m : Act) (a : ActRd) (hslot : x.slot < 16) (smp : List (List W8)) :
    let t := s.rereadStore m a x smp
    (s.ladMode m x.entry = 4 → SlotHolds s t m x.slot (s.slotBytes m smp)) ∧
      (s.ladMode m x.entry = 5 →
        t.fld (Reg.MCA_RET_SLOT_B m x.slot) 26 4 = min 16 (s.fld (Reg.MCA_RET_SLOT_B m x.slot) 26 4 + 2) - 1) ∧
      (t.med m).rd = (s.med m).rd ∧
      SlotFrame s t m [Reg.MCA_RET_SLOT_A m x.slot, Reg.MCA_RET_SLOT_B m x.slot, Reg.MCA_RET_NEXT m] := by
  unfold State.rereadStore
  by_cases hmode : s.ladMode m x.entry = 5
  · obtain ⟨hcount, hmed, hframe⟩ := s.slotAverage_spec m hslot smp (s.arbOf m .live smp).start
    simp only [hmode, if_true]
    exact ⟨by simp, fun _ => hcount, by rw [hmed], hframe.mono (by simp)⟩
  · obtain ⟨hholds, -, -, -, hmed, hframe⟩ := s.slotFill_spec m hslot a.run.cyl (s.zHead m) (a.run.start + x.idx) smp
      (s.arbOf m .live smp).start true
    simp only [hmode, if_false]
    exact ⟨fun _ => hholds, False.elim, by rw [hmed], hframe⟩

/-- A revolution of a reread entry that finds a mark (R122, R123, R127, R128). -/
theorem State.rereadRev_found (h : (s.med m).rd = some a) (hlad : a.lad = x :: rest) (hleft : x.revsLeft ≠ 0)
    (hpin : x.pinned = true) (hslot : x.slot < 16) (hmode : s.ladMode m x.entry = 4 ∨ s.ladMode m x.entry = 5)
    (hgate : s.rbit (Reg.MCA_CTRL m) 7 = false) {cap : Capture} (hmark : (s.arbOf m .live (s.sample m cap).2).neither = false) :
    let t := s.rereadRev m cap
    ∃ y, (t.med m).rd = some { a with lad := y :: rest } ∧ y.idx = x.idx ∧ y.slot = x.slot ∧ y.pinned = true ∧
      y.revs = x.revs + 1 ∧ y.revsLeft = x.revsLeft - 1 ∧ y.reread = true ∧
      (s.ladMode m x.entry = 4 → SlotHolds s t m x.slot (s.slotBytes m (s.sample m cap).2)) ∧
      (s.ladMode m x.entry = 5 →
        t.fld (Reg.MCA_RET_SLOT_B m x.slot) 26 4 = min 16 (s.fld (Reg.MCA_RET_SLOT_B m x.slot) 26 4 + 2) - 1) ∧
      SlotFrame s t m [Reg.MCA_STATUS m, Reg.MCA_RET_SLOT_A m x.slot, Reg.MCA_RET_SLOT_B m x.slot, Reg.MCA_RET_NEXT m] := by
  have hspan : s.SignalKept (s.spanOff m).2 m := State.signalKept_setMed rfl
  have hspanRd : ((s.spanOff m).2.med m).rd = some a := (congrArg Med.rd (State.med_setMed ..)).trans h
  have hspanOnly : MedOnly s (s.spanOff m).2 m [] := (MedOnly.refl s m _).setMed _
  rw [State.rereadRev_samples h hlad hleft hmode hgate, State.rereadSampled, hspan.sample]
  generalize s.sample m cap = q at hmark ⊢
  obtain ⟨loops, smp⟩ := q
  generalize hu : (s.spanOff m).2.setMed m { (s.spanOff m).2.med m with loops := loops } = u
  have hkept : s.SignalKept u m := hu ▸ hspan.trans (State.signalKept_setMed rfl)
  have hrd : (u.med m).rd = some a := by rw [← hu, State.med_setMed, hspanRd]
  have honly : MedOnly s u m [] := hu ▸ hspanOnly.setMed _
  obtain ⟨y, w, hfound, hidx, hy, hentry, hypin, hrevs, hyleft, hreread, hwmed, hwkept, hwonly⟩ := State.rereadTake_found
    (s := u) (a := a) (x := { x with offTrack := x.offTrack || (s.spanOff m).1 }) (smp := smp)
    ((congrArg Arb.neither (hkept.arbOf ..)).trans hmark) hpin
  rw [hfound]
  have hall := hkept.trans hwkept
  have hmed : MedOnly s w m [Reg.MCA_STATUS m] := (honly.mono (List.nil_subset _)).trans hwonly
  obtain ⟨hholds, hcount, hvrd, hframe⟩ := State.rereadStore_spec w m a (hy.trans_lt hslot) smp
  rw [hall.ladMode, hentry, hy, hall.slotBytes] at hholds
  rw [hall.ladMode, hentry, hy, State.fld, State.fld, hall.slotB] at hcount
  rw [hy] at hframe
  generalize w.rereadStore m a y smp = v at hholds hcount hvrd hframe
  rw [hwmed, hrd] at hvrd
  refine ⟨y, ?_, hidx, hy, hypin, hrevs, hyleft, hreread, fun h4 => ?_, fun h5 => ?_, ?_⟩
  · rw [State.ladHead, v.med_rdRun m hvrd, hlad]
    rfl
  · exact slotHolds_congr ((hholds h4).after hmed.mem) fun i => State.sramByte_setMed ..
  · exact (congrArg (getF · 26 4) (State.reg_rdRun ..)).trans (hcount h5)
  · exact (hmed.mono (by simp)).slotFrame.trans ((hframe.mono (by simp)).trans ((MedOnly.refl v m _).rdRun _).slotFrame)

end

end Sys2Proof.Machine
end

section
namespace Sys2Proof.Machine

/-! ### The record of an ended sector is handed over (R133) -/

section
variable {s : State} {m : Act} {a : ActRd} {e e2 : EndedSect} {rest : List EndedSect}

theorem getF_setF_mod (v : W32) (lo len x : Nat) (hw : lo + len ≤ 32) : getF (setF v lo len x) lo len = x % 2 ^ len := by
  rw [← getF_setF v (Nat.mod_lt x (Nat.two_pow_pos len)) hw, setF, setF, Nat.mod_mod]

theorem State.rdRun_same {f : ActRd → ActRd} (h : (s.med m).rd = some a) (hf : f a = a) : s.rdRun m f = s := by
  rw [State.rdRun, h, Option.map_some, hf, ← h]
  exact s.setMed_med m

theorem State.sectDeliver_record (h : (s.med m).rd = some a) (hout : a.out = e :: e2 :: rest) (hdata : e.data = none)
    {u : State} (hput : s.streamPut a.run.recCh (1 + 4 * m) e.record = (true, u)) : s.sectDeliver m =
      (((u.rdRun m fun a => { a with out := e2 :: rest, done := a.done + 1 }).setFld (Reg.MCA_RD_STAT m) 0 16
        (a.done + 1)).ladSettle m).rdEndCheck m := by
  have hsame : (s.rdRun m fun a => { a with out := { e with data := none } :: e2 :: rest }) = s :=
    State.rdRun_same h (by rw [← hdata, ← hout])
  unfold State.sectDeliver
  rw [h]
  dsimp only
  rw [hout]
  dsimp only
  rw [hdata]
  refine (if_neg (by simp)).trans ?_
  rw [hsame, hput]
  rfl

/-- A record that the record channel takes counts as done (R133). -/
theorem State.sectDeliver_done (h : (s.med m).rd = some a) (hout : a.out = e :: e2 :: rest) (hdata : e.data = none)
    (hlad : a.lad = []) {u : State} (hput : s.streamPut a.run.recCh (1 + 4 * m) e.record = (true, u)) (hmed : u.med m = s.med m) :
    let t := s.sectDeliver m
    t.med m = { s.med m with rd := some { a with out := e2 :: rest, done := a.done + 1 } } ∧
      t.fld (Reg.MCA_RD_STAT m) 0 16 = (a.done + 1) % 2 ^ 16 ∧ MedOnly u t m [Reg.MCA_RD_STAT m] := by
  rw [State.sectDeliver_record h hout hdata hput]
  have hrun := u.med_rdRun m (by rw [hmed, h]) (fun a => { a with out := e2 :: rest, done := a.done + 1 })
  have honly : MedOnly u (u.rdRun m fun a => { a with out := e2 :: rest, done := a.done + 1 }) m [Reg.MCA_RD_STAT m] :=
    (MedOnly.refl u m _).rdRun _
  generalize (u.rdRun m fun a => { a with out := e2 :: rest, done := a.done + 1 }) = w at hrun honly ⊢
  rw [hmed] at hrun
  have hrd : ((w.setFld (Reg.MCA_RD_STAT m) 0 16 (a.done + 1)).med m).rd =
      some { a with out := e2 :: rest, done := a.done + 1 } := by rw [State.med_setFld, hrun]
  rw [State.ladSettle, State.ladGo_nil hrd hlad, State.rdEndCheck_goesOn hrd (.inr (.inr (by simp)))]
  refine ⟨hrun, ?_, honly.setReg (by simp) _⟩
  rw [State.fld, State.reg_setFld, if_pos rfl]
  exact getF_setF_mod _ 0 16 _ (by decide)

end

end Sys2Proof.Machine
end

section
namespace Sys2Proof.Machine

/-! ### From capture to delivery -/

section
variable {m : Act} {s : State}

theorem exec_sectorCapture {cap : Capture} (hwf : captureWf cap = true) (s : State) :
    exec (.sectorCapture m cap) s = done (s.sectorCapture m cap) :=
  if_pos hwf

theorem exec_rereadRevolution {cap : Capture} (hwf : captureWf cap = true) (s : State) :
    exec (.rereadRevolution m cap) s = done (s.rereadRev m cap) :=
  if_pos hwf

theorem SlotFrame.settle {t : State} {l : List Nat} (h : SlotFrame s t m l) : SlotFrame s t.settle m l :=
  ⟨h.dram, h.thrs, h.other, h.regsBut⟩

end

/-- Settles O33: each command's state is rewritten to the step it makes, and the lemma on that step says what it leaves. -/
theorem sectorsAreCapturedDecodedAndDelivered : Obligations.SectorsAreCapturedDecodedAndDelivered := by
  refine ⟨fun m cap a s hwf hrd habort hover hnext hon => ⟨fun hfull => ?_, fun hroom hmask => ?_,
    fun hroom hmask hgate hmark hheld => ?_⟩, fun m a x s hrd hroom hx => ?_, fun m full a x rest s hrd hfly hbuf hroom hslot => ⟨fun hconv hcheck => ?_,
    fun hconv habort hlad => ?_⟩, fun m ups a x s hrd hlad hroom hslot hmode => ⟨fun p hgood => ?_,
    fun hbad habort hentry hpin hnext => ?_⟩, fun m cap a x rest s hwf hrd hlad hleft hpin hslot hmode hgate hmark => ?_,
    fun m a e e2 rest s hrd hout hdata hlad htaken hmed => ?_⟩
  · refine ⟨_, exec_sectorCapture hwf s, ?_, ?_⟩
    · rw [State.sectorCapture_overrun hrd habort hover hnext hon hfull, State.med_settle, s.med_rdRun m hrd]
    · rw [State.sectorCapture_overrun hrd habort hover hnext hon hfull]
      exact ((MedOnly.refl s m _).rdRun _).settle
  · obtain ⟨rc, hrc, hend, honly⟩ := State.sectorCapture_masked hrd habort hover hnext hon hroom hmask cap
    exact ⟨_, rc, exec_sectorCapture hwf s, hrc, hend, honly.mem, honly.settle⟩
  · obtain ⟨x, hend, hidx, hslot, hstart, hsmp, hpin, hbuf, hloops, hholds, hslotA, hslotB, hslotNext, hframe⟩ :=
      State.sectorCapture_found hrd habort hover hnext hon hroom hmask hgate hmark hheld
    obtain ⟨hdram, hthrs, hother, hregs⟩ := hframe.settle
    exact ⟨_, x, exec_sectorCapture hwf s, hend, hidx, hslot, hstart, hsmp, hpin, hbuf, hloops, hholds, hslotA, hslotB, hslotNext,
      hdram, hthrs, hother, hregs⟩
  · refine ⟨_, rfl, ?_, ?_⟩
    · rw [State.otfStart_enters hrd hroom hx, State.med_settle, s.med_rdRun m hrd]
    · rw [State.otfStart_enters hrd hroom hx]
      exact ((MedOnly.refl s m _).rdRun _).settle
  · obtain ⟨rc, hrc, hend, hcnt, honly⟩ := State.otfEnd_good hrd hfly hbuf hroom hslot rfl hconv rfl hcheck
    exact ⟨_, rc, rfl, hrc, hend, hcnt, honly.mem, honly.settle⟩
  · obtain ⟨y, hent, hidx, hreason, hentry, hrevs, hpin, honly⟩ :=
      State.otfEnd_bad hrd hfly hbuf hroom hslot rfl hconv habort hlad
    exact ⟨_, y, rfl, hent, hidx, hreason, hentry, hrevs, hpin, honly.mem, honly.settle⟩
  · obtain ⟨rc, hrc, hend, hcnt, honly⟩ := State.retryEnd_good hrd hlad hroom rfl hmode
      (congrArg (fun y => (State.ladDecode _ m a y _).2.1) (State.retrySect_fst ..)) hslot hgood
    exact ⟨_, rc, rfl, hrc, hend, hcnt, honly.mem, honly.settle⟩
  · obtain ⟨y, hend, hidx, hy, hentry, honly⟩ := State.retryEnd_bad hrd hlad hroom rfl hmode
      (congrArg (fun y => (State.ladDecode _ m a y _).2.1) (State.retrySect_fst ..)) habort hentry hpin hnext hbad
    exact ⟨_, y, rfl, hend, hidx, hy, hentry, honly.mem, honly.settle⟩
  · obtain ⟨y, hend, hidx, hy, hypin, hrevs, hyleft, hreread, hholds, hcount, hframe⟩ :=
      State.rereadRev_found hrd hlad hleft hpin hslot hmode hgate hmark
    obtain ⟨hdram, hthrs, hother, hregs⟩ := hframe.settle
    exact ⟨_, y, exec_rereadRevolution hwf s, hend, hidx, hy, hypin, hrevs, hyleft, hreread, hholds, hcount, hdram, hthrs, hother,
      hregs⟩
  · obtain ⟨hend, hdone, honly⟩ := State.sectDeliver_done hrd hout hdata hlad (Prod.ext htaken rfl) hmed
    exact ⟨_, rfl, hend, hdone, honly.mem, honly.thrs, honly.settle⟩

end Sys2Proof.Machine
end

section
namespace Sys2Proof.Machine

/-! ### What a command of the write path leaves as it is (R163 to R175) -/

/-- Nothing differs but channel `m`, registers at the offsets of `l`, what was put out, the DMA channels and the record of the
events whose message has been sent. -/
structure WriteOnly (s t : State) (m : Act) (l : List Nat) : Prop where
  eq : t = { s with
    regs := t.regs, med0 := t.med0, med1 := t.med1, out := t.out, dch := t.dch, evSeen := t.evSeen }
  other : t.med (1 - m.val) = s.med (1 - m.val)
  regsBut : RegsBut s t l

theorem MedOnly.writeOnly {s t : State} {m : Act} {l : List Nat} (h : MedOnly s t m l) : WriteOnly s t m l := by
  obtain ⟨heq, hother, hregs⟩ := h
  have hout : t.out = s.out := by rw [heq]
  have hdch : t.dch = s.dch := by rw [heq]
  refine ⟨?_, hother, hregs⟩
  rw [hout, hdch]
  exact heq

namespace WriteOnly

variable {s t u : State} {m : Act} {l l' : List Nat}

theorem refl (s : State) (m : Act) (l : List Nat) : WriteOnly s s m l := ⟨rfl, rfl, fun _ _ => rfl⟩

theorem trans (h : WriteOnly s t m l) (h' : WriteOnly t u m l) : WriteOnly s u m l :=
  ⟨h'.eq.trans (congrArg (fun v : State => { v with
      regs := u.regs, med0 := u.med0, med1 := u.med1, out := u.out, dch := u.dch, evSeen := u.evSeen }) h.eq),
    h'.other.trans h.other, fun o ho => (h'.regsBut o ho).trans (h.regsBut o ho)⟩

theorem mono (h : WriteOnly s t m l) (hl : l ⊆ l') : WriteOnly s t m l' :=
  ⟨h.eq, h.other, fun o ho => h.regsBut o fun hmem => ho (hl hmem)⟩

theorem setOut (h : WriteOnly s t m l) (out : List OutEvent) : WriteOnly s { t with out := out } m l :=
  ⟨congrArg (fun u : State => { u with out := out }) h.eq, h.other, h.regsBut⟩

theorem setMed (h : WriteOnly s t m l) (x : Med) : WriteOnly s (t.setMed m x) m l :=
  h.trans ((MedOnly.refl t m l).setMed x).writeOnly

theorem setReg (h : WriteOnly s t m l) {o : Nat} (ho : o ∈ l) (v : W32) : WriteOnly s (t.setReg o v) m l :=
  h.trans ((MedOnly.refl t m l).setReg ho v).writeOnly

theorem wrRun (h : WriteOnly s t m l) (f : ActWr → ActWr) : WriteOnly s (t.wrRun m f) m l := h.setMed _

theorem settle (h : WriteOnly s t m l) : WriteOnly s t.settle m l := h.trans (MedOnly.refl t m l).settle.writeOnly

theorem ite (h : WriteOnly s t m l) (h' : WriteOnly s u m l) (c : Prop) [Decidable c] :
    WriteOnly s (if c then t else u) m l := by
  split
  · exact h
  · exact h'

theorem mem (h : WriteOnly s t m l) : t.mem = s.mem := by rw [h.eq]

theorem thrs (h : WriteOnly s t m l) : t.thrs = s.thrs := by rw [h.eq]

end WriteOnly

/-! ### The active write run, the write gate and the sector under the writer (R146 to R148, R163, R167) -/

section
variable {s : State} {m : Act} {a : ActWr}

theorem State.med_wrRun (h : (s.med m).wr = some a) (f : ActWr → ActWr) :
    (s.wrRun m f).med m = { s.med m with wr := some (f a) } := by
  simp [State.wrRun, h]

@[simp] theorem State.reg_wrRun (s : State) (m : Nat) (f : ActWr → ActWr) (o : Nat) : (s.wrRun m f).reg o = s.reg o :=
  State.reg_setMed ..

@[simp] theorem State.regs_wrRun (s : State) (m : Nat) (f : ActWr → ActWr) : (s.wrRun m f).regs = s.regs :=
  State.setMed_regs ..

@[simp] theorem State.out_wrRun (s : State) (m : Nat) (f : ActWr → ActWr) : (s.wrRun m f).out = s.out :=
  State.setMed_out ..

theorem MedOnly.wrRun {t : State} {l : List Nat} (h : MedOnly s t m l) (f : ActWr → ActWr) : MedOnly s (t.wrRun m f) m l :=
  h.setMed _

/-- What setting the write gate leaves, out of Bivouac or when it falls (R163). -/
theorem State.setGate_spec (s : State) (m : Act) {b : Bool} (hb : b = true → s.rbit Reg.SYS_ROLE 4 = false) :
    let t := s.setGate m b
    (∃ ea, t.med m = { s.med m with gate := b, ea := ea }) ∧
      t.out = s.out ++ (if (s.med m).gate = b then [] else gateEvents m (s.eaLead m) b) ∧ t.regs = s.regs ∧
      WriteOnly s t m [] := by
  have hand : (b && !s.rbit Reg.SYS_ROLE 4) = b := by
    cases b with
    | false => rfl
    | true => simp [hb rfl]
  unfold State.setGate
  rw [hand]
  by_cases hsame : (s.med m).gate = b
  · rw [if_pos hsame, if_pos hsame, List.append_nil]
    exact ⟨⟨(s.med m).ea, by rw [← hsame]⟩, rfl, rfl, .refl ..⟩
  · rw [if_neg hsame, if_neg hsame]
    exact ⟨⟨b, State.med_setMed s m _⟩, rfl, State.setMed_regs .., ((WriteOnly.refl s m []).setMed _).setOut _⟩

/-- What the fall of the write gate leaves (R163). -/
theorem State.setGate_false_spec (s : State) (m : Act) : let t := s.setGate m false
    (∃ ea, t.med m = { s.med m with gate := false, ea := ea }) ∧
      t.out = s.out ++ (if (s.med m).gate then gateEvents m (s.eaLead m) false else []) ∧ t.regs = s.regs ∧
      WriteOnly s t m [] := by
  obtain ⟨hmed, hout, hregs, honly⟩ := s.setGate_spec m (b := false) (fun h => absurd h (by decide))
  refine ⟨hmed, ?_, hregs, honly⟩
  rw [hout]
  cases (s.med m).gate <;> rfl

/-- What goes onto the media depends on the zone entry, the committed head and the latched band alone (R148, R167). -/
theorem State.sectorEvents_congr {t : State} {m : Nat} (hzone : (t.med m).zone = (s.med m).zone)
    (hstat : t.reg (Reg.MCA_ZONE_STAT m) = s.reg (Reg.MCA_ZONE_STAT m))
    (hband : t.reg (Reg.MCA_WR_BAND m) = s.reg (Reg.MCA_WR_BAND m)) (r : WrRun) (sector : Nat) (payload : List W8)
    (gates : List Nat) : t.sectorEvents m r sector payload gates = s.sectorEvents m r sector payload gates := by
  have hzoneF (o n : Nat) : t.zoneF m o n = s.zoneF m o n := by rw [State.zoneF, State.zoneF, hzone]
  simp only [State.sectorEvents, State.waveOf, State.bandF, State.eaLead, State.sectorCell, State.sectorCuts, State.zHead,
    State.fld, hzoneF, hstat, hband]

/-- What the passage of a written sector leaves: the gate is up and the sector is out (R163). -/
theorem State.writeSector_spec (hunsafe : s.wUnsafe m = false) (hon : s.rbit (Reg.MCA_CTRL m) 0 = true)
    (hbiv : s.rbit Reg.SYS_ROLE 4 = false) (r : WrRun) (sector : Nat) (payload : List W8) (gates : List Nat) :
    let t := s.writeSector m r sector payload gates
    (∃ ea, t.med m = { s.med m with gate := true, ea := ea }) ∧
      t.out = s.out ++ (if (s.med m).gate then [] else gateEvents m (s.eaLead m) true) ++
        s.sectorEvents m r sector payload gates ∧ t.regs = s.regs ∧ WriteOnly s t m [] := by
  have hwrites : ¬ ((s.wUnsafe m || !(s.rbit (Reg.MCA_CTRL m) 0) || s.rbit Reg.SYS_ROLE 4) = true) := by
    simp [hunsafe, hon, hbiv]
  obtain ⟨⟨ea, hmed⟩, hout, hregs, honly⟩ := s.setGate_spec m (b := true) (fun _ => hbiv)
  have hreg (o : Nat) : (s.setGate m true).reg o = s.reg o := by rw [State.reg, hregs, State.reg]
  rw [State.writeSector, if_neg hwrites]
  refine ⟨⟨ea, hmed⟩, ?_, hregs, honly.setOut _⟩
  dsimp only
  rw [hout, State.sectorEvents_congr (by rw [hmed]) (hreg _) (hreg _)]

/-- What the passage of a sector under the writer leaves, with the sector written (R163). -/
theorem State.wrBegin_spec (h : (s.med m).wr = some a) (hunsafe : s.wUnsafe m = false)
    (hon : s.rbit (Reg.MCA_CTRL m) 0 = true) (hbiv : s.rbit Reg.SYS_ROLE 4 = false) (w : WSlot) (payload : List W8)
    (gates : List Nat) : let t := s.wrBegin m w payload gates
    (∃ ea, t.med m = { s.med m with
        gate := true, ea := ea, wr := some { a with cur := some { w with writes := w.writes + 1, unsafeSeen := false } } }) ∧
      t.out = s.out ++ (if (s.med m).gate then [] else gateEvents m (s.eaLead m) true) ++
        s.sectorEvents m a.run (wSector a.run w.idx) payload gates ∧ t.regs = s.regs ∧ WriteOnly s t m [] := by
  obtain ⟨⟨ea, hmed⟩, hout, hregs, honly⟩ :=
    State.writeSector_spec hunsafe hon hbiv a.run (wSector a.run w.idx) payload gates
  rw [State.wrBegin, h]
  dsimp only
  rw [hunsafe]
  refine ⟨⟨ea, ?_⟩, (State.out_wrRun ..).trans hout, (State.regs_wrRun ..).trans hregs, honly.wrRun _⟩
  rw [State.med_wrRun (a := a) (by rw [hmed, h]), hmed]

end

end Sys2Proof.Machine
end

section
namespace Sys2Proof.Machine

/-! ### Write runs armed and started (R104, R161, R162, R164, R174) -/

section
variable {s : State} {m : Act} {v : W32}

/-- A field set to that field of another word agrees with it there. -/
theorem tb_setF_getF (old v : W32) {lo len i : Nat} (hi : i < 32) (hlo : lo ≤ i) (hhi : i < lo + len) :
    tb (setF old lo len (getF v lo len)) i = tb v i := by
  have hlt : i - lo < len := by omega
  have hidx : lo + (i - lo) = i := by omega
  rw [tb_setF _ _ _ _ hi, if_pos ⟨hlo, hhi⟩, testBit_getF, hidx]
  simp [hlt]

/-- The register written with GO is none of those that name the run. -/
theorem writeCtrl_ne (m : Nat) : Reg.MCA_WR_CTRL m ≠ Reg.MCA_WR_STAT m ∧ Reg.MCA_WR_CYL m ≠ Reg.MCA_WR_CTRL m ∧
    Reg.MCA_WR_SECT m ≠ Reg.MCA_WR_CTRL m ∧ Reg.MCA_WR_DMA m ≠ Reg.MCA_WR_CTRL m ∧
    (Reg.MCA_WR_DESC_LO m ≠ Reg.MCA_WR_CTRL m ∧ Reg.MCA_WR_DESC_LO m + 4 ≠ Reg.MCA_WR_CTRL m) ∧
    (Reg.MCA_WR_CAIRN_LO m ≠ Reg.MCA_WR_CTRL m ∧ Reg.MCA_WR_CAIRN_LO m + 4 ≠ Reg.MCA_WR_CTRL m) := by
  simp only [Reg.MCA_WR_CTRL, Reg.MCA_WR_STAT, Reg.MCA_WR_CYL, Reg.MCA_WR_SECT, Reg.MCA_WR_DMA, Reg.MCA_WR_DESC_LO,
    Reg.MCA_WR_CAIRN_LO]
  omega

theorem State.wrCopy_waits (h : s.rbit (Reg.MCA_WR_CTRL m) 0 = false ∨ (s.med m).wrPend ≠ none) : s.wrCopy m = s := by
  refine if_pos ?_
  obtain h | h := h
  · simp [h]
  · simp [Option.isSome_iff_ne_none.2 h]

/-- The run that the write registers name. -/
def State.wrNamed (s : State) (m : Nat) : WrRun where
  cyl := (s.reg (Reg.MCA_WR_CYL m)).toNat
  start := s.fld (Reg.MCA_WR_SECT m) 0 16
  count := max 1 (s.fld (Reg.MCA_WR_SECT m) 16 16)
  recCh := s.fld (Reg.MCA_WR_DMA m) 8 5
  dataCh := s.fld (Reg.MCA_WR_DMA m) 0 5
  desc := s.reg64 (Reg.MCA_WR_DESC_LO m)
  cairn := s.reg64 (Reg.MCA_WR_CAIRN_LO m)
  close := s.rbit (Reg.MCA_WR_CTRL m) 16

theorem State.wrCopy_go (hgo : s.rbit (Reg.MCA_WR_CTRL m) 0 = true) (hpend : (s.med m).wrPend = none) : s.wrCopy m =
    ((s.clrReg (Reg.MCA_WR_CTRL m) (bit 0)).orReg (Reg.MCA_WR_STAT m) (bit 30)).setMed m
      { s.med m with wrPend := some (s.wrNamed m), wrFirst := (s.med m).rdPend.isNone } :=
  if_neg (by simp [hgo, hpend])

/-- What a GO leaves that is copied into the free pending place (R164). -/
theorem State.wrCopy_spec (hgo : s.rbit (Reg.MCA_WR_CTRL m) 0 = true) (hpend : (s.med m).wrPend = none) :
    let t := s.wrCopy m
    t.med m = { s.med m with wrFirst := (s.med m).rdPend.isNone, wrPend := some (s.wrNamed m) } ∧
      t.rbit (Reg.MCA_WR_CTRL m) 0 = false ∧
      t.reg (Reg.MCA_WR_STAT m) = s.reg (Reg.MCA_WR_STAT m) ||| 0x40000000 ∧
      MedOnly s t m [Reg.MCA_WR_CTRL m, Reg.MCA_WR_STAT m] := by
  have hne := (writeCtrl_ne m).1
  rw [State.wrCopy_go hgo hpend]
  refine ⟨State.med_setMed .., ?_, ?_, (((MedOnly.refl s m _).setReg (by simp) _).setReg (by simp) _).setMed _⟩
  · rw [State.rbit, State.reg_setMed, State.reg_orReg, if_neg hne, State.reg_clrReg, if_pos rfl, tb_clear_bit_self _ (by decide)]
  · rw [State.reg_setMed, State.reg_orReg, if_pos rfl, State.reg_clrReg, if_neg hne.symm]
    rfl

/-- CLOSE written, with GO (R164). -/
def State.wrGoWritten (s : State) (m : Nat) (v : W32) : State :=
  (s.setFld (Reg.MCA_WR_CTRL m) 16 1 (getF v 16 1)).orReg (Reg.MCA_WR_CTRL m) (bit 0)

theorem State.reg_wrGoWritten (s : State) (m : Nat) (v : W32) (o : Nat) : (s.wrGoWritten m v).reg o =
    if o = Reg.MCA_WR_CTRL m then setF (s.reg (Reg.MCA_WR_CTRL m)) 16 1 (getF v 16 1) ||| bit 0 else s.reg o := by
  simp only [State.wrGoWritten, State.reg_orReg, State.reg_setFld, if_true]
  split <;> rfl

theorem State.rbit_wrGoWritten (s : State) (m : Nat) (v : W32) : (s.wrGoWritten m v).rbit (Reg.MCA_WR_CTRL m) 0 = true := by
  rw [State.rbit, State.reg_wrGoWritten, if_pos rfl, tb_or_bit _ (by decide)]
  simp

theorem State.wrGoWritten_medOnly (s : State) (m : Act) (v : W32) :
    MedOnly s (s.wrGoWritten m v) m [Reg.MCA_WR_CTRL m, Reg.MCA_WR_STAT m] :=
  ((MedOnly.refl s m _).setReg (by simp) _).setReg (by simp) _

theorem State.wrNamed_wrGoWritten (s : State) (m : Nat) (v : W32) : (s.wrGoWritten m v).wrNamed m = {
    cyl := (s.reg (Reg.MCA_WR_CYL m)).toNat, start := s.fld (Reg.MCA_WR_SECT m) 0 16,
    count := max 1 (s.fld (Reg.MCA_WR_SECT m) 16 16), recCh := s.fld (Reg.MCA_WR_DMA m) 8 5,
    dataCh := s.fld (Reg.MCA_WR_DMA m) 0 5, desc := s.reg64 (Reg.MCA_WR_DESC_LO m),
    cairn := s.reg64 (Reg.MCA_WR_CAIRN_LO m), close := v.getLsbD 16 } := by
  obtain ⟨-, hcyl, hsect, hdma, ⟨hdescLo, hdescHi⟩, hcairnLo, hcairnHi⟩ := writeCtrl_ne m
  have hclose : tb (setF (s.reg (Reg.MCA_WR_CTRL m)) 16 1 (getF v 16 1) ||| bit 0) 16 = v.getLsbD 16 := by
    rw [tb_or_bit _ (by decide), tb_setF_getF _ _ (by decide) (by decide) (by decide)]
    simp [tb]
  simp only [State.wrNamed, State.fld, State.rbit, State.reg64, State.reg_wrGoWritten, if_neg hcyl, if_neg hsect, if_neg hdma,
    if_neg hdescLo, if_neg hdescHi, if_neg hcairnLo, if_neg hcairnHi, if_true, hclose]

theorem exec_writeGo (hgo : v.getLsbD 0 = true) (habort : v.getLsbD 2 = false) (s : State) :
    exec (.writeGo m v) s = done ((s.wrGoWritten m v).wrCopy m) := by
  show done (s.wrCtrlWrite m v false) = _
  simp only [State.wrCtrlWrite, tb, hgo, habort, if_true]
  rfl

/-- The pending run discarded, before a GO that waits takes its place (R174). -/
def State.wrDropped (s : State) (m : Nat) (v : W32) : State :=
  let t := s.setFld (Reg.MCA_WR_CTRL m) 16 1 (getF v 16 1)
  (t.setMed m { s.med m with wrPend := none }).clrReg (Reg.MCA_WR_STAT m) (bit 30)

theorem exec_writeAbort (hgo : v.getLsbD 0 = false) (habort : v.getLsbD 2 = true) (s : State) (atEnd : Bool) :
    exec (.writeAbort m v atEnd) s = done (
      let t := (s.wrDropped m v).wrCopy m
      match (t.med m).wr with
      | none => t.clrReg (Reg.MCA_WR_CTRL m) (bit 2)
      | some a =>
        if atEnd then t.clrReg (Reg.MCA_WR_CTRL m) (bit 2)
        else ((t.orReg (Reg.MCA_WR_CTRL m) (bit 2)).wrStop m a).wrEndCheck m) := by
  show done (s.wrCtrlWrite m v atEnd) = _
  simp only [State.wrCtrlWrite, tb, hgo, habort, if_true]
  rfl

@[simp] theorem State.med_wrDropped (s : State) (m : Nat) (v : W32) :
    (s.wrDropped m v).med m = { s.med m with wrPend := none } :=
  State.med_setMed ..

/-- A GO that waits stays as it is. -/
theorem State.rbit_wrDropped (s : State) (m : Nat) (v : W32) :
    (s.wrDropped m v).rbit (Reg.MCA_WR_CTRL m) 0 = s.rbit (Reg.MCA_WR_CTRL m) 0 := by
  have hne := (writeCtrl_ne m).1
  rw [State.rbit, State.wrDropped, State.reg_clrReg, if_neg hne, State.reg_setMed, State.reg_setFld, if_pos rfl,
    tb_setF _ _ _ _ (by decide), if_neg (by decide), State.rbit]

/-- Nothing of a pending run is left in MCA_WR_STAT (R174). -/
theorem State.rbit_stat_wrDropped (s : State) (m : Nat) (v : W32) : (s.wrDropped m v).rbit (Reg.MCA_WR_STAT m) 30 = false :=
  State.rbit_clrReg_bit _ _ (by decide)

theorem State.wrDropped_medOnly (s : State) (m : Act) (v : W32) :
    MedOnly s (s.wrDropped m v) m [Reg.MCA_WR_CTRL m, Reg.MCA_WR_STAT m] :=
  (((MedOnly.refl s m _).setReg (by simp) _).setMed _).setReg (by simp) _

/-- A pending run is discarded while no GO waits, so that an abort finds the place empty (R174). -/
theorem State.wrCopy_wrDropped (hwait : s.rbit (Reg.MCA_WR_CTRL m) 0 = false) (v : W32) :
    (s.wrDropped m v).wrCopy m = s.wrDropped m v :=
  State.wrCopy_waits (.inl ((s.rbit_wrDropped m v).trans hwait))

/-! The run that a start makes active. -/

/-- The run that becomes active (R161, R164, R169). -/
def State.wrActive (s : State) (m : Nat) (r : WrRun) : ActWr where
  run := r
  mode := min 2 (s.fld (Reg.MCA_VFY_CFG m) 0 2)
  band := s.packBand
  next := 0
  cur := none
  htrWait := s.fld (Reg.MCA_WR_PSIA0 m) 16 16 != 0
  vfy := []
  rew := []
  revs := 0
  abort := false
  under := false
  cairn := if r.start = 0 ∨ r.close then 1 else 0
  out := []
  done := 0

/-- The registers that the start of a write run writes are none of those it reads. -/
theorem writeStart_ne (m j : Nat) (hj : j < 4) : Reg.MCA_VFY_CFG m ≠ Reg.MCA_WR_BAND m ∧ Reg.MCA_WR_STAT m ≠ Reg.MCA_WR_BAND m ∧
    Reg.MCA_ZONE_STAT m ≠ Reg.MCA_WR_BAND m ∧ Reg.MCA_RDR_MASK m j ≠ Reg.MCA_WR_BAND m ∧
    Reg.THM_BANDS ≠ Reg.MCA_WR_BAND m ∧
    (Reg.MCA_WR_PSIA0 m ≠ Reg.MCA_WR_BAND m ∧ Reg.MCA_WR_PSIA0 m ≠ Reg.MCA_WR_STAT m) ∧
    (Reg.MCA_WR_PSIA1 m ≠ Reg.MCA_WR_BAND m ∧ Reg.MCA_WR_PSIA1 m ≠ Reg.MCA_WR_STAT m) ∧
    Reg.MCA_WR_CTRL m ≠ Reg.MCA_WR_BAND m ∧ Reg.MCA_WR_CTRL m ≠ Reg.MCA_WR_STAT m := by
  simp only [Reg.MCA_VFY_CFG, Reg.MCA_WR_BAND, Reg.MCA_WR_STAT, Reg.MCA_ZONE_STAT, Reg.MCA_RDR_MASK, Reg.THM_BANDS,
    Reg.MCA_WR_PSIA0, Reg.MCA_WR_PSIA1, Reg.MCA_WR_CTRL]
  omega

end

end Sys2Proof.Machine
end

section
namespace Sys2Proof.Machine

/-! ### The start of a write run (R161, R162, R164, R169) -/

section
variable {s : State} {m : Act}

theorem State.med_psiAuto (s : State) (m addr data : Nat) (heat : Bool) : (s.psiAuto m addr data heat).med m =
    { s.med m with psi := (s.med m).psi ++ psiFrames [(addr, data, heat)] } := by
  rw [State.psiAuto_eq, State.med_setMed]

@[simp] theorem State.reg_psiAuto (s : State) (m addr data : Nat) (heat : Bool) (o : Nat) :
    (s.psiAuto m addr data heat).reg o = s.reg o := by
  rw [State.psiAuto_eq, State.reg_setMed]

@[simp] theorem State.bandF_psiAuto (s : State) (m addr data : Nat) (heat : Bool) (o : Nat) :
    (s.psiAuto m addr data heat).bandF m o = s.bandF m o := by
  rw [State.bandF, State.zoneF, State.med_psiAuto, State.reg_psiAuto]
  rfl

theorem MedOnly.psiAuto {t : State} {l : List Nat} (h : MedOnly s t m l) (addr data : Nat) (heat : Bool) :
    MedOnly s (t.psiAuto m addr data heat) m l := by
  rw [State.psiAuto_eq]
  exact h.setMed _

theorem psiFrames_append (l l' : List (Nat × Nat × Bool)) : psiFrames (l ++ l') = psiFrames l ++ psiFrames l' := by
  rw [psiFrames, psiFrames, psiFrames, ← List.map_append, ← List.filter_append]

/-- The state in which a write run is active, before its frames (R161, R164, R169). -/
def State.wrActivated (s : State) (m : Nat) (r : WrRun) : State :=
  let t := (s.latchBand m).setMed m { s.med m with
    wrPend := none, wr := some (s.wrActive m r), staged := [], gateAt := 0
    fe := if (s.wrActive m r).mode ≠ 0 ∧ s.reader m 3 then 8 else 0 }
  t.setReg (Reg.MCA_WR_STAT m) (runStat (s.reg (Reg.MCA_WR_STAT m)))

theorem State.reg_latchBand (s : State) (m o : Nat) :
    (s.latchBand m).reg o = if o = Reg.MCA_WR_BAND m then BitVec.ofNat 32 s.packBand else s.reg o := State.reg_setReg ..

theorem State.reg_wrActivated (s : State) (m : Nat) (r : WrRun) (o : Nat) : (s.wrActivated m r).reg o =
    if o = Reg.MCA_WR_STAT m then runStat (s.reg (Reg.MCA_WR_STAT m))
    else if o = Reg.MCA_WR_BAND m then BitVec.ofNat 32 s.packBand else s.reg o := by
  rw [State.wrActivated, State.reg_setReg, State.reg_setMed, State.reg_latchBand]

/-- A band is latched whole (R161). -/
theorem State.bandF_wrActivated (s : State) (m : Nat) (r : WrRun) (o : Nat) :
    (s.wrActivated m r).bandF m o = s.zoneF m (416 + 12 * s.packBand + o) 2 := by
  have hne : Reg.MCA_WR_BAND m ≠ Reg.MCA_WR_STAT m := (writeStart_ne m 0 (by decide)).2.1.symm
  have hlt : s.packBand < 2 ^ 3 := Nat.mod_lt _ (by decide)
  have hband : (BitVec.ofNat 32 s.packBand).toNat = s.packBand := by
    rw [BitVec.toNat_ofNat, Nat.mod_eq_of_lt (by omega)]
  have hmed : (s.wrActivated m r).med m = _ := State.med_setMed ..
  rw [State.bandF, State.reg_wrActivated, if_neg hne, if_pos rfl, hband, State.zoneF, hmed]
  rfl

/-- The head's number has five bits. -/
theorem State.zHead_lt (s : State) (m : Nat) : s.zHead m < 32 := Nat.mod_lt _ (by decide)

theorem State.wrStart_eq {r : WrRun} (hpend : (s.med m).wrPend = some r) (hidle : (s.med m).idle = true)
    (hready : s.medReady m = true) (hzone : (s.med m).zonePend = false)
    (hturn : (s.med m).rdPend = none ∨ (s.med m).wrFirst = true) : s.wrStart m =
      let w := s.wrActivated m r
      ((((w.psiAuto m (s.fld (Reg.MCA_WR_PSIA0 m) 0 16) (w.bandF m 4) false).psiAuto m (s.fld (Reg.MCA_WR_PSIA0 m) 16 16)
        (w.bandF m 6) true).psiAuto m (s.fld (Reg.MCA_WR_PSIA1 m) 0 16) (w.bandF m 10) false)).wrCopy m := by
  have hstart : ¬ ((!(s.med m).idle || !(s.medReady m) || (s.med m).zonePend || ((s.med m).rdPend.isSome && !(s.med m).wrFirst)) =
      true) := by
    obtain hturn | hturn := hturn
    · simp [hidle, hready, hzone, hturn]
    · simp [hidle, hready, hzone, hturn]
  obtain ⟨hcfg, hstat, hzstat, -, hbands, ⟨hpsia0, hpsia0'⟩, ⟨hpsia1, hpsia1'⟩, -⟩ := writeStart_ne m 0 (by decide)
  have hmask : Reg.MCA_RDR_MASK m (s.zHead m / 8) ≠ Reg.MCA_WR_BAND m :=
    (writeStart_ne m _ (by have := s.zHead_lt m; omega)).2.2.2.1
  have hlatched (o : Nat) (ho : o ≠ Reg.MCA_WR_BAND m) : (s.latchBand m).reg o = s.reg o := by
    rw [State.reg_latchBand, if_neg ho]
  have hhead : (s.latchBand m).zHead m = s.zHead m := by rw [State.zHead, State.fld, hlatched _ hzstat]; rfl
  have hreader : (s.latchBand m).reader m 3 = s.reader m 3 := by
    rw [State.reader, hhead, State.rbit, hlatched _ hmask]
    rfl
  have hpack : (s.latchBand m).packBand = s.packBand := by rw [State.packBand, State.fld, hlatched _ hbands]; rfl
  unfold State.wrStart
  dsimp only
  rw [hpend]
  refine (if_neg hstart).trans ?_
  simp only [State.fld, hlatched _ hcfg, hlatched _ hpsia0, hpack, hreader, State.med_latchBand, State.bandF_psiAuto,
    State.reg_psiAuto, State.reg_setReg, State.reg_setMed, hlatched _ hstat, hlatched _ hpsia1, if_neg hpsia0', if_neg hpsia1']
  rfl

/-- What the start of a write run leaves (R104, R161, R162, R164, R169). -/
theorem State.wrStart_spec {r : WrRun} (hpend : (s.med m).wrPend = some r) (hidle : (s.med m).idle = true)
    (hready : s.medReady m = true) (hzone : (s.med m).zonePend = false)
    (hturn : (s.med m).rdPend = none ∨ (s.med m).wrFirst = true) (hgo : s.rbit (Reg.MCA_WR_CTRL m) 0 = false) :
    let t := s.wrStart m
    let b := 416 + 12 * s.packBand
    t.med m = { s.med m with
        wrPend := none, wr := some (s.wrActive m r), staged := [], gateAt := 0
        fe := if (s.wrActive m r).mode ≠ 0 ∧ s.reader m 3 then 8 else 0
        psi := (s.med m).psi ++ psiFrames [(s.fld (Reg.MCA_WR_PSIA0 m) 0 16, s.zoneF m (b + 4) 2, false),
          (s.fld (Reg.MCA_WR_PSIA0 m) 16 16, s.zoneF m (b + 6) 2, true),
          (s.fld (Reg.MCA_WR_PSIA1 m) 0 16, s.zoneF m (b + 10) 2, false)] } ∧
      t.reg (Reg.MCA_WR_STAT m) = 0x80000000 ||| (s.reg (Reg.MCA_WR_STAT m) &&& 0x30000000) ∧
      t.reg (Reg.MCA_WR_BAND m) = BitVec.ofNat 32 s.packBand ∧ MedOnly s t m [Reg.MCA_WR_STAT m, Reg.MCA_WR_BAND m] := by
  obtain ⟨-, hstat, -, -, -, -, -, hctrl, hctrl'⟩ := writeStart_ne m 0 (by decide)
  rw [State.wrStart_eq hpend hidle hready hzone hturn]
  have hreg := s.reg_wrActivated m r
  have hmed : (s.wrActivated m r).med m = { s.med m with
      wrPend := none, wr := some (s.wrActive m r), staged := [], gateAt := 0
      fe := if (s.wrActive m r).mode ≠ 0 ∧ s.reader m 3 then 8 else 0 } := State.med_setMed ..
  have honly : MedOnly s (s.wrActivated m r) m [Reg.MCA_WR_STAT m, Reg.MCA_WR_BAND m] :=
    (((MedOnly.refl s m _).setReg (by simp) _).setMed _).setReg (by simp) _
  simp only [State.bandF_wrActivated]
  generalize s.wrActivated m r = w at hreg hmed honly
  rw [State.wrCopy_waits (.inl (by
    rw [State.rbit, State.reg_psiAuto, State.reg_psiAuto, State.reg_psiAuto, hreg, if_neg hctrl', if_neg hctrl]
    exact hgo))]
  refine ⟨?_, ?_, ?_, ((honly.psiAuto _ _ _).psiAuto _ _ _).psiAuto _ _ _⟩
  · rw [State.med_psiAuto, State.med_psiAuto, State.med_psiAuto, hmed]
    simp only [List.append_assoc, ← psiFrames_append]
    rfl
  · rw [State.reg_psiAuto, State.reg_psiAuto, State.reg_psiAuto, hreg, if_pos rfl]
    rfl
  · rw [State.reg_psiAuto, State.reg_psiAuto, State.reg_psiAuto, hreg, if_neg hstat.symm, if_pos rfl]

end

end Sys2Proof.Machine
end

section
namespace Sys2Proof.Machine

/-! ### The end of a slot and of a run (R172 to R174) -/

section
variable {s : State} {m : Act} {a : ActWr} {w : WSlot}

/-- A write record is 32 bytes long and names its status and its slot (R173). -/
theorem State.wrRecord_spec (s : State) (m : Nat) (a : ActWr) (w : WSlot) {st : Nat} (hst : st < 256) :
    let rc := s.wrRecord m a w st
    rc.length = 32 ∧ leAt rc 7 1 = st ∧ leAt rc 8 2 = w.idx % 2 ^ 16 := by
  have hst : st % 256 ^ 1 = st := Nat.mod_eq_of_lt hst
  refine ⟨by simp [State.wrRecord, length_leBytes], ?_, ?_⟩
  · simp only [State.wrRecord, List.append_assoc, leAt, sliceB_leBytes_append, Nat.reduceLeDiff, Nat.reduceSub]
    exact (leAt_leBytes_append ..).trans hst
  · simp only [State.wrRecord, List.append_assoc, leAt, sliceB_leBytes_append, Nat.reduceLeDiff, Nat.reduceSub]
    exact leAt_leBytes_append ..

/-- The counters and events of the status a slot ends with (R172, R173). -/
def State.slotCount (s : State) (m : Nat) (w : WSlot) (st : Nat) : State :=
  match st with
  | 0 => if w.idx = 0xFFFF then s else s.incFld (Reg.MCA_WCNT m 0) 0 32
  | 0x11 => if w.idx = 0xFFFF then s.orReg (Reg.MCA_WR_STATUS m) (bit 3)
      else ((s.incFld (Reg.MCA_WCNT m 2) 0 32).orReg (Reg.MCA_WR_STATUS m) (bit 1)).emit (.relocate m (relocTag w.tag))
  | 0x12 => s.orReg (Reg.MCA_WR_STATUS m) (bit 4)
  | _ => s

/-- The end of a slot that is not listed in the cairn: its counters and events, then its record. -/
theorem State.slotEnd_eq (h : (s.med m).wr = some a) {st : Nat} (hlist : (st ≤ 2 ∨ st = 0x10) → w.noCairn = true) :
    s.slotEnd m w st =
      let t := s.slotCount m w st
      t.wrRun m fun b => { b with out := b.out ++ [t.wrRecord m a w st], cairn := if w.idx = 0xFFFF then 3 else b.cairn } := by
  have hsame : (if st ≤ 2 ∨ st = 0x10 then s.cairnList a w else s) = s := by
    split
    next hst => rw [State.cairnList, if_pos (.inl (hlist hst))]
    next => rfl
  unfold State.slotEnd
  rw [h]
  dsimp only
  rw [hsame]
  simp only [decide_eq_true_eq]
  rfl

@[simp] theorem State.med_slotCount (s : State) (m : Nat) (w : WSlot) (st n : Nat) : (s.slotCount m w st).med n = s.med n := by
  unfold State.slotCount
  split
  · simp only [apply_ite (State.med · n), State.med_incFld, ite_self]
  · simp only [apply_ite (State.med · n), State.med_orReg]
    exact ite_self _
  · rfl
  · rfl

/-- A slot other than the cairn ends with its record (R173). -/
theorem State.slotEnd_record (h : (s.med m).wr = some a) {st : Nat} (hst : st < 256) (hidx : w.idx ≠ 0xFFFF)
    (hlist : (st ≤ 2 ∨ st = 0x10) → w.noCairn = true) : ∃ rc, rc.length = 32 ∧ leAt rc 7 1 = st ∧ leAt rc 8 2 = w.idx % 2 ^ 16 ∧
      s.slotEnd m w st = (s.slotCount m w st).wrRun m (fun b => { b with out := b.out ++ [rc] }) ∧
      ((s.slotEnd m w st).med m).wr = some { a with out := a.out ++ [rc] } := by
  obtain ⟨hlen, hstatus, hslot⟩ := (s.slotCount m w st).wrRecord_spec m a w hst
  have heq := State.slotEnd_eq h hlist
  simp only [if_neg hidx] at heq
  refine ⟨_, hlen, hstatus, hslot, heq, ?_⟩
  rw [heq, State.med_wrRun (a := a) (by rw [State.med_slotCount, h])]

theorem State.wrEndCheck_goesOn (h : (s.med m).wr = some a) (hbusy : a.cur ≠ none ∨ a.vfy ≠ [] ∨ a.rew ≠ [] ∨ a.out ≠ []) :
    s.wrEndCheck m = s := by
  have hover : ¬ a.over = true := by
    simp only [ActWr.over, Bool.and_eq_true, Option.isNone_iff_eq_none, List.isEmpty_iff]
    tauto
  rw [State.wrEndCheck, h]
  exact if_neg hover

theorem State.wrFinish_none (h : (s.med m).wr = some a) (hcur : a.cur = none) : s.wrFinish m = s := by
  rw [State.wrFinish, h]
  dsimp only
  rw [hcur]

/-- Nothing passes under the writer, so nothing has passed. -/
theorem State.vfyReady_none (h : (s.med m).wr = some a) (hcur : a.cur = none) : s.vfyReady m = s := by
  rw [State.vfyReady, State.wrFinish_none h hcur, ite_self]

theorem State.vfyReady_waits (h : (s.med m).wr = some a) (hvfy : a.vfy ≠ []) : s.vfyReady m = s := by
  rw [State.vfyReady, h]
  exact if_neg (by simpa using hvfy)

end

/-! ### A slot passes under the writer (R148, R163, R165, R166, R168) -/

section
variable {s : State} {m : Act} {a : ActWr}

/-- A slot with its data, of a descriptor `d` (R165). -/
def WSlot.ofDesc (idx : Nat) (d data : List W8) : WSlot :=
  { WSlot.blank idx with
    tag := tagOf (sliceB d 0 28), digest := sliceB d 32 8, noCairn := (leAt d 40 1).testBit 1
    crc := sectorCrc data (tagOf (sliceB d 0 28)) }

/-- A slot with its data begins to pass once its descriptor is read (R165). -/
theorem State.slotWrite_begins (h : (s.med m).wr = some a) (hcur : a.cur = none) (hpass : a.passed = false)
    (hfree : s.gateFree m a = true) {d data : List W8} {u : State}
    (hr : s.memRead (a.run.desc / 64 * 64 + 64 * a.next) 64 = (d, false, u)) (hmed : u.med m = s.med m)
    (hskip : (leAt d 40 1).testBit 0 = false) (hdata : smFind (s.med m).staged a.next = some (some data)) (gates : List Nat) :
    s.slotWrite m gates = ((u.setMed m { u.med m with staged := smDel (u.med m).staged a.next }).wrBegin m
      (WSlot.ofDesc a.next d data) (payloadOf data (tagOf (sliceB d 0 28))) gates).wrRun m fun a => { a with next := a.next + 1 } := by
  have hgo : ¬ ((a.passed || !(s.gateFree m a)) = true) := by simp [hpass, hfree]
  unfold State.slotWrite
  rw [State.wrFinish_none h hcur]
  dsimp only
  rw [h]
  refine (if_neg hgo).trans ?_
  rw [hr]
  dsimp only
  rw [← hmed] at hdata
  rw [if_neg (by decide), hskip, if_neg (by decide), hdata]
  rfl

theorem State.MemOnly.thrs {s t : State} (h : s.MemOnly t) : t.thrs = s.thrs := by
  obtain ⟨regs, mem, fresh, rfl⟩ := h
  rfl

/-- What the writing of a slot leaves (R163, R165). -/
theorem State.slotWrite_spec (h : (s.med m).wr = some a) (hcur : a.cur = none) (hpass : a.passed = false)
    (hfree : s.gateFree m a = true) {d data : List W8} {u : State}
    (hr : s.memRead (a.run.desc / 64 * 64 + 64 * a.next) 64 = (d, false, u)) (hmem : s.MemOnly u)
    (hskip : (leAt d 40 1).testBit 0 = false) (hdata : smFind (s.med m).staged a.next = some (some data))
    (hunsafe : u.wUnsafe m = false) (hon : u.rbit (Reg.MCA_CTRL m) 0 = true) (hbiv : u.rbit Reg.SYS_ROLE 4 = false)
    (gates : List Nat) : let t := s.slotWrite m gates
    t.out = u.out ++ (if (s.med m).gate then [] else gateEvents m (s.eaLead m) true) ++
        u.sectorEvents m a.run (wSector a.run a.next) (payloadOf data (tagOf (sliceB d 0 28))) gates ∧
      (∃ ea, t.med m = { s.med m with
        staged := smDel (s.med m).staged a.next, gate := true, ea := ea
        wr := some { a with next := a.next + 1, cur := some { WSlot.ofDesc a.next d data with writes := 1 } } }) ∧
      t.regs = u.regs ∧ WriteOnly u t m [] := by
  have hmed := hmem.med m
  rw [State.slotWrite_begins h hcur hpass hfree hr hmed hskip hdata, hmed]
  generalize hw : u.setMed m { s.med m with staged := smDel (s.med m).staged a.next } = w
  have hwmed : w.med m = { s.med m with staged := smDel (s.med m).staged a.next } := by rw [← hw, State.med_setMed]
  have hwreg (o : Nat) : w.reg o = u.reg o := by rw [← hw, State.reg_setMed]
  have hzone : (w.med m).zone = (u.med m).zone := by rw [hwmed, hmed]
  have hlead : w.eaLead m = s.eaLead m := by rw [State.eaLead, State.zoneF, hwmed, State.eaLead, State.zoneF]
  obtain ⟨⟨ea, htmed⟩, hout, hregs, honly⟩ := State.wrBegin_spec (s := w) (a := a) (by rw [hwmed, h])
    (by rw [State.wUnsafe, State.rbit, hwreg]; exact hunsafe) (by rw [State.rbit, hwreg]; exact hon)
    (by rw [State.rbit, hwreg]; exact hbiv) (WSlot.ofDesc a.next d data) (payloadOf data (tagOf (sliceB d 0 28))) gates
  rw [State.sectorEvents_congr hzone (hwreg _) (hwreg _), hlead, hwmed] at hout
  rw [hwmed] at htmed
  refine ⟨?_, ⟨ea, ?_⟩, ?_, ?_⟩
  · rw [State.out_wrRun, hout, ← hw, State.setMed_out]
    rfl
  · rw [State.med_wrRun (congrArg Med.wr htmed), htmed]
    rfl
  · rw [State.regs_wrRun, hregs, ← hw, State.setMed_regs]
  · exact (hw ▸ (WriteOnly.refl u m []).setMed _ : WriteOnly u w m []).trans (honly.wrRun _)

/-- A sector under a run with verify has passed, with cells unwritten after it: the gate falls and the slot waits (R148,
R168). -/
theorem State.wrFinish_waits {w : WSlot} (h : (s.med m).wr = some a) (hcur : a.cur = some w) (hmode : a.mode ≠ 0)
    (hcells : s.zoneF m 386 2 ≠ 0) : let t := s.wrFinish m
    (∃ ea, t.med m = { s.med m with gate := false, ea := ea, wr := some { a with cur := none, vfy := a.vfy ++ [w] } }) ∧
      t.out = s.out ++ (if (s.med m).gate then gateEvents m (s.eaLead m) false else []) ∧ t.regs = s.regs ∧
      WriteOnly s t m [] := by
  obtain ⟨⟨ea, hmed⟩, hout, hregs, honly⟩ := s.setGate_false_spec m
  rw [State.wrFinish, h]
  dsimp only
  rw [hcur]
  dsimp only
  rw [if_pos (Or.inr hcells), if_neg hmode]
  have hrun := State.med_wrRun (s := s.setGate m false) (m := m) (a := a) (by rw [hmed, h]) (fun a => { a with cur := none })
  refine ⟨⟨ea, ?_⟩, ?_, ?_, (honly.wrRun _).wrRun _⟩
  · rw [State.med_wrRun (congrArg Med.wr hrun), hrun, hmed]
  · rw [State.out_wrRun, State.out_wrRun, hout]
  · rw [State.regs_wrRun, State.regs_wrRun, hregs]

/-- A slot that comes before the gate may rise is not begun (R162). -/
theorem State.slotWrite_waits {w : WSlot} (h : (s.med m).wr = some a) (hcur : a.cur = some w)
    (hmode : a.mode ≠ 0) (hcells : s.zoneF m 386 2 ≠ 0) (hwait : s.gateFree m a = false) (gates : List Nat) :
    s.slotWrite m gates = s.wrFinish m := by
  obtain ⟨⟨ea, hmed⟩, -, -, honly⟩ := State.wrFinish_waits h hcur hmode hcells
  have hfree : (s.wrFinish m).gateFree m { a with cur := none, vfy := a.vfy ++ [w] } = false := by
    have hnow : (s.wrFinish m).now = s.now := by rw [honly.eq]
    rw [State.gateFree, hmed, hnow]
    exact hwait
  unfold State.slotWrite
  generalize s.wrFinish m = t at hmed hfree
  dsimp only
  rw [hmed]
  refine if_pos ?_
  rw [hfree]
  simp

/-- Missing data ends the pass; what waits for its verify goes on (R166). -/
theorem State.wrUnderrun_marks (h : (s.med m).wr = some a) (hpass : a.passed = false)
    (hdata : smFind (s.med m).staged a.next = none) (hvfy : a.vfy ≠ []) :
    s.wrUnderrun m = s.wrRun m fun a => { a with under := true } := by
  have hgo : ¬ ((a.passed || (smFind (s.med m).staged a.next).isSome) = true) := by simp [hpass, hdata]
  have hrun := s.med_wrRun h fun a => { a with under := true }
  rw [State.wrUnderrun, h]
  exact (if_neg hgo).trans (State.wrEndCheck_goesOn (congrArg Med.wr hrun) (.inr (.inl hvfy)))

end

end Sys2Proof.Machine
end

section
namespace Sys2Proof.Machine

/-! ### The verify of a written slot (R139, R168 to R170) -/

section
variable {s : State} {m : Act} {a : ActWr} {w : WSlot} {rest : List WSlot}

/-- The slot leaves for its verify. -/
def State.vfyTaken (s : State) (m : Nat) (rest : List WSlot) (loops : Loops) : State :=
  (s.setMed m { s.med m with loops := loops }).wrRun m fun a => { a with vfy := rest }

theorem State.wr_vfyTaken (h : (s.med m).wr = some a) (rest : List WSlot) (loops : Loops) :
    ((s.vfyTaken m rest loops).med m).wr = some { a with vfy := rest } := by
  rw [State.vfyTaken, State.med_wrRun (a := a) (by rw [State.med_setMed, h])]

theorem State.vfyTaken_medOnly (s : State) (m : Act) (rest : List WSlot) (loops : Loops) (l : List Nat) :
    MedOnly s (s.vfyTaken m rest loops) m l :=
  ((MedOnly.refl s m l).setMed _).wrRun _

/-- The findings of a verify that a slot takes up. -/
def WSlot.verifiedAs (w : WSlot) (d : Decode) (mse flags : Nat) : WSlot :=
  { w with viter := d.iters, vmse := mse, vunsat := d.unsat1, flags := flags }

theorem State.verifyResult_decodes (h : (s.med m).wr = some a) (hvfy : a.vfy = w :: rest) {v : List Int} {loops : Loops}
    {arb : Arb} {d : Decode} {mse : Nat} (hdec : s.vfyDecode m v (s.vfyIter m) = (loops, arb, d, mse)) {flags : Nat} {ok : Bool}
    (hfound : s.vfyFlags m a w arb d mse = (flags, ok)) : s.verifyResult m v =
      ((s.vfyTaken m rest loops).vfyFinish m a (w.verifiedAs d mse flags) ok).wrEndCheck m := by
  unfold State.verifyResult
  rw [State.vfyReady_waits h (by simp [hvfy])]
  dsimp only
  split
  next hnone => exact absurd (h.symm.trans hnone) (by simp)
  next b hb =>
    obtain rfl : b = a := Option.some.inj (hb.symm.trans h)
    rw [hvfy]
    dsimp only
    rw [hdec]
    dsimp only
    rw [hfound]
    rfl

/-- A verify passes that converges on the payload written, within the limit of its mean square error (R168). -/
theorem State.vfyFlags_good (hidx : w.idx ≠ 0xFFFF) {arb : Arb} {d : Decode} {mse : Nat} (hconv : d.conv = true)
    (hmark : arb.neither = false) {p : List W8} (hp : decodedPayload a.run.cyl (a.run.start + w.idx) d = p)
    (hcheck : payloadCheck p = 0) (hcrc : leAt p 4128 8 = w.crc.toNat) (hmse : mse ≤ s.zoneF m 398 2)
    (hsafe : w.unsafeSeen = false) : s.vfyFlags m a w arb d mse = (0, true) := by
  subst hp
  simp [State.vfyFlags, wSector, hidx, hconv, hmark, hcheck, hcrc, hmse, hsafe, b2n]

/-- A verify fails that does not converge or finds no mark (R168). -/
theorem State.vfyFlags_bad {arb : Arb} {d : Decode} (hbad : d.conv = false ∨ arb.neither = true) (mse : Nat) :
    s.vfyFlags m a w arb d mse = (2, false) := by
  have hconv : (d.conv && !arb.neither) = false := by
    obtain hbad | hbad := hbad
    · simp [hbad]
    · simp [hbad]
  simp [State.vfyFlags, hconv, b2n]

theorem State.vfyFinish_rewrite (hmode : 2 ≤ a.mode) (hwrites : w.writes < 3) (habort : a.abort = false) (hidx : w.idx ≠ 0xFFFF)
    (hroom : a.rew.length < 64) : s.vfyFinish m a w false = s.wrRun m fun a => { a with rew := a.rew ++ [w] } := by
  rw [State.vfyFinish, if_neg (by decide), if_neg (by omega), if_neg (by omega), if_neg (by simp [habort]), if_neg hidx,
    if_neg (by omega)]

theorem State.vfyFinish_fails (hmode : 2 ≤ a.mode) (hwrites : 3 ≤ w.writes) :
    s.vfyFinish m a w false = s.slotEnd m w 0x11 := by
  rw [State.vfyFinish, if_neg (by decide), if_neg (by omega), if_pos hwrites]

/-- A verify that ends its slot with status `st` leaves its record and that status's counters and events (R168, R172, R173). -/
theorem State.verifyResult_ends (h : (s.med m).wr = some a) (hvfy : a.vfy = w :: rest) {v : List Int} {loops : Loops}
    {arb : Arb} {d : Decode} {mse : Nat} (hdec : s.vfyDecode m v (s.vfyIter m) = (loops, arb, d, mse)) {flags : Nat} {ok : Bool}
    (hfound : s.vfyFlags m a w arb d mse = (flags, ok)) {st : Nat} (hst : st < 256) (hidx : w.idx ≠ 0xFFFF)
    (hlist : (st ≤ 2 ∨ st = 0x10) → w.noCairn = true)
    (hfinish : ∀ u : State, u.vfyFinish m a (w.verifiedAs d mse flags) ok = u.slotEnd m (w.verifiedAs d mse flags) st) :
    let t := s.verifyResult m v
    ∃ rc, (t.med m).wr = some { a with vfy := rest, out := a.out ++ [rc] } ∧ rc.length = 32 ∧ leAt rc 7 1 = st ∧
      leAt rc 8 2 = w.idx % 2 ^ 16 ∧
      t = ((s.vfyTaken m rest loops).slotCount m (w.verifiedAs d mse flags) st).wrRun m
        fun b => { b with out := b.out ++ [rc] } := by
  obtain ⟨rc, hlen, hstatus, hslot, heq, hend⟩ := State.slotEnd_record (w := w.verifiedAs d mse flags)
    (State.wr_vfyTaken h rest loops) hst hidx hlist
  rw [State.verifyResult_decodes h hvfy hdec hfound, hfinish,
    State.wrEndCheck_goesOn hend (.inr (.inr (.inr (by simp))))]
  exact ⟨rc, hend, hlen, hstatus, hslot, heq⟩

/-- A verify that passes ends its slot, with status 0 or, after a rewrite, 1 (R168, R172, R173). -/
theorem State.verifyResult_good (h : (s.med m).wr = some a) (hvfy : a.vfy = w :: rest) {v : List Int} {loops : Loops}
    {arb : Arb} {d : Decode} {mse : Nat} (hdec : s.vfyDecode m v (s.vfyIter m) = (loops, arb, d, mse))
    (hfound : s.vfyFlags m a w arb d mse = (0, true)) (hidx : w.idx ≠ 0xFFFF) (hlist : w.noCairn = true) :
    let t := s.verifyResult m v
    ∃ rc, (t.med m).wr = some { a with vfy := rest, out := a.out ++ [rc] } ∧ rc.length = 32 ∧
      leAt rc 7 1 = (if w.writes = 1 then 0 else 1) ∧ leAt rc 8 2 = w.idx % 2 ^ 16 ∧
      (w.writes = 1 → t.reg (Reg.MCA_WCNT m 0) = BitVec.ofNat 32 (satAdd (s.reg (Reg.MCA_WCNT m 0)).toNat 1 32)) ∧
      MedOnly s t m [Reg.MCA_WCNT m 0] := by
  have honly := s.vfyTaken_medOnly m rest loops
  obtain ⟨rc, hend, hlen, hstatus, hslot, heq⟩ := State.verifyResult_ends h hvfy hdec hfound
    (st := if w.writes = 1 then 0 else 1) (by split <;> decide) hidx (fun _ => hlist) (fun _ => rfl)
  refine ⟨rc, hend, hlen, hstatus, hslot, ?_⟩
  rw [heq]
  by_cases hw : w.writes = 1
  · have hcount : (s.vfyTaken m rest loops).slotCount m (w.verifiedAs d mse 0) 0 =
      (s.vfyTaken m rest loops).incFld (Reg.MCA_WCNT m 0) 0 32 := if_neg hidx
    rw [if_pos hw, hcount]
    refine ⟨fun _ => ?_, ((honly _).setReg (by simp) _).wrRun _⟩
    rw [State.reg_wrRun, State.reg_incFld_whole, (honly []).2.2 _ List.not_mem_nil]
  · rw [if_neg hw]
    exact ⟨fun h1 => absurd h1 hw, (honly _).wrRun _⟩

/-- Under Enforce a verify that fails puts its slot into the rewrite list (R168, R170). -/
theorem State.verifyResult_rewrite (h : (s.med m).wr = some a) (hvfy : a.vfy = w :: rest) {v : List Int} {loops : Loops}
    {arb : Arb} {d : Decode} {mse : Nat} (hdec : s.vfyDecode m v (s.vfyIter m) = (loops, arb, d, mse))
    (hfound : s.vfyFlags m a w arb d mse = (2, false)) (hidx : w.idx ≠ 0xFFFF) (hmode : 2 ≤ a.mode) (habort : a.abort = false)
    (hwrites : w.writes < 3) (hroom : a.rew.length < 64) : let t := s.verifyResult m v
    (t.med m).wr = some { a with vfy := rest, rew := a.rew ++ [w.verifiedAs d mse 2] } ∧ MedOnly s t m [] := by
  have hwr := State.wr_vfyTaken h rest loops
  have hrun := (s.vfyTaken m rest loops).med_wrRun hwr fun a => { a with rew := a.rew ++ [w.verifiedAs d mse 2] }
  rw [State.verifyResult_decodes h hvfy hdec hfound,
    State.vfyFinish_rewrite (w := w.verifiedAs d mse 2) hmode hwrites habort hidx hroom,
    State.wrEndCheck_goesOn (congrArg Med.wr hrun) (.inr (.inr (.inl (by simp))))]
  exact ⟨congrArg Med.wr hrun, (s.vfyTaken_medOnly m rest loops []).wrRun _⟩

/-- Under Enforce a slot that fails after its third write ends, to be relocated (R168, R170, R172). -/
theorem State.verifyResult_fails (h : (s.med m).wr = some a) (hvfy : a.vfy = w :: rest) {v : List Int} {loops : Loops}
    {arb : Arb} {d : Decode} {mse : Nat} (hdec : s.vfyDecode m v (s.vfyIter m) = (loops, arb, d, mse))
    (hfound : s.vfyFlags m a w arb d mse = (2, false)) (hidx : w.idx ≠ 0xFFFF) (hmode : 2 ≤ a.mode) (hwrites : 3 ≤ w.writes) :
    let t := s.verifyResult m v
    ∃ rc, (t.med m).wr = some { a with vfy := rest, out := a.out ++ [rc] } ∧ leAt rc 7 1 = 0x11 ∧
      t.out = s.out ++ [.relocate m (relocTag w.tag)] ∧
      t.reg (Reg.MCA_WR_STATUS m) = s.reg (Reg.MCA_WR_STATUS m) ||| 2 ∧
      t.reg (Reg.MCA_WCNT m 2) = BitVec.ofNat 32 (satAdd (s.reg (Reg.MCA_WCNT m 2)).toNat 1 32) ∧
      WriteOnly s t m [Reg.MCA_WR_STATUS m, Reg.MCA_WCNT m 2] := by
  have hne : Reg.MCA_WR_STATUS m ≠ Reg.MCA_WCNT m 2 := by simp only [Reg.MCA_WR_STATUS, Reg.MCA_WCNT]; omega
  have honly := s.vfyTaken_medOnly m rest loops []
  obtain ⟨rc, hend, -, hstatus, -, heq⟩ := State.verifyResult_ends h hvfy hdec hfound (by decide : 0x11 < 256) hidx
    (by simp) (fun _ => State.vfyFinish_fails hmode hwrites)
  refine ⟨rc, hend, hstatus, ?_⟩
  rw [heq]
  have hcount : (s.vfyTaken m rest loops).slotCount m (w.verifiedAs d mse 2) 0x11 =
    (((s.vfyTaken m rest loops).incFld (Reg.MCA_WCNT m 2) 0 32).orReg (Reg.MCA_WR_STATUS m) (bit 1)).emit
      (.relocate m (relocTag w.tag)) := if_neg hidx
  have hkept (o : Nat) : (s.vfyTaken m rest loops).reg o = s.reg o := honly.2.2 o List.not_mem_nil
  have hout : (s.vfyTaken m rest loops).out = s.out := by rw [honly.1]
  rw [hcount]
  refine ⟨?_, ?_, ?_,
    ((((honly.mono (List.nil_subset _)).writeOnly.setReg (by simp) _).setReg (by simp) _).setOut _).wrRun _⟩
  · rw [State.out_wrRun, State.emit_out, ← hout]
    rfl
  · rw [State.reg_wrRun]
    refine (State.reg_orReg ..).trans ?_
    rw [if_pos rfl, State.incFld, State.reg_setFld, if_neg hne, hkept]
    rfl
  · rw [State.reg_wrRun]
    refine (State.reg_orReg ..).trans ?_
    rw [if_neg hne.symm, State.reg_incFld_whole, hkept]

end

end Sys2Proof.Machine
end

section
namespace Sys2Proof.Machine

/-! ### A rewrite revolution and the cairn (R165, R170, R172) -/

section
variable {s : State} {m : Act} {a : ActWr} {w : WSlot}

/-- The rewrite list as the revolution takes it up (R170). -/
def State.rewTaken (s : State) (m : Nat) (a : ActWr) : State :=
  (s.wrRun m fun a => { a with rew := [], revs := a.revs + 1 }).setFld (Reg.MCA_WR_STAT m) 24 2 (a.revs + 1)

theorem State.med_rewTaken (h : (s.med m).wr = some a) :
    (s.rewTaken m a).med m = { s.med m with wr := some { a with rew := [], revs := a.revs + 1 } } :=
  s.med_wrRun h _

/-- The slot that a revolution writes again, with its data taken and the write counted (R165, R172). -/
def State.rewSupplied (s : State) (m : Nat) (w : WSlot) : State :=
  (s.setMed m { s.med m with staged := smDel (s.med m).staged w.idx }).incFld (Reg.MCA_WCNT m 1) 0 32

theorem State.rewriteOne_writes (h : (s.med m).wr = some a) (hcur : a.cur = none) {data : List W8}
    (hdata : smFind (s.med m).staged w.idx = some (some data)) (gates : List Nat) : s.rewriteOne m w gates =
      (s.rewSupplied m w).wrBegin m { w with crc := sectorCrc data w.tag } (payloadOf data w.tag) gates := by
  unfold State.rewriteOne
  rw [State.wrFinish_none h hcur]
  dsimp only
  rw [hdata]
  rfl

theorem State.rewriteRev_one (h : (s.med m).wr = some a) (hpass : a.passed = true) (hcur : a.cur = none) (hvfy : a.vfy = [])
    (hrew : a.rew = [w]) (hidx : w.idx ≠ 0xFFFF) (habort : a.abort = false) (hrevs : a.revs < 2) (hfree : s.gateFree m a = true)
    (hdata : (smFind (s.med m).staged w.idx).isSome = true) (gates : List (List Nat)) : s.rewriteRev m gates =
      ((s.rewTaken m a).rewriteOne m w (gates.getD 0 [])).wrEndCheck m := by
  have hgo : ¬ ((!a.passed || !a.vfy.isEmpty || a.rew.isEmpty || a.cairn == 1 && (a.rew.any fun w => w.idx == 0xFFFF) || a.abort ||
      !(s.rewReady m a.rew) || decide (2 ≤ a.revs) || !(s.gateFree m a)) = true) := by
    simp [hpass, hvfy, hrew, hidx, habort, hrevs, hfree, State.rewReady, hdata]
  unfold State.rewriteRev
  rw [State.vfyReady_none h hcur]
  dsimp only
  split
  next hnone => exact absurd (h.symm.trans hnone) (by simp)
  next b hb =>
    obtain rfl : b = a := Option.some.inj (hb.symm.trans h)
    refine (if_neg hgo).trans ?_
    rw [hrew]
    rfl

/-- The registers that a rewrite revolution writes are none of those that the writing of a sector reads. -/
theorem rewriteRegs_ne (m : Nat) : ∀ o ∈ [Reg.GYL_ACT_QUAL m, Reg.MCA_CTRL m, Reg.SYS_ROLE, Reg.MCA_ZONE_STAT m, Reg.MCA_WR_BAND m],
    o ≠ Reg.MCA_WR_STAT m ∧ o ≠ Reg.MCA_WCNT m 1 := by
  simp only [List.mem_cons, List.not_mem_nil, or_false, Reg.GYL_ACT_QUAL, Reg.MCA_CTRL, Reg.SYS_ROLE, Reg.MCA_ZONE_STAT,
    Reg.MCA_WR_BAND, Reg.MCA_WR_STAT, Reg.MCA_WCNT]
  omega

/-- What a revolution leaves that writes the one slot of the rewrite list (R163, R165, R170, R172). -/
theorem State.rewriteRev_spec (h : (s.med m).wr = some a) (hpass : a.passed = true) (hcur : a.cur = none) (hvfy : a.vfy = [])
    (hrew : a.rew = [w]) (hidx : w.idx ≠ 0xFFFF) (habort : a.abort = false) (hrevs : a.revs < 2) (hfree : s.gateFree m a = true)
    {data : List W8} (hdata : smFind (s.med m).staged w.idx = some (some data)) (hunsafe : s.wUnsafe m = false)
    (hon : s.rbit (Reg.MCA_CTRL m) 0 = true) (hbiv : s.rbit Reg.SYS_ROLE 4 = false) (gates : List (List Nat)) :
    let t := s.rewriteRev m gates
    (∃ ea, t.med m = { s.med m with
        staged := smDel (s.med m).staged w.idx, gate := true, ea := ea
        wr := some { a with
          rew := [], revs := a.revs + 1
          cur := some { w with crc := sectorCrc data w.tag, writes := w.writes + 1, unsafeSeen := false } } }) ∧
      t.out = s.out ++ (if (s.med m).gate then [] else gateEvents m (s.eaLead m) true) ++
        s.sectorEvents m a.run (a.run.start + w.idx) (payloadOf data w.tag) (gates.getD 0 []) ∧
      t.fld (Reg.MCA_WR_STAT m) 24 2 = a.revs + 1 ∧
      t.reg (Reg.MCA_WCNT m 1) = BitVec.ofNat 32 (satAdd (s.reg (Reg.MCA_WCNT m 1)).toNat 1 32) ∧
      WriteOnly s t m [Reg.MCA_WR_STAT m, Reg.MCA_WCNT m 1] := by
  have hcnt_stat : Reg.MCA_WR_STAT m ≠ Reg.MCA_WCNT m 1 := by simp only [Reg.MCA_WR_STAT, Reg.MCA_WCNT]; omega
  have htaken := State.med_rewTaken h
  rw [State.rewriteRev_one h hpass hcur hvfy hrew hidx habort hrevs hfree (by rw [hdata]; rfl),
    State.rewriteOne_writes (congrArg Med.wr htaken) hcur (by rw [htaken, hdata])]
  generalize hu : (s.rewTaken m a).rewSupplied m w = u
  have humed : u.med m = { s.med m with
      staged := smDel (s.med m).staged w.idx, wr := some { a with rew := [], revs := a.revs + 1 } } := by
    rw [← hu, State.rewSupplied, State.med_incFld, State.med_setMed, htaken]
  have hureg (o : Nat) (ho : o ≠ Reg.MCA_WR_STAT m ∧ o ≠ Reg.MCA_WCNT m 1) : u.reg o = s.reg o := by
    rw [← hu, State.rewSupplied, State.incFld, State.reg_setFld, if_neg ho.2, State.reg_setMed, State.rewTaken, State.reg_setFld,
      if_neg ho.1, State.reg_wrRun]
  have hukept (o : Nat) (ho : o ∈ [Reg.GYL_ACT_QUAL m, Reg.MCA_CTRL m, Reg.SYS_ROLE, Reg.MCA_ZONE_STAT m, Reg.MCA_WR_BAND m]) :
      u.reg o = s.reg o := hureg o (rewriteRegs_ne m o ho)
  have hustat : u.fld (Reg.MCA_WR_STAT m) 24 2 = a.revs + 1 := by
    rw [← hu, State.fld, State.rewSupplied, State.incFld, State.reg_setFld, if_neg hcnt_stat, State.reg_setMed, State.rewTaken,
      State.reg_setFld, if_pos rfl]
    exact getF_setF _ (by omega) (by decide)
  have hucnt : u.reg (Reg.MCA_WCNT m 1) = BitVec.ofNat 32 (satAdd (s.reg (Reg.MCA_WCNT m 1)).toNat 1 32) := by
    rw [← hu, State.rewSupplied, State.reg_incFld_whole, State.reg_setMed, State.rewTaken, State.reg_setFld, if_neg hcnt_stat.symm,
      State.reg_wrRun]
  have huonly : WriteOnly s u m [Reg.MCA_WR_STAT m, Reg.MCA_WCNT m 1] :=
    hu ▸ ((((WriteOnly.refl s m _).wrRun _).setReg (by simp) _).setMed _).setReg (by simp) _
  have huout : u.out = s.out := by
    rw [← hu]
    exact (State.setMed_out ..).trans (State.out_wrRun ..)
  obtain ⟨⟨ea, hmed⟩, hout, hregs, honly⟩ := State.wrBegin_spec (s := u) (congrArg Med.wr humed)
    (by rw [State.wUnsafe, State.rbit, hukept _ (by simp)]; exact hunsafe) (by rw [State.rbit, hukept _ (by simp)]; exact hon)
    (by rw [State.rbit, hukept _ (by simp)]; exact hbiv) { w with crc := sectorCrc data w.tag } (payloadOf data w.tag)
    (gates.getD 0 [])
  rw [State.wrEndCheck_goesOn (congrArg Med.wr hmed) (.inl (by simp))]
  have hlead : u.eaLead m = s.eaLead m := by rw [State.eaLead, State.zoneF, humed, State.eaLead, State.zoneF]
  rw [State.sectorEvents_congr (by rw [humed]) (hukept _ (by simp)) (hukept _ (by simp)), hlead, humed, huout] at hout
  have hreg (o : Nat) : (u.wrBegin m { w with crc := sectorCrc data w.tag } (payloadOf data w.tag) (gates.getD 0 [])).reg o =
      u.reg o := by rw [State.reg, hregs, State.reg]
  refine ⟨⟨ea, by rw [hmed, humed]⟩, ?_, ?_, ?_, huonly.trans (honly.mono (List.nil_subset _))⟩
  · rw [hout, wSector, if_neg hidx]
  · rw [State.fld, hreg]
    exact hustat
  · rw [hreg, hucnt]

/-- The cairn to be written, with its tag (R154, R172). -/
def cairnSlot (area tag : List W8) : WSlot := { WSlot.blank 0xFFFF with tag := tag, crc := sectorCrc area tag }

theorem State.cairnWrite_begins (h : (s.med m).wr = some a) (hpass : a.passed = true) (hcur : a.cur = none) (hvfy : a.vfy = [])
    (hrew : a.rew = []) (habort : a.abort = false) (hcairn : a.cairn = 1) (hfree : s.gateFree m a = true) {area : List W8}
    {u : State} (hr : s.memRead (a.run.cairn / 4096 * 4096) 4096 = (area, false, u)) (gates : List Nat) :
    s.cairnWrite m gates = (u.wrRun m fun a => { a with rew := [], cairn := 2 }).wrBegin m (cairnSlot area (u.cairnTag area))
      (payloadOf area (u.cairnTag area)) gates := by
  have hgo : ¬ ((!a.passed || a.abort || !a.vfy.isEmpty || a.cairn != 1 ||
      decide (a.rew.length ≠ (a.rew.filter fun w => w.idx == 0xFFFF).length) || !(s.gateFree m a)) = true) := by
    simp [hpass, habort, hvfy, hcairn, hrew, hfree]
  unfold State.cairnWrite
  rw [State.vfyReady_none h hcur]
  dsimp only
  split
  next hnone => exact absurd (h.symm.trans hnone) (by simp)
  next b hb =>
    obtain rfl : b = a := Option.some.inj (hb.symm.trans h)
    refine (if_neg hgo).trans ?_
    rw [hr, hrew]
    rfl

/-- What the writing of the cairn leaves (R163, R172). -/
theorem State.cairnWrite_spec (h : (s.med m).wr = some a) (hpass : a.passed = true) (hcur : a.cur = none) (hvfy : a.vfy = [])
    (hrew : a.rew = []) (habort : a.abort = false) (hcairn : a.cairn = 1) (hfree : s.gateFree m a = true) {area : List W8}
    {u : State} (hr : s.memRead (a.run.cairn / 4096 * 4096) 4096 = (area, false, u)) (hmem : s.MemOnly u)
    (hunsafe : u.wUnsafe m = false) (hon : u.rbit (Reg.MCA_CTRL m) 0 = true) (hbiv : u.rbit Reg.SYS_ROLE 4 = false)
    (gates : List Nat) : let t := s.cairnWrite m gates
    t.out = u.out ++ (if (s.med m).gate then [] else gateEvents m (s.eaLead m) true) ++
        u.sectorEvents m a.run 0 (payloadOf area (u.cairnTag area)) gates ∧
      (∃ ea, t.med m = { s.med m with
        gate := true, ea := ea
        wr := some { a with cairn := 2, cur := some { cairnSlot area (u.cairnTag area) with writes := 1 } } }) ∧
      t.regs = u.regs ∧ WriteOnly u t m [] := by
  have humed := hmem.med m
  rw [State.cairnWrite_begins h hpass hcur hvfy hrew habort hcairn hfree hr]
  have hwmed := u.med_wrRun (m := m) (a := a) (by rw [humed, h]) fun a => { a with rew := [], cairn := 2 }
  rw [humed] at hwmed
  generalize hw : (u.wrRun m fun a => { a with rew := [], cairn := 2 }) = w at hwmed
  have hwreg (o : Nat) : w.reg o = u.reg o := by rw [← hw, State.reg_wrRun]
  have hlead : w.eaLead m = s.eaLead m := by rw [State.eaLead, State.zoneF, hwmed, State.eaLead, State.zoneF]
  obtain ⟨⟨ea, hmed⟩, hout, hregs, honly⟩ := State.wrBegin_spec (congrArg Med.wr hwmed)
    (by rw [State.wUnsafe, State.rbit, hwreg]; exact hunsafe) (by rw [State.rbit, hwreg]; exact hon)
    (by rw [State.rbit, hwreg]; exact hbiv) (cairnSlot area (u.cairnTag area)) (payloadOf area (u.cairnTag area)) gates
  rw [State.sectorEvents_congr (by rw [hwmed, humed]) (hwreg _) (hwreg _), hlead, hwmed] at hout
  rw [hwmed] at hmed
  refine ⟨?_, ⟨ea, ?_⟩, ?_, ?_⟩
  · rw [hout, ← hw, State.out_wrRun]
    rfl
  · rw [hmed, ← hrew]
    rfl
  · rw [hregs, ← hw, State.regs_wrRun]
  · exact (hw ▸ (WriteOnly.refl u m []).wrRun _ : WriteOnly u w m []).trans honly

end

end Sys2Proof.Machine
end

section
namespace Sys2Proof.Machine

/-! ### The end of a write run by ABORT, and the delivery of its records (R173, R174) -/

section
variable {s t u : State} {m : Act} {a : ActWr} {w : WSlot}

/-- From `s`, whose active run is `a`, `n` more slots have ended ABORTED in `t`, and nothing else has changed (R174). -/
def AbortedBy (s t : State) (m : Act) (a : ActWr) (n : Nat) : Prop :=
  ∃ l cairn, l.length = n ∧ (∀ rc ∈ l, leAt rc 7 1 = 0x13) ∧
    t.med m = { s.med m with wr := some { a with out := a.out ++ l, cairn := cairn } } ∧ MedOnly s t m []

theorem AbortedBy.refl (h : (s.med m).wr = some a) : AbortedBy s s m a 0 :=
  ⟨[], a.cairn, rfl, by simp, by rw [List.append_nil, ← h], .refl ..⟩

/-- A slot that ends ABORTED adds its record and has no counter and no event (R173, R174). -/
theorem State.slotEnd_aborted (h : (s.med m).wr = some a) (w : WSlot) : AbortedBy s (s.slotEnd m w 0x13) m a 1 := by
  have heq : s.slotEnd m w 0x13 = s.wrRun m fun b =>
    { b with out := b.out ++ [s.wrRecord m a w 0x13], cairn := if w.idx = 0xFFFF then 3 else b.cairn } :=
    State.slotEnd_eq h (by simp)
  rw [heq]
  refine ⟨[s.wrRecord m a w 0x13], _, rfl, ?_, s.med_wrRun h _, (MedOnly.refl s m _).wrRun _⟩
  simp only [List.mem_singleton, forall_eq]
  exact (s.wrRecord_spec m a w (by decide)).2.1

/-- One slot after the other. -/
theorem AbortedBy.next {n k : Nat} (h : AbortedBy s t m a n)
    (hnext : ∀ b, (t.med m).wr = some b → AbortedBy t u m b k) : AbortedBy s u m a (n + k) := by
  obtain ⟨l, c, hlen, hst, hmed, honly⟩ := h
  obtain ⟨l', c', hlen', hst', hmed', honly'⟩ := hnext _ (congrArg Med.wr hmed)
  refine ⟨l ++ l', c', by rw [List.length_append, hlen, hlen'], fun rc hrc => ?_, ?_, honly.trans honly'⟩
  · exact (List.mem_append.1 hrc).elim (hst rc) (hst' rc)
  · rw [hmed', hmed, ← List.append_assoc]

theorem State.abortRest_spec (h : (s.med m).wr = some a) (i n : Nat) : AbortedBy s (s.abortRest m i n) m a n := by
  induction n generalizing s a i with
  | zero => exact .refl h
  | succ n ih =>
    have hall := (State.slotEnd_aborted h (WSlot.blank i)).next fun b hb => ih hb (i + 1)
    rwa [Nat.add_comm 1 n] at hall

theorem State.foldl_slotEnd_aborted (h : (s.med m).wr = some a) (l : List WSlot) :
    AbortedBy s (l.foldl (fun s w => s.slotEnd m w 0x13) s) m a l.length := by
  induction l generalizing s a with
  | nil => exact .refl h
  | cons w l ih =>
    rw [List.length_cons, Nat.add_comm]
    exact (State.slotEnd_aborted h w).next fun b hb => ih hb

/-- The slots of a stopped run that no later command ends: those not written and those that await rewrite (R174). -/
def ActWr.stopCount (a : ActWr) : Nat :=
  (if a.passed then 0 else a.run.count - a.next) + (a.rew.filter fun w => w.idx != 0xFFFF || a.cairn == 1).length

/-- What stopping a run leaves under whose writer nothing passes (R163, R174). -/
theorem State.wrStop_spec {b : ActWr} (h : (s.med m).wr = some b) (hcur : a.cur = none) : let t := s.wrStop m a
    ∃ l cairn ea, l.length = a.stopCount ∧ (∀ rc ∈ l, leAt rc 7 1 = 0x13) ∧
      t.med m = { s.med m with
        gate := false, ea := ea, wr := some { b with abort := true, rew := [], out := b.out ++ l, cairn := cairn } } ∧
      WriteOnly s t m [] := by
  have hrun := s.med_wrRun h fun b => { b with abort := true, rew := [], cairn := if b.cairn = 1 then 0 else b.cairn }
  have honly : WriteOnly s (s.wrRun m fun b => { b with abort := true, rew := [], cairn := if b.cairn = 1 then 0 else b.cairn }) m [] :=
    (WriteOnly.refl s m _).wrRun _
  unfold State.wrStop
  dsimp only
  generalize (s.wrRun m fun b => { b with abort := true, rew := [], cairn := if b.cairn = 1 then 0 else b.cairn }) = u at hrun honly
  obtain ⟨⟨ea, hgate⟩, -, -, hgonly⟩ := u.setGate_false_spec m
  rw [hrun] at hgate
  rw [if_pos (show a.cur.isNone = true by simp [hcur])]
  generalize u.setGate m false = v at hgate hgonly
  have hrest (b : ActWr) (hb : (v.med m).wr = some b) : AbortedBy v
      (if a.passed then v else v.abortRest m a.next (a.run.count - a.next)) m b (if a.passed then 0 else a.run.count - a.next) := by
    split
    · exact .refl hb
    · exact State.abortRest_spec hb ..
  obtain ⟨l, cairn, hlen, hst, hmed, hmonly⟩ := (hrest _ (congrArg Med.wr hgate)).next fun b hb => State.foldl_slotEnd_aborted hb
    (a.rew.filter fun w => w.idx != 0xFFFF || a.cairn == 1)
  exact ⟨l, cairn, ea, hlen, hst, by rw [hmed, hgate], (honly.trans hgonly).trans hmonly.writeOnly⟩

/-- A record that the record channel takes counts as done (R173). -/
theorem State.wrDeliver_done (h : (s.med m).wr = some a) {x x2 : List W8} {rest : List (List W8)} (hout : a.out = x :: x2 :: rest)
    (hput : s.streamPut a.run.recCh (1 + 4 * m) x = (true, u)) (hmed : u.med m = s.med m) : let t := s.wrDeliver m
    t.med m = { s.med m with wr := some { a with out := x2 :: rest, done := a.done + 1 } } ∧
      t.fld (Reg.MCA_WR_STAT m) 0 16 = (a.done + 1) % 2 ^ 16 ∧ MedOnly u t m [Reg.MCA_WR_STAT m] := by
  have hrun := u.med_wrRun (m := m) (a := a) (by rw [hmed, h]) fun a => { a with out := x2 :: rest, done := a.done + 1 }
  have hbusy : ((s.med m).wr.map (·.out.isEmpty)).getD false = false := by simp [h, hout]
  have heq : s.wrDeliver m = (u.wrRun m fun a => { a with out := x2 :: rest, done := a.done + 1 }).setFld (Reg.MCA_WR_STAT m) 0 16
      (a.done + 1) := by
    refine Eq.trans ?_ (State.wrEndCheck_goesOn (congrArg Med.wr hrun) (.inr (.inr (.inr (by simp)))))
    unfold State.wrDeliver
    rw [hbusy, if_neg (by decide)]
    dsimp only
    split
    next hnone => exact absurd (h.symm.trans hnone) (by simp)
    next b hb =>
      obtain rfl : b = a := Option.some.inj (hb.symm.trans h)
      rw [hout]
      dsimp only
      rw [hput]
      rfl
  rw [heq]
  refine ⟨hrun.trans (by rw [hmed]), ?_, ((MedOnly.refl u m _).wrRun _).setReg (by simp) _⟩
  rw [State.fld, State.reg_setFld, if_pos rfl]
  exact getF_setF_mod _ 0 16 _ (by decide)

end

end Sys2Proof.Machine
end

section
namespace Sys2Proof.Machine

/-! ### From a GO to the records -/

section
variable {m : Act}

theorem exec_slotWrite {gates : List Nat} (hwf : risingWf gates = true) (s : State) :
    exec (.slotWrite ⟨m, gates⟩) s = done (s.slotWrite m gates) :=
  if_pos hwf

theorem exec_verifyResult {v : List Int} (hwf : signalWf v = true) (s : State) :
    exec (.verifyResult m v) s = done (s.verifyResult m v) :=
  if_pos hwf

theorem exec_rewriteRevolution {gates : List (List Nat)} (hwf : gates.all risingWf = true) (s : State) :
    exec (.rewriteRevolution ⟨m, gates⟩) s = done (s.rewriteRev m gates) :=
  if_pos hwf

theorem exec_cairnWrite {gates : List Nat} (hwf : risingWf gates = true) (s : State) :
    exec (.cairnWrite ⟨m, gates⟩) s = done (s.cairnWrite m gates) :=
  if_pos hwf

end

/-- Settles O34: each command's state is rewritten to the step it makes, and the lemma on that step says what it leaves. -/
theorem writeRunsWriteVerifyAndRewrite : Obligations.WriteRunsWriteVerifyAndRewrite := by
  refine ⟨fun m v s hgo habort hpend => ?_, fun m r s hpend hidle hready hzone hturn hgo => ?_,
    fun m gates a data s hwf hwr hcur hpass hfree hdata => ?_, fun m gates a w s hwf hwr hcur hpass hmode hcells hwait hbiv => ?_,
    fun m a s hwr hpass hdata hvfy => ?_, fun m v a w rest s hwf hwr hvfy hidx => ?_,
    fun m gates a w data s hwf hwr hpass hcur hvfy hrew hidx habort hrevs hfree hdata hunsafe hon hbiv => ?_,
    fun m gates a s hwf hwr hpass hcur hvfy hrew habort hcairn hfree => ?_,
    fun m v atEnd s hgo habort => ⟨fun hwr hwait => ?_, fun a hwr hcur hvfy hend hwait => ?_⟩,
    fun m a x x2 rest s hwr hout htaken hmed => ?_⟩
  · obtain ⟨hmed, hctrl, hstat, honly⟩ := State.wrCopy_spec (s := s.wrGoWritten m v) (State.rbit_wrGoWritten ..) hpend
    refine ⟨_, exec_writeGo hgo habort s, ?_, hctrl, ?_, ((s.wrGoWritten_medOnly m v).trans honly).settle⟩
    · rw [State.med_settle, hmed, State.wrNamed_wrGoWritten]
      rfl
    · rw [State.reg_settle, hstat, State.reg_wrGoWritten, if_neg (writeCtrl_ne m).1.symm]
  · obtain ⟨hmed, hstat, hband, honly⟩ := State.wrStart_spec hpend hidle hready hzone hturn hgo
    refine ⟨_, rfl, hmed.trans ?_, hstat, hband, honly.settle⟩
    have hmode : (s.wrActive m r).mode ≠ 0 ↔ s.fld (Reg.MCA_VFY_CFG m) 0 2 ≠ 0 := by
      simp only [State.wrActive]
      omega
    simp only [hmode]
    rfl
  · intro rd tag hgood hskip hunsafe hon hbiv
    have hread : s.memRead (a.run.desc / 64 * 64 + 64 * a.next) 64 = (rd.1, false, rd.2.2) := by rw [← hgood]
    have hmem : s.MemOnly rd.2.2 := (State.MemOnly.refl s).memRead ..
    obtain ⟨hout, ⟨ea, hmed⟩, hregs, honly⟩ :=
      State.slotWrite_spec hwr hcur hpass hfree hread hmem hskip hdata hunsafe hon hbiv gates
    refine ⟨_, _, exec_slotWrite hwf s, hout, congrArg Med.wr hmed, congrArg Med.gate hmed, rfl, rfl, rfl, rfl, rfl, rfl, rfl,
      ?_, honly.mem, hregs, honly.thrs.trans hmem.thrs, honly.other.trans (hmem.med _)⟩
    rw [State.med_settle, hmed]
    exact smFind_del_same ..
  · obtain ⟨⟨ea, hmed⟩, hout, hregs, honly⟩ := State.wrFinish_waits hwr hcur hmode hcells
    have heq := State.slotWrite_waits hwr hcur hmode hcells hwait gates
    rw [← heq] at hmed hout hregs honly
    exact ⟨_, exec_slotWrite hwf s, congrArg Med.wr hmed, congrArg Med.gate hmed, hout, hregs, honly.mem, honly.thrs, honly.other⟩
  · have heq := State.wrUnderrun_marks hwr hpass hdata hvfy
    refine ⟨_, congrArg done heq, s.med_wrRun hwr _, ((MedOnly.refl s m _).wrRun _).settle⟩
  · rcases hdec : s.vfyDecode m v (max 1 (min 12 (s.zoneF m 396 1))) with ⟨loops, arb, d, mse⟩
    refine ⟨fun hconv hmark hcheck hcrc hmse hsafe hlist => ?_, fun hbad hmode habort hwrites hroom => ?_,
      fun hbad hmode hwrites => ?_⟩
    · obtain ⟨rc, hend, hlen, hstatus, hslot, hcnt, honly⟩ := State.verifyResult_good hwr hvfy hdec
        (State.vfyFlags_good hidx hconv hmark rfl hcheck hcrc hmse hsafe) hidx hlist
      exact ⟨_, rc, exec_verifyResult hwf s, hend, hlen, hstatus, hslot, honly.mem, hcnt, honly.settle⟩
    · obtain ⟨hend, honly⟩ := State.verifyResult_rewrite hwr hvfy hdec (State.vfyFlags_bad hbad mse) hidx hmode habort hwrites hroom
      exact ⟨_, _, exec_verifyResult hwf s, hend, rfl, rfl, rfl, rfl, rfl, honly.settle⟩
    · obtain ⟨rc, hend, hstatus, hout, hevent, hcnt, honly⟩ :=
        State.verifyResult_fails hwr hvfy hdec (State.vfyFlags_bad hbad mse) hidx hmode hwrites
      exact ⟨_, rc, exec_verifyResult hwf s, hend, hstatus, hout, honly.mem, honly.thrs, hevent, hcnt, honly.other, honly.regsBut⟩
  · obtain ⟨⟨ea, hmed⟩, hout, hstat, hcnt, honly⟩ :=
      State.rewriteRev_spec hwr hpass hcur hvfy hrew hidx habort hrevs hfree hdata hunsafe hon hbiv gates
    refine ⟨_, exec_rewriteRevolution hwf s, congrArg Med.wr hmed, hout, congrArg Med.gate hmed, hstat, hcnt, ?_, honly.mem,
      honly.thrs, honly.other, honly.regsBut⟩
    rw [State.med_settle, hmed]
    exact smFind_del_same ..
  · intro rd tag hgood hunsafe hon hbiv
    have hread : s.memRead (a.run.cairn / 4096 * 4096) 4096 = (rd.1, false, rd.2.2) := by rw [← hgood]
    have hmem : s.MemOnly rd.2.2 := (State.MemOnly.refl s).memRead ..
    obtain ⟨hout, ⟨ea, hmed⟩, hregs, honly⟩ :=
      State.cairnWrite_spec hwr hpass hcur hvfy hrew habort hcairn hfree hread hmem hunsafe hon hbiv gates
    exact ⟨_, _, exec_cairnWrite hwf s, hout, congrArg Med.wr hmed, congrArg Med.gate hmed, rfl, rfl, rfl, rfl, honly.mem, hregs,
      honly.thrs.trans hmem.thrs, honly.other.trans (hmem.med _)⟩
  · have hexec := exec_writeAbort (m := m) hgo habort s atEnd
    simp only [State.wrCopy_wrDropped hwait, State.med_wrDropped, hwr] at hexec
    refine ⟨_, hexec, s.med_wrDropped m v, State.rbit_clrReg_bit _ _ (by decide), ?_,
      ((s.wrDropped_medOnly m v).setReg (by simp) _).settle⟩
    rw [State.rbit, State.reg_settle, State.reg_clrReg, if_neg (writeCtrl_ne m).1.symm]
    exact s.rbit_stat_wrDropped m v
  · subst hend
    have hexec := exec_writeAbort (m := m) hgo habort s false
    simp only [State.wrCopy_wrDropped hwait, State.med_wrDropped, hwr, Bool.false_eq_true, if_false] at hexec
    have honly : WriteOnly s ((s.wrDropped m v).orReg (Reg.MCA_WR_CTRL m) (bit 2)) m [Reg.MCA_WR_CTRL m, Reg.MCA_WR_STAT m] :=
      ((s.wrDropped_medOnly m v).setReg (by simp) _).writeOnly
    obtain ⟨l, cairn, ea, hlen, hst, hmed, hframe⟩ := State.wrStop_spec
      (s := (s.wrDropped m v).orReg (Reg.MCA_WR_CTRL m) (bit 2)) (m := m) (b := a)
      (by rw [State.med_orReg, State.med_wrDropped, hwr]) hcur
    rw [State.wrEndCheck_goesOn (congrArg Med.wr hmed) (.inr (.inl hvfy))] at hexec
    rw [State.med_orReg, State.med_wrDropped] at hmed
    have hall := honly.trans (hframe.mono (List.nil_subset _))
    refine ⟨_, _, hexec, congrArg Med.wr hmed, rfl, rfl, rfl, List.take_left .., ?_, ?_, congrArg Med.gate hmed,
      congrArg Med.wrPend hmed, ?_, hall.mem, hall.thrs, hall.regsBut⟩
    · rw [List.length_append, hlen, ActWr.stopCount, Nat.add_assoc]
    · rw [List.drop_left]
      exact hst
    · rw [State.rbit, State.reg_settle, hframe.regsBut _ List.not_mem_nil, State.reg_orReg, if_pos rfl, tb_or_bit _ (by decide)]
      simp
  · obtain ⟨hend, hdone, honly⟩ := State.wrDeliver_done hwr hout (Prod.ext htaken rfl) hmed
    exact ⟨_, rfl, hend, hdone, honly.mem, honly.thrs, honly.settle⟩

end Sys2Proof.Machine
end

section
namespace Sys2Proof.Machine

/-! ### What an access to memory leaves, reads and writes alike (R384 to R400) -/

/-- An access to memory changes memory, the count of free values and the registers of the error logs and of the cache alone. -/
structure State.MemTouch (s t : State) : Prop where
  only : s.MemOnly t
  regs : s.MemRegs t

namespace State.MemTouch

theorem refl (s : State) : s.MemTouch s := ⟨.refl s, .refl s⟩

theorem reg {s t : State} (h : s.MemTouch t) {o : Nat} (ho : o ∉ memRegs) : t.reg o = s.reg o := h.regs.regsBut o ho

variable {s t : State} (h : s.MemTouch t)
include h

theorem mem (mem : Mem) : s.MemTouch { t with mem := mem } := ⟨h.only.change _ _ _, h.regs.mem _ _⟩

theorem foldl {α : Type} {f : State → α → State} (hf : ∀ u a, s.MemTouch u → s.MemTouch (f u a)) (l : List α) :
    s.MemTouch (l.foldl f t) := by
  induction l generalizing t with
  | nil => exact h
  | cons a l ih => exact ih (hf _ a h)

theorem touch (l : Nat) : s.MemTouch (t.touch l) := ⟨h.only.touch l, h.regs.touch l⟩

theorem markDirty (l : Nat) : s.MemTouch (t.markDirty l) := ⟨h.only.markDirty l, h.regs.markDirty l⟩

theorem fillDone (bank : Nat) : s.MemTouch (t.fillDone bank) := ⟨h.only.fillDone bank, h.regs.fillDone bank⟩

theorem memRead (a n : Nat) : s.MemTouch (t.memRead a n).2.2 := ⟨h.only.memRead a n, h.regs.memRead a n⟩

theorem writeSramPart (w o : Nat) (l : List W8) (bad : Bool) : s.MemTouch (t.writeSramPart w o l bad) := by
  unfold State.writeSramPart
  split
  · exact h.mem _
  · exact MemTouch.mem ⟨h.only.readSramWord w, h.regs.readSramWord w⟩ _

theorem sramFill (o : Nat) (l : List W8) : s.MemTouch (t.sramFill o l) := h.foldl (fun _ _ hu => hu.writeSramPart ..) _

theorem writeDramPart (w o : Nat) (l : List W8) (bad : Bool) : s.MemTouch (t.writeDramPart w o l bad) := by
  have hread : s.MemTouch ((t.touch (w / 8)).cachedWord w).2.2 :=
    ⟨(h.touch _).only.cachedWord w, (h.touch _).regs.cachedWord w⟩
  unfold State.writeDramPart
  split
  · exact h
  · split
    · exact ((h.touch _).mem _).markDirty _
    · exact (hread.mem _).markDirty _

/-- The fill in flight that a whole line waits for has arrived. -/
theorem lineWaits (l : Nat) : s.MemTouch (match smFind t.mem.miss (lineBank l) with
    | some m => if m = l then t.fillDone (lineBank l)
      else if (t.inSet l).isSome then t else (t.stall).fillDone (lineBank l)
    | none => t) := by
  have hstall : s.MemTouch t.stall := ⟨h.only.change _ _ _, h.regs.stall⟩
  split
  · split
    · exact h.fillDone _
    · split
      · exact h
      · exact hstall.fillDone _
  · exact h

theorem linePlaced (l : Nat) : s.MemTouch (if (t.inSet l).isSome then t.incFld (Reg.CCH_CNT 0) 0 32
    else if (t.inVict l).isSome then t.fill l else t.place l true) := by
  split
  · exact ⟨h.only.change _ _ _, h.regs.count 0 ..⟩
  · split
    · exact ⟨h.only.fill l, h.regs.fill l⟩
    · exact ⟨h.only.place l true, h.regs.place l true⟩

theorem writeLine (l : Nat) (d : List W8) (bad : Bool) : s.MemTouch (t.writeLine l d bad) :=
  ((h.lineWaits l).linePlaced l |>.foldl (fun _ _ hu => hu.mem _) _).markDirty l

theorem writeDram (fuel a : Nat) (l : List W8) (bad : Bool) : s.MemTouch (t.writeDram a l bad fuel) := by
  induction fuel generalizing t a l with
  | zero => exact h
  | succ fuel ih =>
    unfold State.writeDram
    split
    · exact h
    · split
      · exact h
      · split
        · exact ih (h.writeLine ..) ..
        · exact ih (h.writeDramPart ..) ..

theorem memWrite (a : Nat) (l : List W8) (bad : Bool) : s.MemTouch (t.memWrite a l bad) := by
  unfold State.memWrite
  split
  · exact h.writeDram ..
  · split
    · exact h
    · exact h.foldl (fun _ _ hu => hu.writeSramPart ..) _
  · exact h

end State.MemTouch

/-! ### The image of a dump (R310) -/

namespace State.MemTouch

/-- A list gathered while memory is read. -/
theorem gather {α β : Type} {f : α × State → β → α × State} {s t : State}
    (hf : ∀ x b, s.MemTouch x.2 → s.MemTouch (f x b).2) (l : List β) (a : α) (h : s.MemTouch t) :
    s.MemTouch (l.foldl f (a, t)).2 := by
  induction l generalizing a t with
  | nil => exact h
  | cons b l ih => exact ih _ (hf (a, t) b h)

variable {s t : State} (h : s.MemTouch t)
include h

theorem saveList : s.MemTouch t.saveList.2 := by
  unfold State.saveList
  refine gather (fun x i hx => ?_) _ _ h
  exact hx.memRead ..

theorem dumpBucket (b : Nat) : s.MemTouch (t.dumpBucket b).2 := by
  refine gather (fun x i hx => ?_) _ _ h
  dsimp only
  split <;> exact hx.memRead ..

theorem dumpBuckets (n : Nat) : s.MemTouch (t.dumpBuckets n).2 := by
  induction n with
  | zero => exact h
  | succ n ih => exact ih.dumpBucket n

theorem gsImage : s.MemTouch t.gsImage.2 := by
  unfold State.gsImage
  dsimp only
  refine gather (fun x r hx => ?_) _ _ ?_
  · split
    · exact hx.memRead ..
    · exact hx
  · split
    · refine dumpBuckets (gather (fun x e hx => ?_) _ _ h.saveList) _
      exact hx.memRead ..
    · refine gather (fun x e hx => ?_) _ _ h.saveList
      exact hx.memRead ..

end State.MemTouch

/-- What an image records beside memory (R310): the number after the last one, the charge and the area. -/
theorem State.gsImage_spec (s : State) :
    s.gsImage.1.seq = s.gs.seqNew + 1 ∧ s.gsImage.1.charge = s.charge ∧ s.gsImage.1.area = s.fld Reg.NVI_GS_STATE 4 1 := by
  have hread := (State.MemTouch.refl s).gsImage
  have hcharge : s.gsImage.2.charge = s.charge := by
    rw [State.charge, State.fld, hread.reg (not_mem_memRegs (by decide)), State.charge, State.fld]
  have harea : s.gsImage.2.fld Reg.NVI_GS_STATE 4 1 = s.fld Reg.NVI_GS_STATE 4 1 := by
    rw [State.fld, hread.reg (not_mem_memRegs (by decide)), State.fld]
  exact ⟨rfl, hcharge, harea⟩

/-- A dump that no area is armed for fails (R309). -/
theorem State.dumpStart_unarmed {s : State} (hdump : s.gs.dump = none) (harmed : s.rbit Reg.NVI_GS_STATE 0 = false) (biv : Bool) :
    s.dumpStart biv = (s.orReg Reg.NVI_GS_STATUS (bit 3)).clrReg Reg.NVI_GS_CTRL (bit 2) := by
  rw [State.dumpStart, if_neg (by simp [hdump]), if_pos (by simp [harmed])]

/-- A dump of the armed area starts: the area is no longer armed (R309 to R311). -/
theorem State.dumpStart_armed {s : State} (hdump : s.gs.dump = none) (harmed : s.rbit Reg.NVI_GS_STATE 0 = true) (biv : Bool) :
    let t := s.dumpStart biv
    t = { s with regs := t.regs, mem := t.mem, fresh := t.fresh, gs := t.gs } ∧
      t.gs = { s.gs with dump := some s.gsImage.1, bivDump := biv } ∧ RegsBut s t (Reg.NVI_GS_STATE :: memRegs) ∧
      t.rbit Reg.NVI_GS_STATE 5 = true ∧ t.rbit Reg.NVI_GS_STATE 0 = false := by
  have hread := (State.MemTouch.refl s).gsImage
  have heq : s.dumpStart biv = ((s.gsImage.2.setGs { s.gsImage.2.gs with dump := some s.gsImage.1, bivDump := biv }).orReg
      Reg.NVI_GS_STATE (bit 5)).clrReg Reg.NVI_GS_STATE (bit 0) := by
    rw [State.dumpStart, if_neg (by simp [hdump]), if_neg (by simp [harmed])]
  rw [heq]
  obtain ⟨regs, mem, fresh, hstate⟩ := hread.only
  refine ⟨?_, ?_, fun o ho => ?_, ?_, ?_⟩
  · rw [hstate]
    rfl
  · rw [hstate]
    rfl
  · obtain ⟨hne, hmem⟩ := not_or.mp (mt List.mem_cons.mpr ho)
    rw [State.reg_clrReg, if_neg hne, State.reg_orReg, if_neg hne]
    exact hread.reg hmem
  · rw [State.rbit, State.reg_clrReg, if_pos rfl, tb_clear_bit _ (by decide), State.reg_orReg, if_pos rfl, tb_or_bit _ (by decide)]
    simp
  · exact State.rbit_clrReg_bit _ _ (by decide)

/-- The registers that the start of a dump may change. -/
def dumpRegs : List Nat := Reg.NVI_GS_STATE :: Reg.NVI_GS_STATUS :: Reg.NVI_GS_CTRL :: memRegs

/-- What the start of a dump leaves, whether it starts or not. -/
theorem State.dumpStart_frame (s : State) (biv : Bool) : let t := s.dumpStart biv
    t = { s with regs := t.regs, mem := t.mem, fresh := t.fresh, gs := t.gs } ∧ RegsBut s t dumpRegs := by
  cases hdump : s.gs.dump with
  | some im =>
    have hruns : s.dumpStart biv = s := if_pos (by simp [hdump])
    rw [hruns]
    exact ⟨rfl, fun _ _ => rfl⟩
  | none =>
    cases harmed : s.rbit Reg.NVI_GS_STATE 0 with
    | true =>
      obtain ⟨heq, -, hregs, -, -⟩ := State.dumpStart_armed hdump harmed biv
      refine ⟨heq, fun o ho => hregs o ?_⟩
      simp only [dumpRegs, List.mem_cons, not_or] at ho ⊢
      exact ⟨ho.1, ho.2.2.2⟩
    | false =>
      rw [State.dumpStart_unarmed hdump harmed]
      refine ⟨by simp only [State.clrReg, State.orReg, State.setReg], fun o ho => ?_⟩
      simp only [dumpRegs, List.mem_cons, not_or] at ho
      rw [State.reg_clrReg, if_neg ho.2.2.1, State.reg_orReg, if_neg ho.2.1]

end Sys2Proof.Machine
end

section
namespace Sys2Proof.Machine

/-! ### A retract (R210) -/

/-- The registers that a retract of actuator `a` writes. -/
def retractRegs (a : Nat) : List Nat :=
  [Reg.GYL_CTX_CTRL (vcm a), Reg.GYL_CTX_CTRL (mac a), Reg.GYL_ACT_QUAL a, Reg.GYL_ACT_LOAD a]

/-- Nothing differs but contexts, actuators, the queue of runs and registers at the offsets of `l`. -/
structure GylOnly (s t : State) (l : List Nat) : Prop where
  eq : t = { s with regs := t.regs, gylQ := t.gylQ, gctx := t.gctx, gact0 := t.gact0, gact1 := t.gact1 }
  regsBut : RegsBut s t l

namespace GylOnly

theorem refl (s : State) (l : List Nat) : GylOnly s s l := ⟨rfl, fun _ _ => rfl⟩

variable {s t : State} {l : List Nat} (h : GylOnly s t l)
include h

theorem gylRun : t.gylRun = s.gylRun := by rw [h.eq]

theorem trans {u : State} (h' : GylOnly t u l) : GylOnly s u l :=
  ⟨h'.eq.trans (congrArg (fun v : State => { v with
      regs := u.regs, gylQ := u.gylQ, gctx := u.gctx, gact0 := u.gact0, gact1 := u.gact1 }) h.eq),
    fun o ho => (h'.regsBut o ho).trans (h.regsBut o ho)⟩

theorem mono {l' : List Nat} (hl : l ⊆ l') : GylOnly s t l' := ⟨h.eq, fun o ho => h.regsBut o fun hmem => ho (hl hmem)⟩

theorem setReg {o : Nat} (ho : o ∈ l) (v : W32) : GylOnly s (t.setReg o v) l :=
  ⟨congrArg (fun u : State => u.setReg o v) h.eq, fun i hi =>
    (t.reg_setReg o i v).trans ((if_neg fun hio : i = o => hi (hio ▸ ho)).trans (h.regsBut i hi))⟩

theorem setGact (a : Nat) (x : GAct) : GylOnly s (t.setGact a x) l := by
  refine ⟨?_, fun o ho => (t.reg_setGact a x o).trans (h.regsBut o ho)⟩
  conv_lhs => rw [h.eq]
  unfold State.setGact
  split <;> rfl

theorem adiQueue (a ty payload : Nat) : GylOnly s (t.adiQueue a ty payload) l := by
  unfold State.adiQueue
  split
  · exact h.setGact _ _
  · exact h

/-- A context that does not run is dropped. -/
theorem dropCtx (hrun : s.gylRun = none) (c : Nat) : GylOnly s (t.dropCtx c) l := by
  have hdrop : t.dropCtx c = ({ t with gylQ := t.gylQ.filter (·.2 != c) } : State).setGc c
      { t.gc c with frozen := none, due := false } := by
    have hidle : t.gylRun.map (·.ctx) ≠ some c := by simp [h.gylRun, hrun]
    exact congrArg (fun u : State => u.setGc c { u.gc c with frozen := none, due := false }) (if_neg hidle)
  rw [hdrop]
  exact ⟨congrArg (fun u : State => ({ u with gylQ := t.gylQ.filter (·.2 != c) } : State).setGc c
    { t.gc c with frozen := none, due := false }) h.eq, h.regsBut⟩

end GylOnly

theorem State.reg_adiQueue (s : State) (a ty payload o : Nat) : (s.adiQueue a ty payload).reg o = s.reg o := by
  unfold State.adiQueue
  split
  · exact State.reg_setGact ..
  · rfl

/-- While no context runs, a retract stops its contexts and puts its frames into the queue (R210). -/
theorem State.retract_spec {s : State} (hrun : s.gylRun = none) (a : Nat) :
    GylOnly s (s.retract a) (retractRegs a) ∧ (s.retract a).retracting a = true := by
  have hvcm : Reg.GYL_CTX_CTRL (vcm a) ∈ retractRegs a := by simp [retractRegs]
  have hmac : Reg.GYL_CTX_CTRL (mac a) ∈ retractRegs a := by simp [retractRegs]
  have hqual : Reg.GYL_ACT_QUAL a ∈ retractRegs a := by simp [retractRegs]
  have hmove : Reg.GYL_ACT_LOAD a ∈ retractRegs a := by simp [retractRegs]
  have hdrop := ((GylOnly.refl s (retractRegs a)).dropCtx hrun (vcm a)).dropCtx hrun (mac a)
  refine ⟨(((((((hdrop.setReg hvcm _).setReg hmac _).setReg hqual _).setReg hqual _).setReg hqual _).setReg hmove _).setReg hmove _
    |>.adiQueue ..).adiQueue .., ?_⟩
  have hload : Reg.GYL_ACT_QUAL a ≠ Reg.GYL_ACT_LOAD a := by simp only [Reg.GYL_ACT_QUAL, Reg.GYL_ACT_LOAD]; omega
  simp only [State.retracting, State.rbit, State.retract, State.reg_adiQueue, State.reg_orReg, State.reg_clrReg, if_neg hload,
    State.setQual, State.reg_setFld, if_pos]
  rw [tb_setF _ _ _ _ (by decide)]
  simp [b2n]

/-- Both actuators retract (R309). -/
theorem State.retract_both {s : State} (hrun : s.gylRun = none) : let t := (s.retract 0).retract 1
    GylOnly s t (retractRegs 0 ++ retractRegs 1) ∧ t.retracting 0 = true ∧ t.retracting 1 = true := by
  obtain ⟨hfirst, hret0⟩ := State.retract_spec hrun 0
  obtain ⟨hsecond, hret1⟩ := State.retract_spec (hfirst.gylRun.trans hrun) 1
  have hkeep : ((s.retract 0).retract 1).reg (Reg.GYL_ACT_QUAL 0) = (s.retract 0).reg (Reg.GYL_ACT_QUAL 0) :=
    hsecond.regsBut _ (by decide)
  refine ⟨(hfirst.mono (List.subset_append_left ..)).trans (hsecond.mono (List.subset_append_right ..)), ?_, hret1⟩
  rw [State.retracting, State.rbit, hkeep]
  exact hret0

end Sys2Proof.Machine
end

section
namespace Sys2Proof.Machine

/-! ### A power failure (R237, R309) -/

section
variable {s : State}

/-- What the power loss of the spindle unit leaves (R237). -/
theorem State.spnPowerLoss_spec (s : State) : let t := s.spnPowerLoss
    t = { s with regs := t.regs, spn := t.spn } ∧ RegsBut s t [Reg.SPN_STATE] := by
  have hcoast : s.enterCoast = { s with regs := s.enterCoast.regs, spn := s.enterCoast.spn } ∧
      RegsBut s s.enterCoast [Reg.SPN_STATE] := by
    refine ⟨rfl, fun o ho => ?_⟩
    have hne := List.ne_of_not_mem_cons ho
    exact (State.reg_clrReg ..).trans ((if_neg hne).trans ((State.reg_setFld ..).trans (if_neg hne)))
  unfold State.spnPowerLoss
  dsimp only
  split
  · exact ⟨rfl, fun _ _ => rfl⟩
  · split
    · exact ⟨rfl, fun _ _ => rfl⟩
    · exact hcoast

/-- In RUN and STOP a spindle that may generate keeps running, with the trigger kept (R237). -/
theorem State.spnPowerLoss_generates (hbase : s.isBase = true) (hst : s.spSt = 5 ∨ s.spSt = 6)
    (hgen : s.rbit Reg.SPN_CTRL 6 = true) : s.spnPowerLoss = s.setSpn { s.spn with genTrig := true } := by
  have hdriven : ¬(!s.isBase ∨ s.spSt = spOFF ∨ s.spSt = spFAULT ∨ s.spSt = spGEN) := by
    rcases hst with h | h <;> simp [hbase, h, spOFF, spFAULT, spGEN]
  exact (if_neg hdriven).trans (if_pos ⟨hst, hgen⟩)

/-- NVQ stopped on a Basecamp, both actuators retract (R309). -/
theorem State.dumpActions_spec (hrun : s.gylRun = none) : let t := s.dumpActions
    t = { s with
      regs := t.regs, gylQ := t.gylQ, gctx := t.gctx, gact0 := t.gact0, gact1 := t.gact1, nvq := t.nvq } ∧
    RegsBut s t (retractRegs 0 ++ retractRegs 1) ∧ t.retracting 0 = true ∧ t.retracting 1 = true ∧
    (s.isBase = true → t.nvq.stopped = true) := by
  unfold State.dumpActions
  dsimp only
  split
  case isTrue hbase =>
    obtain ⟨hframe, hret0, hret1⟩ := State.retract_both (s := { s with nvq := { s.nvq with stopped := true } }) hrun
    refine ⟨?_, hframe.regsBut, hret0, hret1, fun _ => ?_⟩
    · rw [hframe.eq]
    · rw [hframe.eq]
  case isFalse hbase =>
    obtain ⟨hframe, hret0, hret1⟩ := State.retract_both hrun
    have hnvq : ((s.retract 0).retract 1).nvq = s.nvq := by rw [hframe.eq]
    refine ⟨?_, hframe.regsBut, hret0, hret1, fun hb => absurd hb hbase⟩
    rw [hnvq]
    exact hframe.eq

/-- A power failure of a part in Active or Spun with no dump running (R237, R309). -/
theorem State.powerFail_trigger (hdump : s.gs.dump = none) (hst : s.pwr.st < 2) (htrip : s.pwr.trip = false)
    (hrun : s.gylRun = none) : (s.powerFail).wakeBy 8 = ((s.dumpActions).dumpStart false).spnPowerLoss := by
  have hdumped : s.dumpTrigger = (s.dumpActions).dumpStart false := by simp [State.dumpTrigger, hdump, htrip]
  have hfail : s.powerFail = ((s.dumpActions).dumpStart false).spnPowerLoss := by
    rw [State.powerFail, if_neg (by omega), hdumped]
  have hpwr : (((s.dumpActions).dumpStart false).spnPowerLoss).pwr = s.pwr := by
    obtain ⟨hact, -⟩ := State.dumpActions_spec hrun
    rw [(State.spnPowerLoss_spec _).1, (State.dumpStart_frame _ false).1, hact]
  have hawake : ¬(s.pwr.st = 2 ∧ 8 ≠ 7) := by omega
  have hpowered : ¬s.pwr.st = 3 := by omega
  rw [hfail, State.wakeBy, hpwr, if_neg hawake, if_neg (not_and_of_not_left _ hpowered), ite_self]

/-- Registers that the retracts leave (R210). -/
theorem State.reg_dumpActions (hrun : s.gylRun = none) {o : Nat} (ho : o ∉ retractRegs 0 ++ retractRegs 1) :
    s.dumpActions.reg o = s.reg o := by
  obtain ⟨-, hregs, -⟩ := State.dumpActions_spec hrun
  exact hregs o ho

/-- Registers that the start of a dump and the spindle's power loss leave. -/
theorem State.reg_dumpStart_spnPowerLoss (s : State) {o : Nat} (ho : o ∉ Reg.SPN_STATE :: dumpRegs) :
    (s.dumpStart false).spnPowerLoss.reg o = s.reg o := by
  obtain ⟨hne, hregs⟩ := not_or.mp (mt List.mem_cons.mpr ho)
  rw [(State.spnPowerLoss_spec _).2 o (by simpa using hne), (State.dumpStart_frame _ false).2 o hregs]

/-- The vault after a power failure (R309 to R311). -/
theorem State.powerFail_vault (hdump : s.gs.dump = none) : let t := (s.dumpStart false).spnPowerLoss
    (s.rbit Reg.NVI_GS_STATE 0 = true → ∃ im, t.gs.dump = some im ∧ im.seq = s.gs.seqNew + 1 ∧ im.charge = s.charge ∧
      im.area = s.fld Reg.NVI_GS_STATE 4 1 ∧ t.rbit Reg.NVI_GS_STATE 5 = true ∧ t.rbit Reg.NVI_GS_STATE 0 = false) ∧
    (s.rbit Reg.NVI_GS_STATE 0 = false → t.gs = s.gs ∧ t.rbit Reg.NVI_GS_STATUS 3 = true) := by
  obtain ⟨hspn, hregs⟩ := State.spnPowerLoss_spec (s.dumpStart false)
  have hgs : ((s.dumpStart false).spnPowerLoss).gs = (s.dumpStart false).gs := by rw [hspn]
  have hstate : ((s.dumpStart false).spnPowerLoss).reg Reg.NVI_GS_STATE = (s.dumpStart false).reg Reg.NVI_GS_STATE :=
    hregs _ (by decide)
  refine ⟨fun harmed => ?_, fun harmed => ?_⟩
  · obtain ⟨-, himage, -, hbusy, hoff⟩ := State.dumpStart_armed hdump harmed false
    obtain ⟨hseq, hcharge, harea⟩ := s.gsImage_spec
    refine ⟨s.gsImage.1, by rw [hgs, himage], hseq, hcharge, harea, ?_, ?_⟩
    · rw [State.rbit, hstate]
      exact hbusy
    · rw [State.rbit, hstate]
      exact hoff
  · refine ⟨by rw [hgs, State.dumpStart_unarmed hdump harmed]; rfl, ?_⟩
    rw [State.rbit, hregs _ (by decide), State.dumpStart_unarmed hdump harmed, State.reg_clrReg, if_neg (by decide),
      State.reg_orReg, if_pos rfl, tb_or_bit _ (by decide)]
    simp

/-- POWER_FAIL in Active or Spun, with no dump running (R237, R309). -/
theorem exec_powerFail (hdump : s.gs.dump = none) (hst : s.pwr.st < 2) (htrip : s.pwr.trip = false) (hrun : s.gylRun = none) :
    ∃ t, exec .powerFail s = .next t ∧
    t.retracting 0 = true ∧ t.retracting 1 = true ∧ (s.isBase = true → t.nvq.stopped = true) ∧
    (s.rbit Reg.NVI_GS_STATE 0 = true → ∃ im, t.gs.dump = some im ∧ im.seq = s.gs.seqNew + 1 ∧ im.charge = s.charge ∧
      im.area = s.fld Reg.NVI_GS_STATE 4 1 ∧ t.rbit Reg.NVI_GS_STATE 5 = true ∧ t.rbit Reg.NVI_GS_STATE 0 = false) ∧
    (s.rbit Reg.NVI_GS_STATE 0 = false → t.gs = s.gs ∧ t.rbit Reg.NVI_GS_STATUS 3 = true) ∧
    (s.isBase = true → (s.spSt = 5 ∨ s.spSt = 6) → s.rbit Reg.SPN_CTRL 6 = true → t.spn.genTrig = true ∧ t.spSt = s.spSt) ∧
    t.thrs = s.thrs ∧ t.svc = s.svc ∧ t.pwr = s.pwr ∧ t.sec = s.sec ∧ t.fw = s.fw ∧ t.csc = s.csc := by
  obtain ⟨hact, -, hret0, hret1, hstop⟩ := State.dumpActions_spec hrun
  have hgs : s.dumpActions.gs = s.gs := by rw [hact]
  have hnone : s.dumpActions.gs.dump = none := by rw [hgs, hdump]
  have hreg {o : Nat} (ho : o ∉ retractRegs 0 ++ retractRegs 1) := State.reg_dumpActions hrun ho
  have hrbit {o : Nat} (ho : o ∉ retractRegs 0 ++ retractRegs 1) (i : Nat) : s.dumpActions.rbit o i = s.rbit o i := by
    rw [State.rbit, hreg ho, State.rbit]
  have hfld {o : Nat} (ho : o ∉ retractRegs 0 ++ retractRegs 1) (lo len : Nat) : s.dumpActions.fld o lo len = s.fld o lo len := by
    rw [State.fld, hreg ho, State.fld]
  obtain ⟨harm, hunarm⟩ := State.powerFail_vault hnone
  have hstart := (State.dumpStart_frame s.dumpActions false).1
  have hspn := (State.spnPowerLoss_spec (s.dumpActions.dumpStart false)).1
  have hexec : exec .powerFail s = .next ((s.dumpActions.dumpStart false).spnPowerLoss).settle :=
    congrArg done (State.powerFail_trigger hdump hst htrip hrun)
  have hkept {a : Nat} (ho : Reg.GYL_ACT_QUAL a ∉ Reg.SPN_STATE :: dumpRegs) (hret : s.dumpActions.retracting a = true) :
      ((s.dumpActions.dumpStart false).spnPowerLoss).retracting a = true := by
    rw [State.retracting, State.rbit, State.reg_dumpStart_spnPowerLoss _ ho]
    exact hret
  refine ⟨_, hexec, hkept (by decide) hret0, hkept (by decide) hret1, fun hbase => ?_, fun harmed => ?_, fun harmed => ?_,
    fun hbase hst hgen => ?_, ?_⟩
  · change ((s.dumpActions.dumpStart false).spnPowerLoss).nvq.stopped = true
    rw [hspn, hstart]
    exact hstop hbase
  · obtain ⟨im, hdumps, hseq, hcharge, harea, hbusy, hoff⟩ := harm ((hrbit (by decide) 0).trans harmed)
    exact ⟨im, hdumps, hgs ▸ hseq, hcharge.trans (hfld (by decide) 0 25), harea.trans (hfld (by decide) 4 1), hbusy, hoff⟩
  · obtain ⟨hkeep, hfailed⟩ := hunarm ((hrbit (by decide) 0).trans harmed)
    exact ⟨hkeep.trans hgs, hfailed⟩
  · have hkeep {o : Nat} (hdump : o ∉ dumpRegs) (hret : o ∉ retractRegs 0 ++ retractRegs 1) :
        (s.dumpActions.dumpStart false).reg o = s.reg o := ((State.dumpStart_frame _ false).2 o hdump).trans (hreg hret)
    have hspSt : (s.dumpActions.dumpStart false).spSt = s.spSt := by
      rw [State.spSt, State.fld, hkeep (by decide) (by decide), State.spSt, State.fld]
    have hgenerates : ((s.dumpActions.dumpStart false).spnPowerLoss) = (s.dumpActions.dumpStart false).setSpn
        { (s.dumpActions.dumpStart false).spn with genTrig := true } := by
      refine State.spnPowerLoss_generates ?_ (hspSt ▸ hst) ?_
      · rw [State.isBase, State.rbit, hkeep (by decide) (by decide)]
        exact hbase
      · rw [State.rbit, hkeep (by decide) (by decide)]
        exact hgen
    rw [hgenerates]
    exact ⟨rfl, hspSt⟩
  · change ((s.dumpActions.dumpStart false).spnPowerLoss).thrs = _ ∧ ((s.dumpActions.dumpStart false).spnPowerLoss).svc = _ ∧
      ((s.dumpActions.dumpStart false).spnPowerLoss).pwr = _ ∧ ((s.dumpActions.dumpStart false).spnPowerLoss).sec = _ ∧
      ((s.dumpActions.dumpStart false).spnPowerLoss).fw = _ ∧ ((s.dumpActions.dumpStart false).spnPowerLoss).csc = _
    rw [hspn, hstart, hact]
    exact ⟨rfl, rfl, rfl, rfl, rfl, rfl⟩

end

end Sys2Proof.Machine
end

section
namespace Sys2Proof.Machine

/-! ### The write side at entry to Bivouac (R163, R512) -/

section
variable {s t : State} {m : Act} {a : ActWr}

/-- The registers of the write side that the end of its runs may change. -/
def writeEndRegs (m : Nat) : List Nat := [Reg.MCA_WR_CTRL m, Reg.MCA_WR_STAT m, Reg.MCA_WR_NEXT m, Reg.MCA_WR_STATUS m]

/-- The write gate of channel `m` is low and no run is pending there; nothing differs besides that the end of a run changes. -/
structure WriteQuiet (s t : State) (m : Act) : Prop where
  gate : (t.med m).gate = false
  pend : (t.med m).wrPend = none
  only : WriteOnly s t m (writeEndRegs m)

@[simp] theorem State.med_idxRunEnd (s : State) (c p : Nat) (src : Bool) (n : Nat) : (s.idxRunEnd c p src).med n = s.med n := by
  unfold State.idxRunEnd
  split <;> rfl

namespace WriteQuiet

variable (h : WriteQuiet s t m)
include h

theorem setReg {o : Nat} (ho : o ∈ writeEndRegs m) (v : W32) : WriteQuiet s (t.setReg o v) m :=
  ⟨h.gate, h.pend, h.only.setReg ho v⟩

/-- The channel changes elsewhere. -/
theorem setMed {x : Med} (hgate : x.gate = (t.med m).gate) (hpend : x.wrPend = (t.med m).wrPend) :
    WriteQuiet s (t.setMed m x) m :=
  ⟨by rw [State.med_setMed, hgate, h.gate], by rw [State.med_setMed, hpend, h.pend], h.only.setMed x⟩

theorem setGate : WriteQuiet s (t.setGate m false) m := by
  obtain ⟨⟨ea, hmed⟩, -, -, hgate⟩ := t.setGate_false_spec m
  exact ⟨by rw [hmed], by rw [hmed, ← h.pend], h.only.trans (hgate.mono (List.nil_subset _))⟩

theorem sendHtrR : WriteQuiet s (t.sendHtrR m) m := by
  rw [State.sendHtrR, State.psiAuto_eq]
  exact h.setMed rfl rfl

theorem idxRunEnd (c p : Nat) (src : Bool) : WriteQuiet s (t.idxRunEnd c p src) m := by
  refine ⟨by rw [State.med_idxRunEnd, h.gate], by rw [State.med_idxRunEnd, h.pend], ?_⟩
  unfold State.idxRunEnd
  split
  · exact h.only.trans ⟨rfl, rfl, fun _ _ => rfl⟩
  · exact h.only

/-- A run that has ended leaves the gate low (R173). -/
theorem wrEndCheck : WriteQuiet s (t.wrEndCheck m) m := by
  have hctrl : Reg.MCA_WR_CTRL m ∈ writeEndRegs m := by simp [writeEndRegs]
  have hstat : Reg.MCA_WR_STAT m ∈ writeEndRegs m := by simp [writeEndRegs]
  have hnext : Reg.MCA_WR_NEXT m ∈ writeEndRegs m := by simp [writeEndRegs]
  have hevents : Reg.MCA_WR_STATUS m ∈ writeEndRegs m := by simp [writeEndRegs]
  unfold State.wrEndCheck
  split
  · exact h
  · split
    · refine idxRunEnd (setMed ?_ ?_ ?_) ..
      · exact ((((h.setReg hstat _).setReg hnext _).setReg hctrl _).setReg hevents _).setGate.sendHtrR
      · rfl
      · rfl
    · exact h

end WriteQuiet

/-- A pending write run is discarded while no GO waits, and the gate falls (R174, R512). -/
theorem State.wrDiscard_quiet (hwait : s.rbit (Reg.MCA_WR_CTRL m) 0 = false) :
    WriteQuiet s ((s.wrDiscard m).setGate m false) m := by
  have hne : Reg.MCA_WR_CTRL m ≠ Reg.MCA_WR_STAT m := (writeCtrl_ne m).1
  let u := (s.setMed m { s.med m with wrPend := none }).clrReg (Reg.MCA_WR_STAT m) (bit 30)
  have hcopy : s.wrDiscard m = u := by
    refine State.wrCopy_waits (.inl ?_)
    rw [State.rbit, State.reg_clrReg, if_neg hne, State.reg_setMed]
    exact hwait
  have honly : WriteOnly s u m (writeEndRegs m) := ((WriteOnly.refl s m _).setMed _).setReg (by simp [writeEndRegs]) _
  obtain ⟨⟨ea, hmed⟩, -, -, hgate⟩ := u.setGate_false_spec m
  have hpend : (u.med m).wrPend = none := by simp [u]
  rw [hcopy]
  exact ⟨by rw [hmed], by rw [hmed, ← hpend], honly.trans (hgate.mono (List.nil_subset _))⟩

/-- What entry to Bivouac leaves of the write side (R163, R512). -/
theorem State.wrCut_quiet (hwait : s.rbit (Reg.MCA_WR_CTRL m) 0 = false) : WriteQuiet s (s.wrCut m) m := by
  have hquiet := State.wrDiscard_quiet hwait
  unfold State.wrCut
  dsimp only
  generalize (s.wrDiscard m).setGate m false = u at hquiet ⊢
  split
  · exact hquiet
  next a ha =>
    obtain ⟨-, hpend, honly⟩ := hquiet
    have hrun := u.med_wrRun ha fun a => { a with vfy := [], cur := none }
    obtain ⟨l, cairn, -, -, hmed, hmonly⟩ := State.foldl_slotEnd_aborted (congrArg Med.wr hrun) (a.vfy ++ a.cur.toList)
    obtain ⟨l', cairn', ea, -, -, hmed', hstop⟩ := State.wrStop_spec (a := { a with cur := none }) (congrArg Med.wr hmed) rfl
    refine WriteQuiet.wrEndCheck ⟨congrArg Med.gate hmed', ?_, ?_⟩
    · rw [hmed', hmed, hrun]
      exact hpend
    · have hchange := ((WriteOnly.refl u m []).wrRun fun a => { a with vfy := [], cur := none }).trans
        (hmonly.writeOnly.trans hstop)
      exact honly.trans (hchange.mono (List.nil_subset _))

end

end Sys2Proof.Machine
end

section
namespace Sys2Proof.Machine

/-! ### What a record of the Trail Log and an asynchronous event leave (R288, R291, R494 to R501) -/

/-- Nothing differs but memory, the event unit, NVQ, the ports, what was put out, and registers other than those of `K`. -/
structure Tells (K : List Nat) (s t : State) : Prop where
  eq : t = { s with regs := t.regs, mem := t.mem, fresh := t.fresh, out := t.out, nvq := t.nvq, hif0 := t.hif0,
                    hif1 := t.hif1, evt := t.evt }
  kept : ∀ o ∈ K, t.reg o = s.reg o

namespace Tells

variable {K : List Nat} {s t : State}

theorem refl (K : List Nat) (s : State) : Tells K s s := ⟨rfl, fun _ _ => rfl⟩

theorem trans {u : State} (h : Tells K s t) (h' : Tells K t u) : Tells K s u :=
  ⟨h'.eq.trans (congrArg (fun v : State => { v with
      regs := u.regs, mem := u.mem, fresh := u.fresh, out := u.out, nvq := u.nvq, hif0 := u.hif0, hif1 := u.hif1,
      evt := u.evt }) h.eq), fun o ho => (h'.kept o ho).trans (h.kept o ho)⟩

theorem mono {K' : List Nat} (h : Tells K s t) (hK : K' ⊆ K) : Tells K' s t := ⟨h.eq, fun o ho => h.kept o (hK ho)⟩

variable (h : Tells K s t)
include h

theorem change (mem : Mem) (fresh : Nat) (out : List OutEvent) (nvq : Nvq) (hif0 hif1 : HifP) (evt : Evt) :
    Tells K s { t with mem := mem, fresh := fresh, out := out, nvq := nvq, hif0 := hif0, hif1 := hif1, evt := evt } :=
  ⟨congrArg (fun u : State => { u with
    mem := mem, fresh := fresh, out := out, nvq := nvq, hif0 := hif0, hif1 := hif1, evt := evt }) h.eq, h.kept⟩

theorem setReg {o : Nat} (ho : o ∉ K) (v : W32) : Tells K s (t.setReg o v) :=
  ⟨congrArg (fun u : State => { u with regs := (t.setReg o v).regs }) h.eq, fun i hi =>
    (t.reg_setReg o i v).trans ((if_neg fun hio : i = o => ho (hio ▸ hi)).trans (h.kept i hi))⟩

theorem ite {u : State} (h' : Tells K s u) (c : Prop) [Decidable c] : Tells K s (if c then t else u) := by
  split
  · exact h
  · exact h'

theorem touch {u : State} (hK : ∀ o ∈ K, o ∉ memRegs) (hu : t.MemTouch u) : Tells K s u := by
  refine ⟨?_, fun o ho => (hu.reg (hK o ho)).trans (h.kept o ho)⟩
  obtain ⟨regs, mem, fresh, rfl⟩ := hu.only
  exact congrArg (fun u : State => { u with regs := regs, mem := mem, fresh := fresh }) h.eq

end Tells

/-! ### A record enters the Trail Log (R494 to R501) -/

/-- The registers of Bivouac and of the vault, which a record leaves. -/
def bivRegs : List Nat := [Reg.SYS_ROLE, Reg.SYS_BIV, Reg.NVI_GS_STATE]

/-- The registers of the event unit are none of those. -/
theorem not_mem_bivRegs {o : Nat} (hlo : 0x0D0000 ≤ o) (hhi : o < 0x0E0000) : o ∉ bivRegs := by
  simp only [bivRegs, Reg.SYS_ROLE, Reg.SYS_BIV, Reg.NVI_GS_STATE, List.mem_cons, List.not_mem_nil, or_false]
  omega

theorem State.recSev_lt (s : State) (o : Nat) : s.recSev o < 8 := by
  have hbyte := (s.sramByte (ringBase + o)).isLt
  rw [State.recSev]
  omega

section
variable {s t : State} (h : Tells bivRegs s t)
include h

theorem Tells.evtReg {o : Nat} (hlo : 0x0D0000 ≤ o) (hhi : o < 0x0E0000) (v : W32) : Tells bivRegs s (t.setReg o v) :=
  h.setReg (not_mem_bivRegs hlo hhi) v

theorem Tells.histReg {sev : Nat} (hsev : sev < 8) (v : W32) : Tells bivRegs s (t.setReg (Reg.EVT_HIST sev) v) := by
  refine h.evtReg ?_ ?_ v <;> simp only [Reg.EVT_HIST] <;> omega

theorem Tells.summaryReg {n : Nat} (hn : n < 64) {k : Nat} (hk : k < 8) (v : W32) :
    Tells bivRegs s (t.setReg (Reg.EVT_SUM_VAL n k) v) := by
  refine h.evtReg ?_ ?_ v <;> simp only [Reg.EVT_SUM_VAL] <;> omega

theorem Tells.keyReg {n : Nat} (hn : n < 64) (v : W32) : Tells bivRegs s (t.setReg (Reg.EVT_SUM_KEY n) v) := by
  refine h.evtReg ?_ ?_ v <;> simp only [Reg.EVT_SUM_KEY] <;> omega

theorem Tells.sramFill (o : Nat) (l : List W8) : Tells bivRegs s (t.sramFill o l) :=
  h.touch (by decide) ((State.MemTouch.refl t).sramFill o l)

theorem Tells.ringStore (sev : Nat) (rec : List W8) : Tells bivRegs s (t.ringStore sev rec) := by
  unfold State.ringStore
  have hraise (u : State) (hu : Tells bivRegs s u) (c : Prop) [Decidable c] (v : W32) :
      Tells bivRegs s (if c then u.orReg Reg.EVT_STATUS v else u) := (hu.evtReg (by decide) (by decide) _).ite hu c
  refine Tells.evtReg (Tells.change (hraise _ (hraise _ ?_ _ _) _ _) ..) (by decide) (by decide) _
  exact (h.sramFill ..).sramFill ..

theorem Tells.foldRec {sev : Nat} (hsev : sev < 8) (source code : Nat) (value : W32) :
    Tells bivRegs s (t.foldRec sev source code value).2 := by
  have hraise (u : State) (hu : Tells bivRegs s u) (v : W32) : Tells bivRegs s (u.orReg Reg.EVT_STATUS v) :=
    hu.evtReg (by decide) (by decide) _
  have hcount : Tells bivRegs s ((t.incFld (Reg.EVT_HIST sev) 0 32).orReg Reg.EVT_STATUS (bit 1)) := hraise _ (h.histReg hsev _) _
  unfold State.foldRec
  dsimp only
  generalize (t.incFld (Reg.EVT_HIST sev) 0 32).orReg Reg.EVT_STATUS (bit 1) = u at hcount
  split
  next n hn =>
    have hlt : n < 64 := List.mem_range.mp (List.mem_of_find?_eq_some hn)
    exact (((hcount.summaryReg hlt (by decide) _).summaryReg hlt (by decide) _).summaryReg hlt (by decide) _).summaryReg hlt
      (by decide) _
  next =>
    split
    next n hn =>
      have hlt : n < 64 := List.mem_range.mp (List.mem_of_find?_eq_some hn)
      exact ((((((hcount.keyReg hlt _).summaryReg hlt (by decide) _).summaryReg hlt (by decide) _).summaryReg hlt (by decide)
        _).summaryReg hlt (by decide) _)).summaryReg hlt (by decide) _
    next => exact hraise _ hcount _

theorem Tells.reclaim (l : List Nat) : Tells bivRegs s (t.reclaim l) := by
  induction l generalizing t with
  | nil => exact h
  | cons o l ih =>
    have hcount : Tells bivRegs s (t.incFld (Reg.EVT_HIST_OVR (t.recSev o)) 0 32) := by
      have hsev := t.recSev_lt o
      refine h.evtReg ?_ ?_ _ <;> simp only [Reg.EVT_HIST_OVR] <;> omega
    exact ih (Tells.evtReg (Tells.change hcount ..) (by decide) (by decide) _)

theorem Tells.hwRecord {sev : Nat} (hsev : sev < 8) (source code : Nat) (payload : List W8) :
    Tells bivRegs s (t.hwRecord sev source code payload) := by
  unfold State.hwRecord State.record
  split
  · exact (h.histReg hsev _).evtReg (by decide) (by decide) _
  · dsimp only
    split
    · exact h.sramFill ..
    · split
      · exact h.foldRec hsev ..
      next l hl =>
        refine Tells.ringStore (Tells.ite ?_ (h.reclaim l) _) ..
        exact Tells.change ((h.reclaim l).ringStore ..) ..

end

end Sys2Proof.Machine
end

section
namespace Sys2Proof.Machine

/-! ### An asynchronous event completes its request (R288, R291, R339 to R341) -/

/-- The registers of Bivouac and of the vault, with the status of the event unit: a completion leaves them. -/
def bivEventRegs : List Nat := Reg.EVT_STATUS :: bivRegs

/-- The counts of orphaned completions are none of those. -/
theorem orphan_not_mem_bivEventRegs (n : Nat) : Reg.HIF_PORT_ORPHAN n ∉ bivEventRegs := by
  simp only [bivEventRegs, bivRegs, Reg.HIF_PORT_ORPHAN, Reg.EVT_STATUS, Reg.SYS_ROLE, Reg.SYS_BIV, Reg.NVI_GS_STATE,
    List.mem_cons, List.not_mem_nil, or_false]
  omega

section
variable {s t : State} (h : Tells bivEventRegs s t)
include h

theorem Tells.nvq (nvq : Nvq) : Tells bivEventRegs s { t with nvq := nvq } := h.change ..

theorem Tells.setHp (n : Nat) (p : HifP) : Tells bivEventRegs s (t.setHp n p) := by
  unfold State.setHp
  split
  · exact h.change ..
  · exact h.change ..

theorem Tells.emits (l : List OutEvent) : Tells bivEventRegs s (t.emits l) := h.change ..

theorem Tells.hostWrite (n addr : Nat) (l : List W8) : Tells bivEventRegs s (t.hostWrite n addr l).2 := by
  unfold State.hostWrite
  split
  · exact h
  · split
    · exact h.touch (by decide) ((State.MemTouch.refl t).memWrite ..)
    · split
      · exact h
      · exact h.emits _

theorem Tells.signalVec (n v intms : Nat) : Tells bivEventRegs s (t.signalVec n v intms) := by
  unfold State.signalVec
  dsimp only
  split
  · split
    · exact h.ite (h.setHp ..) _
    · exact h.hostWrite ..
  · split
    · exact h
    · split
      · exact h.ite (h.setHp ..) _
      · exact h.hostWrite ..
  · split
    · exact h
    · exact (h.setHp ..).emits [_]
  · exact h

theorem Tells.setCmds (l : List NCmd) : Tells bivEventRegs s (t.setCmds l) := (h.nvq _).setReg (by decide) _

theorem Tells.signalCq (k : Nat) : Tells bivEventRegs s (t.signalCq k) := by
  unfold State.signalCq
  split
  · exact h
  · split
    · exact h
    · exact (h.nvq _).signalVec ..

theorem Tells.cqWrite (k : Nat) (q : NCq) (e : NCpl) (rest : List NCpl) : Tells bivEventRegs s (t.cqWrite k q e rest) := by
  unfold State.cqWrite
  split
  · exact h.nvq _
  · exact (((h.hostWrite ..).nvq _).setCmds _).signalCq k

theorem Tells.cqDrain (k fuel : Nat) : Tells bivEventRegs s (t.cqDrain k fuel) := by
  induction fuel generalizing t with
  | zero => exact h
  | succ fuel ih =>
    unfold State.cqDrain
    split
    · exact h
    · split
      · exact h
      · split
        · exact h
        · exact ih (h.cqWrite ..)

theorem Tells.complete (g dw0 dw1 status : Nat) : Tells bivEventRegs s (t.complete g dw0 dw1 status) := by
  unfold State.complete
  split
  · exact h
  next c hc =>
    split
    · exact (h.setCmds _).setReg (orphan_not_mem_bivEventRegs _) _
    · split
      · exact h.setCmds _
      · dsimp only
        split
        · exact h.setCmds _
        · exact ((h.setCmds _).nvq _).cqDrain ..

theorem Tells.setCtl (n : Nat) (c : NCtl) : Tells bivEventRegs s (t.setCtl n c) := h.nvq _

theorem Tells.flushEvents (n fuel : Nat) : Tells bivEventRegs s (t.flushEvents n fuel) := by
  induction fuel generalizing t with
  | zero => exact h
  | succ fuel ih =>
    unfold State.flushEvents
    dsimp only
    split
    · exact ih ((h.setCtl ..).complete ..)
    · exact h

theorem Tells.event (n type info page : Nat) : Tells bivEventRegs s (t.event n type info page) := by
  refine Tells.flushEvents ?_ n 8
  unfold State.asyncEvent
  exact h.ite (h.setCtl ..) _

end

end Sys2Proof.Machine
end

section
namespace Sys2Proof.Machine

/-! ### Entry into Bivouac (R511, R512) -/

section
variable {s : State} {c : Nat}

/-- Both write sides at entry to Bivouac (R163, R512). -/
theorem WriteQuiet.both {t u : State} (h0 : WriteQuiet s t 0) (h1 : WriteQuiet t u 1) :
    u.med0.gate = false ∧ u.med1.gate = false ∧ u.med0.wrPend = none ∧ u.med1.wrPend = none ∧
      u = { s with
        regs := u.regs, med0 := u.med0, med1 := u.med1, out := u.out, dch := u.dch, evSeen := u.evSeen } ∧
      RegsBut s u (writeEndRegs 0 ++ writeEndRegs 1) := by
  have hmed0 : u.med0 = t.med0 := h1.only.other
  refine ⟨(congrArg Med.gate hmed0).trans h0.gate, h1.gate, (congrArg Med.wrPend hmed0).trans h0.pend, h1.pend, ?_,
    fun o ho => ?_⟩
  · exact h1.only.eq.trans (congrArg (fun v : State => { v with
      regs := u.regs, med0 := u.med0, med1 := u.med1, out := u.out, dch := u.dch, evSeen := u.evSeen }) h0.only.eq)
  · obtain ⟨hne0, hne1⟩ := not_or.mp (mt List.mem_append.mpr ho)
    exact (h1.only.regsBut o hne1).trans (h0.only.regsBut o hne0)

/-- The bits of Bivouac set with cause bit `c`. -/
def State.bivMarked (s : State) (c : Nat) : State := (s.orReg Reg.SYS_BIV (bit c ||| bit 31)).orReg Reg.SYS_ROLE (bit 4)

theorem State.reg_bivMarked (s : State) (c : Nat) {o : Nat} (hbiv : o ≠ Reg.SYS_BIV) (hrole : o ≠ Reg.SYS_ROLE) :
    (s.bivMarked c).reg o = s.reg o := by
  rw [State.bivMarked, State.reg_orReg, if_neg hrole, State.reg_orReg, if_neg hbiv]

theorem State.bivMarked_spec (s : State) (c : Nat) :
    (s.bivMarked c).reg Reg.SYS_BIV = s.reg Reg.SYS_BIV ||| (bit c ||| 0x80000000) ∧
      (s.bivMarked c).rbit Reg.SYS_ROLE 4 = true := by
  refine ⟨?_, ?_⟩
  · rw [State.bivMarked, State.reg_orReg, if_neg (by decide), State.reg_orReg, if_pos rfl]
    rfl
  · rw [State.bivMarked, State.rbit, State.reg_orReg, if_pos rfl, tb_or_bit _ (by decide)]
    simp

/-- Bivouac entered with cause bit `c`, and the write runs ended. -/
def State.bivCut (s : State) (c : Nat) : State := ((s.bivMarked c).wrCut 0).wrCut 1

/-- The dump of an entry into Bivouac. -/
def State.bivVault (s : State) : State := if s.rbit Reg.NVI_GS_STATE 0 ∧ s.charge ≠ 0 then s.dumpStart true else s

/-- The record and the event of an entry into Bivouac (R512, R513). -/
def State.bivTold (s : State) : State :=
  let s := s.hwRecord 7 0 0x20 (leBytes 2 (s.fld Reg.SYS_BIV 8 5) ++ List.replicate 6 0)
  let s := s.orReg Reg.EVT_STATUS (bit 4)
  if s.isBase then (s.event 0 1 0 2).event 1 1 0 2 else s

theorem State.enterBiv_first (hbiv : s.rbit Reg.SYS_BIV 31 = false) (c : Nat) :
    s.enterBiv c = ((s.bivCut c).bivVault).bivTold := by
  rw [State.enterBiv, if_neg (by simp [hbiv])]
  rfl

/-- A later cause adds its bit (R511). -/
theorem State.enterBiv_again (hbiv : s.rbit Reg.SYS_BIV 31 = true) (c : Nat) :
    s.enterBiv c = s.orReg Reg.SYS_BIV (bit c) := if_pos hbiv

/-- Entry sets the cause and the bits of Bivouac, both gates fall and no write run stays pending (R163, R512). -/
theorem State.bivCut_spec (hwait : ∀ m : Act, s.rbit (Reg.MCA_WR_CTRL m) 0 = false) (c : Nat) :
    WriteQuiet (s.bivMarked c) ((s.bivMarked c).wrCut 0) 0 ∧ WriteQuiet ((s.bivMarked c).wrCut 0) (s.bivCut c) 1 := by
  have hquiet : WriteQuiet (s.bivMarked c) ((s.bivMarked c).wrCut 0) 0 := by
    refine State.wrCut_quiet (m := 0) ?_
    rw [State.rbit, State.reg_bivMarked _ _ (by decide) (by decide)]
    exact hwait 0
  refine ⟨hquiet, State.wrCut_quiet (m := 1) ?_⟩
  rw [State.rbit, hquiet.only.regsBut _ (by decide), State.reg_bivMarked _ _ (by decide) (by decide)]
  exact hwait 1

/-- The vault at entry (R309, R512). -/
theorem State.bivVault_spec (s : State) : let t := s.bivVault
    (s.rbit Reg.NVI_GS_STATE 0 = true → s.charge ≠ 0 → s.gs.dump = none →
        t.gs.dump.isSome = true ∧ t.gs.bivDump = true ∧ t.rbit Reg.NVI_GS_STATE 0 = false) ∧
      ((s.rbit Reg.NVI_GS_STATE 0 = false ∨ s.charge = 0) → t.gs = s.gs) ∧
      t = { s with regs := t.regs, mem := t.mem, fresh := t.fresh, gs := t.gs } ∧ RegsBut s t dumpRegs := by
  refine ⟨fun harmed hcharge hdump => ?_, fun hno => ?_, ?_⟩
  · obtain ⟨-, hgs, -, -, hoff⟩ := State.dumpStart_armed hdump harmed true
    rw [State.bivVault, if_pos ⟨harmed, hcharge⟩, hgs]
    exact ⟨rfl, rfl, hoff⟩
  · have hskip : ¬(s.rbit Reg.NVI_GS_STATE 0 = true ∧ s.charge ≠ 0) := by
      rintro ⟨harmed, hcharge⟩
      exact hno.elim (fun hoff => absurd harmed (by simp [hoff])) hcharge
    rw [State.bivVault, if_neg hskip]
  · unfold State.bivVault
    split
    · exact s.dumpStart_frame true
    · exact ⟨rfl, fun _ _ => rfl⟩

/-- The record and the event leave the registers of Bivouac and of the vault, and set BIVOUAC of EVT_STATUS (R512). -/
theorem State.bivTold_spec (s : State) : Tells bivRegs s s.bivTold ∧ s.bivTold.rbit Reg.EVT_STATUS 4 = true := by
  let u := s.hwRecord 7 0 0x20 (leBytes 2 (s.fld Reg.SYS_BIV 8 5) ++ List.replicate 6 0)
  have hrecord : Tells bivRegs s u := (Tells.refl bivRegs s).hwRecord (by decide) ..
  have hraised : Tells bivRegs s (u.orReg Reg.EVT_STATUS (bit 4)) := hrecord.evtReg (by decide) (by decide) _
  have hset : (u.orReg Reg.EVT_STATUS (bit 4)).rbit Reg.EVT_STATUS 4 = true := by
    rw [State.rbit, State.reg_orReg, if_pos rfl, tb_or_bit _ (by decide)]
    simp
  have hevents : Tells bivEventRegs (u.orReg Reg.EVT_STATUS (bit 4)) s.bivTold :=
    (((Tells.refl bivEventRegs _).event ..).event ..).ite (.refl ..) _
  refine ⟨hraised.trans (hevents.mono (List.subset_cons_self ..)), ?_⟩
  rw [State.rbit, hevents.kept _ (by decide)]
  exact hset

/-- The first entry into Bivouac (R163, R309, R511, R512). -/
theorem State.enterBiv_spec (hbiv : s.rbit Reg.SYS_BIV 31 = false) (hwait : ∀ m : Act, s.rbit (Reg.MCA_WR_CTRL m) 0 = false)
    (c : Nat) : let t := s.enterBiv c
      t.reg Reg.SYS_BIV = s.reg Reg.SYS_BIV ||| (bit c ||| 0x80000000) ∧ t.rbit Reg.SYS_ROLE 4 = true ∧
      t.med0.gate = false ∧ t.med1.gate = false ∧ t.med0.wrPend = none ∧ t.med1.wrPend = none ∧
      t.rbit Reg.EVT_STATUS 4 = true ∧
      (s.rbit Reg.NVI_GS_STATE 0 = true → s.charge ≠ 0 → s.gs.dump = none →
        t.gs.dump.isSome = true ∧ t.gs.bivDump = true ∧ t.rbit Reg.NVI_GS_STATE 0 = false) ∧
      ((s.rbit Reg.NVI_GS_STATE 0 = false ∨ s.charge = 0) → t.gs = s.gs) ∧
      t.thrs = s.thrs ∧ t.svc = s.svc ∧ t.pwr = s.pwr ∧ t.sec = s.sec ∧ t.fw = s.fw ∧ t.csc = s.csc := by
  obtain ⟨hset, hrole⟩ := s.bivMarked_spec c
  obtain ⟨hquiet0, hquiet1⟩ := State.bivCut_spec hwait c
  obtain ⟨hgate0, hgate1, hpend0, hpend1, hcut, hcutRegs⟩ := hquiet0.both hquiet1
  obtain ⟨hdump, hskip, hvault, hvaultRegs⟩ := (s.bivCut c).bivVault_spec
  obtain ⟨htold, hevent⟩ := (s.bivCut c).bivVault.bivTold_spec
  have hgs : (s.bivCut c).gs = s.gs := by
    rw [hcut]
    rfl
  have hstate : (s.bivCut c).rbit Reg.NVI_GS_STATE 0 = s.rbit Reg.NVI_GS_STATE 0 := by
    rw [State.rbit, hcutRegs _ (by decide), State.reg_bivMarked _ _ (by decide) (by decide), State.rbit]
  have hcharge : (s.bivCut c).charge = s.charge := by
    rw [State.charge, State.fld, hcutRegs _ (by decide), State.reg_bivMarked _ _ (by decide) (by decide), State.charge, State.fld]
  rw [hgs, hstate, hcharge] at hdump hskip
  have hkept {o : Nat} (hbivReg : o ∈ bivRegs) (hdumpReg : o ∉ dumpRegs) (hwrite : o ∉ writeEndRegs 0 ++ writeEndRegs 1) :
      (s.bivCut c).bivVault.bivTold.reg o = (s.bivMarked c).reg o :=
    (htold.kept o hbivReg).trans ((hvaultRegs o hdumpReg).trans (hcutRegs o hwrite))
  have hoff : (s.bivCut c).bivVault.bivTold.rbit Reg.NVI_GS_STATE 0 = (s.bivCut c).bivVault.rbit Reg.NVI_GS_STATE 0 := by
    rw [State.rbit, htold.kept _ (by decide), State.rbit]
  rw [State.enterBiv_first hbiv c]
  dsimp only
  refine ⟨(hkept (by decide) (by decide) (by decide)).trans hset, ?_, ?_⟩
  · rw [State.rbit, hkept (by decide) (by decide) (by decide)]
    exact hrole
  rw [hoff]
  generalize (s.bivCut c).bivVault.bivTold = w at *
  generalize (s.bivCut c).bivVault = v at *
  generalize s.bivCut c = u at *
  have hmed : w.med0 = u.med0 ∧ w.med1 = u.med1 := by
    rw [htold.eq, hvault]
    exact ⟨rfl, rfl⟩
  have hvaultKept : w.gs = v.gs := by rw [htold.eq]
  rw [hmed.1, hmed.2, hvaultKept]
  refine ⟨hgate0, hgate1, hpend0, hpend1, hevent, hdump, hskip, ?_⟩
  rw [htold.eq, hvault, hcut]
  exact ⟨rfl, rfl, rfl, rfl, rfl, rfl⟩

/-! ### Entry by firmware and by hardware -/

/-- SYS_BIV_ENTER without its key or its bit (R511). -/
theorem exec_sysBivEnter_ignored {v : W32} (hkey : getF v 16 16 ≠ 0xB1C0 ∨ v.getLsbD 0 = false) (s : State) :
    exec (.sysBivEnter v) s = .next s.settle := by
  have hskip : s.bivEnterWrite v = s := by
    refine if_neg ?_
    rintro ⟨hk, hbit⟩
    exact hkey.elim (fun hne => hne hk) fun hoff => absurd (hoff.symm.trans hbit) (by decide)
  exact congrArg done hskip

/-- The two ways into Bivouac are one operation. -/
theorem exec_enterBiv {i : Instr} (h : (∃ v : W32, i = .sysBivEnter v ∧ getF v 16 16 = 0xB1C0 ∧ v.getLsbD 0 = true ∧ c = 12) ∨
    ∃ k : Fin 5, i = .bivouacEnter k ∧ c = 8 + k.val) (s : State) : exec i s = .next (s.enterBiv c).settle := by
  rcases h with ⟨v, rfl, hkey, hbit, rfl⟩ | ⟨k, rfl, rfl⟩
  · have henter : s.bivEnterWrite v = s.enterBiv 12 := if_pos ⟨hkey, hbit⟩
    exact congrArg done henter
  · rfl

end

/-- Settles O40: a power failure retracts, stops NVQ and starts the dump; the first cause of Bivouac ends the write side and
starts the dump, and a later cause adds its bit. -/
theorem powerFailAndBivouac : Obligations.PowerFailAndBivouac := by
  refine ⟨fun s => exec_powerFail, fun v s hkey => ⟨_, exec_sysBivEnter_ignored hkey s, rfl⟩, fun i c s hi => ⟨fun hbiv => ?_,
    fun hbiv hwait => ?_⟩⟩
  · have hagain := State.enterBiv_again hbiv c
    refine ⟨_, exec_enterBiv hi s, ?_, ?_, fun o ho => ?_⟩
    · change (s.enterBiv c).reg Reg.SYS_BIV = _
      rw [hagain, State.reg_orReg, if_pos rfl]
    · rw [hagain]
      rfl
    · change (s.enterBiv c).reg o = _
      rw [hagain, State.reg_orReg, if_neg (List.ne_of_not_mem_cons ho)]
  · exact ⟨_, exec_enterBiv hi s, State.enterBiv_spec hbiv hwait c⟩

end Sys2Proof.Machine
end

section
namespace Sys2Proof.Machine

/-! ### Law words and their operands (R190 to R193) -/

theorem lawEnc_toNat {op : Nat} (hop : op < 64) (d a b : W8) :
    (lawEnc op d a b).toNat = op * 67108864 + d.toNat * 65536 + a.toNat * 256 + b.toNat := by
  have hd := d.isLt
  have ha := a.isLt
  have hb := b.isLt
  rw [lawEnc, BitVec.toNat_ofNat]
  exact Nat.mod_eq_of_lt (by omega)

/-- The places of the fields of a law word. -/
theorem getF_lawEnc {op : Nat} (hop : op < 64) (d a b : W8) : lwOp (lawEnc op d a b) = op ∧ lwD (lawEnc op d a b) = d.toNat ∧
    lwA (lawEnc op d a b) = a.toNat ∧ lwB (lawEnc op d a b) = b.toNat ∧ getF (lawEnc op d a b) 24 2 = 0 := by
  have hd := d.isLt
  have ha := a.isLt
  have hb := b.isLt
  simp only [lwOp, lwD, lwA, lwB, getF, natF, lawEnc_toNat hop]
  refine ⟨?_, ?_, ?_, ?_, ?_⟩ <;> omega

/-- What a word says of one operand: it may be used as its operation uses it, or it is 0 (R192, R193). -/
theorem operand_sound {use ok : Bool} {x : W8} (h : if use then ok = true else x = 0) :
    ¬ (!use ∧ x.toNat ≠ 0) ∧ ¬ (use ∧ !ok) := by
  cases use
  · have hx : x = 0 := h
    simp [hx]
  · have hok : ok = true := h
    simp [hok]

/-- A word is sound when the operands its operation uses may be used so, and the others are 0 (R193). -/
theorem lawFault_lawEnc {op : Nat} (hop : op < 64) {d a b : W8} {ud ua ub : Bool} (huses : lawUses op = some (ud, ua, ub))
    (hd : if ud then lawWritable d.toNat = true else d = 0) (ha : if ua then lawReadable a.toNat = true else a = 0)
    (hb : if ub then lawReadable b.toNat = true else b = 0) : lawFault (lawEnc op d a b) = 0 := by
  obtain ⟨hfop, hfd, hfa, hfb, hfix⟩ := getF_lawEnc hop d a b
  obtain ⟨hd0, hdw⟩ := operand_sound hd
  obtain ⟨ha0, har⟩ := operand_sound ha
  obtain ⟨hb0, hbr⟩ := operand_sound hb
  rw [← hfd] at hd0 hdw
  rw [← hfa] at ha0 har
  rw [← hfb] at hb0 hbr
  rw [lawFault, hfop, huses]
  exact (if_neg (not_or.2 ⟨not_not.2 hfix, not_or.2 ⟨hd0, not_or.2 ⟨ha0, hb0⟩⟩⟩)).trans
    (if_neg (not_or.2 ⟨hdw, not_or.2 ⟨har, hbr⟩⟩))

/-- A run whose next word is sound and within its limits goes on (R193). -/
theorem State.lawCheck_goesOn {s : State} {r : GRun} (hrun : s.gylRun = some r) (hpc : r.pc ≤ 2047) (hwords : r.words < 512)
    (hsound : lawFault (s.lawWord r.pc) = 0) : s.lawCheck = s := by
  have hpc' : ¬ 2047 < r.pc := by omega
  have hwords' : ¬ 512 ≤ r.words := by omega
  simp only [State.lawCheck, hrun, if_neg hpc', if_neg hwords', hsound, ne_eq, not_true_eq_false, if_false]

/-- An operand that may be written is a register (R191). -/
theorem State.lawRaw_of_writable {d : Nat} (hd : lawWritable d = true) (s : State) (c : Nat) :
    s.lawRaw c d = s.reg (lawReg c d) := by
  simp only [lawWritable, Bool.or_eq_true, Bool.and_eq_true, decide_eq_true_eq] at hd
  unfold State.lawRaw lawReg
  by_cases hstate : d ≤ 0x3F
  · rw [if_pos hstate, if_pos hstate]
  · rw [if_neg hstate, if_neg hstate, if_neg (by omega), if_neg (by omega), if_pos (by omega)]

theorem State.lawSet_eq (s : State) (c d : Nat) (v : W32) : s.lawSet c d v = s.setReg (lawReg c d) v := by
  unfold State.lawSet lawReg
  split <;> rfl

/-- The register of an operand is not the status register of its context, and no word of the law store is either of them. -/
theorem lawReg_ne {d : Nat} (hd : lawWritable d = true) (c : Ctx) : lawReg c d ≠ Reg.GYL_CTX_STAT c ∧
    ∀ n, Reg.GYL_LAWST n ∉ [lawReg c d, Reg.GYL_CTX_STAT c] := by
  have hc := c.isLt
  simp only [lawWritable, Bool.or_eq_true, Bool.and_eq_true, decide_eq_true_eq] at hd
  simp only [List.mem_cons, List.not_mem_nil, or_false, lawReg, Reg.GYL_CTX_STAT, Reg.GYL_LAWST, Reg.GYL_CTX_S, Reg.GYL_CTX_Y]
  split <;> exact ⟨by omega, fun n => by omega⟩

/-! ### What an operation writes (R190, R192) -/

/-- What a status register holds after an operation has read the operands `l` and given the result `o` with its flags. -/
def lawStat (st : W32) (l : List W32) (o : Option (W32 × Bool × Bool)) : W32 :=
  ((st ||| if l.any fbad then 0x4000 else 0) ||| if o.any (·.2.1) then 0x1000 else 0) ||| if o.any (·.2.2) then 0x2000 else 0

/-- The operands `l` are read, and operand `d` and the flags take the result `o`, if there is one (R190, R192). -/
def State.lawPut (s : State) (c d : Nat) (l : List W32) (o : Option (W32 × Bool × Bool)) : State :=
  let u := s.lawBadop c l
  let u := o.elim u fun y => u.lawSet c d y.1
  let u := if o.any (·.2.1) then u.orReg (Reg.GYL_CTX_STAT c) (bit 12) else u
  if o.any (·.2.2) then u.orReg (Reg.GYL_CTX_STAT c) (bit 13) else u

/-- Bits set on a condition. -/
theorem State.reg_ite_orReg (s : State) (b : Bool) (o : Nat) (m : W32) (i : Nat) :
    (if b then s.orReg o m else s).reg i = if i = o then s.reg o ||| (if b then m else 0) else s.reg i := by
  cases b
  · by_cases hi : i = o <;> simp [hi]
  · exact State.reg_orReg ..

theorem State.reg_lawPut (s : State) (c : Ctx) {d : Nat} (hd : lawWritable d = true) (l : List W32)
    (o : Option (W32 × Bool × Bool)) (i : Nat) : (s.lawPut c d l o).reg i =
      if i = Reg.GYL_CTX_STAT c then lawStat (s.reg (Reg.GYL_CTX_STAT c)) l o
      else if i = lawReg c d then o.elim (s.reg i) (·.1) else s.reg i := by
  have hstat := (lawReg_ne hd c).1.symm
  simp only [State.lawPut, State.reg_ite_orReg, State.lawBadop, lawStat]
  cases o with
  | none => by_cases hi : i = Reg.GYL_CTX_STAT c <;> simp [hi, State.reg_ite_orReg, bit, -List.any_eq_true]
  | some y => by_cases hi : i = Reg.GYL_CTX_STAT c <;> simp [hi, hstat, State.lawSet_eq, State.reg_ite_orReg, bit, -List.any_eq_true]

/-- Bits set on a condition change the registers alone. -/
theorem State.ite_orReg_eq {s t : State} (h : ∃ regs, t = { s with regs := regs }) (b : Bool) (o : Nat) (m : W32) :
    ∃ regs, (if b then t.orReg o m else t) = { s with regs := regs } := by
  obtain ⟨regs, rfl⟩ := h
  cases b
  · exact ⟨regs, rfl⟩
  · exact ⟨_, rfl⟩

theorem State.lawPut_eq (s : State) (c d : Nat) (l : List W32) (o : Option (W32 × Bool × Bool)) :
    ∃ regs, s.lawPut c d l o = { s with regs := regs } := by
  have hbad : ∃ regs, s.lawBadop c l = { s with regs := regs } := State.ite_orReg_eq ⟨s.regs, rfl⟩ (l.any fbad) _ _
  refine State.ite_orReg_eq (State.ite_orReg_eq ?_ _ _ _) _ _ _
  cases o with
  | none => exact hbad
  | some y =>
    obtain ⟨regs, hbad⟩ := hbad
    rw [hbad]
    exact ⟨_, State.lawSet_eq ..⟩

/-! ### A word executed (R190 to R193) -/

/-- The run goes on after a word: the words are counted and the next address is taken (R192). -/
def GRun.next (r : GRun) : GRun := { r with pc := r.pc + 1, words := r.words + 1 }

/-- What follows an operation: the run goes on, and faults when the next word cannot be executed. -/
def State.lawGo (s : State) (r : GRun) : State := ({ s with gylRun := some r.next } : State).lawCheck

/-- An operation has a result unless its condition keeps it from writing (R192, R205). -/
def State.lawResult (s : State) (c op d a b : Nat) (f : Bool) : Option (W32 × Bool × Bool) :=
  let k := if op = 0x0C ∨ op = 0x0D then Config.freeNat s.fresh else 0
  if !(op == 0x10 && !f) && !(op == 0x12 && s.reg (Reg.GYL_CTX_I c 11) != f1) then
    some (if op = 0x12 then lawValue 2 (s.lawRaw c d) (s.reg (Reg.GYL_CTX_I c 10)) (s.lawRaw c a) k
      else lawValue op (s.lawRaw c d) (s.lawRaw c a) (s.lawRaw c b) k)
  else none

/-- The operands that an operation reads as numbers (R190). -/
def State.lawReads (s : State) (c op d a b : Nat) (two : Bool) : List W32 :=
  (if two then [s.lawRaw c a, s.lawRaw c b] else [s.lawRaw c a]) ++ if op = 0x04 ∨ op = 0x05 then [s.lawRaw c d] else []

/-- The earliest cycle at which the next word issues (R192). -/
def GRun.start (r : GRun) : Nat := if r.words = 0 then 0 else r.cyc + 1

theorem GRun.lt_start (r : GRun) (hwords : r.words ≠ 0) : r.cyc < r.start := by
  rw [GRun.start, if_neg hwords]
  exact Nat.lt_succ_self _

/-- The run after a word that keeps to its context and issues later than the word before (R192). -/
def GRun.Issued (r q : GRun) (f : Bool) : Prop :=
  q.ctx = r.ctx ∧ q.pc = r.pc ∧ q.words = r.words ∧ q.f = f ∧ (r.words ≠ 0 → r.cyc < q.cyc)

/-- The context's own run has executed an operation in state `u`. -/
def LawDone (u t : State) (r : GRun) (f : Bool) : Prop := ∃ q, r.Issued q f ∧ t = u.lawGo q

/-- A free value is taken for an operation with a choice within 1 ulp (R192). -/
def State.lawFree (s : State) (op : Nat) : Nat × State := if op = 0x0C ∨ op = 0x0D then s.freeAny else (0, s)

/-- The order in which an operation takes its choice and writes does not matter. -/
theorem State.lawPut_free (s : State) (c d : Nat) (l : List W32) (op : Nat) (writes : Bool) (y : W32 × Bool × Bool) :
    (let u := ((s.lawBadop c l).lawFree op).2
     let u := if writes then u.lawSet c d y.1 else u
     let u := if writes ∧ y.2.1 then u.orReg (Reg.GYL_CTX_STAT c) (bit 12) else u
     if writes ∧ y.2.2 then u.orReg (Reg.GYL_CTX_STAT c) (bit 13) else u) =
      ((s.lawPut c d l (if writes then some y else none)).lawFree op).2 := by
  obtain ⟨v, ovf, nan⟩ := y
  unfold State.lawFree State.lawPut
  simp only [State.lawSet_eq]
  by_cases hop : op = 0x0C ∨ op = 0x0D
  · simp only [if_pos hop]
    cases writes <;> cases ovf <;> cases nan <;> rfl
  · simp only [if_neg hop]
    cases writes <;> cases ovf <;> cases nan <;> rfl

theorem State.fresh_lawBadop (s : State) (c : Nat) (l : List W32) : (s.lawBadop c l).fresh = s.fresh := by
  unfold State.lawBadop
  split <;> rfl

/-- No input of a context is its status register. -/
theorem State.reg_input_lawBadop (s : State) (c : Nat) (l : List W32) {j : Nat} (hj : j < 16) :
    (s.lawBadop c l).reg (Reg.GYL_CTX_I c j) = s.reg (Reg.GYL_CTX_I c j) := by
  have hne : Reg.GYL_CTX_I c j ≠ Reg.GYL_CTX_STAT c := by
    simp only [Reg.GYL_CTX_I, Reg.GYL_CTX_STAT]
    omega
  rw [State.lawBadop, State.reg_ite_orReg, if_neg hne]

theorem State.lawFree_eq (s : State) (op : Nat) : ∃ n, (s.lawFree op).2 = { s with fresh := n } := by
  unfold State.lawFree
  split
  · exact ⟨_, rfl⟩
  · exact ⟨s.fresh, rfl⟩

theorem State.reg_lawFree (s : State) (op o : Nat) : (s.lawFree op).2.reg o = s.reg o := by
  obtain ⟨n, hfree⟩ := s.lawFree_eq op
  rw [hfree]
  rfl

theorem State.lawFree_value (s : State) (op : Nat) :
    (s.lawFree op).1 = if op = 0x0C ∨ op = 0x0D then Config.freeNat s.fresh else 0 := by
  unfold State.lawFree
  split <;> rfl

section
variable {s : State} {c : Ctx} {r : GRun} {w : W32} (hrun : s.gylRun = some r) (hctx : r.ctx = c.val)
  (hword : s.lawWord r.pc = w) (hsound : lawFault w = 0)
include hrun hctx hword hsound

/-- An operation that writes operand `d` (R192). -/
theorem State.lawExec_writes {two : Bool} (huses : lawUses (lwOp w) = some (true, true, two)) :
    LawDone ((s.lawPut c (lwD w) (s.lawReads c (lwOp w) (lwD w) (lwA w) (lwB w) two)
          (s.lawResult c (lwOp w) (lwD w) (lwA w) (lwB w) r.f)).lawFree (lwOp w)).2 (s.lawExec c w) r r.f := by
  have hfault : ¬ lawFault (s.lawWord r.pc) ≠ 0 := by rw [hword, hsound]; exact not_not.2 rfl
  unfold State.lawExec
  rw [hrun]
  dsimp -zeta only
  rw [if_neg (not_not.2 hctx), if_neg hfault, if_neg (not_not.2 hword)]
  extract_lets +onlyGivenNames op
  rw [huses]
  dsimp -zeta only
  extract_lets a b d first t0 ra go rd t1 t bad writes yp u1 u2 u3
  have hissue : r.words ≠ 0 → r.cyc < t := fun hwords => by
    have hstart : r.cyc < t0 := r.lt_start hwords
    have hunit : t1 ≤ t := by
      simp only [t]
      split <;> omega
    omega
  clear_value t
  clear rd t1
  have hput : u3 = ((s.lawPut c (lwD w) (s.lawReads c (lwOp w) (lwD w) (lwA w) (lwB w) two)
          (s.lawResult c (lwOp w) (lwD w) (lwA w) (lwB w) r.f)).lawFree (lwOp w)).2 := by
    have hresult : s.lawResult c op (lwD w) (lwA w) (lwB w) r.f = if writes then
        some (if op = 18 then lawValue 2 d yp a (bad.lawFree op).1 else lawValue op d a b (bad.lawFree op).1) else none := by
      have hyp : yp = s.reg (Reg.GYL_CTX_I c 10) :=
        (bad.reg_lawFree ..).trans (s.reg_input_lawBadop c _ (by decide))
      have hfresh : bad.fresh = s.fresh := s.fresh_lawBadop ..
      rw [State.lawFree_value, hfresh, hyp]
      simp only [writes, bad, s.reg_input_lawBadop c _ (by decide : 11 < 16)]
      rfl
    show u3 = ((s.lawPut c (lwD w) (s.lawReads c op (lwD w) (lwA w) (lwB w) two)
          (s.lawResult c op (lwD w) (lwA w) (lwB w) r.f)).lawFree op).2
    rw [hresult]
    exact State.lawPut_free ..
  clear_value u3
  rw [← hput]
  exact ⟨{ r with cyc := t, ready := _, unit := _ }, ⟨rfl, rfl, rfl, rfl, hissue⟩, rfl⟩

/-- A comparison (R192). -/
theorem State.lawExec_compares (huses : lawUses (lwOp w) = some (false, true, true)) :
    let va := s.lawRaw c (lwA w)
    let vb := s.lawRaw c (lwB w)
    LawDone (s.lawBadop c [va, vb]) (s.lawExec c w) r (if lwOp w = 0x0E then flt va vb else fle vb va) := by
  have hfault : ¬ lawFault (s.lawWord r.pc) ≠ 0 := by rw [hword, hsound]; exact not_not.2 rfl
  intro va vb
  unfold State.lawExec
  rw [hrun]
  dsimp -zeta only
  rw [if_neg (not_not.2 hctx), if_neg hfault, if_neg (not_not.2 hword)]
  extract_lets +onlyGivenNames op
  rw [huses]
  dsimp -zeta only
  let t := max r.start (max (r.readyAt (lwA w)) (r.readyAt (lwB w)))
  have hissue (hwords : r.words ≠ 0) : r.cyc < t := (r.lt_start hwords).trans_le (Nat.le_max_left ..)
  exact ⟨{ r with cyc := t, fReady := t + 2, f := if lwOp w = 0x0E then flt va vb else fle vb va },
    ⟨rfl, rfl, rfl, rfl, hissue⟩, rfl⟩

/-- The operation that does nothing (R192). -/
theorem State.lawExec_nop (hzero : w = 0) : LawDone s (s.lawExec c w) r r.f := by
  have hfault : ¬ lawFault (s.lawWord r.pc) ≠ 0 := by rw [hword, hsound]; exact not_not.2 rfl
  have huses : lawUses (lwOp w) = some (false, false, false) := by rw [hzero]; decide
  have hend : lwOp w ≠ 0x1E ∧ lwOp w ≠ 0x1F := by rw [hzero]; decide
  unfold State.lawExec
  rw [hrun]
  dsimp -zeta only
  rw [if_neg (not_not.2 hctx), if_neg hfault, if_neg (not_not.2 hword)]
  extract_lets +onlyGivenNames op
  rw [huses]
  dsimp -zeta only
  rw [if_neg hend.1, if_neg hend.2]
  exact ⟨{ r with cyc := r.start }, ⟨rfl, rfl, rfl, rfl, r.lt_start⟩, rfl⟩

end

/-! ### The run goes on (R192, R193) -/

/-- While the next word is sound, a run goes on with it. -/
theorem LawDone.goesOn {u t : State} {r : GRun} {f : Bool} (h : LawDone u t r f) (hpc : r.pc + 1 ≤ 2047)
    (hwords : r.words + 1 < 512) (hnext : lawFault (u.lawWord (r.pc + 1)) = 0) :
    LawRan t.settle r f ∧ ∃ run, t = { u with gylRun := run } := by
  obtain ⟨q, ⟨hctx, hqpc, hqwords, hf, hlater⟩, rfl⟩ := h
  have hgo : u.lawGo q = { u with gylRun := some q.next } :=
    State.lawCheck_goesOn rfl (by simp only [GRun.next]; omega) (by simp only [GRun.next]; omega)
      (by simp only [GRun.next, hqpc]; exact hnext)
  rw [hgo]
  exact ⟨⟨q.next, rfl, hctx, congrArg (· + 1) hqpc, congrArg (· + 1) hqwords, hf, hlater⟩, some q.next, rfl⟩

section
variable {s : State} {c : Ctx} {r : GRun} (hrun : s.gylRun = some r) (hctx : r.ctx = c.val) (hpc : r.pc + 1 ≤ 2047)
  (hwords : r.words + 1 < 512) (hnext : lawFault (s.lawWord (r.pc + 1)) = 0)
include hrun hctx hpc hwords hnext

/-- A sound word with an operation that writes operand `d` (R190 to R193). -/
theorem State.lawExec_wrote {op : Nat} (hop : op < 64) {d a b : W8} {two : Bool} (huses : lawUses op = some (true, true, two))
    (hd : lawWritable d.toNat = true) (ha : lawReadable a.toNat = true)
    (hb : if two then lawReadable b.toNat = true else b = 0) (hword : s.lawWord r.pc = lawEnc op d a b) :
    let t := (s.lawExec c (lawEnc op d a b)).settle
    let o := s.lawResult c op d.toNat a.toNat b.toNat r.f
    LawRan t r r.f ∧ t.lawRaw c d.toNat = o.elim (s.lawRaw c d.toNat) (·.1) ∧ LawWrote s t c d.toNat
      (lawStat (s.reg (Reg.GYL_CTX_STAT c)) (s.lawReads c op d.toNat a.toNat b.toNat two) o) := by
  intro t o
  obtain ⟨hfop, hfd, hfa, hfb, -⟩ := getF_lawEnc hop d a b
  obtain ⟨hne, hstore⟩ := lawReg_ne hd c
  have hdone := State.lawExec_writes hrun hctx hword (lawFault_lawEnc hop huses hd ha hb) (hfop.symm ▸ huses)
  rw [hfop, hfd, hfa, hfb] at hdone
  have hreg := s.reg_lawPut c hd (s.lawReads c op d.toNat a.toNat b.toNat two) o
  obtain ⟨regs, hput⟩ := s.lawPut_eq c d.toNat (s.lawReads c op d.toNat a.toNat b.toNat two) o
  generalize s.lawPut c d.toNat (s.lawReads c op d.toNat a.toNat b.toNat two) o = u at hdone hreg hput
  obtain ⟨fresh, hfree⟩ := u.lawFree_eq op
  rw [hfree] at hdone
  have hkept (i : Nat) (hi : i ∉ [lawReg c d.toNat, Reg.GYL_CTX_STAT c]) : u.reg i = s.reg i := by
    simp only [List.mem_cons, List.not_mem_nil, or_false, not_or] at hi
    rw [hreg, if_neg hi.2, if_neg hi.1]
  obtain ⟨hran, run, hgo⟩ := hdone.goesOn hpc hwords ((congrArg lawFault (hkept _ (hstore _))).trans hnext)
  have htreg (i : Nat) : t.reg i = u.reg i := by
    simp only [t, hgo]
    rfl
  refine ⟨hran, ?_, ?_, ?_, fun i hi => (htreg i).trans (hkept i hi)⟩
  · rw [State.lawRaw_of_writable hd, State.lawRaw_of_writable hd, htreg, hreg, if_neg hne, if_pos rfl]
  · simp only [t, hgo, hput]
    rfl
  · rw [htreg, hreg, if_pos rfl]

/-- A sound word with a comparison (R190 to R193). -/
theorem State.lawExec_compared {op : Nat} (hop : op < 64) {a b : W8} (huses : lawUses op = some (false, true, true))
    (ha : lawReadable a.toNat = true) (hb : lawReadable b.toNat = true) (hword : s.lawWord r.pc = lawEnc op 0 a b) :
    let t := (s.lawExec c (lawEnc op 0 a b)).settle
    let va := s.lawRaw c a.toNat
    let vb := s.lawRaw c b.toNat
    let st := s.reg (Reg.GYL_CTX_STAT c)
    LawRan t r (if op = 0x0E then flt va vb else fle vb va) ∧
      t = { s with regs := t.regs, gylRun := t.gylRun, evSeen := t.evSeen } ∧ RegsBut s t [Reg.GYL_CTX_STAT c] ∧
      t.reg (Reg.GYL_CTX_STAT c) = if fbad va || fbad vb then st ||| 0x4000 else st := by
  intro t va vb st
  obtain ⟨hfop, -, hfa, hfb, -⟩ := getF_lawEnc hop 0 a b
  have hdone := State.lawExec_compares hrun hctx hword (lawFault_lawEnc hop huses rfl ha hb) (hfop.symm ▸ huses)
  rw [hfop, hfa, hfb] at hdone
  have hreg (i : Nat) : (s.lawBadop c [va, vb]).reg i =
      if i = Reg.GYL_CTX_STAT c then st ||| (if [va, vb].any fbad then bit 14 else 0) else s.reg i :=
    State.reg_ite_orReg ..
  obtain ⟨regs, hbad⟩ : ∃ regs, s.lawBadop c [va, vb] = { s with regs := regs } :=
    State.ite_orReg_eq ⟨s.regs, rfl⟩ ([va, vb].any fbad) _ _
  change LawDone (s.lawBadop c [va, vb]) _ _ _ at hdone
  generalize s.lawBadop c [va, vb] = u at hdone hreg hbad
  have hstore (n : Nat) : Reg.GYL_LAWST n ≠ Reg.GYL_CTX_STAT c := by
    have hc := c.isLt
    simp only [Reg.GYL_LAWST, Reg.GYL_CTX_STAT]
    omega
  have hkept : u.lawWord (r.pc + 1) = s.lawWord (r.pc + 1) := (hreg _).trans (if_neg (hstore _))
  obtain ⟨hran, run, hgo⟩ := hdone.goesOn hpc hwords ((congrArg lawFault hkept).trans hnext)
  have htreg (i : Nat) : t.reg i = u.reg i := by
    simp only [t, hgo]
    rfl
  refine ⟨hran, ?_, fun i hi => ?_, ?_⟩
  · simp only [t, hgo, hbad]
    rfl
  · rw [htreg, hreg, if_neg (List.ne_of_not_mem_cons hi)]
  · rw [htreg, hreg, if_pos rfl]
    cases hany : [va, vb].any fbad <;> simp_all [bit]

/-- The word that does nothing (R192). -/
theorem State.lawExec_nothing (hword : s.lawWord r.pc = 0) : let t := (s.lawExec c 0).settle
    LawRan t r r.f ∧ t = { s with gylRun := t.gylRun, evSeen := t.evSeen } := by
  intro t
  obtain ⟨hran, run, hgo⟩ := (State.lawExec_nop hrun hctx hword (by decide) rfl).goesOn hpc hwords hnext
  refine ⟨hran, ?_⟩
  simp only [t, hgo]
  rfl

end

/-! ### The operations with what they compute (R192, R205) -/

/-- An operation of three operands computes the rounded exact value that `e` states. -/
structure LawForm3 (e : (Ctx → W8 → W8 → W8 → Instr) × Nat × (Flt → Flt → Flt → Flt)) : Prop where
  op : e.2.1 < 64
  uses : lawUses e.2.1 = some (true, true, true)
  exec : ∀ c d a b s, exec (e.1 c d a b) s = done (s.lawExec c (lawEnc e.2.1 d a b))
  result : ∀ (s : State) c d a b f, s.lawResult c e.2.1 d a b f =
    let y := fround (e.2.2 (fval (s.lawRaw c d)) (fval (s.lawRaw c a)) (fval (s.lawRaw c b)))
    some (y.1, y.2, false)

theorem lawForms3_compute : ∀ e ∈ lawForms3, LawForm3 e := by
  simp only [lawForms3, List.forall_mem_cons, List.not_mem_nil, false_imp_iff, implies_true, and_true]
  refine ⟨?_, ?_, ?_, ?_, ?_, ?_, ?_⟩ <;>
    exact ⟨by decide, rfl, fun _ _ _ _ _ => rfl, fun _ _ _ _ _ _ => rfl⟩

/-- An operation of two operands computes the rounded exact value that `e` states. -/
structure LawForm2 (e : (Ctx → W8 → W8 → Instr) × Nat × (Flt → Flt)) : Prop where
  op : e.2.1 < 64
  uses : lawUses e.2.1 = some (true, true, false)
  reads : ¬ (e.2.1 = 0x04 ∨ e.2.1 = 0x05)
  exec : ∀ c d a s, exec (e.1 c d a) s = done (s.lawExec c (lawEnc e.2.1 d a 0))
  result : ∀ (s : State) c d a b f, s.lawResult c e.2.1 d a b f =
    let y := fround (e.2.2 (fval (s.lawRaw c a)))
    some (y.1, y.2, false)

theorem lawForms2_compute : ∀ e ∈ lawForms2, LawForm2 e := by
  simp only [lawForms2, List.forall_mem_cons, List.not_mem_nil, false_imp_iff, implies_true, and_true]
  refine ⟨?_, ?_, ?_⟩ <;> exact ⟨by decide, rfl, by decide, fun _ _ _ _ => rfl, fun _ _ _ _ _ _ => rfl⟩

/-- BADOP for an operation that reads a, b and, when it accumulates, d (R190, R192). -/
theorem State.any_lawReads_three (s : State) (c op d a b : Nat) : (s.lawReads c op d a b true).any fbad =
    (fbad (s.lawRaw c a) || fbad (s.lawRaw c b) || ((op == 4 || op == 5) && fbad (s.lawRaw c d))) := by
  have hacc : (op == 4 || op == 5) = decide (op = 4 ∨ op = 5) := by simp [Bool.beq_eq_decide_eq]
  rw [hacc, State.lawReads]
  by_cases hop : op = 4 ∨ op = 5
  · simp [hop, Bool.or_assoc]
  · simp [hop]

/-- BADOP for an operation that reads a alone. -/
theorem State.any_lawReads_one (s : State) (c : Nat) {op : Nat} (hop : ¬ (op = 4 ∨ op = 5)) (d a b : Nat) :
    (s.lawReads c op d a b false).any fbad = fbad (s.lawRaw c a) := by
  simp [State.lawReads, hop]

/-- The flags of a result that is not the root of a negative value. -/
theorem lawStat_some (st : W32) (l : List W32) (v : W32) (ovf : Bool) : lawStat st l (some (v, ovf, false)) =
    (st ||| if l.any fbad then 0x4000 else 0) ||| if ovf then 0x1000 else 0 := by
  simp [lawStat]

section
variable {s : State} {c : Ctx} {r : GRun} (hrun : s.gylRun = some r) (hctx : r.ctx = c.val) (hpc : r.pc + 1 ≤ 2047)
  (hwords : r.words + 1 < 512) (hnext : lawFault (s.lawWord (r.pc + 1)) = 0) {d a b : W8}
  (hd : lawWritable d.toNat = true) (ha : lawReadable a.toNat = true)
include hrun hctx hpc hwords hnext hd ha

/-- An operation of three operands, executed (R190 to R193). -/
theorem exec_lawForm3 {e : (Ctx → W8 → W8 → W8 → Instr) × Nat × (Flt → Flt → Flt → Flt)} (he : LawForm3 e)
    (hb : lawReadable b.toNat = true) (hword : s.lawWord r.pc = lawEnc e.2.1 d a b) :
    let vd := s.lawRaw c d.toNat
    let va := s.lawRaw c a.toNat
    let vb := s.lawRaw c b.toNat
    let y := fround (e.2.2 (fval vd) (fval va) (fval vb))
    let bad := fbad va || fbad vb || ((e.2.1 == 4 || e.2.1 == 5) && fbad vd)
    ∃ t, exec (e.1 c d a b) s = .next t ∧ LawRan t r r.f ∧ t.lawRaw c d.toNat = y.1 ∧ LawWrote s t c d.toNat
      ((s.reg (Reg.GYL_CTX_STAT c) ||| if bad then 0x4000 else 0) ||| if y.2 then 0x1000 else 0) := by
  obtain ⟨hran, hraw, hwrote⟩ := State.lawExec_wrote hrun hctx hpc hwords hnext he.op he.uses hd ha hb hword
  rw [he.result] at hraw hwrote
  rw [lawStat_some, State.any_lawReads_three] at hwrote
  exact ⟨_, he.exec .., hran, hraw, hwrote⟩

/-- What an operation of two operands with the result `o` leaves (R190 to R193). -/
theorem State.lawExec_two {op : Nat} (hop : op < 64) (huses : lawUses op = some (true, true, false))
    (hreads : ¬ (op = 4 ∨ op = 5)) (hword : s.lawWord r.pc = lawEnc op d a 0) {o : Option (W32 × Bool × Bool)}
    (hresult : s.lawResult c op d.toNat a.toNat 0 r.f = o) : let t := (s.lawExec c (lawEnc op d a 0)).settle
    LawRan t r r.f ∧ t.lawRaw c d.toNat = o.elim (s.lawRaw c d.toNat) (·.1) ∧ LawWrote s t c d.toNat
      (((s.reg (Reg.GYL_CTX_STAT c) ||| if fbad (s.lawRaw c a.toNat) then 0x4000 else 0) |||
        if o.any (·.2.1) then 0x1000 else 0) ||| if o.any (·.2.2) then 0x2000 else 0) := by
  have hb : if false then lawReadable (0 : W8).toNat = true else (0 : W8) = 0 := rfl
  obtain ⟨hran, hraw, hwrote⟩ := State.lawExec_wrote hrun hctx hpc hwords hnext hop huses hd ha hb hword
  have hres : s.lawResult c op d.toNat a.toNat (0 : W8).toNat r.f = o := hresult
  rw [hres] at hraw hwrote
  rw [lawStat, State.any_lawReads_one s c hreads] at hwrote
  exact ⟨hran, hraw, hwrote⟩

/-- What an operation of two operands leaves that writes the rounded value `y` while `on` holds (R190 to R193, R205). -/
theorem State.lawExec_if {op : Nat} (hop : op < 64) (huses : lawUses op = some (true, true, false))
    (hreads : ¬ (op = 4 ∨ op = 5)) (hword : s.lawWord r.pc = lawEnc op d a 0) {on : Bool} {y : W32 × Bool}
    (hresult : s.lawResult c op d.toNat a.toNat 0 r.f = if on then some (y.1, y.2, false) else none) :
    let t := (s.lawExec c (lawEnc op d a 0)).settle
    LawRan t r r.f ∧ t.lawRaw c d.toNat = (if on then y.1 else s.lawRaw c d.toNat) ∧ LawWrote s t c d.toNat
      ((s.reg (Reg.GYL_CTX_STAT c) ||| if fbad (s.lawRaw c a.toNat) then 0x4000 else 0) |||
        if on && y.2 then 0x1000 else 0) := by
  have htwo := State.lawExec_two hrun hctx hpc hwords hnext hd ha hop huses hreads hword hresult
  cases on <;> simpa using htwo

end

/-- Settles O35: each word is executed by the operation of its op code, and the run goes on with the next word. -/
theorem lawWordsComputeAndGoOn : Obligations.LawWordsComputeAndGoOn := by
  intro c d a b r s hrun hctx hpc hwords hnext st vd va vb
  refine ⟨fun hword => ⟨_, rfl, State.lawExec_nothing hrun hctx hpc hwords hnext hword⟩, fun ha =>
    ⟨fun hb e he hword => ?_, fun hd => ⟨fun hb e he hword => ?_, fun e he hword => ?_, fun hword => ?_, fun hword => ?_,
      fun hword => ?_, fun hword => ?_⟩⟩⟩
  case refine_1 =>
    simp only [lawCompares, List.mem_cons, List.not_mem_nil, or_false] at he
    rcases he with rfl | rfl
    · exact ⟨_, rfl, State.lawExec_compared hrun hctx hpc hwords hnext (by decide) rfl ha hb hword⟩
    · exact ⟨_, rfl, State.lawExec_compared hrun hctx hpc hwords hnext (by decide) rfl ha hb hword⟩
  case refine_2 =>
    have hform : LawForm3 e := by
      rcases List.mem_append.1 he with hthree | hclamp
      · exact lawForms3_compute e hthree
      · obtain rfl := List.mem_singleton.1 hclamp
        exact ⟨by decide, rfl, fun _ _ _ _ _ => rfl, fun _ _ _ _ _ _ => rfl⟩
    exact exec_lawForm3 hrun hctx hpc hwords hnext hd ha hform hb hword
  case refine_3 =>
    have hform := lawForms2_compute e he
    exact ⟨_, hform.exec .., State.lawExec_if hrun hctx hpc hwords hnext hd ha hform.op hform.uses hform.reads hword
      (on := true) (hform.result ..)⟩
  case refine_4 =>
    exact ⟨_, Config.freeNat s.fresh, rfl,
      State.lawExec_if hrun hctx hpc hwords hnext hd ha (by decide) rfl (by decide) hword (on := true) rfl⟩
  case refine_5 =>
    exact ⟨_, Config.freeNat s.fresh, rfl,
      State.lawExec_two hrun hctx hpc hwords hnext hd ha (by decide) rfl (by decide) hword rfl⟩
  case refine_6 =>
    have hresult : s.lawResult c 0x10 d.toNat a.toNat 0 r.f =
        if r.f then some ((fround (fval va)).1, (fround (fval va)).2, false) else none := by
      cases r.f <;> rfl
    exact ⟨_, rfl, State.lawExec_if hrun hctx hpc hwords hnext hd ha (by decide) rfl (by decide) hword hresult⟩
  case refine_7 =>
    intro on y
    have hresult : s.lawResult c 0x12 d.toNat a.toNat 0 r.f = if on then some (y.1, y.2, false) else none := by
      cases hon : on <;> simp_all [State.lawResult, lawValue, on, y, va]
    exact ⟨_, rfl, State.lawExec_if hrun hctx hpc hwords hnext hd ha (by decide) rfl (by decide) hword hresult⟩

end Sys2Proof.Machine
end

section
namespace Sys2Proof.Machine

/-! ### A restart keeps the fault code (R194) -/

/-- Context 3 has faulted with code 8, an uncorrectable law word (R193, R194). -/
def faultedCtx : State := State.reset.setReg (Reg.GYL_CTX_STAT 3) 0x40800000

/-- The write that restarts the context clears FAULTED and leaves FAULT_CODE. -/
theorem faultedCtx_restarted : faultedCtx.rbit (Reg.GYL_CTX_STAT 3) 30 = true ∧
    (faultedCtx.ctxCtrlWrite 3 1).rbit (Reg.GYL_CTX_STAT 3) 30 = false ∧
    (faultedCtx.ctxCtrlWrite 3 1).fld (Reg.GYL_CTX_STAT 3) 20 4 = 8 := by decide +kernel

/-- Refutes O36: a write of EN = 1 to a faulted context clears FAULTED alone, as R194 says, and the model keeps FAULT_CODE, where
the clause on CTX_ENABLE claims that the field reads 0. -/
theorem not_contextsRunOutputAndCommit : ¬ Obligations.ContextsRunOutputAndCommit := by
  intro h
  obtain ⟨-, -, -, -, -, -, henable, -⟩ := h
  obtain ⟨hfaulted, -, hkept⟩ := faultedCtx_restarted
  obtain ⟨-, -, hrestart⟩ := henable 3 1 faultedCtx (.inl (by decide))
  obtain ⟨t, hexec, -, -, hcleared, -⟩ := hrestart rfl hfaulted
  obtain rfl : (faultedCtx.ctxCtrlWrite 3 1).settle = t := Host.Outcome.next.inj hexec
  have hcode : (faultedCtx.ctxCtrlWrite 3 1).fld (Reg.GYL_CTX_STAT 3) 20 4 = 0 := hcleared
  omega

end Sys2Proof.Machine
end

section
namespace Sys2Proof.Machine

/-! ### Guyline read after a write (R178 to R210) -/

section
variable (s : State) (a b c o i : Nat) (x : GAct) (y : GCtx) (v m : W32)

@[simp] theorem State.gact_setReg : (s.setReg o v).gact a = s.gact a := rfl
@[simp] theorem State.gact_orReg : (s.orReg o m).gact a = s.gact a := rfl
@[simp] theorem State.gact_clrReg : (s.clrReg o m).gact a = s.gact a := rfl
@[simp] theorem State.gact_setQual (w : Bool) : (s.setQual a i w).gact b = s.gact b := rfl
@[simp] theorem State.gact_setGc : (s.setGc c y).gact a = s.gact a := rfl
@[simp] theorem State.gc_orReg : (s.orReg o m).gc c = s.gc c := rfl
@[simp] theorem State.gc_clrReg : (s.clrReg o m).gc c = s.gc c := rfl
@[simp] theorem State.gc_setQual (w : Bool) : (s.setQual a i w).gc c = s.gc c := rfl

@[simp] theorem State.rbit_setGact : (s.setGact a x).rbit o i = s.rbit o i := by simp [State.rbit]
@[simp] theorem State.rbit_setGc : (s.setGc c y).rbit o i = s.rbit o i := rfl
@[simp] theorem State.rbit_setMed (z : Med) : (s.setMed a z).rbit o i = s.rbit o i := by simp [State.rbit]

/-- An actuator set writes its own place alone. -/
theorem State.setGact_eq : ∃ g0 g1, s.setGact a x = { s with gact0 := g0, gact1 := g1 } := by
  unfold State.setGact
  split
  · exact ⟨x, s.gact1, rfl⟩
  · exact ⟨s.gact0, x, rfl⟩

theorem State.setMed_eq (z : Med) : ∃ m0 m1, s.setMed a z = { s with med0 := m0, med1 := m1 } := by
  unfold State.setMed
  split
  · exact ⟨z, s.med1, rfl⟩
  · exact ⟨s.med0, z, rfl⟩

end

section
variable (s : State) {i : Nat} (hi : i < 32)
include hi

omit hi in
theorem tb_or (u v : W32) : tb (u ||| v) i = (tb u i || tb v i) := BitVec.getLsbD_or ..

theorem tb_bit (k : Nat) : tb (bit k) i = decide (k = i) := getLsbD_bit hi

omit hi in
/-- A bit read after bits are set. -/
theorem State.rbit_orReg (o o' : Nat) (m : W32) :
    (s.orReg o m).rbit o' i = if o' = o then (s.rbit o i || tb m i) else s.rbit o' i := by
  simp only [State.rbit, State.reg_orReg]
  split
  · exact tb_or _ _
  · rfl

/-- A bit read after bits are cleared. -/
theorem State.rbit_clrReg (o o' : Nat) (m : W32) :
    (s.clrReg o m).rbit o' i = if o' = o then (s.rbit o i && !tb m i) else s.rbit o' i := by
  simp only [State.rbit, State.reg_clrReg]
  split
  · simp [tb, hi]
  · rfl

/-- A bit read after a bit of GYL_ACTa_QUAL is written. -/
theorem State.rbit_setQual (a k : Nat) (b : Bool) (o : Nat) : (s.setQual a k b).rbit o i =
    if o = Reg.GYL_ACT_QUAL a then (if i = k then b else s.rbit (Reg.GYL_ACT_QUAL a) i) else s.rbit o i := by
  simp only [State.rbit, State.setQual, State.reg_setFld]
  split
  · exact tb_setF_bit _ _ hi
  · rfl

end

theorem State.reg_setQual (s : State) (a k : Nat) (b : Bool) {o : Nat} (ho : o ≠ Reg.GYL_ACT_QUAL a) :
    (s.setQual a k b).reg o = s.reg o := (State.reg_setFld ..).trans (if_neg ho)

/-- A register written changes the registers alone. -/
theorem State.setReg_eq {s t : State} (h : ∃ regs, t = { s with regs := regs }) (o : Nat) (v : W32) :
    ∃ regs, t.setReg o v = { s with regs := regs } := by
  obtain ⟨regs, rfl⟩ := h
  exact ⟨_, rfl⟩

/-! ### Frames, and contexts that do not run (R194, R199) -/

/-- While Guyline is on, a frame waits for the port (R199). -/
theorem State.adiQueue_on {s : State} (hon : s.gylOn = true) (a ty pl : Nat) :
    s.adiQueue a ty pl = s.setGact a { s.gact a with adi := (s.gact a).adi ++ [(ty, pl)] } := if_pos hon

/-- A context dropped while none runs: it neither waits nor owes an output (R194). -/
theorem State.dropCtx_idle {s : State} (hrun : s.gylRun = none) (c : Nat) : s.dropCtx c =
    ({ s with gylQ := s.gylQ.filter (·.2 != c) } : State).setGc c { s.gc c with frozen := none, due := false } := by
  have hidle : s.gylRun.map (·.ctx) ≠ some c := by simp [hrun]
  exact congrArg (fun u : State => u.setGc c { u.gc c with frozen := none, due := false }) (if_neg hidle)

theorem State.reg_dropCtx {s : State} (hrun : s.gylRun = none) (c o : Nat) : (s.dropCtx c).reg o = s.reg o := by
  rw [State.dropCtx_idle hrun]
  rfl

theorem State.gact_dropCtx {s : State} (hrun : s.gylRun = none) (c a : Nat) : (s.dropCtx c).gact a = s.gact a := by
  rw [State.dropCtx_idle hrun]
  rfl

theorem State.gylQ_dropCtx {s : State} (hrun : s.gylRun = none) (c : Nat) :
    (s.dropCtx c).gylQ = s.gylQ.filter (·.2 != c) := by
  rw [State.dropCtx_idle hrun]
  rfl

theorem State.gylRun_dropCtx {s : State} (hrun : s.gylRun = none) (c : Nat) : (s.dropCtx c).gylRun = none := by
  rw [State.dropCtx_idle hrun]
  exact hrun

end Sys2Proof.Machine
end

section
namespace Sys2Proof.Machine

/-! ### Frames out and back (R199 to R201, R209) -/

/-- A waiting frame goes out (R199). -/
theorem exec_adiFrame {s : State} {a : Act} {ty pl : Nat} {rest : List (Nat × Nat)}
    (hwait : (s.gact a).adi = (ty, pl) :: rest) (hon : s.gylOn = true) :
    let x := s.gact a
    let w := ty * 2 ^ 28 + x.seq * 2 ^ 24 + pl % 2 ^ 18 * 2 ^ 6
    ∃ t, exec (.adiFrame a) s = .next t ∧ t.out = s.out ++ [.adiFrame a (BitVec.ofNat 32 (w + crc6 w))] ∧
      t.gact a = { x with adi := rest, seq := (x.seq + 1) % 16, sent := x.sent + 1, lastType := ty } ∧
      t.gact (1 - a.val) = s.gact (1 - a.val) ∧
      t = { s with gact0 := t.gact0, gact1 := t.gact1, out := t.out, evSeen := t.evSeen } := by
  intro x w
  let y : GAct := { x with adi := rest, seq := (x.seq + 1) % 16, sent := x.sent + 1, lastType := ty }
  let u := (s.setGact a y).emit (.adiFrame a (BitVec.ofNat 32 (w + crc6 w)))
  have hsend : s.adiSend a = u := by
    simp only [State.adiSend, hwait, hon, Bool.not_true, Bool.false_eq_true, if_false]
    rfl
  refine ⟨u.settle, congrArg done hsend, ?_, s.gact_setGact a y, s.gact_setGact_other a y, ?_⟩
  · exact congrArg (· ++ _) (s.setGact_out a y)
  · obtain ⟨g0, g1, hset⟩ := s.setGact_eq a y
    simp only [u, hset]
    rfl

/-- What a queued frame leaves (R199). -/
theorem State.adiQueue_settle_spec {s : State} (hon : s.gylOn = true) (a : Act) (ty pl : Nat) : let t := (s.adiQueue a ty pl).settle
    t.gact a = { s.gact a with adi := (s.gact a).adi ++ [(ty, pl)] } ∧ t.gact (1 - a.val) = s.gact (1 - a.val) ∧
      t = { s with gact0 := t.gact0, gact1 := t.gact1, evSeen := t.evSeen } := by
  rw [State.adiQueue_on hon]
  refine ⟨s.gact_setGact a _, s.gact_setGact_other a _, ?_⟩
  obtain ⟨g0, g1, hset⟩ := s.setGact_eq a { s.gact a with adi := (s.gact a).adi ++ [(ty, pl)] }
  rw [hset]
  rfl

/-- A return frame with a good CRC and FLT clear ends a row of bad ones; a wrong sequence number counts (R201). -/
def State.retCounted (s : State) (a : Nat) (w : W32) : State :=
  let x := s.gact a
  let s := s.setGact a { x with bad := 0, flt := false }
  if 2 ≤ x.sent ∧ getF w 24 4 ≠ (x.seq + 14) % 16 then s.incFld (Reg.GYL_ACT_ADIERR a) 16 16 else s

/-- Its sense value goes to the context whose frame type went out last, and PARKED is taken (R200, R201). -/
def State.retTaken (s : State) (a : Nat) (w : W32) : State :=
  let sense : BitVec 18 := BitVec.ofNat 18 (getF w 6 18)
  let ty := (s.gact a).lastType
  let s := s.retCounted a w
  let s := if ty = 1 then s.setGc (vcm a) { s.gc (vcm a) with sense := sense }
    else if ty = 2 then s.setGc (mac a) { s.gc (mac a) with sense := sense } else s
  s.setQual a 7 (tb w 30)

theorem qual_ne_adierr (a b : Nat) : Reg.GYL_ACT_QUAL a ≠ Reg.GYL_ACT_ADIERR b := by
  simp only [Reg.GYL_ACT_QUAL, Reg.GYL_ACT_ADIERR]
  omega

section
variable {s : State} {a : Act} {w : W32}

theorem State.returnFrame_good (hsent : (s.gact a).sent ≠ 0) (hon : s.gylOn = true)
    (hcrc : crc6 (w.toNat / 64 * 64) = getF w 0 6) (hflt : w.getLsbD 31 = false) : let u := s.retTaken a w
    s.returnFrame a w = if !(tb w 30) then u else if u.retracting a then u.retractEnd a
      else if u.unloading a then u.unloadEnd a else u := by
  have hflt' : tb w 31 = false := hflt
  have hgo : ¬ ((s.gact a).sent = 0 ∨ (!s.gylOn) = true) := by simp [hsent, hon]
  unfold State.returnFrame State.retTaken State.retCounted
  rw [if_neg hgo, if_neg (not_not.2 hcrc), hflt']
  rfl

/-- A good return frame changes its actuator, SENSE and registers (R201). -/
theorem State.retTaken_eq (s : State) (a : Nat) (w : W32) : ∃ regs gctx, s.retTaken a w =
    { s.setGact a { s.gact a with bad := 0, flt := false } with regs := regs, gctx := gctx } := by
  unfold State.retTaken State.retCounted
  dsimp only
  split_ifs <;> exact ⟨_, _, rfl⟩

/-- The registers after a good return frame: PARKED is taken, and a wrong sequence number counts (R201). -/
theorem State.reg_retTaken (s : State) (a : Nat) (w : W32) (o : Nat) : (s.retTaken a w).reg o =
    if o = Reg.GYL_ACT_QUAL a then setF (s.reg (Reg.GYL_ACT_QUAL a)) 7 1 (b2n (tb w 30))
    else if 2 ≤ (s.gact a).sent ∧ getF w 24 4 ≠ ((s.gact a).seq + 14) % 16 then (s.incFld (Reg.GYL_ACT_ADIERR a) 16 16).reg o
    else s.reg o := by
  have hne := qual_ne_adierr a a
  unfold State.retTaken State.retCounted
  dsimp only
  rw [State.setQual, State.reg_setFld]
  split_ifs <;> simp [State.incFld, State.fld, State.reg_setFld, hne]

/-- SENSE of a good return frame is that of the context whose frame went out last (R201). -/
theorem State.gc_retTaken (s : State) (a : Act) (w : W32) (c : Nat) : (s.retTaken a w).gc c =
    if (c = vcm a ∧ (s.gact a).lastType = 1) ∨ (c = mac a ∧ (s.gact a).lastType = 2) then
      { s.gc c with sense := BitVec.ofNat 18 (getF w 6 18) } else s.gc c := by
  have hgc (c : Nat) : (s.retCounted a w).gc c = s.gc c := by
    unfold State.retCounted
    dsimp only
    split_ifs <;> exact State.gc_setGact ..
  unfold State.retTaken
  by_cases hvcm : (s.gact a).lastType = 1
  · by_cases hc : c = vcm a <;> simp [hvcm, hc, hgc]
  · by_cases hmac : (s.gact a).lastType = 2
    · by_cases hc : c = mac a <;> simp [hmac, hc, hgc]
    · simp [hvcm, hmac, hgc]

/-- PARKED is taken, and the other qualifiers stay (R201). -/
theorem State.rbit_retTaken (s : State) (a : Act) (w : W32) {i : Nat} (hi : i < 32) :
    (s.retTaken a w).rbit (Reg.GYL_ACT_QUAL a) i = if i = 7 then tb w 30 else s.rbit (Reg.GYL_ACT_QUAL a) i := by
  rw [State.rbit, State.reg_retTaken, if_pos rfl]
  exact tb_setF_bit _ _ hi

/-- Registers of an actuator, of its voice-coil context and of Guyline are different ones. -/
theorem actRegs_ne (a : Act) :
    (Reg.GYL_ACT_QUAL a ≠ Reg.GYL_ACT_LOAD a ∧ Reg.GYL_ACT_LOAD a ≠ Reg.GYL_ACT_QUAL a ∧
      Reg.GYL_STATUS ≠ Reg.GYL_ACT_QUAL a ∧ Reg.GYL_ACT_QUAL a ≠ Reg.GYL_STATUS ∧
      Reg.GYL_STATUS ≠ Reg.GYL_ACT_LOAD a ∧ Reg.GYL_ACT_LOAD a ≠ Reg.GYL_STATUS) ∧
    ∀ c ∈ [vcm a, mac a], (Reg.GYL_CTX_CTRL c ≠ Reg.GYL_ACT_QUAL a ∧ Reg.GYL_ACT_QUAL a ≠ Reg.GYL_CTX_CTRL c ∧
      Reg.GYL_CTX_CTRL c ≠ Reg.GYL_ACT_LOAD a ∧ Reg.GYL_ACT_LOAD a ≠ Reg.GYL_CTX_CTRL c ∧
      Reg.GYL_CTX_CTRL c ≠ Reg.GYL_STATUS ∧ Reg.GYL_STATUS ≠ Reg.GYL_CTX_CTRL c) ∧
      Reg.GYL_CTX_STAT c ≠ Reg.GYL_ACT_QUAL a ∧ Reg.GYL_ACT_QUAL a ≠ Reg.GYL_CTX_STAT c ∧
      Reg.GYL_CTX_STAT c ≠ Reg.GYL_ACT_LOAD a ∧ Reg.GYL_ACT_LOAD a ≠ Reg.GYL_CTX_STAT c ∧
      Reg.GYL_CTX_STAT c ≠ Reg.GYL_STATUS ∧ Reg.GYL_STATUS ≠ Reg.GYL_CTX_STAT c := by
  revert a
  decide

/-- Both contexts of an actuator stop (R209, R210). -/
def State.stopCtxs (s : State) (a : Nat) : State :=
  (((s.dropCtx (vcm a)).dropCtx (mac a)).clrReg (Reg.GYL_CTX_CTRL (vcm a)) (bit 0)).clrReg (Reg.GYL_CTX_CTRL (mac a)) (bit 0)

/-- What stopping both contexts leaves while none runs. -/
theorem State.stopCtxs_spec {s : State} (hrun : s.gylRun = none) (a : Nat) : let t := s.stopCtxs a
    GylOnly s t [Reg.GYL_CTX_CTRL (vcm a), Reg.GYL_CTX_CTRL (mac a)] ∧ (∀ b, t.gact b = s.gact b) ∧
      t.gylQ = (s.gylQ.filter (·.2 != vcm a)).filter (·.2 != mac a) ∧ t.ctxOn (vcm a) = false ∧ t.ctxOn (mac a) = false := by
  have hdrop := ((GylOnly.refl s [Reg.GYL_CTX_CTRL (vcm a), Reg.GYL_CTX_CTRL (mac a)]).dropCtx hrun (vcm a)).dropCtx hrun (mac a)
  refine ⟨(hdrop.setReg (by simp) _).setReg (by simp) _, fun b => ?_, ?_, ?_, ?_⟩
  · rw [State.stopCtxs, State.gact_clrReg, State.gact_clrReg, State.gact_dropCtx (State.gylRun_dropCtx hrun _),
      State.gact_dropCtx hrun]
  · rw [State.stopCtxs, State.clrReg, State.setReg_gylQ, State.clrReg, State.setReg_gylQ,
      State.gylQ_dropCtx (State.gylRun_dropCtx hrun _), State.gylQ_dropCtx hrun]
  · simp [State.ctxOn, State.stopCtxs, State.rbit_clrReg, tb_bit]
  · simp [State.ctxOn, State.stopCtxs, State.rbit_clrReg, tb_bit]

@[simp] theorem State.rbit_adiQueue (s : State) (a ty pl o i : Nat) : (s.adiQueue a ty pl).rbit o i = s.rbit o i := by
  rw [State.rbit, State.reg_adiQueue, State.rbit]

theorem GylOnly.rbit {s t : State} {l : List Nat} (h : GylOnly s t l) {o : Nat} (ho : o ∉ l) (i : Nat) :
    t.rbit o i = s.rbit o i := congrArg (tb · i) (h.regsBut o ho)

/-- Neither GYL_CTRL nor the other registers of an actuator are written by a retract or by the end of an unload. -/
theorem not_mem_retractRegs (a : Act) : Reg.GYL_CTRL ∉ retractRegs a ∧ Reg.GYL_ACT_RETRACT a ∉ retractRegs a := by
  revert a
  decide

/-- The heads are being retracted: both contexts have stopped, and nothing else is in progress (R210). -/
def Retracted (s t : State) (a : Act) : Prop :=
  t.retracting a = true ∧ t.loading a = false ∧ t.unloading a = false ∧ t.ctxOn (vcm a) = false ∧ t.ctxOn (mac a) = false ∧
    t.rbit (Reg.GYL_ACT_LOAD a) 13 = true ∧ t.rbit (Reg.GYL_ACT_LOAD a) 11 = false ∧ t.rbit (Reg.GYL_ACT_LOAD a) 12 = false ∧
    (t.gact a).adi = (s.gact a).adi ++ [(2, 0), (3, s.fld (Reg.GYL_ACT_RETRACT a) 0 16 * 4)] ∧
    t.gylQ = (s.gylQ.filter (·.2 != vcm a)).filter (·.2 != mac a)

/-- The marks of a retract, once its contexts have stopped: its frames come after them (R210). -/
def State.markRetract (s : State) (a : Nat) : State :=
  (((s.setQual a 4 false).setQual a 5 false).setQual a 6 true |>.clrReg (Reg.GYL_ACT_LOAD a) (bit 11 ||| bit 12)).orReg
    (Reg.GYL_ACT_LOAD a) (bit 13)

theorem State.retract_eq (s : State) (a : Nat) : let t := (s.stopCtxs a).markRetract a
    s.retract a = (t.adiQueue a 2 0).adiQueue a 3 (t.fld (Reg.GYL_ACT_RETRACT a) 0 16 * 4) := rfl

theorem State.markRetract_eq (s : State) (a : Nat) : ∃ regs, s.markRetract a = { s with regs := regs } :=
  State.setReg_eq (State.setReg_eq (State.setReg_eq (State.setReg_eq (State.setReg_eq ⟨s.regs, rfl⟩ _ _) _ _) _ _) _ _) _ _

theorem GylOnly.markRetract {s t : State} {a : Nat} (h : GylOnly s t (retractRegs a)) :
    GylOnly s (t.markRetract a) (retractRegs a) := by
  have hqual : Reg.GYL_ACT_QUAL a ∈ retractRegs a := by simp [retractRegs]
  have hload : Reg.GYL_ACT_LOAD a ∈ retractRegs a := by simp [retractRegs]
  exact ((((h.setReg hqual _).setReg hqual _).setReg hqual _).setReg hload _).setReg hload _

/-- What the marks of a retract read as, and which bits they leave. -/
theorem State.rbit_markRetract (s : State) (a : Act) {i : Nat} (hi : i < 32) (o : Nat) : (s.markRetract a).rbit o i =
    if o = Reg.GYL_ACT_LOAD a then (s.rbit o i && !decide (i = 11 ∨ i = 12)) || decide (i = 13)
    else if o = Reg.GYL_ACT_QUAL a then if i = 6 then true else s.rbit o i && !decide (i = 4 ∨ i = 5) else s.rbit o i := by
  obtain ⟨hne, -⟩ := actRegs_ne a
  simp only [State.markRetract, State.rbit_orReg, State.rbit_clrReg _ hi, State.rbit_setQual _ hi, tb_bit hi, tb_or]
  by_cases hload : o = Reg.GYL_ACT_LOAD a
  · simp [hload, hne, eq_comm]
  · by_cases hqual : o = Reg.GYL_ACT_QUAL a
    · simp only [hqual, hne, if_true, if_false]
      by_cases h6 : i = 6
      · simp [h6]
      · by_cases h5 : i = 5
        · simp [h5]
        · by_cases h4 : i = 4 <;> simp [h4, h5, h6]
    · simp [hload, hqual]

theorem State.retract_retracted {s : State} (hrun : s.gylRun = none) (hon : s.gylOn = true) (a : Act) :
    Retracted s (s.retract a) a := by
  obtain ⟨honly, hgact, hq, hvcm, hmac⟩ := State.stopCtxs_spec hrun a.val
  obtain ⟨hne, hctx⟩ := actRegs_ne a
  have hv := hctx (vcm a) (by simp)
  have hm := hctx (mac a) (by simp)
  obtain ⟨hctrl, hret⟩ := not_mem_retractRegs a
  have hretract := s.retract_eq a
  have hmark : GylOnly s ((s.stopCtxs a).markRetract a) (retractRegs a) :=
    (honly.mono (List.cons_subset_cons _ (List.cons_subset_cons _ (List.nil_subset _)))).markRetract
  have hfld : ((s.stopCtxs a).markRetract a).fld (Reg.GYL_ACT_RETRACT a) 0 16 = s.fld (Reg.GYL_ACT_RETRACT a) 0 16 :=
    congrArg (getF · 0 16) (hmark.regsBut _ hret)
  have hon' : ((s.stopCtxs a).markRetract a).gylOn = true := (hmark.rbit hctrl 0).trans hon
  have hread (o : Nat) {i : Nat} (hi : i < 32) := (s.stopCtxs a).rbit_markRetract a hi o
  obtain ⟨regs, hregs⟩ := (s.stopCtxs a).markRetract_eq a
  generalize (s.stopCtxs a).markRetract a = t at hretract hfld hon' hread hregs
  generalize s.stopCtxs a = u at hgact hq hvcm hmac hread hregs
  have hgact' : t.gact a = u.gact a := by
    rw [hregs]
    rfl
  have hq' : t.gylQ = u.gylQ := by rw [hregs]
  have hon2 : (t.adiQueue a 2 0).gylOn = true := (State.rbit_adiQueue ..).trans hon'
  rw [hretract, hfld]
  simp only [Retracted, State.retracting, State.loading, State.unloading, State.ctxOn, State.rbit_adiQueue] at hvcm hmac ⊢
  refine ⟨?_, ?_, ?_, ?_, ?_, ?_, ?_, ?_, ?_, ?_⟩
  · simp [hread, hne]
  · simp [hread, hne]
  · simp [hread, hne]
  · simpa [hread, hv] using hvcm
  · simpa [hread, hm] using hmac
  · simp [hread]
  · simp [hread]
  · simp [hread]
  · rw [State.adiQueue_on hon2, State.adiQueue_on hon', State.gact_setGact, State.gact_setGact, hgact', hgact]
    simp
  · rw [State.adiQueue_on hon2, State.adiQueue_on hon', State.setGact_gylQ, State.setGact_gylQ, hq', hq]

/-- An unload that has parked the heads ends: its contexts stop, UNLOAD clears and the port gets PARK (R209). -/
theorem State.unloadEnd_spec {u : State} (hrun : u.gylRun = none) (hon : u.gylOn = true) (a : Act) : let t := u.unloadEnd a
    GylOnly u t (Reg.GYL_STATUS :: retractRegs a) ∧ t.unloading a = false ∧
      t.rbit (Reg.GYL_ACT_QUAL a) 7 = u.rbit (Reg.GYL_ACT_QUAL a) 7 ∧ t.ctxOn (vcm a) = false ∧ t.ctxOn (mac a) = false ∧
      t.rbit (Reg.GYL_ACT_LOAD a) 12 = false ∧ t.rbit Reg.GYL_STATUS (22 + a) = true ∧
      (t.gact a).adi = (u.gact a).adi ++ [(4, 0)] := by
  obtain ⟨hne, hctx⟩ := actRegs_ne a
  have hv := hctx (vcm a) (by simp)
  have hm := hctx (mac a) (by simp)
  have hqueued : GylOnly u ((u.adiQueue a 4 0).setQual a 5 false) (Reg.GYL_STATUS :: retractRegs a) :=
    ((GylOnly.refl u _).adiQueue a 4 0).setReg (by simp [retractRegs]) _
  have hqual {i : Nat} (hi : i < 32) : ((u.adiQueue a 4 0).setQual a 5 false).rbit (Reg.GYL_ACT_QUAL a) i =
      if i = 5 then false else u.rbit (Reg.GYL_ACT_QUAL a) i := by
    rw [State.rbit_setQual _ hi, if_pos rfl, State.rbit_adiQueue]
  have hgact : (((u.adiQueue a 4 0).setQual a 5 false).gact a).adi = (u.gact a).adi ++ [(4, 0)] := by
    rw [State.gact_setQual, State.adiQueue_on hon, State.gact_setGact]
  have hend : u.unloadEnd a = ((((u.adiQueue a 4 0).setQual a 5 false).stopCtxs a).clrReg (Reg.GYL_ACT_LOAD a) (bit 12)).orReg
      Reg.GYL_STATUS (bit (22 + a)) := rfl
  generalize (u.adiQueue a 4 0).setQual a 5 false = w at hqueued hqual hgact hend
  obtain ⟨hstop, hact, -, hvcm, hmac⟩ := State.stopCtxs_spec (hqueued.gylRun.trans hrun) a.val
  generalize w.stopCtxs a = x at hstop hact hvcm hmac hend
  have hkept (i : Nat) : x.rbit (Reg.GYL_ACT_QUAL a) i = w.rbit (Reg.GYL_ACT_QUAL a) i :=
    hstop.rbit (by simp [hv, hm]) i
  have h22 : 22 + a.val < 32 := by omega
  simp only [hend, State.unloading, State.ctxOn] at hvcm hmac ⊢
  refine ⟨((hqueued.trans (hstop.mono (by simp [retractRegs]))).setReg (by simp [retractRegs]) _).setReg (by simp) _,
    ?_, ?_, ?_, ?_, ?_, ?_, ?_⟩
  · simp [State.rbit_orReg, State.rbit_clrReg, hne, hkept, hqual]
  · simp [State.rbit_orReg, State.rbit_clrReg, hne, hkept, hqual]
  · simpa [State.rbit_orReg, State.rbit_clrReg, hv] using hvcm
  · simpa [State.rbit_orReg, State.rbit_clrReg, hm] using hmac
  · simp [State.rbit_orReg, State.rbit_clrReg, hne, tb_bit]
  · simp [State.rbit_orReg, tb_bit h22]
  · rw [State.gact_orReg, State.gact_clrReg, hact, hgact]

/-- A return frame that ends nothing (R200, R201). -/
theorem exec_adiReturnFrame_taken (hsent : (s.gact a).sent ≠ 0) (hon : s.gylOn = true)
    (hcrc : crc6 (w.toNat / 64 * 64) = getF w 0 6) (hflt : w.getLsbD 31 = false)
    (hpark : w.getLsbD 30 = false ∨ s.moving a = false)
    (hseq : (s.gact a).sent < 2 ∨ getF w 24 4 = ((s.gact a).seq + 14) % 16) :
    ∃ t, exec (.adiReturnFrame a w) s = .next t ∧ t.gact a = { s.gact a with bad := 0, flt := false } ∧
      t.gact (1 - a.val) = s.gact (1 - a.val) ∧
      (∀ c, t.gc c = if (c = vcm a ∧ (s.gact a).lastType = 1) ∨ (c = mac a ∧ (s.gact a).lastType = 2) then
        { s.gc c with sense := BitVec.ofNat 18 (getF w 6 18) } else s.gc c) ∧
      t.rbit (Reg.GYL_ACT_QUAL a) 7 = w.getLsbD 30 ∧
      t = { s with regs := t.regs, gact0 := t.gact0, gact1 := t.gact1, gctx := t.gctx, evSeen := t.evSeen } ∧
      RegsBut s t [Reg.GYL_ACT_QUAL a] := by
  have hqual {i : Nat} (hi : i < 32) := s.rbit_retTaken a w hi
  have hends : s.returnFrame a w = s.retTaken a w := by
    rw [State.returnFrame_good hsent hon hcrc hflt]
    rcases hpark with hpark | hstill
    · have hpark' : tb w 30 = false := hpark
      rw [hpark']
      rfl
    · simp only [State.moving, Bool.or_eq_false_iff, State.loading, State.unloading, State.retracting] at hstill
      obtain ⟨⟨-, hunload⟩, hretract⟩ := hstill
      simp [State.retracting, State.unloading, hqual, hunload, hretract]
  obtain ⟨regs, gctx, heq⟩ := s.retTaken_eq a w
  have hreg := s.reg_retTaken a w
  have hgc := s.gc_retTaken a w
  generalize s.retTaken a w = u at hqual hends heq hreg hgc
  refine ⟨u.settle, congrArg done hends, ?_, ?_, hgc, hqual (by decide), ?_, fun o ho => ?_⟩
  · rw [heq]
    exact s.gact_setGact a _
  · rw [heq]
    exact s.gact_setGact_other a _
  · obtain ⟨g0, g1, hset⟩ := s.setGact_eq a { s.gact a with bad := 0, flt := false }
    rw [heq, hset]
    rfl
  · have hgood : ¬ (2 ≤ (s.gact a).sent ∧ getF w 24 4 ≠ ((s.gact a).seq + 14) % 16) := by omega
    exact (hreg o).trans ((if_neg (List.ne_of_not_mem_cons ho)).trans (if_neg hgood))

/-- A return frame that reports PARKED ends an unload (R201, R209). -/
theorem exec_adiReturnFrame_parked (hsent : (s.gact a).sent ≠ 0) (hon : s.gylOn = true)
    (hcrc : crc6 (w.toNat / 64 * 64) = getF w 0 6) (hflt : w.getLsbD 31 = false) (hpark : w.getLsbD 30 = true)
    (hret : s.retracting a = false) (hunload : s.unloading a = true) (hrun : s.gylRun = none) :
    ∃ t, exec (.adiReturnFrame a w) s = .next t ∧ t.unloading a = false ∧
      t.rbit (Reg.GYL_ACT_QUAL a) 7 = true ∧ t.ctxOn (vcm a) = false ∧ t.ctxOn (mac a) = false ∧
      t.rbit (Reg.GYL_ACT_LOAD a) 12 = false ∧ t.rbit Reg.GYL_STATUS (22 + a) = true ∧
      (t.gact a).adi = (s.gact a).adi ++ [(4, 0)] ∧ t.mem = s.mem ∧ t.thrs = s.thrs := by
  have hqual {i : Nat} (hi : i < 32) := s.rbit_retTaken a w hi
  have hpark' : tb w 30 = true := hpark
  have hends : s.returnFrame a w = (s.retTaken a w).unloadEnd a := by
    have hret' : (s.retTaken a w).retracting a = false := (hqual (by decide)).trans hret
    have hunload' : (s.retTaken a w).unloading a = true := (hqual (by decide)).trans hunload
    rw [State.returnFrame_good hsent hon hcrc hflt, hpark', hret', hunload']
    rfl
  have hon' : (s.retTaken a w).gylOn = true := by
    have hkept : (s.retTaken a w).reg Reg.GYL_CTRL = s.reg Reg.GYL_CTRL := by
      have hne : Reg.GYL_CTRL ≠ Reg.GYL_ACT_QUAL a ∧ Reg.GYL_CTRL ≠ Reg.GYL_ACT_ADIERR a := by
        simp only [Reg.GYL_CTRL, Reg.GYL_ACT_QUAL, Reg.GYL_ACT_ADIERR]
        omega
      rw [State.reg_retTaken, if_neg hne.1, State.incFld, State.reg_setFld, if_neg hne.2, ite_self]
    exact (congrArg (tb · 0) hkept).trans hon
  obtain ⟨regs, gctx, heq⟩ := s.retTaken_eq a w
  generalize s.retTaken a w = u at hqual hends heq hon'
  obtain ⟨g0, g1, hset⟩ := s.setGact_eq a { s.gact a with bad := 0, flt := false }
  have hgact : u.gact a = { s.gact a with bad := 0, flt := false } := by
    rw [heq]
    exact s.gact_setGact a _
  have hkept : u.gylRun = s.gylRun ∧ u.mem = s.mem ∧ u.thrs = s.thrs := by
    rw [heq, hset]
    exact ⟨rfl, rfl, rfl⟩
  obtain ⟨hidle, hmem, hthrs⟩ := hkept
  obtain ⟨honly, hunl, hseven, hvcm, hmac, hmove, hstatus, hadi⟩ := State.unloadEnd_spec (hidle.trans hrun) hon' a
  refine ⟨(u.unloadEnd a).settle, congrArg done hends, hunl, hseven.trans ((hqual (by decide)).trans hpark'), hvcm, hmac, hmove,
    hstatus, hadi.trans (by rw [hgact]), ?_, ?_⟩
  · exact (congrArg State.mem honly.eq).trans hmem
  · exact (congrArg State.thrs honly.eq).trans hthrs

/-- A return frame with a bad CRC counts (R201). -/
theorem exec_adiReturnFrame_bad (hsent : (s.gact a).sent ≠ 0) (hon : s.gylOn = true)
    (hcrc : crc6 (w.toNat / 64 * 64) ≠ getF w 0 6) (hfew : (s.gact a).bad + 1 < 8) :
    ∃ t, exec (.adiReturnFrame a w) s = .next t ∧ t.gact a = { s.gact a with bad := (s.gact a).bad + 1 } ∧
      t.gact (1 - a.val) = s.gact (1 - a.val) ∧
      t.fld (Reg.GYL_ACT_ADIERR a) 0 16 = satAdd (s.fld (Reg.GYL_ACT_ADIERR a) 0 16) 1 16 ∧
      t = { s with regs := t.regs, gact0 := t.gact0, gact1 := t.gact1, evSeen := t.evSeen } ∧
      RegsBut s t [Reg.GYL_ACT_ADIERR a] := by
  have hgo : ¬ ((s.gact a).sent = 0 ∨ (!s.gylOn) = true) := by simp [hsent, hon]
  have hcount : s.returnFrame a w = (s.incFld (Reg.GYL_ACT_ADIERR a) 0 16).setGact a { s.gact a with bad := (s.gact a).bad + 1 } :=
    (if_neg hgo).trans ((if_pos hcrc).trans (if_neg (by omega)))
  refine ⟨_, congrArg done hcount, State.gact_setGact .., State.gact_setGact_other .., ?_, ?_, fun o ho => ?_⟩
  · rw [State.fld, State.reg_settle, State.reg_setGact, State.incFld, State.reg_setFld, if_pos rfl]
    exact getF_setF _ (by simp only [satAdd]; omega) (by decide)
  · obtain ⟨g0, g1, hset⟩ := (s.incFld (Reg.GYL_ACT_ADIERR a) 0 16).setGact_eq a { s.gact a with bad := (s.gact a).bad + 1 }
    rw [hset]
    rfl
  · rw [State.reg_settle, State.reg_setGact, State.incFld, State.reg_setFld, if_neg (List.ne_of_not_mem_cons ho)]

end

end Sys2Proof.Machine
end

section
namespace Sys2Proof.Machine

/-! ### Loads, unloads and retracts begin and end (R206, R208 to R210) -/

/-- A field keeps its value when another is set. -/
theorem getF_setF_other (v : W32) {lo len lo' len' : Nat} (x : Nat) (h : lo + len ≤ lo' ∨ lo' + len' ≤ lo)
    (hw : lo + len ≤ 32) :
    getF (setF v lo' len' x) lo len = getF v lo len := by
  apply Nat.eq_of_testBit_eq
  intro i
  rw [testBit_getF, testBit_getF]
  by_cases hi : i < len
  · rw [tb_setF _ _ _ _ (by omega), if_neg (by omega)]
  · simp [hi]

/-- The law addresses of a write of GYL_ACTa_LOAD (R208, R209). -/
def State.moveWritten (s : State) (a : Nat) (v : W32) : State :=
  (s.setFld (Reg.GYL_ACT_LOAD a) 0 11 (getF v 0 11)).setFld (Reg.GYL_ACT_LOAD a) 16 11 (getF v 16 11)

theorem State.moveWritten_spec (s : State) (a : Act) (v : W32) : let u := s.moveWritten a v
    u.fld (Reg.GYL_ACT_LOAD a) 0 11 = getF v 0 11 ∧ u.fld (Reg.GYL_ACT_LOAD a) 16 11 = getF v 16 11 ∧
      (∀ o, o ≠ Reg.GYL_ACT_LOAD a → u.reg o = s.reg o) ∧ u.moving a = s.moving a ∧ u.retracting a = s.retracting a ∧
      ∃ regs, u = { s with regs := regs } := by
  have hreg (o : Nat) (ho : o ≠ Reg.GYL_ACT_LOAD a) : (s.moveWritten a v).reg o = s.reg o := by
    rw [State.moveWritten, State.reg_setFld, if_neg ho, State.reg_setFld, if_neg ho]
  have hqual (i : Nat) : (s.moveWritten a v).rbit (Reg.GYL_ACT_QUAL a) i = s.rbit (Reg.GYL_ACT_QUAL a) i :=
    congrArg (tb · i) (hreg _ (actRegs_ne a).1.1)
  have hlt (lo : Nat) : getF v lo 11 < 2 ^ 11 := Nat.mod_lt _ (by decide)
  refine ⟨?_, ?_, hreg, ?_, hqual 6, State.setReg_eq (State.setReg_eq ⟨s.regs, rfl⟩ _ _) _ _⟩
  · rw [State.fld, State.moveWritten, State.reg_setFld, if_pos rfl, getF_setF_other _ _ (by decide) (by decide),
      State.reg_setFld, if_pos rfl, getF_setF _ (hlt 0) (by decide)]
  · rw [State.fld, State.moveWritten, State.reg_setFld, if_pos rfl, getF_setF _ (hlt 16) (by decide)]
  · simp only [State.moving, State.loading, State.unloading, State.retracting, hqual]

/-- An unload begins (R209). -/
theorem State.unloadStart_spec (u : State) (a : Act) : let t := u.unloadStart a
    t.gc (vcm a) = { u.gc (vcm a) with law := u.fld (Reg.GYL_ACT_LOAD a) 16 11, transfer := true } ∧
      (∀ c, c ≠ vcm a → t.gc c = u.gc c) ∧ t.unloading a = true ∧ t.acquired a = false ∧
      t.rbit (Reg.GYL_ACT_LOAD a) 12 = true ∧ t.rbit (Reg.GYL_ACT_LOAD a) 11 = u.rbit (Reg.GYL_ACT_LOAD a) 11 ∧
      t.loading a = u.loading a ∧ (∃ regs gctx, t = { u with regs := regs, gctx := gctx }) ∧
      RegsBut u t [Reg.GYL_ACT_QUAL a, Reg.GYL_ACT_LOAD a] := by
  obtain ⟨hne, -⟩ := actRegs_ne a
  refine ⟨?_, fun c hc => ?_, ?_, ?_, ?_, ?_, ?_, ?_, fun o ho => ?_⟩
  · simp [State.unloadStart, State.installLaw]
  · simp [State.unloadStart, State.installLaw, hc]
  · simp [State.unloadStart, State.unloading, State.rbit_setQual]
  · simp [State.unloadStart, State.acquired, State.rbit_setQual]
  · simp [State.unloadStart, State.rbit_setQual, State.rbit_orReg, hne, tb_bit]
  · simp [State.unloadStart, State.installLaw, State.rbit_setQual, State.rbit_orReg, hne, tb_bit]
  · simp [State.unloadStart, State.installLaw, State.loading, State.rbit_setQual, State.rbit_orReg, hne]
  · have hmarks (w : State) : ∃ regs, ((w.orReg (Reg.GYL_ACT_LOAD a) (bit 12)).setQual a 3 false).setQual a 5 true =
        { w with regs := regs } :=
      State.setReg_eq (State.setReg_eq (State.setReg_eq ⟨w.regs, rfl⟩ _ _) _ _) _ _
    obtain ⟨regs, hregs⟩ := hmarks (u.installLaw a (u.fld (Reg.GYL_ACT_LOAD a) 16 11))
    exact ⟨regs, (u.installLaw a (u.fld (Reg.GYL_ACT_LOAD a) 16 11)).gctx, hregs⟩
  · simp only [List.mem_cons, List.not_mem_nil, or_false, not_or] at ho
    simp [State.unloadStart, State.installLaw, State.setQual, State.reg_setFld, State.reg_orReg, ho]

/-- A load begins (R208). -/
theorem State.loadStart_spec (u : State) (a : Act) : let t := u.loadStart a
    t.gc (vcm a) = { u.gc (vcm a) with law := u.fld (Reg.GYL_ACT_LOAD a) 0 11, transfer := true } ∧
      (∀ c, c ≠ vcm a → t.gc c = u.gc c) ∧ t.loading a = true ∧ t.rbit (Reg.GYL_ACT_LOAD a) 11 = true ∧
      t.gact a = { u.gact a with found := 0, wedge := none, resolve := true } ∧ t.gact (1 - a.val) = u.gact (1 - a.val) ∧
      (∃ regs g0 g1 gctx, t = { u with regs := regs, gact0 := g0, gact1 := g1, gctx := gctx }) ∧
      RegsBut u t [Reg.GYL_ACT_QUAL a, Reg.GYL_ACT_LOAD a] := by
  obtain ⟨hne, -⟩ := actRegs_ne a
  refine ⟨?_, fun c hc => ?_, ?_, ?_, ?_, ?_, ?_, fun o ho => ?_⟩
  · simp [State.loadStart, State.installLaw]
  · simp [State.loadStart, State.installLaw, hc]
  · simp [State.loadStart, State.loading, State.rbit_setQual]
  · simp [State.loadStart, State.rbit_setQual, State.rbit_orReg, hne, tb_bit]
  · rw [State.loadStart, State.gact_setGact]
    rfl
  · rw [State.loadStart, State.gact_setGact_other]
    rfl
  · have hmarks (w : State) (x : State → GAct) : ∃ regs g0 g1, ((w.orReg (Reg.GYL_ACT_LOAD a) (bit 11)).setQual a 4 true).setGact a
        (x w) = { w with regs := regs, gact0 := g0, gact1 := g1 } := by
      obtain ⟨regs, hregs⟩ : ∃ regs, (w.orReg (Reg.GYL_ACT_LOAD a) (bit 11)).setQual a 4 true = { w with regs := regs } :=
        State.setReg_eq (State.setReg_eq ⟨w.regs, rfl⟩ _ _) _ _
      obtain ⟨g0, g1, hset⟩ := ({ w with regs := regs } : State).setGact_eq a (x w)
      exact ⟨regs, g0, g1, hregs ▸ hset⟩
    obtain ⟨regs, g0, g1, hset⟩ := hmarks (u.installLaw a (u.fld (Reg.GYL_ACT_LOAD a) 0 11))
      fun w => { w.gact a with found := 0, wedge := none, resolve := true }
    exact ⟨regs, g0, g1, (u.installLaw a (u.fld (Reg.GYL_ACT_LOAD a) 0 11)).gctx, hset⟩
  · simp only [List.mem_cons, List.not_mem_nil, or_false, not_or] at ho
    simp [State.loadStart, State.installLaw, State.setQual, State.reg_setFld, State.reg_orReg, ho]

/-- A write of LOAD while nothing is in progress (R208). -/
theorem exec_loadStart {s : State} {a : Act} {v : W32} (hstill : s.moving a = false) (hload : v.getLsbD 11 = true)
    (hunload : v.getLsbD 12 = false) (hret : v.getLsbD 13 = false) : ∃ t, exec (.load a v) s = .next t ∧
      t.gc (vcm a) = { s.gc (vcm a) with law := getF v 0 11, transfer := true } ∧ (∀ c, c ≠ vcm a → t.gc c = s.gc c) ∧
      t.loading a = true ∧ t.rbit (Reg.GYL_ACT_LOAD a) 11 = true ∧
      t.gact a = { s.gact a with found := 0, wedge := none, resolve := true } ∧
      t.gact (1 - a.val) = s.gact (1 - a.val) ∧
      t = { s with regs := t.regs, gact0 := t.gact0, gact1 := t.gact1, gctx := t.gctx, evSeen := t.evSeen } ∧
      RegsBut s t [Reg.GYL_ACT_QUAL a, Reg.GYL_ACT_LOAD a] := by
  obtain ⟨hlaw, -, hreg, hmoving, -, regs, heq⟩ := s.moveWritten_spec a v
  have hbits : tb v 11 = true ∧ tb v 12 = false ∧ tb v 13 = false := ⟨hload, hunload, hret⟩
  have hstarts : s.loadWrite a v = (s.moveWritten a v).loadStart a := by
    have hstill' := hmoving.trans hstill
    unfold State.loadWrite
    rw [← State.moveWritten]
    simp [hbits, hstill']
  generalize s.moveWritten a v = u at *
  obtain ⟨hgc, hothers, hloading, hbit, hgact, hother, ⟨regs', g0, g1, gctx, hframe⟩, hregs⟩ := u.loadStart_spec a
  generalize u.loadStart a = w at *
  subst heq
  refine ⟨w.settle, congrArg done hstarts, hgc.trans (by rw [hlaw]; rfl), hothers, hloading, hbit, hgact, hother, ?_, fun o ho => ?_⟩
  · rw [hframe]
    rfl
  · exact (hregs o ho).trans (hreg o (by simp at ho; exact ho.2))

/-- A write of UNLOAD while nothing is in progress (R209). -/
theorem exec_unloadStart {s : State} {a : Act} {v : W32} (hstill : s.moving a = false) (hload : v.getLsbD 11 = false)
    (hunload : v.getLsbD 12 = true) (hret : v.getLsbD 13 = false) : ∃ t, exec (.unload a v) s = .next t ∧
      t.gc (vcm a) = { s.gc (vcm a) with law := getF v 16 11, transfer := true } ∧ (∀ c, c ≠ vcm a → t.gc c = s.gc c) ∧
      t.unloading a = true ∧ t.acquired a = false ∧ t.rbit (Reg.GYL_ACT_LOAD a) 12 = true ∧
      t = { s with regs := t.regs, gctx := t.gctx, evSeen := t.evSeen } ∧
      RegsBut s t [Reg.GYL_ACT_QUAL a, Reg.GYL_ACT_LOAD a] := by
  obtain ⟨-, hlaw, hreg, hmoving, -, regs, heq⟩ := s.moveWritten_spec a v
  have hbits : tb v 11 = false ∧ tb v 12 = true ∧ tb v 13 = false := ⟨hload, hunload, hret⟩
  have hstarts : s.loadWrite a v = (s.moveWritten a v).unloadStart a := by
    have hstill' := hmoving.trans hstill
    unfold State.loadWrite
    rw [← State.moveWritten]
    simp [hbits, hstill']
  generalize s.moveWritten a v = u at *
  obtain ⟨hgc, hothers, hunloading, hacquired, hbit, -, -, ⟨regs', gctx, hframe⟩, hregs⟩ := u.unloadStart_spec a
  generalize u.unloadStart a = w at *
  subst heq
  refine ⟨w.settle, congrArg done hstarts, hgc.trans (by rw [hlaw]; rfl), hothers, hunloading, hacquired, hbit, ?_, fun o ho => ?_⟩
  · rw [hframe]
    rfl
  · exact (hregs o ho).trans (hreg o (by simp at ho; exact ho.2))

/-- A load that has not acquired in its time (R208). -/
def State.loadFailed (s : State) (a : Nat) : State :=
  ((s.setQual a 4 false).clrReg (Reg.GYL_ACT_LOAD a) (bit 11)).orReg Reg.GYL_STATUS (bit (20 + a))

/-- A load that times out fails and unloads (R208, R209). -/
theorem exec_loadTimeout {s : State} {a : Act} (hload : s.loading a = true) : ∃ t, exec (.loadTimeout a) s = .next t ∧
    t.loading a = false ∧ t.unloading a = true ∧ t.rbit Reg.GYL_STATUS (20 + a) = true ∧
    t.rbit (Reg.GYL_ACT_LOAD a) 11 = false ∧ t.rbit (Reg.GYL_ACT_LOAD a) 12 = true ∧
    t.gc (vcm a) = { s.gc (vcm a) with law := s.fld (Reg.GYL_ACT_LOAD a) 16 11, transfer := true } ∧
    t = { s with regs := t.regs, gctx := t.gctx, evSeen := t.evSeen } ∧
    RegsBut s t [Reg.GYL_ACT_QUAL a, Reg.GYL_ACT_LOAD a, Reg.GYL_STATUS] := by
  obtain ⟨hne, -⟩ := actRegs_ne a
  have h20 : 20 + a.val < 32 := by omega
  have hfails : s.loadTimeout a = (s.loadFailed a).unloadStart a := if_neg (by simp [hload])
  have hregs : ∃ regs, s.loadFailed a = { s with regs := regs } :=
    State.setReg_eq (State.setReg_eq (State.setReg_eq ⟨s.regs, rfl⟩ _ _) _ _) _ _
  have hloading : (s.loadFailed a).loading a = false := by
    simp [State.loadFailed, State.loading, State.rbit_orReg, State.rbit_clrReg, State.rbit_setQual, hne]
  have hbit : (s.loadFailed a).rbit (Reg.GYL_ACT_LOAD a) 11 = false := by
    simp [State.loadFailed, State.rbit_orReg, State.rbit_clrReg, hne, tb_bit]
  have hstatus : (s.loadFailed a).rbit Reg.GYL_STATUS (20 + a) = true := by
    simp [State.loadFailed, State.rbit_orReg, tb_bit h20]
  have hlaw : (s.loadFailed a).fld (Reg.GYL_ACT_LOAD a) 16 11 = s.fld (Reg.GYL_ACT_LOAD a) 16 11 := by
    simp only [State.loadFailed, State.fld, State.reg_orReg, State.reg_clrReg, State.setQual, State.reg_setFld, hne, if_true, if_false]
    exact getF_clear_bit _ (by decide) (by decide)
  have hbut : RegsBut s (s.loadFailed a) [Reg.GYL_ACT_QUAL a, Reg.GYL_ACT_LOAD a, Reg.GYL_STATUS] := by
    intro o ho
    simp only [List.mem_cons, List.not_mem_nil, or_false, not_or] at ho
    simp [State.loadFailed, State.setQual, State.reg_setFld, State.reg_orReg, State.reg_clrReg, ho]
  generalize s.loadFailed a = u at *
  obtain ⟨hgc, -, hunloading, -, hbit12, hbit11, hloading', ⟨regs', gctx, hframe⟩, hregs'⟩ := u.unloadStart_spec a
  have hstatus' := congrArg (tb · (20 + a.val)) (hregs' Reg.GYL_STATUS (by simp [hne]))
  generalize u.unloadStart a = w at *
  obtain ⟨regs, rfl⟩ := hregs
  refine ⟨w.settle, congrArg done hfails, hloading'.trans hloading, hunloading, hstatus'.trans hstatus, hbit11.trans hbit, hbit12,
    hgc.trans (by rw [hlaw]; rfl), ?_, fun o ho => ?_⟩
  · rw [hframe]
    rfl
  · exact (hregs' o (fun hmem => ho (by simp at hmem ⊢; tauto))).trans (hbut o ho)

/-- An unload that times out retracts (R209, R210). -/
theorem exec_unloadTimeout {s : State} {a : Act} (hrun : s.gylRun = none) (hon : s.gylOn = true) (hunload : s.unloading a = true) :
    ∃ t, exec (.unloadTimeout a) s = .next t ∧ Retracted s t a ∧
      t = { s with regs := t.regs, gctx := t.gctx, gylQ := t.gylQ, gact0 := t.gact0, gact1 := t.gact1, evSeen := t.evSeen } ∧
      RegsBut s t (retractRegs a) := by
  have hends : s.unloadTimeout a = s.retract a := if_pos hunload
  obtain ⟨honly, -⟩ := State.retract_spec hrun a.val
  exact ⟨(s.retract a).settle, congrArg done hends, State.retract_retracted hrun hon a,
    congrArg (fun u : State => { u with evSeen := (s.retract a).settle.evSeen }) honly.eq, honly.regsBut⟩

/-- A write of RETRACT while none is in progress (R210). -/
theorem exec_retract {s : State} {a : Act} {v : W32} (hrun : s.gylRun = none) (hon : s.gylOn = true)
    (hload : v.getLsbD 11 = false) (hunload : v.getLsbD 12 = false) (hret : v.getLsbD 13 = true)
    (hstill : s.retracting a = false) : ∃ t, exec (.retract a v) s = .next t ∧ Retracted s t a ∧
      t = { s with regs := t.regs, gctx := t.gctx, gylQ := t.gylQ, gact0 := t.gact0, gact1 := t.gact1, evSeen := t.evSeen } ∧
      RegsBut s t (retractRegs a) := by
  obtain ⟨-, -, hreg, -, hretracting, regs, heq⟩ := s.moveWritten_spec a v
  have hbits : tb v 11 = false ∧ tb v 12 = false ∧ tb v 13 = true := ⟨hload, hunload, hret⟩
  have hstarts : s.loadWrite a v = (s.moveWritten a v).retract a := by
    have hstill' := hretracting.trans hstill
    unfold State.loadWrite
    rw [← State.moveWritten]
    simp [hbits, hstill']
  have hne : Reg.GYL_CTRL ≠ Reg.GYL_ACT_LOAD a ∧ Reg.GYL_ACT_RETRACT a ≠ Reg.GYL_ACT_LOAD a := by
    simp only [Reg.GYL_CTRL, Reg.GYL_ACT_LOAD, Reg.GYL_ACT_RETRACT]
    omega
  generalize s.moveWritten a v = u at *
  have hwritten : GylOnly s u (retractRegs a) :=
    ⟨by rw [heq], fun o ho => hreg o fun h => ho (by simp [retractRegs, h])⟩
  have hkept : u.gylRun = s.gylRun ∧ u.gact a = s.gact a ∧ u.gylQ = s.gylQ := by
    rw [heq]
    exact ⟨rfl, rfl, rfl⟩
  obtain ⟨hidle, hgact, hq⟩ := hkept
  have hpos : u.fld (Reg.GYL_ACT_RETRACT a) 0 16 = s.fld (Reg.GYL_ACT_RETRACT a) 0 16 := congrArg (getF · 0 16) (hreg _ hne.2)
  have hretracted := State.retract_retracted (hidle.trans hrun) ((congrArg (tb · 0) (hreg _ hne.1)).trans hon) a
  obtain ⟨honly, -⟩ := State.retract_spec (hidle.trans hrun) a.val
  rw [Retracted, hpos, hgact, hq] at hretracted
  generalize u.retract a = t at *
  have hboth := hwritten.trans honly
  exact ⟨t.settle, congrArg done hstarts, hretracted, congrArg (fun w : State => { w with evSeen := t.settle.evSeen }) hboth.eq,
    hboth.regsBut⟩

end Sys2Proof.Machine
end

section
namespace Sys2Proof.Machine

/-! ### The end of a retract (R194, R210) -/

/-- The marks of a fault: EN clears, FAULTED, the code and the status bit are set (R194). -/
def State.faultMarks (s : State) (c code : Nat) : State :=
  (((s.clrReg (Reg.GYL_CTX_CTRL c) (bit 0)).orReg (Reg.GYL_CTX_STAT c) (bit 30)).setFld (Reg.GYL_CTX_STAT c) 20 4 code).orReg
    Reg.GYL_STATUS (bit c)

/-- What the marks of a fault read as. -/
theorem State.faultMarks_spec (s : State) {c : Nat} (hc : c < 6) (code : Nat) : let t := s.faultMarks c code
    GylOnly s t [Reg.GYL_STATUS, Reg.GYL_CTX_STAT c, Reg.GYL_CTX_CTRL c] ∧ (∀ a, t.gact a = s.gact a) ∧
      t.rbit (Reg.GYL_CTX_STAT c) 30 = true ∧ t.fld (Reg.GYL_CTX_STAT c) 20 4 = code % 16 ∧ t.ctxOn c = false ∧
      t.rbit Reg.GYL_STATUS c = true ∧ t.fld (Reg.GYL_CTX_CTRL c) 10 2 = s.fld (Reg.GYL_CTX_CTRL c) 10 2 := by
  have hne : Reg.GYL_CTX_CTRL c ≠ Reg.GYL_STATUS ∧ Reg.GYL_CTX_CTRL c ≠ Reg.GYL_CTX_STAT c ∧
      Reg.GYL_CTX_STAT c ≠ Reg.GYL_STATUS ∧ Reg.GYL_STATUS ≠ Reg.GYL_CTX_STAT c ∧ Reg.GYL_STATUS ≠ Reg.GYL_CTX_CTRL c ∧
      Reg.GYL_CTX_STAT c ≠ Reg.GYL_CTX_CTRL c := by
    simp only [Reg.GYL_CTX_CTRL, Reg.GYL_CTX_STAT, Reg.GYL_STATUS]
    omega
  refine ⟨((((GylOnly.refl s _).setReg (by simp) _).setReg (by simp) _).setReg (by simp) _).setReg (by simp) _,
    fun a => ?_, ?_, ?_, ?_, ?_, ?_⟩
  · rw [State.faultMarks, State.gact_orReg, State.setFld, State.gact_setReg, State.gact_orReg, State.gact_clrReg]
  · simp only [State.faultMarks, State.rbit, State.reg_orReg, State.reg_setFld, State.reg_clrReg, hne, if_true, if_false]
    rw [tb_setF _ _ _ _ (by decide)]
    simp [tb, bit]
  · simp only [State.faultMarks, State.fld, State.reg_orReg, State.reg_setFld, State.reg_clrReg, hne, if_true, if_false]
    exact getF_setF_mod _ _ _ _ (by decide)
  · simp only [State.faultMarks, State.ctxOn, State.rbit, State.reg_orReg, State.reg_setFld, State.reg_clrReg, hne, if_true,
      if_false]
    simp [tb, bit]
  · simp only [State.faultMarks, State.rbit_orReg, if_true, tb_bit (show c < 32 by omega), decide_true, Bool.or_true]
  · simp only [State.faultMarks, State.fld, State.reg_orReg, State.reg_setFld, State.reg_clrReg, hne, if_true, if_false]
    exact getF_clear_bit _ (by decide) (by decide)

/-- A context that faults and does nothing else: FAULT_ACT is 0 (R194). -/
theorem State.ctxFault_hold {s : State} {c : Nat} (hrun : s.gylRun = none) (hact : s.fld (Reg.GYL_CTX_CTRL c) 10 2 = 0)
    (hc : c < 6) (code : Nat) : let t := s.ctxFault c code
    GylOnly s t [Reg.GYL_STATUS, Reg.GYL_CTX_STAT c, Reg.GYL_CTX_CTRL c] ∧ (∀ a, t.gact a = s.gact a) ∧
      t.rbit (Reg.GYL_CTX_STAT c) 30 = true ∧ t.fld (Reg.GYL_CTX_STAT c) 20 4 = code % 16 ∧ t.ctxOn c = false ∧
      t.rbit Reg.GYL_STATUS c = true := by
  have hdrop := (GylOnly.refl s [Reg.GYL_STATUS, Reg.GYL_CTX_STAT c, Reg.GYL_CTX_CTRL c]).dropCtx hrun c
  obtain ⟨honly, hgact, hstat, hcode, hoff, hstatus, hfield⟩ := (s.dropCtx c).faultMarks_spec hc code
  have hfault : s.ctxFault c code = (s.dropCtx c).faultMarks c code :=
    if_pos (hfield.trans ((congrArg (getF · 10 2) (State.reg_dropCtx hrun c _)).trans hact))
  rw [hfault]
  exact ⟨hdrop.trans honly, fun a => (hgact a).trans (State.gact_dropCtx hrun c a), hstat, hcode, hoff, hstatus⟩

/-- A tick of the retract's timer queues a STATUS frame (R210). -/
theorem exec_retractStatusTick {s : State} {a : Act} (hret : s.retracting a = true) (hon : s.gylOn = true) :
    ∃ t, exec (.retractStatusTick a) s = .next t ∧ t.gact a = { s.gact a with adi := (s.gact a).adi ++ [(5, 0)] } ∧
      t.gact (1 - a.val) = s.gact (1 - a.val) ∧ t = { s with gact0 := t.gact0, gact1 := t.gact1, evSeen := t.evSeen } := by
  have htick : s.retractTick a = s.adiQueue a 5 0 := if_pos hret
  exact ⟨_, congrArg done htick, State.adiQueue_settle_spec hon a 5 0⟩

/-- A retract that times out ends with PARK and the fault of its voice-coil context (R210). -/
theorem exec_retractTimeout {s : State} {a : Act} (hret : s.retracting a = true) (hon : s.gylOn = true) (hrun : s.gylRun = none)
    (hact : s.fld (Reg.GYL_CTX_CTRL (vcm a)) 10 2 = 0) : ∃ t, exec (.retractTimeout a) s = .next t ∧
      t.retracting a = false ∧ t.rbit (Reg.GYL_ACT_LOAD a) 13 = false ∧
      (t.gact a).adi = (s.gact a).adi ++ [(4, 0)] ∧ t.rbit (Reg.GYL_CTX_STAT (vcm a)) 30 = true ∧
      t.fld (Reg.GYL_CTX_STAT (vcm a)) 20 4 = 9 ∧ t.ctxOn (vcm a) = false ∧ t.rbit Reg.GYL_STATUS (vcm a) = true ∧
      t.mem = s.mem ∧ t.thrs = s.thrs ∧ RegsBut s t [Reg.GYL_ACT_QUAL a, Reg.GYL_ACT_LOAD a, Reg.GYL_STATUS,
        Reg.GYL_CTX_STAT (vcm a), Reg.GYL_CTX_CTRL (vcm a)] := by
  obtain ⟨hne, hctx⟩ := actRegs_ne a
  have hv := hctx (vcm a) (by simp)
  obtain ⟨w, hw⟩ : ∃ w, w = (s.setQual a 6 false).clrReg (Reg.GYL_ACT_LOAD a) (bit 13) := ⟨_, rfl⟩
  have hends : s.retractTimeout a = (w.adiQueue a 4 0).ctxFault (vcm a) 9 := by
    rw [hw]
    exact if_neg (by simp [hret])
  have hmarked : GylOnly s w [Reg.GYL_ACT_QUAL a, Reg.GYL_ACT_LOAD a] :=
    hw ▸ ((GylOnly.refl s _).setReg (by simp) _).setReg (by simp) _
  have hqual : w.rbit (Reg.GYL_ACT_QUAL a) 6 = false := by simp [hw, State.rbit_clrReg, State.rbit_setQual, hne]
  have hload : w.rbit (Reg.GYL_ACT_LOAD a) 13 = false := by simp [hw, State.rbit_clrReg, tb_bit]
  have hgact : w.gact a = s.gact a := by simp [hw]
  have hctrl : Reg.GYL_CTRL ∉ [Reg.GYL_ACT_QUAL a, Reg.GYL_ACT_LOAD a] := fun h =>
    (not_mem_retractRegs a).1 (List.mem_cons_of_mem _ (List.mem_cons_of_mem _ h))
  have hqueued := hmarked.adiQueue a 4 0
  have hadi : ((w.adiQueue a 4 0).gact a).adi = (s.gact a).adi ++ [(4, 0)] := by
    rw [State.adiQueue_on ((hmarked.rbit hctrl 0).trans hon), State.gact_setGact, hgact]
  have hqual' : (w.adiQueue a 4 0).rbit (Reg.GYL_ACT_QUAL a) 6 = false := (State.rbit_adiQueue ..).trans hqual
  have hload' : (w.adiQueue a 4 0).rbit (Reg.GYL_ACT_LOAD a) 13 = false := (State.rbit_adiQueue ..).trans hload
  generalize w.adiQueue a 4 0 = u at *
  have hact' : u.fld (Reg.GYL_CTX_CTRL (vcm a)) 10 2 = 0 :=
    (congrArg (getF · 10 2) (hqueued.regsBut _ (by simp [hv]))).trans hact
  obtain ⟨honly, hacts, hfaulted, hcode, hoff, hstatus⟩ :=
    State.ctxFault_hold (hqueued.gylRun.trans hrun) hact' (by simp only [vcm]; omega) 9
  have hkept (o i : Nat) (ho : o ∉ [Reg.GYL_STATUS, Reg.GYL_CTX_STAT (vcm a), Reg.GYL_CTX_CTRL (vcm a)]) := honly.rbit ho i
  generalize u.ctxFault (vcm a) 9 = x at *
  have hboth : GylOnly s x [Reg.GYL_ACT_QUAL a, Reg.GYL_ACT_LOAD a, Reg.GYL_STATUS, Reg.GYL_CTX_STAT (vcm a),
      Reg.GYL_CTX_CTRL (vcm a)] := (hqueued.mono (by simp)).trans (honly.mono (by simp))
  refine ⟨x.settle, congrArg done hends, (hkept _ 6 ?_).trans hqual', (hkept _ 13 ?_).trans hload',
    (congrArg GAct.adi (hacts a)).trans hadi, hfaulted, hcode, hoff, hstatus, ?_, ?_, hboth.regsBut⟩
  · simp [hne, hv]
  · simp [hne, hv]
  · exact (congrArg State.mem hboth.eq :)
  · exact (congrArg State.thrs hboth.eq :)

end Sys2Proof.Machine
end

section
namespace Sys2Proof.Machine

/-! ### A context is triggered (R179, R180, R196) -/

section
variable (f : Nat → Nat) (l : List (Nat × W32)) (s : State)

/-- Registers written one after another change the registers alone. -/
theorem State.foldl_setReg_eq : ∃ regs, l.foldl (fun s p => s.setReg (f p.1) p.2) s = { s with regs := regs } := by
  induction l generalizing s with
  | nil => exact ⟨s.regs, rfl⟩
  | cons p l ih =>
    obtain ⟨regs, h⟩ := ih (s.setReg (f p.1) p.2)
    exact ⟨regs, h⟩

theorem State.reg_foldl_setReg_of_ne {o : Nat} (ho : ∀ p ∈ l, o ≠ f p.1) :
    (l.foldl (fun s p => s.setReg (f p.1) p.2) s).reg o = s.reg o := by
  induction l generalizing s with
  | nil => rfl
  | cons p l ih =>
    rw [List.foldl_cons, ih _ fun q hq => ho q (List.mem_cons_of_mem _ hq), State.reg_setReg, if_neg (ho p List.mem_cons_self)]

/-- Each place of a list of writes to different registers reads as written. -/
theorem State.reg_foldl_setReg (hf : f.Injective) (hl : (l.map Prod.fst).Nodup) {p : Nat × W32} (hp : p ∈ l) :
    (l.foldl (fun s p => s.setReg (f p.1) p.2) s).reg (f p.1) = p.2 := by
  induction l generalizing s with
  | nil => cases hp
  | cons q l ih =>
    obtain ⟨hq, hl⟩ := List.nodup_cons.1 hl
    rcases List.mem_cons.1 hp with rfl | hp
    · rw [List.foldl_cons, State.reg_foldl_setReg_of_ne, State.reg_setReg, if_pos rfl]
      exact fun r hr h => hq (hf h ▸ List.mem_map_of_mem hr)
    · exact ih _ hl hp

end

/-- The latched inputs read as given, then 0 (R196). -/
theorem State.latchInputs_spec (s : State) (c : Nat) {l : List W32} (hl : l.length ≤ 16) : let t := s.latchInputs c l
    (∀ j, j < 16 → t.reg (Reg.GYL_CTX_I c j) = l.getD j 0) ∧ RegsBut s t (inRegs c) ∧ ∃ regs, t = { s with regs := regs } := by
  refine ⟨fun j hj => ?_, fun o ho => State.reg_foldl_setReg_of_ne _ _ _ fun p hp h => ho ?_, State.foldl_setReg_eq ..⟩
  · have hlen : (l ++ List.replicate (16 - l.length) f0).length = 16 := by simp; omega
    have hp : (j, l.getD j 0) ∈ (List.range 16).zip (l ++ List.replicate (16 - l.length) f0) := by
      rw [List.mem_iff_getElem]
      refine ⟨j, by simp only [List.length_zip, List.length_range, hlen]; omega, ?_⟩
      simp only [List.getElem_zip, List.getElem_range, Prod.mk.injEq, true_and]
      rw [List.getElem_append]
      split
      · next hlt => simp [hlt]
      · next hge => simp [not_lt.1 hge, f0]
    refine State.reg_foldl_setReg (Reg.GYL_CTX_I c) _ s (fun x y hxy => ?_) ?_ hp
    · simp only [Reg.GYL_CTX_I] at hxy
      omega
    · rw [List.map_fst_zip (by simp [hlen])]
      exact List.nodup_range
  · exact h ▸ List.mem_map_of_mem (List.of_mem_zip hp).1

/-- What a trigger leaves when the context has no output due and no commit waits. -/
theorem State.trigger_spec {s : State} {c : Nat} {ins : List W32} (hon : s.gylOn = true) (hctx : s.ctxOn c = true)
    (hdue : (s.gc c).due = false) (hcommit : s.rbit (Reg.GYL_CTX_COMMIT c) 0 = false) (hins : ins.length ≤ 10) :
    let t := s.trigger c ins
    Triggered s t c ins ∧ (t.gc c).lateNow = (s.gc c).lateNow ∧ (∀ e, e ≠ c → t.gc e = s.gc e) ∧
      t.gylQ = pendIns (s.now, c) (s.gylQ.filter (·.2 != c)) ∧
      (t.gylRun = s.gylRun.map fun r => if r.ctx = c then { r with stale := true } else r) ∧
      (∃ regs gctx q run, t = { s with regs := regs, gctx := gctx, gylQ := q, gylRun := run }) ∧ RegsBut s t (inRegs c) := by
  let l := ins ++ List.replicate (10 - ins.length) f0 ++ [(s.gc c).yprev, if (s.gc c).transfer then f1 else f0]
  have hl : l.length = 12 := by simp [l]; omega
  obtain ⟨hread, hbut, regs, heq⟩ := s.latchInputs_spec c (l := l) (by omega)
  have hgoes : s.trigger c ins = { (s.latchInputs c l).setGc c { s.gc c with frozen := none, due := true } with
      gylQ := pendIns ((s.latchInputs c l).now, c) ((s.latchInputs c l).gylQ.filter (·.2 != c))
      gylRun := (s.latchInputs c l).gylRun.map fun r => if r.ctx = c then { r with stale := true } else r } := by
    have habandon : s.abandon c = s := if_neg (by simp [hdue])
    have hcommit' : s.ctxCommit c = s := if_pos (by simp [hcommit])
    rw [State.trigger, if_neg (by simp [hon, hctx])]
    simp only [habandon, hctx, hcommit', Bool.not_true, Bool.false_eq_true, if_false]
    rfl
  rw [hgoes]
  obtain ⟨x, hx⟩ : ∃ x : GCtx, x = { s.gc c with frozen := none, due := true } := ⟨_, rfl⟩
  generalize s.latchInputs c l = u at hread hbut heq
  rw [← hx]
  have hgc (e : Nat) : (u.setGc c x).gc e = if e = c then x else s.gc e := by
    rw [heq]
    exact State.gc_setGc ..
  have hlate : x.lateNow = (s.gc c).lateNow := by rw [hx]
  have hsame (b : Bool) (hb : b = (s.gc c).lateNow) : x = { s.gc c with frozen := none, due := true, lateNow := b } := by
    rw [hx, hb]
  have hten : (ins ++ List.replicate (10 - ins.length) f0).length = 10 := by simp; omega
  have hpad (j : Nat) (hj : j < 10) : l.getD j 0 = ins.getD j 0 := by
    rw [List.getD_append _ _ _ _ (by omega)]
    by_cases hlt : j < ins.length
    · rw [List.getD_append _ _ _ _ hlt]
    · rw [List.getD_append_right _ _ _ _ (not_lt.1 hlt), List.getD_eq_default ins _ (not_lt.1 hlt)]
      simp [f0]
  have hlast (j : Nat) (hj : 10 ≤ j) : l.getD j 0 =
      [(s.gc c).yprev, if (s.gc c).transfer then f1 else f0].getD (j - 10) 0 := by
    rw [List.getD_append_right _ _ _ _ (by omega), hten]
  have hown : (u.setGc c x).gc c = x := (hgc c).trans (if_pos rfl)
  refine ⟨⟨hown.trans ?_, fun j hj => (hread j (by omega)).trans (hpad j hj), (hread 10 (by decide)).trans (hlast 10 (by decide)),
    (hread 11 (by decide)).trans (hlast 11 (by decide)), fun j hj hj' => (hread j hj').trans ?_⟩,
    (congrArg GCtx.lateNow hown).trans hlate, fun e he => (hgc e).trans (if_neg he), ?_, ?_, ?_, hbut⟩
  · exact hsame _ ((congrArg GCtx.lateNow hown).trans hlate)
  · exact (hlast j (by omega)).trans (List.getD_eq_default _ _ (by simp; omega))
  · rw [heq]
  · rw [heq]
  · rw [heq]
    exact ⟨_, _, _, _, rfl⟩

end Sys2Proof.Machine
end

section
namespace Sys2Proof.Machine

/-! ### The qualifiers of a sample (R188, R189) -/

/-- Nothing differs but the qualifiers of an actuator, its own place, contexts, and what the read channel has seen of it. -/
structure QualOnly (s t : State) (a : Nat) : Prop where
  eq : t = { s with regs := t.regs, gact0 := t.gact0, gact1 := t.gact1, gctx := t.gctx, med0 := t.med0, med1 := t.med1 }
  regsBut : RegsBut s t [Reg.GYL_ACT_QUAL a]
  gactOther : t.gact (1 - a) = s.gact (1 - a)
  med : t.med a = { s.med a with offSeen := (t.med a).offSeen }
  medOther : t.med (1 - a) = s.med (1 - a)

namespace QualOnly

theorem refl (s : State) (a : Nat) : QualOnly s s a := ⟨rfl, fun _ _ => rfl, rfl, rfl, rfl⟩

variable {s t : State} {a : Nat} (h : QualOnly s t a)
include h

theorem setQual (i : Nat) (b : Bool) : QualOnly s (t.setQual a i b) a :=
  ⟨congrArg (fun u : State => u.setQual a i b) h.eq,
    fun o ho => (t.reg_setQual a i b (List.ne_of_not_mem_cons ho)).trans (h.regsBut o ho), h.gactOther, h.med, h.medOther⟩

theorem setGact (x : GAct) : QualOnly s (t.setGact a x) a := by
  refine ⟨?_, fun o ho => (t.reg_setGact a x o).trans (h.regsBut o ho), (t.gact_setGact_other a x).trans h.gactOther, ?_, ?_⟩
  · obtain ⟨g0, g1, hset⟩ := t.setGact_eq a x
    rw [hset]
    exact congrArg (fun u : State => { u with gact0 := g0, gact1 := g1 }) h.eq
  · rw [State.med_setGact]
    exact h.med
  · rw [State.med_setGact]
    exact h.medOther

theorem setGc (c : Nat) (x : GCtx) : QualOnly s (t.setGc c x) a :=
  ⟨congrArg (fun u : State => u.setGc c x) h.eq, h.regsBut, h.gactOther, h.med, h.medOther⟩

theorem setOff (b : Bool) : QualOnly s (t.setOff a b) a := by
  have hqual := h.setQual 0 b
  unfold State.setOff
  dsimp only
  generalize t.setQual a 0 b = u at hqual
  split
  · obtain ⟨m0, m1, hset⟩ := u.setMed_eq a { u.med a with offSeen := true }
    refine ⟨?_, fun o ho => ?_, (u.gact_setMed ..).trans hqual.gactOther, ?_, (u.med_setMed_other ..).trans hqual.medOther⟩
    · rw [hset]
      exact congrArg (fun u : State => { u with med0 := m0, med1 := m1 }) hqual.eq
    · rw [hset]
      exact hqual.regsBut o ho
    · rw [State.med_setMed, hqual.med]
  · exact hqual

end QualOnly

@[simp] theorem State.gact_setOff (s : State) (a : Nat) (b : Bool) (n : Nat) : (s.setOff a b).gact n = s.gact n := by
  unfold State.setOff
  dsimp only
  split <;> simp

@[simp] theorem State.gc_setOff (s : State) (a : Nat) (b : Bool) (n : Nat) : (s.setOff a b).gc n = s.gc n := by
  unfold State.setOff
  dsimp only
  split <;> simp

theorem State.rbit_setOff (s : State) (a : Nat) (b : Bool) (o i : Nat) : (s.setOff a b).rbit o i = (s.setQual a 0 b).rbit o i := by
  unfold State.setOff
  dsimp only
  split <;> simp

/-- Write-unsafe asserts under a gate that is down (R189). -/
theorem State.wuAssert_gateDown {s : State} {a : Nat} (hgate : (s.med a).gate = false) :
    s.wuAssert a = (s.setQual a 1 true).setGact a { s.gact a with clean := 0 } := by
  refine if_pos ?_
  rw [State.med_setGact]
  exact (congrArg (!·) hgate :)

/-- The error that the qualifiers of a sample compare: PES less the reference, and less the runout if RRO is set (R188). -/
def State.qualError (s : State) (a : Nat) : W32 :=
  let e := fsub (s.gact a).pes (s.gact a).ref
  if s.rbit (Reg.GYL_ACT_CTRL a) 2 then fsub e (s.gact a).rro else e

/-- A sample before write-unsafe is decided: off-track, the error, and the lateness that has been judged (R188, R189). -/
def State.offMarked (s : State) (a : Nat) (off : Bool) : State :=
  (((s.setOff a off).setGact a { s.gact a with eq := s.qualError a, hold := false }).lateSeen (vcm a)).lateSeen (mac a)

theorem State.offMarked_spec (s : State) (a : Nat) (off : Bool) : let t := s.offMarked a off
    QualOnly s t a ∧ t.gact a = { s.gact a with eq := s.qualError a, hold := false } ∧
      (∀ c, t.gc c = if c = mac a ∨ c = vcm a then { s.gc c with lateNow := false } else s.gc c) ∧
      t.rbit (Reg.GYL_ACT_QUAL a) 0 = off := by
  have hne : mac a ≠ vcm a := by simp [mac, vcm]
  refine ⟨((((QualOnly.refl s a).setOff off).setGact _).setGc _ _).setGc _ _, ?_, fun c => ?_, ?_⟩
  · simp [State.offMarked, State.lateSeen, State.gact_setGact]
  · by_cases hm : c = mac a
    · simp [State.offMarked, State.lateSeen, hm, hne]
    · by_cases hv : c = vcm a <;> simp [State.offMarked, State.lateSeen, hm, hv, hne.symm]
  · simp [State.offMarked, State.lateSeen, State.rbit_setOff, State.rbit_setQual]

/-- Why write-unsafe asserts at a sample with this error (R189). -/
def State.unsafeNow (s : State) (a : Nat) : Bool :=
  let e := s.qualError a
  let x := s.gact a
  let wl := s.reg (Reg.GYL_ACT_WULIM a)
  let ctxBad := fun (c : Nat) => (s.gc c).lateNow || s.rbit (Reg.GYL_CTX_STAT c) 30
  flt wl (fabs e) || flt wl (fabs (fsub (fmul f2 e) x.eq)) || !x.valid || x.seek || s.moving a ||
    !(s.acquired a) || ctxBad (vcm a) || ctxBad (mac a) || x.flt || x.hold

/-- The qualifiers of a sample under a gate that is down (R188, R189). -/
theorem State.qualSample_spec {s : State} {a : Act} (hgate : (s.med a).gate = false) : let t := s.qualSample a
    let x := s.gact a
    let e := s.qualError a
    QualOnly s t a ∧ (∃ n, t.gact a = { x with eq := e, hold := false, clean := n }) ∧
      (∀ c, t.gc c = if c = mac a ∨ c = vcm a then { s.gc c with lateNow := false } else s.gc c) ∧
      t.rbit (Reg.GYL_ACT_QUAL a) 0 = (flt (s.reg (Reg.GYL_ACT_OTLIM a)) (fabs e) || !x.valid || x.seek || !(s.acquired a)) ∧
      (flt (s.reg (Reg.GYL_ACT_WULIM a)) (fabs e) = true ∨ x.valid = false ∨ s.acquired a = false ∨ s.moving a = true ∨
        x.hold = true ∨ x.flt = true → t.rbit (Reg.GYL_ACT_QUAL a) 1 = true) := by
  intro t x e
  let off := flt (s.reg (Reg.GYL_ACT_OTLIM a)) (fabs e) || !x.valid || x.seek || !(s.acquired a)
  obtain ⟨hkept, hgact, hgc, hoff⟩ := s.offMarked_spec a off
  have hdecides : t = if s.unsafeNow a = true then (s.offMarked a off).wuAssert a
      else let u := (s.offMarked a off).setGact a { (s.offMarked a off).gact a with clean := x.clean + 1 }
        if max 1 (u.fld (Reg.GYL_ACT_CTRL a) 24 4) ≤ x.clean + 1 then u.setQual a 1 false else u := rfl
  generalize s.offMarked a off = u at hkept hgact hgc hoff hdecides
  rw [State.wuAssert_gateDown (by rw [hkept.med]; exact hgate)] at hdecides
  clear_value t
  have hbit (b : Bool) {i : Nat} (hi : i < 32) : (u.setQual a 1 b).rbit (Reg.GYL_ACT_QUAL a) i =
      if i = 1 then b else u.rbit (Reg.GYL_ACT_QUAL a) i := by rw [State.rbit_setQual _ hi, if_pos rfl]
  by_cases hunsafe : s.unsafeNow a = true
  · rw [if_pos hunsafe] at hdecides
    subst hdecides
    refine ⟨(hkept.setQual 1 true).setGact _, ⟨0, ?_⟩, fun c => (State.gc_setGact ..).trans (hgc c), ?_, fun _ => ?_⟩
    · rw [State.gact_setGact, hgact]
    · rw [State.rbit_setGact, hbit _ (by decide)]
      exact hoff
    · rw [State.rbit_setGact, hbit _ (by decide), if_pos rfl]
  · rw [if_neg hunsafe] at hdecides
    have hclean := hkept.setGact { u.gact a with clean := x.clean + 1 }
    have hread : (u.setGact a { u.gact a with clean := x.clean + 1 }).gact a =
        { x with eq := e, hold := false, clean := x.clean + 1 } := by rw [State.gact_setGact, hgact]
    have hoff' : (u.setGact a { u.gact a with clean := x.clean + 1 }).rbit (Reg.GYL_ACT_QUAL a) 0 = off :=
      (State.rbit_setGact ..).trans hoff
    have hgc' (c : Nat) := (u.gc_setGact a { u.gact a with clean := x.clean + 1 } c).trans (hgc c)
    have hsafe : ¬ (flt (s.reg (Reg.GYL_ACT_WULIM a)) (fabs e) = true ∨ x.valid = false ∨ s.acquired a = false ∨
        s.moving a = true ∨ x.hold = true ∨ x.flt = true) := by
      simp only [State.unsafeNow, Bool.or_eq_true, Bool.not_eq_true', not_or] at hunsafe
      tauto
    generalize u.setGact a { u.gact a with clean := x.clean + 1 } = w at *
    subst hdecides
    dsimp only
    split
    · refine ⟨hclean.setQual 1 false, ⟨_, hread⟩, hgc', ?_, fun h => absurd h hsafe⟩
      rw [State.rbit_setQual _ (by decide), if_pos rfl, if_neg (by decide)]
      exact hoff'
    · exact ⟨hclean, ⟨_, hread⟩, hgc', hoff', fun h => absurd h hsafe⟩

end Sys2Proof.Machine
end

section
namespace Sys2Proof.Machine

/-! ### A sample instant (R179, R180, R186, R202) -/

/-- Registers that a sample instant reads and does not write. -/
def sampleReads (a : Nat) : List Nat :=
  [Reg.GYL_CTRL, Reg.GYL_VNOM, Reg.GYL_ACT_FRAC a, Reg.GYL_ACT_TGT_OFS a, Reg.GYL_ACT_OTLIM a, Reg.GYL_ACT_WULIM a,
    Reg.GYL_ACT_CTRL a, Reg.GYL_CTX_CTRL (mac a), Reg.GYL_CTX_CTRL (vcm a), Reg.GYL_CTX_COMMIT (mac a),
    Reg.GYL_CTX_COMMIT (vcm a)]

theorem not_mem_sampleRegs (a : Act) : ∀ o ∈ sampleReads a,
    o ∉ [Reg.GYL_VM, Reg.GYL_ACT_QUAL a] ++ inRegs (mac a) ++ inRegs (vcm a) := by
  revert a
  decide

/-- The supply, the qualifiers and the inputs of both contexts are registers of their own. -/
theorem sampleRegs_disjoint (a : Act) : Reg.GYL_VM ≠ Reg.GYL_ACT_QUAL a ∧ Reg.GYL_VM ∉ inRegs (mac a) ++ inRegs (vcm a) ∧
    Reg.GYL_ACT_QUAL a ∉ inRegs (mac a) ++ inRegs (vcm a) ∧ ∀ o ∈ inRegs (mac a), o ∉ inRegs (vcm a) := by
  revert a
  decide

theorem State.sup_congr {s t : State} (hvm : t.reg Reg.GYL_VM = s.reg Reg.GYL_VM) (hvn : t.reg Reg.GYL_VNOM = s.reg Reg.GYL_VNOM) :
    t.sup = s.sup := by
  simp only [State.sup, hvm, hvn]

/-- The actuator's place as a sample instant without a seek sets it before its qualifiers (R186). -/
def State.sampled (s : State) (a : Nat) : GAct :=
  let x := s.gact a
  let ofs := s.reg (Reg.GYL_ACT_TGT_OFS a)
  { x with tofs := ofs, pes := if x.valid then pesOf x.p1 x.f1 x.tcyl ofs else x.pes }

/-- The record of the events whose message has been sent is no part of a sample. -/
theorem SampleTaken.settle {s t : State} {a : Act} {vm : W32} {timer : Bool} (h : SampleTaken s t a vm timer) :
    SampleTaken s t.settle a vm timer := by
  obtain ⟨hvm, hpes, heq, hhold, hoff, hunsafe, hq, hrun, htrig, hgc, hgact, hmed, hmed', hframe, hbut⟩ := h
  exact ⟨hvm, hpes, heq, hhold, hoff, hunsafe, hq, hrun, htrig, hgc, hgact, hmed, hmed',
    congrArg (fun u : State => { u with evSeen := t.settle.evSeen }) hframe, hbut⟩

/-- With no seek active or due and no output due, a sample instant goes straight to its qualifiers (R198, R203). -/
theorem State.actSample_eq {s : State} {a : Act} (hready : SampleReady s a) (vm : W32) (timer : Bool) :
    s.actSample a vm timer = (((s.setReg Reg.GYL_VM vm).setGact a (s.sampled a)).qualSample a).triggerAct a timer := by
  obtain ⟨-, hgo, hseek, -, -, hctx⟩ := hready
  have habandon (c : Nat) (hc : c ∈ [mac a.val, vcm a.val]) : s.abandon c = s := if_neg (by simp [(hctx c hc).2.1])
  have hne : Reg.GYL_ACT_SEEK a ≠ Reg.GYL_VM ∧ Reg.GYL_ACT_TGT_OFS a ≠ Reg.GYL_VM := by
    simp only [Reg.GYL_ACT_SEEK, Reg.GYL_ACT_TGT_OFS, Reg.GYL_VM]
    omega
  have hgo' : (s.setReg Reg.GYL_VM vm).rbit (Reg.GYL_ACT_SEEK a) 0 = false := by
    rw [State.rbit, State.reg_setReg, if_neg hne.1]
    exact hgo
  have hidle : (s.setReg Reg.GYL_VM vm).seekSample a = s.setReg Reg.GYL_VM vm := by
    simp [State.seekSample, hgo', hseek]
  have hpes : (s.setReg Reg.GYL_VM vm).pesSample a = (s.setReg Reg.GYL_VM vm).setGact a (s.sampled a) := by
    simp [State.pesSample, State.sampled, hseek, State.reg_setReg, hne]
  rw [State.actSample, habandon _ (by simp), habandon _ (by simp), hidle, hpes]

theorem ctxRank_mac_lt (a : Act) : ctxRank (mac a) < ctxRank (vcm a) := by
  revert a
  decide

/-- Both contexts of an actuator can take a sample: they are on, none owes an output, and no commit waits. -/
def CtxsReady (s : State) (a : Act) : Prop :=
  s.gylOn = true ∧ s.gylQ = [] ∧
    ∀ c ∈ [mac a.val, vcm a.val], s.ctxOn c = true ∧ (s.gc c).due = false ∧ s.rbit (Reg.GYL_CTX_COMMIT c) 0 = false

/-- What comes after a trigger leaves it when the context and its inputs stay. -/
theorem Triggered.keep {s t u : State} {c : Nat} {ins : List W32} (h : Triggered s t c ins) (hgc : u.gc c = t.gc c)
    (hreg : ∀ o ∈ inRegs c, u.reg o = t.reg o) : Triggered s u c ins := by
  have hin (j : Nat) (hj : j < 16) : u.reg (Reg.GYL_CTX_I c j) = t.reg (Reg.GYL_CTX_I c j) :=
    hreg _ (List.mem_map_of_mem (List.mem_range.2 hj))
  obtain ⟨hown, hins, hten, heleven, hrest⟩ := h
  refine ⟨?_, fun j hj => (hin j (by omega)).trans (hins j hj), (hin 10 (by decide)).trans hten,
    (hin 11 (by decide)).trans heleven, fun j hj hj' => (hin j hj').trans (hrest j hj hj')⟩
  rw [hgc]
  exact hown

/-- Both contexts of an actuator are triggered, the microactuator's first (R180). -/
theorem State.triggerAct_spec {s : State} {a : Act} (hready : CtxsReady s a) (timer : Bool) : let t := s.triggerAct a timer
    (∀ c ∈ [mac a.val, vcm a.val], Triggered s t c (s.actInputs a c timer) ∧ (t.gc c).lateNow = (s.gc c).lateNow) ∧
      (∀ c, c ≠ mac a → c ≠ vcm a → t.gc c = s.gc c) ∧ t.gylQ = [(s.now, mac a), (s.now, vcm a)] ∧
      (t.gylRun = s.gylRun.map fun r => if r.ctx = mac a ∨ r.ctx = vcm a then { r with stale := true } else r) ∧
      (∃ regs gctx q run, t = { s with regs := regs, gctx := gctx, gylQ := q, gylRun := run }) ∧
      RegsBut s t (inRegs (mac a) ++ inRegs (vcm a)) := by
  obtain ⟨hon, hq, hctx⟩ := hready
  obtain ⟨-, hvmFree, -, hdisj⟩ := sampleRegs_disjoint a
  obtain ⟨honM, hdueM, hcommitM⟩ := hctx (mac a) (by simp)
  obtain ⟨honV, hdueV, hcommitV⟩ := hctx (vcm a) (by simp)
  have hne : mac a.val ≠ vcm a.val := by simp [mac, vcm]
  obtain ⟨htrig, hlate, hgc, hq1, hrun1, ⟨regs1, gctx1, q1, run1, heq1⟩, hbut1⟩ :=
    State.trigger_spec (ins := s.actInputs a (mac a) timer) hon honM hdueM hcommitM (by simp [State.actInputs])
  have ht : s.triggerAct a timer = (s.trigger (mac a) (s.actInputs a (mac a) timer)).trigger (vcm a)
    ((s.trigger (mac a) (s.actInputs a (mac a) timer)).actInputs a (vcm a) timer) := rfl
  generalize s.trigger (mac a) (s.actInputs a (mac a) timer) = u at *
  have hkeep (o : Nat) (ho : o ∈ sampleReads a) : u.reg o = s.reg o :=
    hbut1 o fun hm => not_mem_sampleRegs a o ho (by simp [hm])
  have hkeepVm : u.reg Reg.GYL_VM = s.reg Reg.GYL_VM := hbut1 _ fun hm =>
    hvmFree (List.mem_append_left _ hm)
  have hins : u.actInputs a (vcm a) timer = s.actInputs a (vcm a) timer := by
    have hgact : u.gact a = s.gact a := by
      rw [heq1]
      rfl
    have hsup : u.sup = s.sup := by simp only [State.sup, hkeepVm, hkeep Reg.GYL_VNOM (by simp [sampleReads])]
    simp only [State.actInputs, hgact, hsup, hgc _ hne.symm, hkeep (Reg.GYL_ACT_FRAC a) (by simp [sampleReads])]
  have hrbit (o i : Nat) (ho : o ∈ sampleReads a) : u.rbit o i = s.rbit o i := congrArg (tb · i) (hkeep o ho)
  rw [hins] at ht
  obtain ⟨htrig2, hlate2, hgc2, hq2, hrun2, ⟨regs2, gctx2, q2, run2, heq2⟩, hbut2⟩ :=
    State.trigger_spec (s := u) (c := vcm a) (ins := s.actInputs a (vcm a) timer) ((hrbit _ 0 (by simp [sampleReads])).trans hon)
      ((hrbit _ 0 (by simp [sampleReads])).trans honV) ((congrArg GCtx.due (hgc _ hne.symm)).trans hdueV)
      ((hrbit _ 0 (by simp [sampleReads])).trans hcommitV) (by simp [State.actInputs])
  rw [ht]
  generalize u.trigger (vcm a) (s.actInputs a (vcm a) timer) = t at *
  refine ⟨fun c hc => ?_, fun c hm hv => (hgc2 c hv).trans (hgc c hm), ?_, ?_, ?_, fun o ho => ?_⟩
  · rcases List.mem_pair.1 hc with rfl | rfl
    · exact ⟨htrig.keep (hgc2 _ hne) fun o ho => hbut2 o (hdisj o ho),
        (congrArg GCtx.lateNow (hgc2 _ hne)).trans hlate⟩
    · rw [Triggered, hgc _ hne.symm] at htrig2
      exact ⟨htrig2, hlate2.trans (congrArg GCtx.lateNow (hgc _ hne.symm))⟩
  · rw [hq2, hq1, hq, heq1]
    simp [pendIns, hne, (ctxRank_mac_lt a).le]
  · rw [hrun2, hrun1, Option.map_map]
    congr 1
    funext r
    by_cases hm : r.ctx = mac a <;> by_cases hv : r.ctx = vcm a <;> simp [hm, hv, hne, hne.symm]
  · rw [heq2, heq1]
    exact ⟨_, _, _, _, rfl⟩
  · rw [List.mem_append, not_or] at ho
    exact (hbut2 o ho.2).trans (hbut1 o ho.1)

/-- With no seek active or due and no output due, a sample is taken as R179, R180, R186, R188, R189 and R202 say. -/
theorem State.actSample_taken {s : State} {a : Act} (hready : SampleReady s a) (vm : W32) (timer : Bool) :
    SampleTaken s (s.actSample a vm timer) a vm timer := by
  have heq := State.actSample_eq hready vm timer
  obtain ⟨hon, -, hseek, hq, hgate, hctx⟩ := hready
  obtain ⟨hvmQual, hvmFree, hqualFree, -⟩ := sampleRegs_disjoint a
  obtain ⟨s1, hs1⟩ : ∃ s1, s1 = (s.setReg Reg.GYL_VM vm).setGact a (s.sampled a) := ⟨_, rfl⟩
  rw [← hs1] at heq
  have hact1 : s1.gact a = s.sampled a := hs1 ▸ State.gact_setGact ..
  have hother1 : s1.gact (1 - a.val) = s.gact (1 - a.val) := hs1 ▸ State.gact_setGact_other ..
  have hmed1 (n : Nat) : s1.med n = s.med n := by simp [hs1]
  have hgc1 (n : Nat) : s1.gc n = s.gc n := by simp [hs1]
  have hreg1 (o : Nat) : s1.reg o = if o = Reg.GYL_VM then vm else s.reg o := by simp [hs1, State.reg_setReg]
  have heq1 : ∃ regs g0 g1, s1 = { s with regs := regs, gact0 := g0, gact1 := g1 } := by
    obtain ⟨g0, g1, hset⟩ := (s.setReg Reg.GYL_VM vm).setGact_eq a (s.sampled a)
    exact ⟨_, g0, g1, hs1.trans hset⟩
  obtain ⟨hjudged, ⟨n, hact2⟩, hgc2, hoff, hunsafe⟩ := State.qualSample_spec (s := s1) (a := a) (by rw [hmed1]; exact hgate)
  generalize s1.qualSample a = w at *
  have hbut2 (o : Nat) (ho : o ≠ Reg.GYL_ACT_QUAL a) : w.reg o = s1.reg o := hjudged.regsBut o (by simp [ho])
  have hkeep (o : Nat) (ho : o ∈ sampleReads a) : w.reg o = s.reg o := by
    have hfree := not_mem_sampleRegs a o ho
    simp only [List.mem_append, List.mem_cons, List.not_mem_nil, or_false, not_or] at hfree
    rw [hbut2 o hfree.1.1.2, hreg1, if_neg hfree.1.1.1]
  have hgcs (c : Nat) (hc : c ∈ [mac a.val, vcm a.val]) : w.gc c = { s.gc c with lateNow := false } := by
    rw [hgc2, if_pos (by simpa using hc), hgc1]
  have hready2 : CtxsReady w a := by
    have hbit (o i : Nat) (ho : o ∈ sampleReads a) : w.rbit o i = s.rbit o i := congrArg (tb · i) (hkeep o ho)
    have hctrl (c : Nat) (hc : c ∈ [mac a.val, vcm a.val]) :
        Reg.GYL_CTX_CTRL c ∈ sampleReads a ∧ Reg.GYL_CTX_COMMIT c ∈ sampleReads a := by
      rcases List.mem_pair.1 hc with rfl | rfl <;> simp [sampleReads]
    refine ⟨(hbit _ 0 (by simp [sampleReads])).trans hon, ?_, fun c hc => ⟨(hbit _ 0 (hctrl c hc).1).trans (hctx c hc).1,
      (congrArg GCtx.due (hgcs c hc)).trans (hctx c hc).2.1, (hbit _ 0 (hctrl c hc).2).trans (hctx c hc).2.2⟩⟩
    obtain ⟨regs, g0, g1, h1⟩ := heq1
    rw [hjudged.eq, h1]
    exact hq
  obtain ⟨htrig, hgc3, hq3, hrun3, ⟨regs3, gctx3, q3, run3, heq3⟩, hbut3⟩ := State.triggerAct_spec hready2 timer
  rw [heq]
  have hact3 (n : Nat) : (w.triggerAct a timer).gact n = w.gact n := by
    rw [heq3]
    rfl
  have hmed3 (n : Nat) : (w.triggerAct a timer).med n = w.med n := by
    rw [heq3]
    rfl
  generalize w.triggerAct a timer = t at *
  have hnow : w.now = s.now ∧ w.gylRun = s.gylRun := by
    obtain ⟨regs, g0, g1, h1⟩ := heq1
    rw [hjudged.eq, h1]
    exact ⟨rfl, rfl⟩
  have hqual3 (i : Nat) : t.rbit (Reg.GYL_ACT_QUAL a) i = w.rbit (Reg.GYL_ACT_QUAL a) i :=
    congrArg (tb · i) (hbut3 _ hqualFree)
  have hread1 (o : Nat) (ho : o ∈ sampleReads a) : s1.reg o = s.reg o := by
    have hfree := not_mem_sampleRegs a o ho
    simp only [List.mem_append, List.mem_cons, not_or] at hfree
    rw [hreg1, if_neg hfree.1.1.1]
  have hqual1 (i : Nat) : s1.rbit (Reg.GYL_ACT_QUAL a) i = s.rbit (Reg.GYL_ACT_QUAL a) i := by
    rw [State.rbit, hreg1, if_neg hvmQual.symm, State.rbit]
  have hmoving : s1.acquired a = s.acquired a ∧ s1.moving a = s.moving a := by
    simp only [State.acquired, State.moving, State.loading, State.unloading, State.retracting, hqual1]
    exact ⟨trivial, trivial⟩
  have herr : s1.qualError a = if s.rbit (Reg.GYL_ACT_CTRL a) 2 then fsub (fsub (s.sampled a).pes (s.gact a).ref) (s.gact a).rro
      else fsub (s.sampled a).pes (s.gact a).ref := by
    have hrro : s1.rbit (Reg.GYL_ACT_CTRL a) 2 = s.rbit (Reg.GYL_ACT_CTRL a) 2 :=
      congrArg (tb · 2) (hread1 _ (by simp [sampleReads]))
    rw [State.qualError, hact1, hrro]
    rfl
  have hvm : w.reg Reg.GYL_VM = vm := by
    rw [hbut2 _ hvmQual, hreg1, if_pos rfl]
  refine ⟨?_, ?_, ?_, ?_, ?_, ?_, ?_, ?_, ?_, ?_, ?_, ?_, ?_, ?_, fun o ho => ?_⟩
  · exact (hbut3 _ hvmFree).trans hvm
  · exact (congrArg GAct.pes ((hact3 a).trans hact2)).trans (congrArg GAct.pes hact1)
  · exact (congrArg GAct.eq ((hact3 a).trans hact2)).trans herr
  · exact congrArg GAct.hold ((hact3 a).trans hact2)
  · rw [hqual3, hoff, herr, hread1 _ (by simp [sampleReads]), hact1, hmoving.1, State.sampled, hseek,
      Bool.or_false]
  · rw [herr, hread1 _ (by simp [sampleReads]), hact1, hmoving.1, hmoving.2] at hunsafe
    exact fun h => (hqual3 1).trans (hunsafe h)
  · rw [hq3, hnow.1]
  · rw [hrun3, hnow.2]
  · intro c hc
    obtain ⟨htrigc, hlate⟩ := htrig c hc
    have hgcc := hgcs c hc
    refine ⟨hlate.trans (congrArg GCtx.lateNow hgcc), ?_⟩
    have hsup : w.sup = t.sup :=
      State.sup_congr (hbut3 _ hvmFree).symm (hbut3 _ fun h => not_mem_sampleRegs a Reg.GYL_VNOM (by simp [sampleReads])
        (List.mem_append.1 h |>.elim (fun h => by simp [h]) fun h => by simp [h])).symm
    have hins : w.actInputs a c timer = [(s.sampled a).pes, s.reg (Reg.GYL_ACT_FRAC a), (s.gact a).ref, (s.gact a).vref,
        (s.gact a).aref, t.sup, fdyad (s.gc c).sense.toInt (-17), (s.gact a).rro,
        if (s.gact a).valid && !timer then f1 else f0, f0] := by
      simp only [State.actInputs, hact2, hact1, hsup, hgcc, hkeep (Reg.GYL_ACT_FRAC a) (by simp [sampleReads]), State.sampled,
        hseek, Bool.false_eq_true, if_false, Bool.and_eq_true, Bool.not_eq_true']
    rw [hins, Triggered, hgcc] at htrigc
    exact htrigc
  · exact fun c hm hv => (hgc3 c hm hv).trans ((hgc2 c).trans ((if_neg (by simp [hm, hv])).trans (hgc1 c)))
  · exact (hact3 _).trans (hjudged.gactOther.trans hother1)
  · rw [hmed3, hjudged.med, hmed1]
  · rw [hmed3, hjudged.medOther, hmed1]
  · obtain ⟨regs, g0, g1, h1⟩ := heq1
    rw [heq3, hjudged.eq, h1]
  · simp only [List.mem_append, List.mem_cons, List.not_mem_nil, or_false, not_or] at ho
    exact (hbut3 o (by simp [ho])).trans ((hbut2 o ho.1.1.2).trans ((hreg1 o).trans (if_neg ho.1.1.1)))

end Sys2Proof.Machine
end

section
namespace Sys2Proof.Machine

/-- A tick of the load timer is a sample instant with VALID 0.0 (R203, R208). -/
theorem exec_loadTimerTick {s : State} {a : Act} (hmove : s.loading a = true ∨ s.unloading a = true)
    (hstill : s.retracting a = false) (hready : SampleReady s a) (vm : W32) :
    ∃ t, exec (.loadTimerTick ⟨a, vm⟩) s = .next t ∧ SampleTaken s t a vm true := by
  have htick : s.loadTick a vm = s.actSample a vm true := by
    have hon := hready.1
    rcases hmove with h | h <;> simp [State.loadTick, hon, hstill, h]
  exact ⟨_, congrArg done htick, (State.actSample_taken hready vm true).settle⟩

/-- Settles O38: frames go out and come back, and heads are loaded, unloaded and retracted as said. -/
theorem framesLoadUnloadAndRetract : Obligations.FramesLoadUnloadAndRetract := by
  unfold Obligations.FramesLoadUnloadAndRetract
  refine ⟨fun a ty pl rest s hwait hon => exec_adiFrame hwait hon, fun a w s hsent hon => ⟨?_, ?_, ?_⟩,
    fun a v s hon => ⟨_, rfl, State.adiQueue_settle_spec hon a 6 (getF v 0 18)⟩,
    fun a v s hstill => ⟨exec_loadStart hstill, exec_unloadStart hstill⟩,
    fun a vm s hmove hret hready => exec_loadTimerTick hmove hret hready vm, fun a s => exec_loadTimeout,
    fun a v s hrun hon => ⟨fun hunload => ?_, fun hload hunload hret hstill => ?_⟩,
    fun a s hret hon => ⟨exec_retractStatusTick hret hon, fun hrun hact => exec_retractTimeout hret hon hrun hact⟩⟩
  · exact fun hcrc hflt hpark hseq => exec_adiReturnFrame_taken hsent hon hcrc hflt hpark hseq
  · exact fun hcrc hflt hpark hret hunload hrun => exec_adiReturnFrame_parked hsent hon hcrc hflt hpark hret hunload hrun
  · exact fun hcrc hfew => exec_adiReturnFrame_bad hsent hon hcrc hfew
  · obtain ⟨t, hexec, ⟨hret, hload, hun, hvcm, hmac, h13, h11, h12, hadi, hq⟩, hframe, hbut⟩ :=
      exec_unloadTimeout hrun hon hunload
    exact ⟨t, hexec, hret, hload, hun, hvcm, hmac, h13, h11, h12, hadi, hq, hframe, hbut⟩
  · obtain ⟨t, hexec, ⟨hret, hload, hun, hvcm, hmac, h13, h11, h12, hadi, hq⟩, hframe, hbut⟩ :=
      exec_retract hrun hon hload hunload hret hstill
    exact ⟨t, hexec, hret, hload, hun, hvcm, hmac, h13, h11, h12, hadi, hq, hframe, hbut⟩

end Sys2Proof.Machine
end

section
namespace Sys2Proof.Machine

/-! ### Wedges found and missed (R181 to R185) -/

/-- A servo gate only sends its events (R181). -/
theorem State.servoGate_eq (s : State) (a : Nat) : s.servoGate a = { s with out := (s.servoGate a).out } := by
  unfold State.servoGate
  split <;> rfl

/-- A wedge has the number that follows the last one, or there was none (R182). -/
def State.wedgeInSeq (s : State) (a : Nat) (w : Wedge) : Bool :=
  match (s.gact a).wedge.map fun k => (k + 1) % s.wedges a with
  | some k => k == w.number.toNat
  | none => true

theorem State.wedgeInSeq_iff (s : State) (a : Nat) (w : Wedge) : s.wedgeInSeq a w = true ↔
    ((s.gact a).wedge = none ∨ (s.gact a).wedge.map (fun k => (k + 1) % s.wedges a) = some w.number.toNat) := by
  unfold State.wedgeInSeq
  cases (s.gact a).wedge <;> simp

/-- A wedge's position taken, with `found` wedges found in a row (R183 to R185). -/
def State.demodulated (s : State) (a : Nat) (w : Wedge) (f : W32) (found : Nat) : State :=
  let x := s.gact a
  let n := pickTrack x (ungray w.gray) f
  ((s.setReg (Reg.GYL_ACT_POS a) (BitVec.ofInt 32 n)).setReg (Reg.GYL_ACT_FRAC a) f).setGact a
    { x with p2 := x.p1, f2 := x.f1, p1 := n, f1 := f, resolve := false, wedge := some w.number.toNat
             missed := 0, found := found, valid := true, rro := fdyad w.runout.toInt (-10) }

/-- What a wedge does while demodulation is enabled (R181, R182). -/
theorem State.servoWedge_eq {s v : State} {a : Nat} {w : Wedge} {p : W32 × State} (hon : s.rbit (Reg.GYL_ACT_CTRL a) 0 = true)
    (hv : s.servoGate a = v) (hp : v.demodF w = p) :
    s.servoWedge a w = if v.acquired a = true ∧ (!v.wedgeInSeq a w) = true then
        (v.wedgeMissed a).setGact a { (v.wedgeMissed a).gact a with wedge := some w.number.toNat }
      else (p.2.demodulated a w p.1 (if v.wedgeInSeq a w then (p.2.gact a).found + 1 else 1)).acquireCheck a := by
  unfold State.servoWedge
  rw [if_neg (by simp [hon]), hv]
  extract_lets v' x next inSeq
  rw [show v'.demodF w = p from hp]
  rfl

/-- With bursts that are not all equal, f is R183's and no choice is made. -/
theorem State.demodF_chosen {w : Wedge}
    (hbursts : fzero (fadd (fabs (fmul (fsub w.a1 w.a3) fhalf)) (fabs (fmul (fsub w.a2 w.a4) fhalf))) = false) (s t : State) :
    (s.demodF w).2 = s ∧ (s.demodF w).1 = (t.demodF w).1 := by
  unfold State.demodF
  extract_lets n q sm
  have hchosen : ¬ (fzero sm = true) := by simp [sm, n, q, hbursts]
  rw [if_neg hchosen, if_neg hchosen]
  exact ⟨rfl, rfl⟩

/-- What taking a wedge's position leaves. -/
theorem State.demodulated_spec (s : State) (a : Act) (w : Wedge) (f : W32) (found : Nat) : let t := s.demodulated a w f found
    let x := s.gact a
    let n := pickTrack x (ungray w.gray) f
    t.gact a = { x with p2 := x.p1, f2 := x.f1, p1 := n, f1 := f, resolve := false, wedge := some w.number.toNat, missed := 0
                        found := found, valid := true, rro := fdyad w.runout.toInt (-10) } ∧
      t.reg (Reg.GYL_ACT_POS a) = BitVec.ofInt 32 n ∧ t.reg (Reg.GYL_ACT_FRAC a) = f ∧ t.gact (1 - a.val) = s.gact (1 - a.val) ∧
      (∃ regs g0 g1, t = { s with regs := regs, gact0 := g0, gact1 := g1 }) ∧
      RegsBut s t [Reg.GYL_ACT_POS a, Reg.GYL_ACT_FRAC a] := by
  have hne : Reg.GYL_ACT_POS a ≠ Reg.GYL_ACT_FRAC a := by simp [Reg.GYL_ACT_POS, Reg.GYL_ACT_FRAC]
  refine ⟨State.gact_setGact .., ?_, ?_, State.gact_setGact_other .., ?_, fun o ho => ?_⟩
  · rw [State.demodulated, State.reg_setGact, State.reg_setReg, if_neg hne, State.reg_setReg, if_pos rfl]
  · rw [State.demodulated, State.reg_setGact, State.reg_setReg, if_pos rfl]
  · unfold State.demodulated
    exact (State.setGact_eq ..).elim fun g0 h => h.elim fun g1 hset => ⟨_, g0, g1, hset⟩
  · simp only [List.mem_cons, List.not_mem_nil, or_false, not_or] at ho
    rw [State.demodulated, State.reg_setGact, State.reg_setReg, if_neg ho.2, State.reg_setReg, if_neg ho.1]

/-- A wedge that is taken gives POS and FRAC, and the position history moves on (R182 to R185). -/
theorem exec_servoWedge_taken {s : State} {a : Act} {w : Wedge} (hon : s.rbit (Reg.GYL_ACT_CTRL a) 0 = true)
    (hload : s.loading a = false) (htaken : s.acquired a = false ∨ s.wedgeInSeq a w = true)
    (hbursts : fzero (fadd (fabs (fmul (fsub w.a1 w.a3) fhalf)) (fabs (fmul (fsub w.a2 w.a4) fhalf))) = false) :
    let x := s.gact a
    let f := (s.demodF w).1
    let n := pickTrack x (ungray w.gray) f
    ∃ t, exec (.servoWedge a w) s = .next t ∧
      t.gact a = { x with
        p1 := n, f1 := f, p2 := x.p1, f2 := x.f1, resolve := false, wedge := some w.number.toNat, missed := 0
        found := if s.wedgeInSeq a w then x.found + 1 else 1, valid := true, rro := fdyad w.runout.toInt (-10) } ∧
      t.reg (Reg.GYL_ACT_POS a) = BitVec.ofInt 32 n ∧ t.reg (Reg.GYL_ACT_FRAC a) = f ∧
      t.gact (1 - a.val) = s.gact (1 - a.val) ∧
      t = { s with regs := t.regs, gact0 := t.gact0, gact1 := t.gact1, out := (s.servoGate a).out, evSeen := t.evSeen } ∧
      RegsBut s t [Reg.GYL_ACT_POS a, Reg.GYL_ACT_FRAC a] := by
  obtain ⟨hstay, hf⟩ := State.demodF_chosen hbursts (s.servoGate a) s
  have hwedge := State.servoWedge_eq (w := w) hon rfl rfl
  rw [hstay, hf] at hwedge
  have hgate := s.servoGate_eq a
  generalize (s.servoGate a).out = out at hgate
  generalize s.servoGate a = v at *
  have hgact (n : Nat) : v.gact n = s.gact n := hgate ▸ rfl
  have hseq : v.wedgeInSeq a w = s.wedgeInSeq a w := hgate ▸ rfl
  have hrbit (o i : Nat) : v.rbit o i = s.rbit o i := hgate ▸ rfl
  have htaken' : ¬ (v.acquired a = true ∧ (!v.wedgeInSeq a w) = true) := by
    rw [hseq, State.acquired, hrbit]
    rcases htaken with h | h
    · exact fun hc => by simp_all [State.acquired]
    · simp [h]
  rw [if_neg htaken', hseq, hgact] at hwedge
  obtain ⟨hown, hpos, hfrac, hother, ⟨regs, g0, g1, heq⟩, hbut⟩ :=
    v.demodulated_spec a w (s.demodF w).1 (if s.wedgeInSeq a w then (s.gact a).found + 1 else 1)
  generalize v.demodulated a w (s.demodF w).1 _ = t at *
  have hidle : t.acquireCheck a = t := by
    have hqual : Reg.GYL_ACT_QUAL a ∉ [Reg.GYL_ACT_POS a, Reg.GYL_ACT_FRAC a] := by
      simp [Reg.GYL_ACT_QUAL, Reg.GYL_ACT_POS, Reg.GYL_ACT_FRAC]
    have hload' : t.loading a = false := (congrArg (tb · 4) (hbut _ hqual)).trans ((hrbit _ 4).trans hload)
    exact if_neg (by simp [hload'])
  rw [hidle] at hwedge
  rw [hgact] at hown hpos
  refine ⟨t.settle, congrArg done hwedge, hown, hpos, hfrac, hother.trans (hgact _), ?_, fun o ho => ?_⟩
  · rw [heq, hgate]
    rfl
  · exact (hbut o ho).trans (hgate ▸ rfl)

/-- What a missed wedge leaves before a raised write gate falls (R182, R189). -/
structure Missed (s u : State) (a : Act) : Prop where
  gact : u.gact a = { s.gact a with
    valid := false, resolve := true, missed := (s.gact a).missed + 1, found := 0, clean := 0
    wedge := (s.gact a).wedge.map fun k => (k + 1) % s.wedges a }
  wu : u.rbit (Reg.GYL_ACT_QUAL a) 1 = true
  other : u.gact (1 - a.val) = s.gact (1 - a.val)
  frame : ∃ regs g0 g1, u = { s with regs := regs, gact0 := g0, gact1 := g1 }
  regsBut : RegsBut s u [Reg.GYL_ACT_QUAL a]

/-- A write gate that is up falls, and the sector under the writer is marked (R163, R175). -/
theorem State.wrUnsafeDrop_spec (s : State) (a : Act) : let t := s.wrUnsafeDrop a
    WriteOnly s t a [Reg.MCA_WR_STATUS a, Reg.MCA_WCNT a 3] ∧ (t.med a).gate = false ∧
      t.out = s.out ++ (if (s.med a).gate then gateEvents a (s.eaLead a) false else []) ∧
      ((s.med a).gate = true → t.rbit (Reg.MCA_WR_STATUS a) 2 = true) := by
  by_cases hgate : (s.med a).gate = true
  · have hdrops : s.wrUnsafeDrop a = (((s.setGate a false).orReg (Reg.MCA_WR_STATUS a) (bit 2)).incFld (Reg.MCA_WCNT a 3) 0 32).wrRun a
        fun r => { r with cur := r.cur.map fun w => { w with unsafeSeen := true } } := if_neg (by simp [hgate])
    have hne : Reg.MCA_WR_STATUS a ≠ Reg.MCA_WCNT a 3 := by
      simp only [Reg.MCA_WR_STATUS, Reg.MCA_WCNT]
      omega
    obtain ⟨⟨ea, hmed⟩, hout, -, honly⟩ := s.setGate_false_spec a
    rw [hdrops]
    generalize s.setGate a false = u at hmed hout honly
    refine ⟨(((honly.mono (List.nil_subset _)).setReg (by simp) _).setReg (by simp) _).wrRun _, ?_, ?_, fun _ => ?_⟩
    · rw [State.wrRun, State.med_setMed]
      exact congrArg Med.gate hmed
    · rw [State.out_wrRun]
      exact hout
    · rw [State.rbit, State.reg_wrRun, State.incFld, State.reg_setFld, if_neg hne]
      exact (State.rbit_orReg ..).trans (by simp [tb_bit])
  · have hdown : s.wrUnsafeDrop a = s := if_pos (by simp [hgate])
    rw [hdown]
    exact ⟨.refl .., by simpa using hgate, by simp [hgate], fun h => absurd h hgate⟩

/-- A wedge missed while acquisition is not lost (R182). -/
theorem State.wedgeMissed_spec {s : State} {a : Act}
    (hfew : s.acquired a = false ∨ (s.gact a).missed + 1 < max 1 (s.fld (Reg.GYL_ACT_CTRL a) 28 4)) :
    ∃ u, s.wedgeMissed a = u.wrUnsafeDrop a ∧ Missed s u a := by
  obtain ⟨y, hy⟩ : ∃ y : GAct, y = { s.gact a with
    valid := false, resolve := true, missed := (s.gact a).missed + 1, found := 0
    wedge := (s.gact a).wedge.map fun k => (k + 1) % s.wedges a } := ⟨_, rfl⟩
  obtain ⟨u, hu⟩ : ∃ u, u = ((s.setGact a y).setQual a 1 true).setGact a { y with clean := 0 } := ⟨_, rfl⟩
  have hmissed : Missed s u a := by
    have hkept := (((QualOnly.refl s a).setGact y).setQual 1 true).setGact { y with clean := 0 }
    refine ⟨?_, ?_, ?_, ?_, ?_⟩
    · rw [hu, State.gact_setGact, hy]
    · rw [hu, State.rbit_setGact, State.rbit_setQual _ (by decide), if_pos rfl, if_pos rfl]
    · exact hu ▸ hkept.gactOther
    · obtain ⟨g0, g1, h⟩ := s.setGact_eq a y
      obtain ⟨g0', g1', h'⟩ := ((s.setGact a y).setQual a 1 true).setGact_eq a { y with clean := 0 }
      rw [hu, h', h]
      exact ⟨_, _, _, rfl⟩
    · exact hu ▸ hkept.regsBut
  have hasserts : (s.setGact a y).wuAssert a = u.wrUnsafeDrop a := by
    rw [hu, State.wuAssert, State.gact_setGact]
  obtain ⟨hdrop, -⟩ := u.wrUnsafeDrop_spec a
  refine ⟨u, ?_, hmissed⟩
  unfold State.wedgeMissed
  dsimp only
  rw [← hy, hasserts]
  have hne : Reg.GYL_ACT_QUAL a ∉ [Reg.MCA_WR_STATUS a, Reg.MCA_WCNT a 3] ∧
      Reg.GYL_ACT_CTRL a ∉ [Reg.GYL_ACT_QUAL a, Reg.MCA_WR_STATUS a, Reg.MCA_WCNT a 3] := by
    simp only [Reg.GYL_ACT_QUAL, Reg.GYL_ACT_CTRL, Reg.MCA_WR_STATUS, Reg.MCA_WCNT, List.mem_cons, List.not_mem_nil, or_false]
    omega
  have hacq : (u.wrUnsafeDrop a).acquired a = s.acquired a := by
    have hqual : u.rbit (Reg.GYL_ACT_QUAL a) 3 = s.rbit (Reg.GYL_ACT_QUAL a) 3 := by
      rw [hu, State.rbit_setGact, State.rbit_setQual _ (by decide), if_pos rfl, if_neg (by decide), State.rbit_setGact]
    exact (congrArg (tb · 3) (hdrop.regsBut _ hne.1)).trans hqual
  have hmax : (u.wrUnsafeDrop a).fld (Reg.GYL_ACT_CTRL a) 28 4 = s.fld (Reg.GYL_ACT_CTRL a) 28 4 := by
    simp only [List.mem_cons, List.not_mem_nil, or_false, not_or] at hne
    exact congrArg (getF · 28 4) ((hdrop.regsBut _ (by simp [hne])).trans (hmissed.regsBut _ (by simp [hne])))
  refine if_neg ?_
  rw [hacq, hmax]
  rcases hfew with h | h
  · simp [h]
  · exact fun hc => absurd hc.2 (by omega)

/-- A wedge out of sequence while acquired, under a gate that is down, counts as missed; its number is kept (R182). -/
theorem exec_servoWedge_outOfSequence {s : State} {a : Act} {w : Wedge} (hon : s.rbit (Reg.GYL_ACT_CTRL a) 0 = true)
    (hacq : s.acquired a = true) (hseq : s.wedgeInSeq a w = false)
    (hfew : (s.gact a).missed + 1 < max 1 (s.fld (Reg.GYL_ACT_CTRL a) 28 4)) (hgate : (s.med a).gate = false) :
    ∃ t, exec (.servoWedge a w) s = .next t ∧
      t.gact a = { s.gact a with
        valid := false, resolve := true, missed := (s.gact a).missed + 1, found := 0, clean := 0, wedge := some w.number.toNat } ∧
      t.rbit (Reg.GYL_ACT_QUAL a) 1 = true ∧ t.gact (1 - a.val) = s.gact (1 - a.val) ∧
      t = { s with regs := t.regs, gact0 := t.gact0, gact1 := t.gact1, out := (s.servoGate a).out, evSeen := t.evSeen } ∧
      RegsBut s t [Reg.GYL_ACT_QUAL a] := by
  have hwedge := State.servoWedge_eq (w := w) hon rfl rfl
  have hv := s.servoGate_eq a
  generalize (s.servoGate a).out = out at hv
  generalize s.servoGate a = v at *
  subst hv
  rw [if_pos ⟨hacq, (congrArg (!·) hseq :)⟩] at hwedge
  obtain ⟨u, hmiss, hgact, hwu, hother, ⟨regs, g0, g1, heq⟩, hbut⟩ :=
    State.wedgeMissed_spec (s := { s with out := out }) (a := a) (Or.inr hfew)
  have hdown : u.wrUnsafeDrop a = u := by
    have hmed : u.med a = s.med a := by
      rw [heq]
      rfl
    exact if_pos (by rw [hmed, hgate]; rfl)
  rw [hmiss, hdown] at hwedge
  obtain ⟨g0', g1', hset⟩ := u.setGact_eq a { u.gact a with wedge := some w.number.toNat }
  refine ⟨_, congrArg done hwedge, ?_, ?_, ?_, ?_, fun o ho => (State.reg_setGact ..).trans (hbut o ho)⟩
  · refine (State.gact_setGact ..).trans ?_
    rw [hgact]
    rfl
  · exact (State.rbit_setGact ..).trans hwu
  · exact (State.gact_setGact_other ..).trans hother
  · rw [hset, heq]
    rfl

/-- A wedge without a mark is missed: write-unsafe asserts and a raised write gate falls (R182, R189). -/
theorem exec_missedWedge {s : State} {a : Act} (hon : s.rbit (Reg.GYL_ACT_CTRL a) 0 = true)
    (hfew : s.acquired a = false ∨ (s.gact a).missed + 1 < max 1 (s.fld (Reg.GYL_ACT_CTRL a) 28 4)) :
    ∃ t, exec (.missedWedge a) s = .next t ∧
      t.gact a = { s.gact a with
        valid := false, resolve := true, missed := (s.gact a).missed + 1, found := 0, clean := 0
        wedge := (s.gact a).wedge.map fun k => (k + 1) % s.wedges a } ∧
      t.rbit (Reg.GYL_ACT_QUAL a) 1 = true ∧ (t.med a).gate = false ∧
      t.out = (s.servoGate a).out ++ (if (s.med a).gate then gateEvents a (s.eaLead a) false else []) ∧
      ((s.med a).gate = true → t.rbit (Reg.MCA_WR_STATUS a) 2 = true) ∧ t.gact (1 - a.val) = s.gact (1 - a.val) ∧
      t.med (1 - a.val) = s.med (1 - a.val) ∧ t.mem = s.mem ∧ t.thrs = s.thrs ∧
      RegsBut s t [Reg.GYL_ACT_QUAL a, Reg.MCA_WR_STATUS a, Reg.MCA_WCNT a 3] := by
  have hmisses : exec (.missedWedge a) s = done ((s.servoGate a).wedgeMissed a) := congrArg done (if_pos hon)
  have hv := s.servoGate_eq a
  generalize (s.servoGate a).out = out at *
  generalize s.servoGate a = v at *
  subst hv
  obtain ⟨u, hmiss, hgact, hwu, hother, ⟨regs, g0, g1, heq⟩, hbut⟩ :=
    State.wedgeMissed_spec (s := { s with out := out }) (a := a) hfew
  obtain ⟨honly, hdown, hout, hstatus⟩ := u.wrUnsafeDrop_spec a
  rw [hmiss] at hmisses
  generalize u.wrUnsafeDrop a = t at *
  have hkept (n : Nat) : t.gact n = u.gact n := by
    rw [honly.eq]
    rfl
  have hmed (n : Nat) : u.med n = s.med n := by
    rw [heq]
    rfl
  have hlead : u.eaLead a = s.eaLead a := by
    rw [heq]
    rfl
  have hqual : Reg.GYL_ACT_QUAL a ∉ [Reg.MCA_WR_STATUS a, Reg.MCA_WCNT a 3] := by
    simp only [Reg.GYL_ACT_QUAL, Reg.MCA_WR_STATUS, Reg.MCA_WCNT, List.mem_cons, List.not_mem_nil, or_false]
    omega
  refine ⟨t.settle, hmisses, (hkept a).trans hgact, (congrArg (tb · 1) (honly.regsBut _ hqual)).trans hwu, hdown,
    ?_, ?_, (hkept _).trans hother, honly.other.trans (hmed _), honly.mem.trans ?_, honly.thrs.trans ?_, fun o ho => ?_⟩
  · rw [hmed, hlead, heq] at hout
    exact hout
  · rw [hmed] at hstatus
    exact hstatus
  · rw [heq]
  · rw [heq]
  · simp only [List.mem_cons, List.not_mem_nil, or_false, not_or] at ho
    exact (honly.regsBut o (by simp [ho])).trans (hbut o (by simp [ho]))

end Sys2Proof.Machine
end

section
namespace Sys2Proof.Machine

/-! ### What a sample instant keeps for a seek (R203) -/

/-- The supply, the seek command and its target. -/
def seekRegs (a : Nat) : List Nat := [Reg.GYL_VM, Reg.GYL_ACT_SEEK a, Reg.GYL_ACT_TGT_CYL a]

/-- No law runs and the write gate is down in `t`; memory, the cylinder that is followed and the registers of a seek are as
in `s`. -/
structure SeekKept (s t : State) (a : Act) : Prop where
  idle : t.gylRun = none
  gate : (t.med a).gate = false
  mem : t.mem = s.mem
  tcyl : (t.gact a).tcyl = (s.gact a).tcyl
  regs : ∀ o ∈ seekRegs a, t.reg o = s.reg o

/-- Context registers are not those of a seek. -/
theorem ctxReg_not_mem_seekRegs {c o : Nat} (a : Nat) (hc : c < 6) (ho : 0x0A1000 + 0x400 * c ≤ o ∧ o < 0x0A1400 + 0x400 * c) :
    o ∉ seekRegs a := by
  simp only [seekRegs, Reg.GYL_VM, Reg.GYL_ACT_SEEK, Reg.GYL_ACT_TGT_CYL, List.mem_cons, List.not_mem_nil, or_false]
  omega

/-- Nor are the status, the qualifiers and the moves. -/
theorem actReg_not_mem_seekRegs (a b : Nat) :
    Reg.GYL_STATUS ∉ seekRegs a ∧ Reg.GYL_ACT_QUAL b ∉ seekRegs a ∧ Reg.GYL_ACT_LOAD b ∉ seekRegs a := by
  simp only [seekRegs, Reg.GYL_VM, Reg.GYL_ACT_SEEK, Reg.GYL_ACT_TGT_CYL, Reg.GYL_STATUS, Reg.GYL_ACT_QUAL, Reg.GYL_ACT_LOAD,
    List.mem_cons, List.not_mem_nil, or_false]
  omega

namespace SeekKept

variable {s t : State} {a : Act} (h : SeekKept s t a)
include h

theorem setReg {o : Nat} (ho : o ∉ seekRegs a) (v : W32) : SeekKept s (t.setReg o v) a :=
  ⟨h.idle, h.gate, h.mem, h.tcyl, fun i hi =>
    (t.reg_setReg o i v).trans ((if_neg fun hio : i = o => ho (hio ▸ hi)).trans (h.regs i hi))⟩

theorem setGc (c : Nat) (x : GCtx) : SeekKept s (t.setGc c x) a := ⟨h.idle, h.gate, h.mem, h.tcyl, h.regs⟩

theorem setAct (o : Nat) (v : W32) : SeekKept s (t.setAct o v) a := ⟨h.idle, h.gate, h.mem, h.tcyl, h.regs⟩

theorem setGact {b : Nat} {x : GAct} (hx : x.tcyl = (t.gact b).tcyl) : SeekKept s (t.setGact b x) a := by
  refine ⟨?_, ?_, ?_, ?_, fun o ho => (State.reg_setGact ..).trans (h.regs o ho)⟩
  · rw [State.setGact_gylRun]
    exact h.idle
  · rw [State.med_setGact]
    exact h.gate
  · rw [State.setGact_mem]
    exact h.mem
  · refine Eq.trans ?_ h.tcyl
    revert hx
    unfold State.gact State.setGact
    split
    · intro hx
      split
      · exact hx
      · rfl
    · intro hx
      split
      · rfl
      · exact hx

theorem foldl {α : Type} (l : List α) (f : State → α → State)
    (hf : ∀ u, ∀ x ∈ l, SeekKept s u a → SeekKept s (f u x) a) : SeekKept s (l.foldl f t) a := by
  induction l generalizing t with
  | nil => exact h
  | cons x l ih => exact ih (hf t x List.mem_cons_self h) fun u y hy => hf u y (List.mem_cons_of_mem _ hy)

theorem adiQueue (b ty pl : Nat) : SeekKept s (t.adiQueue b ty pl) a := by
  unfold State.adiQueue
  split
  · exact h.setGact rfl
  · exact h

theorem dropCtx (c : Nat) : SeekKept s (t.dropCtx c) a := by
  rw [State.dropCtx_idle h.idle]
  exact ⟨h.idle, h.gate, h.mem, h.tcyl, h.regs⟩

/-- A retract keeps them. -/
theorem retract {b : Nat} (hb : b < 2) : SeekKept s (t.retract b) a := by
  have hctrl (c : Nat) (hc : c < 6) : Reg.GYL_CTX_CTRL c ∉ seekRegs a :=
    ctxReg_not_mem_seekRegs a hc (by simp only [Reg.GYL_CTX_CTRL]; omega)
  obtain ⟨-, hqual, hload⟩ := actReg_not_mem_seekRegs a b
  have hvcm := hctrl (vcm b) (by simp only [vcm]; omega)
  have hmac := hctrl (mac b) (by simp only [mac]; omega)
  exact ((((((((h.dropCtx (vcm b)).dropCtx (mac b)).setReg hvcm _).setReg hmac _).setReg hqual _).setReg hqual _).setReg hqual _
    |>.setReg hload _).setReg hload _ |>.adiQueue ..).adiQueue ..

theorem sendOut (c : Nat) (y : W32) : SeekKept s (t.sendOut c y) a := by
  have hcmd (y : W32) : SeekKept s (t.sendCmd c y) a := by
    unfold State.sendCmd
    dsimp only
    split
    · exact h.adiQueue ..
    · exact h.adiQueue ..
  unfold State.sendOut
  dsimp only
  split
  · exact (hcmd _).setGc _ _
  · have hset := h.setGc c { t.gc c with yprev := y }
    split
    · exact ⟨hset.idle, hset.gate, hset.mem, hset.tcyl, hset.regs⟩
    · exact hset

theorem ctxFault {c : Nat} (hc : c < 6) (code : Nat) : SeekKept s (t.ctxFault c code) a := by
  have hctrl : Reg.GYL_CTX_CTRL c ∉ seekRegs a := ctxReg_not_mem_seekRegs a hc (by simp only [Reg.GYL_CTX_CTRL]; omega)
  have hstat : Reg.GYL_CTX_STAT c ∉ seekRegs a := ctxReg_not_mem_seekRegs a hc (by simp only [Reg.GYL_CTX_STAT]; omega)
  obtain ⟨hstatus, -, -⟩ := actReg_not_mem_seekRegs a 0
  have hmarked : SeekKept s ((t.dropCtx c).faultMarks c code) a :=
    ((((h.dropCtx c).setReg hctrl _).setReg hstat _).setReg hstat _).setReg hstatus _
  have hdecides : t.ctxFault c code = let u := (t.dropCtx c).faultMarks c code
    let act := u.fld (Reg.GYL_CTX_CTRL c) 10 2
    if act = 0 then u else if act = 2 ∧ (c = 0 ∨ c = 2) then u.retract (ctxAct c) else u.sendOut c f0 := rfl
  rw [hdecides]
  generalize (t.dropCtx c).faultMarks c code = u at hmarked
  dsimp only
  split
  · exact hmarked
  · split
    · next hret => exact hmarked.retract (by simp only [ctxAct]; omega)
    · exact hmarked.sendOut ..

theorem ctxLate {c : Nat} (hc : c < 6) : SeekKept s (t.ctxLate c) a := by
  have hlate : Reg.GYL_CTX_LATE c ∉ seekRegs a := ctxReg_not_mem_seekRegs a hc (by simp only [Reg.GYL_CTX_LATE]; omega)
  obtain ⟨hstatus, -, -⟩ := actReg_not_mem_seekRegs a 0
  have hcounted : SeekKept s ((t.orReg Reg.GYL_STATUS (bit (8 + c))).incFld (Reg.GYL_CTX_LATE c) 0 16) a :=
    (h.setReg hstatus _).setReg hlate _
  unfold State.ctxLate
  dsimp only
  generalize (t.orReg Reg.GYL_STATUS (bit (8 + c))).incFld (Reg.GYL_CTX_LATE c) 0 16 = u at hcounted
  have hset (x : GCtx) := hcounted.setGc c x
  split
  · exact (hset _).ctxFault hc 5
  · exact hset _

theorem abandon {c : Nat} (hc : c < 6) : SeekKept s (t.abandon c) a := by
  unfold State.abandon
  split
  · exact h.ctxLate hc
  · exact h

theorem ctxCommit {c : Nat} (hc : c < 6) : SeekKept s (t.ctxCommit c) a := by
  have hlaw : Reg.GYL_CTX_LAW c ∉ seekRegs a := ctxReg_not_mem_seekRegs a hc (by simp only [Reg.GYL_CTX_LAW]; omega)
  have hcommit : Reg.GYL_CTX_COMMIT c ∉ seekRegs a := ctxReg_not_mem_seekRegs a hc (by simp only [Reg.GYL_CTX_COMMIT]; omega)
  unfold State.ctxCommit
  dsimp only
  split
  · exact h
  · refine SeekKept.setReg (SeekKept.setReg ?_ hlaw _) hcommit _
    exact (((h.setGc ..).setAct ..).setAct ..).foldl _ _ fun u j _ hu => hu.setAct ..

theorem latchInputs {c : Nat} (hc : c < 6) (l : List W32) : SeekKept s (t.latchInputs c l) a := by
  refine h.foldl _ _ fun u p hp hu => hu.setReg (ctxReg_not_mem_seekRegs a hc ?_) _
  have hj := List.mem_range.1 (List.of_mem_zip hp).1
  simp only [Reg.GYL_CTX_I]
  omega

theorem trigger {c : Nat} (hc : c < 6) (ins : List W32) : SeekKept s (t.trigger c ins) a := by
  unfold State.trigger
  dsimp only
  split
  · exact h
  · split
    · exact h.abandon hc
    · have hset (l : List W32) := ((h.abandon hc).ctxCommit hc).latchInputs hc l
      exact ⟨congrArg (Option.map _) (hset _).idle, (hset _).gate, (hset _).mem, (hset _).tcyl, (hset _).regs⟩

theorem triggerAct (timer : Bool) : SeekKept s (t.triggerAct a timer) a := by
  have hfirst := h.trigger (c := mac a) (by simp only [mac]; omega) (t.actInputs a (mac a) timer)
  exact hfirst.trigger (c := vcm a) (by simp only [vcm]; omega) _

theorem pesSample : SeekKept s (t.pesSample a) a := h.setGact rfl

theorem qualSample : SeekKept s (t.qualSample a) a := by
  obtain ⟨hjudged, ⟨n, hact⟩, -⟩ := State.qualSample_spec h.gate
  refine ⟨?_, ?_, ?_, ?_, fun o ho => ?_⟩
  · rw [hjudged.eq]
    exact h.idle
  · rw [hjudged.med]
    exact h.gate
  · rw [hjudged.eq]
    exact h.mem
  · rw [hact]
    exact h.tcyl
  · refine (hjudged.regsBut o fun hmem => ?_).trans (h.regs o ho)
    exact (actReg_not_mem_seekRegs a a).2.1 (List.mem_singleton.1 hmem ▸ ho)

end SeekKept

/-- The marks of a seek that has begun (R203). -/
def State.markSeek (s : State) (a : Nat) : State :=
  ((s.clrReg (Reg.GYL_ACT_SEEK a) (bit 0)).orReg (Reg.GYL_ACT_SEEK a) (bit 1)).setQual a 2 true

/-- The marks of a seek that has arrived (R203). -/
def State.markArrived (s : State) (a : Nat) : State :=
  ((s.clrReg (Reg.GYL_ACT_SEEK a) (bit 1)).setQual a 2 false).orReg Reg.GYL_STATUS (bit (16 + a))

/-- Registers of a seek, of the qualifiers and of Guyline are different ones. -/
theorem seekRegs_ne (a : Act) : Reg.GYL_ACT_SEEK a ≠ Reg.GYL_ACT_QUAL a ∧ Reg.GYL_ACT_SEEK a ≠ Reg.GYL_STATUS ∧
    Reg.GYL_VM ≠ Reg.GYL_ACT_QUAL a ∧ Reg.GYL_VM ≠ Reg.GYL_STATUS ∧ Reg.GYL_VM ≠ Reg.GYL_ACT_SEEK a := by
  revert a
  decide

theorem State.markSeek_spec (s : State) (a : Act) : let t := s.markSeek a
    (∃ regs, t = { s with regs := regs }) ∧ t.rbit (Reg.GYL_ACT_SEEK a) 0 = false ∧ t.reg Reg.GYL_VM = s.reg Reg.GYL_VM := by
  obtain ⟨hqual, -, hvmQual, -, hvmSeek⟩ := seekRegs_ne a
  refine ⟨State.setReg_eq (State.setReg_eq (State.setReg_eq ⟨s.regs, rfl⟩ _ _) _ _) _ _, ?_, ?_⟩
  · simp [State.markSeek, State.rbit_setQual, State.rbit_orReg, State.rbit_clrReg, hqual, tb_bit]
  · simp [State.markSeek, State.reg_setQual, State.reg_orReg, State.reg_clrReg, hvmQual, hvmSeek]

theorem State.markArrived_spec (s : State) (a : Act) : let t := s.markArrived a
    (∃ regs, t = { s with regs := regs }) ∧ t.rbit (Reg.GYL_ACT_SEEK a) 0 = s.rbit (Reg.GYL_ACT_SEEK a) 0 ∧
      t.reg Reg.GYL_VM = s.reg Reg.GYL_VM := by
  obtain ⟨hqual, hstatus, hvmQual, hvmStatus, hvmSeek⟩ := seekRegs_ne a
  refine ⟨State.setReg_eq (State.setReg_eq (State.setReg_eq ⟨s.regs, rfl⟩ _ _) _ _) _ _, ?_, ?_⟩
  · simp [State.markArrived, State.rbit_setQual, State.rbit_orReg, State.rbit_clrReg, hqual, hstatus, tb_bit]
  · simp [State.markArrived, State.reg_setQual, State.reg_orReg, State.reg_clrReg, hvmQual, hvmStatus, hvmSeek]

/-- A seek takes up its target (R203). -/
structure SeekBegun (s t : State) (a : Act) : Prop where
  run : t.gylRun = s.gylRun
  med : t.med a = s.med a
  mem : t.mem = s.mem
  tcyl : (t.gact a).tcyl = (s.reg (Reg.GYL_ACT_TGT_CYL a)).toNat
  go : t.rbit (Reg.GYL_ACT_SEEK a) 0 = false
  vm : t.reg Reg.GYL_VM = s.reg Reg.GYL_VM

theorem State.seekStart_begun (s : State) (a : Act) : SeekBegun s (s.seekStart a) a ∧ ((s.seekStart a).gact a).seek = true := by
  obtain ⟨y, hstart, hcyl, hseek⟩ : ∃ y : GAct, s.seekStart a = (s.setGact a y).markSeek a ∧
      y.tcyl = (s.reg (Reg.GYL_ACT_TGT_CYL a)).toNat ∧ y.seek = true := ⟨_, rfl, rfl, rfl⟩
  obtain ⟨⟨regs, heq⟩, hgo, hvm⟩ := (s.setGact a y).markSeek_spec a
  rw [← hstart] at heq hgo hvm
  have hgact : (s.seekStart a).gact a = y := by
    rw [heq]
    exact State.gact_setGact ..
  refine ⟨⟨?_, ?_, ?_, (congrArg GAct.tcyl hgact).trans hcyl, hgo, hvm.trans (State.reg_setGact ..)⟩,
    (congrArg GAct.seek hgact).trans hseek⟩
  · rw [heq]
    exact State.setGact_gylRun ..
  · rw [heq]
    exact State.med_setGact ..
  · rw [heq]
    exact State.setGact_mem ..

theorem SeekBegun.setGact {s t : State} {a : Act} (h : SeekBegun s t a) {y : GAct} (hy : y.tcyl = (t.gact a).tcyl) :
    SeekBegun s (t.setGact a y) a :=
  ⟨(State.setGact_gylRun ..).trans h.run, (State.med_setGact ..).trans h.med, (State.setGact_mem ..).trans h.mem,
    (congrArg GAct.tcyl (State.gact_setGact ..)).trans (hy.trans h.tcyl), (State.rbit_setGact ..).trans h.go,
    (State.reg_setGact ..).trans h.vm⟩

theorem SeekBegun.markArrived {s t : State} {a : Act} (h : SeekBegun s t a) : SeekBegun s (t.markArrived a) a := by
  obtain ⟨⟨regs, heq⟩, hgo, hvm⟩ := t.markArrived_spec a
  refine ⟨?_, ?_, ?_, ?_, hgo.trans h.go, hvm.trans h.vm⟩ <;> rw [heq]
  · exact h.run
  · exact h.med
  · exact h.mem
  · exact h.tcyl

theorem State.seekSample_begun {s : State} {a : Act} (hgo : s.rbit (Reg.GYL_ACT_SEEK a) 0 = true) :
    SeekBegun s (s.seekSample a) a := by
  obtain ⟨hbegun, hseek⟩ := s.seekStart_begun a
  unfold State.seekSample
  rw [if_pos hgo]
  generalize s.seekStart a = u at *
  dsimp only
  rw [if_neg (by simp [hseek])]
  split
  · refine SeekBegun.markArrived (hbegun.setGact ?_)
    rfl
  · exact hbegun.setGact rfl

/-- With nothing in progress, a wedge's sample instant is one of its actuator's contexts, and of context 5 if it follows the
actuator (R179). -/
theorem State.sampleInstant_eq {s : State} {a : Act} (hon : s.gylOn = true) (hstill : s.moving a = false)
    (hacq : (s.gact a).acqNow = false) (vm : W32) : s.sampleInstant a vm = let t := s.actSample a vm false
      if t.fld (Reg.GYL_CTX_CTRL 5) 8 2 = a.val then (t.setReg Reg.GYL_VM vm).trigger 5 (t.actInputs a 5 false) else t := by
  simp [State.sampleInstant, hon, hstill, hacq]

/-- A sample instant with SEEK.GO set takes up the target and clears GO (R203). -/
theorem exec_sampleInstant_seek {s : State} {a : Act} (vm : W32) (hgate : (s.med a).gate = false) (hon : s.gylOn = true)
    (hstill : s.moving a = false) (hacq : (s.gact a).acqNow = false) (hgo : s.rbit (Reg.GYL_ACT_SEEK a) 0 = true)
    (hrun : s.gylRun = none) : ∃ t, exec (.sampleInstant a vm) s = .next t ∧
      (t.gact a).tcyl = (s.reg (Reg.GYL_ACT_TGT_CYL a)).toNat ∧ t.rbit (Reg.GYL_ACT_SEEK a) 0 = false ∧
      t.reg Reg.GYL_VM = vm ∧ t.mem = s.mem := by
  have hfirst : SeekKept s s a := ⟨hrun, hgate, rfl, rfl, fun _ _ => rfl⟩
  have habandoned := (hfirst.abandon (c := mac a) (by simp only [mac]; omega)).abandon (c := vcm a) (by simp only [vcm]; omega)
  have hsamples := State.sampleInstant_eq hon hstill hacq vm
  generalize hu : (s.abandon (mac a)).abandon (vcm a) = u at habandoned
  have hsample : s.actSample a vm false = ((((u.setReg Reg.GYL_VM vm).seekSample a).pesSample a).qualSample a).triggerAct a false := by
    rw [← hu]
    rfl
  obtain ⟨-, -, -, -, hvmSeek⟩ := seekRegs_ne a
  have hgo' : (u.setReg Reg.GYL_VM vm).rbit (Reg.GYL_ACT_SEEK a) 0 = true := by
    rw [State.rbit, State.reg_setReg, if_neg hvmSeek.symm, habandoned.regs _ (by simp [seekRegs])]
    exact hgo
  have hcyl : (u.setReg Reg.GYL_VM vm).reg (Reg.GYL_ACT_TGT_CYL a) = s.reg (Reg.GYL_ACT_TGT_CYL a) := by
    rw [State.reg_setReg, if_neg (by simp only [Reg.GYL_ACT_TGT_CYL, Reg.GYL_VM]; omega), habandoned.regs _ (by simp [seekRegs])]
  obtain ⟨hidle, hmed, hmem, htcyl, hclear, hvm⟩ := State.seekSample_begun hgo'
  have hvm' := hvm.trans ((State.reg_setReg ..).trans (if_pos rfl))
  generalize (u.setReg Reg.GYL_VM vm).seekSample a = v at *
  have hkept : SeekKept v v a :=
    ⟨hidle.trans habandoned.idle, (congrArg Med.gate hmed).trans habandoned.gate, rfl, rfl, fun _ _ => rfl⟩
  have htaken := (hkept.pesSample.qualSample).triggerAct false
  rw [← hsample] at htaken
  generalize s.actSample a vm false = t at *
  have hends (x : State) (hx : SeekKept t x a) (hvmx : x.reg Reg.GYL_VM = vm) : ∃ t', done x = .next t' ∧
      (t'.gact a).tcyl = (s.reg (Reg.GYL_ACT_TGT_CYL a)).toNat ∧ t'.rbit (Reg.GYL_ACT_SEEK a) 0 = false ∧
      t'.reg Reg.GYL_VM = vm ∧ t'.mem = s.mem := by
    refine ⟨x.settle, rfl, hx.tcyl.trans (htaken.tcyl.trans (htcyl.trans (congrArg BitVec.toNat hcyl))), ?_, hvmx,
      hx.mem.trans (htaken.mem.trans (hmem.trans habandoned.mem))⟩
    have hseek : Reg.GYL_ACT_SEEK a ∈ seekRegs a := by simp [seekRegs]
    exact (congrArg (tb · 0) ((hx.regs _ hseek).trans (htaken.regs _ hseek))).trans hclear
  have hvm2 : t.reg Reg.GYL_VM = vm := (htaken.regs _ (by simp [seekRegs])).trans hvm'
  have hself : SeekKept t t a := ⟨htaken.idle, htaken.gate, rfl, rfl, fun _ _ => rfl⟩
  change ∃ t', done (s.sampleInstant a vm) = .next t' ∧ _
  rw [hsamples]
  dsimp only
  split
  · have hconverted : SeekKept t (t.setReg Reg.GYL_VM vm) a := by
      refine ⟨hself.idle, hself.gate, rfl, rfl, fun o _ => (State.reg_setReg ..).trans ?_⟩
      split
      · next h => rw [h, hvm2]
      · rfl
    have hfive := hconverted.trigger (c := 5) (by decide) (t.actInputs a 5 false)
    exact hends _ hfive ((hfive.regs _ (by simp [seekRegs])).trans hvm2)
  · exact hends t hself hvm2

/-- Without EN a sample instant asserts both qualifiers (R178, R188, R189). -/
theorem exec_sampleInstant_off {s : State} {a : Act} (vm : W32) (hgate : (s.med a).gate = false) (hoff : s.gylOn = false) :
    ∃ t, exec (.sampleInstant a vm) s = .next t ∧ t.rbit (Reg.GYL_ACT_QUAL a) 0 = true ∧
      t.rbit (Reg.GYL_ACT_QUAL a) 1 = true ∧ t.gact a = { s.gact a with clean := 0 } ∧
      t.gact (1 - a.val) = s.gact (1 - a.val) ∧ t.med a = { s.med a with offSeen := true } ∧
      t.med (1 - a.val) = s.med (1 - a.val) ∧ RegsBut s t [Reg.GYL_ACT_QUAL a] ∧ t = { s with
        regs := t.regs, gact0 := t.gact0, gact1 := t.gact1, med0 := t.med0, med1 := t.med1, evSeen := t.evSeen } := by
  have hsamples : s.sampleInstant a vm = s.qualAssert a := if_pos (by simp [hoff])
  have hmarked : s.setOff a true = (s.setQual a 0 true).setMed a { s.med a with offSeen := true } := rfl
  have hkept := (QualOnly.refl s a).setOff true
  have hmed : (s.setOff a true).med a = { s.med a with offSeen := true } := by rw [hmarked, State.med_setMed]
  have hasserts : s.qualAssert a = ((s.setOff a true).setQual a 1 true).setGact a { (s.setOff a true).gact a with clean := 0 } :=
    State.wuAssert_gateDown (by rw [hmed]; exact hgate)
  have hall := (hkept.setQual 1 true).setGact { (s.setOff a true).gact a with clean := 0 }
  refine ⟨_, congrArg done (hsamples.trans hasserts), ?_, ?_, ?_, hall.gactOther, ?_, hall.medOther, hall.regsBut, ?_⟩
  · refine (State.rbit_setGact ..).trans ?_
    rw [State.rbit_setQual _ (by decide), if_pos rfl, if_neg (by decide), State.rbit_setOff, State.rbit_setQual _ (by decide),
      if_pos rfl, if_pos rfl]
  · refine (State.rbit_setGact ..).trans ?_
    rw [State.rbit_setQual _ (by decide), if_pos rfl, if_pos rfl]
  · refine (State.gact_setGact ..).trans ?_
    rw [State.gact_setOff]
  · exact (State.med_setGact ..).trans hmed
  · obtain ⟨m0, m1, hmeds⟩ := (s.setQual a 0 true).setMed_eq a { s.med a with offSeen := true }
    obtain ⟨g0, g1, hset⟩ := ((s.setOff a true).setQual a 1 true).setGact_eq a { (s.setOff a true).gact a with clean := 0 }
    rw [hset, hmarked, hmeds]
    rfl

/-- A write of SEEK.GO sets GO (R203). -/
theorem exec_seekGo (a : Act) (v : W32) (s : State) :
    (v.getLsbD 0 = true → ∃ t, exec (.seekGo a v) s = .next t ∧ t.reg (Reg.GYL_ACT_SEEK a) = s.reg (Reg.GYL_ACT_SEEK a) ||| 1 ∧
      OnlyRegs s t [Reg.GYL_ACT_SEEK a]) ∧
    (v.getLsbD 0 = false → ∃ t, exec (.seekGo a v) s = .next t ∧ Same s t) := by
  refine ⟨fun hgo => ⟨_, congrArg done (if_pos hgo), ?_, settle_setReg_onlyRegs ..⟩,
    fun hgo => ⟨_, congrArg done (if_neg ?_), settle_same s⟩⟩
  · exact (State.reg_orReg ..).trans (if_pos rfl)
  · exact fun h => absurd (h.symm.trans hgo) (by decide)

end Sys2Proof.Machine
end

section
namespace Sys2Proof.Machine

theorem ctrl5_not_mem_sampleRegs (a : Act) :
    Reg.GYL_CTX_CTRL 5 ∉ [Reg.GYL_VM, Reg.GYL_ACT_QUAL a] ++ inRegs (mac a) ++ inRegs (vcm a) := by
  revert a
  decide

/-- A sample instant of an enabled Guyline triggers the actuator's two contexts (R179, R180). -/
theorem exec_sampleInstant_taken {s : State} {a : Act} (vm : W32) (hready : SampleReady s a) (hstill : s.moving a = false)
    (hacq : (s.gact a).acqNow = false) (hfive : s.fld (Reg.GYL_CTX_CTRL 5) 8 2 ≠ a) :
    ∃ t, exec (.sampleInstant a vm) s = .next t ∧ SampleTaken s t a vm false := by
  have htaken := State.actSample_taken hready vm false
  have hsamples := State.sampleInstant_eq hready.1 hstill hacq vm
  have hkept : (s.actSample a vm false).reg (Reg.GYL_CTX_CTRL 5) = s.reg (Reg.GYL_CTX_CTRL 5) := by
    obtain ⟨-, -, -, -, -, -, -, -, -, -, -, -, -, -, hbut⟩ := htaken
    exact hbut _ (ctrl5_not_mem_sampleRegs a)
  have hother : (s.actSample a vm false).fld (Reg.GYL_CTX_CTRL 5) 8 2 ≠ a.val := by
    rw [State.fld, hkept]
    exact hfive
  exact ⟨_, congrArg done (hsamples.trans (if_neg hother)), htaken.settle⟩

/-- Settles O37: wedges are demodulated or missed, and a sample instant takes its sample. -/
theorem wedgesAndSampleInstants : Obligations.WedgesAndSampleInstants := by
  unfold Obligations.WedgesAndSampleInstants
  refine ⟨fun a w s hon hload => ⟨fun htaken hbursts => ?_, fun hacq hseq hfew hgate => ?_⟩,
    fun a s hon hfew => exec_missedWedge hon hfew,
    fun a vm s hgate => ⟨exec_sampleInstant_off vm hgate, exec_sampleInstant_seek vm hgate, fun hready hstill hacq hfive =>
      exec_sampleInstant_taken vm hready hstill hacq hfive⟩, exec_seekGo⟩
  · have htaken' := htaken.imp id (s.wedgeInSeq_iff a w).2
    obtain ⟨t, hexec, hown, hpos, hfrac, hother, hframe, hbut⟩ := exec_servoWedge_taken hon hload htaken' hbursts
    refine ⟨t, _, hexec, hown, rfl, fun h => if_pos ((s.wedgeInSeq_iff a w).2 h),
      fun h => if_neg fun h' => h ((s.wedgeInSeq_iff a w).1 h'), fun hres => if_pos hres, hpos, hfrac, hother, hframe, hbut⟩
  · have hseq' : s.wedgeInSeq a w = false := Bool.eq_false_iff.2 fun h => hseq ((s.wedgeInSeq_iff a w).1 h)
    exact exec_servoWedge_outOfSequence hon hacq hseq' hfew hgate

end Sys2Proof.Machine
end
